-- ==== Sys2Proof/Word.lean ====
section
/-!
DEFINITION. The words of the V768: bytes, 32-bit words, 64-bit double words and lane masks (spec 05 R138, 06 R159).
-/

namespace Sys2Proof

/-- One byte of memory or of a local space. -/
abbrev Byte := BitVec 8

/-- One lane of a vector register, a scalar register or a program counter (R37, R138). -/
abbrev Word := BitVec 32

/-- An instruction word, or a 64-bit value in a register pair (R138, R159). -/
abbrev Dword := BitVec 64

/-- One bit per lane of a wave, bit `l` for lane `l` (R33, R206). -/
abbrev Mask := BitVec 32

/-- The 32 lanes of a wave in ascending order (R33). -/
def lanes : List Nat := List.range 32

/-- The lanes set in a mask, in ascending order. -/
def lanesOf (m : Mask) : List Nat := lanes.filter (fun l => m.getLsbD l)

end Sys2Proof
end

