-- ==== Sys2Proof/Syntax.lean ====
section
/-!
DEFINITION. The instructions and steps of the V768 (spec 06 R159 to R178, opcode_table.json): the word formats, the
half-ops, the operands of the steps other agents take, and `Instr`, one constructor per row of the opcode table.
-/

namespace Sys2Proof

/-- The place of a wave: core (R14), scheduler 0 to 3, slot 0 to 31, or slot 32 for a responder (R54, R68). -/
structure WaveId where
  core : Nat
  sched : Nat
  slot : Nat
  deriving DecidableEq, Repr

/-- What the debug function stops: a wave, the workgroup in a slot of a core, or every wave of the tenant (R418). -/
inductive DebugTarget where
  | wave (w : WaveId)
  | group (core wg : Nat)
  | tenant
  deriving DecidableEq, Repr

/-- An R-format word (R161): marker, PRED, D, A, B, C and MOD. -/
structure RWord where
  m : Bool
  pred : BitVec 4
  d : BitVec 9
  a : BitVec 9
  b : BitVec 9
  c : BitVec 9
  mod : BitVec 14
  deriving DecidableEq, Repr

/-- MOD bits 13:10, the type code (R162). -/
def RWord.ty (w : RWord) : Nat := (w.mod.extractLsb' 10 4).toNat

/-- MOD bits 9:4, the sub-operation (R162). -/
def RWord.minor (w : RWord) : Nat := (w.mod.extractLsb' 4 6).toNat

/-- MOD bits 3:0, the flags (R162). -/
def RWord.flags (w : RWord) : BitVec 4 := w.mod.extractLsb' 0 4

/-- An I-format word (R161): marker, D, A, PRED and IMM32. -/
structure IWord where
  m : Bool
  d : BitVec 9
  a : BitVec 9
  pred : BitVec 4
  imm : BitVec 32
  deriving DecidableEq, Repr

/-- An M-format word (R161): marker, D, BASE, SEG, PRED, MOPT and IMM24. -/
structure MWord where
  m : Bool
  d : BitVec 9
  base : BitVec 8
  seg : BitVec 4
  pred : BitVec 4
  mopt : BitVec 5
  imm : BitVec 24
  deriving DecidableEq, Repr

/-- MOPT bits 4:2 of the word's MOPT field, the size code (R164). -/
def MWord.size (w : MWord) : Nat := (w.mopt.extractLsb' 2 3).toNat

/-- MOPT bits 1:0, the mode (R164). -/
def MWord.mode (w : MWord) : Nat := (w.mopt.extractLsb' 0 2).toNat

/-- A B-format word (R161, R165): marker, PRED, MINOR, A, AUX and OFFSET. -/
structure BWord where
  m : Bool
  pred : BitVec 4
  minor : BitVec 5
  a : BitVec 9
  aux : BitVec 4
  offset : BitVec 32
  deriving DecidableEq, Repr

/-- The half-ops of R173. -/
inductive HalfOp where
  | nop | mov | iadd | isub | and | or | xor | imin | imax | shl | shr | sar
  | fadd | fmul | fmin | fmax | iaddi | andi | shli | shri | movi | fneg | fabs | not
  deriving DecidableEq, Repr

/-- The fields of one half of a paired word (R171). -/
structure HalfFields where
  d : BitVec 8
  a : BitVec 8
  imm : BitVec 8
  deriving DecidableEq, Repr

/-- One half of a paired word: its half-op and fields (R171). -/
structure Half where
  op : HalfOp
  f : HalfFields
  deriving DecidableEq, Repr

/-- What a kernel's code object declares beside the LAUNCH packet (R87, R384, R517): scratchpad tiles as
(number, base, rows), the features its words use, and the `.live` table as (PC of the marked word, registers dead after
it) (R52, R519). Log 15. -/
structure CodeObject where
  tiles : List (Nat × Nat × Nat)
  features : List Nat
  live : List (Nat × List Nat)
  deriving DecidableEq, Repr

/-- A mailbox request: the issuing function (96 is the physical function), the header fields of R402, the payload. -/
structure MailReq where
  vf : Nat
  target : Nat
  arg : Dword
  tag : BitVec 16
  payload : List Byte
  deriving DecidableEq, Repr

/-- An SPDM request of R400: the function asked (96 physical, 97 debug), a slot or session number and its data. -/
structure SpdmReq where
  fn : Nat
  param : Nat
  data : List Byte
  deriving DecidableEq, Repr

/-- What the debug function reads or writes of a stopped wave (R418): a PC, a register by its code of R445, a mask, the
flags, a byte of a local space, a queue level, a word of the wake condition. -/
inductive DebugItem where
  | pc (lane : Nat)
  | vreg (reg lane : Nat)
  | sreg (reg : Nat)
  | mask (k : Nat)
  | flags
  | space (space offset : Nat)
  | queue (q : Nat)
  | wake (part : Nat)
  deriving DecidableEq, Repr

/-- One constructor per row of the opcode table: the words of R178 and the half-ops of R173 (named by half A of a
paired word), then the steps that engines, firmware, the host and the links take. -/
inductive Instr where
  /-- NOP: Does nothing; the lanes advance to the next word (R228). -/
  | nop (w : BWord)
  /-- EXIT: Exits the lanes of the effective mask; the wave ends when its last lane exits (R230). -/
  | exit (w : BWord)
  /-- JMP: Transfers the lanes of the effective mask to PC plus the signed offset (R229). -/
  | jmp (w : BWord)
  /-- BRV: Per-lane branch, unconditional or on a value being non-zero or zero (R229). -/
  | brv (w : BWord)
  /-- BRU: Branch on a wave-wide condition over a mask or a uniform value (R229). -/
  | bru (w : BWord)
  /-- JMPI: Transfers each lane to its own register target (R231). -/
  | jmpi (w : BWord)
  /-- CALL: Writes PC + 1 to a link register and transfers (R231). -/
  | call (w : BWord)
  /-- CALLI: Reads a linkage entry, writes the link register and transfers to the entry's target when the read returns (R232). -/
  | calli (w : BWord)
  /-- RET: Transfers each lane to the return target held in its register (R231). -/
  | ret (w : BWord)
  /-- RWAIT: Holds lanes at the PC until arrival of lower lanes or a deadline (R233). -/
  | rwait (w : BWord)
  /-- LOOP: Decrements a scalar count and transfers while the result is non-zero (R234). -/
  | loop (w : BWord)
  /-- YIELD: Counts as 32 issued words, so that another ready wave is selected next (R235). -/
  | yield (w : BWord)
  /-- PRI_PASS: Moves the scheduler's priority token to a named wave of the workgroup on the same scheduler (R235). -/
  | priPass (w : BWord)
  /-- SLEEP: Parks the wave until the clock reaches the issue time plus a count (R236). -/
  | sleep (w : BWord)
  /-- TRAP: Raises SOFTWARE with a uniform operand (R244). -/
  | trap (w : BWord)
  /-- TRET: Rebuilds the PC table, exit bits and held set from the trap save areas and leaves the handler (R243). -/
  | tret (w : BWord)
  /-- BAR_FULL: Arrives at a barrier slot and waits for its generation to complete (R237). -/
  | barFull (w : BWord)
  /-- BAR_ARRIVE: Records the wave's arrival for the slot's current generation (R237). -/
  | barArrive (w : BWord)
  /-- BAR_WAIT: Waits for the generation after the wave's recorded arrival, parking if needed (R237). -/
  | barWait (w : BWord)
  /-- BAR_ENS_FULL: Arrives at an ensemble barrier slot and waits for its completion (R238). -/
  | barEnsFull (w : BWord)
  /-- BAR_ENS_ARRIVE: Records an arrival at an ensemble barrier slot (R238). -/
  | barEnsArrive (w : BWord)
  /-- BAR_ENS_WAIT: Waits on an ensemble barrier slot (R238). -/
  | barEnsWait (w : BWord)
  /-- BRK: Raises BREAKPOINT, or stops the wave for an attached debugger (R244). -/
  | brk (w : BWord)
  /-- SNAP: Raises the partition's snapshot trigger with a tag (R245). -/
  | snap (w : BWord)
  /-- IADD: Integer add with optional carry and saturation (R189). -/
  | iadd (w : RWord)
  /-- ISUB: Integer subtract with optional borrow and saturation (R189). -/
  | isub (w : RWord)
  /-- IMUL: Integer multiply, low part (R189). -/
  | imul (w : RWord)
  /-- IMULH: Integer multiply, high part (R189). -/
  | imulh (w : RWord)
  /-- IMAD: Integer multiply-add (R189). -/
  | imad (w : RWord)
  /-- IABS: Integer absolute value (R189). -/
  | iabs (w : RWord)
  /-- IMIN: Integer minimum (R189). -/
  | imin (w : RWord)
  /-- IMAX: Integer maximum (R189). -/
  | imax (w : RWord)
  /-- SHL: Shift left (R189). -/
  | shl (w : RWord)
  /-- SHR: Logical shift right (R189). -/
  | shr (w : RWord)
  /-- SAR: Arithmetic shift right (R189). -/
  | sar (w : RWord)
  /-- ROT: Rotate left or right (R189). -/
  | rot (w : RWord)
  /-- WEXT: Extracts a 32-bit window from a 64-bit pair (R191). -/
  | wext (w : RWord)
  /-- LFN: Bitwise selection between two two-input logic functions (R192). -/
  | lfn (w : RWord)
  /-- AND: Bitwise AND (R193). -/
  | andW (w : RWord)
  /-- OR: Bitwise OR (R193). -/
  | orW (w : RWord)
  /-- XOR: Bitwise exclusive-or (R193). -/
  | xorW (w : RWord)
  /-- ANDN: a AND NOT b (R193). -/
  | andn (w : RWord)
  /-- NOT: Bitwise complement (R193). -/
  | notW (w : RWord)
  /-- BFE: Bit-field extract (R196). -/
  | bfe (w : RWord)
  /-- BFI: Bit-field insert (R196). -/
  | bfi (w : RWord)
  /-- POPC: Population count (R189). -/
  | popc (w : RWord)
  /-- CLZ: Count of leading zeros (R189). -/
  | clz (w : RWord)
  /-- CTZ: Count of trailing zeros (R189). -/
  | ctz (w : RWord)
  /-- BREV: Bit reversal (R189). -/
  | brev (w : RWord)
  /-- BSEL: Builds result bytes from eight source bytes (R197). -/
  | bsel (w : RWord)
  /-- ICMP: Integer compare into a mask register, optionally combined (R195). -/
  | icmp (w : RWord)
  /-- SEL: Per-lane select under a mask (R193). -/
  | sel (w : RWord)
  /-- MOV: Register move (R193). -/
  | mov (w : RWord)
  /-- DOT4: Four-byte dot product with accumulate (R198). -/
  | dot4 (w : RWord)
  /-- ISAD: Sum of absolute difference with accumulate (R198). -/
  | isad (w : RWord)
  /-- IDIV: Integer division, quotient or remainder (R194). -/
  | idiv (w : RWord)
  /-- IADDI: Add a 32-bit immediate (R199). -/
  | iaddi (w : IWord)
  /-- IMULI: Multiply by a 32-bit immediate (R199). -/
  | imuli (w : IWord)
  /-- ANDI: AND with an immediate (R199). -/
  | andi (w : IWord)
  /-- ORI: OR with an immediate (R199). -/
  | ori (w : IWord)
  /-- XORI: Exclusive-or with an immediate (R199). -/
  | xori (w : IWord)
  /-- SHLI: Shift left by an immediate (R199). -/
  | shli (w : IWord)
  /-- SHRI: Logical shift right by an immediate (R199). -/
  | shri (w : IWord)
  /-- SARI: Arithmetic shift right by an immediate (R199). -/
  | sari (w : IWord)
  /-- MOVI: Moves a 32-bit immediate (R199). -/
  | movi (w : IWord)
  /-- MOVHI: Writes a pair from a register and an immediate high word (R199). -/
  | movhi (w : IWord)
  /-- ICMPI: Compares with an immediate into a mask register (R200). -/
  | icmpi (w : IWord)
  /-- ADD64: 64-bit add (R201). -/
  | add64 (w : RWord)
  /-- SUB64: 64-bit subtract (R201). -/
  | sub64 (w : RWord)
  /-- MUL64: 64-bit multiply, low or high (R201). -/
  | mul64 (w : RWord)
  /-- SHL64: 64-bit shift left (R201). -/
  | shl64 (w : RWord)
  /-- SHR64: 64-bit logical or arithmetic shift right (R201). -/
  | shr64 (w : RWord)
  /-- LEA: Adds a scaled, extended index to a 64-bit address (R201). -/
  | lea (w : RWord)
  /-- CMP64: 64-bit compare into a mask (R201). -/
  | cmp64 (w : RWord)
  /-- SEL64: 64-bit select under a mask (R201). -/
  | sel64 (w : RWord)
  /-- MOV_SR: Reads a special register (R203). -/
  | movSr (w : RWord)
  /-- MOV_SS: Writes the sticky flags (R204). -/
  | movSs (w : RWord)
  /-- LANE_RD: Reads one lane of a vector register into a scalar (R205). -/
  | laneRd (w : RWord)
  /-- LANE_WR: Writes one lane of a vector register (R205). -/
  | laneWr (w : RWord)
  /-- KOP: Logic operation on whole mask registers (R206). -/
  | kop (w : RWord)
  /-- KMOV: Moves masks to and from masks, values, scalars or the active mask (R206). -/
  | kmov (w : RWord)
  /-- KPOP: Counts the set bits of a mask (R206). -/
  | kpop (w : RWord)
  /-- KFFS: Finds the lowest or highest set bit of a mask (R206). -/
  | kffs (w : RWord)
  /-- FADD: Floating add (R214). -/
  | fadd (w : RWord)
  /-- FSUB: Floating subtract (R214). -/
  | fsub (w : RWord)
  /-- FMUL: Floating multiply (R214). -/
  | fmul (w : RWord)
  /-- FMA: Fused multiply-add (R214). -/
  | fma (w : RWord)
  /-- FMIN: Floating minimum (R215). -/
  | fmin (w : RWord)
  /-- FMAX: Floating maximum (R215). -/
  | fmax (w : RWord)
  /-- FCMP: Floating compare into a mask (R215). -/
  | fcmp (w : RWord)
  /-- FCLASS: Floating classification into a mask (R215). -/
  | fclass (w : RWord)
  /-- FRCP: Approximate reciprocal (R216). -/
  | frcp (w : RWord)
  /-- FRSQ: Approximate reciprocal square root (R216). -/
  | frsq (w : RWord)
  /-- FSQRT: Correctly rounded square root (R216). -/
  | fsqrt (w : RWord)
  /-- FEXP2: Approximate base-2 exponential (R216). -/
  | fexp2 (w : RWord)
  /-- FLOG2: Approximate base-2 logarithm (R216). -/
  | flog2 (w : RWord)
  /-- FSIN: Approximate sine (R216). -/
  | fsin (w : RWord)
  /-- FCOS: Approximate cosine (R216). -/
  | fcos (w : RWord)
  /-- FROUND: Rounds to an integral value in the mode (R214). -/
  | fround (w : RWord)
  /-- FFRACT: Fractional part (R214). -/
  | ffract (w : RWord)
  /-- FLDEXP: Scales by a power of two (R214). -/
  | fldexp (w : RWord)
  /-- FEXS: Computes 2 to the power a times b minus c (R217). -/
  | fexs (w : RWord)
  /-- FTANH: Approximate hyperbolic tangent (R216). -/
  | ftanh (w : RWord)
  /-- HADD2: Packed 16-bit add (R218). -/
  | hadd2 (w : RWord)
  /-- HMUL2: Packed 16-bit multiply (R218). -/
  | hmul2 (w : RWord)
  /-- HFMA2: Packed 16-bit fused multiply-add (R218). -/
  | hfma2 (w : RWord)
  /-- HMAX2: Packed 16-bit maximum (R218). -/
  | hmax2 (w : RWord)
  /-- FDOT2: Packed two-element dot product into f32 (R218). -/
  | fdot2 (w : RWord)
  /-- CVT: Converts between types (R219). -/
  | cvt (w : RWord)
  /-- CVT_PK8: Packs two values as fp8 bytes, optionally scaled (R220). -/
  | cvtPk8 (w : RWord)
  /-- CVT_EX8: Extracts an fp8 byte to f32, optionally scaled (R220). -/
  | cvtEx8 (w : RWord)
  /-- Q4_SCALE: Derives a block scale byte from lane magnitudes (R222). -/
  | q4Scale (w : RWord)
  /-- Q4_ENC: Encodes f32 values as q4 codes under a scale (R223). -/
  | q4Enc (w : RWord)
  /-- Q4_DEC: Decodes a q4 code to f32 (R224). -/
  | q4Dec (w : RWord)
  /-- NIB_PACK: Packs the codes of a quarter into one word (R224). -/
  | nibPack (w : RWord)
  /-- NIB_UNPK: Extracts one nibble, optionally sign-extended (R224). -/
  | nibUnpk (w : RWord)
  /-- VOTE: Wave ballot, any, all or count (R247). -/
  | vote (w : RWord)
  /-- MATCH: Writes to each lane the set of lanes holding an equal value (R248). -/
  | matchL (w : RWord)
  /-- XLANE: Reads another lane's value within a group (R249). -/
  | xlane (w : RWord)
  /-- RED: Wave reduction over a fixed tree (R250). -/
  | red (w : RWord)
  /-- SCAN: Wave prefix scan in fixed steps (R250). -/
  | scan (w : RWord)
  /-- ELECT: Selects the lowest active lane (R251). -/
  | elect (w : RWord)
  /-- UCHK: Tests whether a value is uniform, or traps if not (R251). -/
  | uchk (w : RWord)
  /-- LD_SP: Load from the scratchpad (R263). -/
  | ldSp (w : MWord)
  /-- ST_SP: Store to the scratchpad (R263). -/
  | stSp (w : MWord)
  /-- LD_A: Load from the A-buffer (R263). -/
  | ldA (w : MWord)
  /-- ST_A: Store to the A-buffer (R263). -/
  | stA (w : MWord)
  /-- LD_C: Load from the C-buffer (R263). -/
  | ldC (w : MWord)
  /-- ST_C: Store to the C-buffer (R263). -/
  | stC (w : MWord)
  /-- LD_RSP: Load from another ensemble rank's scratchpad (R264). -/
  | ldRsp (w : MWord)
  /-- ST_RSP: Store to another ensemble rank's scratchpad (R264). -/
  | stRsp (w : MWord)
  /-- DQ_LD: Pushes a load request into a decoupling queue (R266). -/
  | dqLd (w : MWord)
  /-- DQ_POP: Claims the oldest entries of a queue and writes them when filled (R267). -/
  | dqPop (w : RWord)
  /-- ST_G: Global store (R269). -/
  | stG (w : MWord)
  /-- LD_P: Private load (R270). -/
  | ldP (w : MWord)
  /-- ST_P: Private store (R270). -/
  | stP (w : MWord)
  /-- DQ_CFG: Sets a queue's depth (R268). -/
  | dqCfg (w : RWord)
  /-- DQ_LVL: Reads a queue's level (R268). -/
  | dqLvl (w : RWord)
  /-- PREF: Prefetches lines into L1 or L2 (R270). -/
  | pref (w : MWord)
  /-- LD_K: Scalar global load for the wave (R270). -/
  | ldK (w : MWord)
  /-- LNK_LD: Observing acquire of the linkage cell and read of an entry (R271). -/
  | lnkLd (w : MWord)
  /-- XCOPY: Presents the wave's slice of a workgroup-collective copy (R280). -/
  | xcopy (w : MWord)
  /-- CP_SEAL: Closes the wave's open copy batch (R283). -/
  | cpSeal (w : RWord)
  /-- CP_WAIT: Waits until the unfinished batches are at most n (R283). -/
  | cpWait (w : RWord)
  /-- CP_WP: Reads a channel's write pointer (R283). -/
  | cpWp (w : RWord)
  /-- CP_WPW: Waits until a channel's write pointer reaches a value (R283). -/
  | cpWpw (w : RWord)
  /-- CHAIN_ADD: Appends one entry to a command chain and notifies its engine (R286). -/
  | chainAdd (w : MWord)
  /-- CHAIN_SEQ: Reads a chain's completed sequence number (R286). -/
  | chainSeq (w : RWord)
  /-- CHAIN_WAIT: Waits until a chain's sequence number reaches a value (R286). -/
  | chainWait (w : RWord)
  /-- GATHER: Reads one row per lane into the A-buffer on the gather path (R284). -/
  | gather (w : MWord)
  /-- KVTRIM: Trims the pages of a growable reservation beyond a new length (R287). -/
  | kvtrim (w : MWord)
  /-- ATOM: Global atomic read-modify-write returning the old value to a queue (R273). -/
  | atom (w : MWord)
  /-- ATOM_CAS: Global compare-and-swap returning the old value to a queue (R273). -/
  | atomCas (w : MWord)
  /-- RED_G: Global atomic with no returned value (R273). -/
  | redG (w : MWord)
  /-- ATOM_SP: Scratchpad atomic per lane (R274). -/
  | atomSp (w : MWord)
  /-- ACQ: Acquires a sync cell, parking while it is held (R275). -/
  | acq (w : MWord)
  /-- ACQ_TRY: Tries to acquire a sync cell without parking (R275). -/
  | acqTry (w : MWord)
  /-- REL: Publishes bound dirty words and releases a sync cell (R276). -/
  | rel (w : MWord)
  /-- BIND: Binds a region to a held cell (R277). -/
  | bind (w : MWord)
  /-- UNBIND: Removes a region binding from a held cell (R277). -/
  | unbind (w : MWord)
  /-- FENCE: Scoped fence: release and acquire of the scope's implicit cell (R278). -/
  | fence (w : RWord)
  /-- XFENCE: Orders one access path before another (R279). -/
  | xfence (w : RWord)
  /-- XFENCE_CH: Channel form of xfence completing when a channel's write pointer reaches a value (R279). -/
  | xfenceCh (w : RWord)
  /-- MRES: Checks a reservation record and binds it to the lowest free handle (R293). -/
  | mres (w : RWord)
  /-- MFREE: Frees a reservation handle (R295). -/
  | mfree (w : RWord)
  /-- MMA_Q: Quarter matrix product command into C-buffer tiles (R304). -/
  | mmaQ (w : RWord)
  /-- MMA: Whole-wave matrix product command of four quarters (R304). -/
  | mma (w : RWord)
  /-- MQK: Score tile command run through a score-modification program (R310). -/
  | mqk (w : RWord)
  /-- MSV: Probability-times-value product command (R304). -/
  | msv (w : RWord)
  /-- MWAIT: Waits for one command and makes its writes and flags visible (R306). -/
  | mwait (w : RWord)
  /-- MWAIT_ALL: Waits for every unretired command of the wave (R306). -/
  | mwaitAll (w : RWord)
  /-- SMP_LD: Loads a score-modification program image into a slot (R307). -/
  | smpLd (w : RWord)
  /-- MROW: Row maxima and sums of a tile (R311). -/
  | mrow (w : RWord)
  /-- MSCALE: Rescales each tile row (R312). -/
  | mscale (w : RWord)
  /-- MTRANS: Writes a tile or its transpose into a reservation (R313). -/
  | mtrans (w : RWord)
  /-- MZERO: Zeroes a tile (R314). -/
  | mzero (w : RWord)
  /-- ASM_NEW: Reads an object descriptor and takes a DISARMED object slot (R337). -/
  | asmNew (w : RWord)
  /-- ASM_ARM: Installs watch entries and arms an object if its fact holds (R338). -/
  | asmArm (w : RWord)
  /-- ASM_DEP: Registers a region that depends on armed objects (R339). -/
  | asmDep (w : RWord)
  /-- ASM_TEST_OBJ: Reports an object's state (R340). -/
  | asmTestObj (w : RWord)
  /-- ASM_TEST_REG: Reports a region's state (R340). -/
  | asmTestReg (w : RWord)
  /-- ASM_DROP_OBJ: Frees an object and removes its watch entries (R340). -/
  | asmDropObj (w : RWord)
  /-- ASM_DROP_REG: Frees a region slot (R340). -/
  | asmDropReg (w : RWord)
  /-- ASM_INFO_PC: Reads each lane's former PC from its assumption record (R341). -/
  | asmInfoPc (w : RWord)
  /-- ASM_INFO_REC: Reads each lane's assumption record word (R341). -/
  | asmInfoRec (w : RWord)
  /-- ASM_INFO_CLR: Clears each lane's assumption record word (R341). -/
  | asmInfoClr (w : RWord)
  /-- LAD_INIT: Initialises a ladder block (R355). -/
  | ladInit (w : RWord)
  /-- LAD_PUSH: Pushes a tile into a ladder, merging rungs upward (R350). -/
  | ladPush (w : RWord)
  /-- LAD_BLEND: Writes the weighted sum of occupied rungs (R351). -/
  | ladBlend (w : RWord)
  /-- LAD_RUNG_LD: Reads rung bytes on the vector path (R356). -/
  | ladRungLd (w : RWord)
  /-- LAD_RUNG_ST: Writes rung bytes on the vector path (R356). -/
  | ladRungSt (w : RWord)
  /-- LAD_RUNG_CNT: Reads a ladder's step count and occupancy (R356). -/
  | ladRungCnt (w : RWord)
  /-- DIR_INS: Inserts a tile directory entry through the root (R364). -/
  | dirIns (w : RWord)
  /-- DIR_DEL: Deletes a directory entry through the root (R364). -/
  | dirDel (w : RWord)
  /-- DIR_MOV: Moves an entry and its tile to another ensemble rank (R365). -/
  | dirMov (w : RWord)
  /-- DIR_LOOK: Looks up an entry index by key locally (R364). -/
  | dirLook (w : RWord)
  /-- SOL: Takes a census result slot and sends a solicit to the root (R366). -/
  | sol (w : RWord)
  /-- CNS_WAIT: Waits for a census slot to complete (R372). -/
  | cnsWait (w : RWord)
  /-- CNS_RD: Reads a completed census result and frees the slot (R372). -/
  | cnsRd (w : RWord)
  /-- RESP_END: Ends a responder and gives its reply words (R370). -/
  | respEnd (w : RWord)
  /-- RDSR: Reads a system register (R253). -/
  | rdsr (w : RWord)
  /-- WRSR: Writes a system register (R254). -/
  | wrsr (w : RWord)
  /-- SEG_BIND: Loads a segment register (R255). -/
  | segBind (w : RWord)
  /-- PTOK: Sets the workgroup's granted matrix power tokens (R256). -/
  | ptok (w : RWord)
  /-- PERF: Reads a performance counter (R256). -/
  | perf (w : RWord)
  /-- CLK: Reads the shared reference clock (R256). -/
  | clk (w : RWord)
  /-- CLK_WAVE: Reads the wave's resident cycle count (R256). -/
  | clkWave (w : RWord)
  /-- HALT: Stops the wave and reports it to the debug function (R257). -/
  | halt (w : RWord)
  /-- TLB_INV_PAGE: Drops the translation of one page from every TLB of the partition (R258). -/
  | tlbInvPage (w : RWord)
  /-- TLB_INV_VF: Drops every translation of the issuing function (R258). -/
  | tlbInvVf (w : RWord)
  /-- TLB_INV_PART: Drops every translation of the partition (R258). -/
  | tlbInvPart (w : RWord)
  /-- CTX_SV: Evicts a workgroup named by its record (R259). -/
  | ctxSv (w : RWord)
  /-- CTX_LD: Restores a saved workgroup onto the core (R259). -/
  | ctxLd (w : RWord)
  /-- HNOP: Half-op with no effect (R207). -/
  | hnop (m : Bool) (a : HalfFields) (b : Half)
  /-- HMOV: Half-op register move (R207). -/
  | hmov (m : Bool) (a : HalfFields) (b : Half)
  /-- HIADD: Half-op integer add (R207). -/
  | hiadd (m : Bool) (a : HalfFields) (b : Half)
  /-- HISUB: Half-op integer subtract (R207). -/
  | hisub (m : Bool) (a : HalfFields) (b : Half)
  /-- HAND: Half-op AND (R207). -/
  | hand (m : Bool) (a : HalfFields) (b : Half)
  /-- HOR: Half-op OR (R207). -/
  | hor (m : Bool) (a : HalfFields) (b : Half)
  /-- HXOR: Half-op exclusive-or (R207). -/
  | hxor (m : Bool) (a : HalfFields) (b : Half)
  /-- HIMIN: Half-op signed minimum (R207). -/
  | himin (m : Bool) (a : HalfFields) (b : Half)
  /-- HIMAX: Half-op signed maximum (R207). -/
  | himax (m : Bool) (a : HalfFields) (b : Half)
  /-- HSHL: Half-op shift left (R207). -/
  | hshl (m : Bool) (a : HalfFields) (b : Half)
  /-- HSHR: Half-op logical shift right (R207). -/
  | hshr (m : Bool) (a : HalfFields) (b : Half)
  /-- HSAR: Half-op arithmetic shift right (R207). -/
  | hsar (m : Bool) (a : HalfFields) (b : Half)
  /-- HFADD: Half-op f32 add (R225). -/
  | hfadd (m : Bool) (a : HalfFields) (b : Half)
  /-- HFMUL: Half-op f32 multiply (R225). -/
  | hfmul (m : Bool) (a : HalfFields) (b : Half)
  /-- HFMIN: Half-op f32 minimum (R225). -/
  | hfmin (m : Bool) (a : HalfFields) (b : Half)
  /-- HFMAX: Half-op f32 maximum (R225). -/
  | hfmax (m : Bool) (a : HalfFields) (b : Half)
  /-- HIADDI: Half-op add of a sign-extended immediate (R207). -/
  | hiaddi (m : Bool) (a : HalfFields) (b : Half)
  /-- HANDI: Half-op AND with a zero-extended immediate (R207). -/
  | handi (m : Bool) (a : HalfFields) (b : Half)
  /-- HSHLI: Half-op shift left by an immediate (R207). -/
  | hshli (m : Bool) (a : HalfFields) (b : Half)
  /-- HSHRI: Half-op logical shift right by an immediate (R207). -/
  | hshri (m : Bool) (a : HalfFields) (b : Half)
  /-- HMOVI: Half-op move of a sign-extended immediate (R207). -/
  | hmovi (m : Bool) (a : HalfFields) (b : Half)
  /-- HFNEG: Half-op f32 negate (R225). -/
  | hfneg (m : Bool) (a : HalfFields) (b : Half)
  /-- HFABS: Half-op f32 absolute value (R225). -/
  | hfabs (m : Bool) (a : HalfFields) (b : Half)
  /-- HNOT: Half-op bitwise complement (R207). -/
  | hnot (m : Bool) (a : HalfFields) (b : Half)
  /-- RWAIT_TIMEOUT: The held set's deadline passes and its lanes release with the timeout mask set (R233). -/
  | rwaitTimeout (w : WaveId)
  /-- REMOTE_SCRATCHPAD_REPLY: The reply of a remote scratchpad access returns and meets the wave's wait (R83). -/
  | remoteScratchpadReply (w : WaveId) (tag : Nat)
  /-- QUEUE_ENTRY_FILL: A load's data lands in its allocated queue entries (R90). -/
  | queueEntryFill (w : WaveId) (tag : Nat)
  /-- DIRECT_LOAD_RETURN: Data of a direct load returns to its register (R94). -/
  | directLoadReturn (w : WaveId) (tag : Nat)
  /-- COPY_UNIT_VISIBLE: A 64 B unit of a channel becomes visible and the write pointer advances (R282). -/
  | copyUnitVisible (core wg channel : Nat)
  /-- GATHER_ROW_LAND: A gathered row lands in the A-buffer (R284). -/
  | gatherRowLand (w : WaveId) (tag lane : Nat)
  /-- TRIM_FRAME_RETURN: Once earlier accesses drain, a trimmed frame's count falls and a zero-count frame is cleared and returned (R110). -/
  | trimFrameReturn (part : Nat)
  /-- CELL_REQUEST_AT_HOME: The cell's home performs an acquire, release, bind or unbind in the cell order, deciding holder SYNC faults (R118). -/
  | cellRequestAtHome (w : WaveId) (tag : Nat)
  /-- ACQUIRE_GRANT: A grant reaches the acquiring core, which drops non-owned bound words and guest sectors and increments its stamp (R117). -/
  | acquireGrant (w : WaveId) (tag : Nat)
  /-- REGISTRATION_AT_HOME: A write registers at its home slice, taking ownership and possibly being held at a watch entry (R120). -/
  | registrationAtHome (core word : Nat)
  /-- REGISTRATION_ACK: The acknowledgement of a registration reaches the writer and the word becomes owned (R120). -/
  | registrationAck (core word : Nat)
  /-- WRITE_LEAVE_TIMEOUT: A written word leaves the L1 65,536 cycles after it was first written (R120). -/
  | writeLeaveTimeout (core word : Nat)
  /-- CLEAN_LINE_EXPIRY: A clean non-owned L1 line is dropped 65,536 cycles after its fill (R121). -/
  | cleanLineExpiry (core line : Nat)
  /-- SMP_IMAGE_FETCH_COMPLETE: The image fetch ends and the slot becomes LOADED or INVALID with a status (R307). -/
  | smpImageFetchComplete (w : WaveId) (tag : Nat)
  /-- MATRIX_COMMAND_START: A startable command starts, taking tokens and reading operands, possibly fused into a wide pass (R298). -/
  | matrixCommandStart (core cmd : Nat)
  /-- MATRIX_COMMAND_RETIRE: A command retires, writing its C-buffer bytes and ORing its flags (R298). -/
  | matrixCommandRetire (core cmd : Nat)
  /-- SHADOW_CHECK_COMPLETE: The checker completes and writes a telemetry entry with the largest deviation (R158). -/
  | shadowCheckComplete (core : Nat)
  /-- REGISTRY_OPERATION: The registry performs an assumption operation in its total order and returns the result word (R342). -/
  | registryOperation (w : WaveId) (tag : Nat)
  /-- WATCH_REPORT_AT_REGISTRY: A held write's report reaches the registry, which releases it or breaks the object and starts a revocation (R322). -/
  | watchReportAtRegistry (held : Nat)
  /-- HELD_WRITE_SLICE_RELEASE: A non-breaking FIX or EQ write is released at its slice within 40 cycles (R322). -/
  | heldWriteSliceRelease (held : Nat)
  /-- REVOKE_APPLY: A core applies REVOKE, updates its replica, drops windows, marks waves and acknowledges when no wave can issue a revoked word (R329). -/
  | revokeApply (core part slot : Nat)
  /-- REVOKE_ACK_COMBINE: The partition root has combined every core's acknowledgement and the registry sends the release (R327). -/
  | revokeAckCombine (part slot : Nat)
  /-- REVOKE_RELEASE: The home slice registers the held write and removes the broken object's watch entries (R327). -/
  | revokeRelease (part slot : Nat)
  /-- REVOCATION_SLOT_FREE: After every core reports no outstanding old-mask access, the registry frees the slot and its shadows (R328). -/
  | revocationSlotFree (part slot : Nat)
  /-- LADDER_COMMAND_START: A ladder command reads and checks its descriptor at start, failing or acting (R354). -/
  | ladderCommandStart (core cmd : Nat)
  /-- MOVE_TARGET_CHECK: The target core checks a move and takes a PENDING entry or refuses (R365). -/
  | moveTargetCheck (w : WaveId) (tag : Nat)
  /-- MOVE_COPY_COMPLETE: Every byte of a moved tile has landed and the source sends the move commit (R365). -/
  | moveCopyComplete (w : WaveId) (tag : Nat)
  /-- ROOT_ORDER_ENTRY: The partition root places a solicit or directory commit in root order and forwards it (R361). -/
  | rootOrderEntry (part index : Nat)
  /-- SOLICIT_APPLY: A core applies a solicit in root order, matching entries and spawning responders or answering at once (R368). -/
  | solicitApply (core : Nat)
  /-- DIRECTORY_COMMIT_APPLY: A core applies an insert, delete or move commit and writes its result (R361). -/
  | directoryCommitApply (core : Nat)
  /-- RESPONDER_FAILURE: A responder issues an illegal word, faults or issues a 257th word, and replies the identity (R471). -/
  | responderFailure (core slot code : Nat)
  /-- CHANTER_COMBINE: A Chanter node, having every child's reply, combines them and passes upward (R371). -/
  | chanterCombine (part place level node : Nat)
  /-- CENSUS_COMPLETE: The root's result reaches the asker's core and is written into the census result slot (R372). -/
  | censusComplete (part place : Nat)
  /-- FIXED_RESULT_LATENCY: A fixed-latency entry leaves the pending-write set when its latency has elapsed (R176). -/
  | fixedResultLatency (w : WaveId)
  /-- VARIABLE_RESULT_WRITE: A variable-latency result is written and its entry leaves the pending-write set (R176). -/
  | variableResultWrite (w : WaveId) (tag : Nat)
  /-- WINDOW_PREFILL: Before a window's first issue the scheduler fills its absent register lines, parking if the prefill is long (R50). -/
  | windowPrefill (w : WaveId)
  /-- WAKE_CONDITION_MET: A parked wave's wake condition is met; it becomes ready and may swap into the active set (R57). -/
  | wakeConditionMet (w : WaveId)
  /-- PENDING_DISPLACEMENT: A pending wave ready for 512 cycles displaces the longest-active wave at its next marker (R58). -/
  | pendingDisplacement (core sched : Nat)
  /-- TRANSLATION_WALK_HOLD_EXPIRY: A walk not completed 64 cycles after the miss turns the hold into a park with KIND 0x0E (R477). -/
  | translationWalkHoldExpiry (w : WaveId)
  /-- TRANSLATION_WALK_COMPLETE: A walk completes, filling the TLB or raising a translation fault (R104). -/
  | translationWalkComplete (w : WaveId)
  /-- DEMAND_MAP: The walker maps a GROW page from the pool by compare-and-swap, or parks the store when refused (R106). -/
  | demandMap (w : WaveId)
  /-- RING_INSERT_RESERVATION: A stop that has waited 32 cycles reserves the next occupied slot of its partition (R22). -/
  | ringInsertReservation (die ring stop part : Nat)
  /-- BRIDGE_INSERT_RESERVATION: An inbound bridge message that has waited 32 cycles reserves a slot (R23). -/
  | bridgeInsertReservation (die ring bridge part : Nat)
  /-- SAVE_AHEAD_WRITEBACK: The save-ahead engine writes dirty units back to bound the dirty save set (R62). -/
  | saveAheadWriteback (core : Nat)
  /-- TIME_SLICE_EXPIRY: A time slice expires and either renews or begins the soft pre-emption grace period (R64). -/
  | timeSliceExpiry (part : Nat)
  /-- SOFT_PREEMPTION_EVICT: An eligible workgroup is frozen, saved and evicted (R59). -/
  | softPreemptionEvict (core wg : Nat)
  /-- GRACE_PERIOD_END: The 120,000-cycle grace period ends and remaining cores are hard pre-empted (R465). -/
  | gracePeriodEnd (part : Nat)
  /-- HARD_PREEMPTION: Every non-responder wave of a core is saved within 8,192 cycles (R61). -/
  | hardPreemption (core : Nat)
  /-- CONTEXT_RESTORE: A saved workgroup's records are checked and its waves placed pending (R461). -/
  | contextRestore (part saved core : Nat)
  /-- LATE_ARRIVAL: A fill, grant or census result arriving after a save is written into the saved record (R60). -/
  | lateArrival (part saved tag : Nat)
  /-- DISPATCH_INDEX: The dispatcher places the next grid index in the first cluster that can take it (R389). -/
  | dispatchIndex (part : Nat)
  /-- PLACER_START: A cluster placer starts its next task control block, placing its waves (R69). -/
  | placerStart (cluster : Nat)
  /-- STEAL_REQUEST: A placer with nothing startable asks the next cluster, which ships blocks or forwards (R70). -/
  | stealRequest (cluster : Nat)
  /-- QUEUE_WRITE_NOTIFY: A registration of WRITE notifies the dispatcher, which reads the new packets (R380). -/
  | queueWriteNotify (vf queue : Nat) (write : Word)
  /-- NOP_PACKET: A NOP packet retires in ring order (R382). -/
  | nopPacket (vf queue : Nat)
  /-- LAUNCH: A LAUNCH packet is checked, its bindings formed and its grid dispatched, or it is refused (R384). -/
  | launch (vf queue : Nat) (code : CodeObject)
  /-- SIGNAL_PACKET: A SIGNAL packet updates a cell's COUNT as a domain release (R386). -/
  | signalPacket (vf queue : Nat)
  /-- WAIT_PACKET: A WAIT packet holds the queue until a cell condition holds (R386). -/
  | waitPacket (vf queue : Nat)
  /-- MAP: Firmware writes leaves for a range of pages (R387). -/
  | mapPacket (vf queue : Nat)
  /-- UNMAP: Firmware clears leaves, returns pool frames and drops translations (R387). -/
  | unmapPacket (vf queue : Nat)
  /-- GRID_COMPLETE: Once every workgroup has exited and its writes are acknowledged, the grid completes and signals (R386). -/
  | gridComplete (part grid : Nat)
  /-- CHAIN_COPY: A chain entry copies LEN bytes in ascending address (R392). -/
  | chainCopy (part chain : Nat)
  /-- CHAIN_REDUCE: A chain entry reduces source into destination elementwise (R392). -/
  | chainReduce (part chain : Nat)
  /-- CHAIN_ALLREDUCE: A chain entry combines data across a domain group over a fixed tree (R424). -/
  | chainAllreduce (part chain : Nat) (others : List (Nat × List Byte))
  /-- CHAIN_SIGNAL: A chain entry signals a cell (R392). -/
  | chainSignal (part chain : Nat)
  /-- CHAIN_WAIT_ENTRY: A chain entry holds the chain until a cell condition is met (R392). -/
  | chainWaitEntry (part chain : Nat)
  /-- FAULT_DELIVERY: A fault is delivered: the wave enters its handler, or is killed and contained (R448). -/
  | faultDelivery (w : WaveId)
  /-- DEFERRED_FAULT_KNOWN: A deferred fault becomes known and awaits delivery at the next marker or blocking point (R521). -/
  | deferredFaultKnown (w : WaveId) (tag : Nat)
  /-- WORKGROUP_CONTAINMENT: An unhandled or double fault contains the workgroup and its ensemble (R451). -/
  | workgroupContainment (core wg : Nat)
  /-- FAULT_RECORD_POST: A fault record reaches the firmware, is listed and signalled on vector 66 (R450). -/
  | faultRecordPost
  /-- CONTEXT_KILL: A context's waves stop, its late registrations are discarded and its cells are poisoned (R491). -/
  | contextKill (ctx code : Nat)
  /-- PARTITION_CONTAINMENT: A partition is stopped, its contexts killed and its arrays cleared (R507). -/
  | partitionContainment (part code : Nat)
  /-- PARTITION_REINITIALISED: Firmware re-initialises a contained partition and posts an event (R507). -/
  | partitionReinitialised (part : Nat)
  /-- PACKAGE_CONTAINMENT: Every partition of the package is stopped until power-on (R507). -/
  | packageContainment
  /-- ARRAY_ERROR: An array detects a corrected or uncorrectable error and takes its action (R499). -/
  | arrayError (unitKind unit array addr : Nat) (corrected : Bool)
  /-- SCRUB_PATROL: Firmware scrubs a sector, correcting or poisoning it (R500). -/
  | scrubPatrol (sector : Nat) (uncorrectable : Bool)
  /-- QUOTA_INTERVAL_END: At the end of an interval each slice reallocates way quotas from its monitors (R412). -/
  | quotaIntervalEnd (part slice : Nat)
  /-- TEMP_REPORT: Temperatures are reported each millisecond and thermal actions taken (R427). -/
  | tempReport (readings : List (BitVec 16))
  /-- SNAPSHOT_TIMER: The timer period expires and triggers a partition snapshot (R416). -/
  | snapshotTimer (part : Nat)
  /-- HOST_TRIGGER: A host write to TRIGGER triggers a snapshot of a partition or the package (R401). -/
  | hostTrigger (vf : Nat) (value : Word)
  /-- REGISTER_WRITE: A write to a register with no row of its own, such as MBSTATUS or the MSI-X table (R8). -/
  | registerWrite (vf offset : Nat) (value : Dword)
  /-- HOST_WINDOW_ACCESS: A host read or write through BAR2 or BAR4 reaches device memory or queue lines (R398). -/
  | hostWindowAccess (vf bar addr : Nat) (data : List Byte) (size : Nat)
  /-- FEAT_ACCEPT: Mailbox request accepting a feature word (R415). -/
  | featAccept (r : MailReq)
  /-- QUEUE_STOP: Mailbox request stopping a queue (R381). -/
  | queueStop (r : MailReq)
  /-- QUEUE_START: Mailbox request restarting a stopped queue (R381). -/
  | queueStart (r : MailReq)
  /-- QUEUE_RESET: Mailbox request discarding packets of a stopped or errored queue (R381). -/
  | queueReset (r : MailReq)
  /-- FAULT_READ: Mailbox request returning and freeing the oldest fault record (R450). -/
  | faultRead (r : MailReq)
  /-- QUOTA_READ: Mailbox request returning the oldest quota event (R481). -/
  | quotaRead (r : MailReq)
  /-- QUOTA_ANSWER: Mailbox answer WAIT or REFUSE to a quota event (R482). -/
  | quotaAnswer (r : MailReq)
  /-- CTX_KILL: Mailbox request killing a context (R491). -/
  | ctxKill (r : MailReq)
  /-- CHAIN_REG: Mailbox request registering a chain with a collective engine (R391). -/
  | chainReg (r : MailReq)
  /-- CHAIN_UNREG: Mailbox request unregistering a chain (R404). -/
  | chainUnreg (r : MailReq)
  /-- CHAIN_RESTART: Mailbox request resuming a stopped chain at its stopped entry (R505). -/
  | chainRestart (r : MailReq)
  /-- CHAIN_SKIP: Mailbox request skipping a stopped chain's entry (R505). -/
  | chainSkip (r : MailReq)
  /-- POOL_SET: Mailbox request writing a page pool record, waking parked maps on a raised quota (R404). -/
  | poolSet (r : MailReq)
  /-- DEBUG_AUTH: Mailbox request authorising or withdrawing a debug session (R418). -/
  | debugAuth (r : MailReq)
  /-- SNAP_READ: Mailbox request reading the latest snapshot (R417). -/
  | snapRead (r : MailReq)
  /-- TEMP_READ: Mailbox request returning the latest temperature report (R404). -/
  | tempRead (r : MailReq)
  /-- EVENT_READ: Mailbox request returning and freeing the oldest asynchronous event (R405). -/
  | eventRead (r : MailReq)
  /-- HQ_WRITE: Mailbox request writing a queue's hypervisor half (R404). -/
  | hqWrite (r : MailReq)
  /-- TENANT: Mailbox request attaching or detaching a partition tenant (R409). -/
  | tenant (r : MailReq)
  /-- PART_CONFIG: Mailbox request creating, replacing or deleting a partition (R407). -/
  | partConfig (r : MailReq)
  /-- GRANT_RANGE: Mailbox request granting or withdrawing a physical range (R404). -/
  | grantRange (r : MailReq)
  /-- QUOTA_CTRL: Mailbox request writing a partition's quota control (R413). -/
  | quotaCtrl (r : MailReq)
  /-- TELE_SET: Mailbox request setting the telemetry ring header address (R503). -/
  | teleSet (r : MailReq)
  /-- TRIGGER_MASK: Mailbox request setting a partition's trigger mask (R508). -/
  | triggerMask (r : MailReq)
  /-- TIMER_TRIGGER: Mailbox request setting a snapshot timer period (R416). -/
  | timerTrigger (r : MailReq)
  /-- GROUP_REG: Mailbox request registering a domain group (R424). -/
  | groupReg (r : MailReq)
  /-- PACKAGE_SET: Mailbox request setting the package number and enabled ports (R422). -/
  | packageSet (r : MailReq)
  /-- FW_LOAD: Mailbox request loading an image chunk into the standby (R396). -/
  | fwLoad (r : MailReq)
  /-- FW_UPDATE: Mailbox request running a live firmware update and takeover (R396). -/
  | fwUpdate (r : MailReq)
  /-- PSTATE: Mailbox request changing the package power state (R426). -/
  | pstate (r : MailReq)
  /-- DUET_FORM: Mailbox request forming or dissolving a duet (R420). -/
  | duetForm (r : MailReq)
  /-- GET_VERSION: SPDM request returning versions (R400). -/
  | getVersion (q : SpdmReq)
  /-- GET_CAPABILITIES: SPDM request returning capabilities (R400). -/
  | getCapabilities (q : SpdmReq)
  /-- NEGOTIATE_ALGORITHMS: SPDM request negotiating algorithms (R400). -/
  | negotiateAlgorithms (q : SpdmReq)
  /-- GET_DIGESTS: SPDM request returning certificate digests (R400). -/
  | getDigests (q : SpdmReq)
  /-- GET_CERTIFICATE: SPDM request returning a certificate (R400). -/
  | getCertificate (q : SpdmReq)
  /-- CHALLENGE: SPDM challenge authentication (R400). -/
  | challenge (q : SpdmReq)
  /-- GET_MEASUREMENTS: SPDM request returning measurements 1 to 4 (R400). -/
  | getMeasurements (q : SpdmReq)
  /-- KEY_EXCHANGE: SPDM key exchange opening a session (R400). -/
  | keyExchange (q : SpdmReq)
  /-- FINISH: SPDM finish of a session handshake (R400). -/
  | finish (q : SpdmReq)
  /-- END_SESSION: SPDM request ending a session (R400). -/
  | endSession (q : SpdmReq)
  /-- DEBUG_ATTACH: The debug function attaches to an authorised tenant (R418). -/
  | debugAttach (vf session : Nat)
  /-- DEBUG_STOP: The debug function stops waves at their next precise point (R419). -/
  | debugStop (vf : Nat) (target : DebugTarget)
  /-- DEBUG_STATE_ACCESS: The debug function reads or writes the state of stopped waves (R418). -/
  | debugStateAccess (vf : Nat) (w : WaveId) (write : Bool) (item : DebugItem) (value : Word)
  /-- DEBUG_RESUME: The debug function resumes a stopped wave (R419). -/
  | debugResume (vf : Nat) (w : WaveId)
  /-- POWER_ON: Images are verified, a complex becomes active, memory is trained and cleared and one partition is configured (R425). -/
  | powerOn (okA okB : Bool)
  /-- HEARTBEAT: The active complex sends its heartbeat to the standby every 100 µs (R510). -/
  | heartbeat (missed : Bool)
  /-- FIRMWARE_FAILOVER: After three missed heartbeats or an SRAM error, the standby takes over (R510). -/
  | firmwareFailover
  /-- STANDBY_FAILURE: A standby complex fails and is reported (R511). -/
  | standbyFailure
  /-- FLIT_RECEIVE: A Fenloth flit arrives and is acknowledged, or negatively acknowledged on CRC error or gap (R423). -/
  | flitReceive (port seq : Nat) (crcOk : Bool)
  /-- REPLAY_TIMEOUT: An unacknowledged flit is resent after 512 cycles (R506). -/
  | replayTimeout (port : Nat)
  /-- PORT_DOWN: A port fails; its flits and routes move to a live port (R506). -/
  | portDown (port : Nat)
  /-- REMOTE_REQUEST_TIMEOUT: A remote request no port can carry completes after 240,000 cycles as poison or a kill (R506). -/
  | remoteRequestTimeout (w : WaveId) (tag : Nat)
  /-- DUET_WINDOW_CLOSE: A 2,048-cycle window closes and its digest is exchanged over port 17 (R421). -/
  | duetWindowClose (part : Nat)
  /-- DUET_DIGEST_RECEIVED: The peer's digest arrives; agreeing windows leave, disagreement is a mismatch (R421). -/
  | duetDigestReceived (part : Nat) (digest : BitVec 256)
  /-- ATOMIC_AT_HOME: An atomic request reaches the word's home slice and is performed there as one read-modify-write, after any held write of the word is released (R132). -/
  | atomicAtHome (w : WaveId) (tag : Nat)
  /-- ENCODING_NOT_INSTRUCTION: A word with a reserved major code, reserved half-op code or other non-instruction encoding reaches issue and raises its fault (R179). -/
  | encodingNotInstruction (word : Dword)
  /-- SNAPSHOT_WINDOW_READ: The host reads a snapshot through the physical function's BAR0 window, which marks the latched snapshot as read so that a new trigger may overwrite it (R417). -/
  | snapshotWindowRead (vf offset size : Nat)
  deriving DecidableEq, Repr

end Sys2Proof
end

