-- ==== Sys2Proof/Machine/Shape.lean ====
section
/-!
DEFINITION. The shape of each instruction word: which types, minors and flags its entry lists, which operand classes each
field accepts, what it reads and writes and with which latency, and from these the static checks of R179 (classes 1, 4
and 5 of R180).
-/

namespace Sys2Proof

/-- The operand classes a field accepts (R168, R186). -/
structure Cls where
  v : Bool := false
  s : Bool := false
  c : Bool := false
  k : Bool := false
  deriving DecidableEq, Repr

/-- Vector register. -/
def clsV : Cls := { v := true }
/-- Scalar register. -/
def clsS : Cls := { s := true }
/-- Vector or scalar register. -/
def clsVS : Cls := { v := true, s := true }
/-- Vector register, scalar register or constant. -/
def clsVSC : Cls := { v := true, s := true, c := true }
/-- Scalar register or constant. -/
def clsSC : Cls := { s := true, c := true }
/-- Mask field. -/
def clsK : Cls := { k := true }
/-- Unused: the field is zero. -/
def clsZ : Cls := {}

/-- One operand field of a word: its value, its position (0 D, 1 A, 2 B, 3 C, 4 BASE; R445), the classes it accepts, how
many registers it names and on which multiple they start, whether they are read or written, whether the operand must
hold one value over the effective mask (R169), and a latency of its own if it has one (0 none). -/
structure Opn where
  field : Nat
  pos : Nat
  cls : Cls
  width : Nat := 1
  align : Nat := 1
  rd : Bool := false
  wr : Bool := false
  uni : Bool := false
  olat : Nat := 0
  deriving DecidableEq, Repr

/-- Whether an operand must hold one value over the effective mask: its entry says so, or it is a source that takes a scalar or a
constant and no vector register, whose constant may vary by lane (R169, R289). -/
def Opn.oneValue (o : Opn) : Bool := o.uni || (o.rd && o.cls == clsSC)

/-- The lanes an instruction needs (R42). -/
inductive MaskNeed where
  | any | whole | quarter
  deriving DecidableEq, Repr

/-- What the entry of an instruction word fixes before any state is looked at. `illegal` is the DETAIL of an
ILLEGAL_OPCODE, `other` the DETAIL of an ILLEGAL_OPERAND that no operand class gives, `lat` the fixed latency of the
results (0 for variable ones), `setsFlags`, `readsFlags` and `writesFlags` the use of `%fflags`. -/
structure Shape where
  m : Bool
  pred : BitVec 4 := 0#4
  illegal : Option Nat := none
  feats : List Nat := []
  priv : Bool := false
  pairBad : Bool := false
  ops : List Opn := []
  other : Option Nat := none
  mustMark : Bool := false
  mask : MaskNeed := .any
  lat : Nat := 4
  setsFlags : Bool := false
  readsFlags : Bool := false
  writesFlags : Bool := false
  deriving DecidableEq, Repr

/-! ### Operand checks -/

/-- Whether a field names a vector register (R166). -/
def isV (f : Nat) : Bool := decide (f < 0x100)
/-- Whether a field names a scalar register (R166). -/
def isS (f : Nat) : Bool := decide (0x100 ≤ f) && decide (f < 0x180)
/-- Whether a field names an entry of the constant and special table (R166). -/
def isC (f : Nat) : Bool := decide (0x180 ≤ f) && decide (f < 0x1C0)

/-- The DETAIL of the ILLEGAL_OPERAND a field raises by itself (R168, R446), if any. -/
def Opn.bad (o : Opn) : Option Nat :=
  if o.cls = clsZ then (if o.field = 0 then none else some 7)
  else if o.cls.k then
    if 8 ≤ o.field then some 7 else if o.wr && o.field == 0 then some 9 else none
  else if 0x1C0 ≤ o.field then some 1
  else if isV o.field then
    if !o.cls.v then some 2
    else if o.field % o.align ≠ 0 then some 3
    else if 0x100 < o.field + o.width then some 8 else none
  else if isS o.field then
    if !o.cls.s then some 2
    else if o.field % o.align ≠ 0 then some 3
    else if 0x180 < o.field + o.width then some 8 else none
  else if o.wr then some 9
  else if !o.cls.c then some 2 else none

/-- The register codes (R445) an operand names; a constant or an unused field names none. -/
def Opn.regs (o : Opn) : List Nat :=
  if o.cls = clsZ then []
  else if o.cls.k then (if o.field = 0 then [] else [0x200 + o.field])
  else if isC o.field then []
  else (List.range o.width).map (fun i => o.field + i)

/-- The first static operand failure of a list of operands. -/
def firstBad : List Opn → Option Nat
  | [] => none
  | o :: os => match o.bad with
    | some d => some d
    | none => firstBad os

/-- The first of two optional failures. -/
def orElseBad (a b : Option Nat) : Option Nat := match a with
  | some d => some d
  | none => b

/-- The failure `d` if `c` holds. -/
def failIf (c : Bool) (d : Nat) : Option Nat := if c then some d else none

/-! ### Builders -/

/-- A source operand. -/
def src (pos : Nat) (f : BitVec 9) (cls : Cls) (width : Nat := 1) (uni : Bool := false) : Opn :=
  { field := f.toNat, pos, cls, width, align := width, rd := true, uni }

/-- A destination operand. -/
def dst (f : BitVec 9) (cls : Cls) (width : Nat := 1) : Opn :=
  { field := f.toNat, pos := 0, cls, width, align := width, wr := true }

/-- An unused field. -/
def unused (pos : Nat) (f : BitVec 9) : Opn := { field := f.toNat, pos, cls := clsZ }

/-- A mask source. -/
def ksrc (pos : Nat) (f : BitVec 9) : Opn := { field := f.toNat, pos, cls := clsK, rd := true }

/-- A mask destination. -/
def kdst (pos : Nat) (f : BitVec 9) : Opn := { field := f.toNat, pos, cls := clsK, wr := true }

/-- The feature bits a type code needs (R414): 4 for q4, 5 for the 8-bit floating types. -/
def tyFeats (t : Nat) : List Nat := if t = 0xD then [4] else if t = 0xB ∨ t = 0xC then [5] else []

/-- A typed R-format word: the types, minors and flag bits its row lists. -/
def rShape (w : RWord) (types minors : List Nat) (flagBits : BitVec 4) (ops : List Opn) (lat : Nat) : Shape :=
  { m := w.m, pred := w.pred
    illegal := if !types.contains w.ty then some 4 else if !minors.contains w.minor then some 3 else none
    feats := tyFeats w.ty
    ops := ops
    other := failIf (w.flags &&& ~~~flagBits != 0#4) 7
    lat := lat }

/-- Types written "six" in R188. -/
def six : List Nat := [0, 1, 2, 3, 4, 5]
/-- Types written "all" in R213. -/
def floats : List Nat := [0xA, 0x8, 0x9]

/-- Whether the destination field names a scalar register (R169). -/
def RWord.sd (w : RWord) : Bool := isS w.d.toNat

/-- Sources V, S or C in A, B, C as `n` says; the other fields unused. -/
def RWord.alu (w : RWord) (n : Nat) : List Opn :=
  [dst w.d clsVS,
   if 1 ≤ n then src 1 w.a clsVSC 1 w.sd else unused 1 w.a,
   if 2 ≤ n then src 2 w.b clsVSC 1 w.sd else unused 2 w.b,
   if 3 ≤ n then src 3 w.c clsVSC 1 w.sd else unused 3 w.c]

/-- An integer row of R188: `n` sources. -/
def intShape (w : RWord) (types minors : List Nat) (flagBits : BitVec 4) (n lat : Nat) : Shape :=
  rShape w types minors flagBits (w.alu n) lat

/-- `iadd` and `isub` (R188, R190). -/
def addShape (w : RWord) : Shape :=
  let ci := w.flags.getLsbD 1
  let cc := w.flags.getLsbD 0
  let carry := ci || cc
  let s := rShape w six [0] 0b0111#4
    [dst w.d clsVS, src 1 w.a clsVSC 1 w.sd, src 2 w.b clsVSC 1 w.sd,
     if carry then { field := w.c.toNat, pos := 3, cls := clsK, rd := ci, wr := cc } else unused 3 w.c] 4
  { s with other := orElseBad s.other (failIf (carry && (decide (w.ty < 4) || w.sd || w.flags.getLsbD 2)) 7) }

/-- The minors of a comparison with conditions 0 to `n` − 1 and combinations none, and, or (R195, R215). -/
def cmpMinors (n : Nat) : List Nat :=
  (List.range n) ++ (List.range n).map (· + 16) ++ (List.range n).map (· + 32)

/-- A comparison (R195, R201, R215): mask destination, combined mask in C. -/
def cmpShape (w : RWord) (types : List Nat) (conds width lat : Nat) (cls : Cls) : Shape :=
  rShape w types (cmpMinors conds) 0#4
    [kdst 0 w.d, src 1 w.a cls width, src 2 w.b cls width,
     if 16 ≤ w.minor then ksrc 3 w.c else unused 3 w.c] lat

/-- An I-format word (R199). -/
def iShape (w : IWord) (ops : List Opn) (lat : Nat) (other : Option Nat) : Shape :=
  { m := w.m, pred := w.pred, ops := ops, lat := lat, other := other }

/-- D and A of an I-format word of R199. -/
def IWord.alu (w : IWord) : List Opn := [dst w.d clsVS, src 1 w.a clsVSC 1 (isS w.d.toNat)]

/-- A 64-bit row of R201 with sources of the given widths (0 for unused). -/
def wideShape (w : RWord) (types minors : List Nat) (flagBits : BitVec 4) (wa wb lat : Nat) : Shape :=
  let sd := w.sd
  rShape w types minors flagBits
    [dst w.d clsVS 2,
     if wa = 0 then unused 1 w.a else src 1 w.a clsVSC wa sd,
     if wb = 0 then unused 2 w.b else src 2 w.b clsVSC wb sd,
     unused 3 w.c] lat

/-- A floating row of R213: `n` sources, rounding mode and saturation accepted or not. -/
def fltShape (w : RWord) (types : List Nat) (mode sat : Bool) (n lat : Nat) : Shape :=
  { rShape w types [0] ((if mode then 0b0011#4 else 0#4) ||| (if sat then 0b0100#4 else 0#4)) (w.alu n) lat with
    setsFlags := true }

/-- A wave-level R-format word with TYPE 0x4 and no flags. -/
def sysShape (w : RWord) (minors : List Nat) (ops : List Opn) (lat : Nat) : Shape := rShape w [4] minors 0#4 ops lat

/-- An M-format word. -/
def mShape (w : MWord) (ops : List Opn) (other : Option Nat) : Shape :=
  { m := w.m, pred := w.pred, ops := ops, other := other, lat := 0 }

/-- BASE as a pair of a global access (R163). -/
def MWord.gbase (w : MWord) : Opn :=
  let n := (w.base.extractLsb' 0 7).toNat
  { field := if w.base.getLsbD 7 then 0x100 + 2 * n else 2 * n, pos := 4,
    cls := clsVS, width := 2, align := 2, rd := true }

/-- BASE as a register of a local access (R163). -/
def MWord.lbase (w : MWord) : Opn :=
  let n := (w.base.extractLsb' 0 7).toNat
  { field := if w.base.getLsbD 7 then 0x100 + n else n, pos := 4, cls := clsVS, rd := true }

/-- Whether BASE names a scalar register or pair. -/
def MWord.sbase (w : MWord) : Bool := w.base.getLsbD 7

/-- The failure of a BASE scalar pair above 63 (R163). -/
def MWord.badPair (w : MWord) : Option Nat :=
  failIf (w.base.getLsbD 7 && decide (64 ≤ (w.base.extractLsb' 0 7).toNat)) 4

/-- The BASE operand, dropped where its pair is above 63, which `badPair` refuses. -/
def MWord.gbaseOps (w : MWord) : List Opn := match w.badPair with
  | some _ => []
  | none => [w.gbase]

/-- Bytes per lane of a size code (R164). -/
def sizeBytes (code : Nat) : Nat :=
  if code = 0 ∨ code = 5 then 1 else if code = 1 ∨ code = 6 then 2 else if code = 2 then 4
  else if code = 3 then 8 else if code = 4 then 16 else 4

/-- Registers a data operand of a size takes (R261). -/
def sizeRegs (bytes : Nat) : Nat := if bytes = 16 then 4 else if bytes = 8 then 2 else 1

/-- The data operand of a load (R261): a vector, or a scalar under a scalar BASE. -/
def MWord.ldData (w : MWord) : Opn :=
  let n := sizeRegs (sizeBytes w.size)
  { field := w.d.toNat, pos := 0, cls := { v := true, s := w.sbase }, width := n, align := n, wr := true }

/-- The data operand of a store (R261, R263): a constant only up to 4 B. -/
def MWord.stData (w : MWord) : Opn :=
  let n := sizeRegs (sizeBytes w.size)
  { field := w.d.toNat, pos := 0, cls := { v := true, s := w.sbase, c := decide (n = 1) }, width := n, align := n, rd := true }

/-- Size codes a load accepts, and a store accepts (R164). -/
def badLdSize (w : MWord) : Option Nat := failIf (decide (w.size = 7)) 6
def badStSize (w : MWord) : Option Nat := failIf (decide (5 ≤ w.size)) 6

/-- A local load or store (R263): SEG zero, the modes of its space. -/
def localShape (w : MWord) (store : Bool) (modes : Nat) : Shape :=
  mShape w [if store then w.stData else w.ldData, w.lbase]
    (orElseBad (if store then badStSize w else badLdSize w)
      (orElseBad (failIf (decide (modes ≤ w.mode)) 6) (failIf (w.seg != 0#4) 7)))

/-- A scalar register named by a sub-field of IMM24 (R262). -/
def immReg (n width align : Nat) : Opn := { field := 0x100 + n, pos := 3, cls := clsS, width, align, rd := true }

/-- IMM24 bits 23:17 (R262). -/
def MWord.immHi (w : MWord) : Nat := (w.imm.extractLsb' 17 7).toNat

/-- IMM24 bits 23:20 (R262, R272). -/
def MWord.immOp (w : MWord) : Nat := (w.imm.extractLsb' 20 4).toNat

/-- IMM24 bits 23:21 (R262, R275). -/
def MWord.immTop3 (w : MWord) : Nat := (w.imm.extractLsb' 21 3).toNat

/-- A word whose cell address comes from a scalar pair (R275). -/
def cellShape (w : MWord) (ops : List Opn) (other : Option Nat) : Shape :=
  mShape w (ops ++ w.gbaseOps)
    (orElseBad (failIf (w.mopt != 0b01100#5) 6)
      (orElseBad (failIf (!w.sbase) 2) (orElseBad w.badPair other)))

/-- Atomic codes of R272 for a size, `cas` accepting code 0xF. -/
def badAtomOp (op bytes : Nat) (cas : Bool) : Option Nat :=
  failIf (!(decide (op ≤ 8) || (decide (op ≤ 0xB) && decide (bytes = 4)) || (cas && decide (op = 0xF) && decide (bytes = 4)))) 8

/-- A B-format word (R228): the operand in A, AUX and OFFSET zero unless used. -/
def bShape (w : BWord) (minors : List Nat) (op : Opn) (aux offset : Bool) : Shape :=
  { m := w.m, pred := w.pred
    illegal := if minors.contains w.minor.toNat then none else some 3
    ops := [op]
    other := orElseBad (failIf (!aux && w.aux != 0#4) 7) (failIf (!offset && w.offset != 0#32) 7) }

/-- A B-format word that R227 requires to be marked. -/
def bMarked (w : BWord) (minors : List Nat) (op : Opn) (aux offset : Bool) : Shape :=
  { bShape w minors op aux offset with mustMark := true }

/-- A matrix or ladder command (R290, R352): MOD bits 1:0 one of `lows`, the id written with latency 4. -/
def cmdShape (w : RWord) (lows : List Nat) (mask : MaskNeed) (ops : List Opn) : Shape :=
  { m := w.m, pred := w.pred
    illegal := if lows.contains (w.mod.extractLsb' 0 2).toNat then none else some 3
    ops := dst w.d clsS :: ops, mask := mask }

/-- A matrix word that is no command (R290): MOD 13:2 zero, bits 1:0 as `low`. -/
def nonCmdShape (w : RWord) (low : Nat) (ops : List Opn) (lat : Nat) : Shape :=
  { m := w.m, pred := w.pred
    illegal := if w.mod.toNat = low then none else some 3
    ops := ops, lat := lat }

/-- The shape `s` gated by feature bit `n` (R414). -/
def Shape.gated (s : Shape) (n : Nat) : Shape := { s with feats := n :: s.feats }

/-! ### Half-ops and pairs -/

/-- Whether a half-op writes its `d` (R173). -/
def HalfOp.writes : HalfOp → Bool
  | .nop => false
  | _ => true

/-- Whether a half-op reads its `d` (R173). -/
def HalfOp.readsD : HalfOp → Bool
  | .iadd | .isub | .and | .or | .xor | .imin | .imax | .shl | .shr | .sar | .fadd | .fmul | .fmin | .fmax => true
  | _ => false

/-- Whether a half-op reads its `a` (R173). -/
def HalfOp.readsA : HalfOp → Bool
  | .nop | .movi => false
  | _ => true

/-- Whether a half-op takes imm8 (R173). -/
def HalfOp.hasImm : HalfOp → Bool
  | .iaddi | .andi | .shli | .shri | .movi => true
  | _ => false

/-- Whether a half-op works on f32 and may set flags (R225). -/
def HalfOp.isFloat : HalfOp → Bool
  | .fadd | .fmul | .fmin | .fmax | .fneg | .fabs => true
  | _ => false

/-- The registers a half reads, one entry per operand field (R172). -/
def Half.reads (h : Half) : List Nat :=
  (if h.op.readsD then [h.f.d.toNat] else []) ++ (if h.op.readsA then [h.f.a.toNat] else [])

/-- The zero fields of a half (R173) hold zero. -/
def Half.zerosOk (h : Half) : Bool :=
  (h.op.hasImm || h.f.imm == 0#8) &&
  (match h.op with
    | .nop => h.f.d == 0#8 && h.f.a == 0#8
    | .movi => h.f.a == 0#8
    | _ => true)

/-- Rule R172 for two halves: destinations in different banks, no bank read more than twice. -/
def pairOk (a b : Half) : Bool :=
  (!(a.op.writes && b.op.writes) || decide (a.f.d.toNat % 4 ≠ b.f.d.toNat % 4)) &&
  (List.range 4).all (fun bank => decide (((a.reads ++ b.reads).filter (fun r => r % 4 = bank)).length ≤ 2))

/-- The operands of a half (R171, R173). -/
def Half.opns (h : Half) : List Opn :=
  (h.reads.map (fun r => { field := r, pos := 1, cls := clsV, rd := true })) ++
  (if h.op.writes then [{ field := h.f.d.toNat, pos := 0, cls := clsV, wr := true, olat := if h.op.isFloat then 6 else 4 }]
   else [])

/-- A paired word (R171 to R173): latency 4 for integer and 6 for floating half-ops. -/
def pairShape (m : Bool) (a b : Half) : Shape :=
  { m := m, pairBad := !pairOk a b
    ops := a.opns ++ b.opns
    other := failIf (!(a.zerosOk && b.zerosOk)) 7
    lat := 4
    setsFlags := a.op.isFloat || b.op.isFloat }

/-! ### The shape of every word -/

/-- `lfn` (R192): MOD bits 5:0 zero, no type check. -/
def lfnShape (w : RWord) : Shape :=
  { m := w.m, pred := w.pred, ops := w.alu 3, other := failIf (w.mod.extractLsb' 0 6 != 0#6) 7, lat := 4 }

/-- `mov.sr` (R203): the width of the special register, and `%lane` as a lane-varying source. -/
def movSrShape (w : RWord) : Shape :=
  let wide := w.minor = 0x0B ∨ w.minor = 0x14
  { sysShape w ((List.range 13) ++ [16, 17, 18, 19, 20])
      ([if wide then dst w.d clsVS 2 else dst w.d clsVS, unused 1 w.a, unused 2 w.b, unused 3 w.c] ++
       (if w.minor = 0 then [src 1 0x186#9 { c := true } 1 w.sd] else [])) 4 with
    readsFlags := decide (w.minor = 0x0C) }

/-- `mov.ss` (R204). -/
def movSsShape (w : RWord) : Shape :=
  let s := sysShape w ((List.range 13) ++ [16, 17, 18, 19, 20]) [unused 0 w.d, src 1 w.a clsVSC 1 true, unused 2 w.b, unused 3 w.c] 4
  { s with other := orElseBad s.other (failIf (decide (w.minor ≠ 0x0C)) 8), writesFlags := true }

/-- `kop` (R206). -/
def kopShape (w : RWord) : Shape :=
  sysShape w [0, 1, 2, 3, 4]
    [kdst 0 w.d, ksrc 1 w.a, if w.minor = 4 then unused 2 w.b else ksrc 2 w.b, unused 3 w.c] 4

/-- `kmov` (R206). -/
def kmovShape (w : RWord) : Shape :=
  sysShape w [0, 1, 2, 3]
    [if w.minor = 2 then dst w.d clsS else kdst 0 w.d,
     if w.minor = 1 then src 1 w.a clsVSC 1 true else if w.minor = 3 then unused 1 w.a else ksrc 1 w.a,
     unused 2 w.b, unused 3 w.c] 4

/-- `cvt` (R219): pairs for 64-bit types, no mode between integers. -/
def cvtShape (w : RWord) : Shape :=
  let st := w.minor % 16
  let wide := fun t => decide (t = 6 ∨ t = 7)
  { m := w.m, pred := w.pred
    illegal := if 0xC < w.ty ∨ 0xC < st then some 4 else if 16 ≤ w.minor then some 3 else none
    feats := tyFeats w.ty ++ tyFeats st
    ops := [dst w.d clsVS (if wide w.ty then 2 else 1), src 1 w.a clsVSC (if wide st then 2 else 1) w.sd,
      unused 2 w.b, unused 3 w.c]
    other := failIf (w.flags.getLsbD 3 || (decide (w.ty < 8 ∧ st < 8) && w.flags &&& 3#4 != 0#4)) 7
    lat := 6
    setsFlags := !decide (w.ty < 8 ∧ st < 8) }

/-- `cvt.pk8` (R220): D is read as well as written. -/
def pk8Shape (w : RWord) : Shape :=
  { rShape w [0xB, 0xC] [0, 1, 2, 3] 0b0111#4
      [{ field := w.d.toNat, pos := 0, cls := clsVS, rd := true, wr := true }, src 1 w.a clsVSC 1 w.sd,
       src 2 w.b clsVSC 1 w.sd, if 2 ≤ w.minor then src 3 w.c clsVSC 1 w.sd else unused 3 w.c] 6 with setsFlags := true }

/-- `cvt.ex8` (R220). -/
def ex8Shape (w : RWord) : Shape :=
  { rShape w [0xB, 0xC] (List.range 8) 0#4
      [dst w.d clsVS, src 1 w.a clsVSC 1 w.sd, if 4 ≤ w.minor then src 2 w.b clsVSC 1 w.sd else unused 2 w.b,
       unused 3 w.c] 6 with setsFlags := true }

/-- A q4 instruction (R221); the opcodes 0x83 to 0x87 need feature 4 (R414). -/
def q4Shape (w : RWord) (types minors : List Nat) (mode : Bool) (ops : List Opn) (lat : Nat) (flags : Bool) : Shape :=
  { rShape w types minors (if mode then 0b0011#4 else 0#4) ops lat with feats := 4 :: tyFeats w.ty, setsFlags := flags }

/-- `q4.scale` (R221): the q4 type bits are zero for fp8. -/
def q4ScaleShape (w : RWord) : Shape :=
  q4Shape w [0xB, 0xC, 0xD] (if w.ty = 0xD then List.range 8 else [0, 4]) false
    [dst w.d clsV, src 1 w.a clsVSC, unused 2 w.b, unused 3 w.c] 14 true

/-- `vote` (R246). -/
def voteShape (w : RWord) : Shape :=
  let s := sysShape w (List.range 16)
    [if 8 ≤ w.minor then kdst 0 w.d else dst w.d clsS,
     if w.minor % 8 < 4 then src 1 w.a clsVSC else ksrc 1 w.a, unused 2 w.b, unused 3 w.c] 4
  { s with other := orElseBad s.other (failIf (decide (8 ≤ w.minor ∧ w.minor % 4 ≠ 2)) 7) }

/-- `xlane` (R246). -/
def xlaneShape (w : RWord) : Shape :=
  sysShape w (List.range 24)
    [dst w.d clsV, src 1 w.a clsVSC, if w.minor % 4 = 3 then unused 2 w.b else src 2 w.b clsVSC, unused 3 w.c] 8

/-- `red` and `scan` (R246): types by operation, mode with `.f32`, saturation with integer addition. -/
def redShape (w : RWord) (op : Nat) (minors : List Nat) (d : Opn) (lat : Nat) : Shape :=
  { rShape w (if op < 3 then [4, 5, 0xA] else [4]) minors
      (if w.ty = 0xA then 0b0011#4 else if op = 0 then 0b0100#4 else 0#4)
      [d, src 1 w.a clsVSC, unused 2 w.b, unused 3 w.c] lat with setsFlags := decide (w.ty = 0xA) }

/-- A register write or load of R244 to R253 that has no operand in B and C. -/
def oneShape (w : RWord) (minors : List Nat) (d a : Opn) (lat : Nat) : Shape :=
  sysShape w minors [d, a, unused 2 w.b, unused 3 w.c] lat

/-- `bru` and `brv` operands (R228). -/
def brvOpn (w : BWord) : Opn := if w.minor = 0#5 then unused 1 w.a else src 1 w.a clsVSC
def bruOpn (w : BWord) : Opn := if w.minor.toNat < 3 then ksrc 5 w.a else src 1 w.a clsVSC 1 true

/-- `rwait` (R228): AUX names the timeout mask, its bit 3 zero. -/
def rwaitShape (w : BWord) : Shape :=
  let s := bMarked w [0] (src 1 w.a clsVSC 1 true) true true
  { s with other := orElseBad s.other (failIf (w.aux.getLsbD 3) 7) }

/-- `calli` (R232, R453): entry 0 names the table's cell; the link register waits for the read. -/
def calliShape (w : BWord) : Shape :=
  let s := bMarked w [0] { field := w.a.toNat, pos := 1, cls := clsV, wr := true } false true
  { s with other := orElseBad s.other (failIf (w.offset == 0#32) 8), lat := 0 }

/-- A queue word of R format with its queue in field A (R267, R268). `dq.pop` takes only the entries 160 to 175 of the constant
table (R267); `dq.cfg` and `dq.lvl` take any entry, whose value is checked when the word acts (log 40). -/
def dqShape (w : RWord) (pop : Bool) (d b : Opn) (lat : Nat) : Shape :=
  let s := sysShape w [0] [d, src 1 w.a clsSC, b, unused 3 w.c] lat
  { s with other := orElseBad s.other (failIf (pop && isC w.a.toNat && !decide (0x1A0 ≤ w.a.toNat ∧ w.a.toNat < 0x1B0)) 8) }

/-- `dq.ld` (R266): the queue in D bits 3:0. -/
def dqLdShape (w : MWord) : Shape :=
  mShape w w.gbaseOps (orElseBad w.badPair (orElseBad (badLdSize w) (failIf (decide (16 ≤ w.d.toNat)) 7)))

/-- `st.g` (R269). -/
def stGShape (w : MWord) : Shape := mShape w (w.stData :: w.gbaseOps) (orElseBad w.badPair (badStSize w))

/-- `pref` (R270). -/
def prefShape (w : MWord) : Shape :=
  mShape w (unused 0 w.d :: w.gbaseOps) (orElseBad w.badPair (failIf (decide (4 < w.size)) 6))

/-- A word whose BASE is a scalar pair: `ld.k`, `lnk.ld`, `xcopy`, `chain.add`, `kvtrim` (R270, R280, R286, R287). -/
def scalarShape (w : MWord) (ops : List Opn) (other : Option Nat) : Shape :=
  mShape w (ops ++ w.gbaseOps) (orElseBad (failIf (!w.sbase) 2) (orElseBad w.badPair other))

/-- `ld.k` (R270). -/
def ldKShape (w : MWord) : Shape :=
  scalarShape w [dst w.d clsS (if w.size = 3 then 2 else 1)] (failIf (decide (w.size = 4 ∨ w.size = 7)) 6)

/-- `lnk.ld` (R270, R271). -/
def lnkLdShape (w : MWord) : Shape :=
  scalarShape w [dst w.d clsS 2] (orElseBad (failIf (w.seg != 14#4) 8) (failIf (decide (w.size ≠ 3)) 6))

/-- `xcopy` (R280): all lanes, the length in the scalar of IMM24 bits 23:17. -/
def xcopyShape (w : MWord) : Shape :=
  { scalarShape w [src 0 w.d clsS, immReg w.immHi 1 1] (failIf (decide (6 ≤ w.size)) 6) with mask := .whole }

/-- `gather` (R284). -/
def gatherShape (w : MWord) : Shape :=
  mShape w (src 0 w.d clsS :: immReg w.immHi 1 1 :: w.gbaseOps)
    (orElseBad w.badPair (failIf (decide (w.size ≠ 0)) 6))

/-- `kvtrim` (R287): the new and the old length in the scalar quad of IMM24 bits 23:17. -/
def kvtrimShape (w : MWord) : Shape :=
  (scalarShape w [dst w.d clsS, immReg w.immHi 4 4] (failIf (decide (w.size = 7)) 6)).gated 7

/-- The data operand of `atom` and `red.g` (R261, R273). -/
def MWord.atomData (w : MWord) : Opn :=
  let n := if w.size = 3 then 2 else 1
  { field := w.d.toNat, pos := 0, cls := { v := true, s := w.sbase, c := true }, width := n, align := n, rd := true }

/-- `atom` and `red.g` (R272, R273). -/
def atomShape (w : MWord) : Shape :=
  mShape w (w.atomData :: w.gbaseOps)
    (orElseBad w.badPair (orElseBad (failIf (decide (w.size ≠ 2 ∧ w.size ≠ 3)) 6) (badAtomOp w.immOp (sizeBytes w.size) false)))

/-- `atom.cas` (R273): compare and new value from D on; a size that is not allowed asks no alignment of D. -/
def casShape (w : MWord) : Shape :=
  let n := if w.size = 3 then 4 else if w.size = 2 then 2 else 1
  mShape w ({ field := w.d.toNat, pos := 0, cls := { v := true, s := w.sbase }, width := n, align := n, rd := true } :: w.gbaseOps)
    (orElseBad w.badPair (orElseBad (failIf (decide (w.size ≠ 2 ∧ w.size ≠ 3)) 6) (failIf (decide (w.immOp ≠ 0)) 7)))

/-- `atom.sp` (R274): D is operand and result; code 0xF takes the pair (compare, new). -/
def atomSpShape (w : MWord) : Shape :=
  let cas := w.immOp = 0xF
  let n := sizeRegs (sizeBytes w.size)
  let cls : Cls := { v := true, s := w.sbase }
  mShape w
    ([{ field := w.d.toNat, pos := 0, cls, width := n, align := if cas then 2 else n, rd := true, wr := true }] ++
     (if cas then [{ field := w.d.toNat, pos := 0, cls, width := 2, align := 2, rd := true }] else []) ++ [w.lbase])
    (orElseBad (failIf (decide (w.size ≠ 2 ∧ w.size ≠ 3) || decide (w.mode ≠ 0)) 6)
      (orElseBad (failIf (w.seg != 0#4) 7) (badAtomOp w.immOp (sizeBytes w.size) true)))

/-- `acq` (R275): the optional status mask in IMM24 bits 23:21. -/
def acqShape (w : MWord) : Shape :=
  cellShape w (dst w.d clsS :: if w.immTop3 = 0 then [] else [{ field := w.immTop3, pos := 3, cls := clsK, wr := true }]) none

/-- `acq.try` (R275). -/
def acqTryShape (w : MWord) : Shape := cellShape w [dst w.d clsS 2] (failIf (decide (w.immTop3 ≠ 0)) 7)

/-- `bind` and `unbind` (R277). -/
def bindShape (w : MWord) : Shape := cellShape w [src 0 w.d clsS 4] none

/-- `fence` (R278); `.dom` needs feature 9 (R414). -/
def fenceShape (w : RWord) : Shape :=
  let s := sysShape w [0, 1, 2, 3, 4] [unused 0 w.d, unused 1 w.a, unused 2 w.b, unused 3 w.c] 0
  let s := { s with other := orElseBad s.other (failIf (w.pred ≠ 0#4) 7) }
  if w.minor = 4 then s.gated 9 else s

/-- The path codes of `xfence` (R279): the MINOR of every two different paths. -/
def pathMinors : List Nat := (List.range 40).filter (fun n => n % 8 < 5 && n / 8 < 5 && n % 8 ≠ n / 8)

/-- `xfence` (R279). -/
def xfenceShape (w : RWord) : Shape :=
  sysShape w pathMinors [unused 0 w.d, unused 1 w.a, unused 2 w.b, unused 3 w.c] 0

/-- The channel form of `xfence` (R279): FLAGS bit 0, the path copy first. -/
def xfenceChShape (w : RWord) : Shape :=
  let s := rShape w [4] pathMinors 0b0001#4 [unused 0 w.d, src 1 w.a clsSC, src 2 w.b clsSC, unused 3 w.c] 0
  { s with other := orElseBad s.other (failIf (decide (w.minor % 8 ≠ 1)) 7) }

/-- `dir.mov` (R363, R414). -/
def dirMovShape (w : RWord) : Shape :=
  ((sysShape w [2] [dst w.d clsS, src 1 w.a clsSC, src 2 w.b clsSC, src 3 w.c clsSC] 0).gated 6).gated 3

/-- `sol` (R363, R366, R367): the types of each rule; FLAGS bit 3 is an unlisted minor. -/
def solShape (w : RWord) : Shape :=
  let s := rShape w (if w.minor < 3 then [5, 0xA] else [4]) [0, 1, 2, 3, 4] 0b0111#4
    [dst w.d clsS, src 1 w.a clsS 4, src 2 w.b clsSC, src 3 w.c clsVSC 1 true] 4
  { s.gated 3 with illegal := orElseBad s.illegal (failIf (w.flags.getLsbD 3) 3) }

/-- `cns.rd` (R363): ten registers from D on. -/
def cnsRdShape (w : RWord) : Shape :=
  (sysShape w [1] [{ field := w.d.toNat, pos := 0, cls := clsS, width := 10, wr := true }, src 1 w.a clsSC,
    unused 2 w.b, unused 3 w.c] 6).gated 3

/-- `rdsr` (R252, R253). -/
def rdsrShape (w : RWord) : Shape :=
  { oneShape w (List.range 9) (dst w.d clsS (if w.minor = 1 ∨ w.minor = 2 then 2 else 1)) (unused 1 w.a) 4 with
    priv := decide (w.minor = 1 ∨ w.minor = 2) }

/-- `wrsr` (R252, R253): `%feat0` to `%feat3` are not written by a word. -/
def wrsrShape (w : RWord) : Shape :=
  let s := oneShape w (List.range 9) (unused 0 w.d) (src 1 w.a clsSC (if w.minor = 1 ∨ w.minor = 2 then 2 else 1)) 0
  { s with priv := decide (w.minor ≠ 0), other := orElseBad s.other (failIf (decide (5 ≤ w.minor)) 8) }

/-- The steps of other agents are no words. -/
def noShape : Shape := { m := false }

/-- The shape of every instruction. -/
def Instr.shape : Instr → Shape
  | .nop w => bShape w [0] (unused 1 w.a) false false
  | .exit w => bMarked w [0] (unused 1 w.a) false false
  | .jmp w => bMarked w [0] (unused 1 w.a) false true
  | .brv w => bMarked w [0, 1, 2] (brvOpn w) false true
  | .bru w => bMarked w [0, 1, 2, 3, 4] (bruOpn w) false true
  | .jmpi w => bMarked w [0] (src 1 w.a clsVS) false false
  | .call w => bMarked w [0] { field := w.a.toNat, pos := 1, cls := clsV, wr := true } false true
  | .calli w => calliShape w
  | .ret w => bMarked w [0] (src 1 w.a clsVS) false false
  | .rwait w => rwaitShape w
  | .loop w => bMarked w [0] { field := w.a.toNat, pos := 1, cls := clsS, rd := true, wr := true } false true
  | .yield w => bShape w [0] (unused 1 w.a) false false
  | .priPass w => bShape w [0] (src 1 w.a clsVSC 1 true) false false
  | .sleep w => bMarked w [0] (src 1 w.a clsVSC 1 true) false false
  | .trap w => bMarked w [0] (src 1 w.a clsVSC 1 true) false false
  | .tret w => bMarked w [0] (unused 1 w.a) false false
  | .barFull w => bMarked w [0] (src 1 w.a clsVSC 1 true) false false
  | .barArrive w => bShape w [1] (src 1 w.a clsVSC 1 true) false false
  | .barWait w => bMarked w [2] (src 1 w.a clsVSC 1 true) false false
  | .barEnsFull w => (bMarked w [0] (src 1 w.a clsVSC 1 true) false false).gated 6
  | .barEnsArrive w => (bShape w [1] (src 1 w.a clsVSC 1 true) false false).gated 6
  | .barEnsWait w => (bMarked w [2] (src 1 w.a clsVSC 1 true) false false).gated 6
  | .brk w => bMarked w [0] (unused 1 w.a) false true
  | .snap w => bShape w [0] (src 1 w.a clsVSC 1 true) false false
  | .iadd w => addShape w
  | .isub w => addShape w
  | .imul w => intShape w six [0] 0b0100#4 2 6
  | .imulh w => intShape w six [0] 0#4 2 6
  | .imad w => intShape w six [0] 0b0100#4 3 6
  | .iabs w => intShape w [1, 3, 5] [0] 0b0100#4 1 4
  | .imin w => intShape w six [0] 0#4 2 4
  | .imax w => intShape w six [0] 0#4 2 4
  | .shl w => intShape w six [0] 0#4 2 4
  | .shr w => intShape w six [0] 0#4 2 4
  | .sar w => intShape w six [0] 0#4 2 4
  | .rot w => intShape w [0, 2, 4] [0, 1] 0#4 2 4
  | .wext w => intShape w [4] [0, 1, 2] 0#4 3 4
  | .lfn w => lfnShape w
  | .andW w => intShape w [4] [0] 0#4 2 4
  | .orW w => intShape w [4] [0] 0#4 2 4
  | .xorW w => intShape w [4] [0] 0#4 2 4
  | .andn w => intShape w [4] [0] 0#4 2 4
  | .notW w => intShape w [4] [0] 0#4 1 4
  | .bfe w => intShape w [4, 5] [0] 0#4 3 4
  | .bfi w => intShape w [4] [0] 0#4 3 4
  | .popc w => intShape w [0, 2, 4] [0] 0#4 1 4
  | .clz w => intShape w [0, 2, 4] [0] 0#4 1 4
  | .ctz w => intShape w [0, 2, 4] [0] 0#4 1 4
  | .brev w => intShape w [0, 2, 4] [0] 0#4 1 4
  | .bsel w => intShape w [4] [0] 0#4 3 4
  | .icmp w => cmpShape w six 6 1 4 clsVSC
  | .sel w => rShape w [4] [0] 0#4 [dst w.d clsVS, src 1 w.a clsVSC 1 w.sd, src 2 w.b clsVSC 1 w.sd,
      { ksrc 5 w.c with uni := w.sd }] 4
  | .mov w => intShape w [4] [0] 0#4 1 4
  | .dot4 w => intShape w [0, 1] (if w.ty = 1 then [0, 1] else [0]) 0b0100#4 3 6
  | .isad w => intShape w six [0] 0b0100#4 3 4
  | .idiv w => intShape w six [0, 1] (if w.minor = 0 then 0b0100#4 else 0#4) 2 40
  | .iaddi w => iShape w w.alu 4 none
  | .imuli w => iShape w w.alu 6 none
  | .andi w => iShape w w.alu 4 none
  | .ori w => iShape w w.alu 4 none
  | .xori w => iShape w w.alu 4 none
  | .shli w => iShape w w.alu 4 (failIf (decide (32 ≤ w.imm.toNat)) 7)
  | .shri w => iShape w w.alu 4 (failIf (decide (32 ≤ w.imm.toNat)) 7)
  | .sari w => iShape w w.alu 4 (failIf (decide (32 ≤ w.imm.toNat)) 7)
  | .movi w => iShape w [dst w.d clsVS, unused 1 w.a] 4 none
  | .movhi w => iShape w [dst w.d clsVS 2, src 1 w.a clsVSC 1 (isS w.d.toNat)] 4 none
  | .icmpi w => iShape w [kdst 0 w.d, src 1 w.a clsVSC] 4
      (orElseBad (failIf (w.imm.extractLsb' 24 4 != 0#4) 7) (failIf (decide (10 ≤ (w.imm.extractLsb' 28 4).toNat)) 8))
  | .add64 w => wideShape w [6, 7] [0] 0b0100#4 2 2 4
  | .sub64 w => wideShape w [6, 7] [0] 0b0100#4 2 2 4
  | .mul64 w => wideShape w [6, 7] [0, 1] 0#4 2 2 10
  | .shl64 w => wideShape w [7] [0] 0#4 2 1 4
  | .shr64 w => wideShape w [6, 7] [0] 0#4 2 1 4
  | .lea w => wideShape w [7] (List.range 16) 0#4 2 1 4
  | .cmp64 w => cmpShape w [6, 7] 6 2 4 clsVSC
  | .sel64 w => rShape w [7] [0] 0#4 [dst w.d clsVS 2, src 1 w.a clsVSC 2 w.sd, src 2 w.b clsVSC 2 w.sd,
      { ksrc 5 w.c with uni := w.sd }] 4
  | .movSr w => movSrShape w
  | .movSs w => movSsShape w
  | .laneRd w => sysShape w [0] [dst w.d clsS, src 1 w.a clsV, src 2 w.b clsVSC 1 true, unused 3 w.c] 8
  | .laneWr w => sysShape w [0] [dst w.d clsV, src 1 w.a clsVSC 1 true, src 2 w.b clsVSC 1 true, unused 3 w.c] 8
  | .kop w => kopShape w
  | .kmov w => kmovShape w
  | .kpop w => sysShape w [0] [dst w.d clsS, ksrc 1 w.a, unused 2 w.b, unused 3 w.c] 4
  | .kffs w => sysShape w [0, 1] [dst w.d clsS, ksrc 1 w.a, unused 2 w.b, unused 3 w.c] 4
  | .fadd w => fltShape w floats true true 2 6
  | .fsub w => fltShape w floats true true 2 6
  | .fmul w => fltShape w floats true true 2 6
  | .fma w => fltShape w floats true true 3 6
  | .fmin w => fltShape w floats false false 2 4
  | .fmax w => fltShape w floats false false 2 4
  | .fcmp w => { cmpShape w floats 8 1 4 clsVSC with setsFlags := true }
  | .fclass w => rShape w floats [0] 0#4 [kdst 0 w.d, src 1 w.a clsVSC, src 2 w.b clsVSC, unused 3 w.c] 4
  | .frcp w => fltShape w [0xA] false false 1 12
  | .frsq w => fltShape w [0xA] false false 1 12
  | .fsqrt w => fltShape w [0xA] true false 1 16
  | .fexp2 w => fltShape w [0xA] false false 1 12
  | .flog2 w => fltShape w [0xA] false false 1 12
  | .fsin w => fltShape w [0xA] false false 1 20
  | .fcos w => fltShape w [0xA] false false 1 20
  | .fround w => fltShape w floats true false 1 4
  | .ffract w => fltShape w [0xA] false false 1 6
  | .fldexp w => fltShape w floats true true 2 4
  | .fexs w => fltShape w [0xA] false false 3 18
  | .ftanh w => fltShape w [0xA] false false 1 20
  | .hadd2 w => fltShape w [8, 9] true true 2 6
  | .hmul2 w => fltShape w [8, 9] true true 2 6
  | .hfma2 w => fltShape w [8, 9] true true 3 6
  | .hmax2 w => fltShape w [8, 9] false false 2 4
  | .fdot2 w => fltShape w [8, 9] true true 3 6
  | .cvt w => cvtShape w
  | .cvtPk8 w => pk8Shape w
  | .cvtEx8 w => ex8Shape w
  | .q4Scale w => q4ScaleShape w
  | .q4Enc w => q4Shape w [0xD] [0] true (w.alu 2) 8 true
  | .q4Dec w => q4Shape w [0xD] [0] false (w.alu 2) 6 true
  | .nibPack w => q4Shape w [0xD] [0] false [dst w.d clsV, src 1 w.a clsVSC, unused 2 w.b, unused 3 w.c] 8 false
  | .nibUnpk w => q4Shape w [0xD] [0, 1] false (w.alu 2) 4 false
  | .vote w => voteShape w
  | .matchL w => rShape w [4, 6] [0] 0#4 [dst w.d clsV,
      if w.ty = 6 then src 1 w.a clsVSC 2 else src 1 w.a clsV, unused 2 w.b, unused 3 w.c] 12
  | .xlane w => xlaneShape w
  | .red w => redShape w w.minor (List.range 6) (dst w.d clsVS) 14
  | .scan w => redShape w (w.minor % 8) ((List.range 6) ++ (List.range 6).map (· + 8)) (dst w.d clsV) 16
  | .elect w => sysShape w [0, 1] [if w.minor = 0 then kdst 0 w.d else dst w.d clsS, unused 1 w.a, unused 2 w.b, unused 3 w.c] 4
  | .uchk w => sysShape w [0, 1] [if w.minor = 0 then dst w.d clsS else unused 0 w.d, src 1 w.a clsV, unused 2 w.b, unused 3 w.c] 4
  | .ldSp w => localShape w false 2
  | .stSp w => localShape w true 2
  | .ldA w => localShape w false 1
  | .stA w => localShape w true 1
  | .ldC w => localShape w false 1
  | .stC w => localShape w true 1
  | .ldRsp w => (localShape w false 1).gated 6
  | .stRsp w => (localShape w true 1).gated 6
  | .dqLd w => dqLdShape w
  | .dqPop w => dqShape w true { field := w.d.toNat, pos := 0, cls := clsVS } (unused 2 w.b) 0
  | .stG w => stGShape w
  | .ldP w => localShape w false 1
  | .stP w => localShape w true 1
  | .dqCfg w => dqShape w false (unused 0 w.d) (src 2 w.b clsSC) 0
  | .dqLvl w => dqShape w false (dst w.d clsS) (unused 2 w.b) 6
  | .pref w => prefShape w
  | .ldK w => ldKShape w
  | .lnkLd w => lnkLdShape w
  | .xcopy w => xcopyShape w
  | .cpSeal w => sysShape w [0] [unused 0 w.d, unused 1 w.a, unused 2 w.b, unused 3 w.c] 0
  | .cpWait w => oneShape w [0] (unused 0 w.d) (src 1 w.a clsSC) 0
  | .cpWp w => oneShape w [0] (dst w.d clsS) (src 1 w.a clsSC) 4
  | .cpWpw w => sysShape w [0] [unused 0 w.d, src 1 w.a clsSC, src 2 w.b clsSC, unused 3 w.c] 0
  | .chainAdd w => (scalarShape w [src 0 w.d clsV] (failIf (w.mopt != 0#5) 6)).gated 8
  | .chainSeq w => (oneShape w [0] (dst w.d clsS) (src 1 w.a clsSC) 0).gated 8
  | .chainWait w => (sysShape w [0] [unused 0 w.d, src 1 w.a clsSC, src 2 w.b clsSC, unused 3 w.c] 0).gated 8
  | .gather w => gatherShape w
  | .kvtrim w => kvtrimShape w
  | .atom w => atomShape w
  | .atomCas w => casShape w
  | .redG w => atomShape w
  | .atomSp w => atomSpShape w
  | .acq w => acqShape w
  | .acqTry w => acqTryShape w
  | .rel w => cellShape w [unused 0 w.d] none
  | .bind w => bindShape w
  | .unbind w => bindShape w
  | .fence w => fenceShape w
  | .xfence w => xfenceShape w
  | .xfenceCh w => xfenceChShape w
  | .mres w => nonCmdShape w 0 [dst w.d clsS, src 1 w.a clsS 4, unused 2 w.b, unused 3 w.c] 4
  | .mfree w => nonCmdShape w 0 [unused 0 w.d, src 1 w.a clsSC, unused 2 w.b, unused 3 w.c] 4
  | .mmaQ w => cmdShape w [0, 2] .quarter [src 1 w.a clsVS, src 2 w.b clsVS, src 3 w.c clsVS]
  | .mma w => cmdShape w [0, 2] .whole [src 1 w.a clsS, src 2 w.b clsS, src 3 w.c clsS]
  | .mqk w => cmdShape w [0] .quarter [src 1 w.a clsVS, src 2 w.b clsVS, src 3 w.c clsVS 4]
  | .msv w => cmdShape w [0, 2] .quarter [src 1 w.a clsVS, src 2 w.b clsVS, src 3 w.c clsVS]
  | .mwait w => nonCmdShape w 0 [unused 0 w.d, src 1 w.a clsSC, unused 2 w.b, unused 3 w.c] 0
  | .mwaitAll w => nonCmdShape w 1 [unused 0 w.d, unused 1 w.a, unused 2 w.b, unused 3 w.c] 0
  | .smpLd w => nonCmdShape w 0 [dst w.d clsS, src 1 w.a clsSC, src 2 w.b clsS, unused 3 w.c] 0
  | .mrow w => cmdShape w [1, 2, 3] .whole [src 1 w.a clsSC, src 2 w.b clsSC, unused 3 w.c]
  | .mscale w => cmdShape w [0] .whole [src 1 w.a clsSC, src 2 w.b clsV, unused 3 w.c]
  | .mtrans w => cmdShape w [0, 1] .whole [src 1 w.a clsSC, src 2 w.b clsS, unused 3 w.c]
  | .mzero w => cmdShape w [0, 1] .whole [src 1 w.a clsSC, unused 2 w.b, unused 3 w.c]
  | .asmNew w => (oneShape w (List.range 16) (dst w.d clsS) (src 1 w.a clsS 2) 0).gated 1
  | .asmArm w => (oneShape w [0] (dst w.d clsS) (src 1 w.a clsSC) 0).gated 1
  | .asmDep w => (oneShape w (List.range 16) (dst w.d clsS) (src 1 w.a clsS 2) 0).gated 1
  | .asmTestObj w => (oneShape w [0] (dst w.d clsS) (src 1 w.a clsSC) 0).gated 1
  | .asmTestReg w => (oneShape w [1] (dst w.d clsS) (src 1 w.a clsSC) 0).gated 1
  | .asmDropObj w => (oneShape w [0] (dst w.d clsS) (src 1 w.a clsSC) 0).gated 1
  | .asmDropReg w => (oneShape w [1] (dst w.d clsS) (src 1 w.a clsSC) 0).gated 1
  | .asmInfoPc w => (oneShape w [0] (dst w.d clsV) (unused 1 w.a) 0).gated 1
  | .asmInfoRec w => (oneShape w [1] (dst w.d clsV) (unused 1 w.a) 0).gated 1
  | .asmInfoClr w => (oneShape w [2] (unused 0 w.d) (unused 1 w.a) 0).gated 1
  | .ladInit w => (cmdShape w [0] .whole [src 1 w.a clsSC, unused 2 w.b, unused 3 w.c]).gated 2
  | .ladPush w => (cmdShape w [0] .whole [src 1 w.a clsSC, src 2 w.b clsSC, unused 3 w.c]).gated 2
  | .ladBlend w => (cmdShape w [0, 1] .whole [src 1 w.a clsSC, src 2 w.b clsSC, unused 3 w.c]).gated 2
  | .ladRungLd w => (sysShape w [0] [dst w.d clsV, src 1 w.a clsSC, src 2 w.b clsSC, src 3 w.c clsVSC] 0).gated 2
  | .ladRungSt w => (sysShape w [1] [src 0 w.d clsV, src 1 w.a clsSC, src 2 w.b clsSC, src 3 w.c clsVSC] 0).gated 2
  | .ladRungCnt w => (sysShape w [2] [dst w.d clsS 2, src 1 w.a clsSC, unused 2 w.b, unused 3 w.c] 0).gated 2
  | .dirIns w => (oneShape w [0] (dst w.d clsS) (src 1 w.a clsS 4) 0).gated 3
  | .dirDel w => (oneShape w [1] (dst w.d clsS) (src 1 w.a clsSC) 0).gated 3
  | .dirMov w => dirMovShape w
  | .dirLook w => (oneShape w [3] (dst w.d clsS) (src 1 w.a clsS 2) 8).gated 3
  | .sol w => solShape w
  | .cnsWait w => (oneShape w [0] (unused 0 w.d) (src 1 w.a clsSC) 0).gated 3
  | .cnsRd w => cnsRdShape w
  | .respEnd w => { (sysShape w [0] [unused 0 w.d, unused 1 w.a, unused 2 w.b, unused 3 w.c] 0).gated 3 with mustMark := true }
  | .rdsr w => rdsrShape w
  | .wrsr w => wrsrShape w
  | .segBind w => { oneShape w (List.range 16) (unused 0 w.d) (src 1 w.a clsS 4) 0 with priv := true }
  | .ptok w => oneShape w [0] (if w.d = 0#9 then unused 0 w.d else dst w.d clsS) (src 1 w.a clsVSC 1 true) 4
  | .perf w => oneShape w (List.range 8) (dst w.d clsS 2) (unused 1 w.a) 4
  | .clk w => oneShape w [0] (dst w.d clsS 2) (unused 1 w.a) 4
  | .clkWave w => oneShape w [1] (dst w.d clsS 2) (unused 1 w.a) 4
  | .halt w => { oneShape w [0] (unused 0 w.d) (unused 1 w.a) 0 with priv := true, mustMark := true }
  | .tlbInvPage w => { oneShape w [0] (dst w.d clsS) (src 1 w.a clsVSC 2 true) 0 with priv := true }
  | .tlbInvVf w => { oneShape w [1] (dst w.d clsS) (unused 1 w.a) 0 with priv := true }
  | .tlbInvPart w => { oneShape w [2] (dst w.d clsS) (unused 1 w.a) 0 with priv := true }
  | .ctxSv w => { oneShape w [0] (dst w.d clsS) (src 1 w.a clsS 2) 0 with priv := true }
  | .ctxLd w => { oneShape w [0] (dst w.d clsS) (src 1 w.a clsS 2) 0 with priv := true }
  | .hnop m a b => pairShape m ⟨.nop, a⟩ b
  | .hmov m a b => pairShape m ⟨.mov, a⟩ b
  | .hiadd m a b => pairShape m ⟨.iadd, a⟩ b
  | .hisub m a b => pairShape m ⟨.isub, a⟩ b
  | .hand m a b => pairShape m ⟨.and, a⟩ b
  | .hor m a b => pairShape m ⟨.or, a⟩ b
  | .hxor m a b => pairShape m ⟨.xor, a⟩ b
  | .himin m a b => pairShape m ⟨.imin, a⟩ b
  | .himax m a b => pairShape m ⟨.imax, a⟩ b
  | .hshl m a b => pairShape m ⟨.shl, a⟩ b
  | .hshr m a b => pairShape m ⟨.shr, a⟩ b
  | .hsar m a b => pairShape m ⟨.sar, a⟩ b
  | .hfadd m a b => pairShape m ⟨.fadd, a⟩ b
  | .hfmul m a b => pairShape m ⟨.fmul, a⟩ b
  | .hfmin m a b => pairShape m ⟨.fmin, a⟩ b
  | .hfmax m a b => pairShape m ⟨.fmax, a⟩ b
  | .hiaddi m a b => pairShape m ⟨.iaddi, a⟩ b
  | .handi m a b => pairShape m ⟨.andi, a⟩ b
  | .hshli m a b => pairShape m ⟨.shli, a⟩ b
  | .hshri m a b => pairShape m ⟨.shri, a⟩ b
  | .hmovi m a b => pairShape m ⟨.movi, a⟩ b
  | .hfneg m a b => pairShape m ⟨.fneg, a⟩ b
  | .hfabs m a b => pairShape m ⟨.fabs, a⟩ b
  | .hnot m a b => pairShape m ⟨.not, a⟩ b
  | .rwaitTimeout _ => noShape
  | .remoteScratchpadReply _ _ => noShape
  | .queueEntryFill _ _ => noShape
  | .directLoadReturn _ _ => noShape
  | .copyUnitVisible _ _ _ => noShape
  | .gatherRowLand _ _ _ => noShape
  | .trimFrameReturn _ => noShape
  | .cellRequestAtHome _ _ => noShape
  | .acquireGrant _ _ => noShape
  | .registrationAtHome _ _ => noShape
  | .registrationAck _ _ => noShape
  | .writeLeaveTimeout _ _ => noShape
  | .cleanLineExpiry _ _ => noShape
  | .smpImageFetchComplete _ _ => noShape
  | .matrixCommandStart _ _ => noShape
  | .matrixCommandRetire _ _ => noShape
  | .shadowCheckComplete _ => noShape
  | .registryOperation _ _ => noShape
  | .watchReportAtRegistry _ => noShape
  | .heldWriteSliceRelease _ => noShape
  | .revokeApply _ _ _ => noShape
  | .revokeAckCombine _ _ => noShape
  | .revokeRelease _ _ => noShape
  | .revocationSlotFree _ _ => noShape
  | .ladderCommandStart _ _ => noShape
  | .moveTargetCheck _ _ => noShape
  | .moveCopyComplete _ _ => noShape
  | .rootOrderEntry _ _ => noShape
  | .solicitApply _ => noShape
  | .directoryCommitApply _ => noShape
  | .responderFailure _ _ _ => noShape
  | .chanterCombine _ _ _ _ => noShape
  | .censusComplete _ _ => noShape
  | .fixedResultLatency _ => noShape
  | .variableResultWrite _ _ => noShape
  | .windowPrefill _ => noShape
  | .wakeConditionMet _ => noShape
  | .pendingDisplacement _ _ => noShape
  | .translationWalkHoldExpiry _ => noShape
  | .translationWalkComplete _ => noShape
  | .demandMap _ => noShape
  | .ringInsertReservation _ _ _ _ => noShape
  | .bridgeInsertReservation _ _ _ _ => noShape
  | .saveAheadWriteback _ => noShape
  | .timeSliceExpiry _ => noShape
  | .softPreemptionEvict _ _ => noShape
  | .gracePeriodEnd _ => noShape
  | .hardPreemption _ => noShape
  | .contextRestore _ _ _ => noShape
  | .lateArrival _ _ _ => noShape
  | .dispatchIndex _ => noShape
  | .placerStart _ => noShape
  | .stealRequest _ => noShape
  | .queueWriteNotify _ _ _ => noShape
  | .nopPacket _ _ => noShape
  | .launch _ _ _ => noShape
  | .signalPacket _ _ => noShape
  | .waitPacket _ _ => noShape
  | .mapPacket _ _ => noShape
  | .unmapPacket _ _ => noShape
  | .gridComplete _ _ => noShape
  | .chainCopy _ _ => noShape
  | .chainReduce _ _ => noShape
  | .chainAllreduce _ _ _ => noShape
  | .chainSignal _ _ => noShape
  | .chainWaitEntry _ _ => noShape
  | .faultDelivery _ => noShape
  | .deferredFaultKnown _ _ => noShape
  | .workgroupContainment _ _ => noShape
  | .faultRecordPost => noShape
  | .contextKill _ _ => noShape
  | .partitionContainment _ _ => noShape
  | .partitionReinitialised _ => noShape
  | .packageContainment => noShape
  | .arrayError _ _ _ _ _ => noShape
  | .scrubPatrol _ _ => noShape
  | .quotaIntervalEnd _ _ => noShape
  | .tempReport _ => noShape
  | .snapshotTimer _ => noShape
  | .hostTrigger _ _ => noShape
  | .registerWrite _ _ _ => noShape
  | .hostWindowAccess _ _ _ _ _ => noShape
  | .featAccept _ => noShape
  | .queueStop _ => noShape
  | .queueStart _ => noShape
  | .queueReset _ => noShape
  | .faultRead _ => noShape
  | .quotaRead _ => noShape
  | .quotaAnswer _ => noShape
  | .ctxKill _ => noShape
  | .chainReg _ => noShape
  | .chainUnreg _ => noShape
  | .chainRestart _ => noShape
  | .chainSkip _ => noShape
  | .poolSet _ => noShape
  | .debugAuth _ => noShape
  | .snapRead _ => noShape
  | .tempRead _ => noShape
  | .eventRead _ => noShape
  | .hqWrite _ => noShape
  | .tenant _ => noShape
  | .partConfig _ => noShape
  | .grantRange _ => noShape
  | .quotaCtrl _ => noShape
  | .teleSet _ => noShape
  | .triggerMask _ => noShape
  | .timerTrigger _ => noShape
  | .groupReg _ => noShape
  | .packageSet _ => noShape
  | .fwLoad _ => noShape
  | .fwUpdate _ => noShape
  | .pstate _ => noShape
  | .duetForm _ => noShape
  | .getVersion _ => noShape
  | .getCapabilities _ => noShape
  | .negotiateAlgorithms _ => noShape
  | .getDigests _ => noShape
  | .getCertificate _ => noShape
  | .challenge _ => noShape
  | .getMeasurements _ => noShape
  | .keyExchange _ => noShape
  | .finish _ => noShape
  | .endSession _ => noShape
  | .debugAttach _ _ => noShape
  | .debugStop _ _ => noShape
  | .debugStateAccess _ _ _ _ _ => noShape
  | .debugResume _ _ => noShape
  | .powerOn _ _ => noShape
  | .heartbeat _ => noShape
  | .firmwareFailover => noShape
  | .standbyFailure => noShape
  | .flitReceive _ _ _ => noShape
  | .replayTimeout _ => noShape
  | .portDown _ => noShape
  | .remoteRequestTimeout _ _ => noShape
  | .duetWindowClose _ => noShape
  | .duetDigestReceived _ _ => noShape
  | .atomicAtHome _ _ => noShape
  | .encodingNotInstruction _ => noShape
  | .snapshotWindowRead _ _ _ => noShape

/-- The static failure of a word in classes 1, 4 and 5 of R180, as code (R444) and DETAIL (R446). -/
def Shape.staticFail (s : Shape) : Option (Nat × Nat) :=
  match s.illegal with
  | some d => some (0x01, d)
  | none =>
    if s.pairBad then some (0x02, 0)
    else match firstBad s.ops with
      | some d => some (0x03, d)
      | none => if s.pred = 0b1000#4 then some (0x03, 5) else match s.other with
        | some d => some (0x03, d)
        | none => none

end Sys2Proof
end

