-- ==== Sys2Proof/WellFormed.lean ====
section
/-!
DEFINITION. Well-formed instructions: those that no static check of R179 refuses (classes 1, 4 and 5 of R180).
-/

namespace Sys2Proof

/-- `i` is well formed: no static check of R179 refuses it. -/
def WellFormed (i : Instr) : Prop := i.shape.staticFail = none

/-- `WellFormed` as a Boolean test. -/
def wellFormed (i : Instr) : Bool := decide (i.shape.staticFail = none)

/-- The Boolean test decides well-formedness. -/
theorem wellFormed_iff (i : Instr) : wellFormed i = true ↔ WellFormed i := by simp [wellFormed, WellFormed]

end Sys2Proof
end

