-- ==== Sys2Proof/Decode.lean ====
section
/-!
DEFINITION. Decoding (spec 06 R159 to R178): from the 64 bits of an instruction word to the instruction, rejecting by
fault code and DETAIL (R179, R446); then the encoder, from the same tables.
-/

namespace Sys2Proof

/-- Field of `n` bits from bit `lo` of a word. -/
def fld (w : Dword) (lo n : Nat) : BitVec n := BitVec.ofNat n (w.toNat / 2 ^ lo)

/-- The marker, bit 63 (R159). -/
def mBit (w : Dword) : Bool := fld w 63 1 == 1#1

/-- An R-format word (R161). -/
def RWord.ofBits (w : Dword) : RWord :=
  ⟨mBit w, fld w 14 4, fld w 45 9, fld w 36 9, fld w 27 9, fld w 18 9, fld w 0 14⟩

/-- An I-format word (R161). -/
def IWord.ofBits (w : Dword) : IWord := ⟨mBit w, fld w 45 9, fld w 36 9, fld w 32 4, fld w 0 32⟩

/-- An M-format word (R161). -/
def MWord.ofBits (w : Dword) : MWord :=
  ⟨mBit w, fld w 45 9, fld w 37 8, fld w 33 4, fld w 29 4, fld w 24 5, fld w 0 24⟩

/-- A B-format word (R161). -/
def BWord.ofBits (w : Dword) : BWord := ⟨mBit w, fld w 50 4, fld w 45 5, fld w 36 9, fld w 32 4, fld w 0 32⟩

/-- Fields of the half whose bit 0 stands at bit `lo` (R171). -/
def HalfFields.ofBits (w : Dword) (lo : Nat) : HalfFields := ⟨fld w (lo + 16) 8, fld w (lo + 8) 8, fld w lo 8⟩

/-- The half-ops in code order (R173). -/
def halfOps : List HalfOp :=
  [.nop, .mov, .iadd, .isub, .and, .or, .xor, .imin, .imax, .shl, .shr, .sar,
   .fadd, .fmul, .fmin, .fmax, .iaddi, .andi, .shli, .shri, .movi, .fneg, .fabs, .not]

/-- The half-op of a code; codes from 0x18 are reserved (R173). -/
def HalfOp.ofCode (c : Nat) : Option HalfOp := halfOps[c]?

/-- The code of a half-op (R173). -/
def HalfOp.code : HalfOp → Nat
  | .nop => 0x00
  | .mov => 0x01
  | .iadd => 0x02
  | .isub => 0x03
  | .and => 0x04
  | .or => 0x05
  | .xor => 0x06
  | .imin => 0x07
  | .imax => 0x08
  | .shl => 0x09
  | .shr => 0x0A
  | .sar => 0x0B
  | .fadd => 0x0C
  | .fmul => 0x0D
  | .fmin => 0x0E
  | .fmax => 0x0F
  | .iaddi => 0x10
  | .andi => 0x11
  | .shli => 0x12
  | .shri => 0x13
  | .movi => 0x14
  | .fneg => 0x15
  | .fabs => 0x16
  | .not => 0x17

/-- The paired word with half A `op a` and half B `b`. -/
def pairInstr (m : Bool) (op : HalfOp) (a : HalfFields) (b : Half) : Instr :=
  match op with
  | .nop => .hnop m a b
  | .mov => .hmov m a b
  | .iadd => .hiadd m a b
  | .isub => .hisub m a b
  | .and => .hand m a b
  | .or => .hor m a b
  | .xor => .hxor m a b
  | .imin => .himin m a b
  | .imax => .himax m a b
  | .shl => .hshl m a b
  | .shr => .hshr m a b
  | .sar => .hsar m a b
  | .fadd => .hfadd m a b
  | .fmul => .hfmul m a b
  | .fmin => .hfmin m a b
  | .fmax => .hfmax m a b
  | .iaddi => .hiaddi m a b
  | .andi => .handi m a b
  | .shli => .hshli m a b
  | .shri => .hshri m a b
  | .movi => .hmovi m a b
  | .fneg => .hfneg m a b
  | .fabs => .hfabs m a b
  | .not => .hnot m a b

/-- The B-format rows of the opcode map (R178). -/
def bTable : List (Nat × (BWord → Instr)) :=
  [(0x00, .nop), (0x01, .exit), (0x02, .jmp), (0x03, .brv), (0x04, .bru), (0x05, .jmpi), (0x06, .call),
   (0x07, .calli), (0x08, .ret), (0x09, .rwait), (0x0A, .loop), (0x0B, .yield), (0x0C, .priPass), (0x0D, .sleep),
   (0x0E, .trap), (0x0F, .tret),
   (0x10, fun w => if w.minor.toNat = 1 then .barArrive w else if w.minor.toNat = 2 then .barWait w else .barFull w),
   (0x11, fun w => if w.minor.toNat = 1 then .barEnsArrive w else if w.minor.toNat = 2 then .barEnsWait w else .barEnsFull w),
   (0x12, .brk), (0x13, .snap)]

/-- The R-format rows of the opcode map (R178). Part 1. -/
def rTable1 : List (Nat × (RWord → Instr)) :=
  [(0x20, .iadd), (0x21, .isub), (0x22, .imul), (0x23, .imulh), (0x24, .imad), (0x25, .iabs), (0x26, .imin),
   (0x27, .imax), (0x28, .shl), (0x29, .shr), (0x2A, .sar), (0x2B, .rot), (0x2C, .wext), (0x2D, .lfn),
   (0x2E, .andW), (0x2F, .orW), (0x30, .xorW), (0x31, .andn), (0x32, .notW), (0x33, .bfe), (0x34, .bfi),
   (0x35, .popc), (0x36, .clz), (0x37, .ctz)]

/-- The R-format rows of the opcode map (R178). Part 2. -/
def rTable2 : List (Nat × (RWord → Instr)) :=
  [(0x38, .brev), (0x39, .bsel), (0x3A, .icmp), (0x3B, .sel), (0x3C, .mov), (0x3D, .dot4), (0x3E, .isad),
   (0x3F, .idiv), (0x50, .add64), (0x51, .sub64), (0x52, .mul64), (0x53, .shl64), (0x54, .shr64), (0x55, .lea),
   (0x56, .cmp64), (0x57, .sel64), (0x58, .movSr), (0x59, .movSs), (0x5A, .laneRd), (0x5B, .laneWr), (0x5C, .kop),
   (0x5D, .kmov), (0x5E, .kpop), (0x5F, .kffs)]

/-- The R-format rows of the opcode map (R178). Part 3. -/
def rTable3 : List (Nat × (RWord → Instr)) :=
  [(0x60, .fadd), (0x61, .fsub), (0x62, .fmul), (0x63, .fma), (0x64, .fmin), (0x65, .fmax), (0x66, .fcmp),
   (0x67, .fclass), (0x68, .frcp), (0x69, .frsq), (0x6A, .fsqrt), (0x6B, .fexp2), (0x6C, .flog2), (0x6D, .fsin),
   (0x6E, .fcos), (0x6F, .fround), (0x70, .ffract), (0x71, .fldexp), (0x72, .fexs), (0x73, .ftanh), (0x74, .hadd2),
   (0x75, .hmul2), (0x76, .hfma2), (0x77, .hmax2)]

/-- The R-format rows of the opcode map (R178). Part 4. -/
def rTable4 : List (Nat × (RWord → Instr)) :=
  [(0x78, .fdot2), (0x80, .cvt), (0x81, .cvtPk8), (0x82, .cvtEx8), (0x83, .q4Scale), (0x84, .q4Enc), (0x85, .q4Dec),
   (0x86, .nibPack), (0x87, .nibUnpk), (0x90, .vote), (0x91, .matchL), (0x92, .xlane), (0x93, .red), (0x94, .scan),
   (0x95, .elect), (0x96, .uchk), (0xA9, .dqPop), (0xAD, .dqCfg), (0xAE, .dqLvl), (0xB3, .cpSeal), (0xB4, .cpWait),
   (0xB5, .cpWp), (0xB6, .cpWpw), (0xB8, .chainSeq)]

/-- The R-format rows of the opcode map (R178). Part 5. -/
def rTable5 : List (Nat × (RWord → Instr)) :=
  [(0xB9, .chainWait), (0xC8, .fence), (0xC9, fun w => if w.flags.getLsbD 0 then .xfenceCh w else .xfence w),
   (0xD0, .mres), (0xD1, .mfree), (0xD2, .mmaQ), (0xD3, .mma), (0xD4, .mqk), (0xD5, .msv),
   (0xD6, fun w => if (w.mod.extractLsb' 0 2).toNat = 1 then .mwaitAll w else .mwait w), (0xD7, .smpLd),
   (0xD8, .mrow), (0xD9, .mscale), (0xDA, .mtrans), (0xDB, .mzero), (0xE0, .asmNew), (0xE1, .asmArm),
   (0xE2, .asmDep), (0xE3, fun w => if w.minor = 1 then .asmTestReg w else .asmTestObj w),
   (0xE4, fun w => if w.minor = 1 then .asmDropReg w else .asmDropObj w),
   (0xE5, fun w => if w.minor = 1 then .asmInfoRec w else if w.minor = 2 then .asmInfoClr w else .asmInfoPc w),
   (0xE8, .ladInit), (0xE9, .ladPush), (0xEA, .ladBlend)]

/-- The R-format rows of the opcode map (R178). Part 6. -/
def rTable6 : List (Nat × (RWord → Instr)) :=
  [(0xEB, fun w => if w.minor = 1 then .ladRungSt w else if w.minor = 2 then .ladRungCnt w else .ladRungLd w),
   (0xEC, fun w => if w.minor = 1 then .dirDel w else if w.minor = 2 then .dirMov w else if w.minor = 3 then .dirLook w else .dirIns w),
   (0xED, .sol), (0xEE, fun w => if w.minor = 1 then .cnsRd w else .cnsWait w), (0xEF, .respEnd), (0xF0, .rdsr),
   (0xF1, .wrsr), (0xF2, .segBind), (0xF3, .ptok), (0xF4, .perf),
   (0xF5, fun w => if w.minor = 1 then .clkWave w else .clk w), (0xF6, .halt),
   (0xF7, fun w => if w.minor = 1 then .tlbInvVf w else if w.minor = 2 then .tlbInvPart w else .tlbInvPage w),
   (0xF8, .ctxSv), (0xF9, .ctxLd)]

/-- The R-format rows of the opcode map (R178); a word with an unlisted MINOR goes to the first row of its code. -/
def rTable : List (Nat × (RWord → Instr)) := rTable1 ++ rTable2 ++ rTable3 ++ rTable4 ++ rTable5 ++ rTable6

/-- The I-format rows of the opcode map (R178). -/
def iTable : List (Nat × (IWord → Instr)) :=
  [(0x40, .iaddi), (0x41, .imuli), (0x42, .andi), (0x43, .ori), (0x44, .xori), (0x45, .shli), (0x46, .shri),
   (0x47, .sari), (0x48, .movi), (0x49, .movhi), (0x4A, .icmpi)]

/-- The M-format rows of the opcode map (R178). Part 1. -/
def mTable1 : List (Nat × (MWord → Instr)) :=
  [(0xA0, .ldSp), (0xA1, .stSp), (0xA2, .ldA), (0xA3, .stA), (0xA4, .ldC), (0xA5, .stC), (0xA6, .ldRsp),
   (0xA7, .stRsp), (0xA8, .dqLd), (0xAA, .stG), (0xAB, .ldP), (0xAC, .stP), (0xAF, .pref), (0xB0, .ldK),
   (0xB1, .lnkLd), (0xB2, .xcopy), (0xB7, .chainAdd), (0xBA, .gather), (0xBD, .kvtrim), (0xC0, .atom),
   (0xC1, .atomCas), (0xC2, .redG), (0xC3, .atomSp), (0xC4, .acq)]

/-- The M-format rows of the opcode map (R178). Part 2. -/
def mTable2 : List (Nat × (MWord → Instr)) :=
  [(0xC5, .rel), (0xC6, .bind), (0xC7, .unbind), (0xCA, .acqTry)]

/-- The M-format rows of the opcode map (R178). -/
def mTable : List (Nat × (MWord → Instr)) := mTable1 ++ mTable2

/-- What a word decodes to before its fields are checked: an instruction, or the DETAIL of the ILLEGAL_OPCODE that a
reserved major code (1) or a reserved half-op (2) raises (R179). -/
inductive Raw where
  | instr (i : Instr)
  | reserved (detail : Nat)
  deriving DecidableEq, Repr

/-- A word with P = 1 (R171). -/
def rawPair (w : Dword) : Raw :=
  match HalfOp.ofCode (fld w 55 7).toNat, HalfOp.ofCode (fld w 24 7).toNat with
  | some p, some q => .instr (pairInstr (mBit w) p (HalfFields.ofBits w 31) ⟨q, HalfFields.ofBits w 0⟩)
  | _, _ => .reserved 2

/-- A word with P = 0: its opcode selects format and row (R161, R178). -/
def rawMajor (w : Dword) : Raw :=
  let op := (fld w 54 8).toNat
  match rTable.lookup op with
  | some f => .instr (f (RWord.ofBits w))
  | none => match iTable.lookup op with
    | some f => .instr (f (IWord.ofBits w))
    | none => match mTable.lookup op with
      | some f => .instr (f (MWord.ofBits w))
      | none => match bTable.lookup op with
        | some f => .instr (f (BWord.ofBits w))
        | none => .reserved 1

/-- The instruction of a word by its opcode, its fields not yet checked (R159). -/
def rawInstr (w : Dword) : Raw := if fld w 62 1 = 1#1 then rawPair w else rawMajor w

/-- The result of decoding: an instruction, or the fault code and DETAIL of R179 and R446. -/
inductive Decoded where
  | instr (i : Instr)
  | reject (code detail : Nat)
  deriving DecidableEq, Repr

/-- Decoding a word: the first static failure in the order of R180, or the instruction. Total. -/
def decode (w : Dword) : Decoded :=
  match rawInstr w with
  | .reserved d => .reject 0x01 d
  | .instr i => match i.shape.staticFail with
    | some (c, d) => .reject c d
    | none => .instr i

/-- The word of eight bytes, the first holding the lowest bits (R159, worked words of R165). -/
def wordOfBytes (bs : List Byte) : Dword := BitVec.ofNat 64 (bs.foldr (fun b acc => b.toNat + 256 * acc) 0)

/-- The eight bytes of a word at rising addresses. -/
def bytesOfWord (w : Dword) : List Byte := (List.range 8).map (fun i => fld w (8 * i) 8)

/-- The instruction the decoder reads from a word numbered as the opcode table numbers it: one 64-bit word. -/
def decodeTableWord (_nbits w : Nat) : Option Instr :=
  match decode (wordOfBytes (bytesOfWord (BitVec.ofNat 64 w))) with
  | .instr i => some i
  | .reject _ _ => none

/-! ### The encoder -/

/-- A Boolean as a number. -/
def bitNat (b : Bool) : Nat := if b then 1 else 0

/-- The word of an R-format instruction with major opcode `op` (R161). -/
def RWord.enc (op : Nat) (w : RWord) : Dword := BitVec.ofNat 64
  (bitNat w.m * 2 ^ 63 + op * 2 ^ 54 + w.d.toNat * 2 ^ 45 + w.a.toNat * 2 ^ 36 + w.b.toNat * 2 ^ 27 + w.c.toNat * 2 ^ 18 +
    w.pred.toNat * 2 ^ 14 + w.mod.toNat)

/-- The word of an I-format instruction (R161). -/
def IWord.enc (op : Nat) (w : IWord) : Dword := BitVec.ofNat 64
  (bitNat w.m * 2 ^ 63 + op * 2 ^ 54 + w.d.toNat * 2 ^ 45 + w.a.toNat * 2 ^ 36 + w.pred.toNat * 2 ^ 32 + w.imm.toNat)

/-- The word of an M-format instruction (R161). -/
def MWord.enc (op : Nat) (w : MWord) : Dword := BitVec.ofNat 64
  (bitNat w.m * 2 ^ 63 + op * 2 ^ 54 + w.d.toNat * 2 ^ 45 + w.base.toNat * 2 ^ 37 + w.seg.toNat * 2 ^ 33 +
    w.pred.toNat * 2 ^ 29 + w.mopt.toNat * 2 ^ 24 + w.imm.toNat)

/-- The word of a B-format instruction (R161). -/
def BWord.enc (op : Nat) (w : BWord) : Dword := BitVec.ofNat 64
  (bitNat w.m * 2 ^ 63 + op * 2 ^ 54 + w.pred.toNat * 2 ^ 50 + w.minor.toNat * 2 ^ 45 + w.a.toNat * 2 ^ 36 +
    w.aux.toNat * 2 ^ 32 + w.offset.toNat)

/-- The 31 bits of a half (R171). -/
def halfNat (op : HalfOp) (f : HalfFields) : Nat :=
  op.code * 2 ^ 24 + f.d.toNat * 2 ^ 16 + f.a.toNat * 2 ^ 8 + f.imm.toNat

/-- A paired word (R159, R171). -/
def encPair (m : Bool) (op : HalfOp) (a : HalfFields) (b : Half) : Dword := BitVec.ofNat 64
  (bitNat m * 2 ^ 63 + 2 ^ 62 + halfNat op a * 2 ^ 31 + halfNat b.op b.f)

/-- The word of an instruction; the steps of other agents have none. -/
def encode : Instr → Option Dword
  | .nop w => some (w.enc 0x00)
  | .exit w => some (w.enc 0x01)
  | .jmp w => some (w.enc 0x02)
  | .brv w => some (w.enc 0x03)
  | .bru w => some (w.enc 0x04)
  | .jmpi w => some (w.enc 0x05)
  | .call w => some (w.enc 0x06)
  | .calli w => some (w.enc 0x07)
  | .ret w => some (w.enc 0x08)
  | .rwait w => some (w.enc 0x09)
  | .rwaitTimeout _ => none
  | .loop w => some (w.enc 0x0A)
  | .yield w => some (w.enc 0x0B)
  | .priPass w => some (w.enc 0x0C)
  | .sleep w => some (w.enc 0x0D)
  | .trap w => some (w.enc 0x0E)
  | .tret w => some (w.enc 0x0F)
  | .barFull w => some (w.enc 0x10)
  | .barArrive w => some (w.enc 0x10)
  | .barWait w => some (w.enc 0x10)
  | .barEnsFull w => some (w.enc 0x11)
  | .barEnsArrive w => some (w.enc 0x11)
  | .barEnsWait w => some (w.enc 0x11)
  | .brk w => some (w.enc 0x12)
  | .snap w => some (w.enc 0x13)
  | .iadd w => some (w.enc 0x20)
  | .isub w => some (w.enc 0x21)
  | .imul w => some (w.enc 0x22)
  | .imulh w => some (w.enc 0x23)
  | .imad w => some (w.enc 0x24)
  | .iabs w => some (w.enc 0x25)
  | .imin w => some (w.enc 0x26)
  | .imax w => some (w.enc 0x27)
  | .shl w => some (w.enc 0x28)
  | .shr w => some (w.enc 0x29)
  | .sar w => some (w.enc 0x2A)
  | .rot w => some (w.enc 0x2B)
  | .wext w => some (w.enc 0x2C)
  | .lfn w => some (w.enc 0x2D)
  | .andW w => some (w.enc 0x2E)
  | .orW w => some (w.enc 0x2F)
  | .xorW w => some (w.enc 0x30)
  | .andn w => some (w.enc 0x31)
  | .notW w => some (w.enc 0x32)
  | .bfe w => some (w.enc 0x33)
  | .bfi w => some (w.enc 0x34)
  | .popc w => some (w.enc 0x35)
  | .clz w => some (w.enc 0x36)
  | .ctz w => some (w.enc 0x37)
  | .brev w => some (w.enc 0x38)
  | .bsel w => some (w.enc 0x39)
  | .icmp w => some (w.enc 0x3A)
  | .sel w => some (w.enc 0x3B)
  | .mov w => some (w.enc 0x3C)
  | .dot4 w => some (w.enc 0x3D)
  | .isad w => some (w.enc 0x3E)
  | .idiv w => some (w.enc 0x3F)
  | .iaddi w => some (w.enc 0x40)
  | .imuli w => some (w.enc 0x41)
  | .andi w => some (w.enc 0x42)
  | .ori w => some (w.enc 0x43)
  | .xori w => some (w.enc 0x44)
  | .shli w => some (w.enc 0x45)
  | .shri w => some (w.enc 0x46)
  | .sari w => some (w.enc 0x47)
  | .movi w => some (w.enc 0x48)
  | .movhi w => some (w.enc 0x49)
  | .icmpi w => some (w.enc 0x4A)
  | .add64 w => some (w.enc 0x50)
  | .sub64 w => some (w.enc 0x51)
  | .mul64 w => some (w.enc 0x52)
  | .shl64 w => some (w.enc 0x53)
  | .shr64 w => some (w.enc 0x54)
  | .lea w => some (w.enc 0x55)
  | .cmp64 w => some (w.enc 0x56)
  | .sel64 w => some (w.enc 0x57)
  | .movSr w => some (w.enc 0x58)
  | .movSs w => some (w.enc 0x59)
  | .laneRd w => some (w.enc 0x5A)
  | .laneWr w => some (w.enc 0x5B)
  | .kop w => some (w.enc 0x5C)
  | .kmov w => some (w.enc 0x5D)
  | .kpop w => some (w.enc 0x5E)
  | .kffs w => some (w.enc 0x5F)
  | .fadd w => some (w.enc 0x60)
  | .fsub w => some (w.enc 0x61)
  | .fmul w => some (w.enc 0x62)
  | .fma w => some (w.enc 0x63)
  | .fmin w => some (w.enc 0x64)
  | .fmax w => some (w.enc 0x65)
  | .fcmp w => some (w.enc 0x66)
  | .fclass w => some (w.enc 0x67)
  | .frcp w => some (w.enc 0x68)
  | .frsq w => some (w.enc 0x69)
  | .fsqrt w => some (w.enc 0x6A)
  | .fexp2 w => some (w.enc 0x6B)
  | .flog2 w => some (w.enc 0x6C)
  | .fsin w => some (w.enc 0x6D)
  | .fcos w => some (w.enc 0x6E)
  | .fround w => some (w.enc 0x6F)
  | .ffract w => some (w.enc 0x70)
  | .fldexp w => some (w.enc 0x71)
  | .fexs w => some (w.enc 0x72)
  | .ftanh w => some (w.enc 0x73)
  | .hadd2 w => some (w.enc 0x74)
  | .hmul2 w => some (w.enc 0x75)
  | .hfma2 w => some (w.enc 0x76)
  | .hmax2 w => some (w.enc 0x77)
  | .fdot2 w => some (w.enc 0x78)
  | .cvt w => some (w.enc 0x80)
  | .cvtPk8 w => some (w.enc 0x81)
  | .cvtEx8 w => some (w.enc 0x82)
  | .q4Scale w => some (w.enc 0x83)
  | .q4Enc w => some (w.enc 0x84)
  | .q4Dec w => some (w.enc 0x85)
  | .nibPack w => some (w.enc 0x86)
  | .nibUnpk w => some (w.enc 0x87)
  | .vote w => some (w.enc 0x90)
  | .matchL w => some (w.enc 0x91)
  | .xlane w => some (w.enc 0x92)
  | .red w => some (w.enc 0x93)
  | .scan w => some (w.enc 0x94)
  | .elect w => some (w.enc 0x95)
  | .uchk w => some (w.enc 0x96)
  | .ldSp w => some (w.enc 0xA0)
  | .stSp w => some (w.enc 0xA1)
  | .ldA w => some (w.enc 0xA2)
  | .stA w => some (w.enc 0xA3)
  | .ldC w => some (w.enc 0xA4)
  | .stC w => some (w.enc 0xA5)
  | .ldRsp w => some (w.enc 0xA6)
  | .stRsp w => some (w.enc 0xA7)
  | .remoteScratchpadReply _ _ => none
  | .dqLd w => some (w.enc 0xA8)
  | .dqPop w => some (w.enc 0xA9)
  | .queueEntryFill _ _ => none
  | .stG w => some (w.enc 0xAA)
  | .ldP w => some (w.enc 0xAB)
  | .stP w => some (w.enc 0xAC)
  | .dqCfg w => some (w.enc 0xAD)
  | .dqLvl w => some (w.enc 0xAE)
  | .pref w => some (w.enc 0xAF)
  | .ldK w => some (w.enc 0xB0)
  | .directLoadReturn _ _ => none
  | .lnkLd w => some (w.enc 0xB1)
  | .xcopy w => some (w.enc 0xB2)
  | .copyUnitVisible _ _ _ => none
  | .cpSeal w => some (w.enc 0xB3)
  | .cpWait w => some (w.enc 0xB4)
  | .cpWp w => some (w.enc 0xB5)
  | .cpWpw w => some (w.enc 0xB6)
  | .chainAdd w => some (w.enc 0xB7)
  | .chainSeq w => some (w.enc 0xB8)
  | .chainWait w => some (w.enc 0xB9)
  | .gather w => some (w.enc 0xBA)
  | .gatherRowLand _ _ _ => none
  | .kvtrim w => some (w.enc 0xBD)
  | .trimFrameReturn _ => none
  | .atom w => some (w.enc 0xC0)
  | .atomCas w => some (w.enc 0xC1)
  | .redG w => some (w.enc 0xC2)
  | .atomSp w => some (w.enc 0xC3)
  | .acq w => some (w.enc 0xC4)
  | .acqTry w => some (w.enc 0xCA)
  | .rel w => some (w.enc 0xC5)
  | .bind w => some (w.enc 0xC6)
  | .unbind w => some (w.enc 0xC7)
  | .fence w => some (w.enc 0xC8)
  | .xfence w => some (w.enc 0xC9)
  | .xfenceCh w => some (w.enc 0xC9)
  | .cellRequestAtHome _ _ => none
  | .acquireGrant _ _ => none
  | .registrationAtHome _ _ => none
  | .registrationAck _ _ => none
  | .writeLeaveTimeout _ _ => none
  | .cleanLineExpiry _ _ => none
  | .mres w => some (w.enc 0xD0)
  | .mfree w => some (w.enc 0xD1)
  | .mmaQ w => some (w.enc 0xD2)
  | .mma w => some (w.enc 0xD3)
  | .mqk w => some (w.enc 0xD4)
  | .msv w => some (w.enc 0xD5)
  | .mwait w => some (w.enc 0xD6)
  | .mwaitAll w => some (w.enc 0xD6)
  | .smpLd w => some (w.enc 0xD7)
  | .smpImageFetchComplete _ _ => none
  | .mrow w => some (w.enc 0xD8)
  | .mscale w => some (w.enc 0xD9)
  | .mtrans w => some (w.enc 0xDA)
  | .mzero w => some (w.enc 0xDB)
  | .matrixCommandStart _ _ => none
  | .matrixCommandRetire _ _ => none
  | .shadowCheckComplete _ => none
  | .asmNew w => some (w.enc 0xE0)
  | .asmArm w => some (w.enc 0xE1)
  | .asmDep w => some (w.enc 0xE2)
  | .asmTestObj w => some (w.enc 0xE3)
  | .asmTestReg w => some (w.enc 0xE3)
  | .asmDropObj w => some (w.enc 0xE4)
  | .asmDropReg w => some (w.enc 0xE4)
  | .asmInfoPc w => some (w.enc 0xE5)
  | .asmInfoRec w => some (w.enc 0xE5)
  | .asmInfoClr w => some (w.enc 0xE5)
  | .registryOperation _ _ => none
  | .watchReportAtRegistry _ => none
  | .heldWriteSliceRelease _ => none
  | .revokeApply _ _ _ => none
  | .revokeAckCombine _ _ => none
  | .revokeRelease _ _ => none
  | .revocationSlotFree _ _ => none
  | .ladInit w => some (w.enc 0xE8)
  | .ladPush w => some (w.enc 0xE9)
  | .ladBlend w => some (w.enc 0xEA)
  | .ladRungLd w => some (w.enc 0xEB)
  | .ladRungSt w => some (w.enc 0xEB)
  | .ladRungCnt w => some (w.enc 0xEB)
  | .ladderCommandStart _ _ => none
  | .dirIns w => some (w.enc 0xEC)
  | .dirDel w => some (w.enc 0xEC)
  | .dirMov w => some (w.enc 0xEC)
  | .dirLook w => some (w.enc 0xEC)
  | .moveTargetCheck _ _ => none
  | .moveCopyComplete _ _ => none
  | .sol w => some (w.enc 0xED)
  | .cnsWait w => some (w.enc 0xEE)
  | .cnsRd w => some (w.enc 0xEE)
  | .respEnd w => some (w.enc 0xEF)
  | .rootOrderEntry _ _ => none
  | .solicitApply _ => none
  | .directoryCommitApply _ => none
  | .responderFailure _ _ _ => none
  | .chanterCombine _ _ _ _ => none
  | .censusComplete _ _ => none
  | .rdsr w => some (w.enc 0xF0)
  | .wrsr w => some (w.enc 0xF1)
  | .segBind w => some (w.enc 0xF2)
  | .ptok w => some (w.enc 0xF3)
  | .perf w => some (w.enc 0xF4)
  | .clk w => some (w.enc 0xF5)
  | .clkWave w => some (w.enc 0xF5)
  | .halt w => some (w.enc 0xF6)
  | .tlbInvPage w => some (w.enc 0xF7)
  | .tlbInvVf w => some (w.enc 0xF7)
  | .tlbInvPart w => some (w.enc 0xF7)
  | .ctxSv w => some (w.enc 0xF8)
  | .ctxLd w => some (w.enc 0xF9)
  | .hnop m a b => some (encPair m .nop a b)
  | .hmov m a b => some (encPair m .mov a b)
  | .hiadd m a b => some (encPair m .iadd a b)
  | .hisub m a b => some (encPair m .isub a b)
  | .hand m a b => some (encPair m .and a b)
  | .hor m a b => some (encPair m .or a b)
  | .hxor m a b => some (encPair m .xor a b)
  | .himin m a b => some (encPair m .imin a b)
  | .himax m a b => some (encPair m .imax a b)
  | .hshl m a b => some (encPair m .shl a b)
  | .hshr m a b => some (encPair m .shr a b)
  | .hsar m a b => some (encPair m .sar a b)
  | .hfadd m a b => some (encPair m .fadd a b)
  | .hfmul m a b => some (encPair m .fmul a b)
  | .hfmin m a b => some (encPair m .fmin a b)
  | .hfmax m a b => some (encPair m .fmax a b)
  | .hiaddi m a b => some (encPair m .iaddi a b)
  | .handi m a b => some (encPair m .andi a b)
  | .hshli m a b => some (encPair m .shli a b)
  | .hshri m a b => some (encPair m .shri a b)
  | .hmovi m a b => some (encPair m .movi a b)
  | .hfneg m a b => some (encPair m .fneg a b)
  | .hfabs m a b => some (encPair m .fabs a b)
  | .hnot m a b => some (encPair m .not a b)
  | .fixedResultLatency _ => none
  | .variableResultWrite _ _ => none
  | .windowPrefill _ => none
  | .wakeConditionMet _ => none
  | .pendingDisplacement _ _ => none
  | .translationWalkHoldExpiry _ => none
  | .translationWalkComplete _ => none
  | .demandMap _ => none
  | .ringInsertReservation _ _ _ _ => none
  | .bridgeInsertReservation _ _ _ _ => none
  | .saveAheadWriteback _ => none
  | .timeSliceExpiry _ => none
  | .softPreemptionEvict _ _ => none
  | .gracePeriodEnd _ => none
  | .hardPreemption _ => none
  | .contextRestore _ _ _ => none
  | .lateArrival _ _ _ => none
  | .dispatchIndex _ => none
  | .placerStart _ => none
  | .stealRequest _ => none
  | .queueWriteNotify _ _ _ => none
  | .nopPacket _ _ => none
  | .launch _ _ _ => none
  | .signalPacket _ _ => none
  | .waitPacket _ _ => none
  | .mapPacket _ _ => none
  | .unmapPacket _ _ => none
  | .gridComplete _ _ => none
  | .chainCopy _ _ => none
  | .chainReduce _ _ => none
  | .chainAllreduce _ _ _ => none
  | .chainSignal _ _ => none
  | .chainWaitEntry _ _ => none
  | .faultDelivery _ => none
  | .deferredFaultKnown _ _ => none
  | .workgroupContainment _ _ => none
  | .faultRecordPost => none
  | .contextKill _ _ => none
  | .partitionContainment _ _ => none
  | .partitionReinitialised _ => none
  | .packageContainment => none
  | .arrayError _ _ _ _ _ => none
  | .scrubPatrol _ _ => none
  | .quotaIntervalEnd _ _ => none
  | .tempReport _ => none
  | .snapshotTimer _ => none
  | .hostTrigger _ _ => none
  | .registerWrite _ _ _ => none
  | .hostWindowAccess _ _ _ _ _ => none
  | .featAccept _ => none
  | .queueStop _ => none
  | .queueStart _ => none
  | .queueReset _ => none
  | .faultRead _ => none
  | .quotaRead _ => none
  | .quotaAnswer _ => none
  | .ctxKill _ => none
  | .chainReg _ => none
  | .chainUnreg _ => none
  | .chainRestart _ => none
  | .chainSkip _ => none
  | .poolSet _ => none
  | .debugAuth _ => none
  | .snapRead _ => none
  | .tempRead _ => none
  | .eventRead _ => none
  | .hqWrite _ => none
  | .tenant _ => none
  | .partConfig _ => none
  | .grantRange _ => none
  | .quotaCtrl _ => none
  | .teleSet _ => none
  | .triggerMask _ => none
  | .timerTrigger _ => none
  | .groupReg _ => none
  | .packageSet _ => none
  | .fwLoad _ => none
  | .fwUpdate _ => none
  | .pstate _ => none
  | .duetForm _ => none
  | .getVersion _ => none
  | .getCapabilities _ => none
  | .negotiateAlgorithms _ => none
  | .getDigests _ => none
  | .getCertificate _ => none
  | .challenge _ => none
  | .getMeasurements _ => none
  | .keyExchange _ => none
  | .finish _ => none
  | .endSession _ => none
  | .debugAttach _ _ => none
  | .debugStop _ _ => none
  | .debugStateAccess _ _ _ _ _ => none
  | .debugResume _ _ => none
  | .powerOn _ _ => none
  | .heartbeat _ => none
  | .firmwareFailover => none
  | .standbyFailure => none
  | .flitReceive _ _ _ => none
  | .replayTimeout _ => none
  | .portDown _ => none
  | .remoteRequestTimeout _ _ => none
  | .duetWindowClose _ => none
  | .duetDigestReceived _ _ => none
  | .atomicAtHome _ _ => none
  | .encodingNotInstruction _ => none
  | .snapshotWindowRead _ _ _ => none

end Sys2Proof
end

