-- ==== Sys2Proof/Config.lean ====
section
/-!
DEFINITION. What the manual leaves to the implementation or leaves open: free values, which nothing in the model can
evaluate, and the published figures of the device (spec 01 R29, 06 R185).
-/

namespace Sys2Proof

/-- The approximating functions of R216 and R217. -/
inductive ApproxFn where
  | rcp | rsq | exp2 | log2 | sin | cos | tanh
  deriving DecidableEq, Repr

/-- The value the V768 returns for an approximating function: one value per operand, not published (R216).
Log 3. -/
opaque Config.approx : ApproxFn → Word → Word

/-- The value of `fexs` for its three operand words: one value per operands, not published (R217). Log 3. -/
opaque Config.approxExs : Word → Word → Word → Word

/-- A fresh value that the manual leaves unspecified; the argument is the counter `free` of the state. Log 4. -/
opaque Config.freeWord : Nat → Word

/-- The byte another package or the host holds at an address this device has not written (R399, R422). Log 4. -/
opaque Config.foreignByte : Nat → Byte

/-- Contents of an SPDM or image answer whose value the manual does not give (R394, R400). Log 4. -/
opaque Config.freeAnswer : Nat → BitVec 256

/-- Whether an image's signature verifies against the root of trust's key (R394). Log 4. -/
opaque Config.imageVerifies : List Byte → Bool

/-- The security version an image carries (R394). Log 4. -/
opaque Config.imageVersion : List Byte → Nat

/-- The SM3 digest of a byte sequence (R394, R395, R421). Log 4. -/
opaque Config.sm3 : List Byte → BitVec 256

/-- The fused minimum security version (R394). Log 4. -/
opaque Config.fusedVersion : Nat

/-- The leaf switch a package hangs on; the domain's cabling is not part of the package (R422, R424). Log 32. -/
opaque Config.leafSwitch : Nat → Nat

/-- The switch a Fenloth port reaches; the cabling is not part of the package (R422, R506). Log 32. -/
opaque Config.portSwitch : Nat → Nat

/-- The MAJOR and MINOR of the state table an image keeps (R395). Log 4. -/
opaque Config.imageTable : List Byte → Nat × Nat

/-- The cycles after which the other end of a link acknowledges a flit: of a port, a sequence number and the resends before it
(R423). Log 83. -/
opaque Config.flitAck : Nat → Nat → Nat → Nat

/-- Where the device keeps the saved copy of a LAUNCH packet: of a function, queue and grid sequence number (R71). Log 30. -/
opaque Config.packetCopy : Nat → Nat → Nat → BitVec 64

/-- The hash of the other package's copy of a packet in a duet: of a function, a queue and the packet's number in its ring (R420).
Log 85. -/
opaque Config.peerPacket : Nat → Nat → Nat → BitVec 256

/-- Vector registers held by a responder slot (R68). -/
def Config.responderVregs : Nat := 32

/-- The `%tslice` of a partition after reset (R253): 2,400,000 cycles. -/
def Config.tsliceReset : Word := 0x00249F00#32

/-- Cycles of the grace period of a time slice (R64). -/
def Config.gracePeriod : Nat := 120000

/-- Bytes of a sector's memory, 128 GiB (R408). -/
def Config.sectorBytes : Nat := 137438953472

end Sys2Proof
end

