-- ==== Sys2Proof/Machine/Sparse.lean ====
section
/-!
DEFINITION. Sparse tables: a table from natural numbers to values as a list of the entries that differ from a default,
keys strictly rising. Equal tables are equal lists. Memory, register files and every numbered set of units use it.
-/

namespace Sys2Proof.Machine

/-- A table from natural numbers, listing only the entries that differ from the table's default. -/
abbrev Sparse (β : Type) := List (Nat × β)

/-- The entry at `k`, the default `d` where nothing is listed. -/
def sget {β : Type} (d : β) : Sparse β → Nat → β
  | [], _ => d
  | (j, v) :: m, k => if k = j then v else sget d m k

/-- The table without the entry `k`. -/
def sdel {β : Type} (m : Sparse β) (k : Nat) : Sparse β := m.filter (fun e => decide (e.1 ≠ k))

/-- The table with the entry `k` set to `v`; setting the default removes the entry. -/
def sset {β : Type} [DecidableEq β] (d : β) : Sparse β → Nat → β → Sparse β
  | [], k, v => if v = d then [] else [(k, v)]
  | (j, u) :: m, k, v =>
    if k = j then (if v = d then sdel m k else (k, v) :: m)
    else if k < j then (if v = d then (j, u) :: sdel m k else (k, v) :: (j, u) :: m)
    else (j, u) :: sset d m k v

/-- Keys strictly rising from `lo` on, no entry equal to the default. -/
def sokFrom {β : Type} [DecidableEq β] (d : β) : Nat → Sparse β → Bool
  | _, [] => true
  | lo, (j, v) :: m => decide (lo ≤ j) && decide (v ≠ d) && sokFrom d (j + 1) m

/-- The canonical form of a sparse table. -/
def sok {β : Type} [DecidableEq β] (d : β) (m : Sparse β) : Bool := sokFrom d 0 m

/-- Set `n` consecutive entries from `k` on. -/
def ssetList {β : Type} [DecidableEq β] (d : β) : Sparse β → Nat → List β → Sparse β
  | m, _, [] => m
  | m, k, v :: vs => ssetList d (sset d m k v) (k + 1) vs

/-- `n` consecutive entries from `k` on. -/
def sgetList {β : Type} (d : β) (m : Sparse β) (k n : Nat) : List β := (List.range n).map (fun i => sget d m (k + i))

/-- The keys of a table. -/
def skeys {β : Type} (m : Sparse β) : List Nat := m.map (·.1)

end Sys2Proof.Machine
end

