-- ==== Sys2Proof/Machine/State.lean ====
section
/-!
DEFINITION. The state of the V768: waves, workgroups, cores, home slices, partitions, functions and the package, as
plain data, and the state right after reset. Each structure's docstring names the rules that give it.
-/

namespace Sys2Proof.Machine

/-! ### Waves -/

/-- One entry of the pending-write set (R46, R176): the register by its code of R445, whether its latency is variable,
the cycle a fixed entry leaves, and the access a variable entry waits for. -/
structure PendEntry where
  reg : Nat
  vlat : Bool
  ready : Nat
  tag : Nat
  deriving DecidableEq, Repr

/-- The held set of `rwait` (R233). -/
structure HeldSet where
  pc : Word
  target : Word
  deadline : Nat
  mask : Mask
  aux : Nat
  deriving DecidableEq, Repr

/-- A wake condition: KIND, OBJECT and VALUE of R56. -/
structure Wake where
  kind : Nat
  object : Nat
  value : Nat
  deriving DecidableEq, Repr

/-- A raised fault (R183, R241, R444, R446): code and subcase, the word's PC, active mask and raising lanes, `%xinfo`,
and whether the saved PCs are those after the delivery point (R484, R521). -/
structure FaultInfo where
  code : Nat
  detail : Nat
  pc : Word
  xmask : Mask
  fmask : Mask
  xinfo : Dword
  after : Bool
  deriving DecidableEq, Repr

/-- A value for one lane of a register, the register by its code of R445; scalars and masks use lane 0. -/
structure RegWrite where
  reg : Nat
  lane : Nat
  val : Word
  deriving DecidableEq, Repr

/-- One lane's translated access: the lane, its virtual and its physical address. -/
structure LaneAcc where
  lane : Nat
  va : Nat
  pa : Nat
  deriving DecidableEq, Repr

/-- One lane of an atomic: the access, its operand (or compare value) and its new value (R273). -/
structure AtomLane where
  acc : LaneAcc
  x : Nat
  y : Nat
  deriving DecidableEq, Repr

/-- An operation on the registry (R335): the descriptor's addresses of `asm.new`, the handle of `asm.arm`, the descriptor's
addresses and the `g15` BASE of `asm.dep`, and the tests and drops. -/
inductive AsmOp where
  | newObject (va pa : Nat)
  | arm (handle : Nat)
  | depend (va pa : Nat) (base : Nat)
  | test (region : Bool) (n : Nat)
  | drop (region : Bool) (n : Nat)
  deriving DecidableEq, Repr

/-- A byte-addressed local space of a core (R79). -/
inductive Space where
  | sp | wb | ab | cb
  deriving DecidableEq, Repr

/-- What an access of a wave that has not finished still does. Accesses of one wave stand in issue order. -/
inductive FlightOp where
  /-- a computed result that waits for its latency (R45) -/
  | result (ws : List RegWrite)
  /-- a direct load: size, sign extension, first register code, mode of R164 (1 `.strm`, 2 `.nl1`, 3 `.l2f`), private memory,
  applied mask at issue (R94, R270, R328) -/
  | load (accs : List LaneAcc) (size : Nat) (signed : Bool) (reg : Nat) (mode : Nat) (priv : Bool) (mask : BitVec 8)
  /-- `lnk.ld`: the table's cell and entry addresses (R271) -/
  | linkage (cell cellVa entry : Nat) (reg : Nat)
  /-- `calli`: the linkage entry's address, link register and taking lanes (R232) -/
  | callRead (entry : LaneAcc) (reg : Nat) (act eff : Mask)
  /-- a prefetch: its addresses, size and mode; with `.l2f` it leaves the L1 alone (R270) -/
  | prefetch (accs : List LaneAcc) (size : Nat) (mode : Nat)
  /-- a queue load: queue, first entry, mode (R266) -/
  | fill (queue seq : Nat) (accs : List LaneAcc) (size : Nat) (signed scalar : Bool) (mode : Nat) (mask : BitVec 8)
  /-- a claim of queue entries by `dq.pop`: the first entry, how many (0 while their push is not known) (R267) -/
  | pop (queue seq count reg : Nat)
  /-- rows of a `gather` not yet landed: copy id, A-buffer start, length, rows (R284) -/
  | gather (id base len : Nat) (rows : List LaneAcc)
  /-- stored bytes that wait behind an earlier synchronisation word (R275 to R278) -/
  | store (bytes : List (Nat × Byte)) (uncached : Bool)
  /-- an atomic: kind 0 `atom`, 1 `atom.cas`, 2 `red.g`; operation, size, lanes still to do, queue and entry, old values -/
  | atomic (kind op size : Nat) (todo : List AtomLane) (queue seq : Nat) (olds : List (Nat × Nat))
  /-- `acq` or `acq.try`: cell, destination, status mask, phase 0 unsent, 1 waiting at home, 2 answered with COUNT and
  status (R117, R275) -/
  | acquire (cell cellVa : Nat) (attempt : Bool) (reg mask phase : Nat) (count : Word) (status : Nat)
  /-- `rel` (R119) -/
  | release (cell cellVa : Nat)
  /-- `bind` and `unbind`: the region's length, function and virtual base (R277) -/
  | bindRegion (cell cellVa len vf va : Nat) (remove : Bool)
  /-- a barrier arrival that waits for the wave's earlier accesses: ensemble scope or not, slot (R123, R237, R238) -/
  | arrive (ens : Bool) (slot : Nat)
  /-- a barrier wait, behind which later accesses of the wave stand: ensemble scope or not, slot, generation (R123, R237) -/
  | barWait (ens : Bool) (slot : Nat) (gen : Word)
  /-- `fence` at a scope 0 to 4 (R278) -/
  | fence (scope : Nat)
  /-- `xfence` from path `p` to path `q` with what it waits for: accesses of the workgroup by tag, copies by id, commands by
  number, or chains with the count each must complete; and the channel form's channel and value (R279) -/
  | xfence (p q : Nat) (items : List (Nat × Nat)) (chan : Option (Nat × Word))
  /-- a remote scratchpad access: write, target core and workgroup, (lane, offset), size, sign, register, data (R264) -/
  | remote (write : Bool) (core wg : Nat) (accs : List (Nat × Nat)) (size : Nat) (signed : Bool) (reg : Nat)
      (data : List (Nat × Byte))
  /-- a local or private access that waits behind an earlier synchronisation word: write, space (none for private),
  (lane, offset), size, sign, register, data (R263, R270, R275) -/
  | later (write : Bool) (space : Option Space) (accs : List (Nat × Nat)) (size : Nat) (signed : Bool) (reg : Nat)
      (data : List (Nat × Byte))
  /-- `atom.sp` behind an earlier synchronisation word: operation, size, (lane, core offset, operand or compare value, new
  value), destination (R274) -/
  | spAtomic (op size : Nat) (todo : List (Nat × Nat × Nat × Nat)) (reg : Nat)
  /-- `mwait`: the commands it waits for, by number (R306) -/
  | mwait (nums : List Nat)
  /-- a registry operation with its destination (R342) -/
  | registry (op : AsmOp) (reg : Nat)
  /-- the image fetch of `smp.ld` (R307) -/
  | smpImage (slot wordOff reg : Nat)
  /-- `dir.ins` or `dir.del` waiting for its commit (R364) -/
  | dirCommit (insert : Bool) (entry reg : Nat)
  /-- `dir.mov`: entry, target core, workgroup, entry and address; phase 1 to check, 2 copying, 3 committed (R365) -/
  | dirMove (entry core wg rank offset target phase reg : Nat)
  /-- `kvtrim`: pages whose earlier accesses have not drained, with the count written (R287) -/
  | trim (reg : Nat) (count : Nat)
  /-- `lad.rung`: form, block, rung, lanes and offsets, data, destination, commands it follows (R356) -/
  | rung (form block rung : Nat) (offs : List (Nat × Nat)) (data : List (Nat × Word)) (reg : Nat) (after : List Nat)
  deriving DecidableEq, Repr

/-- An access in flight: its tag, the PC and masks of its word (R521), what it still does, and the applied mask of its core
at issue (R328). -/
structure Flight where
  tag : Nat
  pc : Word
  xmask : Mask
  fmask : Mask
  op : FlightOp
  applied : BitVec 8
  deriving DecidableEq, Repr

/-- A census result slot (R49, R372). -/
structure CensusSlot where
  busy : Bool
  complete : Bool
  reply : List Word
  count : Word
  id : Word
  status : Word
  deriving DecidableEq, Repr

/-- An empty census result slot. -/
def CensusSlot.empty : CensusSlot := ⟨false, false, [], 0#32, 0#32, 0#32⟩

/-- A presented `xcopy` slice (R280): direction, channel, segment, offset and length, local offset, PC and
marker of its word. -/
structure Slice where
  dir : Nat
  chan : Nat
  seg : Nat
  offset : Int
  len : Nat
  loc : Nat
  pc : Word
  m : Bool
  deriving DecidableEq, Repr

/-- A wave that waits at a word for a translation (R477): virtual address, whether it stores, the page whose demand map
is wanted, whether that map was refused, the cycle of the miss, and whether the walk has completed, so that the word
translates again. -/
structure WalkHold where
  va : Nat
  write : Bool
  demand : Bool
  refused : Bool
  start : Nat
  done : Bool
  deriving DecidableEq, Repr

/-- What a responder runs for (R368): partition, census place, directory entry, words issued, and the scratchpad bytes it may
read (none of a W-buffer tile) (R369). -/
structure Responder where
  part : Nat
  place : Nat
  entry : Nat
  issued : Nat
  start : Nat
  len : Nat
  deriving DecidableEq, Repr

/-- A wave: PC table, registers, masks, flags, pending-write set, held set, handler state and what it waits for. `run` is the
run of its window (R38, R175), `window` the vector registers its window names (R50), `zeros` the registers whose lines are
marked zero (R67), `dead` those dropped by a `.live` table (R52), `stalled` the cycle in which its word had to wait, `yields` the slot
of the pending wave that takes its active slot at its next marker (R58), `codeSeg` the `g15` with which its window is fetched, where a
`seg.bind` of the window has replaced it (R255, R454), `deferredTag` the access whose fault `deferred` holds (R521). -/
structure Wave where
  wg : Nat
  index : Nat
  record : Nat
  pcs : Sparse Word
  exited : Mask
  v : Sparse Word
  s : Sparse Word
  k : Sparse Mask
  fflags : BitVec 4
  pend : List PendEntry
  held : Option HeldSet
  xpc : Word
  xmask : Mask
  fmask : Mask
  xcode : Word
  xinfo : Dword
  inHandler : Bool
  faultPending : Option FaultInfo
  deferred : Option FaultInfo
  deferredTag : Nat
  ladderFail : Option (Nat × Nat)
  conds : List Wake
  parked : Option Wake
  parkedAt : Nat
  atMarker : Bool
  active : Bool
  activeSince : Nat
  readySince : Nat
  lastIssue : Nat
  windowPc : Word
  windowLen : Nat
  lastMarked : Bool
  exempt : Bool
  prefilled : Bool
  census : List CensusSlot
  cmdCounter : BitVec 16
  openBatch : List Nat
  openChan : Option Nat
  batches : List (List Nat)
  outstanding : Nat
  stopped : Bool
  stopPending : Bool
  slice : Option Slice
  walk : Option WalkHold
  divert : Option Nat
  run : Mask
  window : List Nat
  zeros : BitVec 256
  dead : BitVec 256
  stalled : Option Nat
  yields : Option Nat
  codeSeg : Option (BitVec 128)
  flights : List Flight
  segs : Sparse (BitVec 128)
  firstIssue : Option Nat
  resident : Nat
  resp : Option Responder
  deriving DecidableEq, Repr

/-- A wave as the dispatcher places it (R67), before its PCs and segments are set. -/
def Wave.fresh : Wave where
  wg := 0
  index := 0
  record := 0
  pcs := []
  exited := 0#32
  v := []
  s := []
  k := []
  fflags := 0#4
  pend := []
  held := none
  xpc := 0#32
  xmask := 0#32
  fmask := 0#32
  xcode := 0#32
  xinfo := 0#64
  inHandler := false
  faultPending := none
  deferred := none
  deferredTag := 0
  ladderFail := none
  conds := []
  parked := none
  parkedAt := 0
  atMarker := false
  active := false
  activeSince := 0
  readySince := 0
  lastIssue := 0
  windowPc := 0#32
  windowLen := 0
  lastMarked := true
  exempt := false
  prefilled := false
  census := List.replicate 4 CensusSlot.empty
  cmdCounter := 0#16
  openBatch := []
  openChan := none
  batches := []
  outstanding := 0
  stopped := false
  stopPending := false
  slice := none
  walk := none
  divert := none
  run := 0xFFFFFFFF#32
  window := []
  zeros := 0#256
  dead := 0#256
  stalled := none
  yields := none
  codeSeg := none
  flights := []
  segs := []
  firstIssue := none
  resident := 0
  resp := none

/-! ### Workgroups and ensembles -/

/-- An allocation in a local space: start and length in bytes (R80). -/
structure Alloc where
  start : Nat
  len : Nat
  deriving DecidableEq, Repr

/-- One entry of a decoupling queue (R89, R90): its number, the number of its push's first entry, the push's size and kind,
filled or not, claimed or not, the data words by lane, and the poisoned address if its fill was poisoned. -/
structure QEntry where
  seq : Nat
  group : Nat
  size : Nat
  scalar : Bool
  filled : Bool
  claimed : Bool
  data : List Word
  poison : Option Nat
  deriving DecidableEq, Repr

/-- A push held until its queue's level falls (R266). -/
structure HeldPush where
  w : WaveId
  tag : Nat
  size : Nat
  scalar : Bool
  deriving DecidableEq, Repr

/-- A decoupling queue (R89 to R92): depth, entries not yet popped, the next entry number, and held pushes. -/
structure DQueue where
  depth : Nat
  entries : List QEntry
  next : Nat
  held : List HeldPush
  deriving DecidableEq, Repr

/-- An unused queue. -/
def DQueue.empty : DQueue := ⟨0, [], 0, []⟩

/-- A barrier slot (R237): generation and each wave's arrival, waves by ensemble rank × 32 + index. -/
structure Barrier where
  gen : Word
  arrivals : Sparse (Option Word)
  deriving DecidableEq, Repr

/-- A barrier slot at launch. -/
def Barrier.fresh : Barrier := ⟨0#32, []⟩

/-- The rest of one slice of an accepted copy (R282): copy id, wave, PC of its `xcopy`, direction, global virtual address,
local offset, bytes left, and the physical address of an outbound unit whose registration is held (R127). -/
structure CopyPart where
  id : Nat
  wave : Nat
  pc : Word
  dir : Nat
  va : Nat
  loc : Nat
  left : Nat
  sent : Option Nat
  deriving DecidableEq, Repr

/-- A copy channel (R282): write pointer and the slices still to move, in order. -/
structure Channel where
  ptr : Word
  todo : List CopyPart
  deriving DecidableEq, Repr

/-- A copy channel at workgroup start. -/
def Channel.fresh : Channel := ⟨0#32, []⟩

/-- A reservation handle (R293, R295): its record, and whether `mfree` has been issued. -/
structure Handle where
  bits : BitVec 128
  freed : Bool
  deriving DecidableEq, Repr

/-- A resident workgroup: what its launch declared and what its waves share; `grid` is its grid's place in the partition's table and `seq` the
grid's sequence number within its queue (R71); `appended` holds the chains its waves have
appended to, each with TAIL after the last of its entries (R126, R286). -/
structure Workgroup where
  ctx : Nat
  vf : Nat
  part : Nat
  queue : Nat
  grid : Nat
  seq : Nat
  wgx : Nat
  wgy : Nat
  wgz : Nat
  waves : Nat
  ensId : Nat
  ensRank : Nat
  ensSize : Nat
  prio : Nat
  entry : Word
  access : Nat
  vregs : Nat
  privBytes : Nat
  tokensDeclared : Nat
  tokensGranted : Nat
  bars : Nat
  segs : Sparse (BitVec 128)
  sp : Alloc
  wb : Alloc
  ab : Alloc
  cb : Alloc
  queueArea : Nat
  queues : Sparse DQueue
  tiles : Sparse (Option (Nat × Nat))
  live : List (Nat × List Nat)
  barriers : Sparse Barrier
  channels : Sparse Channel
  handles : Sparse (Option Handle)
  appended : List (Nat × Nat)
  exitedWaves : Mask
  records : List Nat
  contained : Option (BitVec 512)
  deriving DecidableEq, Repr

/-! ### Matrix sequencer -/

/-- One quarter of a product command, its operands read at issue (R291, R304, R310): quarter, the two descriptors and
their records, tile offset, row and column origin, head and slot word. -/
structure QuarterOp where
  q : Nat
  da : Word
  db : Word
  ra : BitVec 128
  rb : BitVec 128
  c : Nat
  row : Word
  col : Word
  head : Word
  deriving DecidableEq, Repr

/-- A matrix or ladder command (R290, R352): products with kind 0 `mma.q`, 1 `mma`, 2 `mqk`, 3 `msv`; row operations;
ladder commands. -/
inductive CmdOp where
  | product (kind : Nat) (zero : Bool) (quarters : List QuarterOp)
  | rowStats (sel tile dst : Nat)
  | scale (tile : Nat) (factors : List Word)
  | transpose (t : Bool) (tile : Nat) (desc : Word) (record : BitVec 128)
  | zero (wide : Bool) (tile : Nat)
  | ladInit (block : Nat)
  | ladPush (block tile : Nat)
  | ladBlend (acc : Bool) (block tile : Nat)
  deriving DecidableEq, Repr

/-- An unretired command of the sequencer (R296 to R298): admission number, wave, workgroup, id, predecessors (the number of
an unretired one plus 1, or 0), operation, units, the next access tag at its admission, whether it has started, the words
and halves it will write (space, core offset, value), its flags, its failure reason, and for each quarter tile that the
shadow checker may take its quarter, deviation, row and column (R157). -/
structure Cmd where
  num : Nat
  w : WaveId
  wg : Nat
  id : BitVec 16
  pa : Nat
  pb : Nat
  op : CmdOp
  units : Nat
  tag : Nat
  started : Bool
  out : List (Space × Nat × Word)
  half : List (Space × Nat × BitVec 16)
  flags : BitVec 4
  fail : Option Nat
  dev : List (Nat × Word × Nat × Nat)
  deriving DecidableEq, Repr

/-- The state of an SMP slot (R307). -/
inductive SmpState where
  | free | loading | loaded | invalid
  deriving DecidableEq, Repr

/-- An SMP slot: state, the workgroup it is tagged to, its image of 32 double words (R307, R308). -/
structure SmpSlot where
  state : SmpState
  tag : Nat
  image : List Dword
  deriving DecidableEq, Repr

/-- A free SMP slot. -/
def SmpSlot.empty : SmpSlot := ⟨.free, 0, []⟩

/-- The shadow checker of a core (R157, R158): quarter tiles counted, a check in progress (command id, quarter, time,
deviation as f32, row, column), tiles skipped. -/
structure Shadow where
  count : Nat
  busy : Option (Nat × Nat × Nat × Word × Nat × Nat)
  skipped : Nat
  deriving DecidableEq, Repr

/-! ### Tile directory and census -/

/-- The state of a directory entry (R360). -/
inductive DirState where
  | free | valid | pending | moving
  deriving DecidableEq, Repr

/-- A tile directory entry (R360): ADDR and LEN in bytes of the core's whole space. -/
structure DirEntry where
  key : Nat
  ctx : Nat
  wside : Bool
  addr : Nat
  len : Nat
  state : DirState
  attr : Nat
  wg : Nat
  deriving DecidableEq, Repr

/-- A free directory entry. -/
def DirEntry.empty : DirEntry := ⟨0, 0, false, 0, 0, .free, 0, 0⟩

/-- A responder not yet started at a core (R368): partition, place, entry, and the entry as it stood when it matched (R374). -/
structure Spawn where
  part : Nat
  place : Nat
  entry : Nat
  tile : DirEntry
  deriving DecidableEq, Repr

/-- A reply: words, match count, failed responders and the first failure's code (R367, R371, R471). -/
structure Reply where
  words : List Word
  count : Nat
  fails : Nat
  firstCode : Nat
  deriving DecidableEq, Repr

/-- One census in flight at the partition root (R366 to R372); the asker is also known by its record. Replies of responders are kept by core and entry, replies
of cores and Chanter nodes by level (0 core, 1 cluster, 2 sector, 3 die, 4 root) × 1,024 + number. -/
structure Place where
  busy : Bool
  gen : Nat
  asker : WaveId
  record : Nat
  slot : Nat
  ctx : Nat
  vf : Nat
  key : Nat
  mask : Nat
  handler : Word
  arg : Word
  rule : Nat
  ty : Nat
  width : Nat
  seg15 : BitVec 128
  waiting : Sparse Nat
  responses : List (Nat × Nat × Reply)
  replies : Sparse (Option Reply)
  deriving DecidableEq, Repr

/-- A free place of the census root. -/
def Place.empty : Place :=
  ⟨false, 0, ⟨0, 0, 0⟩, 0, 0, 0, 0, 0, 0, 0#32, 0#32, 0, 0, 0, 0#128, [], [], []⟩

/-- A message for the root (R361): a solicit with its place unassigned, or a directory commit with the wave and access that
wait for it. A delete made by an exit or a save has no access. -/
inductive RootMsg where
  | solicit (place : Nat)
  | insert (core entry : Nat) (w : WaveId) (tag : Nat)
  | delete (core entry : Nat) (w : WaveId) (tag : Nat)
  | move (core entry core' entry' : Nat) (w : WaveId) (tag : Nat)
  deriving DecidableEq, Repr

/-- A solicit not yet given a place (R366). -/
structure SolicitReq where
  asker : WaveId
  place : Place
  deriving DecidableEq, Repr

/-! ### Cores -/

/-- One word of an L1 (R98, R120, R121): data, bytes present, bytes dirty, owned, an unacknowledged registration,
the cycle it was filled, the cycle it was first written, the context of its last write (R495), and for private and
context-area data 1 + the virtual address of its wave's record, 0 for global data (R97). -/
structure L1Word where
  data : Word
  present : BitVec 4
  dirty : BitVec 4
  owned : Bool
  unacked : Bool
  filled : Nat
  written : Nat
  ctx : Nat
  priv : Nat
  deriving DecidableEq, Repr

/-- A word absent from an L1. -/
def L1Word.absent : L1Word := ⟨0#32, 0#4, 0#4, false, false, 0, 0, 0, 0⟩

/-- A pending read of a 64 B sector (R124, R496): an entry of a core's L1 miss table, or with `nl1` of the pending-fill table of the
slice that serves it. It keeps the acquire stamp and the applied mask the read carries, the data and poison mark the slice
answered with, and the cycle it was served. -/
structure Miss where
  sector : Nat
  stamp : BitVec 16
  mask : BitVec 8
  nl1 : Bool
  strm : Bool
  data : BitVec 512
  poison : Bool
  served : Nat
  deriving DecidableEq, Repr

/-- A TLB entry (R104): function, virtual page start, page bytes, physical page start, the leaf's permission bits and the
function's root. -/
structure TlbEntry where
  vf : Nat
  va : Nat
  bytes : Nat
  pa : Nat
  leaf : Dword
  deriving DecidableEq, Repr

/-- A line of a register-file cache (R50 to R52): present, dirty, and the cycle of its last use. The data of a present line
stands in its wave's `v`. -/
structure RfLine where
  present : Bool
  dirty : Bool
  used : Nat
  deriving DecidableEq, Repr

/-- A line absent from a register-file cache. -/
def RfLine.absent : RfLine := ⟨false, false, 0⟩

/-- A core: resident work, local spaces, caches, sequencer, directory, counters. Waves are keyed by scheduler × 64 + slot.
`lines` holds the 512 B lines resident in the L1 with the order of their last use, `uses` the next such number, `misses` the
pending reads (R98, R124); `icache` and `decoded` the words of the instruction byte cache and of the decoded-operation cache,
`codes` and `decodedAt` their addresses in the order in which they came (R29, R44); `respAt` for each scheduler one more than
the cycle its responder last issued (R54). -/
structure Core where
  waves : Sparse (Option Wave)
  wgs : Sparse (Option Workgroup)
  sp : Sparse Byte
  wb : Sparse Byte
  ab : Sparse Byte
  cb : Sparse Byte
  l1 : Sparse L1Word
  lines : Sparse (Option Nat)
  uses : Nat
  misses : List Miss
  icache : Sparse (Option Dword)
  codes : List Nat
  decoded : Sparse (Option Dword)
  decodedAt : List Nat
  rf : Sparse RfLine
  tlb : List TlbEntry
  stamp : BitVec 16
  token : Sparse (Option Nat)
  row : Sparse Nat
  respAt : Sparse Nat
  cmds : List Cmd
  cmdNum : Nat
  rests : List (Nat × Nat)
  smp : Sparse SmpSlot
  dirs : Sparse DirEntry
  spawns : List Spawn
  rootSeen : Nat
  perf : Sparse Nat
  shadow : Shadow
  dirtyBlocks : Sparse Bool
  preempt : Option Nat
  deriving DecidableEq, Repr

/-- A core with nothing resident. -/
def Core.idle : Core where
  waves := []
  wgs := []
  sp := []
  wb := []
  ab := []
  cb := []
  l1 := []
  lines := []
  uses := 0
  misses := []
  icache := []
  codes := []
  decoded := []
  decodedAt := []
  rf := []
  tlb := []
  stamp := 0#16
  token := []
  row := []
  respAt := []
  cmds := []
  cmdNum := 0
  rests := []
  smp := []
  dirs := []
  spawns := []
  rootSeen := 0
  perf := []
  shadow := ⟨0, none, 0⟩
  dirtyBlocks := []
  preempt := none

/-! ### Home slices -/

/-- What a cell's home slice keeps beside the cell (R115, R116, R118): the holding wave by its core, scheduler and slot, known also
by its function and record so that a save does not lose it, the bound regions (length, function, virtual base), the waiting
acquires (wave, tag) in arrival order, and the tag of the request whose update of the cell is held (R127). -/
structure CellHome where
  holder : Option Nat
  place : Option WaveId
  bindings : List (Nat × Nat × Nat)
  waiters : List (Nat × Nat)
  update : Option Nat
  deriving DecidableEq, Repr

/-- A cell with no holder, binding or waiter. -/
def CellHome.fresh : CellHome := ⟨none, none, [], [], none⟩

/-- Who made a registration (R120): a core's vector path, or another party. -/
inductive Party where
  | core (n : Nat)
  | engine
  deriving DecidableEq, Repr

/-- The kind of an assumption object (R319). -/
inductive ObjKind where
  | ro | disj | fix | eq
  deriving DecidableEq, Repr

/-- A held write (R127, R327): its number, the cycle in which its home received it, its bytes, party and context, the partition and
objects whose watch it hit, and the revocation that holds it, if any; `discard` once its writer was killed (R495). -/
structure HeldWrite where
  num : Nat
  since : Nat
  bytes : List (Nat × Byte)
  party : Party
  ctx : Nat
  part : Nat
  objects : List Nat
  revoke : Option Nat
  reported : Bool
  discard : Bool
  deriving DecidableEq, Repr

/-- The old bytes a home keeps after a release until revocation slot `slot` is freed (R328). -/
structure ShadowByte where
  pa : Nat
  old : Byte
  part : Nat
  slot : Nat
  deriving DecidableEq, Repr

/-- A watch entry (R321): the object, its slot index among the object's words, and the physical range watched. -/
structure Watch where
  part : Nat
  object : Nat
  index : Nat
  start : Nat
  len : Nat
  range : Bool
  deriving DecidableEq, Repr

/-- A clean 64 B sector of a guest copy (R27, R28): its data, and the words of the sector (core and word address) whose
registrations the home has not acknowledged; the sector is pending while there is one. -/
structure GuestSector where
  data : BitVec 512
  pending : List (Nat × Nat)
  deriving DecidableEq, Repr

/-- A way of an L2 set (R13, R27, R29, R99, R100): its 512 B line, whether it is a guest copy, the place of the tenant it was
filled for among its partition's tenants (16 for other parties), whether it is dirty, and a guest copy's sectors by their
number in the line. A home line's data is the memory's. -/
structure L2Way where
  line : Nat
  guest : Bool
  tenant : Nat
  dirty : Bool
  sectors : Sparse (Option GuestSector)
  deriving DecidableEq, Repr

/-- A walk of a sector's walker (R104): the function, the virtual page of 4 KiB that missed, the address of its level-0 table entry
where the walk comes to one, and the cores whose misses wait for it. -/
structure Walk where
  vf : Nat
  page : Nat
  entry : Option Nat
  cores : List Nat
  deriving DecidableEq, Repr

/-- A trim or an UNMAP of one page (R110, R387): the page's frame, virtual address and bytes, the address and bytes of its leaves, the
pool record or 0 where the frame is not counted in one, the function, and how far it is: 0 its leaves have not registered, 1 the TLBs
have dropped the page, 2 the frame is being cleared. -/
structure TrimFrame where
  frame : Nat
  va : Nat
  bytes : Nat
  leaf : Nat
  leafBytes : Nat
  pool : Nat
  vf : Nat
  stage : Nat
  deriving DecidableEq, Repr

/-! ### Registry -/

/-- The state of an assumption object (R318). -/
inductive ObjState where
  | free | disarmed | armed | broken
  deriving DecidableEq, Repr

/-- An object slot of the registry (R318 to R322): state, owner, kind, count, slot dwords 1 to 15, function, the physical
addresses of its watched words, the values at arm or the registry's copies, and a revocation in flight. -/
structure AsmObject where
  state : ObjState
  owner : Nat
  vf : Nat
  kind : ObjKind
  count : Nat
  dwords : List Dword
  pas : List Nat
  values : List Dword
  inFlight : Bool
  deriving DecidableEq, Repr

/-- A free object slot. -/
def AsmObject.empty : AsmObject := ⟨.free, 0, 0, .ro, 0, [], [], [], false⟩

/-- The state of a region slot (R326). -/
inductive RegionState where
  | free | active | revoked
  deriving DecidableEq, Repr

/-- A region slot (R324, R326). -/
structure Region where
  state : RegionState
  gen : Word
  owner : Nat
  base : Nat
  descVa : Nat
  start : Word
  stop : Word
  fallback : Word
  handles : List Nat
  breaking : Nat
  deriving DecidableEq, Repr

/-- A free region slot. -/
def Region.empty : Region := ⟨.free, 0#32, 0, 0, 0, 0#32, 0#32, 0#32, [], 0⟩

/-- A revocation slot (R327, R328): the held write, the broken objects and the regions they revoked, the cores that have
applied REVOKE, whether the root has combined and the slice has released, and the cycle in which its bound began. -/
structure Revocation where
  busy : Bool
  held : Nat
  objects : List Nat
  regions : List Nat
  applied : List Nat
  combined : Bool
  released : Bool
  since : Nat
  deriving DecidableEq, Repr

/-- A free revocation slot. -/
def Revocation.empty : Revocation := ⟨false, 0, [], [], [], false, false, 0⟩

/-! ### Dispatch -/

/-- The fields of a LAUNCH packet with its formed bindings (R383, R384), and the code object's declarations. -/
structure Launch where
  qdepth : List Nat
  access : Nat
  tokens : Nat
  bars : Nat
  cbytes : Nat
  abytes : Nat
  wbytes : Nat
  spbytes : Nat
  privBytes : Nat
  vregs : Nat
  ens : Nat
  waves : Nat
  cval : Word
  cell : Nat
  gx : Nat
  gy : Nat
  gz : Nat
  entry : Word
  segs : Sparse (BitVec 128)
  code : CodeObject
  deriving DecidableEq, Repr

/-- A grid in dispatch or running (R389, R386, R452): queue, packet index, next index, workgroups running, the code of its
first containment, and the cell whose completion signal is held. -/
structure Grid where
  live : Bool
  vf : Nat
  queue : Nat
  packet : Nat
  seq : Nat
  launch : Launch
  next : Nat
  placed : Nat
  done : Nat
  contained : Option Nat
  signal : Option Nat
  deriving DecidableEq, Repr

/-- A task control block of a cluster placer (R71): its 512 bits, and the grid of this model's table it belongs to. -/
structure Tcb where
  bits : BitVec 512
  grid : Nat
  index : Nat
  rank : Nat
  deriving DecidableEq, Repr

/-- A workgroup saved in memory (R59 to R61): its record addresses are `wg.records`; its spaces, waves' accesses still in
flight and directory entries are kept here. Log 8. -/
structure Saved where
  live : Bool
  wg : Workgroup
  waves : List Wave
  sp : Sparse Byte
  wb : Sparse Byte
  ab : Sparse Byte
  cb : Sparse Byte
  smp : Sparse SmpSlot
  dirs : List DirEntry
  deriving DecidableEq, Repr

/-- A chain registration of a sector's engine (R391, R505): bytes of its entry done, and whether the last write of its entry
waits to register. -/
structure Chain where
  num : Nat
  sector : Nat
  vf : Nat
  ctx : Nat
  desc : Nat
  stopped : Bool
  offset : Nat
  waiting : Bool
  deriving DecidableEq, Repr

/-- A snapshot (R416, R417): its header, the PCs latched of each wave with its function, the mutable halves latched of
each queue, the cycle, and whether it has been read. -/
structure Snapshot where
  header : BitVec 128
  waves : List (Nat × WaveId × Mask × List Word)
  queues : List (Nat × Nat × BitVec 512)
  time : Nat
  read : Bool
  deriving DecidableEq, Repr

/-- The containment of a partition (R507). -/
inductive PartHealth where
  | serving | contained (code : Nat)
  deriving DecidableEq, Repr

/-- A duet membership (R420, R421, R509): the peer package, the number of the window being formed, its registrations in the order
they reach the edge, the closed windows whose digests have not been compared, and the peer's digests not yet compared. -/
structure Duet where
  peer : Nat
  window : Nat
  edge : List (Nat × Byte)
  closed : List (Nat × List (Nat × Byte))
  digests : List (BitVec 256)
  deriving DecidableEq, Repr

/-- A partition (R407 and the chapters of its units). -/
structure Part where
  sectors : BitVec 12
  tenantSlots : BitVec 16
  tenants : List Nat
  membase : Nat
  telebase : Dword
  shadow : Word
  tslice : Word
  origin : Nat
  objects : Sparse AsmObject
  regions : Sparse Region
  revs : Sparse Revocation
  revWaiting : List Nat
  places : Sparse Place
  solicits : List SolicitReq
  rootInbox : List RootMsg
  rootLog : List RootMsg
  rrQueue : Nat
  rrCluster : Nat
  grids : Sparse (Option Grid)
  gridNum : Nat
  slice : Option (Nat × Nat)
  grace : Option Nat
  tcbs : Sparse (List Tcb)
  saved : List Saved
  ensBarriers : Sparse Barrier
  ensNum : Nat
  chains : List Chain
  frozen : Bool
  interval : Nat
  quotas : Sparse (List Nat)
  monitors : Sparse (List Nat)
  shadowTags : Sparse (List Nat)
  triggerMask : Word
  timer : Nat
  timerFrom : Nat
  lastTrigger : Option Nat
  snapDropped : Nat
  snap : Option Snapshot
  trims : List TrimFrame
  retiring : List Nat
  sharedLeaves : List (Nat × Nat × Nat)
  health : PartHealth
  duet : Option Duet
  deriving DecidableEq, Repr

/-- A partition at reset: no sectors, the reset values of R253, R407, R413 and R508. -/
def Part.reset : Part where
  sectors := 0#12
  tenantSlots := 0#16
  tenants := []
  membase := 0
  telebase := 0#64
  shadow := 0#32
  tslice := Config.tsliceReset
  origin := 0
  objects := []
  regions := []
  revs := []
  revWaiting := []
  places := []
  solicits := []
  rootInbox := []
  rootLog := []
  rrQueue := 0
  rrCluster := 0
  grids := []
  gridNum := 0
  slice := none
  grace := none
  tcbs := []
  saved := []
  ensBarriers := []
  ensNum := 0
  chains := []
  frozen := false
  interval := 2
  quotas := []
  monitors := []
  shadowTags := []
  triggerMask := 0x0000000E#32
  timer := 0
  timerFrom := 0
  lastTrigger := none
  snapDropped := 0
  snap := none
  trims := []
  retiring := []
  sharedLeaves := []
  health := .serving
  duet := none

/-! ### Functions -/

/-- A packet taken and not retired (R382): its ring index, its saved copy (R71), the grid a LAUNCH runs, whether its work is complete,
NOTIFY. -/
structure Started where
  packet : Nat
  bits : BitVec 1024
  grid : Option Nat
  complete : Bool
  notify : Bool
  deriving DecidableEq, Repr

/-- A queue control block (R378, R379): both halves as their bits, the packets taken and not retired in ring order, the grid of
a LAUNCH still placing, a WAIT kept across QUEUE_STOP, the physical ranges whose held registrations an UNMAP or a SIGNAL waits for, and
the sequence number of its next grid (R71). -/
structure Qcb where
  hyp : BitVec 1024
  half : BitVec 512
  started : List Started
  dispatching : Option Nat
  waited : Bool
  drain : List (Nat × Nat)
  gridSeq : Nat
  deriving DecidableEq, Repr

/-- A queue that firmware has not set up. -/
def Qcb.reset : Qcb := ⟨0#1024, 0#512, [], none, false, [], 0⟩

/-- A mailbox (R401, R402): the request buffer, the firmware's copy of the request last submitted, the last response header and payload,
and MBSTATUS bits BUSY, DONE. -/
structure Mailbox where
  request : Sparse Byte
  copy : Sparse Byte
  response : BitVec 128
  payload : List Byte
  busy : Bool
  done : Bool
  deriving DecidableEq, Repr

/-- A quota event (R481): page, pool record, TAKEN, QUOTA, function, limit and source; whether it has been read, and whether it has been
answered with its accesses left parked (R482). -/
structure QuotaEvent where
  va : Nat
  pool : Nat
  taken : Nat
  quota : Nat
  vf : Nat
  limit : Bool
  source : Nat
  read : Bool
  answered : Bool
  deriving DecidableEq, Repr

/-- The SPDM responder of a function (R400): how far the session set-up has come and the sessions open. -/
structure Spdm where
  version : Bool
  capabilities : Bool
  algorithms : Bool
  pendingSession : Option Nat
  sessions : List Nat
  answer : List Byte
  ended : Bool
  deriving DecidableEq, Repr

/-- No exchange and no session. -/
def Spdm.fresh : Spdm := ⟨false, false, false, none, [], [], false⟩

/-- A function, 0 to 95 virtual, 96 physical (R397, R404): accepted features, queues, mailbox, MSI-X, pending records and
events, granted ranges, debug authorisation and attachment, SPDM. -/
structure Func where
  feat : BitVec 128
  queues : Sparse Qcb
  mailbox : Mailbox
  msix : Sparse Dword
  pba : Sparse Bool
  records : List (BitVec 512)
  lost : Nat
  quota : List QuotaEvent
  events : List (BitVec 128)
  eventsLost : Nat
  grants : List (Nat × Nat)
  debugAuth : Option Nat
  debugAttached : Bool
  spdm : Spdm
  deriving DecidableEq, Repr

/-- A function at reset. -/
def Func.reset : Func where
  feat := 0#128
  queues := []
  mailbox := ⟨[], [], 0#128, [], false, false⟩
  msix := []
  pba := []
  records := []
  lost := 0
  quota := []
  events := []
  eventsLost := 0
  grants := []
  debugAuth := none
  debugAttached := false
  spdm := Spdm.fresh

/-! ### Package -/

/-- A firmware complex (R393 to R396): whether it works, its image bytes' digest and version, and the image being staged. -/
structure Complex where
  ok : Bool
  digest : BitVec 256
  version : Nat
  staged : Sparse Byte
  deriving DecidableEq, Repr

/-- A Fenloth port (R423, R506): enabled, up, next sequence number expected and sent, unacknowledged flits by sequence number and
cycle of their sending, resends of the oldest, CRC errors since `crcFrom`, flits resent in all. -/
structure Port where
  enabled : Bool
  up : Bool
  expect : Nat
  sent : Nat
  unacked : List (Nat × Nat)
  resends : Nat
  crcErrors : Nat
  crcFrom : Nat
  resent : Nat
  deriving DecidableEq, Repr

/-- A port that is not enabled. -/
def Port.reset : Port := ⟨false, true, 0, 0, [], 0, 0, 0, 0⟩

/-- A message of the fabric (R18, R19): its partition, the die and stop it goes to (3 the die's bridge stop and its links), the address it
concerns and its payload. -/
structure RingMsg where
  part : Nat
  die : Nat
  stop : Nat
  addr : Nat
  payload : List Byte
  deriving DecidableEq, Repr

/-- A slot of a Serpent ring (R18 to R22): partition tag, message, and the source that reserved it (0 to 2 a sector's crossbar, 3 the
bridge stop's own traffic, 4 to 6 its inbound bridges). -/
structure RingSlot where
  tag : Option Nat
  msg : Option RingMsg
  reserved : Option Nat
  deriving DecidableEq, Repr

/-- An empty slot without a tag. -/
def RingSlot.empty : RingSlot := ⟨none, none, none⟩

/-- Where a message that is in no ring slot stands (R17, R22 to R24): at a source of a stop, waiting to be inserted on a ring; at a
bridge of a die, waiting for a phase; crossing a bridge; or on a link from an I/O die. -/
inductive FabricPlace where
  | source (die ring source : Nat)
  | bridge (die far : Nat)
  | crossing (die far : Nat)
  | link (die : Nat)
  deriving DecidableEq, Repr

/-- A message of the fabric in no ring slot, with the cycle in which it came to its place. -/
structure FabricMsg where
  place : FabricPlace
  since : Nat
  msg : RingMsg
  deriving DecidableEq, Repr

/-- A package-wide record waiting to be posted by the firmware (R450), with its function. -/
structure Posting where
  vf : Nat
  bits : BitVec 512
  deriving DecidableEq, Repr

/-- A wave reported to the debug function: its function, place, code and PC (R244, R257, R419). -/
structure DebugReport where
  vf : Nat
  w : WaveId
  code : Nat
  pc : Word
  deriving DecidableEq, Repr

/-- The machine. `agenda` holds the steps other agents offer, oldest first; `cur` is the wave whose word runs; `issued` lists
the schedulers (core × 4 + scheduler) that have had their turn in this cycle (R54); `readData` is what
the last read by the host or the debug function returned, `readPoison` whether it was a poisoned TLP (R8, R418, R483); `free` counts the free values drawn;
`tags` counts the accesses issued and the copies accepted. `turns` holds the rotation of inbound bridges for each die, ring and partition (R23). These five and `clk`, the cycle count, are the model's own (logs 1, 2). -/
structure State where
  agenda : List Instr
  cur : WaveId
  issued : List Nat
  free : Nat
  tags : Nat
  clk : Nat
  powered : Bool
  cores : Sparse Core
  mem : Sparse Byte
  ext : Sparse (Option Byte)
  poison : Sparse Bool
  owners : Sparse (Option Nat)
  cells : Sparse CellHome
  heldWrites : List HeldWrite
  heldNum : Nat
  shadows : List ShadowByte
  watches : List Watch
  l2 : Sparse (List L2Way)
  walks : Sparse (List Walk)
  parts : Sparse Part
  funcs : Sparse Func
  trapbase : Sparse Word
  postings : List Posting
  complexA : Complex
  complexB : Complex
  activeB : Bool
  missed : Nat
  stateMajor : Nat
  stateMinor : Nat
  pstate : Nat
  thermal : Bool
  temps : List (BitVec 16)
  package : Nat
  ports : Sparse Port
  groups : List (Nat × List Nat)
  rings : Sparse RingSlot
  fabric : List FabricMsg
  turns : Sparse Nat
  unitErrors : Sparse Nat
  unitFails : List (Nat × Nat)
  hostHeld : List (Nat × Nat × List Byte)
  failedSectors : BitVec 12
  packageContained : Bool
  readData : List Byte
  readPoison : Bool
  debugReports : List DebugReport
  deriving DecidableEq, Repr

/-- A complex holding a boot image whose content the manual does not give: digest and version 0 until an update. Log 6. -/
def Complex.boot : Complex := ⟨true, 0#256, 0, []⟩

/-- The machine right after reset, before the bring-up of R425 has run: nothing resident, nothing configured, every
register at the reset value its field map states, and at the value of logs 5 to 7 where none is stated. -/
def State.reset : State where
  agenda := []
  cur := ⟨0, 0, 0⟩
  issued := []
  free := 0
  tags := 0
  clk := 0
  powered := false
  cores := []
  mem := []
  ext := []
  poison := []
  owners := []
  cells := []
  heldWrites := []
  heldNum := 0
  shadows := []
  watches := []
  l2 := []
  walks := []
  parts := []
  funcs := []
  trapbase := []
  postings := []
  complexA := Complex.boot
  complexB := Complex.boot
  activeB := false
  missed := 0
  stateMajor := 0
  stateMinor := 0
  pstate := 0
  thermal := false
  temps := []
  package := 0
  ports := []
  groups := []
  rings := []
  fabric := []
  turns := []
  unitErrors := []
  unitFails := []
  hostHeld := []
  failedSectors := 0#12
  packageContained := false
  readData := []
  readPoison := false
  debugReports := []

/-- Why a step stops with a fault. -/
inductive Fault where
  /-- Raised by every instruction word when `cur` names no resident wave: the manual lets a word execute only for a wave
  (R37), so no behaviour of the device is lost. Safe. -/
  | noWave
  deriving DecidableEq, Repr

/-- Why a step has no meaning. -/
inductive Refusal where
  /-- An instruction that the model does not give a meaning, raised by exec's refused arms. Safe. -/
  | notModelled (mnemonic : String)
  deriving DecidableEq, Repr

end Sys2Proof.Machine
end

