-- ==== Sys2Proof/Machine/Base.lean ====
section
/-!
DEFINITION. Reading and writing the parts of the state: units by number, register files, special values, bit fields.
-/

namespace Sys2Proof.Machine

/-! ### Units -/

/-- A core by its number. -/
def State.core (s : State) (n : Nat) : Core := sget Core.idle s.cores n
/-- The state with a core replaced. -/
def State.setCore (s : State) (n : Nat) (c : Core) : State := { s with cores := sset Core.idle s.cores n c }
/-- The state with a core changed. -/
def State.updCore (s : State) (n : Nat) (f : Core → Core) : State := s.setCore n (f (s.core n))

/-- The key of a wave within its core. -/
def waveKey (w : WaveId) : Nat := w.sched * 64 + w.slot
/-- A resident wave. -/
def State.wave (s : State) (w : WaveId) : Option Wave := sget none (s.core w.core).waves (waveKey w)
/-- The state with a slot holding a wave, or nothing. -/
def State.setWave (s : State) (w : WaveId) (v : Option Wave) : State :=
  s.updCore w.core (fun c => { c with waves := sset none c.waves (waveKey w) v })
/-- The state with a resident wave changed. -/
def State.updWave (s : State) (w : WaveId) (f : Wave → Wave) : State :=
  match s.wave w with
  | none => s
  | some x => s.setWave w (some (f x))
/-- The resident waves of a core with their places, by scheduler and slot. -/
def Core.waveList (n : Nat) (c : Core) : List (WaveId × Wave) :=
  c.waves.filterMap (fun p => p.2.map (fun w => (⟨n, p.1 / 64, p.1 % 64⟩, w)))
/-- The waves of a workgroup, by index. -/
def State.wavesOf (s : State) (core wg : Nat) : List (WaveId × Wave) :=
  ((s.core core).waveList core).filter (fun p => decide (p.2.wg = wg) && p.2.resp.isNone)

/-- A resident workgroup. -/
def State.wg (s : State) (core i : Nat) : Option Workgroup := sget none (s.core core).wgs i
/-- The state with a workgroup replaced. -/
def State.setWg (s : State) (core i : Nat) (g : Option Workgroup) : State :=
  s.updCore core (fun c => { c with wgs := sset none c.wgs i g })
/-- The state with a resident workgroup changed. -/
def State.updWg (s : State) (core i : Nat) (f : Workgroup → Workgroup) : State :=
  match s.wg core i with
  | none => s
  | some g => s.setWg core i (some (f g))

/-- A partition by its number. -/
def State.part (s : State) (n : Nat) : Part := sget Part.reset s.parts n
/-- The state with a partition changed. -/
def State.updPart (s : State) (n : Nat) (f : Part → Part) : State :=
  { s with parts := sset Part.reset s.parts n (f (s.part n)) }
/-- A function by its number. -/
def State.func (s : State) (n : Nat) : Func := sget Func.reset s.funcs n
/-- The state with a function changed. -/
def State.updFunc (s : State) (n : Nat) (f : Func → Func) : State :=
  { s with funcs := sset Func.reset s.funcs n (f (s.func n)) }
/-- A queue control block. -/
def State.qcb (s : State) (vf q : Nat) : Qcb := sget Qcb.reset (s.func vf).queues q
/-- The state with a queue control block changed. -/
def State.updQcb (s : State) (vf q : Nat) (f : Qcb → Qcb) : State :=
  s.updFunc vf (fun g => { g with queues := sset Qcb.reset g.queues q (f (sget Qcb.reset g.queues q)) })

/-- The context number of a queue of a function (R115). -/
def ctxOf (vf q : Nat) : Nat := 1 + 64 * vf + q
/-- The function of a context number. -/
def ctxVf (c : Nat) : Nat := (c - 1) / 64
/-- The queue of a context number. -/
def ctxQueue (c : Nat) : Nat := (c - 1) % 64

/-! ### Numbers of units (R14, R406) -/

/-- The sector of a core. -/
def sectorOf (core : Nat) : Nat := core / 64
/-- The sectors a partition owns, ascending. -/
def Part.sectorList (p : Part) : List Nat := (List.range 12).filter (fun i => p.sectors.getLsbD i)
/-- The partition that owns a sector. -/
def State.partOfSector (s : State) (sec : Nat) : Option Nat :=
  (s.parts.find? (fun p => p.2.sectors.getLsbD sec)).map (·.1)
/-- The cores of a partition, ascending. -/
def Part.cores (p : Part) : List Nat := p.sectorList.flatMap (fun x => (List.range 64).map (fun i => 64 * x + i))
/-- The rank of a sector among a partition's sectors (R406, R408). -/
def Part.rank (p : Part) (sec : Nat) : Nat := (p.sectorList.takeWhile (fun x => decide (x < sec))).length
/-- A core number as a function sees it (R406): the physical function sees physical numbers. -/
def State.coreSeen (s : State) (vf part core : Nat) : Nat :=
  if vf = 96 then core else 64 * (s.part part).rank (sectorOf core) + core % 64

/-! ### Register files -/

/-- A vector register lane. -/
def Wave.vget (w : Wave) (r l : Nat) : Word := sget 0#32 w.v (r * 32 + l)
/-- Write a vector register lane. -/
def Wave.vset (w : Wave) (r l : Nat) (x : Word) : Wave := { w with v := sset 0#32 w.v (r * 32 + l) x }
/-- A scalar register. -/
def Wave.sreg (w : Wave) (r : Nat) : Word := sget 0#32 w.s r
/-- Write a scalar register. -/
def Wave.sregSet (w : Wave) (r : Nat) (x : Word) : Wave := { w with s := sset 0#32 w.s r x }
/-- A mask register; `k0` reads all-ones (R170). -/
def Wave.kget (w : Wave) (k : Nat) : Mask := if k = 0 then 0xFFFFFFFF#32 else sget 0#32 w.k k
/-- Write a mask register; `k0` is never written. -/
def Wave.kset (w : Wave) (k : Nat) (x : Mask) : Wave := if k = 0 then w else { w with k := sset 0#32 w.k k x }
/-- The PC of a lane. -/
def Wave.pcOf (w : Wave) (l : Nat) : Word := sget 0#32 w.pcs l
/-- Set the PC of a lane. -/
def Wave.pcSet (w : Wave) (l : Nat) (p : Word) : Wave := { w with pcs := sset 0#32 w.pcs l p }
/-- Set the PCs of some lanes. -/
def Wave.pcSets (w : Wave) (ls : List Nat) (f : Nat → Word) : Wave := ls.foldl (fun w l => w.pcSet l (f l)) w

/-- A register lane by its code of R445 (0x000 vector, 0x100 scalar, 0x200 mask). -/
def Wave.regGet (w : Wave) (code l : Nat) : Word :=
  if code < 0x100 then w.vget code l else if code < 0x180 then w.sreg (code - 0x100) else w.kget (code - 0x200)
/-- Write a register lane by its code. -/
def Wave.regSet (w : Wave) (code l : Nat) (x : Word) : Wave :=
  if code < 0x100 then w.vset code l x else if code < 0x180 then w.sregSet (code - 0x100) x else w.kset (code - 0x200) x
/-- Apply register writes. -/
def Wave.regWrites (w : Wave) (ws : List RegWrite) : Wave := ws.foldl (fun w x => w.regSet x.reg x.lane x.val) w

/-- The lanes held by `rwait`. -/
def Wave.heldMask (w : Wave) : Mask := match w.held with
  | some h => h.mask
  | none => 0#32

/-- Unexited, unheld lanes. -/
def Wave.runnable (w : Wave) : List Nat := lanes.filter (fun l => !w.exited.getLsbD l && !w.heldMask.getLsbD l)

/-- The mask of a list of lanes. -/
def maskOf (ls : List Nat) : Mask := ls.foldl (fun m l => m ||| (1#32 <<< l)) 0#32

/-- The lowest PC of the runnable lanes (R37). -/
def Wave.headPc (w : Wave) : Option Nat :=
  w.runnable.foldl (fun acc l => match acc with
    | none => some (w.pcOf l).toNat
    | some p => some (min p (w.pcOf l).toNat)) none

/-- The head run: the lanes whose PC is the lowest (R37). Within a window it is the run that the window began with; lanes that
stand at its PC join it only at a window start (R38, R175). -/
def Wave.headRun (w : Wave) : Option (Word × Mask) :=
  w.headPc.map (fun p =>
    let low := maskOf (w.runnable.filter (fun l => (w.pcOf l).toNat = p))
    (BitVec.ofNat 32 p, if w.lastMarked || decide (low &&& w.run = 0#32) then low else low &&& w.run))

/-! ### Bit fields -/

/-- Bits `hi` to `lo` of a value, as a number. -/
def bitsN {n : Nat} (x : BitVec n) (hi lo : Nat) : Nat := x.toNat / 2 ^ lo % 2 ^ (hi - lo + 1)

/-- A value with bits `hi` to `lo` replaced by a number. -/
def setBits {n : Nat} (x : BitVec n) (hi lo v : Nat) : BitVec n :=
  let w := hi - lo + 1
  BitVec.ofNat n (x.toNat - bitsN x hi lo * 2 ^ lo + v % 2 ^ w * 2 ^ lo)

/-- A number from bytes, lowest first. -/
def natOfBytes (bs : List Byte) : Nat := bs.foldr (fun b acc => b.toNat + 256 * acc) 0

/-- `n` bytes of a number, lowest first. -/
def bytesOfNat (x n : Nat) : List Byte := (List.range n).map (fun i => BitVec.ofNat 8 (x / 256 ^ i))

/-- A number as a 32-bit word. -/
def wd (n : Nat) : Word := BitVec.ofNat 32 n

/-- An integer as a 32-bit word, modulo 2^32. -/
def wdI (n : Int) : Word := BitVec.ofInt 32 n

/-- A 64-bit value of two words, the low one first (R138). -/
def pair64 (lo hi : Word) : Nat := lo.toNat + 2 ^ 32 * hi.toNat

/-- The value of an option, or a default. -/
def optD {α : Type} (o : Option α) (d : α) : α := match o with
  | some x => x
  | none => d

/-- A list without repeats, first occurrences kept. -/
def dedup (l : List Nat) : List Nat := l.foldl (fun acc x => if acc.contains x then acc else acc ++ [x]) []

/-- The next free value (log 4) and the state with the counter advanced. -/
def State.draw (s : State) : Word × State := (Config.freeWord s.free, { s with free := s.free + 1 })

/-- A cycle passes for the machine (log 2). -/
def State.tick (s : State) (n : Nat) : State := { s with clk := s.clk + n }

/-- `%clk` of a partition (R203). -/
def State.pclk (s : State) (part : Nat) : Nat := s.clk - (s.part part).origin

/-! ### Memory at the home (R99, R399, R408, R422) -/

/-- The canonical form of the memory of the package: addresses strictly rising, no byte equal to what an unlisted address
reads as, which is 0 (log 6). -/
def Memory.wf (m : Sparse Byte) : Bool := sok 0#8 m

/-- The package field of a physical address. -/
def paPkg (pa : Nat) : Nat := pa / 2 ^ 44
/-- Whether a physical address lies in this package's memory (R422). -/
def State.isLocal (s : State) (pa : Nat) : Bool := decide (paPkg pa = 0) || decide (paPkg pa = s.package)
/-- A physical address in one form: local addresses without their package field. -/
def State.canon (s : State) (pa : Nat) : Nat := if s.isLocal pa then pa % 2 ^ 44 else pa

/-- Whether an address lies in another package's memory (R422). -/
def State.isRemote (s : State) (pa : Nat) : Bool := !s.isLocal pa && decide (paPkg pa < 0x90)
/-- Whether a Fenloth port carries traffic (R423, R506). -/
def State.portLive (s : State) (n : Nat) : Bool := (sget Port.reset s.ports n).enabled && (sget Port.reset s.ports n).up

/-- One byte at its home. -/
def State.homeByte (s : State) (pa : Nat) : Byte :=
  if s.isLocal pa then sget 0#8 s.mem (s.canon pa)
  else optD (sget none s.ext pa) (Config.foreignByte pa)

/-- One byte written at its home. -/
def State.setHome (s : State) (pa : Nat) (b : Byte) : State :=
  if s.isLocal pa then { s with mem := sset 0#8 s.mem (s.canon pa) b }
  else { s with ext := sset none s.ext pa (some b) }

/-- `n` bytes at their home. -/
def State.homeBytes (s : State) (pa n : Nat) : List Byte := (List.range n).map (fun i => s.homeByte (pa + i))
/-- `n` bytes at their home as a number. -/
def State.homeNat (s : State) (pa n : Nat) : Nat := natOfBytes (s.homeBytes pa n)
/-- Bytes written at their home. -/
def State.setHomeBytes (s : State) (pa : Nat) : List Byte → State
  | [] => s
  | b :: bs => (s.setHome pa b).setHomeBytes (pa + 1) bs

/-- The bytes of a list of values at consecutive addresses. -/
def byteList (pa : Nat) (bs : List Byte) : List (Nat × Byte) := (List.range bs.length).zip bs |>.map (fun p => (pa + p.1, p.2))

/-- The partition-relative address of a local physical address (R408). -/
def Part.rel (p : Part) (pa : Nat) : Nat := Config.sectorBytes * p.rank (pa / Config.sectorBytes) + pa % Config.sectorBytes

/-- The home slice of a local physical address, among the slices of its partition, as a package slice number (R99). -/
def Part.homeSlice (p : Part) (pa : Nat) : Nat :=
  let n := 32 * p.sectorList.length
  if n = 0 then 0
  else
    let x := p.rel pa / 512
    let q := x / n
    let h := (x % n + Nat.xor (q % 2 ^ 12) (q / 2 ^ 12 % 2 ^ 12)) % n
    32 * p.sectorList.getD (h / 32) 0 + h % 32

/-- The sector whose slice is the home of a local address. -/
def State.homeSector (s : State) (pa : Nat) : Option Nat :=
  (s.partOfSector (pa / Config.sectorBytes)).map (fun p => (s.part p).homeSlice pa / 32)


end Sys2Proof.Machine
end

