-- ==== Sys2Proof/Machine/Num.lean ====
section
/-!
DEFINITION. Number formats and rounding (spec 05 R137 to R148): values held exactly as sign, magnitude and exponent, one
rounding to a format with its flags, and the arithmetic of "Floating-point, conversion and q4 instructions".
-/

namespace Sys2Proof.Machine

/-- The sticky flags, in the bits of R153. -/
abbrev Flags := BitVec 4
/-- Invalid. -/
def fNV : Flags := 1#4
/-- Overflow. -/
def fOF : Flags := 2#4
/-- Underflow. -/
def fUF : Flags := 4#4
/-- Inexact to zero. -/
def fIZ : Flags := 8#4

/-- A floating-point format (R139): exponent and fraction bits, bias, whether it has infinities. -/
structure Fmt where
  eb : Nat
  mb : Nat
  bias : Nat
  inf : Bool
  deriving DecidableEq, Repr

/-- f32. -/
def f32 : Fmt := ⟨8, 23, 127, true⟩
/-- f16. -/
def f16 : Fmt := ⟨5, 10, 15, true⟩
/-- bf16. -/
def bf16 : Fmt := ⟨8, 7, 127, true⟩
/-- e4m3. -/
def e4m3 : Fmt := ⟨4, 3, 7, false⟩
/-- e5m2. -/
def e5m2 : Fmt := ⟨5, 2, 15, true⟩

/-- The format of a floating type code (R137). -/
def fmtOf (t : Nat) : Fmt := if t = 0x8 then f16 else if t = 0x9 then bf16 else if t = 0xB then e4m3 else if t = 0xC then e5m2 else f32

/-- Width of a format. -/
def Fmt.width (f : Fmt) : Nat := 1 + f.eb + f.mb

/-- Pattern of +∞. -/
def Fmt.infBits (f : Fmt) : Nat := (2 ^ f.eb - 1) * 2 ^ f.mb

/-- The canonical NaN (R140). -/
def Fmt.nan (f : Fmt) : Nat := if f.inf then f.infBits + 2 ^ (f.mb - 1) else f.infBits + (2 ^ f.mb - 1)

/-- Pattern of the largest finite value (R139). -/
def Fmt.maxFin (f : Fmt) : Nat := if f.inf then f.infBits - 1 else f.infBits + (2 ^ f.mb - 2)

/-- A sign bit of a format. -/
def Fmt.sign (f : Fmt) (neg : Bool) : Nat := if neg then 2 ^ (f.eb + f.mb) else 0

/-- A value read from a pattern: a NaN, an infinity, or sign, magnitude and exponent: ± m × 2^e. -/
inductive FVal where
  | nan (signalling : Bool)
  | inf (neg : Bool)
  | fin (neg : Bool) (m : Nat) (e : Int)
  deriving DecidableEq, Repr

/-- The value of a pattern (R139, R140); subnormals are kept. -/
def Fmt.val (f : Fmt) (x : Nat) : FVal :=
  let neg := decide (x / 2 ^ (f.eb + f.mb) % 2 = 1)
  let ex := x / 2 ^ f.mb % 2 ^ f.eb
  let fr := x % 2 ^ f.mb
  if ex = 2 ^ f.eb - 1 ∧ f.inf = true then
    if fr = 0 then .inf neg else .nan (decide (fr < 2 ^ (f.mb - 1)))
  else if ex = 2 ^ f.eb - 1 ∧ fr = 2 ^ f.mb - 1 then .nan false
  else if ex = 0 then .fin neg fr (1 - (f.bias : Int) - f.mb)
  else .fin neg (fr + 2 ^ f.mb) ((ex : Int) - f.bias - f.mb)

/-- m × 2^e rounded to an integer in a mode of R143: 0 nearest even, 1 toward zero, 2 toward +∞, 3 toward −∞; and whether
it was inexact. -/
def roundInt (mode : Nat) (neg : Bool) (m : Nat) (e : Int) : Nat × Bool :=
  if 0 ≤ e then (m * 2 ^ e.toNat, false)
  else
    let k := (-e).toNat
    let q := m / 2 ^ k
    let r := m % 2 ^ k
    let up :=
      if r = 0 then false
      else if mode = 0 then decide (2 ^ k < 2 * r) || (decide (2 * r = 2 ^ k) && decide (q % 2 = 1))
      else if mode = 1 then false
      else if mode = 2 then !neg
      else neg
    (if up then q + 1 else q, decide (r ≠ 0))

/-- The result of a finite overflow (R144). -/
def Fmt.overflow (f : Fmt) (mode : Nat) (sat neg : Bool) : Nat :=
  if sat then f.sign neg + f.maxFin
  else if !f.inf then f.nan
  else if mode = 0 || (mode = 2 && !neg) || (mode = 3 && neg) then f.sign neg + f.infBits
  else f.sign neg + f.maxFin

/-- A finite value rounded to a format (R144) with its flags (R153). A value far outside the format is first brought next to
its range, which changes no rounding. -/
def Fmt.round (f : Fmt) (mode : Nat) (sat neg : Bool) (m : Nat) (e : Int) : Nat × Flags :=
  if m = 0 then (f.sign neg, 0#4)
  else
    let top : Int := (Nat.log2 m : Int) + e
    let emin : Int := 1 - (f.bias : Int)
    if top > (f.bias : Int) + 3 then (f.overflow mode sat neg, fOF)
    else
      let (m, e) := if top < emin - f.mb - 3 then (1, emin - f.mb - 3) else (m, e)
      let top := if top < emin - f.mb - 3 then emin - f.mb - 3 else top
      let q : Int := max top emin - f.mb
      let (r, inexact) := roundInt mode neg m (e - q)
      let (r, q) := if r = 2 ^ (f.mb + 1) then (2 ^ f.mb, q + 1) else (r, q)
      if r = 0 then (f.sign neg, fIZ ||| fUF)
      else
        let be : Int := if 2 ^ f.mb ≤ r then q + f.mb + f.bias else 0
        let bits := be.toNat * 2 ^ f.mb + r % 2 ^ f.mb
        if f.maxFin < bits then (f.overflow mode sat neg, fOF)
        else (f.sign neg + bits, if inexact && decide (be = 0) then fUF else 0#4)

/-- The result for an infinite value (R144). -/
def Fmt.ofInf (f : Fmt) (sat neg : Bool) : Nat × Flags :=
  if sat then (f.sign neg + f.maxFin, fNV)
  else if f.inf then (f.sign neg + f.infBits, 0#4)
  else (f.nan, fNV)

/-- A value rounded to a format; a NaN is canonical, NV for a signalling one (R140, R144). -/
def Fmt.ofVal (f : Fmt) (mode : Nat) (sat : Bool) : FVal → Nat × Flags
  | .nan s => (f.nan, if s then fNV else 0#4)
  | .inf neg => f.ofInf sat neg
  | .fin neg m e => f.round mode sat neg m e

/-- A value with its sign inverted. -/
def FVal.negate : FVal → FVal
  | .nan s => .nan s
  | .inf n => .inf (!n)
  | .fin n m e => .fin (!n) m e

/-- The exact product (R142, R149); a NaN marked signalling where it sets NV: 0 × ∞ and signalling operands. -/
def FVal.mul : FVal → FVal → FVal
  | .nan s, .nan t => .nan (s || t)
  | .nan s, _ => .nan s
  | _, .nan t => .nan t
  | .inf n, .inf p => .inf (n != p)
  | .inf n, .fin p m _ => if m = 0 then .nan true else .inf (n != p)
  | .fin p m _, .inf n => if m = 0 then .nan true else .inf (n != p)
  | .fin n m e, .fin p m' e' => .fin (n != p) (m * m') (e + e')

/-- A signed integer of sign and magnitude. -/
def sgnInt (neg : Bool) (m : Nat) : Int := if neg then -(m : Int) else m

/-- The exact sum, zero signed by R142 in the mode; ∞ − ∞ is a NaN that sets NV. -/
def FVal.add (mode : Nat) : FVal → FVal → FVal
  | .nan s, .nan t => .nan (s || t)
  | .nan s, _ => .nan s
  | _, .nan t => .nan t
  | .inf n, .inf p => if n = p then .inf n else .nan true
  | .inf n, _ => .inf n
  | _, .inf n => .inf n
  | .fin n m e, .fin p m' e' =>
    let b := min e e'
    let t := sgnInt n (m * 2 ^ (e - b).toNat) + sgnInt p (m' * 2 ^ (e' - b).toNat)
    if t = 0 then (if m = 0 ∧ m' = 0 ∧ n = p then .fin n 0 0 else .fin (decide (mode = 3)) 0 0)
    else .fin (decide (t < 0)) t.natAbs b

/-- `fadd` of two patterns in a format (R214). -/
def Fmt.fadd (f : Fmt) (mode : Nat) (sat : Bool) (x y : Nat) : Nat × Flags := f.ofVal mode sat ((f.val x).add mode (f.val y))

/-- `fsub` (R214). -/
def Fmt.fsub (f : Fmt) (mode : Nat) (sat : Bool) (x y : Nat) : Nat × Flags :=
  f.ofVal mode sat ((f.val x).add mode (f.val y).negate)

/-- `fmul` (R214). -/
def Fmt.fmul (f : Fmt) (mode : Nat) (sat : Bool) (x y : Nat) : Nat × Flags := f.ofVal mode sat ((f.val x).mul (f.val y))

/-- `fma` (R214): one rounding. -/
def Fmt.fma (f : Fmt) (mode : Nat) (sat : Bool) (x y z : Nat) : Nat × Flags :=
  f.ofVal mode sat (((f.val x).mul (f.val y)).add mode (f.val z))

/-- The quotient of two f32 patterns rounded to nearest even (R309): exact quotient with a sticky bit. -/
def fdiv (x y : Nat) : Nat × Flags :=
  match f32.val x, f32.val y with
  | .nan s, .nan t => (f32.nan, if s || t then fNV else 0#4)
  | .nan s, _ => (f32.nan, if s then fNV else 0#4)
  | _, .nan t => (f32.nan, if t then fNV else 0#4)
  | .inf _, .inf _ => (f32.nan, fNV)
  | .inf n, .fin p _ _ => (f32.sign (n != p) + f32.infBits, 0#4)
  | .fin n _ _, .inf p => (f32.sign (n != p), 0#4)
  | .fin n m e, .fin p m' e' =>
    if m' = 0 then (if m = 0 then (f32.nan, fNV) else (f32.sign (n != p) + f32.infBits, 0#4))
    else
      let q := m * 2 ^ 100 / m'
      f32.round 0 false (n != p) (2 * q + (if m * 2 ^ 100 % m' = 0 then 0 else 1)) (e - e' - 101)

/-- Whether a value is a NaN. -/
def FVal.isNan : FVal → Bool
  | .nan _ => true
  | _ => false

/-- Whether a value is a signalling NaN. -/
def FVal.isSnan : FVal → Bool
  | .nan s => s
  | _ => false

/-- Order of a pattern that is no NaN, −0 just below +0 (R141). -/
def Fmt.key (f : Fmt) (x : Nat) : Int :=
  let m := x % 2 ^ (f.eb + f.mb)
  if x / 2 ^ (f.eb + f.mb) % 2 = 1 then -(m : Int) - 1 else m

/-- `fmin` and `fmax` (R141). -/
def Fmt.fminmax (f : Fmt) (isMax : Bool) (x y : Nat) : Nat × Flags :=
  let a := f.val x
  let b := f.val y
  let fl := if a.isSnan || b.isSnan then fNV else 0#4
  if a.isNan && b.isNan then (f.nan, fl)
  else if a.isNan then (y % 2 ^ f.width, fl)
  else if b.isNan then (x % 2 ^ f.width, fl)
  else if isMax = decide (f.key y ≤ f.key x) then (x % 2 ^ f.width, fl)
  else (y % 2 ^ f.width, fl)

/-- A comparison of R215: condition code 0 to 7, with its flags. −0 equals +0. -/
def Fmt.fcmp (f : Fmt) (cond : Nat) (x y : Nat) : Bool × Flags :=
  let a := f.val x
  let b := f.val y
  let fl := if a.isSnan || b.isSnan then fNV else 0#4
  let nan := a.isNan || b.isNan
  let k := fun (z : Nat) =>
    let m : Nat := z % 2 ^ (f.eb + f.mb)
    if z / 2 ^ (f.eb + f.mb) % 2 = 1 then -(m : Int) else (m : Int)
  let r :=
    if cond = 6 then !nan
    else if cond = 7 then nan
    else if nan then decide (cond = 1)
    else if cond = 0 then decide (k x = k y)
    else if cond = 1 then decide (k x ≠ k y)
    else if cond = 2 then decide (k x < k y)
    else if cond = 3 then decide (k x ≤ k y)
    else if cond = 4 then decide (k y < k x)
    else decide (k y ≤ k x)
  (r, fl)

/-- The class bit of `fclass` (R215). -/
def Fmt.fclass (f : Fmt) (x : Nat) : Nat :=
  match f.val x with
  | .nan s => if s then 0 else 1
  | .inf n => if n then 2 else 9
  | .fin n m _ =>
    if m = 0 then (if n then 5 else 6)
    else if m < 2 ^ f.mb then (if n then 4 else 7)
    else if n then 3 else 8

/-- `fround` (R214): an integral value in the mode, of the same type; only NV, for a signalling NaN. -/
def Fmt.fround (f : Fmt) (mode : Nat) (x : Nat) : Nat × Flags :=
  match f.val x with
  | .nan s => (f.nan, if s then fNV else 0#4)
  | .inf n => (f.sign n + f.infBits, 0#4)
  | .fin n m e => ((f.round 0 false n (if 0 ≤ e then m else (roundInt mode n m e).1) (if 0 ≤ e then e else 0)).1, 0#4)

/-- `fldexp` (R214): the operand itself for ±0, ±∞ and NaN. -/
def Fmt.fldexp (f : Fmt) (mode : Nat) (sat : Bool) (x : Nat) (n : Int) : Nat × Flags :=
  match f.val x with
  | .nan s => (f.nan, if s then fNV else 0#4)
  | .inf g => (f.sign g + f.infBits, 0#4)
  | .fin g m e => if m = 0 then (f.sign g, 0#4) else f.round mode sat g m (e + n)

/-- `ffract` of an f32 (R214). -/
def ffract (x : Nat) : Nat × Flags :=
  match f32.val x with
  | .nan s => (f32.nan, if s then fNV else 0#4)
  | .inf _ => (f32.nan, fNV)
  | .fin n m e =>
    if 0 ≤ e then (0, 0#4)
    else
      let fl := sgnInt n (roundInt 3 n m e).1
      let d := sgnInt n m - fl * 2 ^ (-e).toNat
      let r := f32.round 0 false false d.toNat e
      if 0x3F7FFFFF < r.1 then (0x3F7FFFFF, 0#4) else r

/-- Width of a type code (R137). -/
def tyWidth (t : Nat) : Nat :=
  if t ≤ 1 ∨ t = 0xB ∨ t = 0xC then 8 else if t ≤ 3 ∨ t = 8 ∨ t = 9 then 16 else if t = 6 ∨ t = 7 then 64 else 32

/-- Whether an integer type code is signed (R137). -/
def tySigned (t : Nat) : Bool := decide (t % 2 = 1)

/-- A pattern of `w` bits as a signed integer. -/
def sInt (w x : Nat) : Int :=
  let u : Nat := x % 2 ^ w
  if 2 ^ (w - 1) ≤ u then (u : Int) - ((2 ^ w : Nat) : Int) else (u : Int)

/-- `Val(x, T)` (R189): the integer a pattern denotes. -/
def intVal (w : Nat) (signed : Bool) (x : Nat) : Int := if signed then sInt w x else ((x % 2 ^ w : Nat) : Int)

/-- The least value of an integer type. -/
def intMin (w : Nat) (signed : Bool) : Int := if signed then -(2 ^ (w - 1) : Nat) else 0

/-- The greatest value of an integer type. -/
def intMax (w : Nat) (signed : Bool) : Int := if signed then (2 ^ (w - 1) : Nat) - 1 else (2 ^ w : Nat) - 1

/-- `Sat(x, T)` (R182). -/
def satInt (w : Nat) (signed : Bool) (x : Int) : Int := max (intMin w signed) (min (intMax w signed) x)

/-- A value modulo 2^w. -/
def wrapInt (w : Nat) (x : Int) : Nat := (x % (2 ^ w : Nat)).toNat

/-- Conversion between the types 0x0 to 0xC (R219, R144): the source pattern, giving the destination pattern. -/
def cvtVal (st dt mode : Nat) (sat : Bool) (x : Nat) : Nat × Flags :=
  let w := tyWidth dt
  let sg := tySigned dt
  if st < 8 then
    let v := intVal (tyWidth st) (tySigned st) x
    if dt < 8 then (wrapInt w (if sat then satInt w sg v else v), 0#4)
    else (fmtOf dt).round mode sat (decide (v < 0)) v.natAbs 0
  else
    let v := (fmtOf st).val x
    if 8 ≤ dt then (fmtOf dt).ofVal mode sat v
    else match v with
      | .nan _ => (0, fNV)
      | .inf n => (wrapInt w (if n then intMin w sg else intMax w sg), fNV)
      | .fin n m e =>
        let r := sgnInt n (roundInt mode n m e).1
        (wrapInt w (satInt w sg r), if satInt w sg r = r then 0#4 else fNV)

/-! ### q4 and block scales -/

/-- The magnitude of a code value of R147 in units of 2^−3. -/
def q4Mag (ty c : Nat) : Nat :=
  let i := c % 8
  if ty = 0 then (if 8 ≤ c then (16 - c) * 8 else c * 8)
  else if ty = 1 then [0, 4, 8, 12, 16, 24, 32, 48].getD i 0
  else if ty = 2 then [0, 1, 2, 4, 8, 16, 32, 64].getD i 0
  else [0, 8, 16, 24, 32, 48, 64, 128].getD i 0

/-- The value of a q4 code under a scale byte (R146, R147); EXP 63 is NaN. -/
def q4Val (scale c : Nat) : FVal :=
  let ex := scale % 64
  if ex = 63 then .nan true
  else .fin (decide (8 ≤ c % 16)) (q4Mag (scale / 64 % 4) (c % 16)) ((ex : Int) - 35)

/-- The scale of an fp8 block (R148): its exponent, or none for the NaN scale. -/
def fp8Scale (scale : Nat) : Option Int :=
  if scale / 64 % 4 ≠ 0 ∨ scale % 64 = 63 then none else some ((scale % 64 : Nat) - 32)

/-- A value times 2^k. -/
def FVal.scale (k : Int) : FVal → FVal
  | .fin n m e => .fin n m (e + k)
  | v => v

/-- `q4.enc` of one lane (R223): the code nearest to a finite `± m × 2^e`, e already scaled to units of the code values. The
codes are searched by their signed value; ties go to the even code. -/
def q4Search (ty mode : Nat) (neg : Bool) (m : Nat) (e : Int) : Nat × Flags :=
  let cands := (List.range 16).filter (fun c => !(decide (0 < ty) && c == 8))
  let val := fun c => sgnInt (decide (8 ≤ c)) (q4Mag ty c)
  -- y in units of 2^-3 as num / 2^den
  let sh := e + 3
  let num := sgnInt neg (m * 2 ^ sh.toNat)
  let den := (2 ^ (-sh).toNat : Nat)
  let lo := fun c => decide (val c * den ≤ num)
  let best := fun (better : Nat → Nat → Bool) (cs : List Nat) =>
    cs.foldl (fun acc c => match acc with
      | none => some c
      | some b => if better c b then some c else some b) (none : Option Nat)
  let down := best (fun c b => decide (val b < val c)) (cands.filter lo)
  let up := best (fun c b => decide (val c < val b)) (cands.filter (fun c => decide (num ≤ val c * den)))
  let pick :=
    match down, up with
    | some d, some u =>
      if val d = val u then d
      else if mode = 3 then d
      else if mode = 2 then u
      else if mode = 1 then (if neg then u else d)
      else
        let dd := num - val d * den
        let du := val u * den - num
        if dd < du then d else if du < dd then u else if d % 2 = 0 then d else u
    | some d, none => d
    | none, some u => u
    | none, none => 0
  let fl := (if down.isNone || up.isNone then fOF else 0#4) |||
    (if decide (val pick = 0) && decide (m ≠ 0) then fIZ else 0#4)
  (if val pick = 0 && neg && decide (0 < ty) then 8 else pick, fl)

/-- `q4.enc` of one lane (R223). An infinite value is beyond every code value. -/
def q4Enc (mode scale x : Nat) : Nat × Flags :=
  let ty := scale / 64 % 4
  if scale % 64 = 63 then (0, fNV)
  else match f32.val x with
    | .nan _ => (0, fNV)
    | .inf n => q4Search ty mode n 1 40
    | .fin n m e =>
      let e' := e + 32 - (scale % 64 : Nat)
      if m = 0 then (if n && decide (0 < ty) then 8 else 0, 0#4)
      else if 20 < (Nat.log2 m : Int) + e' then q4Search ty mode n 1 20
      else q4Search ty mode n m e'

/-! ### Reference values of the approximating functions -/

/-- The integer square root. -/
def isqrt (n : Nat) : Nat :=
  (List.range (Nat.log2 n / 2 + 1)).foldr (fun k r => if (r + 2 ^ k) * (r + 2 ^ k) ≤ n then r + 2 ^ k else r) 0

/-- √ of an f32, correctly rounded (R216). -/
def fsqrt (mode : Nat) (x : Nat) : Nat × Flags :=
  match f32.val x with
  | .nan s => (f32.nan, if s then fNV else 0#4)
  | .inf n => if n then (f32.nan, fNV) else (f32.infBits, 0#4)
  | .fin n m e =>
    if m = 0 then (f32.sign n, 0#4)
    else if n then (f32.nan, fNV)
    else
      let (m, e) := if e % 2 = 0 then (m, e) else (2 * m, e - 1)
      let k := m * 2 ^ 64
      let r := isqrt k
      f32.round mode false false (2 * r + (if r * r = k then 0 else 1)) (e / 2 - 33)

/-- Bits of the fixed-point numbers of the reference computations. -/
def fxBits : Nat := 320

/-- 1 in fixed point. -/
def fxOne : Nat := 2 ^ fxBits

/-- arctan(1/k) in fixed point by its series. -/
def fxAtanInv (k : Nat) : Int :=
  (List.range 240).foldl (fun (acc : Int) i =>
    let t : Int := (fxOne / (k ^ (2 * i + 1) * (2 * i + 1)) : Nat)
    if i % 2 = 0 then acc + t else acc - t) 0

/-- π in fixed point (Machin's formula). -/
def fxPi : Int := 4 * (4 * fxAtanInv 5 - fxAtanInv 239)

/-- ln 2 in fixed point: Σ 1 / (n 2^n). -/
def fxLn2 : Int := (List.range fxBits).foldl (fun (acc : Int) i => acc + (fxOne / ((i + 1) * 2 ^ (i + 1)) : Nat)) 0

/-- Product of fixed-point numbers. -/
def fxMul (x y : Int) : Int := x * y / (fxOne : Int)

/-- Σ t_i where t_(i+1) = t_i × x / d(i), for `n` terms. -/
def fxSeries (x : Int) (d : Nat → Nat) : Nat → Nat → Int → Int
  | 0, _, _ => 0
  | n + 1, i, t => t + fxSeries x d n (i + 1) (fxMul t x / (d i : Int))

/-- e^x for a fixed-point |x| ≤ 1. -/
def fxExp (x : Int) : Int := fxSeries x (fun i => i + 1) 70 0 fxOne

/-- sin and cos for a fixed-point |x| ≤ 1. -/
def fxSin (x : Int) : Int := fxSeries (-(fxMul x x)) (fun i => (2 * i + 2) * (2 * i + 3)) 40 0 x
/-- The cosine of the same range. -/
def fxCos (x : Int) : Int := fxSeries (-(fxMul x x)) (fun i => (2 * i + 1) * (2 * i + 2)) 40 0 fxOne

/-- ± m × 2^e in fixed point, rounded down. -/
def fxOf (neg : Bool) (m : Nat) (e : Int) : Int :=
  let k := e + fxBits
  let v : Int := if 0 ≤ k then (m * 2 ^ k.toNat : Nat) else (m / 2 ^ (-k).toNat : Nat)
  if neg then -v else v

/-- 2^x of a fixed-point x as a value: fraction in [1, 2) and exponent. -/
def fxExp2 (x : Int) : Nat × Int :=
  let n := x / (fxOne : Int)
  let f := x - n * fxOne
  ((fxExp (fxMul f fxLn2)).toNat, n - fxBits)

/-- log₂ of m × 2^e, in fixed point: integer part and 96 fraction bits by squaring. -/
def fxLog2 (m : Nat) (e : Int) : Int :=
  let l := Nat.log2 m
  let y0 := m * 2 ^ (fxBits - l)
  let r := (List.range 96).foldl (fun (s : Nat × Nat) _ =>
    let y := s.1 * s.1 / fxOne
    if 2 * fxOne ≤ y then (y / 2, 2 * s.2 + 1) else (y, 2 * s.2)) (y0, 0)
  ((l : Int) + e) * fxOne + (r.2 * 2 ^ (fxBits - 96) : Nat)

/-- sin (or cos) of ± m × 2^e radians in fixed point, after reduction by a multiple of π/2. -/
def fxSinCos (cosine neg : Bool) (m : Nat) (e : Int) : Int :=
  let x := fxOf neg m e
  let half := fxPi / 2
  let n := (2 * x + half) / (2 * half)
  let r := x - n * half
  let q := (n + (if cosine then 1 else 0)) % 4
  if q = 0 then fxSin r else if q = 1 then fxCos r else if q = 2 then -(fxSin r) else -(fxCos r)

/-- tanh of ± m × 2^e, |x| < 16, in fixed point; below 2^-60 it lies between x and x(1 - 2^-119) (`fapprox`). -/
def fxTanh (neg : Bool) (m : Nat) (e : Int) : Int :=
  let x := fxOf false m e
  let p := fxExp2 (2 * x * (fxOne : Int) / fxLn2)
  let ex : Int := if 0 ≤ p.2 + fxBits then (p.1 * 2 ^ (p.2 + fxBits).toNat : Nat) else (p.1 : Int)
  let t := (ex - fxOne) * fxOne / (ex + fxOne)
  if neg then -t else t

/-- A value in fixed point, rounded to f32. -/
def fxRound (x : Int) : Nat × Flags := f32.round 0 false (decide (x < 0)) (2 * x.natAbs + 1) (-(fxBits : Int) - 1)

/-- The spacing of f32 values at the magnitude of m × 2^e, as an exponent. -/
def ulpExp (m : Nat) (e : Int) : Int := max ((Nat.log2 m : Int) + e) (-126) - 23

/-- Whether a finite f32 pattern lies within `bound` × 2^`be` of the reference `ref` × 2^`re`, whose own error is below the distance
of every f32 value from the edge of the bound (log 3). -/
def within (x : Nat) (ref : Int) (re : Int) (bound : Nat) (be : Int) : Bool :=
  match f32.val x with
  | .fin n m e =>
    let b := min e (min re be)
    let d := sgnInt n m * 2 ^ (e - b).toNat - ref * 2 ^ (re - b).toNat
    decide (d.natAbs ≤ bound * 2 ^ (be - b).toNat)
  | _ => false

/-- The flags of an inexact result returned for a finite operand (R153). -/
def approxFlags (x : Nat) : Flags :=
  match f32.val x with
  | .fin _ m _ => if m = 0 then fIZ ||| fUF else if m < 2 ^ 23 then fUF else 0#4
  | .inf _ => fOF
  | .nan _ => 0#4

/-- Whether a pattern is a positive result within 1 ulp of 2^x, the fraction and exponent of which are `p` (R216, R217). -/
def exp2Ok (v : Word) (p : Nat × Int) : Bool := !v.getLsbD 31 && within v.toNat p.1 p.2 1 (ulpExp p.1 p.2)

/-- The device's value `v` where it is within the bound, else the reference rounded (log 3). -/
def chooseApprox (v : Word) (ok : Bool) (ref : Nat) : Nat × Flags :=
  let r := if ok then v.toNat else ref
  (r, approxFlags r)

/-- `frcp`, `frsq`, `fexp2`, `flog2`, `fsin`, `fcos` and `ftanh` (R216): the special values, and for every other operand the
device's own value within the bound. -/
def fapprox (fn : ApproxFn) (x : Word) : Nat × Flags :=
  let v := Config.approx fn x
  match f32.val x.toNat with
  | .nan s => (f32.nan, if s then fNV else 0#4)
  | .inf n => match fn with
    | .rcp => (f32.sign n, 0#4)
    | .rsq => if n then (f32.nan, fNV) else (0, 0#4)
    | .exp2 => (if n then 0 else f32.infBits, 0#4)
    | .log2 => if n then (f32.nan, fNV) else (f32.infBits, 0#4)
    | .sin | .cos => (f32.nan, fNV)
    | .tanh => (f32.sign n + 0x3F800000, 0#4)
  | .fin n m e => match fn with
    | .rcp =>
      if m = 0 then (f32.sign n + f32.infBits, 0#4)
      else
        let r := f32.round 0 false n (2 * (2 ^ 200 / m) + (if 2 ^ 200 % m = 0 then 0 else 1)) (-201 - e)
        if m = 2 ^ Nat.log2 m ∨ r.1 % 2 ^ 31 = f32.infBits then r
        else
          let q := 2 ^ 400 / m
          chooseApprox v (within v.toNat (sgnInt n q) (-400 - e) 1 (ulpExp q (-400 - e))) r.1
    | .rsq =>
      if m = 0 then (f32.sign n + f32.infBits, 0#4)
      else if n then (f32.nan, fNV)
      else
        let (m, e) := if e % 2 = 0 then (m, e) else (2 * m, e - 1)
        let q := isqrt (2 ^ 400 / m)
        let exact := decide (q * q * m = 2 ^ 400)
        let r := f32.round 0 false false (2 * q + (if exact then 0 else 1)) (-201 - e / 2)
        chooseApprox v (within v.toNat q (-200 - e / 2) 1 (ulpExp q (-200 - e / 2))) r.1
    | .exp2 =>
      let i := sgnInt n (roundInt 1 n m (max e (-400))).1
      if !n && decide (128 ≤ i) then (f32.infBits, fOF)
      else if (decide (0 ≤ e) || decide (m % 2 ^ (-e).toNat = 0)) && decide (-149 ≤ i) then f32.round 0 false false 1 i
      else
        let p := if i < -200 then (1, -400) else fxExp2 (fxOf n m e)
        chooseApprox v (exp2Ok v p) (f32.round 0 false false p.1 p.2).1
    | .log2 =>
      if m = 0 then (f32.sign true + f32.infBits, 0#4)
      else if n then (f32.nan, fNV)
      else if m = 2 ^ Nat.log2 m then
        let k := (Nat.log2 m : Int) + e
        f32.round 0 false (decide (k < 0)) k.natAbs 0
      else
        let l := fxLog2 m e
        let top := (Nat.log2 m : Int) + e
        let near := decide (top = -1 ∨ top = 0)
        let b : Int := if near then -22 else ulpExp l.natAbs (-(fxBits : Int))
        let err : Int := l + 2 ^ (fxBits - 97)
        chooseApprox v (within v.toNat err (-(fxBits : Int)) 1 b) (fxRound l).1
    | .sin | .cos =>
      if m = 0 then (if fn = .sin then f32.sign n else 0x3F800000, 0#4)
      else
        let s := fxSinCos (decide (fn = .cos)) n m e
        chooseApprox v (within v.toNat s (-(fxBits : Int)) 1 (-21)) (fxRound s).1
    | .tanh =>
      if m = 0 then (f32.sign n, 0#4)
      else if f32.key 0x4111999A ≤ f32.key (x.toNat % 2 ^ 31) then (f32.sign n + 0x3F800000, 0#4)
      else
        let p : Int × Int := if (Nat.log2 m : Int) + e < -60 then (sgnInt n (m * 2 ^ 300 - 1), e - 300)
          else (fxTanh n m e, -(fxBits : Int))
        chooseApprox v (within v.toNat p.1 p.2 2 (ulpExp p.1.natAbs p.2))
          (f32.round 0 false (decide (p.1 < 0)) (2 * p.1.natAbs + 1) (p.2 - 1)).1

/-- `fexs` (R217): 2^(a × b − c), the argument exact. A quiet NaN operand gives the canonical NaN without NV, whatever the others are. -/
def fexs (a b c : Word) : Nat × Flags :=
  let vs := [f32.val a.toNat, f32.val b.toNat, f32.val c.toNat]
  if vs.any FVal.isNan then (f32.nan, if vs.any FVal.isSnan then fNV else 0#4)
  else match ((f32.val a.toNat).mul (f32.val b.toNat)).add 0 (f32.val c.toNat).negate with
    | .nan _ => (f32.nan, fNV)
    | .inf n => (if n then 0 else f32.infBits, 0#4)
    | .fin n m e =>
      let top := (Nat.log2 m : Int) + e
      if !n && decide (m ≠ 0 ∧ 7 ≤ top) then (f32.infBits, fOF)
      else
        let v := Config.approxExs a b c
        let low := n && decide (m ≠ 0 ∧ 9 ≤ top)
        let p := if low then (1, -400) else fxExp2 (fxOf n m e)
        let r := chooseApprox v (exp2Ok v p) (f32.round 0 false false p.1 p.2).1
        let i := fxOf n m e / fxOne
        let integral := !low && decide (-149 ≤ i) && (decide (0 ≤ e) || decide (m % 2 ^ (-e).toNat = 0))
        if integral && decide (r.1 = (f32.round 0 false false 1 i).1) then (r.1, 0#4) else r

/-! ### Exact sums of a chunk -/

/-- The exact sum of products for one chunk (R149): NaN, infinities, then the real sum; an exact zero is +0 unless every
product is −0. -/
def chunkSum (ps : List FVal) : FVal :=
  let nan := ps.any FVal.isNan
  let pinf := ps.any (fun v => v == .inf false)
  let ninf := ps.any (fun v => v == .inf true)
  if nan then .nan (ps.any FVal.isSnan)
  else if pinf && ninf then .nan true
  else if pinf then .inf false
  else if ninf then .inf true
  else
    let t : FVal := ps.foldl (fun (acc : FVal) v => acc.add 0 v) (.fin false 0 0)
    match t with
    | .fin _ 0 _ => .fin (ps.all (fun v => match v with
        | .fin n m _ => n && decide (m = 0)
        | _ => false)) 0 0
    | v => v

end Sys2Proof.Machine
end

