-- ==== Sys2Proof/Machine/Access.lean ====
section
/-!
DEFINITION. Memory as programs see it (spec 03, 04, 24): segments, translation, the L1, guest copies, homes and
registrations, local spaces, private memory, and the entries and triggers that hardware writes.
-/

namespace Sys2Proof.Machine

/-! ### Segments (R74, R75) -/

/-- VALID. -/
def segValid (g : BitVec 128) : Bool := g.getLsbD 127
/-- LIMIT. -/
def segLimit (g : BitVec 128) : Nat := bitsN g 119 60
/-- BASE. -/
def segBase (g : BitVec 128) : Nat := bitsN g 59 0

/-- What an access does, for the permissions it needs (R74, R76, R103): a load, a store, an atomic, an acquire, release or
bind, an observing acquire, a fetch. -/
inductive AccKind where
  | load | store | atomic | sync | observe | fetch
  deriving DecidableEq, Repr

/-- Whether an access writes. -/
def AccKind.writes : AccKind → Bool
  | .store | .atomic | .sync => true
  | _ => false

/-- Whether an access is a synchronisation or atomic access (R105, R455). -/
def AccKind.isSync : AccKind → Bool
  | .atomic | .sync | .observe => true
  | _ => false

/-- Whether a segment gives the permission an access needs (R75, R76). -/
def segPermits (g : BitVec 128) : AccKind → Bool
  | .load | .observe => g.getLsbD 126
  | .store | .atomic | .sync => g.getLsbD 125
  | .fetch => g.getLsbD 124

/-- A fault raised by a lane or a word: code, DETAIL and `%xinfo`. -/
structure Raise where
  code : Nat
  detail : Nat
  xinfo : Nat
  deriving DecidableEq, Repr

/-- The checks of R74 up to alignment: the virtual address, or the first failing check, which reports the address it would have
(R241, R444; log 41). -/
def segCheck (g : BitVec 128) (off : Int) (size align : Nat) (k : AccKind) : Except Raise Nat :=
  if segValid g = false ∨ off < 0 ∨ (segLimit g : Int) < off + size then
    .error ⟨0x0A, 0, wrapInt 64 ((segBase g : Int) + off)⟩
  else
    let va := segBase g + off.toNat
    if segPermits g k = false then .error ⟨0x0E, 5, va⟩
    else if va % align ≠ 0 then .error ⟨0x0C, 0, va⟩
    else .ok va

/-! ### Translation (R101 to R105) -/

/-- The parts of a table entry (R102). -/
def pteV (e : Dword) : Bool := e.getLsbD 0
/-- LEAF. -/
def pteLeaf (e : Dword) : Bool := e.getLsbD 1
/-- GROW. -/
def pteGrow (e : Dword) : Bool := e.getLsbD 11
/-- PA as an address. -/
def ptePa (e : Dword) : Nat := bitsN e 51 12 * 4096
/-- MTYPE. -/
def pteMtype (e : Dword) : Nat := bitsN e 57 56
/-- CONTIG. -/
def pteContig (e : Dword) : Nat := bitsN e 9 8

/-- The outcome of a walk: a mapped page, an unmapped GROW page with its first leaf's address, or a fault with its DETAIL. -/
inductive WalkRes where
  | page (t : TlbEntry)
  | grow (leafAddr : Nat)
  | bad (code detail : Nat)
  deriving DecidableEq, Repr

/-- An entry read by the walker: a physical access (R101, R408). -/
def State.readPte (s : State) (a : Nat) : Option Dword :=
  if (s.partOfSector (s.canon a / Config.sectorBytes)).isNone then none else some (BitVec.ofNat 64 (s.homeNat a 8))

/-- The leaves of a group agree but for A and D (R103). -/
def State.groupOk (s : State) (first n : Nat) (e : Dword) : Bool :=
  let m := fun (x : Dword) => setBits x 7 6 0
  (List.range n).all (fun i => match s.readPte (first + 8 * i) with
    | some x => decide (m x = m e)
    | none => false)

/-- The page a leaf at a level gives (R101, R103). An unmapped GROW leaf whose CONTIG is not 01 is an unmapped GROW page all the
same: R105 has software write CONTIG = 01 and states no outcome for another value (DESIGN CHOICE, log 68). -/
def State.leafPage (s : State) (vf va level a : Nat) (e : Dword) : WalkRes :=
  let unit := 2 ^ (12 * (level + 1))
  let n := if pteContig e = 0 then 1 else if pteContig e = 1 then 16 else 256
  if pteContig e = 3 then .bad 0x0D 1
  else if level = 2 ∧ pteContig e ≠ 0 then .bad 0x0D 3
  else
    let i := va / unit % 4096
    let first := a - 8 * (i % n)
    let bytes := n * unit
    if n ≠ 1 ∧ (s.groupOk first n e = false ∨ (pteV e ∧ ptePa e % bytes ≠ 0)) then .bad 0x0D 3
    else if !pteV e then .grow first
    else .page ⟨vf, va / bytes * bytes, bytes, ptePa e, e⟩

/-- A walk from a table at `table`, at the levels of the list (R101 to R103). -/
def State.walkFrom (s : State) (vf va : Nat) : Nat → List Nat → WalkRes
  | _, [] => .bad 0x0D 2
  | table, level :: rest =>
    let a := table + 8 * (va / 2 ^ (12 * (level + 1)) % 4096)
    match s.readPte a with
    | none => .bad 0x0E 8
    | some e =>
      if sget false s.poison (s.canon a / 64) then .bad 0x10 1
      else if !pteV e && !pteGrow e then .bad 0x0D 4
      else if bitsN e 62 58 ≠ 0 ∨ bitsN e 55 52 ≠ 0 ∨ pteMtype e = 3 then .bad 0x0D 1
      else if !pteV e then (if level = 0 ∧ pteLeaf e = true then s.leafPage vf va level a e else .bad 0x0D 2)
      else if pteLeaf e then (if level = 3 then .bad 0x0D 2 else s.leafPage vf va level a e)
      else if level = 0 then .bad 0x0D 2
      else s.walkFrom vf va (ptePa e) rest

/-- The root of a function (R101): TRANSROOT of the hypervisor halves of its queues, one for the function. -/
def State.rootOf (s : State) (vf : Nat) : Nat :=
  match (s.func vf).queues.find? (fun q => q.2.hyp.getLsbD 486 || decide (q.2.hyp ≠ 0#1024)) with
  | some q => bitsN q.2.hyp 831 768
  | none => 0

/-- A walk of a function's table. -/
def State.walk (s : State) (vf va : Nat) : WalkRes := s.walkFrom vf va (s.rootOf vf) [3, 2, 1, 0]

/-- The address of the level-0 entry that a walk from a table comes to, if it comes to one. -/
def State.level0At (s : State) (va : Nat) : Nat → List Nat → Option Nat
  | _, [] => none
  | table, level :: rest =>
    let a := table + 8 * (va / 2 ^ (12 * (level + 1)) % 4096)
    if level = 0 then some a
    else match s.readPte a with
      | some e => if pteV e && !pteLeaf e then s.level0At va (ptePa e) rest else none
      | none => none

/-- The level-0 entry of a virtual address of a function (R104). -/
def State.level0 (s : State) (vf va : Nat) : Option Nat := s.level0At va (s.rootOf vf) [3, 2, 1, 0]

/-- Whether a walk serves a miss: of the same page, or with the same level-0 entry (R104). -/
def Walk.serves (k : Walk) (vf page : Nat) (entry : Option Nat) : Bool :=
  decide (k.vf = vf) && (decide (k.page = page) || (entry.isSome && decide (k.entry = entry)))

/-- A miss of a core joins a walk in flight in its sector, or takes one of the walker's sixteen slots; with none free it waits
(R104). -/
def State.startWalk (s : State) (core vf va : Nat) : State :=
  let sec := sectorOf core
  let ks := sget [] s.walks sec
  let entry := s.level0 vf va
  match ks.find? (fun k => k.serves vf (va / 4096) entry) with
  | some k => if k.cores.contains core then s
    else { s with walks := sset [] s.walks sec (ks.map (fun x => if x = k then { k with cores := k.cores ++ [core] } else x)) }
  | none => if 16 ≤ ks.length then s else { s with walks := sset [] s.walks sec (ks ++ [⟨vf, va / 4096, entry, [core]⟩]) }

/-- A TLB entry that maps an address (R104). -/
def Core.tlbFind (c : Core) (vf va : Nat) : Option TlbEntry :=
  c.tlb.find? (fun t => decide (t.vf = vf) && decide (t.va ≤ va) && decide (va < t.va + t.bytes))

/-- Fill a TLB of 2,048 entries; the oldest entry leaves (R104). -/
def Core.tlbFill (c : Core) (t : TlbEntry) : Core := { c with tlb := (t :: c.tlb).take 2048 }

/-- Whether a function has accepted a feature bit; bit 0 always (R414, R253). -/
def State.hasFeat (s : State) (vf n : Nat) : Bool := decide (n = 0) || (s.func vf).feat.getLsbD n

/-- The checks on a leaf for an access (R103, R109, R399, R408, R422, R455), in the order of R74. `device` marks the device's
own access to a wave's record, which passes the PRIV check (R97). -/
def State.leafCheck (s : State) (vf part : Nat) (device : Bool) (leaf : Dword) (pa : Nat) (k : AccKind) : Option (Nat × Nat) :=
  let pkg := paPkg pa
  if 0x90 ≤ pkg ∧ pkg ≤ 0xFE then some (0x0D, 7)
  else if pkg = 0xFF ∧ pteMtype leaf = 0 then some (0x0D, 6)
  else if k = .fetch ∧ pteGrow leaf = true ∧ pteV leaf = false then some (0x0D, 5)
  else if (k = .load ∨ k = .observe) ∧ leaf.getLsbD 2 = false then some (0x0E, 1)
  else if k.writes ∧ leaf.getLsbD 10 = true then some (0x0E, 6)
  else if k.writes ∧ leaf.getLsbD 3 = false then some (0x0E, 2)
  else if k = .fetch ∧ leaf.getLsbD 4 = false then some (0x0E, 3)
  else if leaf.getLsbD 5 = true ∧ vf ≠ 96 ∧ device = false then some (0x0E, 4)
  else if k.isSync ∧ (pteMtype leaf = 1 ∨ pteMtype leaf = 2) then some (0x0E, 7)
  else if s.isLocal pa = true ∧ s.partOfSector (s.canon pa / Config.sectorBytes) ≠ some part then some (0x0E, 8)
  else if s.isLocal pa = false ∧ pkg ≠ 0xFF ∧ s.hasFeat vf 9 = false then some (0x04, 9)
  else if leaf.getLsbD 63 = true then some (0x10, 1)
  else none

/-- The outcome of a translation: an address with its leaf, an unmapped GROW page with its first leaf, a fault, or a TLB miss
whose walk has not been made. -/
inductive TransRes where
  | ok (pa : Nat) (leaf : Dword)
  | grow (leafAddr : Nat)
  | bad (code detail : Nat)
  | miss
  deriving DecidableEq, Repr

/-- Translate one address for a function on a core; `walk` says that a miss walks at once. The TLB is filled. -/
def State.translate (s : State) (core vf part : Nat) (device walk : Bool) (va : Nat) (k : AccKind) : TransRes × State :=
  let use := fun (s : State) (t : TlbEntry) =>
    let pa := t.pa + (va - t.va)
    match s.leafCheck vf part device t.leaf pa k with
    | some (c, d) => (TransRes.bad c d, s)
    | none => (TransRes.ok pa t.leaf, s)
  match (s.core core).tlbFind vf va with
  | some t => use s t
  | none =>
    let s := s.updCore core (fun c => { c with perf := sset 0 c.perf 5 (sget 0 c.perf 5 + 1) })
    if walk then
      match s.walk vf va with
      | .page t => use (s.updCore core (fun c => c.tlbFill t)) t
      | .grow a =>
        if s.hasFeat vf 7 = false then (.bad 0x04 7, s)
        else if k = .fetch then (.bad 0x0D 5, s)
        else if k = .sync ∨ k = .observe then (.bad 0x0D 4, s)
        else
          let e := BitVec.ofNat 64 (s.homeNat a 8)
          if k.writes ∧ e.getLsbD 3 = false then (.bad 0x0E 2, s)
          else if k.writes = false ∧ e.getLsbD 2 = false then (.bad 0x0E 1, s)
          else if e.getLsbD 5 = true ∧ vf ≠ 96 ∧ device = false then (.bad 0x0E 4, s)
          else (.grow a, s)
      | .bad c d => (.bad c d, s)
    else (.miss, s)

/-! ### The shared cache (R13, R27 to R29, R99, R100, R411) -/

/-- The set of the line with an index within its slice (R99). -/
def l2SetOf (q : Nat) : Nat := Nat.xor (q % 256) (q / 256 % 256)

/-- The slice (× 256) and set of a local line at its home (R99). -/
def Part.homeKey (p : Part) (pa : Nat) : Nat := p.homeSlice pa * 256 + l2SetOf (p.rel pa / 512 / (32 * p.sectorList.length))

/-- The slice (× 256) and set of a guest copy in a sector: the home hash over the sector's 32 slices (R27, R100). -/
def guestKey (sector pa : Nat) : Nat :=
  let x := pa / 512
  let q := x / 32
  (32 * sector + (x % 32 + Nat.xor (q % 2 ^ 12) (q / 2 ^ 12 % 2 ^ 12)) % 32) * 256 + l2SetOf q

/-- The place of a function among a partition's tenants; 16 for a party that is none (R411). -/
def Part.tenantPlace (p : Part) (vf : Nat) : Nat :=
  let i := (p.tenants.takeWhile (fun t => decide (t ≠ vf))).length
  if i < p.tenants.length then min i 16 else 16

/-- The way quota of a tenant in a slice (R412); every way before the first interval has ended (log 7). -/
def Part.wayQuota (p : Part) (slice tenant : Nat) : Nat := (sget [] p.quotas slice).getD tenant 16

/-- The way that a fill of a tenant replaces, the ways in order of use, the latest first: the least recently used of a tenant that has
its quota, else in a full set the least recently used of those that exceed theirs, else of all (R100, R412). -/
def l2Victim (quota : Nat → Nat) (tenant : Nat) (ways : List L2Way) : Option L2Way :=
  let count := fun (t : Nat) => (ways.filter (fun w => decide (w.tenant = t))).length
  if quota tenant ≤ count tenant then (ways.filter (fun w => decide (w.tenant = tenant))).getLast?
  else if ways.length < 16 then none
  else match (ways.filter (fun w => decide (quota w.tenant < count w.tenant))).getLast? with
    | some w => some w
    | none => ways.getLast?

/-- A line is used in an L2 set: it moves to the front, or is filled in place of a victim, whose eviction is silent to programs: a
guest copy's writes nothing back, a dirty home line's goes to the slice's own stack (R27, R100). With `last` a filled line becomes the
least recently used one (R164). -/
def State.l2Use (s : State) (key line : Nat) (guest : Bool) (tenant : Nat) (dirty last : Bool) : State :=
  let ways := sget [] s.l2 key
  let ways' := match ways.find? (fun w => decide (w.line = line) && decide (w.guest = guest)) with
    | some w => if last then ways else { w with dirty := w.dirty || dirty } :: ways.erase w
    | none =>
      let quota := match s.partOfSector (key / 256 / 32) with
        | some n => (s.part n).wayQuota (key / 256)
        | none => fun _ => 16
      let new : L2Way := ⟨line, guest, tenant, dirty, []⟩
      let left := match l2Victim quota tenant ways with
        | some v => ways.erase v
        | none => ways
      if last then left ++ [new] else new :: left
  { s with l2 := sset [] s.l2 key ways' }

/-- The guest copy of the 64 B sector of an address in a sector's slices. -/
def State.guestSector (s : State) (sector pa : Nat) : Option GuestSector :=
  match (sget [] s.l2 (guestKey sector pa)).find? (fun w => w.guest && decide (w.line = pa / 512)) with
  | some w => sget none w.sectors (pa / 64 % 8)
  | none => none

/-- The guest copy of the 64 B sector of an address in a sector's slices, replaced where the line has a way. -/
def State.putGuest (s : State) (sector pa : Nat) (g : Option GuestSector) : State :=
  { s with l2 := sset [] s.l2 (guestKey sector pa) ((sget [] s.l2 (guestKey sector pa)).map (fun w =>
      if w.guest && decide (w.line = pa / 512) then { w with sectors := sset none w.sectors (pa / 64 % 8) g } else w)) }

/-- The guest copy of the 64 B sector of an address in a sector's slices, changed where there is one. -/
def State.updGuest (s : State) (sector pa : Nat) (f : GuestSector → GuestSector) : State :=
  match s.guestSector sector pa with
  | some g => s.putGuest sector pa (some (f g))
  | none => s

/-- Drop the guest copies of 64 B sectors that a test on the holding sector and the address selects. -/
def State.dropGuests (s : State) (p : Nat → Nat → Bool) : State :=
  { s with l2 := s.l2.filterMap (fun e =>
      let ws := e.2.filterMap (fun w =>
        if w.guest then
          let left := w.sectors.filter (fun x => !p (e.1 / 256 / 32) (512 * w.line + 64 * x.1))
          if left = [] then none else some { w with sectors := left }
        else some w)
      if ws = [] then none else some (e.1, ws)) }

/-- Whether a line may have a guest copy in a core's sector (R27): local, homed in another sector of the core's partition. -/
def State.guestable (s : State) (core part pa : Nat) : Bool :=
  s.isLocal pa && decide (s.partOfSector (s.canon pa / Config.sectorBytes) = some part) &&
    decide (s.homeSector (s.canon pa) ≠ some (sectorOf core))

/-- The utility monitor of a slice counts an access of a tenant in a sampled set: a hit at stack position `d` is a hit with more
than `d` ways (R411). Log 28. -/
def State.monitor (s : State) (core part vf pa : Nat) : State :=
  let a := s.canon pa
  if !s.isLocal pa then s
  else
    let key := if s.guestable core part a then guestKey (sectorOf core) a else (s.part part).homeKey a
    let tenant := (s.part part).tenantPlace vf
    if key % 256 % 32 ≠ 0 ∨ 16 ≤ tenant then s
    else s.updPart part (fun p =>
      let key := (key / 256 * 16 + tenant) * 8 + key % 256 / 32
      let stack := sget [] p.shadowTags key
      let d := (stack.takeWhile (fun x => decide (x ≠ a / 512))).length
      let h := sget (List.replicate 16 0) p.monitors (key / 8)
      { p with
        shadowTags := sset [] p.shadowTags key ((a / 512 :: stack.erase (a / 512)).take 16)
        monitors := if stack.length ≤ d then p.monitors
          else sset (List.replicate 16 0) p.monitors (key / 8) ((List.range 16).map (fun w => h.getD w 0 + (if d ≤ w then 1 else 0))) })

/-- An access of a function reaches the home slice of an address (R15, R99). -/
def State.homeUse (s : State) (vf pa : Nat) (dirty last : Bool) : State :=
  if !s.isLocal pa then s
  else match s.partOfSector (s.canon pa / Config.sectorBytes) with
    | none => s
    | some n => s.l2Use ((s.part n).homeKey (s.canon pa)) (s.canon pa / 512) false ((s.part n).tenantPlace vf) dirty last

/-! ### Messages between sectors and packages (R18 to R24, R423) -/

/-- The ring that a message takes from a stop to a stop: the shorter way, and at a distance of two the one that address bit 9 selects
(R19). -/
def ringFor (src dst pa : Nat) : Nat :=
  let d := (dst + 4 - src) % 4
  if d = 1 then 0 else if d = 3 then 1 else pa / 512 % 2

/-- A message from a sector to a stop of a die waits at its crossbar for the ring (R18, R22). Which accesses make messages, and that
an access does not wait for its messages, log 82 says. -/
def State.ringSend (s : State) (sector part die stop pa : Nat) (payload : List Byte) : State :=
  let leave := if die = sector / 3 then stop else 3
  { s with fabric := s.fabric ++ [⟨.source (sector / 3) (ringFor (sector % 3) leave pa) (sector % 3), s.clk, ⟨part, die, stop, pa, payload⟩⟩] }

/-- A flit leaves on the lowest port that carries traffic and stays unacknowledged (R423). Which port a route takes is not given:
log 83. -/
def State.sendFlit (s : State) : State := match (List.range 18).find? (fun n => s.portLive n) with
  | none => s
  | some n =>
    let p := sget Port.reset s.ports n
    { s with ports := sset Port.reset s.ports n { p with
        sent := p.sent + 1
        unacked := p.unacked ++ [(p.sent, s.clk)] } }

/-- An access of a sector to a line of another sector, or of another package or the host, sends its message (R24, R399, R423). -/
def State.sendLine (s : State) (sector pa : Nat) (payload : List Byte) : State :=
  match s.partOfSector sector with
  | none => s
  | some part =>
    if s.isLocal pa then match s.homeSector (s.canon pa) with
      | some h => if h = sector then s else s.ringSend sector part (h / 3) (h % 3) pa payload
      | none => s
    else
      let s := s.ringSend sector part (sector / 3) 3 pa payload
      if s.isRemote pa then s.sendFlit else s

/-- The answer of a line's home sector to a sector sends its message. -/
def State.replyLine (s : State) (sector pa : Nat) (payload : List Byte) : State :=
  match s.partOfSector sector, s.homeSector (s.canon pa) with
  | some part, some h => if s.isLocal pa = false ∨ h = sector then s else s.ringSend h part (sector / 3) (sector % 3) pa payload
  | _, _ => s

/-! ### Reading through the L1, pending reads and guest copies (R27, R28, R98, R120, R121, R124) -/

/-- The byte a read finds at the home, or the shadow of a released write where the read carries the slot's bit clear (R328). -/
def State.belowByte (s : State) (part : Nat) (mask : BitVec 8) (pa : Nat) : Byte :=
  match s.shadows.find? (fun h => decide (h.pa = s.canon pa) && decide (h.part = part) && !mask.getLsbD h.slot) with
  | some h => h.old
  | none => s.homeByte pa

/-- The pending read of a sector that a read of a core merges with: one of the same place, acquire stamp and applied mask
(R124, R134). -/
def Core.pending (c : Core) (nl1 : Bool) (mask : BitVec 8) (sector : Nat) : Option Miss :=
  c.misses.find? (fun m => decide (m.sector = sector) && decide (m.stamp = c.stamp) && decide (m.mask = mask) && decide (m.nl1 = nl1))

/-- One byte as the slices of a core's sector answer it: its guest copy unless that is pending, else the home. -/
def State.sliceByte (s : State) (core part : Nat) (mask : BitVec 8) (a : Nat) : Byte :=
  match s.guestSector (sectorOf core) a with
  | some g => if g.pending ≠ [] then s.belowByte part mask a else g.data.extractLsb' (8 * (a % 64)) 8
  | none => s.belowByte part mask a

/-- One byte as a core's vector path reads it; `nl1` reads below the L1 but for the core's own dirty bytes (R164). A read that
misses merges with a pending one and returns what that returns (R124, R496). -/
def State.readByte (s : State) (core part : Nat) (nl1 : Bool) (mask : BitVec 8) (pa : Nat) : Byte :=
  let a := s.canon pa
  let w := sget L1Word.absent (s.core core).l1 (a / 4)
  let i := a % 4
  if w.dirty.getLsbD i || (!nl1 && w.present.getLsbD i) then w.data.extractLsb' (8 * i) 8
  else match (s.core core).pending nl1 mask (a / 64) with
    | some m => m.data.extractLsb' (8 * (a % 64)) 8
    | none => s.sliceByte core part mask a

/-- Bytes as a core's vector path reads them. -/
def State.readBytes (s : State) (core part : Nat) (nl1 : Bool) (mask : BitVec 8) (pa n : Nat) : List Byte :=
  (List.range n).map (fun i => s.readByte core part nl1 mask (pa + i))

/-- Whether a byte read misses the L1. -/
def State.l1Miss (s : State) (core pa : Nat) : Bool :=
  let a := s.canon pa
  let w := sget L1Word.absent (s.core core).l1 (a / 4)
  !(w.present.getLsbD (a % 4) || w.dirty.getLsbD (a % 4))

/-- Whether a sector's data is poisoned (R483). -/
def State.poisoned (s : State) (pa : Nat) : Bool := sget false s.poison (s.canon pa / 64)

/-- A word's absent bytes filled; `priv` names the record of private and context-area data. -/
def L1Word.fill (w : L1Word) (bytes : List Byte) (now priv : Nat) : L1Word :=
  let d := (List.range 4).foldl (fun (d : Word) i =>
    if w.present.getLsbD i || w.dirty.getLsbD i then d else setBits d (8 * i + 7) (8 * i) (bytes.getD i 0#8).toNat) w.data
  { w with data := d, present := 0xF#4, filled := if w.present = 0xF#4 then w.filled else now, priv := if w.dirty = 0#4 then priv else w.priv }

/-- Whether a released write's shadow stands in a sector (R328). -/
def State.shadowed (s : State) (sector : Nat) : Bool := s.shadows.any (fun h => decide (h.pa / 64 = sector))

/-- A read of a sector that no pending read serves goes to the slices: the home line or the guest copy is used, and a sector that
may have a guest copy is placed there, unless it is poisoned or has a live shadow. That each such read places one is the
model's choice: R27 says that a slice may hold one (DESIGN CHOICE, log 69). -/
def State.request (s : State) (core part vf : Nat) (nl1 strm last : Bool) (mask : BitVec 8) (sector : Nat) : State :=
  if ((s.core core).pending nl1 mask sector).isSome then s
  else
    let a := 64 * sector
    let bad := s.poisoned a
    let data := BitVec.ofNat 512 (natOfBytes ((List.range 64).map (fun i => s.sliceByte core part mask (a + i))))
    let guest := s.guestSector (sectorOf core) a
    let s := s.monitor core part vf a
    let s := if s.guestable core part a && !bad && !s.shadowed sector then
        let t := s.l2Use (guestKey (sectorOf core) a) (a / 512) true ((s.part part).tenantPlace vf) false last
        match guest with
        | some g => if g.pending = [] then t else t.homeUse vf a false last
        | none => (t.putGuest (sectorOf core) a (some ⟨data, []⟩)).homeUse vf a false last
      else s.homeUse vf a false last
    let s := if (match guest with
        | some g => decide (g.pending = [])
        | none => false) then s else (s.sendLine (sectorOf core) a []).replyLine (sectorOf core) a (bytesOfNat data.toNat 64)
    s.updCore core (fun c => { c with misses := c.misses ++ [⟨sector, c.stamp, mask, nl1, strm, data, bad, s.clk⟩] })

/-- Drop the clean bytes of one word of an L1; dirty bytes stay. -/
def Core.dropClean (c : Core) (word : Nat) : Core :=
  let w := sget L1Word.absent c.l1 word
  let w' := if w.dirty = 0#4 ∧ w.unacked = false then L1Word.absent
    else { w with present := w.dirty, owned := false }
  { c with l1 := sset L1Word.absent c.l1 word w' }

/-- Drop every clean word of an L1 that a test selects. -/
def Core.dropWords (c : Core) (p : Nat → L1Word → Bool) : Core :=
  ((c.l1.filter (fun e => p e.1 e.2)).map (·.1)).foldl (fun c k => c.dropClean k) c

/-! ### Registrations (R120, R127, R321, R322) -/

/-- A watch entry covers one of the bytes. -/
def Watch.hits (w : Watch) (bytes : List (Nat × Byte)) : Bool :=
  bytes.any (fun b => decide (w.start ≤ b.1) && decide (b.1 < w.start + w.len))

/-- The words of a list of bytes. -/
def wordsOf (bytes : List (Nat × Byte)) : List Nat := dedup (bytes.map (fun b => b.1 / 4))

/-- Bytes put into a 64 B sector's data. -/
def patchSector (data : BitVec 512) (sector : Nat) (bytes : List (Nat × Byte)) : BitVec 512 :=
  bytes.foldl (fun d b => if b.1 / 64 = sector then setBits d (8 * (b.1 % 64) + 7) (8 * (b.1 % 64)) b.2.toNat else d) data

/-- Registered bytes reach the pending reads of a core, so that no read of it returns a value older than a write that its own L1
has given up. -/
def Core.patchMisses (c : Core) (bytes : List (Nat × Byte)) : Core :=
  { c with misses := c.misses.map (fun m => { m with data := patchSector m.data m.sector bytes }) }

/-- Take a word from its owner and record the new one (R120). -/
def State.takeWord (s : State) (party : Party) (bytes : List (Nat × Byte)) (word : Nat) : State :=
  let s := match sget none s.owners word with
    | some c => if party = Party.core c then s else s.updCore c (fun k => (k.dropClean word).patchMisses bytes)
    | none => s
  { s with owners := sset none s.owners word (match party with
      | .core n => some n
      | .engine => none) }

/-- Bytes register at their home: the write takes its place in coherence order (R120). A guest copy of the writer's own sector
that is not pending takes them at once; a pending one takes them at the acknowledgement (R28). -/
def State.commit (s : State) (party : Party) (bytes : List (Nat × Byte)) : State :=
  let s := bytes.foldl (fun (s : State) b => s.setHome b.1 b.2) s
  let secs := dedup (bytes.map (fun b => b.1 / 64))
  let s := { s with poison := secs.foldl (fun p x =>
    if (List.range 64).all (fun i => bytes.any (fun b => b.1 == 64 * x + i)) then sset false p x false else p) s.poison }
  let s := secs.foldl (fun (s : State) x => s.homeUse 97 (64 * x) true false) s
  let s := match party with
    | .engine => if bytes.any (fun b => s.isRemote b.1) then s.sendFlit else s
    | .core n => secs.foldl (fun (s : State) x =>
        (s.sendLine (sectorOf n) (64 * x) ((bytes.filter (fun b => decide (b.1 / 64 = x))).map (fun b => b.2))).updGuest (sectorOf n) (64 * x)
          (fun g => if g.pending = [] then { g with data := patchSector g.data x bytes } else g)) (s.updCore n (fun c => c.patchMisses bytes))
  (wordsOf bytes).foldl (fun s w => s.takeWord party bytes w) s

/-- The partition of a duet whose registration this is, where it belongs to one (R421). -/
def State.duetOf (s : State) (party : Party) (ctx : Nat) : Option Nat :=
  let part := match party with
    | .core n => s.partOfSector (sectorOf n)
    | .engine => if ctx = 0 then none else (s.parts.find? (fun p => p.2.tenants.contains (ctxVf ctx))).map (fun p => p.1)
  match part with
  | some n => if (s.part n).duet.isSome then some n else none
  | none => none

/-- A registration of a context takes place: bytes that leave a duet's partition are held at its edge, the rest registers
(R120, R421). -/
def State.commitFor (s : State) (party : Party) (ctx : Nat) (bytes : List (Nat × Byte)) : State :=
  let s := (dedup (bytes.map (fun b => b.1 / 64))).foldl (fun (s : State) x => s.homeUse (if ctx = 0 then 97 else ctxVf ctx) (64 * x) true false) s
  match s.duetOf party ctx with
  | none => s.commit party bytes
  | some n =>
    let inside := fun (b : Nat × Byte) => s.isLocal b.1 && decide (s.partOfSector (s.canon b.1 / Config.sectorBytes) = some n)
    let out := bytes.filter (fun b => !inside b)
    let s := s.updPart n (fun p => { p with duet := p.duet.map (fun (d : Duet) => { d with edge := d.edge ++ out }) })
    s.commit party (bytes.filter inside)

/-- Whether a duet's edge holds a byte of a word (R421). -/
def State.edgeHolds (s : State) (word : Nat) : Bool :=
  s.parts.any (fun p => match p.2.duet with
    | some d => (d.edge ++ d.closed.flatMap (fun w => w.2)).any (fun b => decide (b.1 / 4 = word))
    | none => false)

/-- The objects whose watch entries cover one of the bytes. -/
def State.watchHits (s : State) (bytes : List (Nat × Byte)) : List (Nat × Nat) :=
  (s.watches.filter (fun w => w.hits bytes)).map (fun w => (w.part, w.object))

/-- Whether a held write covers one of the words of some bytes (R127). -/
def State.wordsHeld (s : State) (bytes : List (Nat × Byte)) : Bool :=
  s.heldWrites.any (fun h => (wordsOf h.bytes).any (fun w => (wordsOf bytes).contains w))

/-- Whether a registration waits: a held write covers one of its words, or a watch entry one of its bytes (R127). -/
def State.mustHold (s : State) (bytes : List (Nat × Byte)) : Bool := s.wordsHeld bytes || (s.watchHits bytes ≠ [])

/-- The package slice that is the home of a held write. -/
def State.heldSlice (s : State) (h : HeldWrite) : Nat := match h.bytes with
  | [] => 0
  | b :: _ => match s.partOfSector (s.canon b.1 / Config.sectorBytes) with
    | some n => (s.part n).homeSlice (s.canon b.1)
    | none => 0

/-- A held write takes its place in the order of reports: those of one cycle by ascending slice, those of one slice as they came (R322,
R343). -/
def State.addHeld (s : State) (h : HeldWrite) : State :=
  let first := fun (e : HeldWrite) => decide (e.since < h.since) || decide (s.heldSlice e ≤ s.heldSlice h)
  { s with
    heldNum := s.heldNum + 1
    heldWrites := s.heldWrites.takeWhile first ++ h :: s.heldWrites.dropWhile first }

/-- A registration reaches its home: it is held, or registers (R120, R127). -/
def State.register (s : State) (party : Party) (ctx : Nat) (bytes : List (Nat × Byte)) : State :=
  if bytes = [] then s
  else if s.mustHold bytes then
    let hits := s.watchHits bytes
    s.addHeld ⟨s.heldNum, s.clk, bytes, party, ctx, optD ((hits.head?).map (·.1)) 0, dedup (hits.map (·.2)), none, false, false⟩
  else s.commitFor party ctx bytes

/-- A registration of the host, firmware or an engine at canonical addresses. -/
def State.engineWrite (s : State) (ctx pa : Nat) (bs : List Byte) : State := s.register .engine ctx (byteList (s.canon pa) bs)

/-- Whether bytes from an address on wait in a held write (R127). -/
def State.heldAt (s : State) (pa n : Nat) : Bool := s.wordsHeld (byteList (s.canon pa) (List.replicate n 0#8))

/-- A held write registers; what its writer's L1 has read of its words meanwhile is older and is dropped (R127). -/
def State.commitHeld (s : State) (h : HeldWrite) : State :=
  let s := match h.party with
    | .core n => s.updCore n (fun c => (wordsOf h.bytes).foldl (fun c w => c.dropClean w) c)
    | .engine => s
  s.commitFor h.party h.ctx h.bytes

/-- The dirty bytes of an L1 word by their addresses. -/
def L1Word.dirtyBytes (w : L1Word) (word : Nat) : List (Nat × Byte) :=
  ((List.range 4).filter (fun i => w.dirty.getLsbD i)).map (fun i => (4 * word + i, w.data.extractLsb' (8 * i) 8))

/-- The dirty bytes of a word leave an L1. Global bytes register at the home, together with those of the other word of the same
8 B, so that an aligned store of 8 B registers whole (R120, R132); clean bytes of a word that the core does not own go.
Private bytes are written to memory and are never registered (R97). -/
def State.leaveL1 (s : State) (core word : Nat) : State :=
  let w := sget L1Word.absent (s.core core).l1 word
  if w.dirty = 0#4 then s
  else if w.priv ≠ 0 then
    (w.dirtyBytes word).foldl (fun (s : State) b => s.setHome b.1 b.2)
      (s.updCore core (fun c => { c with l1 := sset L1Word.absent c.l1 word { w with dirty := 0#4 } }))
  else
    let ws := [word / 2 * 2, word / 2 * 2 + 1].filter (fun x =>
      let v := sget L1Word.absent (s.core core).l1 x
      decide (v.dirty ≠ 0#4) && decide (v.priv = 0))
    let bytes := ws.flatMap (fun x => (sget L1Word.absent (s.core core).l1 x).dirtyBytes x)
    let held := s.mustHold bytes
    let gone := fun (v : L1Word) => { v with
      dirty := 0#4
      present := if held then v.present &&& ~~~v.dirty else if v.owned then v.present else v.dirty
      unacked := true }
    let s := s.updCore core (fun c => { c with
      l1 := ws.foldl (fun m x => sset L1Word.absent m x (gone (sget L1Word.absent m x))) c.l1 })
    let s := ws.foldl (fun (s : State) x => s.updGuest (sectorOf core) (4 * x) (fun g =>
      if g.pending.contains (core, x) then g else { g with pending := g.pending ++ [(core, x)] })) s
    s.register (.core core) w.ctx bytes

/-- The acknowledgement of a word's registration reaches its core once none of its writes is held, and the guest copy of the
sector takes the word (R28, R120). -/
def State.ackWord (s : State) (core word : Nat) : State :=
  let w := sget L1Word.absent (s.core core).l1 word
  if w.unacked = false ∨ s.edgeHolds word = true ∨
      s.heldWrites.any (fun h => decide (h.party = Party.core core) && (wordsOf h.bytes).contains word) then s
  else
    let s := (s.replyLine (sectorOf core) (4 * word) []).updGuest (sectorOf core) (4 * word) (fun g => ⟨patchSector g.data (word / 16)
      (byteList (4 * word) (s.homeBytes (4 * word) 4)), g.pending.erase (core, word)⟩)
    s.updCore core (fun c => { c with l1 := sset L1Word.absent c.l1 word { w with
      unacked := false
      owned := decide (sget none s.owners word = some core)
      present := if sget none s.owners word = some core then w.present else w.dirty } })

/-- Every dirty word of a core that a test selects leaves its L1 and is acknowledged where it can be. -/
def State.writeBack (s : State) (core : Nat) (p : Nat → Bool) : State :=
  let ws := ((s.core core).l1.filter (fun e => decide (e.2.dirty ≠ 0#4) && p e.1)).map (·.1)
  let s := ws.foldl (fun s w => s.leaveL1 core w) s
  (((s.core core).l1.filter (fun e => e.2.unacked && p e.1)).map (·.1)).foldl (fun s w => s.ackWord core w) s

/-- Whether every word a test selects has been acknowledged. -/
def State.allAcked (s : State) (core : Nat) (p : Nat → Bool) : Bool :=
  (s.core core).l1.all (fun e => !(p e.1 && decide (e.2.priv = 0) && (e.2.unacked || decide (e.2.dirty ≠ 0#4))))

/-! ### The L1's lines (R98) -/

/-- The line that a fill of a set replaces: with eight resident lines, the least recently used. -/
def victimLine (lines : Sparse (Option Nat)) (sets ways line : Nat) : Option Nat :=
  let ls := lines.filter (fun e => decide (e.1 % sets = line % sets))
  if ls.length < ways then none
  else (ls.foldl (fun (acc : Option (Nat × Nat)) e => match acc with
    | none => some (e.1, optD e.2 0)
    | some b => if optD e.2 0 < b.2 then some (e.1, optD e.2 0) else some b) none).map (·.1)

/-- A line leaves an L1: its dirty words leave, its clean words are dropped (R98, R120). -/
def State.evictLine (s : State) (core line : Nat) : State :=
  let ws := ((s.core core).l1.filter (fun e => decide (e.1 / 128 = line))).map (·.1)
  let s := ws.foldl (fun (s : State) w => s.leaveL1 core w) s
  s.updCore core (fun c =>
    let c := ws.foldl (fun (c : Core) w => c.dropClean w) c
    { c with lines := sset none c.lines line none })

/-- A line of a core's L1 is used: it becomes the most recently used one, `strm` leaves it where it is; an absent line takes the
place of the least recently used of the eight of its set, `strm` as the least recently used (R98, R164). -/
def State.useLine (s : State) (core line : Nat) (strm : Bool) : State :=
  let c := s.core core
  match sget none c.lines line with
  | some _ => if strm then s else s.updCore core (fun c => { c with
      lines := sset none c.lines line (some (c.uses + 1))
      uses := c.uses + 1 })
  | none =>
    let s := match victimLine c.lines 64 8 line with
      | some v => s.evictLine core v
      | none => s
    s.updCore core (fun c => { c with
      lines := sset none c.lines line (some (if strm then 0 else c.uses + 1))
      uses := c.uses + 1 })

/-- The 64 B of a sector enter an L1. -/
def State.installSector (s : State) (core sector priv : Nat) (strm : Bool) (data : BitVec 512) : State :=
  (s.useLine core (sector / 8) strm).updCore core (fun c => { c with
    l1 := (List.range 16).foldl (fun m j =>
      sset L1Word.absent m (16 * sector + j) ((sget L1Word.absent m (16 * sector + j)).fill
        (bytesOfNat (bitsN data (32 * j + 31) (32 * j)) 4) s.clk priv)) c.l1 })

/-- The replies of the pending reads that were served before this cycle reach a core and leave the tables. One that reads
through the L1 fills it, unless the core has acquired since, the sector is poisoned or it has a live shadow (R98, R124, R496). -/
def State.missReturn (s : State) (core : Nat) : State :=
  let c := s.core core
  let now := c.misses.filter (fun m => decide (m.served < s.clk))
  let s := s.updCore core (fun c => { c with misses := c.misses.filter (fun m => !decide (m.served < s.clk)) })
  now.foldl (fun (s : State) m =>
    if m.nl1 || m.poison || decide (m.stamp ≠ (s.core core).stamp) || s.shadowed m.sector then s
    else s.installSector core m.sector 0 m.strm m.data) s

/-- One byte of a store enters a core's L1 (R98, R269); `priv` is 0 for global data. -/
def State.storeByte (s : State) (core ctx priv pa : Nat) (b : Byte) : State :=
  let a := s.canon pa
  let i := a % 4
  (s.useLine core (a / 512) false).updCore core (fun c =>
    let w := sget L1Word.absent c.l1 (a / 4)
    let w' := { w with
      data := setBits w.data (8 * i + 7) (8 * i) b.toNat
      present := w.present ||| (1#4 <<< i)
      dirty := w.dirty ||| (1#4 <<< i)
      written := if w.dirty = 0#4 then s.clk else w.written
      ctx := ctx
      priv := priv }
    { c with l1 := sset L1Word.absent c.l1 (a / 4) w' })

/-- Bytes of a vector-path store: into the L1, or at once to the home where the page is not cached (MTYPE 01, 10). -/
def State.storeBytes (s : State) (core ctx : Nat) (uncached : Bool) (bytes : List (Nat × Byte)) : State :=
  if uncached then s.register (.core core) ctx (bytes.map (fun b => (s.canon b.1, b.2)))
  else bytes.foldl (fun s b => s.storeByte core ctx 0 b.1 b.2) s

/-- Set A, and D for a write, in the leaf that maps an address, by an update at the entry's home slice (R103, R322, R477). A leaf that
waits in a held write is left as it is: its bits are set at a later access. -/
def State.touchLeaf (s : State) (vf va : Nat) (write : Bool) : State :=
  let rec go (table : Nat) : List Nat → State
    | [] => s
    | level :: rest =>
      let a := table + 8 * (va / 2 ^ (12 * (level + 1)) % 4096)
      match s.readPte a with
      | none => s
      | some e =>
        if !pteV e || s.heldAt a 8 then s
        else if pteLeaf e then
          let bits : Dword := if write then 0xC0#64 else 0x40#64
          if e &&& bits = bits then s else s.engineWrite 0 a (bytesOfNat (e ||| bits).toNat 8)
        else go (ptePa e) rest
  go (s.rootOf vf) [3, 2, 1, 0]

/-- Set A and D where the TLB's entry says that they are not yet set (R103, R477). -/
def State.touch (s : State) (core vf va : Nat) (write : Bool) : State :=
  match (s.core core).tlbFind vf va with
  | none => s
  | some t =>
    let bits : Dword := if write then 0xC0#64 else 0x40#64
    if t.leaf &&& bits = bits then s
    else (s.touchLeaf vf va write).updCore core (fun k => { k with
      tlb := k.tlb.map (fun u => if u = t then { t with leaf := t.leaf ||| bits } else u) })

/-! ### Demand maps (R105 to R108) -/

/-- The page pool of a function (R107, R378): POOL of its queues' hypervisor halves. -/
def State.poolOf (s : State) (vf : Nat) : Nat :=
  match (s.func vf).queues.find? (fun q => decide (bitsN q.2.hyp 767 704 ≠ 0)) with
  | some q => bitsN q.2.hyp 767 704
  | none => 0

/-- A field of a pool record at a byte offset: FREE 48 bytes up … as R107 lays them out. -/
def State.poolField (s : State) (pool hi lo : Nat) : Nat := bitsN (BitVec.ofNat 512 (s.homeNat pool 64)) hi lo

/-- Fields of a pool record (high bit, low bit, value) written in one update at its home (R107, R322). -/
def State.setPool (s : State) (pool : Nat) (fields : List (Nat × Nat × Nat)) : State :=
  s.engineWrite 0 pool (bytesOfNat (fields.foldl (fun (r : BitVec 512) f => setBits r f.1 f.2.1 f.2.2)
    (BitVec.ofNat 512 (s.homeNat pool 64))).toNat 64)

/-- The limit that refuses a map: 0 QUOTA, 1 FREE (R108), if any. -/
def State.mapRefused (s : State) (pool : Nat) : Option Nat :=
  if s.poolField pool 415 384 ≤ s.poolField pool 383 352 then some 0
  else if s.poolField pool 447 416 = 0 then some 1
  else none

/-- Map the unmapped GROW page whose first leaf stands at `leafAddr` (R106): the frame on top of the stack, sixteen leaves. The
leaves register at their home, where a watch may hold them (R323). -/
def State.mapFrame (s : State) (pool leafAddr : Nat) : State :=
  let free := s.poolField pool 447 416 - 1
  let frame := s.homeNat (s.poolField pool 511 448 + 8 * free) 8
  let s := s.setPool pool [(447, 416, free), (383, 352, s.poolField pool 383 352 + 1)]
  let leaf := fun (i : Nat) =>
    setBits (setBits (BitVec.ofNat 64 (s.homeNat (leafAddr + 8 * i) 8)) 51 12 (frame / 4096)) 0 0 1
  s.engineWrite 0 leafAddr ((List.range 16).flatMap (fun i => bytesOfNat (leaf i).toNat 8))

/-- Post a quota event for a page on its first refusal, and again on a refusal after an answer (R481). An engine or host write that
stays stalled after the answer is not refused anew. -/
def State.quotaEvent (s : State) (vf va pool : Nat) (limit : Nat) (source : Nat) : State :=
  let page := va / 65536 * 65536
  if (s.func vf).quota.any (fun e => decide (e.va = page) && (!e.answered || (decide (source ≠ 0) && decide (e.source = source)))) then s
  else s.updFunc vf (fun f => { f with
    quota := f.quota.filter (fun e => decide (e.va ≠ page)) ++
      [⟨page, pool, s.poolField pool 383 352, s.poolField pool 415 384, vf, decide (limit = 1), source, false, false⟩]
    pba := sset false f.pba 65 true })

/-- Map a page, or refuse it with a quota event; a map waits while a held write covers its leaves or the pool record (R127,
R323). -/
def State.demandMap (s : State) (vf va leafAddr source : Nat) : Bool × State :=
  let pool := s.poolOf vf
  if s.heldAt leafAddr 4 || s.heldAt pool 64 then (true, s)
  else match s.mapRefused pool with
    | some l => (false, s.quotaEvent vf va pool l source)
    | none =>
      let s := s.updFunc vf (fun f => { f with
        quota := f.quota.filter (fun e => !e.answered || decide (e.va ≠ va / 65536 * 65536)) })
      (true, s.mapFrame pool leafAddr)

/-! ### Private memory (R95 to R97) -/

/-- The virtual address of a private byte of a lane (R95). -/
def privAddr (record vregs o lane : Nat) : Nat := record + 0x400 + 128 * vregs + o / 4 * 128 + 4 * lane + o % 4

/-- The physical address of a byte of a wave's record, for the device's own access; GROW pages read as zero and map on a
write. -/
def State.recordPa (s : State) (core vf part va : Nat) (write : Bool) : Except (Nat × Nat) (Option Nat × State) :=
  match s.translate core vf part true true va (if write then .store else .load) with
  | (.ok pa _, s) => .ok (some pa, s.touch core vf va write)
  | (.bad c d, _) => .error (c, d)
  | (.miss, s) => .ok (none, s)
  | (.grow a, s) =>
    if write then
      match s.demandMap vf va a 0 with
      | (false, _) => .error (0x0F, 0)
      | (true, s) => match s.translate core vf part true true va .store with
        | (.ok pa _, s) => .ok (some pa, s.touch core vf va true)
        | (_, s) => .ok (none, s)
    else .ok (none, s)

/-- One byte of private or context-area data as a core reads it: from its L1, else from memory (R97). -/
def State.privByte (s : State) (core pa : Nat) : Byte :=
  let a := s.canon pa
  let w := sget L1Word.absent (s.core core).l1 (a / 4)
  if w.present.getLsbD (a % 4) || w.dirty.getLsbD (a % 4) then w.data.extractLsb' (8 * (a % 4)) 8 else s.homeByte a

/-- The 64 B sectors of private or context-area data that a core reads enter its L1 (R97, R98). -/
def State.fillPriv (s : State) (core record : Nat) (pas : List Nat) : State :=
  (dedup (pas.map (fun pa => s.canon pa / 64))).foldl (fun (s : State) x =>
    if s.poisoned (64 * x) then s.useLine core (x / 8) false
    else s.installSector core x (record + 1) false (BitVec.ofNat 512 (s.homeNat (64 * x) 64))) s

/-- The private data of some records leaves a core's L1: written to memory where `keep` says so, else dropped as it is (R97). -/
def State.dropPriv (s : State) (core : Nat) (keep : Bool) (records : List Nat) : State :=
  let ws := ((s.core core).l1.filter (fun e => records.any (fun r => decide (e.2.priv = r + 1)))).map (·.1)
  let s := if keep then ws.foldl (fun (s : State) w => s.leaveL1 core w) s else s
  s.updCore core (fun c => { c with l1 := ws.foldl (fun m w => sset L1Word.absent m w L1Word.absent) c.l1 })

/-- Write bytes of a record through the device's own access; the first failure stops it. -/
def State.recordWrite (s : State) (core vf part ctx record va : Nat) : List Byte → Except (Nat × Nat × Nat) State
  | [] => .ok s
  | b :: bs => match s.recordPa core vf part va true with
    | .error (c, d) => .error (c, d, va)
    | .ok (none, s) => s.recordWrite core vf part ctx record (va + 1) bs
    | .ok (some pa, s) => (s.storeByte core ctx (record + 1) pa b).recordWrite core vf part ctx record (va + 1) bs

/-- Read bytes of a record. -/
def State.recordRead (s : State) (core vf part : Nat) : Nat → Nat → Except (Nat × Nat × Nat) (List Byte)
  | _, 0 => .ok []
  | va, n + 1 => match s.recordPa core vf part va false with
    | .error (c, d) => .error (c, d, va)
    | .ok (o, _) => match s.recordRead core vf part (va + 1) n with
      | .error e => .error e
      | .ok bs => .ok ((match o with
        | none => 0#8
        | some pa => s.privByte core pa) :: bs)

/-- The physical address of a record's byte, for the device's own access, which sets A and D; `write` maps an unmapped GROW page. -/
def State.recordAt (s : State) (vf part va : Nat) (write : Bool) : Option Nat × State :=
  let page := fun (s : State) => match s.walk vf va with
    | .page t =>
      let pa := t.pa + (va - t.va)
      match s.leafCheck vf part true t.leaf pa (if write then .store else .load) with
      | some _ => none
      | none => some (s.canon pa)
    | _ => none
  match s.walk vf va with
  | .grow a =>
    if write then
      let s := (s.demandMap vf va a 0).2
      (page s, s.touchLeaf vf va true)
    else (none, s)
  | _ => match page s with
    | some pa => (some pa, s.touchLeaf vf va write)
    | none => (none, s)

/-- Write bytes of a record, in pieces that cross no page; a piece that does not translate is dropped (log 26). -/
def State.recordPut (s : State) (vf part va : Nat) (bs : List Byte) : State :=
  (List.range ((bs.length + 63) / 64)).foldl (fun (s : State) i =>
    match s.recordAt vf part (va + 64 * i) true with
    | (some pa, s) => s.setHomeBytes pa ((bs.drop (64 * i)).take 64)
    | (none, s) => s) s

/-- Read bytes of a record; what does not translate reads as zero. -/
def State.recordGet (s : State) (vf part va n : Nat) : List Byte :=
  (List.range ((n + 63) / 64)).flatMap (fun i =>
    let m := min 64 (n - 64 * i)
    match (s.recordAt vf part (va + 64 * i) false).1 with
    | some pa => s.homeBytes pa m
    | none => List.replicate m 0#8)

/-! ### The register-file cache (R50 to R52, R62, R67) -/

/-- The key of a register line in a core's register-file cache. -/
def lineKey (id : WaveId) (r : Nat) : Nat := waveKey id * 256 + r

/-- A line of a core's register-file cache. -/
def Core.line (c : Core) (key : Nat) : RfLine := sget RfLine.absent c.rf key

/-- The bytes of a vector register. -/
def Wave.lineBytes (w : Wave) (r : Nat) : List Byte := (List.range 32).flatMap (fun l => bytesOfNat (w.vget r l).toNat 4)

/-- Bytes of a wave's record written by the device in one page; the core's L1 keeps no older copy of them (R51, R97). -/
def State.recordOut (s : State) (core : Nat) (g : Workgroup) (va : Nat) (bs : List Byte) : State :=
  match s.recordAt g.vf g.part va true with
  | (some pa, s) => (s.setHomeBytes pa bs).updCore core (fun c => { c with
      l1 := (List.range ((bs.length + 3) / 4)).foldl (fun m i => sset L1Word.absent m (pa / 4 + i) L1Word.absent) c.l1 })
  | (none, s) => s

/-- A register line is written to its place in the context area (R49, R51). -/
def State.lineOut (s : State) (core key : Nat) : State :=
  match sget none (s.core core).waves (key / 256) with
  | none => s
  | some w => match sget none (s.core core).wgs w.wg with
    | none => s
    | some g => s.recordOut core g (w.record + 0x400 + 128 * (key % 256)) (w.lineBytes (key % 256))

/-- A register line is read from the context area through the core's L1; one marked zero is zero, and a dead one keeps its
free value (R50, R52, R67). -/
def State.lineIn (s : State) (id : WaveId) (r : Nat) : State :=
  match s.wave id with
  | none => s
  | some w =>
    let put := fun (s : State) (bs : List Byte) => s.updWave id (fun w => { w with
      v := ssetList 0#32 w.v (32 * r) ((List.range 32).map (fun l => wd (natOfBytes ((bs.drop (4 * l)).take 4))))
      zeros := w.zeros &&& ~~~(1#256 <<< r) })
    if w.dead.getLsbD r then s.updWave id (fun w => { w with dead := w.dead &&& ~~~(1#256 <<< r) })
    else if w.zeros.getLsbD r then put s []
    else match s.wg id.core w.wg with
      | none => s
      | some g => match s.recordAt g.vf g.part (w.record + 0x400 + 128 * r) false with
        | (some pa, s) =>
          let s := s.fillPriv id.core w.record [pa, pa + 64]
          put s ((List.range 128).map (fun i => s.privByte id.core (pa + i)))
        | (none, s) => put s []

/-- Whether reading a line misses the L1: it is not marked zero or dead, and a byte of it is not in the L1 (R56). -/
def State.lineMisses (s : State) (id : WaveId) (w : Wave) (g : Workgroup) (r : Nat) : Bool :=
  !w.zeros.getLsbD r && !w.dead.getLsbD r && (match (s.recordAt g.vf g.part (w.record + 0x400 + 128 * r) false).1 with
    | some pa => (List.range 128).any (fun i => s.l1Miss id.core (pa + i))
    | none => false)

/-- A line put among lines in the order of their last use. -/
def insertLine (e : Nat × RfLine) : List (Nat × RfLine) → List (Nat × RfLine)
  | [] => [e]
  | x :: xs => if e.2.used ≤ x.2.used then e :: x :: xs else x :: insertLine e xs

/-- The lines of a scheduler that may be evicted: those that no active wave's current window names, clean ones first, each kind
by its last use (R51). -/
def Core.evictable (c : Core) (sched : Nat) : List (Nat × RfLine) :=
  let named := fun (key : Nat) => match sget none c.waves (key / 256) with
    | some w => w.active && w.window.contains (key % 256)
    | none => false
  let ls := c.rf.filter (fun e => decide (e.1 / 256 / 64 = sched) && e.2.present && !named e.1)
  let oldest := fun (l : List (Nat × RfLine)) => l.foldr insertLine []
  oldest (ls.filter (fun e => !e.2.dirty)) ++ oldest (ls.filter (fun e => e.2.dirty))

/-- Make room for `n` lines among a scheduler's 1,024: victims leave, a dirty one after it is written back (R50, R51). -/
def State.makeRoom (s : State) (core sched n : Nat) : State :=
  let c := s.core core
  let used := (c.rf.filter (fun e => decide (e.1 / 256 / 64 = sched) && e.2.present)).length
  ((c.evictable sched).take (used + n - 1024)).foldl (fun (s : State) e =>
    (if e.2.dirty then s.lineOut core e.1 else s).updCore core (fun c => { c with rf := sset RfLine.absent c.rf e.1 RfLine.absent })) s

/-- Lines of a wave are used by a word, and those it writes become dirty (R51, R62). -/
def Core.markLines (c : Core) (id : WaveId) (now : Nat) (reads writes : List Nat) : Core :=
  let rf := reads.foldl (fun m r =>
    let l := sget RfLine.absent m (lineKey id r)
    if l.present then sset RfLine.absent m (lineKey id r) { l with used := now } else m) c.rf
  { c with rf := writes.foldl (fun m r => sset RfLine.absent m (lineKey id r) ⟨true, true, now⟩) rf }

/-- Results reach the registers of a wave. A vector register whose line is not in the register-file cache takes them in the
context area; one marked zero enters the cache with them (R50, R60, R67). -/
def State.writeRegs (s : State) (id : WaveId) (ws : List RegWrite) : State :=
  match s.wave id with
  | none => s
  | some w =>
    let s := s.updWave id (fun w => w.regWrites ws)
    let regs := (dedup (ws.map (fun x => x.reg))).filter (fun r => decide (r < 0x100))
    let zero := regs.filter (fun r => w.zeros.getLsbD r)
    let here := regs.filter (fun r => ((s.core id.core).line (lineKey id r)).present)
    let out := regs.filter (fun r => !zero.contains r && !here.contains r)
    let s := if zero = [] then s else (s.makeRoom id.core id.sched zero.length).updWave id (fun w => { w with
      zeros := zero.foldl (fun z r => z &&& ~~~(1#256 <<< r)) w.zeros })
    let s := s.updCore id.core (fun c => c.markLines id s.clk [] (zero ++ here))
    match s.wg id.core w.wg with
    | none => s
    | some g => (ws.filter (fun x => out.contains x.reg)).foldl (fun (s : State) x =>
        s.recordOut id.core g (w.record + 0x400 + 128 * x.reg + 4 * x.lane) (bytesOfNat x.val.toNat 4)) s

/-- The lines of a wave leave the register-file cache as they are (R39, R52). -/
def Core.dropLines (c : Core) (key : Nat) (p : Nat → Bool) : Core :=
  { c with rf := c.rf.filter (fun e => !(decide (e.1 / 256 = key) && p (e.1 % 256))) }

/-! ### Local spaces (R79 to R88) -/

/-- A core's space. -/
def Core.space (c : Core) : Space → Sparse Byte
  | .sp => c.sp
  | .wb => c.wb
  | .ab => c.ab
  | .cb => c.cb

/-- Replace a core's space. -/
def Core.setSpace (c : Core) (x : Space) (m : Sparse Byte) : Core :=
  match x with
  | .sp => { c with sp := m }
  | .wb => { c with wb := m }
  | .ab => { c with ab := m }
  | .cb => { c with cb := m }

/-- Size of a space in bytes (R79). -/
def spaceSize : Space → Nat
  | .wb => 524288
  | _ => 262144

/-- The code of a space in SPACE_BOUND (R445). -/
def spaceCode : Space → Nat
  | .sp => 0
  | .wb => 1
  | .ab => 2
  | .cb => 3

/-- A workgroup's allocation in a space. -/
def Workgroup.alloc (g : Workgroup) : Space → Alloc
  | .sp => g.sp
  | .wb => g.wb
  | .ab => g.ab
  | .cb => g.cb

/-- The usable length of a space (R81, R91). -/
def Workgroup.usable (g : Workgroup) : Space → Nat
  | .sp => g.sp.len - g.queueArea
  | x => (g.alloc x).len

/-- Bytes of a space at a core offset. -/
def Core.spaceBytes (c : Core) (x : Space) (a n : Nat) : List Byte := (List.range n).map (fun i => sget 0#8 (c.space x) (a + i))

/-- Write bytes of a space; the 512 B blocks written become dirty (R62). -/
def Core.setSpaceBytes (c : Core) (x : Space) (a : Nat) (bs : List Byte) : Core :=
  let c' := c.setSpace x (ssetList 0#8 (c.space x) a bs)
  let blk := fun i => spaceCode x * 1024 + (a + i) / 512
  { c' with dirtyBlocks := (List.range bs.length).foldl (fun d i => sset false d (blk i) true) c'.dirtyBlocks }

/-- The checks of R81 on an offset: SPACE_BOUND, then MISALIGNED. -/
def localCheck (usable code o size : Nat) : Option Raise :=
  if usable < o + size then some ⟨0x0B, 0, o + code * 2 ^ 60⟩
  else if o % size ≠ 0 then some ⟨0x0C, 0, o + code * 2 ^ 60⟩
  else none

/-- The physical word of a logical word offset in a skewed tile (R88). -/
def skewWord (base o : Nat) : Nat :=
  let row := (o - base) / 128
  base / 4 + row * 32 + ((o - base) % 128 / 4 + row) % 32

/-- Pass count of a scratchpad access (R84): physical word addresses by lane, in groups. -/
def passCount (size : Nat) (accs : List (Nat × List Nat)) : Nat :=
  let group := if size = 16 then 8 else if size = 8 then 16 else 32
  (List.range (32 / group)).foldl (fun acc g =>
    let ws := dedup ((accs.filter (fun p => decide (p.1 / group = g))).flatMap (·.2))
    acc + ((List.range 32).map (fun b => (ws.filter (fun w => w % 32 = b)).length)).foldl max 0) 0

/-! ### Telemetry, triggers and records (R416, R450, R503, R508) -/

/-- The snapshot that a `snap` and a fault trigger of one cycle make together: SOURCE 3 with the CODE of the fault and the TAG of the
`snap` (R428). -/
def Snapshot.join (x : Snapshot) (now source tag code : Nat) : Option Snapshot :=
  let src := bitsN x.header 47 44
  if x.time ≠ now then none
  else if source = 3 ∧ src = 0 then some { x with header := setBits (setBits x.header 47 44 3) 39 32 code }
  else if source = 0 ∧ src = 3 then some { x with header := setBits x.header 63 48 tag }
  else none

/-- Latch a snapshot of a partition, or drop the trigger (R245, R416, R417, R428). -/
def State.trigger (s : State) (part source tag code : Nat) : State :=
  let p := s.part part
  match p.snap.bind (fun x => x.join s.clk source tag code) with
  | some x => s.updPart part (fun p => { p with snap := some x })
  | none =>
    let recent := match p.lastTrigger with
      | some t => decide (s.clk < t + 65536)
      | none => false
    let blocked := match p.snap with
      | some x => !x.read && decide (s.clk < x.time + 19200000)
      | none => false
    if recent || blocked then s.updPart part (fun p => { p with snapDropped := p.snapDropped + 1 })
    else
      let now := s.pclk part
      let hdr := now % 2 ^ 64 * 2 ^ 64 + tag % 65536 * 2 ^ 48 + source * 2 ^ 44 + part * 2 ^ 40 + code * 2 ^ 32 + p.snapDropped % 2 ^ 32
      let ws := p.cores.flatMap (fun n => ((s.core n).waveList n).map (fun e =>
        let vf := match s.wg n e.2.wg with
          | some g => g.vf
          | none => 96
        (vf, e.1, e.2.exited, (List.range 32).map (fun l => e.2.pcOf l))))
      let qs := p.tenants.flatMap (fun vf => (s.func vf).queues.map (fun q => (vf, q.1, q.2.half)))
      s.updPart part (fun p => { p with
        snap := some ⟨BitVec.ofNat 128 hdr, ws, qs, s.clk, false⟩, lastTrigger := some s.clk, snapDropped := 0 })

/-- The fault kinds of R508 that a telemetry KIND belongs to. -/
def kindBit (kind : Nat) : Option Nat := if kind = 6 then some 1 else if kind = 8 then some 2 else if kind = 0xA then some 3 else none

/-- A fault-kind trigger, where its bit of the trigger mask is set (R508). -/
def State.faultTrigger (s : State) (part bit code : Nat) : State :=
  if (s.part part).triggerMask.getLsbD bit then s.trigger part 3 0 code else s

/-- Write one 32 B entry to a partition's telemetry ring (R503). Log 21. -/
def State.telemetry (s : State) (part : Nat) (entry : BitVec 256) : State :=
  let base := (s.part part).telebase.toNat
  let s :=
    if base = 0 then s
    else
      let h := BitVec.ofNat 512 (s.homeNat base 64)
      let size := 2 ^ bitsN h 447 443
      let prod := bitsN h 415 384
      if (prod + 2 ^ 32 - bitsN h 383 352) % 2 ^ 32 = size then
        let d := bitsN h 351 320
        s.engineWrite 0 base (bytesOfNat (setBits h 351 320 (if d = 2 ^ 32 - 1 then d else d + 1)).toNat 64)
      else
        let s := s.engineWrite 0 (bitsN h 511 448 + 32 * (prod % size)) (bytesOfNat entry.toNat 32)
        s.engineWrite 0 (base + 48) (bytesOfNat ((prod + 1) % 2 ^ 32) 4 |>.map id)
  match kindBit (bitsN entry 255 248) with
  | some b => s.faultTrigger part b (bitsN entry 247 240)
  | none => s

/-- The entry layout of R504. -/
def telemetryEntry (kind code unit unitKind array ctx time addr count aux : Nat) : BitVec 256 :=
  BitVec.ofNat 256 (kind * 2 ^ 248 + code * 2 ^ 240 + unit % 65536 * 2 ^ 224 + unitKind * 2 ^ 220 + array * 2 ^ 208 +
    ctx % 65536 * 2 ^ 192 + time % 2 ^ 64 * 2 ^ 128 + addr % 2 ^ 64 * 2 ^ 64 + count % 2 ^ 32 * 2 ^ 32 + aux % 2 ^ 32)

/-- The entry layout of R472. -/
def execEntry (kind code core ctx aux time pc arg : Nat) : BitVec 256 :=
  BitVec.ofNat 256 (kind * 2 ^ 248 + code * 2 ^ 240 + core % 65536 * 2 ^ 224 + ctx % 65536 * 2 ^ 208 + aux % 65536 * 2 ^ 192 +
    time % 2 ^ 64 * 2 ^ 128 + pc % 2 ^ 32 * 2 ^ 96 + arg % 2 ^ 32 * 2 ^ 64)

/-- Post a fault record to the active firmware complex (R450). -/
def State.postRecord (s : State) (vf : Nat) (r : BitVec 512) : State := { s with postings := s.postings ++ [⟨vf, r⟩] }

/-- The fields of a fault record (R449). -/
structure FaultRecord where
  code : Nat
  kind : Nat
  level : Nat
  first : Nat
  detail : Nat
  ctx : Nat
  vf : Nat
  queue : Nat
  core : Nat
  sched : Nat
  slot : Nat
  grid : Nat
  wgx : Nat
  wgy : Nat
  wgz : Nat
  pc : Nat
  xmask : Nat
  fmask : Nat
  xinfo : Nat
  time : Nat
  deriving DecidableEq, Repr

/-- The bits of a fault record (R449), LOST 0 until it is listed. -/
def FaultRecord.bits (r : FaultRecord) : BitVec 512 := BitVec.ofNat 512
  (r.code % 256 * 2 ^ 504 + r.kind % 16 * 2 ^ 500 + r.level % 8 * 2 ^ 497 + r.first % 256 * 2 ^ 489 + r.detail % 256 * 2 ^ 481 +
    r.ctx % 65536 * 2 ^ 465 + r.vf % 128 * 2 ^ 458 + r.queue % 64 * 2 ^ 452 + r.core % 1024 * 2 ^ 442 + r.sched % 4 * 2 ^ 440 +
    r.slot % 32 * 2 ^ 435 + r.grid % 65536 * 2 ^ 419 + r.wgx % 2 ^ 32 * 2 ^ 387 + r.wgy % 65536 * 2 ^ 371 +
    r.wgz % 65536 * 2 ^ 355 + r.pc % 2 ^ 32 * 2 ^ 323 + r.xmask % 2 ^ 32 * 2 ^ 291 + r.fmask % 2 ^ 32 * 2 ^ 259 +
    r.xinfo % 2 ^ 64 * 2 ^ 195 + r.time % 2 ^ 64 * 2 ^ 131)

/-- A record of a function with nothing but code, kind, level, detail, context and `%xinfo`. -/
def plainRecord (code kind level detail ctx vf xinfo time : Nat) : FaultRecord :=
  { code, kind, level, first := 0, detail, ctx, vf, queue := if ctx = 0 then 0 else ctxQueue ctx, core := 0, sched := 0, slot := 0, grid := 0,
    wgx := 0, wgy := 0, wgz := 0, pc := 0, xmask := 0, fmask := 0, xinfo, time }

end Sys2Proof.Machine
end

