-- ==== Sys2Proof/Machine/Operands.lean ====
section
/-!
DEFINITION. What a word issues with, and every operand form (spec 06 R166 to R173): the constant and special table,
vector, scalar, mask and 64-bit operands, the effective mask, and the writing of results.
-/

namespace Sys2Proof.Machine

/-- What a word issues with: the wave and its workgroup as they stand at issue, the PC, the active and the effective mask
(R37, R170), the word's bits and its marker. -/
structure Ctx where
  id : WaveId
  wave : Wave
  wg : Workgroup
  pc : Word
  active : Mask
  eff : Mask
  word : Dword
  m : Bool
  deriving DecidableEq, Repr

/-- The core of the issuing wave. -/
def Ctx.core (c : Ctx) : Nat := c.id.core

/-- The context of the issuing wave (R115). -/
def Ctx.ctx (c : Ctx) : Nat := c.wg.ctx

/-- Whether the context is privileged: one of the physical function (R252). -/
def Ctx.priv (c : Ctx) : Bool := decide (c.wg.vf = 96)

/-- The lanes of the effective mask, ascending. -/
def Ctx.lanes (c : Ctx) : List Nat := lanesOf c.eff

/-- The lowest lane of a mask; 0 for an empty one. -/
def lowLane (m : Mask) : Nat := (lanesOf m).headD 0

/-- The effective mask of a PRED field (R170). -/
def predMask (w : Wave) (active : Mask) (pred : BitVec 4) : Mask :=
  let k := w.kget (pred.extractLsb' 0 3).toNat
  active &&& (if pred.getLsbD 3 then ~~~k else k)

/-- The uniform entries 128 to 159 of the constant and special table (R167); the lane-varying ones are given apart. -/
def constWords : List Word :=
  [0x00000000#32, 0x00000001#32, 0xFFFFFFFF#32, 0x3F000000#32, 0x3F800000#32, 0x40000000#32, 0#32, 0#32,
   0xBF000000#32, 0xBF800000#32, 0xC0000000#32, 0x40800000#32, 0x3E800000#32, 0x3FB8AA3B#32, 0x3F317218#32, 0x40490FDB#32,
   0x7F800000#32, 0xFF800000#32, 0x7F7FFFFF#32, 0x7FC00000#32, 0x00000002#32, 0x00000004#32, 0x00000008#32, 0x00000010#32,
   0x00000020#32, 0x7FFFFFFF#32, 0x80000000#32, 0x0000FFFF#32, 0x000000FF#32, 0x3C003C00#32]

/-- Entry `n` of the constant and special table for a lane of a wave (R167). -/
def constEntry (wave n lane : Nat) : Word :=
  if n = 134 then wd lane
  else if n = 135 then wd wave
  else if n = 158 then wd (2 ^ lane)
  else if n = 159 then wd (2 ^ lane - 1)
  else if 160 ≤ n then wdI (if n < 176 then (n : Int) - 160 else (n : Int) - 192)
  else constWords.getD (n - 128) 0#32

/-- The value of an operand field for a lane (R166, R167). -/
def Wave.opnd (w : Wave) (f lane : Nat) : Word :=
  if f < 0x100 then w.vget f lane
  else if f < 0x180 then w.sreg (f - 0x100)
  else constEntry w.index (f - 0x100) lane

/-- `Opnd(f, L)`. -/
def Ctx.opnd (c : Ctx) (f : BitVec 9) (lane : Nat) : Word := c.wave.opnd f.toNat lane

/-- A 64-bit operand: an even pair, or a constant sign-extended (R168). -/
def Ctx.opnd64 (c : Ctx) (f : BitVec 9) (lane : Nat) : Nat :=
  if isC f.toNat then wrapInt 64 (c.opnd f lane).toInt
  else pair64 (c.wave.opnd f.toNat lane) (c.wave.opnd (f.toNat + 1) lane)

/-- The value of an operand that holds one value over the effective mask (R169). -/
def Ctx.uni (c : Ctx) (f : BitVec 9) : Word := c.opnd f (lowLane c.eff)

/-- `S[n + i]` of a field that names a scalar register. -/
def Ctx.sreg (c : Ctx) (f : BitVec 9) (i : Nat) : Word := c.wave.sreg (f.toNat - 0x100 + i)

/-- Whether a field varies by lane: a vector register or one of the entries 134, 158 and 159 (R167, R169). -/
def laneVarying (f : Nat) : Bool := isV f || f == 0x186 || f == 0x19E || f == 0x19F

/-- The registers and lanes a result goes to: all lanes of the effective mask of a vector register, or a scalar register
once if the mask is not empty (R169). `f` gives the words from register D on for a lane. -/
def Ctx.results (c : Ctx) (d : Nat) (f : Nat → List Word) : List RegWrite :=
  let regs := fun (t : Nat) (ws : List Word) => (List.range ws.length).zip ws |>.map (fun p => (⟨d + p.1, t, p.2⟩ : RegWrite))
  if d < 0x100 then c.lanes.flatMap (fun l => regs l (f l))
  else if c.eff = 0#32 then [] else regs 0 (f (lowLane c.eff))

/-- The lanes a computation runs over: the effective lanes, or one of them for a scalar destination (R169). -/
def Ctx.calcLanes (c : Ctx) (d : Nat) : List Nat := if d < 0x100 then c.lanes else c.lanes.take 1

/-- The two words of a 64-bit value, low first. -/
def words64 (x : Nat) : List Word := [wd x, wd (x / 2 ^ 32)]

/-- A mask with the lanes of `lanes` replaced by a test. -/
def maskWith (old lanes : Mask) (f : Nat → Bool) : Mask :=
  (old &&& ~~~lanes) ||| maskOf ((lanesOf lanes).filter f)

end Sys2Proof.Machine
end

