-- ==== Sys2Proof/Machine/Flags.lean ====
section
/-!
DEFINITION. The sticky flags and the carry masks (spec 05 R153, R154; 07 R189, R190).
-/

namespace Sys2Proof.Machine

/-- Events ORed into `%fflags` (R153, R154). -/
def Wave.orFlags (w : Wave) (f : Flags) : Wave := { w with fflags := w.fflags ||| f }

/-- The flags of a list of results ORed together (R154). -/
def orAll (fs : List Flags) : Flags := fs.foldl (fun a b => a ||| b) 0#4

/-- `%fflags` as `mov.sr` reads it and `mov.ss` writes it: NV in bit 0, OF 1, UF 2, IZ 3 (R153). -/
def flagsWord (f : Flags) : Word := f.zeroExtend 32

/-- The carry out of an addition of `w`-bit words with a carry in (R190). -/
def addCarry (w x y ci : Nat) : Bool := decide (2 ^ w ≤ x + y + ci)

/-- The borrow out of a subtraction of `w`-bit words with a borrow in (R190). -/
def subBorrow (x y bi : Nat) : Bool := decide (x < y + bi)

end Sys2Proof.Machine
end

