-- ==== Sys2Proof/Machine/Responder.lean ====
section
/-!
DEFINITION. Responders and the combining of replies (spec 14 R366 to R371; 23 R471): how a responder starts, how it ends
with a reply or fails, and how a core answers a census.
-/

namespace Sys2Proof.Machine

/-- The identity of a rule and type (R367). -/
def ruleIdentity (rule ty : Nat) : Word :=
  if rule = 1 then (if ty = 0xA then 0xFF800000#32 else 0x80000000#32)
  else if rule = 2 then (if ty = 0xA then 0x7F800000#32 else 0x7FFFFFFF#32)
  else 0#32

/-- `Combine(acc, x)` of a rule at a Chanter node; `.count` adds (R367, R371). -/
def ruleCombine (rule ty : Nat) (acc x : Word) : Word :=
  if rule = 0 ∧ ty = 0xA then wd (f32.fadd 0 false acc.toNat x.toNat).1
  else if rule = 1 then (if ty = 0xA then wd (f32.fminmax true acc.toNat x.toNat).1 else if acc.toInt ≤ x.toInt then x else acc)
  else if rule = 2 then (if ty = 0xA then wd (f32.fminmax false acc.toNat x.toNat).1 else if x.toInt ≤ acc.toInt then x else acc)
  else if rule = 3 then acc ||| x
  else acc + x

/-- `Combine` where a core combines its responders' replies: `.count` counts the words that are not zero (R367). -/
def ruleCombineCore (rule ty : Nat) (acc x : Word) : Word :=
  if rule = 4 then acc + (if x = 0#32 then 0#32 else 1#32) else ruleCombine rule ty acc x

/-- The reply of a core with no matching entry, and of a failed responder but for its counts (R368, R471). -/
def Place.identity (p : Place) : Reply := ⟨List.replicate p.width (ruleIdentity p.rule p.ty), 0, 0, 0⟩

/-- Replies combined in the order given, starting from the identity (R371). -/
def Place.combine (p : Place) (atCore : Bool) (rs : List Reply) : Reply :=
  rs.foldl (fun acc r =>
    ⟨(List.range p.width).map (fun i =>
        (if atCore then ruleCombineCore else ruleCombine) p.rule p.ty (acc.words.getD i 0#32) (r.words.getD i 0#32)),
      acc.count + r.count, acc.fails + r.fails, if acc.fails = 0 then r.firstCode else acc.firstCode⟩) p.identity

/-- A census place of a partition. -/
def State.place (s : State) (part n : Nat) : Place := sget Place.empty (s.part part).places n

/-- A census place changed. -/
def State.updPlace (s : State) (part n : Nat) (f : Place → Place) : State :=
  s.updPart part (fun p => { p with places := sset Place.empty p.places n (f (sget Place.empty p.places n)) })

/-- The census id of a place: place in bits 7:0, generation in bits 31:8 (R366). -/
def censusId (n gen : Nat) : Word := wd (n % 256 + gen * 256)

/-- A core answers once its last responder has ended (R371). -/
def State.coreAnswer (s : State) (part n core : Nat) : State :=
  let p := s.place part n
  if sget 0 p.waiting core ≠ 0 then s
  else
    let mine := p.responses.filter (fun r => decide (r.1 = core))
    let sorted := (List.range 256).flatMap (fun e => mine.filter (fun r => decide (r.2.1 = e)))
    s.updPlace part n (fun p => { p with
      replies := sset none p.replies core (some (p.combine true (sorted.map (fun r => r.2.2)))) })

/-- The wave of a responder at its start (R368). -/
def State.responderWave (s : State) (x : Spawn) : Wave :=
  let p := s.place x.part x.place
  let e := x.tile
  let regs : List Word := [wd e.key, wd (e.key / 2 ^ 32), wd e.addr, wd e.len, p.arg, censusId x.place p.gen,
    wd (s.coreSeen p.vf x.part p.asker.core), wd (e.attr + (if e.wside then 256 else 0))]
  { Wave.fresh with
    wg := e.wg
    pcs := (List.range 32).foldl (fun m l => sset 0#32 m l p.handler) []
    s := ssetList 0#32 [] 0 regs
    segs := sset 0#128 [] 15 p.seg15
    active := true
    prefilled := true
    lastMarked := true
    readySince := s.clk
    resident := s.clk
    resp := some ⟨x.part, x.place, x.entry, 0, e.addr, if e.wside then 0 else e.len⟩ }

/-- The first free responder slot of a core (R368). -/
def State.freeResponder (s : State) (core : Nat) : Option WaveId :=
  if (s.wave ⟨core, 0, 32⟩).isNone then some ⟨core, 0, 32⟩
  else if (s.wave ⟨core, 1, 32⟩).isNone then some ⟨core, 1, 32⟩ else none

/-- Start waiting responders while a slot is free (R368); two slots bound the starts. -/
def State.startResponders (s : State) (core : Nat) : Nat → State
  | 0 => s
  | n + 1 => match (s.core core).spawns, s.freeResponder core with
    | x :: xs, some id =>
      let w := s.responderWave x
      ((s.updCore core (fun c => { c with spawns := xs })).setWave id (some w)).startResponders core n
    | _, _ => s

/-- A responder ends with a reply: its slot is freed, the reply is kept, and the core answers if it was the last (R370, R371). -/
def State.responderEnd (s : State) (id : WaveId) (r : Responder) (reply : Reply) : State :=
  let s := s.setWave id none
  let s := s.updPlace r.part r.place (fun p => { p with
    responses := p.responses ++ [(id.core, r.entry, reply)]
    waiting := sset 0 p.waiting id.core (sget 0 p.waiting id.core - 1) })
  (s.coreAnswer r.part r.place id.core).startResponders id.core 2

/-- A responder fails: its reply is the identity with a match count of 1, and a telemetry entry of KIND 0x02 is written
(R369, R471, R472). -/
def State.responderFail (s : State) (id : WaveId) (code : Nat) : State :=
  match s.wave id with
  | none => s
  | some w => match w.resp with
    | none => s
    | some r =>
      let p := s.place r.part r.place
      let pc := optD (w.headPc) 0
      let s := s.responderEnd id r { p.identity with count := 1, fails := 1, firstCode := code }
      s.telemetry r.part (execEntry 0x02 code id.core p.ctx r.entry (s.pclk r.part) pc (censusId r.place p.gen).toNat)

end Sys2Proof.Machine
end

