-- ==== Sys2Proof/Machine/Ops.lean ====
section
/-!
DEFINITION. The shared operations of every word: fetching, the checks before a word acts and their order, its retirement
and marker, taking a fault into the handler or a containment, returning from the handler, the end of a wave, barriers and
presented copies (spec 02, 06, 09, 22, 23).
-/

namespace Sys2Proof.Machine

/-! ### Fetch (R77, R160, R478) -/

/-- A word of a core's instruction byte cache, and of its decoded-operation cache; of 64 KiB and 4,096 words, the oldest leaves for a
new one (R29). That order is the model's choice (DESIGN CHOICE, log 70). -/
def Core.keepCode (c : Core) (a : Nat) (w : Dword) : Core :=
  let c := if (sget none c.icache a).isSome then c
    else
      let gone := c.codes.take (c.codes.length - 8191)
      { c with
        icache := sset none (gone.foldl (fun m x => sdel m x) c.icache) a (some w)
        codes := c.codes.drop (c.codes.length - 8191) ++ [a] }
  if (sget none c.decoded a).isSome then c
  else
    let gone := c.decodedAt.take (c.decodedAt.length - 4095)
    { c with
      decoded := sset none (gone.foldl (fun m x => sdel m x) c.decoded) a (some w)
      decodedAt := c.decodedAt.drop (c.decodedAt.length - 4095) ++ [a] }

/-- The words that a test on their address selects leave the decoded-operation cache (R327). -/
def Core.dropDecoded (c : Core) (p : Nat → Bool) : Core :=
  { c with
    decoded := c.decoded.filter (fun e => !p e.1)
    decodedAt := c.decodedAt.filter (fun a => !p a) }

/-- The words that a test on their address selects leave both instruction caches (R271). -/
def Core.dropCodes (c : Core) (p : Nat → Bool) : Core :=
  { c.dropDecoded p with
    icache := c.icache.filter (fun e => !p e.1)
    codes := c.codes.filter (fun a => !p a) }

/-- A core's instruction caches are emptied. -/
def Core.dropCode (c : Core) : Core :=
  { c with
    icache := []
    codes := []
    decoded := []
    decodedAt := [] }

/-- The word at a PC of a segment, as a core fetches it: through the decoded-operation cache and the instruction byte cache, else
from the home; the fetch sets A (R44, R103; log 22). -/
def State.fetchAt (s : State) (core vf part : Nat) (g : BitVec 128) (pc : Word) : Except Raise Dword × State :=
  match segCheck g (8 * pc.toNat) 8 8 .fetch with
  | .error r => (.error r, s)
  | .ok va => match s.translate core vf part false true va .fetch with
    | (.ok pa _, s) =>
      let s := s.touch core vf va false
      let a := s.canon pa / 8
      match sget none (s.core core).decoded a, sget none (s.core core).icache a with
      | some w, _ => (.ok w, s)
      | none, some w => (.ok w, s.updCore core (fun c => c.keepCode a w))
      | none, none =>
        if s.poisoned pa then (.error ⟨0x10, 2, va⟩, s)
        else
          let w := BitVec.ofNat 64 (s.homeNat pa 8)
          (.ok w, s.updCore core (fun c => c.keepCode a w))
    | (.bad code d, s) => (.error ⟨code, d, va⟩, s)
    | (_, s) => (.error ⟨0x0D, 4, va⟩, s)

/-- The word a wave fetches at a PC. -/
def State.fetchWord (s : State) (id : WaveId) (w : Wave) (g : Workgroup) (pc : Word) : Except Raise Dword × State :=
  s.fetchAt id.core g.vf g.part (optD w.codeSeg (sget 0#128 w.segs 15)) pc

/-! ### Pending writes (R46, R47, R176) -/

/-- Entries that have not left the pending-write set at a cycle. -/
def Wave.live (w : Wave) (now : Nat) : List PendEntry := w.pend.filter (fun e => e.vlat || decide (now < e.ready))

/-- The code of `%fflags` in the pending-write set (R445). -/
def flagsReg : Nat := 0x3FF

/-- The registers a word reads (R176). -/
def shapeReads (s : Shape) : List Nat :=
  (s.ops.filter (fun o => o.rd)).flatMap Opn.regs ++
  (if s.pred.extractLsb' 0 3 = 0#3 then [] else [0x200 + (s.pred.extractLsb' 0 3).toNat]) ++
  (if s.readsFlags then [flagsReg] else [])

/-- The registers a word writes that meet HAZARD (R176). -/
def shapeWrites (s : Shape) : List Nat :=
  (s.ops.filter (fun o => o.wr)).flatMap Opn.regs ++ (if s.writesFlags then [flagsReg] else [])

/-- The `%xinfo` of the HAZARD that reads and writes of registers raise, if any (R176, R444). -/
def hazard (live : List PendEntry) (reads writes : List Nat) : Option Nat :=
  let entry := fun (r : Nat) => (live.filter (fun e => decide (e.reg = r))).foldl (fun acc e => some (optD acc false || e.vlat)) none
  let hit := fun (regs : List Nat) (add : Nat) => regs.findSome? (fun r =>
    (entry r).map (fun v => r + add + (if v then 2 ^ 17 else 0)))
  match hit reads 0 with
  | some x => some x
  | none => hit writes (2 ^ 16)

/-- The entries a word adds for its fixed-latency results (R176). -/
def shapeEntries (s : Shape) (now : Nat) : List PendEntry :=
  ((s.ops.filter (fun o => o.wr)).flatMap (fun o =>
    let lat := if o.olat = 0 then s.lat else o.olat
    if lat = 0 then [] else o.regs.map (fun r => ⟨r, false, now + lat, 0⟩))) ++
  (if s.setsFlags || s.writesFlags then
    [⟨flagsReg, false, now + s.ops.foldl (fun a o => max a o.olat) s.lat, 0⟩] else [])

/-! ### Checks before a word acts (R180) -/

/-- Whether a responder may issue a word (R369). -/
def responderWord (w : Dword) : Bool :=
  let op := fld w 54 8
  (fld w 62 1 == 1#1) || (decide (0x20 ≤ op.toNat) && decide (op.toNat ≤ 0x96)) ||
    op == 0x00#8 || op == 0x02#8 || op == 0x03#8 || op == 0x04#8 || op == 0x0A#8 ||
    (op == 0xA0#8 && fld w 24 2 == 0#2) || op == 0xEF#8

/-- Whether one value stands in an operand over the effective mask (R169). -/
def Ctx.uniform (c : Ctx) (o : Opn) : Bool :=
  if o.cls.k then
    let k := c.wave.kget o.field
    decide (k &&& c.eff = 0#32) || decide (k &&& c.eff = c.eff)
  else !laneVarying o.field || c.lanes.all (fun l => (List.range o.width).all (fun i =>
    decide (c.wave.opnd (o.field + i) l = c.wave.opnd (o.field + i) (lowLane c.eff))))

/-- Whether one value stands in a vector operand over every complete quarter (R291). -/
def Ctx.quarterUniform (c : Ctx) (o : Opn) : Bool :=
  !laneVarying o.field || (List.range 4).all (fun q =>
    c.eff.extractLsb' (8 * q) 8 ≠ 0xFF#8 || (List.range 8).all (fun j => (List.range o.width).all (fun i =>
      decide (c.wave.opnd (o.field + i) (8 * q + j) = c.wave.opnd (o.field + i) (8 * q)))))

/-- The first operand that breaks R169, as the `%xinfo` of NONUNIFORM (R444). -/
def Ctx.nonUniform (c : Ctx) (s : Shape) : Option Nat :=
  s.ops.findSome? (fun o =>
    if (o.oneValue && !c.uniform o) || (s.mask == .quarter && o.rd && !c.quarterUniform o) then some (o.field % 512 + o.pos * 512)
    else none)

/-- The quarters of a mask that are neither empty nor complete, or, for a whole-wave need, not complete (R42, R444). -/
def partialQuarters (need : MaskNeed) (eff : Mask) : List Nat :=
  (List.range 4).filter (fun q =>
    let b := eff.extractLsb' (8 * q) 8
    match need with
    | .any => false
    | .whole => b != 0xFF#8
    | .quarter => b != 0xFF#8 && b != 0#8)

/-- The cause of the WINDOW_LENGTH that a word at this PC raises (R43, R174, R227, R445), and the state after the look at
the word before it. -/
def State.windowCause (s : State) (c : Ctx) (sh : Shape) : Option Nat × State :=
  let w := c.wave
  let seq := w.windowPc + wd w.windowLen
  if w.lastMarked = false then
    (if c.pc ≠ seq then some 3
      else if w.windowLen = 64 then some 1
      else if sh.mustMark && !sh.m then some 5 else none, s)
  else
    let trap := sget 0xFFFFFFFF#32 s.trapbase c.ctx
    let r :=
      if w.exempt || decide (w.windowLen ≠ 0 ∧ c.pc = seq) || (decide (c.pc = c.wg.entry ∨ c.pc = trap) && w.resp.isNone) then (true, s)
      else if c.pc = 0#32 then (false, s)
      else match s.fetchWord c.id w c.wg (c.pc - 1#32) with
        | (.ok x, s) => (x.getLsbD 63, s)
        | (.error _, s) => (false, s)
    (if !r.1 then some 4 else if sh.mustMark && !sh.m then some 5 else none, r.2)

/-- The lowest feature bit a shape needs and the function has not accepted (R444). -/
def State.missingFeature (s : State) (vf : Nat) (sh : Shape) : Option Nat :=
  (sh.feats.filter (fun n => !s.hasFeat vf n)).foldl (fun acc n => some (match acc with
    | none => n
    | some m => min m n)) none

/-- The vector registers a wave has (R49, R68, R168). -/
def Ctx.vregs (c : Ctx) : Nat := if c.wave.resp.isSome then Config.responderVregs else c.wg.vregs

/-- The checks of classes 1 to 5 of R180 on a word, as code, DETAIL and `%xinfo`. -/
def State.decodeChecks (s : State) (c : Ctx) (sh : Shape) (needs : Option Bool) : Option Raise :=
  let word := c.word.toNat
  match sh.illegal with
  | some d => some ⟨0x01, d, word⟩
  | none =>
    if needs = some false then some ⟨0x01, 5, word⟩
    else match s.missingFeature c.wg.vf sh with
      | some n => some ⟨0x04, n, n⟩
      | none =>
        if sh.priv && !c.priv then some ⟨0x05, 0, word⟩
        else match sh.staticFail with
          | some (code, d) => some ⟨code, d, word⟩
          | none =>
            if sh.ops.any (fun o => o.regs.any (fun r => decide (r < 0x100 ∧ c.vregs ≤ r))) then some ⟨0x03, 8, word⟩ else none

/-- Every check of R180 before the execution faults: the first failure, if any, and the state after it. `needs` is a state
the word needs (its handler, a responder), where it needs one. -/
def State.checks (s : State) (c : Ctx) (sh : Shape) (needs : Option Bool) : Option Raise × State :=
  match s.decodeChecks c sh needs with
  | some r => (some r, s)
  | none => match s.windowCause c sh with
    | (some n, s) =>
      let first := if c.wave.lastMarked then c.pc else c.wave.windowPc
      (some ⟨0x07, 0, n + first.toNat * 2 ^ 32⟩, s)
    | (none, s) => match hazard (c.wave.live s.clk) (shapeReads sh) (shapeWrites sh) with
      | some x => (some ⟨0x06, 0, x⟩, s)
      | none =>
        let qs := partialQuarters sh.mask c.eff
        if qs ≠ [] then (some ⟨0x08, 0, c.eff.toNat + qs.foldl (fun a q => a + 2 ^ (32 + q)) 0⟩, s)
        else match c.nonUniform sh with
          | some x => (some ⟨0x09, 0, x⟩, s)
          | none => (none, s)

/-! ### Records and containment (R449, R451) -/

/-- The workgroups of an ensemble, by core and number; a plain workgroup alone. -/
def State.ensemble (s : State) (core i : Nat) : List (Nat × Nat) :=
  match s.wg core i with
  | none => []
  | some g =>
    if g.ensSize ≤ 1 then [(core, i)]
    else (s.part g.part).cores.flatMap (fun n => (s.core n).wgs.filterMap (fun e => match e.2 with
      | some h => if h.ensId = g.ensId ∧ 1 < h.ensSize then some (n, e.1) else none
      | none => none))

/-- The record of a workgroup (R449) for a fault of one of its waves. -/
def State.wgRecord (s : State) (core : Nat) (g : Workgroup) (kind code first detail xinfo : Nat) : FaultRecord :=
  { code, kind, level := 2, first, detail, ctx := g.ctx, vf := g.vf, queue := g.queue, core := s.coreSeen g.vf g.part core,
    sched := 0, slot := 0, grid := g.seq, wgx := g.wgx, wgy := g.wgy, wgz := g.wgz, pc := 0, xmask := 0, fmask := 0, xinfo,
    time := s.pclk g.part }

/-- Contain a workgroup and its ensemble: every other workgroup takes CODE and XINFO of the record with FMASK 0; a
workgroup already contained keeps its first fault (R451, R458). -/
def State.contain (s : State) (core i : Nat) (r : FaultRecord) : State :=
  (s.ensemble core i).foldl (fun s e =>
    s.updWg e.1 e.2 (fun g =>
      if g.contained.isSome then g
      else { g with contained := some (if e = (core, i) then r.bits
        else (s.wgRecord e.1 g r.kind r.code 0 0 r.xinfo).bits) })) s

/-- The barrier waits of a wave are given up (R331, R448). -/
def Wave.dropWaits (w : Wave) : Wave :=
  { w with flights := w.flights.filter (fun f => match f.op with
    | .barWait .. => false
    | _ => true) }

/-- A wave is killed by a fault: it issues nothing further, and its workgroup is contained (R448, R451). -/
def State.kill (s : State) (id : WaveId) (kind code first detail : Nat) (f : FaultInfo) : State :=
  match s.wave id with
  | none => s
  | some w => match s.wg id.core w.wg with
    | none => s
    | some g =>
      let r := { s.wgRecord id.core g kind code first detail f.xinfo.toNat with
        sched := id.sched, slot := id.slot, pc := f.pc.toNat, xmask := f.xmask.toNat, fmask := f.fmask.toNat }
      let s := s.updWave id (fun w => { w.dropWaits with
        faultPending := none
        atMarker := false
        lastMarked := true
        parked := none
        conds := []
        walk := none })
      s.contain id.core w.wg r

/-! ### Wake conditions (R56) -/

/-- Whether `a` is at or past `b` in the wrapping order of R283. -/
def wrapGe (a b : Nat) : Bool := decide ((a + 2 ^ 32 - b % 2 ^ 32) % 2 ^ 32 < 2 ^ 31)

/-- The ensemble barrier slot's key. -/
def ensKey (ens slot : Nat) : Nat := ens * 32 + slot

/-- An engine's or a wave's read of memory of a function at a virtual address, without a TLB of its own; one walk serves the 4 KiB of its
first byte, since no page is smaller (R101). -/
def State.readVa (s : State) (vf part va n : Nat) : Except (Nat × Nat) (List Byte) :=
  let first := s.walk vf va
  (List.range n).foldr (fun i acc => match acc with
    | .error e => .error e
    | .ok bs => match (if va % 4096 + i < 4096 then first else s.walk vf (va + i)) with
      | .page t =>
        let pa := t.pa + (va + i - t.va)
        match s.leafCheck vf part true t.leaf pa .load with
        | some e => .error e
        | none => if s.poisoned pa then .error (0x10, 2) else .ok (s.homeByte pa :: bs)
      | .grow _ => .ok (0#8 :: bs)
      | .bad c d => .error (c, d)) (.ok [])

/-- The descriptor of a chain number of a function (R285, R391). -/
def State.chainOf (s : State) (part vf num : Nat) : Option Chain :=
  (s.part part).chains.find? (fun x => decide (x.num = num) && decide (x.vf = vf))

/-- SEQ of a chain as memory holds it (R285). -/
def State.chainSeqWord (s : State) (part vf num : Nat) : Nat :=
  match s.chainOf part vf num with
  | none => 0
  | some x => match s.readVa vf part (x.desc + 40) 4 with
    | .ok bs => natOfBytes bs
    | .error _ => 0

/-- Whether a queue entry stands filled, or has been popped (R56). -/
def DQueue.filledOrGone (q : DQueue) (n : Nat) : Bool :=
  match q.entries.find? (fun e => decide (e.seq = n)) with
  | some e => e.filled
  | none => decide (n < q.next)

/-- Whether a wake condition of a wave is met (R56). -/
def State.wakeMet (s : State) (id : WaveId) (w : Wave) (k : Wake) : Bool :=
  match s.wg id.core w.wg with
  | none => true
  | some g =>
    match k.kind with
    | 0x01 => wrapGe (sget Barrier.fresh g.barriers k.object).gen.toNat k.value
    | 0x02 => wrapGe (sget Barrier.fresh (s.part g.part).ensBarriers (ensKey g.ensId k.object)).gen.toNat k.value
    | 0x03 => !w.flights.any (fun f => match f.op with
        | .pop q seq count _ => decide (q = k.object) && decide ((if count = 0 then seq else seq + count - 1) = k.value) &&
            !(decide (0 < count) && (List.range count).all (fun i => (sget DQueue.empty g.queues q).filledOrGone (seq + i)))
        | _ => false)
    | 0x04 => !(sget DQueue.empty g.queues k.object).held.any (fun h => decide (h.w = id))
    | 0x05 => !w.flights.any (fun f => decide (f.tag = k.value))
    | 0x06 => !w.flights.any (fun f => match f.op with
        | .acquire _ va attempt _ _ _ _ _ => !attempt && decide (va / 8 = k.object)
        | _ => false)
    | 0x07 =>
      let x := w.census.getD k.value CensusSlot.empty
      !x.busy || x.complete
    | 0x08 => decide (w.batches.length ≤ k.value)
    | 0x09 => wrapGe (sget Channel.fresh g.channels k.object).ptr.toNat k.value
    | 0x0A => wrapGe (s.chainSeqWord g.part g.vf k.object) k.value
    | 0x0B => decide (k.value ≤ s.pclk g.part)
    | 0x0C => match w.walk with
        | some h => h.refused || !h.demand
        | none => true
    | 0x0D => w.prefilled
    | 0x0E => match w.walk with
        | some h => h.done
        | none => true
    | _ => true

/-! ### The active set (R54, R57, R58) -/

/-- Whether a wave wants an active slot: not parked, not stopped. -/
def Wave.wantsActive (w : Wave) : Bool := w.parked.isNone && !w.stopped && w.resp.isNone

/-- The waves of a scheduler. -/
def State.schedWaves (s : State) (core sched : Nat) : List (WaveId × Wave) :=
  ((s.core core).waveList core).filter (fun e => decide (e.1.sched = sched) && e.2.resp.isNone)

/-- The wave of a list with the least value of a measure, the first on ties. -/
def leastBy (f : Wave → Nat) (l : List (WaveId × Wave)) : Option (WaveId × Wave) :=
  l.foldl (fun acc e => match acc with
    | none => some e
    | some b => if f e.2 < f b.2 then some e else acc) none

/-- A pending wave takes an active slot; its lines are prefilled again (R50, R57, R58). -/
def Wave.enter (w : Wave) (now : Nat) : Wave := { w with active := true, activeSince := now, prefilled := false, yields := none }

/-- An active wave gives its slot up. -/
def Wave.depart (w : Wave) (now : Nat) : Wave :=
  { w with active := false, yields := none, readySince := if w.parked.isNone then now else w.readySince }

/-- Fill free active slots with the pending waves ready longest; a parked active wave gives its slot up (R57). -/
def State.rebalance (s : State) (core sched : Nat) : State :=
  let ws := s.schedWaves core sched
  let act := ws.filter (fun e => e.2.active)
  match leastBy (fun w => w.readySince) (ws.filter (fun e => !e.2.active && e.2.wantsActive)) with
  | none => s
  | some (p, _) =>
    let enter := fun (s : State) => s.updWave p (fun w => w.enter s.clk)
    if act.length < 8 then enter s
    else match leastBy (fun w => w.parkedAt) (act.filter (fun e => e.2.parked.isSome)) with
      | none => s
      | some (q, _) => enter (s.updWave q (fun w => w.depart s.clk))

/-! ### Taking a fault (R239 to R242, R448, R463) -/

/-- The trap save area of a lane (R240). -/
def saveArea (s : State) (part : Nat) (w : Wave) (f : FaultInfo) (l : Nat) : BitVec 128 :=
  let bit := fun (b : Bool) (n : Nat) => if b then 2 ^ n else 0
  let held := match w.held with
    | some h => (min (2 ^ 32 - 1) (h.deadline - s.pclk part)) * 2 ^ 96 + h.pc.toNat * 2 ^ 64
    | none => 0
  BitVec.ofNat 128 (held + bit (f.fmask.getLsbD l) 34 + bit (f.xmask.getLsbD l) 33 + bit (w.heldMask.getLsbD l) 32 +
    bit (w.exited.getLsbD l) 31 + (w.pcOf l).toNat % 2 ^ 31)

/-- Write the trap save areas of all lanes; the first failing store stops it. -/
def State.writeSaveAreas (s : State) (id : WaveId) (w : Wave) (g : Workgroup) (f : FaultInfo) :
    Except (Nat × Nat × Nat) State :=
  lanes.foldl (fun acc l => (List.range 4).foldl (fun acc j => match acc with
    | .error e => .error e
    | .ok t => t.recordWrite id.core g.vf g.part g.ctx w.record (privAddr w.record g.vregs (4 * j) l)
        (bytesOfNat (bitsN (saveArea s g.part w f l) (32 * j + 31) (32 * j)) 4)) acc) (.ok s)

/-- Enter the handler at `base` (R239, steps 2 to 5). A refused map of a save area parks the wave with the fault pending; any
other failing save-area store is a double fault (R463). -/
def State.enterHandler (s : State) (id : WaveId) (w : Wave) (g : Workgroup) (base : Word) (f : FaultInfo) : State :=
  match s.writeSaveAreas id w g f with
  | .ok t => t.setWave id (some { w with
      xpc := f.pc
      xmask := f.xmask
      fmask := f.fmask
      xcode := wd f.code
      xinfo := f.xinfo
      held := none
      inHandler := true
      faultPending := none
      pcs := (List.range 32).foldl (fun m l => sset 0#32 m l base) []
      exited := 0#32
      lastMarked := true
      exempt := false
      windowLen := 0
      prefilled := false
      atMarker := false
      walk := none
      parked := none
      stopped := w.stopPending
      stopPending := false
      codeSeg := none
      segs := g.segs })
  | .error (0x0F, _, va) =>
    let pool := s.poolOf g.vf
    let s := s.quotaEvent g.vf va pool (optD (s.mapRefused pool) 0) 0
    s.setWave id (some { w with
      faultPending := some f
      walk := some ⟨va, true, true, false, s.clk, true⟩
      parked := some ⟨0x0C, va / 65536, 0⟩
      parkedAt := s.clk })
  | .error (_, _, va) => s.kill id 1 0x18 f.code 0 { f with xinfo := BitVec.ofNat 64 va }

/-- Deliver a fault at a wave whose pending-write set is empty (R448). -/
def State.deliver (s : State) (id : WaveId) (f : FaultInfo) : State :=
  match s.wave id with
  | none => s
  | some w =>
    if w.resp.isSome then s.responderFail id f.code
    else match s.wg id.core w.wg with
      | none => s
      | some g =>
        let w := { w.dropWaits with faultPending := none, conds := [], parked := none }
        let w := if f.after then w else w.pcSets (lanesOf f.xmask) (fun _ => f.pc)
        let base := sget 0xFFFFFFFF#32 s.trapbase g.ctx
        if w.inHandler then s.kill id 1 0x18 w.xcode.toNat 0 f
        else if base = 0xFFFFFFFF#32 then s.kill id 0 f.code 0 f.detail f
        else s.enterHandler id w g base f

/-- A fault is raised at a wave: it is delivered at once if the pending-write set is empty, else when it has emptied (R183). -/
def State.raiseFault (s : State) (id : WaveId) (f : FaultInfo) : State :=
  match s.wave id with
  | none => s
  | some w =>
    if w.resp.isSome then s.responderFail id f.code
    else
      let s := s.setWave id (some { w with faultPending := some f, atMarker := false, walk := none, slice := none })
      if w.live s.clk = [] then s.deliver id f else s

/-- A word raises a fault precisely, with no effect, for a set of lanes. -/
def State.raiseAt (s : State) (c : Ctx) (r : Raise) (fmask : Mask) : State :=
  s.raiseFault c.id ⟨r.code, r.detail, c.pc, c.active, fmask, BitVec.ofNat 64 r.xinfo, false⟩

/-! ### Markers (R47, R52, R265, R521) -/

/-- The registers that a wave's `.live` table marks dead after a word: their lines are dropped without write-back, and a later read
finds a free value (R52). -/
def State.dropDead (s : State) (id : WaveId) (g : Workgroup) (pc : Word) : State :=
  match g.live.find? (fun e => decide (e.1 = pc.toNat)) with
  | none => s
  | some e =>
    let s := s.updCore id.core (fun c => c.dropLines (waveKey id) (fun r => e.2.contains r))
    let s := s.updWave id (fun w => { w with dead := e.2.foldl (fun z r => z ||| (1#256 <<< r)) w.dead })
    e.2.foldl (fun s r => lanes.foldl (fun (s : State) l =>
      { (s.updWave id (fun w => w.vset r l (Config.freeWord s.free))) with free := s.free + 1 }) s) s

/-- A wave is reported to the debug function (R244, R257, R419). -/
def State.debugReport (s : State) (id : WaveId) (vf code : Nat) (pc : Word) : State :=
  { s with debugReports := s.debugReports ++ [⟨vf, id, code, pc⟩] }

/-- The end of a window: dead registers dropped, the segments of the workgroup taken for the next window, a pending debug
stop taken (R48, R52, R255, R419). -/
def State.endWindow (s : State) (id : WaveId) (w : Wave) (g : Workgroup) : State :=
  let s := s.dropDead id g (w.windowPc + wd w.windowLen - 1#32)
  s.updWave id (fun w => { w with
    atMarker := false
    prefilled := false
    segs := if w.resp.isSome then w.segs else g.segs
    codeSeg := none
    stopped := w.stopped || w.stopPending
    stopPending := false })

/-- The exchange that a pending wave waits for takes place at the marker of the wave that it displaces (R58). -/
def State.exchange (s : State) (id : WaveId) : State :=
  match s.wave id with
  | none => s
  | some w => match w.yields with
    | none => s
    | some slot => match s.wave ⟨id.core, id.sched, slot⟩ with
      | none => s.updWave id (fun w => { w with yields := none })
      | some v =>
        if w.active && !v.active && v.wantsActive then
          (s.updWave id (fun w => w.depart s.clk)).updWave ⟨id.core, id.sched, slot⟩ (fun w => w.enter s.clk)
        else s.updWave id (fun w => { w with yields := none })

/-- Take a wave that stands at a marker as far as it goes: park on its earliest unmet condition, wait for its pending-write
set, deliver a deferred fault, or end the window. A parked wave stays parked until its wake (R47, R58, R265, R521). -/
def State.settle (s : State) (id : WaveId) : State :=
  match s.wave id with
  | none => s
  | some w =>
    if w.atMarker = false then s
    else match s.wg id.core w.wg with
      | none => s
      | some g =>
        let live := w.live s.clk
        let unmet := w.conds.find? (fun k => !s.wakeMet id w k)
        let w := { w with pend := live }
        match w.deferred, decide (live = []) && (w.lastMarked || unmet.isSome) with
        | some f, true => (s.setWave id (some { w with deferred := none, atMarker := false, prefilled := false })).deliver id f
        | _, _ => if w.parked.isSome then s.setWave id (some w) else match unmet with
          | some k => (s.setWave id (some { w with parked := some k, parkedAt := s.clk })).rebalance id.core id.sched
          | none =>
            let w := { w with conds := [] }
            if live ≠ [] then s.setWave id (some w)
            else if w.lastMarked then ((s.setWave id (some w)).endWindow id w g).exchange id
            else s.setWave id (some { w with atMarker := false })

/-- A record of a wave's fault that no handler will see: KIND 3, LEVEL 1 (R474, R521). -/
def State.waveRecord (s : State) (id : WaveId) (g : Workgroup) (code detail xinfo : Nat) (pc : Word) (xmask fmask : Mask) : State :=
  s.postRecord g.vf { s.wgRecord id.core g 3 code 0 detail xinfo with
    level := 1
    sched := id.sched
    slot := id.slot
    pc := pc.toNat
    xmask := xmask.toNat
    fmask := fmask.toNat }.bits

/-- A deferred fault of an access becomes known: the one whose word issued first of the known ones is kept; after the wave's exit it causes a
record (R521). -/
def State.deferFault (s : State) (id : WaveId) (f : Flight) (code detail : Nat) (fmask : Mask) (xinfo : Nat) : State :=
  match s.wave id with
  | none => s
  | some w =>
    if w.resp.isSome then s.responderFail id code
    else if w.exited = 0xFFFFFFFF#32 then match s.wg id.core w.wg with
      | some g => s.waveRecord id g code detail xinfo f.pc f.xmask fmask
      | none => s
    else
      let own := w.atMarker && w.lastMarked && decide (f.pc = w.windowPc + wd w.windowLen - 1#32)
      let info : FaultInfo := ⟨code, detail, f.pc, f.xmask, fmask, BitVec.ofNat 64 xinfo, !own⟩
      if w.deferred.isSome ∧ w.deferredTag ≤ f.tag then s
      else (s.setWave id (some { w with
        deferred := some info
        deferredTag := f.tag })).settle id

/-! ### Accesses in flight -/

/-- The codes of the registers from a field on (R445). -/
def regsFrom (reg n : Nat) : List Nat := (List.range n).map (fun i => reg + i)

/-- The applied mask of a core: the revocation slots of its partition whose REVOKE it has applied (R328). -/
def State.appliedMask (s : State) (core part : Nat) : BitVec 8 :=
  BitVec.ofNat 8 ((List.range 8).foldl (fun m n =>
    m + (if (sget Revocation.empty (s.part part).revs n).applied.contains core then 2 ^ n else 0)) 0)

/-- Start an access of a wave: it takes the next tag, and the registers it will write enter the pending-write set. -/
def State.launch (s : State) (c : Ctx) (op : FlightOp) (regs : List Nat) : State :=
  let t := s.tags
  { (s.updWave c.id (fun w => { w with
      flights := w.flights ++ [⟨t, c.pc, c.active, c.eff, op, s.appliedMask c.core c.wg.part⟩]
      pend := w.pend ++ regs.map (fun r => ⟨r, true, 0, t⟩) })) with tags := t + 1 }

/-- Record a blocking condition (R265). -/
def State.record (s : State) (c : Ctx) (k : Wake) : State := s.updWave c.id (fun w => { w with conds := w.conds ++ [k] })

/-- Whether an access makes the wave's later vector-path accesses wait (R123, R275 to R278, R342). -/
def FlightOp.blocks : FlightOp → Bool
  | .acquire .. | .linkage .. | .release .. | .bindRegion .. | .fence _ | .registry .. | .barWait .. => true
  | _ => false

/-- An access that leaves the core only now carries the applied mask as it stands now (R278, R328; log 18). -/
def Flight.leave (f : Flight) (mask : BitVec 8) : Flight :=
  let op := match f.op with
    | .load accs size signed reg mode priv _ => FlightOp.load accs size signed reg mode priv mask
    | .fill queue seq accs size signed scalar mode _ => FlightOp.fill queue seq accs size signed scalar mode mask
    | op => op
  { f with
    op := op
    applied := mask }

/-- Flights after the end of the access `tag`: where it made later ones wait, those that now wait for nothing leave. -/
def Wave.flightsAfter (w : Wave) (tag : Nat) (mask : BitVec 8) : List Flight :=
  let before := w.flights.takeWhile (fun f => decide (f.tag ≠ tag))
  match w.flights.drop before.length with
  | [] => w.flights
  | e :: rest =>
    if !e.op.blocks || before.any (fun f => f.op.blocks) then before ++ rest
    else
      let free := rest.takeWhile (fun f => !f.op.blocks)
      before ++ free.map (fun f => f.leave mask) ++ ((rest.drop free.length).take 1).map (fun f => f.leave mask) ++
        rest.drop (free.length + 1)

/-- An access of a wave ends: its entries leave the pending-write set and a marker that waited goes on. -/
def State.endFlight (s : State) (id : WaveId) (tag : Nat) : State :=
  let mask := match s.wave id with
    | some w => match s.wg id.core w.wg with
      | some g => s.appliedMask id.core g.part
      | none => 0#8
    | none => 0#8
  (s.updWave id (fun w => { w with
    flights := w.flightsAfter tag mask
    pend := w.pend.filter (fun e => !(e.vlat && decide (e.tag = tag))) })).settle id

/-- Whether an earlier access of the wave blocks the access with a tag. -/
def Wave.blockedBefore (w : Wave) (tag : Nat) : Bool := (w.flights.takeWhile (fun f => decide (f.tag ≠ tag))).any (fun f => f.op.blocks)

/-- Whether a new access of the wave would wait. -/
def Wave.blocked (w : Wave) : Bool := w.flights.any (fun f => f.op.blocks)

/-- Whether an `xfence` to a path has not completed (R126, R279). -/
def Wave.fencedTo (w : Wave) (path : Nat) : Bool := w.flights.any (fun f => match f.op with
  | .xfence _ q _ _ => decide (q = path)
  | _ => false)

/-! ### Barriers (R237, R238) -/

/-- The waves of a workgroup that wait at a barrier slot, by index (R237). -/
def State.waiters (s : State) (core i kind slot : Nat) : List Nat :=
  ((s.wavesOf core i).filter (fun e => e.2.conds.any (fun k => decide (k.kind = kind) && decide (k.object = slot)))).map
    (fun e => e.2.index)

/-- The waves of a workgroup, by index, whose arrival at a slot still waits for their earlier accesses: as a release, it is counted once
these have been performed (R123). -/
def State.arriving (s : State) (core i : Nat) (ens : Bool) (slot : Nat) : List Nat :=
  ((s.wavesOf core i).filter (fun e => e.2.flights.any (fun f => match f.op with
    | .arrive e' x => e' == ens && decide (x = slot)
    | _ => false))).map (fun e => e.2.index)

/-- Complete a workgroup's barrier slot when every wave has arrived for its generation or has exited, and at least one has
not exited. The waves that wait lose their recorded arrival. -/
def State.barCheck (s : State) (core i slot : Nat) : State :=
  match s.wg core i with
  | none => s
  | some g =>
    let b := sget Barrier.fresh g.barriers slot
    let waves := List.range g.waves
    let late := s.arriving core i false slot
    if waves.all (fun n => g.exitedWaves.getLsbD n || (decide (sget none b.arrivals n = some b.gen) && !late.contains n)) &&
        waves.any (fun n => !g.exitedWaves.getLsbD n && decide (sget none b.arrivals n = some b.gen)) then
      let left := (s.waiters core i 0x01 slot).foldl (fun m n => sset none m n none) b.arrivals
      s.updWg core i (fun g => { g with barriers := sset Barrier.fresh g.barriers slot ⟨b.gen + 1#32, left⟩ })
    else s

/-- The same for an ensemble's slot: the waves of every workgroup of the ensemble count. -/
def State.ensBarCheck (s : State) (core i slot : Nat) : State :=
  match s.wg core i with
  | none => s
  | some g =>
    let b := sget Barrier.fresh (s.part g.part).ensBarriers (ensKey g.ensId slot)
    let es := s.ensemble core i
    let gs := es.filterMap (fun e => s.wg e.1 e.2)
    let late := es.any (fun e => decide (s.arriving e.1 e.2 true slot ≠ []))
    let arrived := fun (h : Workgroup) (n : Nat) => decide (sget none b.arrivals (h.ensRank * 32 + n) = some b.gen)
    if !late && gs.all (fun h => (List.range h.waves).all (fun n => h.exitedWaves.getLsbD n || arrived h n)) &&
        gs.any (fun h => (List.range h.waves).any (fun n => !h.exitedWaves.getLsbD n && arrived h n)) then
      let left := es.foldl (fun m e => match s.wg e.1 e.2 with
        | some h => (s.waiters e.1 e.2 0x02 slot).foldl (fun m n => sset none m (h.ensRank * 32 + n) none) m
        | none => m) b.arrivals
      s.updPart g.part (fun p => { p with
        ensBarriers := sset Barrier.fresh p.ensBarriers (ensKey g.ensId slot) ⟨b.gen + 1#32, left⟩ })
    else s

/-- A wave that has issued a word for a run of lanes: its place in the window, and its marker (R38, R43, R47, R174). -/
def Wave.issued (w : Wave) (pc : Word) (run : Mask) (m : Bool) (now : Nat) : Wave :=
  { w with
    run := if w.lastMarked then run else w.run
    stalled := none
    windowPc := if w.lastMarked then pc else w.windowPc
    windowLen := if w.lastMarked then 1 else w.windowLen + 1
    lastMarked := m
    exempt := false
    divert := if w.lastMarked then none else w.divert
    walk := none
    lastIssue := now
    firstIssue := match w.firstIssue with
      | some t => some t
      | none => some now
    atMarker := m
    resp := w.resp.map (fun r => { r with issued := r.issued + 1 }) }

/-! ### Presented copies (R280, R281, R497) -/

/-- The local space of a copy direction, and whether the copy writes global memory (R280). -/
def copySpace (dir : Nat) : Space := if dir % 3 = 0 then .sp else if dir % 3 = 1 then .wb else .ab

/-- The failure of one slice of R281, after the rule that the slices agree; its segment is the presenting wave's (R255). -/
def sliceFail (g : Workgroup) (w : Wave) (x : Slice) : Option Raise :=
  let space := copySpace x.dir
  let own := x.loc + spaceCode space * 2 ^ 60
  if x.len % 64 ≠ 0 ∨ 2 ^ 24 < x.len then some ⟨0x03, 10, own⟩
  else match segCheck (sget 0#128 w.segs x.seg) x.offset x.len 1 (if x.dir < 3 then .load else .store) with
    | .error r => some r
    | .ok va =>
      if va % 64 ≠ 0 then some ⟨0x0C, 0, va⟩
      else if x.loc % 64 ≠ 0 then some ⟨0x0C, 0, own⟩
      else if g.usable space < x.loc + x.len then some ⟨0x0B, 0, own⟩
      else none

/-- Decide a workgroup's copy once every unexited wave presents a slice: reject it at every wave, or accept it (R281). The copy takes
the next number of the accesses as its id, so that no two copies of the machine share one (R283). -/
def State.copyDecide (s : State) (core i : Nat) : State :=
  match s.wg core i with
  | none => s
  | some g =>
    let ws := (s.wavesOf core i).filter (fun e => decide (e.2.exited ≠ 0xFFFFFFFF#32))
    let sorted := (List.range 32).flatMap (fun n => ws.filter (fun e => decide (e.2.index = n)))
    let xs := sorted.filterMap (fun e => e.2.slice.map (fun x => (e.1, e.2, x)))
    match xs with
    | [] => s
    | (_, _, x0) :: _ =>
      if xs.length < sorted.length then s
      else
        let fail :=
          if xs.any (fun e => decide (e.2.2.dir ≠ x0.dir ∨ e.2.2.chan ≠ x0.chan)) then
            some (⟨0x03, 10, x0.loc + spaceCode (copySpace x0.dir) * 2 ^ 60⟩ : Raise)
          else xs.findSome? (fun e => sliceFail g e.2.1 e.2.2)
        match fail with
        | some r => xs.foldl (fun s e => s.raiseFault e.1
            ⟨r.code, r.detail, e.2.2.pc, 0xFFFFFFFF#32, 0xFFFFFFFF#32, BitVec.ofNat 64 r.xinfo, false⟩) s
        | none =>
          let cid := s.tags
          let s := { s with tags := cid + 1 }
          let parts := (xs.filter (fun e => decide (e.2.2.len ≠ 0))).map (fun e =>
            (⟨cid, e.2.1.index, e.2.2.pc, e.2.2.dir,
              segBase (sget 0#128 e.2.1.segs e.2.2.seg) + e.2.2.offset.toNat, e.2.2.loc, e.2.2.len, none⟩ : CopyPart))
          let s := s.updWg core i (fun g =>
            let ch := sget Channel.fresh g.channels x0.chan
            { g with channels := sset Channel.fresh g.channels x0.chan { ch with todo := ch.todo ++ parts } })
          xs.foldl (fun s e => (s.updWave e.1 (fun w =>
            let w := (w.pcSets (lanesOf 0xFFFFFFFF#32) (fun _ => e.2.2.pc + 1#32)).issued e.2.2.pc 0xFFFFFFFF#32 e.2.2.m s.clk
            { w with
              slice := none
              openBatch := if parts = [] then w.openBatch else w.openBatch ++ [cid]
              openChan := match w.openChan with
                | some n => some n
                | none => some x0.chan })).settle e.1) s

/-! ### The end of waves and workgroups (R39, R80, R230, R362) -/

/-- Remove a workgroup whose waves have all ended once nothing of it is left: no directory entry, copy, command or responder
(R80, R362). Its SMP slots become free. -/
def State.removeWg (s : State) (core i : Nat) (g : Workgroup) : State :=
  let s := s.updCore core (fun c => { c with
    wgs := sset none c.wgs i none
    smp := c.smp.foldl (fun m e => if e.2.tag = i ∧ e.2.state ≠ .free then sset SmpSlot.empty m e.1 SmpSlot.empty else m) c.smp })
  s.updPart g.part (fun p => { p with grids := match sget none p.grids g.grid with
    | some x => sset none p.grids g.grid (some { x with done := x.done + 1, placed := x.placed - 1 })
    | none => p.grids })

/-- Free the slots of waves that have exited and have nothing in flight, and the workgroups that have ended. -/
def State.tidy (s : State) (core : Nat) : State :=
  let dead := ((s.core core).waveList core).filter (fun e => decide (e.2.exited = 0xFFFFFFFF#32) && decide (e.2.flights = []) &&
    e.2.resp.isNone)
  let s := dead.foldl (fun s e => s.setWave e.1 none) s
  (s.core core).wgs.foldl (fun s e => match e.2 with
    | none => s
    | some g =>
      let c := s.core core
      if g.contained.isNone && (List.range g.waves).all (fun n => g.exitedWaves.getLsbD n) && decide (s.wavesOf core e.1 = []) &&
          !c.dirs.any (fun d => decide (d.2.wg = e.1) && decide (d.2.state ≠ .free)) &&
          !g.channels.any (fun h => decide (h.2.todo ≠ [])) && !c.cmds.any (fun k => decide (k.wg = e.1)) &&
          !(c.waveList core).any (fun r => r.2.resp.isSome && decide (r.2.wg = e.1)) &&
          !c.spawns.any (fun x => decide (x.tile.wg = e.1)) then s.removeWg core e.1 g
      else s) s

/-- Send a delete commit for a directory entry that no access awaits, unless one is under way (R362). -/
def State.sendDelete (s : State) (part core entry : Nat) : State :=
  let p := s.part part
  if (p.rootInbox ++ p.rootLog.drop (s.core core).rootSeen).any (fun m => match m with
    | .delete n e _ _ => decide (n = core) && decide (e = entry)
    | _ => false) then s
  else s.updPart part (fun p => { p with rootInbox := p.rootInbox ++ [.delete core entry ⟨core, 0, 0⟩ 0] })

/-- What follows when a wave's last lane has exited: its unreported failures are recorded, its token and its register lines are
free, it counts at every barrier, a copy no longer waits for it, and with the workgroup's last wave its directory entries are deleted
and the private data of its records is dropped (R39, R55, R97, R237, R280, R362, R474, R521). -/
def State.waveEnd (s : State) (id : WaveId) (w : Wave) (g : Workgroup) : State :=
  let s := match w.deferred with
    | some f => s.waveRecord id g f.code f.detail f.xinfo.toNat f.pc f.xmask f.fmask
    | none => s
  let s := match w.ladderFail with
    | some (cmd, reason) => s.waveRecord id g 0x14 0 (cmd + reason * 2 ^ 16) 0#32 0#32 0#32
    | none => s
  let s := s.updWave id (fun w => { w.dropWaits with
    deferred := none
    ladderFail := none
    pend := []
    conds := []
    parked := none
    held := none
    active := false
    atMarker := false })
  let s := s.updCore id.core (fun c => (if sget none c.token id.sched = some id.slot then
    { c with token := sset none c.token id.sched none, row := sset 0 c.row id.sched 0 } else c).dropLines (waveKey id) (fun _ => true))
  let s := s.updWg id.core w.wg (fun g => { g with exitedWaves := g.exitedWaves ||| (1#32 <<< w.index) })
  let s := (List.range 17).foldl (fun s n => s.barCheck id.core w.wg n) s
  let s := if 1 < g.ensSize then (List.range 17).foldl (fun s n => s.ensBarCheck id.core w.wg n) s else s
  let s := s.copyDecide id.core w.wg
  let last := match s.wg id.core w.wg with
    | some g => (List.range g.waves).all (fun n => g.exitedWaves.getLsbD n)
    | none => false
  let s := if last then
      let s := s.dropPriv id.core false g.records
      (s.core id.core).dirs.foldl (fun s d =>
        if d.2.wg = w.wg ∧ d.2.state = .valid then s.sendDelete g.part id.core d.1 else s) s
    else s
  (s.tidy id.core).rebalance id.core id.sched

/-- Lanes of a wave exit (R230). -/
def State.exitLanes (s : State) (id : WaveId) (m : Mask) : State :=
  match s.wave id with
  | none => s
  | some w =>
    let w := { w with exited := w.exited ||| m }
    let s := s.setWave id (some w)
    if w.exited = 0xFFFFFFFF#32 then
      match s.wg id.core w.wg with
      | some g => s.waveEnd id w g
      | none => s.setWave id none
    else s

/-! ### Held sets (R233, R467) -/

/-- Release the held set of a wave, by arrival or by timeout. -/
def Wave.release (w : Wave) (h : HeldSet) (timeout : Bool) : Wave :=
  let ls := lanesOf h.mask
  let w := { w with held := none }
  let w := w.pcSets ls (fun _ => h.pc + 1#32)
  if h.aux = 0 then w else w.kset h.aux (maskWith (w.kget h.aux) h.mask (fun _ => timeout))

/-- Evaluate a wave's held set at a cycle: arrival before the deadline. -/
def Wave.heldEval (w : Wave) (now : Nat) : Wave :=
  match w.held with
  | none => w
  | some h =>
    if !(w.runnable.any (fun l => decide ((w.pcOf l).toNat ≤ h.target.toNat))) then w.release h false
    else if h.deadline ≤ now then w.release h true else w

/-- Evaluate a wave's held set now (R233). -/
def State.heldCheck (s : State) (id : WaveId) : State :=
  match s.wave id with
  | none => s
  | some w => match s.wg id.core w.wg with
    | none => s
    | some g => if w.held.isNone then s else s.setWave id (some (w.heldEval (s.pclk g.part)))

/-! ### Return from the handler (R243, R453, R466) -/

/-- `tret`: rebuild the PC table, exit bits and held set from the save areas and leave the handler. -/
def State.trapReturn (s : State) (c : Ctx) : State :=
  let g := c.wg
  let read := fun (l j : Nat) =>
    match s.recordRead c.core g.vf g.part (privAddr c.wave.record g.vregs (4 * j) l) 4 with
    | .ok bs => Except.ok (natOfBytes bs)
    | .error e => .error e
  let area := fun (l : Nat) => (List.range 4).foldr (fun j acc => match read l j, acc with
    | .ok x, .ok xs => .ok (x :: xs)
    | .error e, _ => .error e
    | _, .error e => .error e) (Except.ok [])
  let all := lanes.foldr (fun l acc => match area l, acc with
    | .ok x, .ok xs => .ok (x :: xs)
    | .error e, _ => .error e
    | _, .error e => .error e) (Except.ok [])
  match all with
  | .error (code, d, va) => s.raiseAt c ⟨code, d, va⟩ c.eff
  | .ok areas =>
    let word := fun (l j : Nat) => (areas.getD l []).getD j 0
    let exited := maskOf (lanes.filter (fun l => (word l 0).testBit 31))
    let heldLanes := lanes.filter (fun l => (word l 1).testBit 0 && !exited.getLsbD l)
    let w := { c.wave with
      pcs := lanes.foldl (fun m l => sset 0#32 m l (wd (word l 0 % 2 ^ 31))) []
      exited := exited
      inHandler := false
      held := none
      lastMarked := true
      exempt := true
      windowLen := 0
      prefilled := false
      segs := g.segs
      codeSeg := none
      divert := some 0 }
    let (w, s) := match heldLanes with
      | [] => (w, s)
      | l :: _ =>
        let hp := wd (word l 2)
        match s.fetchWord c.id c.wave g hp with
        | (.ok x, s) => match decode x with
          | .instr (.rwait b) => ({ w with held := some ⟨hp, hp + b.offset, s.pclk g.part + word l 3,
              maskOf heldLanes, (b.aux.extractLsb' 0 3).toNat⟩ }, s)
          | _ => (w, s)
        | (.error _, s) => (w, s)
    let s := s.setWave c.id (some w)
    if exited = 0xFFFFFFFF#32 then s.exitLanes c.id exited else s

/-! ### Diversion (R324, R330 to R332) -/

/-- Whether a core's replica shows a region as REVOKED: every revocation in flight that revoked it has been applied there (R326,
R327). -/
def Part.revokedAt (p : Part) (core n : Nat) : Bool :=
  decide ((sget Region.empty p.regions n).state = .revoked) &&
    p.revs.all (fun r => !(r.2.busy && r.2.regions.contains n && !r.2.applied.contains core))

/-- The lowest region that a core shows REVOKED and that matches a PC of a context whose `g15` starts at `base` (R324). -/
def Part.revokedRegion (p : Part) (core ctx base pc : Nat) : Option (Nat × Region) :=
  p.regions.find? (fun e => decide (e.2.owner = ctx) && decide (e.2.base = base) && decide (e.2.start.toNat ≤ pc) &&
    decide (pc < e.2.stop.toNat) && p.revokedAt core e.1)

/-- The record word of a diversion (R332). -/
def diversionWord (cause kind region object : Nat) : Nat := 2 ^ 31 + cause * 2 ^ 28 + kind * 2 ^ 21 + region * 2 ^ 10 + object * 2

/-- Write a word of a lane's private area, as the device's own access; a store that fails is dropped (log 23). -/
def State.privWord (s : State) (id : WaveId) (w : Wave) (g : Workgroup) (o lane x : Nat) : State :=
  match s.recordWrite id.core g.vf g.part g.ctx w.record (privAddr w.record g.vregs o lane) (bytesOfNat x 4) with
  | .ok s => s
  | .error _ => s

/-- The diversion of a wave at a diversion point: each unexited lane inside a matching REVOKED region goes to its fallback, its
former PC and record kept in its private area (R330). -/
def State.divertWave (s : State) (id : WaveId) (cause kind : Nat) : State :=
  match s.wave id with
  | none => s
  | some w => match s.wg id.core w.wg with
    | none => s
    | some g =>
      let p := s.part g.part
      let base := segBase (sget 0#128 w.segs 15)
      let hits := (lanes.filter (fun l => !w.exited.getLsbD l)).filterMap (fun l =>
        (p.revokedRegion id.core g.ctx base (w.pcOf l).toNat).map (fun r => (l, r)))
      if hits = [] ∨ w.resp.isSome then s
      else
        let s := hits.foldl (fun s h =>
          (s.privWord id w g 16 h.1 (w.pcOf h.1).toNat).privWord id w g 20 h.1 (diversionWord cause kind h.2.1 h.2.2.breaking)) s
        s.updWave id (fun w =>
          let w := hits.foldl (fun w h => w.pcSet h.1 h.2.2.fallback) w
          { w with
            exempt := true
            lastMarked := true
            prefilled := false
            held := none
            divert := none
            codeSeg := none
            walk := none })

/-- The diversion point before a window's first word: a marked wave records CAUSE 0 and its KIND, another entered the region
(CAUSE 1); a wave that was parked inside a window is diverted before it issues again (R330 to R332). -/
def State.divertPoint (s : State) (id : WaveId) : State :=
  match s.wave id with
  | none => s
  | some w =>
    if w.inHandler then s
    else match w.divert with
      | some k => if w.lastMarked || decide (k ≠ 0) then s.divertWave id 0 k else s
      | none => if w.lastMarked then s.divertWave id 1 0 else s

/-! ### Issue -/

/-- What a word's effect answers: done (the active lanes go on to the next word), moved (it set the PCs itself), a fault of
some lanes, or not issued yet (R165, R183, R265, R477). -/
inductive Res where
  | done (s : State)
  | moved (s : State)
  | raise (r : Raise) (lanes : Mask) (s : State)
  | stay (s : State)

/-- The word a wave issues: its head run (R37) and what it issues with. -/
def State.ctxFor (s : State) (id : WaveId) (word : Dword) (pred : BitVec 4) (m : Bool) : Option Ctx :=
  match s.wave id with
  | none => none
  | some w => match w.headRun, s.wg id.core w.wg with
    | some (pc, active), some g => some ⟨id, w, g, pc, active, predMask w active pred, word, m⟩
    | _, _ => none

/-- The state a word needs: `tret` its handler, `resp.end` a responder. -/
def wordNeeds (i : Instr) (w : Wave) : Option Bool := match i with
  | .tret _ => some w.inHandler
  | .respEnd _ => some w.resp.isSome
  | _ => none

/-- The scheduler's counts of an issued word: words issued, words in a row of the token's holder, and the last issue of a
responder (R54, R256). A word of another wave ends the holder's row, a responder's too: R54 does not say whether a responder's
issue between two issues of the holder breaks the run of 32 (DESIGN CHOICE, log 71). -/
def State.countIssue (s : State) (id : WaveId) : State :=
  let resp := match s.wave id with
    | some w => w.resp.isSome
    | none => false
  s.updCore id.core (fun k => { k with
    perf := sset 0 k.perf 0 (sget 0 k.perf 0 + 1)
    row := sset 0 k.row id.sched (if sget none k.token id.sched = some id.slot then sget 0 k.row id.sched + 1 else 0)
    respAt := if resp then sset 0 k.respAt id.sched (s.clk + 1) else k.respAt })

/-- A word has issued: the lanes advance, its fixed-latency results enter the pending-write set, the register lines it names are
used, the window and the counters advance, and a marker takes effect (R47, R51, R62, R160, R176, R256). -/
def State.retire (s : State) (sh : Shape) (c : Ctx) (moved : Bool) : State :=
  let now := s.clk
  let s := s.updWave c.id (fun w =>
    let w := if moved then w else w.pcSets (lanesOf c.active) (fun _ => c.pc + 1#32)
    let w := { w with lastMarked := c.wave.lastMarked, pend := w.live now ++ shapeEntries sh now }
    w.issued c.pc c.active c.m now)
  let vregs := fun (p : Opn → Bool) => ((sh.ops.filter p).flatMap Opn.regs).filter (fun r => decide (r < 0x100))
  let s := s.updCore c.core (fun k => k.markLines c.id now (vregs (fun o => o.rd)) (vregs (fun o => o.wr)))
  ((s.countIssue c.id).heldCheck c.id).settle c.id

/-- A word whose marker must first empty the pending-write set waits at it (R227). -/
def State.waitAtMarker (s : State) (c : Ctx) : State :=
  (s.updWave c.id (fun w => { w with atMarker := true })).settle c.id

/-- The checks of a word and its effect. -/
def State.issueBody (s : State) (sh : Shape) (needs : Option Bool) (c : Ctx) (body : Ctx → State → Res) : State :=
  match s.checks c sh needs with
  | (some r, s) => s.raiseAt c r c.eff
  | (none, s) =>
    if sh.mustMark && (decide (c.wave.live s.clk ≠ []) || decide (c.wave.conds ≠ [])) then s.waitAtMarker c
    else match body c s with
      | .done s => s.retire sh c false
      | .moved s => s.retire sh c true
      | .raise r ls s => s.raiseAt c r ls
      | .stay s => s

/-- Issue a word of a wave; a responder may issue 256 words of the forms of R369 (R369, R471). -/
def State.issue (s : State) (sh : Shape) (needs : Option Bool) (c : Ctx) (body : Ctx → State → Res) : State :=
  match c.wave.resp with
  | some r =>
    if 256 ≤ r.issued then s.responderFail c.id 0x07
    else if !responderWord c.word then s.responderFail c.id 0x01
    else s.issueBody sh needs c body
  | none => s.issueBody sh needs c body

/-- The meaning of an instruction word: the wave named by `cur` issues it; where no such wave has a lane to run, the step
stops. -/
def issueWord (i : Instr) (s : State) (body : Ctx → State → Res) : Host.Outcome State Fault Refusal :=
  let sh := i.shape
  match s.ctxFor s.cur (optD (encode i) 0#64) sh.pred sh.m with
  | none => .fault .noWave
  | some c => .next (s.issue sh (wordNeeds i c.wave) c body)

end Sys2Proof.Machine
end

