-- ==== Sys2Proof/Machine/Sched.lean ====
section
/-!
DEFINITION. The schedulers: which wave issues next, the prefill of a window, and the fetch of the word it issues
(spec 02 R44, R50, R54; 06 R174, R180; 24 R478).
-/

namespace Sys2Proof.Machine

/-! ### Selection (R54) -/

/-- Whether a wave can issue: it holds an active slot, waits for nothing, has a lane to run, has not had to wait in this cycle, and is not held at a precise point
by a containment or a hard pre-emption (R40, R47, R48, R57, R61, R280, R419, R451, R477). -/
def State.ready (s : State) (id : WaveId) (w : Wave) : Bool :=
  w.active && w.parked.isNone && !w.stopped && !w.atMarker && w.faultPending.isNone && w.slice.isNone && w.headPc.isSome &&
    decide (w.stalled ≠ some s.clk) && (match w.walk with
      | none => true
      | some h => h.done || h.refused) &&
    (w.resp.isSome || !w.lastMarked || ((s.core id.core).preempt.isNone && (match s.wg id.core w.wg with
      | some g => g.contained.isNone
      | none => false)))

/-- The ordinary wave a scheduler selects: the holder of the token, unless it has issued 32 words in a row and another is
ready; else the wave that has gone longest without issuing (R54). -/
def State.pickOrdinary (s : State) (core sched : Nat) (ws : List (WaveId × Wave)) : Option WaveId :=
  let c := s.core core
  let tok := ws.find? (fun e => decide (sget none c.token sched = some e.1.slot))
  match tok with
  | some e =>
    if sget 0 c.row sched < 32 ∨ ws.length ≤ 1 then some e.1
    else (leastBy (fun w => w.lastIssue) (ws.filter (fun x => x.1 ≠ e.1))).map (·.1)
  | none => (leastBy (fun w => w.lastIssue) ws).map (·.1)

/-- The wave a scheduler selects: a ready responder first, but not in the cycle after a responder has issued there, if another wave is
ready (R54). -/
def State.pick (s : State) (core sched : Nat) : Option WaveId :=
  let all := ((s.core core).waveList core).filter (fun e => decide (e.1.sched = sched) && s.ready e.1 e.2)
  let ord := all.filter (fun e => e.2.resp.isNone)
  match all.find? (fun e => e.2.resp.isSome) with
  | some r =>
    let last := sget 0 (s.core core).respAt sched
    if decide (last ≠ 0) && decide (last = s.clk) && decide (ord ≠ []) then s.pickOrdinary core sched ord else some r.1
  | none => s.pickOrdinary core sched ord

/-- The word at a wave's head PC, or the fault of its fetch. -/
def State.fetchHead (s : State) (id : WaveId) : Except Raise Dword × State :=
  match s.wave id with
  | none => (.ok 0#64, s)
  | some w => match w.headRun, s.wg id.core w.wg with
    | some (pc, _), some g => s.fetchWord id w g pc
    | _, _ => (.ok 0#64, s)

/-- Whether a wave's next word is a `dq.pop`. -/
def State.popsNext (s : State) (id : WaveId) : Bool := match (s.fetchHead id).1 with
  | .ok x => decide (fld x 62 1 = 0#1) && decide (fld x 54 8 = 0xA9#8)
  | .error _ => false

/-- Core × 4 + scheduler of every scheduler with resident waves that has not had its turn in this cycle. -/
def State.schedOrder (s : State) : List Nat :=
  ((skeys s.cores).flatMap (fun n => [4 * n, 4 * n + 1, 4 * n + 2, 4 * n + 3])).filter (fun x => !s.issued.contains x)

/-- The next wave to issue in this cycle: the schedulers in ascending order, those whose word is a `dq.pop` after the others, so that
a pop sees the pushes of its cycle (R54, R92). -/
def State.nextWave (s : State) : Option WaveId :=
  match s.schedOrder.findSome? (fun x => match s.pick (x / 4) (x % 4) with
    | some id => if s.popsNext id then none else some id
    | none => none) with
  | some id => some id
  | none => s.schedOrder.findSome? (fun x => s.pick (x / 4) (x % 4))

/-! ### Prefill (R43, R44, R50, R51, R56) -/

/-- The vector registers the words of a window name, from a PC on, at most 64 words. -/
def State.windowRegs (s : State) (id : WaveId) (w : Wave) (g : Workgroup) (pc : Word) : Nat → List Nat × State
  | 0 => ([], s)
  | n + 1 => match s.fetchWord id w g pc with
    | (.error _, s) => ([], s)
    | (.ok x, s) =>
      let mine := match rawInstr x with
        | .reserved _ => []
        | .instr i => (i.shape.ops.flatMap (fun o => o.regs)).filter (fun r => decide (r < 0x100))
      if x.getLsbD 63 then (mine, s)
      else
        let (rest, s) := s.windowRegs id w g (pc + 1#32) n
        (mine ++ rest, s)

/-- Whether the word at a wave's head PC fails a check of R180 that comes before the length of its window. -/
def State.headFails (s : State) (id : WaveId) (w : Wave) (g : Workgroup) (pc : Word) (active : Mask) : Bool :=
  match s.fetchWord id w g pc with
  | (.ok x, s) => match rawInstr x with
    | .instr i =>
      let sh := i.shape
      (s.decodeChecks ⟨id, w, g, pc, active, predMask w active sh.pred, x, sh.m⟩ sh (wordNeeds i w)).isSome
    | .reserved _ => true
  | (.error _, _) => true

/-- The absent lines of a window's set are read into the register-file cache (R50, R256). -/
def State.fillLines (s : State) (id : WaveId) (absent : List Nat) : State :=
  let s := s.makeRoom id.core id.sched absent.length
  let zero := match s.wave id with
    | some w => w.zeros
    | none => 0#256
  (absent.foldl (fun (s : State) r => s.lineIn id r) s).updCore id.core (fun c => { c with
    rf := absent.foldl (fun m r => sset RfLine.absent m (lineKey id r) ⟨true, zero.getLsbD r, s.clk⟩) c.rf
    perf := sset 0 c.perf 6 (sget 0 c.perf 6 + absent.length) })

/-- The prefill of a wave's window: the lines its words name come into the register-file cache; a window that names more than 128
registers raises WINDOW_LENGTH at its first word unless that word fails an earlier check. With a line that misses the L1, or
more than 64 absent, the wave parks until the prefill is done, and a ready pending wave takes its slot. A wave that comes
back into the active set inside a window has that window's lines filled again (R50, R56, R57). -/
def State.prefill (s : State) (id : WaveId) : State :=
  match s.wave id with
  | none => s
  | some w => match s.wg id.core w.wg, w.headRun with
    | some g, some (pc, active) =>
      if w.prefilled then s
      else
        let (regs, s) := if w.lastMarked then
            let r := s.windowRegs id w g pc 64
            (dedup r.1, r.2)
          else (w.window, s)
        let absent := regs.filter (fun r => !((s.core id.core).line (lineKey id r)).present)
        if 128 < regs.length ∧ s.headFails id w g pc active = false then
          s.raiseFault id ⟨0x07, 0, pc, active, active, BitVec.ofNat 64 (2 + pc.toNat * 2 ^ 32), false⟩
        else
          let s := s.updWave id (fun w => { w with window := regs })
          if w.parked.isNone && (decide (64 < absent.length) || absent.any (fun r => s.lineMisses id w g r)) then
            (s.updWave id (fun w => { w with
              parked := some ⟨0x0D, pc.toNat, 0⟩
              parkedAt := s.clk })).rebalance id.core id.sched
          else (s.fillLines id absent).updWave id (fun w => { w with
            prefilled := true
            parked := if (w.parked.map (·.kind)) = some 0x0D then none else w.parked })
    | _, _ => s

/-- Whether a wave stands before a window that has not been prefilled. -/
def State.needsPrefill (s : State) (id : WaveId) : Bool :=
  match s.wave id with
  | some w => !w.prefilled
  | none => false

/-! ### The word a wave issues -/

/-- A wave about to issue comes to a diversion point before a window's first word, and the window takes the segments that the workgroup
has bound (R255, R330). -/
def State.windowStart (s : State) (id : WaveId) : State :=
  let s := s.divertPoint id
  match s.wave id with
  | none => s
  | some w => if !w.lastMarked || w.resp.isSome then s
    else match s.wg id.core w.wg with
      | some g => s.updWave id (fun w => { w with
          segs := g.segs
          codeSeg := none })
      | none => s

/-- The encoding of a word that reached issue is no instruction: the first failing check of R180 is raised at the word (R179). A
responder fails with that code, or with 0x01 where it may not issue the word at all (R369, R471). -/
def State.encodingFault (s : State) (id : WaveId) (word : Dword) : State :=
  match s.wave id with
  | none => s
  | some w => match w.headRun, s.wg id.core w.wg with
    | some (pc, active), some g =>
      match rawInstr word with
        | .reserved d => s.raiseFault id ⟨0x01, d, pc, active, active, word, false⟩
        | .instr i =>
          if w.resp.isSome && !responderWord word then s.responderFail id 0x01
          else
          let sh := i.shape
          let c : Ctx := ⟨id, w, g, pc, active, predMask w active sh.pred, word, sh.m⟩
          match s.decodeChecks c sh (wordNeeds i w) with
          | some r => s.raiseAt c r c.eff
          | none => s
    | _, _ => s

/-- A fetch fault at the head run's PC (R160, R478). -/
def State.fetchFault (s : State) (id : WaveId) (r : Raise) : State :=
  match s.wave id with
  | none => s
  | some w => match w.headRun with
    | none => s
    | some (pc, active) => s.raiseFault id ⟨r.code, r.detail, pc, active, active, BitVec.ofNat 64 r.xinfo, false⟩

end Sys2Proof.Machine
end

