-- ==== Sys2Proof/Machine/Flight.lean ====
section
/-!
DEFINITION. Accesses of a wave: how a word checks and translates the addresses of its lanes, and how an access in flight is
performed, in the order its wave issued it (spec 03 R74, R78, R105; 04 R120, R128; 10 R261 to R278; 24 R477, R480, R484).
-/

namespace Sys2Proof.Machine

/-! ### Checking and translating lanes (R74, R447, R477, R480) -/

/-- The address that stands for an unmapped GROW page: a read there returns zeros (R105). -/
def growPa : Nat := 2 ^ 52

/-- How one lane's address comes out. -/
inductive LaneRes where
  | err (r : Raise)
  | ok (a : LaneAcc) (uncached : Bool)
  | grow (lane va : Nat)
  | miss (va : Nat)
  deriving DecidableEq, Repr

/-- What checking the lanes of a word answers: the accesses, each with whether its page is uncached; a fault; or a hold for a
translation or a demand map. -/
inductive Access where
  | ready (accs : List (LaneAcc × Bool)) (s : State)
  | raise (r : Raise) (m : Mask) (s : State)
  | hold (s : State)

/-- The accesses without their page kinds. -/
def plainAccs (accs : List (LaneAcc × Bool)) : List LaneAcc := accs.map (fun a => a.1)

/-- Check and translate one lane's address. -/
def State.laneRes (s : State) (c : Ctx) (device walk : Bool) (k : AccKind) (lane : Nat) (x : Except Raise Nat) : LaneRes × State :=
  match x with
  | .error r => (.err r, s)
  | .ok va => match s.translate c.core c.wg.vf c.wg.part device walk va k with
    | (.ok pa leaf, s) => (.ok ⟨lane, va, s.canon pa⟩ (decide (pteMtype leaf ≠ 0)), s)
    | (.grow _, s) => (if k.writes then .grow lane va else .ok ⟨lane, va, growPa⟩ false, s)
    | (.bad code d, s) => (.err ⟨code, d, va⟩, s)
    | (.miss, s) => (.miss va, s)

/-- Check and translate every lane's address, in order. -/
def State.laneAll (s : State) (c : Ctx) (device walk : Bool) (k : AccKind) (ls : List (Nat × Except Raise Nat)) :
    List (Nat × LaneRes) × State :=
  ls.foldl (fun (acc : List (Nat × LaneRes) × State) x =>
    let r := acc.2.laneRes c device walk k x.1 x.2
    (acc.1 ++ [(x.1, r.1)], r.2)) ([], s)

/-- The lanes whose map was refused raise QUOTA (R482). -/
def refuseLanes (walk : Option WalkHold) (rs : List (Nat × LaneRes)) : List (Nat × LaneRes) :=
  match walk with
  | some h =>
    if h.refused then rs.map (fun (x : Nat × LaneRes) => match x.2 with
      | .grow _ va => if va / 65536 = h.va / 65536 then (x.1, LaneRes.err ⟨0x0F, 0, va⟩) else x
      | _ => x) else rs
  | none => rs

/-- Check and translate the addresses of a word's lanes: `one` says that it is one access for the wave (R261). A miss holds
the word before any fault is raised; a store to an unmapped GROW page holds it for the map; a refused map raises QUOTA. -/
def State.access (s : State) (c : Ctx) (device one : Bool) (k : AccKind) (ls : List (Nat × Except Raise Nat)) : Access :=
  let walk := match c.wave.walk with
    | some h => h.done || h.refused
    | none => false
  let all := s.laneAll c device walk k ls
  let s := all.2
  let rs : List (Nat × LaneRes) := refuseLanes c.wave.walk all.1
  let held := fun (va : Nat) (demand : Bool) =>
    Access.hold ((if demand then s else s.startWalk c.core c.wg.vf va).updWave c.id (fun w => { w with
      walk := some ⟨va, k.writes, demand, false, s.clk, false⟩ }))
  match rs.findSome? (fun (x : Nat × LaneRes) => match x.2 with
    | .miss va => some va
    | _ => none) with
  | some va => held va false
  | none =>
    let bad := rs.filterMap (fun (x : Nat × LaneRes) => match x.2 with
      | .err r => some (x.1, r)
      | _ => none)
    match bad with
    | (_, r) :: _ => .raise r (if one then c.eff else maskOf (bad.map (fun (x : Nat × Raise) => x.1))) s
    | [] => match rs.findSome? (fun (x : Nat × LaneRes) => match x.2 with
        | .grow _ va => some va
        | _ => none) with
      | some va => held va true
      | none =>
        let accs := rs.filterMap (fun (x : Nat × LaneRes) => match x.2 with
          | .ok a u => some (a, u)
          | _ => none)
        .ready accs ((dedup (accs.map (fun (a : LaneAcc × Bool) => a.1.va / 4096))).foldl (fun s p => s.touch c.core c.wg.vf (4096 * p) k.writes) s)

/-! ### Addresses of M-format words (R163, R261, R262) -/

/-- The lanes that access: the effective lanes, or one of them where the access is made once for the wave. -/
def Ctx.accLanes (c : Ctx) (one : Bool) : List Nat := if one then c.lanes.take 1 else c.lanes

/-- Whether a word accesses once for the wave: a scalar BASE with a scalar data register (R261). -/
def onceFor (w : MWord) : Bool := w.sbase && isS w.d.toNat

/-- The signed offset of a word that uses all of IMM24. -/
def immAll (w : MWord) : Int := w.imm.toInt

/-- The signed offset in the low `n` bits of IMM24 (R262). -/
def immLow (w : MWord) (n : Nat) : Int := sInt n w.imm.toNat

/-- The 64-bit offset of a lane: SInt64 of the BASE pair plus the immediate (R74). -/
def Ctx.goff (c : Ctx) (w : MWord) (imm : Int) (lane : Nat) : Int :=
  let f := w.gbase.field
  sInt 64 (pair64 (c.wave.opnd f lane) (c.wave.opnd (f + 1) lane)) + imm

/-- The segment a word names. -/
def Ctx.seg (c : Ctx) (w : MWord) : BitVec 128 := sget 0#128 c.wave.segs w.seg.toNat

/-- The addresses of a word's lanes, checked against its segment (R74). -/
def Ctx.gaddrs (c : Ctx) (w : MWord) (imm : Int) (one : Bool) (size align : Nat) (k : AccKind) : List (Nat × Except Raise Nat) :=
  (c.accLanes one).map (fun l => (l, segCheck (c.seg w) (c.goff w imm l) size align k))

/-! ### Data -/

/-- The words a loaded value takes in its registers (R164). -/
def loadWords (size : Nat) (signed : Bool) (bs : List Byte) : List Word :=
  if size < 4 then [if signed then wdI (sInt (8 * size) (natOfBytes bs)) else wd (natOfBytes bs)]
  else (List.range (size / 4)).map (fun i => wd (natOfBytes ((bs.drop (4 * i)).take 4)))

/-- The writes of words to consecutive registers of a lane. -/
def wordWrites (reg lane : Nat) (ws : List Word) : List RegWrite :=
  (List.range ws.length).zip ws |>.map (fun p => ⟨reg + p.1, lane, p.2⟩)

/-- The `size` low bytes of a stored operand of a lane (R263). -/
def Ctx.storeData (c : Ctx) (d : BitVec 9) (size lane : Nat) : List Byte :=
  ((List.range ((size + 3) / 4)).flatMap (fun i => bytesOfNat (c.wave.opnd (d.toNat + i) lane).toNat 4)).take size

/-- The bytes a word stores, ascending lanes (R269). -/
def Ctx.storeList (c : Ctx) (d : BitVec 9) (size : Nat) (accs : List LaneAcc) : List (Nat × Byte) :=
  accs.flatMap (fun a => byteList a.pa (c.storeData d size a.lane))

/-! ### Order among the accesses of a wave (R128, R273 to R278) -/

/-- The words of memory an access touches. -/
def FlightOp.words : FlightOp → List Nat
  | .load accs size _ _ _ _ _ => accs.flatMap (fun a => [a.pa / 4, (a.pa + size - 1) / 4])
  | .prefetch accs size _ => accs.flatMap (fun a => [a.pa / 4, (a.pa + size - 1) / 4])
  | .fill _ _ accs size _ _ _ _ => accs.flatMap (fun a => [a.pa / 4, (a.pa + size - 1) / 4])
  | .store bytes _ => wordsOf bytes
  | .atomic _ _ size todo _ _ _ => todo.flatMap (fun a => [a.acc.pa / 4, (a.acc.pa + size - 1) / 4])
  | .callRead entry _ _ _ => [entry.pa / 4, entry.pa / 4 + 1]
  | .acquire cell _ _ _ _ _ _ _ | .release cell _ | .bindRegion cell _ _ _ _ _ | .linkage cell _ _ _ => [cell / 4, cell / 4 + 1]
  | _ => []

/-- Whether an access of the vector path has not been performed (R122). -/
def FlightOp.unperformed : FlightOp → Bool
  | .load .. | .prefetch .. | .linkage .. | .callRead .. | .fill .. | .store .. | .atomic .. | .acquire .. | .release .. | .bindRegion ..
  | .fence _ | .remote .. | .later .. | .spAtomic .. | .registry .. | .rung .. => true
  | _ => false

/-- Whether an access is an atomic or a store that has not been performed. -/
def FlightOp.pendingWrite : FlightOp → Bool
  | .store .. | .atomic .. => true
  | _ => false

/-- Whether an access may be performed: nothing of its wave blocks it, and no earlier unperformed write of the wave touches
its words. -/
def Wave.canPerform (w : Wave) (f : Flight) : Bool :=
  !w.blockedBefore f.tag && (w.flights.takeWhile (fun e => decide (e.tag ≠ f.tag))).all (fun e =>
    !(e.op.pendingWrite && e.op.words.any (fun x => f.op.words.contains x)))

/-- The physical addresses of an access. -/
def FlightOp.addrs : FlightOp → List Nat
  | .load accs .. | .prefetch accs .. | .fill _ _ accs .. => accs.map (fun a => a.pa)
  | .linkage cell _ entry _ => [cell, entry]
  | .callRead e .. => [e.pa]
  | .atomic _ _ _ todo _ _ _ => todo.map (fun a => a.acc.pa)
  | .store bytes _ => bytes.map (fun b => b.1)
  | .acquire cell .. | .release cell _ | .bindRegion cell .. => [cell]
  | _ => []

/-- Whether an access stays in the package, or a port can carry it (R506). -/
def State.carried (s : State) (op : FlightOp) : Bool :=
  (List.range 18).any (fun n => s.portLive n) || !op.addrs.any (fun a => s.isRemote a)

/-- Whether an access may be performed, and reaches its home. -/
def State.canPerform (s : State) (w : Wave) (f : Flight) : Bool := w.canPerform f && s.carried f.op

/-- Whether a store a wave issues must wait for its earlier accesses. -/
def Wave.mustQueue (w : Wave) (bytes : List (Nat × Byte)) : Bool :=
  w.blocked || w.flights.any (fun e => e.op.pendingWrite && e.op.words.any (fun x => (wordsOf bytes).contains x))

/-- An access in flight by its tag. -/
def Wave.flight (w : Wave) (tag : Nat) : Option Flight := w.flights.find? (fun f => decide (f.tag = tag))

/-- An access in flight with a new operation. -/
def Wave.setOp (w : Wave) (tag : Nat) (op : FlightOp) : Wave :=
  { w with flights := w.flights.map (fun f => if f.tag = tag then { f with op := op } else f) }

/-! ### Atomic operations (R272) -/

/-- The new value of an atomic operation on a word of `size` bytes. -/
def atomNew (op size old v : Nat) : Nat :=
  let w := 8 * size
  match op with
  | 0x0 => (old + v) % 2 ^ w
  | 0x1 => if sInt w old ≤ sInt w v then old else v
  | 0x2 => if sInt w old ≤ sInt w v then v else old
  | 0x3 => min old v
  | 0x4 => max old v
  | 0x5 => Nat.land old v
  | 0x6 => Nat.lor old v
  | 0x7 => Nat.xor old v
  | 0x8 => v
  | 0x9 => (f32.fadd 0 false old v).1
  | 0xA => (f32.fminmax false old v).1
  | _ => (f32.fminmax true old v).1

/-- One read-modify-write of a scratchpad word per lane, ascending: the old values (R274). `op` 0xF is the compare and swap of
`x` with `y`. -/
def spAtomics (op size : Nat) (c : Core) (todo : List (Nat × Nat × Nat × Nat)) : List (Nat × Nat) × Core :=
  todo.foldl (fun acc t =>
    let old := natOfBytes (acc.2.spaceBytes .sp t.2.1 size)
    let x := t.2.2.1
    let y := t.2.2.2
    let new := if op = 0xF then (if old = x then y else old) else atomNew op size old x
    (acc.1 ++ [(t.1, old)], acc.2.setSpaceBytes .sp t.2.1 (bytesOfNat new size))) ([], c)

/-- Perform an `atom.sp` now: its register writes. -/
def State.doSpAtomic (s : State) (core op size : Nat) (todo : List (Nat × Nat × Nat × Nat)) (reg : Nat) : List RegWrite × State :=
  let r := spAtomics op size (s.core core) todo
  (r.1.flatMap (fun o => wordWrites reg o.1 (loadWords size false (bytesOfNat o.2 size))), s.setCore core r.2)

/-! ### Performing accesses -/

/-- The bytes of one lane's load, `nl1` as the modes `.nl1` read. -/
def State.loadLane (s : State) (core part : Nat) (nl1 : Bool) (mask : BitVec 8) (a : LaneAcc) (size : Nat) : List Byte :=
  if a.pa = growPa then List.replicate size 0#8 else s.readBytes core part nl1 mask a.pa size

/-- Whether one lane's load meets poison, in the pending read that serves it or at the home (R484, R496). -/
def State.lanePoison (s : State) (core : Nat) (nl1 : Bool) (mask : BitVec 8) (a : LaneAcc) : Bool :=
  a.pa ≠ growPa && (match (s.core core).pending nl1 mask (s.canon a.pa / 64) with
    | some m => m.poison
    | none => s.poisoned a.pa)

/-- The sectors of a read: one that misses the L1 is counted and goes to the slices unless a pending read serves it; a line that hits
is used. `nl1` leaves the L1 alone (R98, R124, R164, R256). -/
def State.fillLoad (s : State) (core part vf mode : Nat) (nl1 : Bool) (mask : BitVec 8) (size : Nat) (accs : List LaneAcc) : State :=
  let as := accs.filter (fun a => decide (a.pa ≠ growPa))
  (dedup (as.map (fun a => s.canon a.pa / 64))).foldl (fun (s : State) sec =>
    let miss := as.any (fun a => decide (s.canon a.pa / 64 = sec) && (List.range size).any (fun i => s.l1Miss core (a.pa + i)))
    let s := if miss then s.updCore core (fun c => { c with perf := sset 0 c.perf 4 (sget 0 c.perf 4 + 1) }) else s
    if miss || nl1 then s.request core part vf nl1 (decide (mode = 1)) (decide (mode = 3)) mask sec
    else s.useLine core (sec / 8) (decide (mode = 1))) s

/-- The partition of a wave's workgroup. -/
def State.partOfWave (s : State) (id : WaveId) : Nat :=
  match s.wave id with
  | none => 0
  | some w => match s.wg id.core w.wg with
    | some g => g.part
    | none => 0

/-- The function of a wave. -/
def State.vfOfWave (s : State) (id : WaveId) : Nat :=
  match s.wave id with
  | none => 96
  | some w => match s.wg id.core w.wg with
    | some g => g.vf
    | none => 96

/-- The context of a wave. -/
def State.ctxOfWave (s : State) (id : WaveId) : Nat :=
  match s.wave id with
  | none => 0
  | some w => match s.wg id.core w.wg with
    | some g => g.ctx
    | none => 0

/-- The record of a wave. -/
def State.recordOf (s : State) (id : WaveId) : Nat := match s.wave id with
  | some w => w.record
  | none => 0

/-- What a direct load reads first: its sectors, global or private, as they enter the L1 (R97, R98). -/
def State.fetchLoad (s : State) (id : WaveId) (accs : List LaneAcc) (size mode : Nat) (priv : Bool) (mask : BitVec 8) : State :=
  if priv then s.fillPriv id.core (s.recordOf id) ((accs.filter (fun a => decide (a.pa ≠ growPa))).map (fun a => a.pa))
  else s.fillLoad id.core (s.partOfWave id) (s.vfOfWave id) mode (decide (mode = 2)) mask size accs

/-- The bytes of one lane's direct load, once its sectors have been fetched. -/
def State.laneBytes (s : State) (id : WaveId) (size mode : Nat) (priv : Bool) (mask : BitVec 8) (a : LaneAcc) : List Byte :=
  if a.pa = growPa then List.replicate size 0#8
  else if priv then (List.range size).map (fun i => s.privByte id.core (a.pa + i))
  else s.loadLane id.core (s.partOfWave id) (decide (mode = 2)) mask a size

/-- Read a direct load now: its register writes, the lanes that met poison, and the state after it. -/
def State.readLoad (s : State) (id : WaveId) (accs : List LaneAcc) (size : Nat) (signed : Bool) (reg mode : Nat) (priv : Bool)
    (mask : BitVec 8) : List RegWrite × List LaneAcc × State :=
  let s := s.fetchLoad id accs size mode priv mask
  let bad := fun (a : LaneAcc) => s.lanePoison id.core (decide (mode = 2)) mask a
  let ws := (dedup (accs.map (fun a => a.lane))).flatMap (fun l =>
    let bs := (accs.filter (fun a => decide (a.lane = l))).flatMap (fun a =>
      if bad a then List.replicate size 0#8 else s.laneBytes id size mode priv mask a)
    wordWrites reg l (loadWords bs.length signed bs))
  (ws, accs.filter bad, s)

/-- A local space's bytes of the pieces of a load of one lane, or private bytes where no space is named. -/
def State.readPieces (s : State) (core : Nat) (space : Option Space) (accs : List (Nat × Nat)) (n lane : Nat) : List Byte :=
  (accs.filter (fun a => decide (a.1 = lane))).flatMap (fun a => match space with
    | some x => (s.core core).spaceBytes x a.2 n
    | none => if a.2 = growPa then List.replicate n 0#8 else (List.range n).map (fun i => s.privByte core (a.2 + i)))

/-- Read the pieces of a local or private load: its register writes. -/
def State.readLocal (s : State) (core : Nat) (space : Option Space) (accs : List (Nat × Nat)) (size : Nat) (signed : Bool)
    (reg : Nat) : List RegWrite :=
  (dedup (accs.map (fun a => a.1))).flatMap (fun l =>
    wordWrites reg l (loadWords size signed (s.readPieces core space accs (min size 4) l)))

/-- Write bytes of a local space in ascending order of the list. -/
def State.writeSpace (s : State) (core : Nat) (x : Space) (bytes : List (Nat × Byte)) : State :=
  s.updCore core (fun c => bytes.foldl (fun c b => c.setSpaceBytes x b.1 [b.2]) c)

/-- Private bytes of a wave enter its core's L1 (R97, R270). -/
def State.storePriv (s : State) (id : WaveId) (bytes : List (Nat × Byte)) : State :=
  bytes.foldl (fun (s : State) b => s.storeByte id.core (s.ctxOfWave id) (s.recordOf id + 1) b.1 b.2) s

/-- Write bytes of a local space of a wave's core, or private bytes. -/
def State.writeLocal (s : State) (id : WaveId) (space : Option Space) (bytes : List (Nat × Byte)) : State :=
  match space with
  | some x => s.writeSpace id.core x bytes
  | none => s.storePriv id bytes

/-- The words of a queue entry's data for the lanes that loaded (R90, R266): one entry per word of the size, lanes of a wave
load; a scalar load keeps its words in the first lanes of one entry. -/
def fillData (accs : List LaneAcc) (size : Nat) (signed scalar : Bool) (read : LaneAcc → List Byte) : List (List Word) :=
  let n := if scalar then 1 else sizeRegs size
  let ws := accs.map (fun a => (a.lane, loadWords size signed (read a)))
  if scalar then [(ws.head?.map (fun w => w.2)).getD []]
  else (List.range n).map (fun i => Sys2Proof.lanes.map (fun l => match ws.find? (fun w => decide (w.1 = l)) with
    | some w => w.2.getD i 0#32
    | none => 0#32))

/-- The core offset of an entry of a queue in its workgroup's queue area (R91). -/
def Workgroup.entryPlace (g : Workgroup) (q seq : Nat) : Nat :=
  let depth := fun (i : Nat) => (sget DQueue.empty g.queues i).depth
  g.sp.start + g.usable .sp + 128 * ((List.range q).foldl (fun a i => a + depth i) 0 + seq % depth q)

/-- The entries of a push become filled; their words stand in the queue area too (R91, R266, R267). -/
def State.fillEntries (s : State) (core wg queue seq : Nat) (data : List (List Word)) (poison : Option Nat) : State :=
  let s := s.updWg core wg (fun g =>
    let q := sget DQueue.empty g.queues queue
    { g with queues := sset DQueue.empty g.queues queue { q with
      entries := q.entries.map (fun e => if seq ≤ e.seq ∧ e.seq < seq + data.length
        then { e with
          filled := true
          data := data.getD (e.seq - seq) []
          poison := if e.poison.isSome then e.poison else poison } else e) } })
  match s.wg core wg with
  | none => s
  | some g => (List.range data.length).foldl (fun (s : State) i => s.updCore core (fun c =>
      c.setSpaceBytes .sp (g.entryPlace queue (seq + i)) ((data.getD i []).flatMap (fun x => bytesOfNat x.toNat 4)))) s

/-- Whether a push has not entered its queue (R266). -/
def State.pushHeld (s : State) (core wg queue tag : Nat) : Bool :=
  match s.wg core wg with
  | some g => (sget DQueue.empty g.queues queue).held.any (fun h => decide (h.tag = tag))
  | none => false

/-- Wake checks of every wave of a workgroup that waits (R265). -/
def State.settleWg (s : State) (core wg : Nat) : State := (s.wavesOf core wg).foldl (fun s e => s.settle e.1) s

/-- Perform an access of a wave that may be performed: a load reads its data and becomes a result, a store writes, a fill
fills its entries. Other accesses are left as they are. -/
def State.perform (s : State) (id : WaveId) (f : Flight) : State :=
  match s.wave id with
  | none => s
  | some w =>
    match f.op with
    | .load accs size signed reg mode priv mask =>
      let (ws, bad, s) := s.readLoad id accs size signed reg mode priv mask
      if bad = [] then s.updWave id (fun w => w.setOp f.tag (.result ws)) else s
    | .prefetch accs size mode =>
      (s.fillLoad id.core (s.partOfWave id) (s.vfOfWave id) mode (decide (mode = 3)) f.applied size accs).endFlight id f.tag
    | .fill queue seq accs size signed scalar mode mask =>
      if s.pushHeld id.core w.wg queue f.tag then s else
      let s := s.fetchLoad id accs size mode false mask
      let bad := accs.filter (fun a => s.lanePoison id.core (decide (mode = 2)) mask a)
      let data := fillData accs size signed scalar (fun a => s.laneBytes id size mode false mask a)
      ((s.fillEntries id.core w.wg queue seq data (bad.head?.map (fun a => a.va / 64 * 64))).endFlight id f.tag).settleWg id.core w.wg
    | .store bytes uncached =>
      (s.storeBytes id.core (s.ctxOfWave id) uncached bytes).endFlight id f.tag
    | .later write space accs size signed reg data =>
      if write then (s.writeLocal id space data).endFlight id f.tag
      else s.updWave id (fun w => w.setOp f.tag (.result (s.readLocal id.core space accs size signed reg)))
    | .spAtomic op size todo reg =>
      let (ws, s) := s.doSpAtomic id.core op size todo reg
      s.updWave id (fun w => w.setOp f.tag (.result ws))
    | _ => s

/-- Perform, in issue order, the earlier accesses of a wave that may be performed. -/
def State.performAll (s : State) (id : WaveId) (upTo : Option Nat) : State :=
  match s.wave id with
  | none => s
  | some w =>
    let fs := match upTo with
      | some t => w.flights.takeWhile (fun (f : Flight) => decide (f.tag ≠ t))
      | none => w.flights
    fs.foldl (fun s f => match s.wave id with
      | none => s
      | some w => if s.canPerform w f then s.perform id f else s) s

/-- Perform an access after the earlier ones of its wave that may be performed, so that it overtakes none of them. -/
def State.performOne (s : State) (id : WaveId) (f : Flight) : State := (s.performAll id (some f.tag)).perform id f

/-- Perform the stores and local accesses of a wave that no longer wait. -/
def State.drain (s : State) (id : WaveId) : State :=
  match s.wave id with
  | none => s
  | some w => w.flights.foldl (fun s f => match f.op, s.wave id with
    | .store .., some w | .later .., some w | .spAtomic .., some w | .prefetch .., some w =>
      if s.canPerform w f then s.performOne id f else s
    | _, _ => s) s

/-- An access of a wave ends, and what waited behind it goes on. -/
def State.finish (s : State) (id : WaveId) (tag : Nat) : State := ((s.endFlight id tag).drain id).tidy id.core

/-- A result is written and its access ends (R176), while the wave still has it. -/
def State.finishWith (s : State) (id : WaveId) (tag : Nat) (ws : List RegWrite) : State :=
  match s.wave id with
  | none => s
  | some w => if (w.flight tag).isSome then (s.writeRegs id ws).finish id tag else s

/-- A word stores bytes: at once where nothing of the wave stands before it, else in order. -/
def State.storeOrQueue (s : State) (c : Ctx) (uncached : Bool) (bytes : List (Nat × Byte)) : State :=
  if bytes = [] then s
  else match s.wave c.id with
    | none => s
    | some w =>
      if w.mustQueue bytes then s.launch c (.store bytes uncached) []
      else (s.performAll c.id none).storeBytes c.core c.ctx uncached bytes

/-! ### Barriers as releases and acquires (R119, R122, R123) -/

/-- Whether a core's registrations are all acknowledged for the words a test selects, none of them held (R119, R122, R127). -/
def State.published (s : State) (core : Nat) (p : Nat → Bool) : Bool :=
  s.allAcked core p && !s.heldWrites.any (fun h => decide (h.party = Party.core core) && (wordsOf h.bytes).any p)

/-- Whether the accesses of a wave before the access with a tag have all been performed. -/
def State.performedBefore (s : State) (id : WaveId) (tag : Nat) : Bool := match s.wave id with
  | some w => !(w.flights.takeWhile (fun (e : Flight) => decide (e.tag ≠ tag))).any (fun (e : Flight) => e.op.unperformed)
  | none => false

/-- A core acquires the implicit cell of its ensemble: the global words it does not own are dropped, and its stamp advances (R122 to
R124). -/
def State.acquireAll (s : State) (core : Nat) : State :=
  s.updCore core (fun c => { c.dropWords (fun _ w => !w.owned && decide (w.priv = 0)) with stamp := c.stamp + 1#16 })

/-- A barrier arrival is counted once the wave's earlier accesses have been performed and, at ensemble scope, the dirty words of its
core are registered and acknowledged (R123). -/
def State.arriveTry (s : State) (id : WaveId) (tag : Nat) : State :=
  match s.wave id with
  | none => s
  | some w => match w.flight tag with
    | none => s
    | some f => match f.op with
      | .arrive ens slot =>
        let s := s.performAll id (some tag)
        if !s.performedBefore id tag then s
        else
          let s := if ens then s.writeBack id.core (fun _ => true) else s
          if ens && !s.published id.core (fun _ => true) then s
          else
            let s := s.finish id tag
            if ens then s.ensBarCheck id.core w.wg slot else s.barCheck id.core w.wg slot
      | _ => s

/-- A barrier wait is over once its slot has passed the arrival's generation: an acquire at the barrier's scope, after which the wave's
later accesses go on (R123, R237). -/
def State.waitTry (s : State) (id : WaveId) (tag : Nat) : State :=
  match s.wave id with
  | none => s
  | some w => match w.flight tag, s.wg id.core w.wg with
    | some f, some g => match f.op with
      | .barWait ens slot gen =>
        let now := if ens then (sget Barrier.fresh (s.part g.part).ensBarriers (ensKey g.ensId slot)).gen
          else (sget Barrier.fresh g.barriers slot).gen
        if wrapGe now.toNat (gen + 1#32).toNat = false || w.blockedBefore tag then s
        else (if ens then s.acquireAll id.core else s).finish id tag
      | _ => s
    | _, _ => s

/-- A word that cannot issue yet waits: its wave issues nothing more in this cycle, another of its scheduler may (R54, R73). -/
def State.stall (s : State) (id : WaveId) : State :=
  { (s.updWave id (fun w => { w with stalled := some s.clk })) with issued := s.issued.erase (4 * id.core + id.sched) }

/-- A word that waits is tried again in the next cycle (R126). -/
def State.wait (s : State) : Res := .stay (s.stall s.cur)

/-- A word of a path: it waits while an `xfence` to that path has not completed. -/
def Ctx.onPath (c : Ctx) (path : Nat) (s : State) (body : State → Res) : Res :=
  if c.wave.fencedTo path then s.wait else body s

/-- Continue with a word's checked accesses. -/
def Access.then (a : Access) (f : List (LaneAcc × Bool) → State → Res) : Res :=
  match a with
  | .ready accs s => f accs s
  | .raise r m s => .raise r m s
  | .hold s => .stay s

end Sys2Proof.Machine
end

