-- ==== Sys2Proof/Machine/Control.lean ====
section
/-!
DEFINITION. Control instructions, barriers, traps and snapshots (spec 09 R227 to R245).
-/

namespace Sys2Proof.Machine

/-! ### Transfers (R229) -/

/-- The target of a relative transfer. -/
def Ctx.relative (c : Ctx) (w : BWord) : Word := c.pc + w.offset

/-- Whether a target lies beyond the limit of `g15` (R165). -/
def Ctx.beyond (c : Ctx) (t : Word) : Bool := decide (segLimit (sget 0#128 c.wave.segs 15) < 8 * t.toNat + 8)

/-- A transfer: SEG_LIMIT for the lanes whose target lies beyond the limit, else the PCs; `f` is the word's other effect. -/
def Ctx.transfer (c : Ctx) (s : State) (take : Nat → Bool) (target : Nat → Word) (f : Wave → Wave) : Res :=
  let bad := c.lanes.filter (fun l => take l && c.beyond (target l))
  match bad with
  | l :: _ => .raise ⟨0x0A, 0, segBase (sget 0#128 c.wave.segs 15) + 8 * (target l).toNat⟩ (maskOf bad) s
  | [] => .moved (s.updWave c.id (fun w => (f w).pcSets (lanesOf c.active) (fun l =>
      if c.eff.getLsbD l && take l then target l else c.pc + 1#32)))

/-- The link of a call, for the lanes of the effective mask (R231). -/
def Ctx.link (c : Ctx) (reg : Nat) (w : Wave) : Wave := c.lanes.foldl (fun w l => w.vset reg l (c.pc + 1#32)) w

/-- `jmp` (R229). -/
def execJmp (w : BWord) (s : State) := issueWord (.jmp w) s (fun c s => c.transfer s (fun _ => true) (fun _ => c.relative w) id)

/-- `brv`, `brv.nz` and `brv.z` (R229). -/
def execBrv (w : BWord) (s : State) := issueWord (.brv w) s (fun c s =>
  c.transfer s (fun l => if w.minor = 0#5 then true
    else if w.minor = 1#5 then decide (c.opnd w.a l ≠ 0#32) else decide (c.opnd w.a l = 0#32)) (fun _ => c.relative w) id)

/-- The condition of `bru`, one value for every lane (R229). -/
def Ctx.bruTake (c : Ctx) (w : BWord) : Bool :=
  let k := c.wave.kget w.a.toNat &&& c.eff
  match w.minor.toNat with
  | 0 => decide (k ≠ 0#32)
  | 1 => decide (k = c.eff)
  | 2 => decide (k = 0#32)
  | 3 => decide (c.uni w.a ≠ 0#32)
  | _ => decide (c.uni w.a = 0#32)

/-- `bru` (R229). -/
def execBru (w : BWord) (s : State) := issueWord (.bru w) s (fun c s =>
  c.transfer s (fun _ => c.bruTake w) (fun _ => c.relative w) id)

/-- `jmpi` (R231). -/
def execJmpi (w : BWord) (s : State) := issueWord (.jmpi w) s (fun c s => c.transfer s (fun _ => true) (fun l => c.opnd w.a l) id)

/-- `call` (R231). -/
def execCall (w : BWord) (s : State) := issueWord (.call w) s (fun c s =>
  c.transfer s (fun _ => true) (fun _ => c.relative w) (c.link w.a.toNat))

/-- `ret` (R231). -/
def execRet (w : BWord) (s : State) := issueWord (.ret w) s (fun c s => c.transfer s (fun _ => true) (fun l => c.opnd w.a l) id)

/-- `loop`: the count is decremented once for the wave (R234). -/
def execLoop (w : BWord) (s : State) := issueWord (.loop w) s (fun c s =>
  let n := c.sreg w.a 0 - 1#32
  c.transfer s (fun _ => decide (n ≠ 0#32)) (fun _ => c.relative w)
    (fun v => if c.eff = 0#32 then v else v.sregSet (w.a.toNat - 0x100) n))

/-- `nop`: no effect (R228). -/
def execNop (w : BWord) (s : State) := issueWord (.nop w) s (fun _ s => .done s)

/-- `exit`: the lanes of the effective mask leave, the other active lanes go on (R230). -/
def execExit (w : BWord) (s : State) := issueWord (.exit w) s (fun c s =>
  .moved ((s.updWave c.id (fun v => v.pcSets (lanesOf (c.active &&& ~~~c.eff)) (fun _ => c.pc + 1#32))).exitLanes c.id c.eff))

/-! ### Holding and scheduling (R233, R235, R236) -/

/-- The hold of `rwait`: the lanes join the held set, or pass at once where another word holds one (R233). -/
def Ctx.hold (c : Ctx) (w : BWord) (now : Nat) (v : Wave) : Wave :=
  let aux := (w.aux.extractLsb' 0 3).toNat
  let v := v.pcSets (lanesOf (c.active &&& ~~~c.eff)) (fun _ => c.pc + 1#32)
  let pass := fun (v : Wave) =>
    let v := v.pcSets c.lanes (fun _ => c.pc + 1#32)
    if aux = 0 then v else v.kset aux (v.kget aux ||| c.eff)
  if c.eff = 0#32 then v
  else match v.held with
    | none => { v with held := some ⟨c.pc, c.relative w, now + (c.uni w.a).toNat, c.eff, aux⟩ }
    | some h => if h.pc = c.pc then { v with held := some { h with mask := h.mask ||| c.eff } } else pass v

/-- `rwait` (R233); its release is evaluated as the word retires and in every later cycle. -/
def execRwait (w : BWord) (s : State) := issueWord (.rwait w) s (fun c s =>
  .moved (s.updWave c.id (c.hold w (s.pclk c.wg.part))))

/-- `yield`: counts as 32 words issued in a row (R235). -/
def execYield (w : BWord) (s : State) := issueWord (.yield w) s (fun c s =>
  .done (if c.eff = 0#32 then s else s.updCore c.core (fun k => { k with
    row := if sget none k.token c.id.sched = some c.id.slot then sset 0 k.row c.id.sched 32 else k.row })))

/-- `pri.pass`: the token goes from its holder, or from the wave that takes it free, to a live wave of the same workgroup and
scheduler (R55, R235). -/
def execPriPass (w : BWord) (s : State) := issueWord (.priPass w) s (fun c s =>
  let tok := sget none (s.core c.core).token c.id.sched
  if c.eff = 0#32 ∨ (tok ≠ none ∧ tok ≠ some c.id.slot) then .done s
  else
    let n := (c.uni w.a).toNat
    let dest := (s.wavesOf c.core c.wave.wg).find? (fun e => decide (e.1.sched = c.id.sched) && decide (e.2.index = n) &&
      decide (e.2.exited ≠ 0xFFFFFFFF#32))
    let slot := match dest with
      | some e => e.1.slot
      | none => c.id.slot
    .done (s.updCore c.core (fun k => { k with
      token := sset none k.token c.id.sched (some slot)
      row := if some slot = tok then k.row else sset 0 k.row c.id.sched 0 })))

/-- `sleep` (R236). -/
def execSleep (w : BWord) (s : State) := issueWord (.sleep w) s (fun c s =>
  let n := (c.uni w.a).toNat
  .done (if c.eff = 0#32 ∨ n = 0 then s else s.record c ⟨0x0B, 0, s.pclk c.wg.part + n⟩))

/-! ### Traps (R239 to R244) -/

/-- A wave whose word has issued and that then takes a fault after it: the lanes of its active mask stand past the word. -/
def State.afterWord (s : State) (c : Ctx) : State :=
  (s.updWave c.id (fun w => { (w.pcSets (lanesOf c.active) (fun _ => c.pc + 1#32)).issued c.pc c.active c.m s.clk with
    atMarker := false })).countIssue c.id

/-- `trap` (R244). -/
def execTrap (w : BWord) (s : State) := issueWord (.trap w) s (fun c s =>
  if c.eff = 0#32 then .done s
  else .stay ((s.afterWord c).raiseFault c.id ⟨0x20, 0, c.pc, c.active, c.eff, (c.uni w.a).zeroExtend 64, true⟩))

/-- `brk`: BREAKPOINT, or a stop where a debugger is attached to the wave's tenant (R244, R466). -/
def execBrk (w : BWord) (s : State) := issueWord (.brk w) s (fun c s =>
  if c.eff = 0#32 then .done s
  else if (s.func c.wg.vf).debugAttached then
    .done ((s.updWave c.id (fun v => { v with stopPending := true })).debugReport c.id c.wg.vf 0x21 c.pc)
  else .stay ((s.afterWord c).raiseFault c.id ⟨0x21, 0, c.pc, c.active, c.eff, w.offset.zeroExtend 64, true⟩))

/-- `tret`: the wave leaves its handler; a deferred fault that waits is delivered at once (R243, R521). -/
def execTret (w : BWord) (s : State) := issueWord (.tret w) s (fun c s =>
  if c.eff = 0#32 then .done s
  else
    let s := ((s.trapReturn c).updWave c.id (fun v => { v with lastIssue := s.clk })).countIssue c.id
    match s.wave c.id with
    | none => .stay s
    | some v => match v.deferred with
      | some f => if v.inHandler then .stay s
        else .stay ((s.updWave c.id (fun v => { v with deferred := none })).deliver c.id { f with after := true })
      | none => .stay (s.heldCheck c.id))

/-- `snap` (R245). -/
def execSnap (w : BWord) (s : State) := issueWord (.snap w) s (fun c s =>
  .done (if c.eff = 0#32 then s else s.trigger c.wg.part 0 ((c.uni w.a).toNat % 65536) 0))

/-! ### Barriers (R237, R238) -/

/-- An ILLEGAL_OPERAND for a value out of range (R446). -/
def Ctx.valueFault (c : Ctx) : Raise := ⟨0x03, 8, c.word.toNat⟩

/-- The `%xinfo` of a SYNC at a barrier (R444). -/
def barInfo (ens : Bool) (slot : Nat) : Nat := 2 ^ 63 + (if ens then 2 ^ 62 else 0) + slot

/-- The record of a barrier slot of the wave's workgroup or ensemble. -/
def State.barrier (s : State) (c : Ctx) (ens : Bool) (slot : Nat) : Barrier :=
  if ens then sget Barrier.fresh (s.part c.wg.part).ensBarriers (ensKey c.wg.ensId slot) else sget Barrier.fresh c.wg.barriers slot

/-- A barrier slot written. -/
def State.setBarrier (s : State) (c : Ctx) (ens : Bool) (slot : Nat) (b : Barrier) : State :=
  if ens then s.updPart c.wg.part (fun p => { p with ensBarriers := sset Barrier.fresh p.ensBarriers (ensKey c.wg.ensId slot) b })
  else s.updWg c.core c.wave.wg (fun g => { g with barriers := sset Barrier.fresh g.barriers slot b })

/-- An arrival as a release at the barrier's scope: it is counted now, or once the wave's earlier accesses have been performed (R123). -/
def State.arrive (s : State) (c : Ctx) (ens : Bool) (slot : Nat) : State :=
  (s.launch c (.arrive ens slot) []).arriveTry c.id s.tags

/-- A barrier word: its slot, whether it arrives and whether it waits. An arrival is a release and a completed wait an acquire of the
slot's implicit cell (R123, R237). -/
def Ctx.barrier (c : Ctx) (s : State) (w : BWord) (ens arrive wait : Bool) : Res :=
  let slot := (c.uni w.a).toNat
  if c.eff = 0#32 then .done s
  else if c.wg.bars ≤ slot ∨ (ens ∧ c.wg.ensSize ≤ 1) then .raise c.valueFault c.eff s
  else
    let b := s.barrier c ens slot
    let key := if ens then c.wg.ensRank * 32 + c.wave.index else c.wave.index
    let old := sget none b.arrivals key
    if arrive = true ∧ old = some b.gen then .raise ⟨0x17, 0, barInfo ens slot⟩ c.eff s
    else if arrive = false ∧ old = none then .raise ⟨0x17, 0, barInfo ens slot⟩ c.eff s
    else
      let a := if arrive then b.gen else optD old b.gen
      let s := if arrive then s.setBarrier c ens slot { b with arrivals := sset none b.arrivals key (some a) } else s
      let s := if wait && decide (a = b.gen) then s.record c ⟨if ens then 0x02 else 0x01, slot, (a + 1#32).toNat⟩
        else if wait then
          (if ens then s.acquireAll c.core else s).setBarrier c ens slot { b with arrivals := sset none b.arrivals key none }
        else s
      let s := if arrive then s.arrive c ens slot else s
      .done (if wait && decide (a = b.gen) then (s.launch c (.barWait ens slot a) []).waitTry c.id s.tags else s)

/-- `bar.full` (R237). -/
def execBarFull (w : BWord) (s : State) := issueWord (.barFull w) s (fun c s => c.barrier s w false true true)
/-- `bar.arrive` (R237). -/
def execBarArrive (w : BWord) (s : State) := issueWord (.barArrive w) s (fun c s => c.barrier s w false true false)
/-- `bar.wait` (R237). -/
def execBarWait (w : BWord) (s : State) := issueWord (.barWait w) s (fun c s => c.barrier s w false false true)
/-- `bar.ens.full` (R238). -/
def execBarEnsFull (w : BWord) (s : State) := issueWord (.barEnsFull w) s (fun c s => c.barrier s w true true true)
/-- `bar.ens.arrive` (R238). -/
def execBarEnsArrive (w : BWord) (s : State) := issueWord (.barEnsArrive w) s (fun c s => c.barrier s w true true false)
/-- `bar.ens.wait` (R238). -/
def execBarEnsWait (w : BWord) (s : State) := issueWord (.barEnsWait w) s (fun c s => c.barrier s w true false true)

end Sys2Proof.Machine
end

