-- ==== Sys2Proof/Machine/Local.lean ====
section
/-!
DEFINITION. Local, remote and private loads and stores, and the scratchpad atomic (spec 03 R79 to R88, R94 to R97; 10
R263, R264, R270, R274).
-/

namespace Sys2Proof.Machine

/-! ### Local accesses (R81, R84, R88, R263) -/

/-- The offset of a lane: BASE plus the immediate, modulo 2^32 (R263). -/
def Ctx.loff (c : Ctx) (w : MWord) (imm : Int) (lane : Nat) : Nat :=
  wrapInt 32 (((c.wave.opnd w.lbase.field lane).toNat : Int) + imm)

/-- The lanes that fail and the code of the lowest one, or the lanes' values (R447). -/
def Ctx.allLanes {α : Type} (c : Ctx) (one : Bool) (rs : List (Nat × Except Raise α)) : Except (Raise × Mask) (List (Nat × α)) :=
  let bad := rs.filterMap (fun (x : Nat × Except Raise α) => match x.2 with
    | .error r => some (x.1, r)
    | .ok _ => none)
  match bad with
  | (_, r) :: _ => .error (r, if one then c.eff else maskOf (bad.map (fun (x : Nat × Raise) => x.1)))
  | [] => .ok (rs.filterMap (fun (x : Nat × Except Raise α) => match x.2 with
      | .ok v => some (x.1, v)
      | .error _ => none))

/-- The core offsets of the words of an access at an offset of a workgroup's allocation; `tile` names the skewed tile (R88). -/
def localPieces (start size o : Nat) (tile : Option Nat) : List Nat :=
  (List.range ((size + 3) / 4)).map (fun j => start + (match tile with
    | some base => 4 * skewWord base (o + 4 * j) + o % 4
    | none => o + 4 * j))

/-- The checks of a local access: a skewed one must lie in its declared tile, which must lie in the usable length (R81, R88). A tile that
the code object does not declare raises SPACE_BOUND as well, on which R88 says nothing (DESIGN CHOICE, log 72). -/
def localAccess (g : Workgroup) (space : Space) (size o : Nat) (skew : Option Nat) : Except Raise (List Nat) :=
  let out : Raise := ⟨0x0B, 0, o + spaceCode space * 2 ^ 60⟩
  let start := (g.alloc space).start
  match skew with
  | none => match localCheck (g.usable space) (spaceCode space) o size with
    | some r => .error r
    | none => .ok (localPieces start size o none)
  | some t => match sget none g.tiles t with
    | none => .error out
    | some (base, rows) =>
      if o < base ∨ base + 128 * rows ≤ o ∨ g.usable space < base + 128 * rows then .error out
      else match localCheck (g.usable space) (spaceCode space) o size with
        | some r => .error r
        | none => .ok (localPieces start size o (some base))

/-- A responder's scratchpad read: by core offset, inside its tile (R369). -/
def responderAccess (r : Responder) (size o : Nat) : Except Raise (List Nat) :=
  if o < r.start ∨ r.start + r.len < o + size then .error ⟨0x0B, 0, o⟩
  else if o % size ≠ 0 then .error ⟨0x0C, 0, o⟩
  else .ok (localPieces 0 size o none)

/-- Count the passes of a scratchpad access beyond the first (R84, R256). -/
def State.countPasses (s : State) (core passes : Nat) : State :=
  s.updCore core (fun c => { c with perf := sset 0 c.perf 7 (sget 0 c.perf 7 + (passes - 1)) })

/-- Whether a word's size code sign-extends (R164). -/
def signedSize (w : MWord) : Bool := decide (5 ≤ w.size)

/-- A local load or store (R263). -/
def Ctx.localWord (c : Ctx) (s : State) (w : MWord) (space : Space) (store : Bool) : Res :=
  c.onPath 0 s (fun s =>
    let size := sizeBytes w.size
    let one := onceFor w
    let skew := if space = .sp ∧ w.mode = 1 then some w.immTop3 else none
    let imm := if skew.isSome then immLow w 21 else immAll w
    let place := fun (l : Nat) => match c.wave.resp with
      | some r => responderAccess r size (c.loff w imm l)
      | none => localAccess c.wg space size (c.loff w imm l) skew
    match c.allLanes one ((c.accLanes one).map (fun l => (l, place l))) with
    | .error (r, m) => .raise r m s
    | .ok ps =>
      let accs := ps.flatMap (fun p => p.2.map (fun a => (p.1, a)))
      let s := if space = .sp then s.countPasses c.core (passCount size (ps.map (fun p => (p.1, p.2.map (fun a => a / 4))))) else s
      let regs := regsFrom w.d.toNat (sizeRegs size)
      if store then
        let data := ps.flatMap (fun p =>
          (List.range (c.storeData w.d size p.1).length).zip (c.storeData w.d size p.1) |>.map (fun b =>
            (p.2.getD (b.1 / 4) 0 + b.1 % 4, b.2)))
        .done (if c.wave.blocked then s.launch c (.later true (some space) [] size false 0 data) []
          else s.writeLocal c.id (some space) data)
      else
        .done (if c.wave.blocked then s.launch c (.later false (some space) accs size (signedSize w) w.d.toNat []) regs
          else s.launch c (.result (s.readLocal c.core (some space) accs size (signedSize w) w.d.toNat)) regs))

/-- `ld.sp` (R263). -/
def execLdSp (w : MWord) (s : State) := issueWord (.ldSp w) s (fun c s => c.localWord s w .sp false)
/-- `st.sp` (R263). -/
def execStSp (w : MWord) (s : State) := issueWord (.stSp w) s (fun c s => c.localWord s w .sp true)
/-- `ld.a` (R263). -/
def execLdA (w : MWord) (s : State) := issueWord (.ldA w) s (fun c s => c.localWord s w .ab false)
/-- `st.a` (R263). -/
def execStA (w : MWord) (s : State) := issueWord (.stA w) s (fun c s => c.localWord s w .ab true)
/-- `ld.c` (R263). -/
def execLdC (w : MWord) (s : State) := issueWord (.ldC w) s (fun c s => c.localWord s w .cb false)
/-- `st.c` (R263). -/
def execStC (w : MWord) (s : State) := issueWord (.stC w) s (fun c s => c.localWord s w .cb true)

/-! ### Remote scratchpads (R83, R264) -/

/-- A remote scratchpad access: the park of R83 is recorded, the access waits for its reply. -/
def Ctx.remoteWord (c : Ctx) (s : State) (w : MWord) (store : Bool) : Res :=
  c.onPath 0 s (fun s =>
    let size := sizeBytes w.size
    let one := onceFor w
    if c.eff = 0#32 then .done (if store then s else s.launch c (.result []) (regsFrom w.d.toNat (sizeRegs size)))
    else if c.wg.ensSize ≤ 1 ∨ c.wg.ensSize ≤ w.immTop3 then .raise ⟨0x03, 8, c.word.toNat⟩ c.eff s
    else
      let target := (s.ensemble c.core c.wave.wg).findSome? (fun e => match s.wg e.1 e.2 with
        | some g => if g.ensRank = w.immTop3 then some (e.1, e.2, g) else none
        | none => none)
      let usable := match target with
        | some t => t.2.2.usable .sp
        | none => 0
      let rs := (c.accLanes one).map (fun l =>
        let o := c.loff w (immLow w 21) l
        (l, match localCheck usable 5 o size with
          | some r => (Except.error r : Except Raise Nat)
          | none => .ok o))
      match c.allLanes one rs, target with
      | .error (r, m), _ => .raise r m s
      | .ok _, none => .done s
      | .ok os, some t =>
        let start := t.2.2.sp.start
        let accs := os.flatMap (fun o => (localPieces start size o.2 none).map (fun a => (o.1, a)))
        let data := if store then os.flatMap (fun o => byteList (start + o.2) (c.storeData w.d size o.1)) else []
        let tag := s.tags
        let regs := if store then [] else regsFrom w.d.toNat (sizeRegs size)
        .done ((s.launch c (.remote store t.1 t.2.1 accs size (signedSize w) w.d.toNat data) regs).record c ⟨0x05, t.1, tag⟩))

/-- `ld.rsp` (R264). -/
def execLdRsp (w : MWord) (s : State) := issueWord (.ldRsp w) s (fun c s => c.remoteWord s w false)
/-- `st.rsp` (R264). -/
def execStRsp (w : MWord) (s : State) := issueWord (.stRsp w) s (fun c s => c.remoteWord s w true)

/-- A remote access is performed at its target and its reply arrives (R83, R264). -/
def State.evRemoteReply (s : State) (id : WaveId) (tag : Nat) : State :=
  match s.wave id with
  | none => s
  | some w => match w.flight tag with
    | none => s
    | some f =>
      if w.blockedBefore tag then s
      else match f.op with
        | .remote write core _ accs size signed reg data =>
          let s := s.countPasses core (passCount size (accs.map (fun a => (a.1, [a.2 / 4]))))
          if write then (s.writeSpace core .sp data).finish id tag
          else s.finishWith id tag (s.readLocal core (some .sp) accs size signed reg)
        | _ => s

/-- REMOTE_SCRATCHPAD_REPLY (R83, R264). -/
def execRemoteScratchpadReply (w : WaveId) (tag : Nat) (s : State) : Host.Outcome State Fault Refusal := .next (s.evRemoteReply w tag)

/-! ### Private memory (R94 to R97, R270) -/

/-- The virtual addresses of the words of a lane's private access, or its fault (R95, R96). -/
def Ctx.privAccess (c : Ctx) (size o lane : Nat) : List (Nat × Except Raise Nat) :=
  match localCheck c.wg.privBytes 4 o size with
  | some r => [(lane, .error r)]
  | none => (List.range ((size + 3) / 4)).map (fun j => (lane, .ok (privAddr c.wave.record c.wg.vregs (o + 4 * j) lane)))

/-- The bytes of a private store at their physical addresses. -/
def Ctx.privBytes (c : Ctx) (s : State) (w : MWord) (size : Nat) (ls : List Nat) (accs : List LaneAcc) : List (Nat × Byte) :=
  ls.flatMap (fun l =>
    let mine := accs.filter (fun a => decide (a.lane = l))
    let bs := c.storeData w.d size l
    (List.range bs.length).zip bs |>.map (fun b => (s.canon ((mine.map (fun a => a.pa)).getD (b.1 / 4) 0) + b.1 % 4, b.2)))

/-- `ld.p` and `st.p`: every lane is checked and translated as the device's own access, then read at its return or stored into the
core's L1 (R97, R183, R270). -/
def Ctx.privateWord (c : Ctx) (s : State) (w : MWord) (store : Bool) : Res :=
  c.onPath 0 s (fun s =>
    let size := sizeBytes w.size
    let one := onceFor w
    let vas := (c.accLanes one).flatMap (fun l => c.privAccess size (c.loff w (immAll w) l) l)
    (s.access c true false (if store then .store else .load) vas).then (fun accs s =>
      let accs := plainAccs accs
      if store then
        let data := c.privBytes s w size (c.accLanes one) accs
        .done (if c.wave.blocked then s.launch c (.later true none [] size false 0 data) []
          else (s.performAll c.id none).storePriv c.id data)
      else
        .done (s.launch c (.load accs (min size 4) (signedSize w) w.d.toNat 0 true 0xFF#8) (regsFrom w.d.toNat (sizeRegs size)))))

/-- `ld.p` (R270). -/
def execLdP (w : MWord) (s : State) := issueWord (.ldP w) s (fun c s => c.privateWord s w false)
/-- `st.p` (R270). -/
def execStP (w : MWord) (s : State) := issueWord (.stP w) s (fun c s => c.privateWord s w true)

/-! ### The scratchpad atomic (R274) -/

/-- Passes of an `atom.sp`: those of R84, with every lane taking its own pass per word (R274). -/
def atomPasses (size : Nat) (accs : List (Nat × List Nat)) : Nat :=
  let group := if size = 8 then 16 else 32
  (List.range (32 / group)).foldl (fun acc g =>
    let ws := (accs.filter (fun p => decide (p.1 / group = g))).flatMap (fun p => p.2)
    acc + ((List.range 32).map (fun b => ws.countP (fun a => decide (a / 4 % 32 = b)))).foldl max 0) 0

/-- `atom.sp` (R274). -/
def execAtomSp (w : MWord) (s : State) := issueWord (.atomSp w) s (fun c s =>
  c.onPath 0 s (fun s =>
    let size := sizeBytes w.size
    let one := onceFor w
    let op := w.immOp
    match c.allLanes one ((c.accLanes one).map (fun l => (l, localAccess c.wg .sp size (c.loff w (immLow w 20) l) none))) with
    | .error (r, m) => .raise r m s
    | .ok ps =>
      let n := sizeRegs size
      let val := fun (k l : Nat) => natOfBytes ((List.range n).flatMap (fun i =>
        bytesOfNat (c.wave.opnd (w.d.toNat + k * n + i) l).toNat 4))
      let todo := ps.map (fun p => (p.1, p.2.headD 0, val 0 p.1, if op = 0xF then val 1 p.1 else 0))
      let s := s.countPasses c.core (atomPasses size ps)
      let regs := regsFrom w.d.toNat n
      if c.wave.blocked then .done (s.launch c (.spAtomic op size todo w.d.toNat) regs)
      else
        let (ws, s) := s.doSpAtomic c.core op size todo w.d.toNat
        .done (s.launch c (.result ws) regs)))

/-- A variable-latency result is written and leaves the pending-write set (R176, R47). -/
def State.evResultWrite (s : State) (id : WaveId) (tag : Nat) : State :=
  match s.wave id with
  | none => s
  | some w => match w.flight tag with
    | none => s
    | some f => match f.op with
      | .result ws => s.finishWith id tag ws
      | _ => s

end Sys2Proof.Machine
end

