-- ==== Sys2Proof/Machine/Queue.lean ====
section
/-!
DEFINITION. Decoupling queues (spec 03 R89 to R92; 10 R266 to R268; 22 R455): pushes, held pushes, claims, fills and pops.
-/

namespace Sys2Proof.Machine

/-- Entries a push of a size takes (R90). -/
def pushCount (size : Nat) (scalar : Bool) : Nat := if scalar then 1 else sizeRegs size

/-- Registers a pop of a push writes (R267). -/
def popRegs (size : Nat) (scalar : Bool) : Nat := if scalar then (if size = 16 then 4 else 2) else sizeRegs size

/-- The class check of R267 on a pop's D for a push. -/
def popFits (vregs reg size : Nat) (scalar : Bool) : Bool :=
  let n := popRegs size scalar
  if scalar then decide (0x100 ≤ reg) && decide ((reg - 0x100) % n = 0) && decide (reg + n ≤ 0x180)
  else decide (reg < 0x100) && decide (reg % n = 0) && decide (reg + n ≤ vregs)

/-- The registers a pop whose push is not known could receive, up to the last of its file (R267). -/
def popCould (vregs reg : Nat) : List Nat :=
  let i := if reg < 0x100 then reg else reg - 0x100
  let top := if reg < 0x100 then vregs else 0x180
  (reg :: ((if i % 2 = 0 then [reg + 1] else []) ++ (if i % 4 = 0 then [reg + 2, reg + 3] else []))).filter
    (fun r => decide (r < top) || decide (r = reg))

/-- A queue of a workgroup. -/
def State.queue (s : State) (core wg q : Nat) : DQueue := match s.wg core wg with
  | some g => sget DQueue.empty g.queues q
  | none => DQueue.empty

/-- A queue of a workgroup changed. -/
def State.updQueue (s : State) (core wg q : Nat) (f : DQueue → DQueue) : State :=
  s.updWg core wg (fun g => { g with queues := sset DQueue.empty g.queues q (f (sget DQueue.empty g.queues q)) })

/-- Remove the entries of a push from a queue. -/
def DQueue.discard (q : DQueue) (group : Nat) : DQueue := { q with entries := q.entries.filter (fun e => decide (e.group ≠ group)) }

/-- An access put among accesses in issue order. -/
def insertTag (x : WaveId × Flight) : List (WaveId × Flight) → List (WaveId × Flight)
  | [] => [x]
  | y :: ys => if x.2.tag ≤ y.2.tag then x :: y :: ys else y :: insertTag x ys

/-- The pops of a workgroup that wait for a push of a queue, in issue order: their waves and accesses (R92, R267). -/
def State.waitingPops (s : State) (core wg q : Nat) : List (WaveId × Flight) :=
  ((s.wavesOf core wg).flatMap (fun e => (e.2.flights.filter (fun (f : Flight) => match f.op with
    | .pop q' _ 0 _ => decide (q' = q)
    | _ => false)).map (fun (f : Flight) => (e.1, f)))).foldr insertTag []

/-- Change the VALUE of a wave's pop condition once its push is known (R267). -/
def Wave.popValue (w : Wave) (q old new : Nat) : Wave :=
  let f := fun (k : Wake) => if k.kind = 0x03 ∧ k.object = q ∧ k.value = old then { k with value := new } else k
  { w with conds := w.conds.map f, parked := w.parked.map f }

/-- The pops that still wait for a push of a queue get the least numbers that their first entries can have, in issue order from `base`
on: how many entries the earlier ones take is not known before their pushes arrive (R267; DESIGN CHOICE, log 73). -/
def State.numberPops (s : State) (core wg q base : Nat) : State :=
  let ps := s.waitingPops core wg q
  ((List.range ps.length).zip ps).foldl (fun (s : State) x => match x.2.2.op with
    | .pop _ old n reg => s.updWave x.2.1 (fun w => (w.setOp x.2.2.tag (.pop q (base + x.1) n reg)).popValue q old (base + x.1))
    | _ => s) s

/-- A pop's push arrives: the pop claims its entries, or their class does not fit and both are discarded (R267, R521). -/
def State.claim (s : State) (core wg q seq n size : Nat) (scalar : Bool) (x : WaveId × Flight) : State :=
  match x.2.op with
  | .pop _ old _ reg =>
    let vregs := match s.wg core wg with
      | some g => g.vregs
      | none => 0
    if popFits vregs reg size scalar then
      let keep := regsFrom reg (popRegs size scalar)
      let s := s.updQueue core wg q (fun d => { d with
        entries := d.entries.map (fun e => if e.group = seq then { e with claimed := true } else e) })
      s.updWave x.1 (fun w =>
        let w := (w.setOp x.2.tag (.pop q seq n reg)).popValue q old (seq + n - 1)
        { w with pend := w.pend.filter (fun e => !(e.vlat && decide (e.tag = x.2.tag)) || keep.contains e.reg) })
    else
      let s := s.updQueue core wg q (fun d => d.discard seq)
      (s.deferFault x.1 x.2 0x16 0 x.2.fmask q).finish x.1 x.2.tag
  | _ => s

/-- A push enters its queue: its entries are allocated, its access takes their number, and the oldest waiting pop claims them
(R90, R92, R267). -/
def State.enterPush (s : State) (core wg q : Nat) (h : HeldPush) : State :=
  let d := s.queue core wg q
  let n := pushCount h.size h.scalar
  let seq := d.next
  let s := s.updQueue core wg q (fun d => { d with
    next := seq + n
    entries := d.entries ++ (List.range n).map (fun i => ⟨seq + i, seq, h.size, h.scalar, false, false, [], none⟩) })
  let s := s.updWave h.w (fun w => { w with flights := w.flights.map (fun (f : Flight) =>
    if f.tag = h.tag then { f with op := match f.op with
      | .fill q' _ accs size signed scalar mode mask => .fill q' seq accs size signed scalar mode mask
      | .atomic kind op size todo q' _ olds => .atomic kind op size todo q' seq olds
      | x => x } else f) })
  match s.waitingPops core wg q with
  | x :: _ => (s.claim core wg q seq n h.size h.scalar x).numberPops core wg q (seq + n)
  | [] => s

/-- The push of a workgroup that has been held longest, with its queue. -/
def State.oldestHeld (s : State) (core wg : Nat) : Option (Nat × HeldPush) :=
  (List.range 16).foldl (fun acc q => match (s.queue core wg q).held.head?, acc with
    | some h, some b => if h.tag < b.2.tag then some (q, h) else acc
    | some h, none => some (q, h)
    | none, _ => acc) none

/-- Held pushes of a workgroup enter in issue order while the level allows (R266). -/
def State.enterHeld (s : State) (core wg : Nat) : Nat → State
  | 0 => s
  | fuel + 1 =>
    match s.oldestHeld core wg with
    | none => s
    | some (q, h) =>
      let d := s.queue core wg q
      if d.depth < d.entries.length + pushCount h.size h.scalar then s
      else ((s.updQueue core wg q (fun d => { d with held := d.held.drop 1 })).enterPush core wg q h).enterHeld core wg fuel

/-- The level of a queue has fallen: held pushes enter, and waves that waited go on. -/
def State.levelFell (s : State) (core wg : Nat) : State :=
  (s.enterHeld core wg ((List.range 16).foldl (fun a q => a + (s.queue core wg q).held.length) 0)).settleWg core wg

/-- A wave pushes to a queue with the access it has just launched: the push enters, or is held with its condition (R266). -/
def State.push (s : State) (c : Ctx) (q tag size : Nat) (scalar : Bool) : State :=
  let d := s.queue c.core c.wave.wg q
  let h : HeldPush := ⟨c.id, tag, size, scalar⟩
  if d.held ≠ [] ∨ d.depth < d.entries.length + pushCount size scalar then
    (s.updQueue c.core c.wave.wg q (fun d => { d with held := d.held ++ [h] })).record c
      ⟨0x04, q, d.depth + 1 - pushCount size scalar⟩
  else s.enterPush c.core c.wave.wg q h

/-- The QUEUE fault of a queue number (R444). -/
def queueRaise (q : Nat) : Raise := ⟨0x16, 0, q⟩

/-- `dq.ld` (R266). -/
def execDqLd (w : MWord) (s : State) := issueWord (.dqLd w) s (fun c s =>
  c.onPath 0 s (fun s =>
    let size := sizeBytes w.size
    let q := w.d.toNat % 16
    if c.eff = 0#32 then .done s
    else (s.access c false w.sbase .load (c.gaddrs w (immAll w) w.sbase size size .load)).then (fun accs s =>
      if (s.queue c.core c.wave.wg q).depth = 0 then .raise (queueRaise q) c.eff s
      else
        let tag := s.tags
        let s := s.launch c (.fill q 0 (plainAccs accs) size (signedSize w) w.sbase w.mode
          (s.appliedMask c.core c.wg.part)) []
        .done (s.push c q tag size w.sbase))))

/-- The queue number of a pop, configuration or level word, unless it is above 15 (R267). -/
def Ctx.queueNo (c : Ctx) (f : BitVec 9) : Option Nat :=
  let q := (c.uni f).toNat
  if q < 16 then some q else none

/-- `dq.pop`: claims the oldest unclaimed entries, or the next push (R267). -/
def execDqPop (w : RWord) (s : State) := issueWord (.dqPop w) s (fun c s =>
  let reg := w.d.toNat
  if c.eff = 0#32 then .done (s.launch c (.result []) [reg])
  else match c.queueNo w.a with
    | none => .raise c.valueFault c.eff s
    | some q =>
      let d := s.queue c.core c.wave.wg q
      let live := c.wave.live s.clk
      let free := fun (regs : List Nat) (go : Res) => match hazard live [] regs with
        | some x => Res.raise ⟨0x06, 0, x⟩ c.eff s
        | none => go
      let go := fun (seq count value : Nat) (regs : List Nat) =>
        free regs (
          let s := (s.launch c (.pop q seq count reg) regs).record c ⟨0x03, q, value⟩
          .done (s.updQueue c.core c.wave.wg q (fun d => { d with
            entries := d.entries.map (fun e => if count ≠ 0 ∧ e.group = seq then { e with claimed := true } else e) })))
      match d.entries.find? (fun e => !e.claimed) with
      | some e =>
        let n := pushCount e.size e.scalar
        if popFits c.wg.vregs reg e.size e.scalar then
          go e.group n (e.group + n - 1) (regsFrom reg (popRegs e.size e.scalar))
        else free [reg] (.raise (queueRaise q) c.eff
          ((s.updQueue c.core c.wave.wg q (fun d => d.discard e.group)).levelFell c.core c.wave.wg))
      | none =>
        let first := d.next + (s.waitingPops c.core c.wave.wg q).length
        go first 0 first (popCould c.wg.vregs reg))

/-- `dq.cfg` (R268). -/
def execDqCfg (w : RWord) (s : State) := issueWord (.dqCfg w) s (fun c s =>
  if c.eff = 0#32 then .done s
  else match c.queueNo w.a with
    | none => .raise c.valueFault c.eff s
    | some q =>
      let depth := (c.uni w.b).toNat
      let sum := (List.range 16).foldl (fun a i =>
        a + (if i = q then depth else (s.queue c.core c.wave.wg i).depth)) 0
      if 64 < depth || (List.range 16).any (fun i => decide ((s.queue c.core c.wave.wg i).entries ≠ [])) || decide (c.wg.queueArea < 128 * sum)
        then .raise (queueRaise q) c.eff s
      else .done ((s.updQueue c.core c.wave.wg q (fun d => { d with depth := depth })).levelFell c.core c.wave.wg))

/-- `dq.lvl` (R268). -/
def execDqLvl (w : RWord) (s : State) := issueWord (.dqLvl w) s (fun c s =>
  if c.eff = 0#32 then .done s
  else match c.queueNo w.a with
    | none => .raise c.valueFault c.eff s
    | some q => .done (s.updWave c.id (fun v =>
        v.sregSet (w.d.toNat - 0x100) (wd (s.queue c.core c.wave.wg q).entries.length))))

/-- The register writes of a pop from its entries: a wave push gives each effective lane its word, a scalar push its words to
consecutive scalars (R90, R267). -/
def popWrites (es : List QEntry) (reg : Nat) (eff : Mask) : List RegWrite :=
  match es with
  | [] => []
  | e :: _ =>
    if e.scalar then (List.range (popRegs e.size true)).map (fun i => ⟨reg + i, 0, e.data.getD i 0#32⟩)
    else (List.range es.length).flatMap (fun i => (lanesOf eff).map (fun l =>
      ⟨reg + i, l, ((es.getD i e).data).getD l 0#32⟩))

/-- A pop whose entries have filled writes them and frees them, or raises their POISON (R267, R455). -/
def State.popWrite (s : State) (id : WaveId) (w : Wave) (f : Flight) (q seq count reg : Nat) : State :=
  let es := (s.queue id.core w.wg q).entries.filter (fun e => decide (e.group = seq))
  if count = 0 ∨ es.length ≠ count ∨ es.any (fun e => !e.filled) then s
  else
    let s := s.updQueue id.core w.wg q (fun d => d.discard seq)
    let s := match es.findSome? (fun e => e.poison) with
      | some va => (s.deferFault id f 0x10 2 f.fmask va).finish id f.tag
      | none => s.finishWith id f.tag (popWrites es reg f.fmask)
    s.levelFell id.core w.wg

/-- A variable-latency result is written: a pop, or an access that has been performed (R176). -/
def State.evVariableResult (s : State) (id : WaveId) (tag : Nat) : State :=
  match s.wave id with
  | none => s
  | some w => match w.flight tag with
    | none => s
    | some f => match f.op with
      | .pop q seq count reg => s.popWrite id w f q seq count reg
      | _ => s.evResultWrite id tag

/-- A queue load returns and its entries fill (R266). -/
def State.evQueueFill (s : State) (id : WaveId) (tag : Nat) : State :=
  match s.wave id with
  | none => s
  | some w => match w.flight tag with
    | none => s
    | some f => match f.op with
      | .fill .. => if s.canPerform w f then (s.performOne id f).tidy id.core else s
      | _ => s

/-- QUEUE_ENTRY_FILL (R266, R90). -/
def execQueueEntryFill (w : WaveId) (tag : Nat) (s : State) : Host.Outcome State Fault Refusal := .next (s.evQueueFill w tag)

end Sys2Proof.Machine
end

