-- ==== Sys2Proof/Machine/Atomic.lean ====
section
/-!
DEFINITION. Global atomics (spec 04 R132; 10 R272, R273; 24 R485, R490).
-/

namespace Sys2Proof.Machine

/-- The operand of an atomic in D and the registers after it (R273). -/
def Ctx.atomValue (c : Ctx) (d : BitVec 9) (size k lane : Nat) : Nat :=
  if isC d.toNat then wrapInt (8 * size) (c.opnd d lane).toInt
  else
    let n := sizeRegs size
    natOfBytes ((List.range n).flatMap (fun i => bytesOfNat (c.wave.opnd (d.toNat + k * n + i) lane).toNat 4))

/-- A global atomic: kind 0 `atom`, 1 `atom.cas`, 2 `red.g`; the queue it pushes to, if any (R273). -/
def Ctx.atomic (c : Ctx) (s : State) (w : MWord) (kind : Nat) : Res :=
  c.onPath 0 s (fun s =>
    let size := sizeBytes w.size
    let one := onceFor w
    let imm := if kind = 2 then immLow w 20 else immLow w 16
    let q := (w.imm.extractLsb' 16 4).toNat
    if c.eff = 0#32 then .done s
    else (s.access c false one .atomic (c.gaddrs w imm one size size .atomic)).then (fun accs s =>
      if kind ≠ 2 ∧ (s.queue c.core c.wave.wg q).depth = 0 then .raise (queueRaise q) c.eff s
      else
        let todo := (plainAccs accs).map (fun a => (⟨a, c.atomValue w.d size 0 a.lane,
          if kind = 1 then c.atomValue w.d size 1 a.lane else 0⟩ : AtomLane))
        let tag := s.tags
        let s := s.launch c (.atomic kind w.immOp size todo q 0 []) []
        .done (if kind = 2 then s else s.push c q tag size one)))

/-- `atom` (R273). -/
def execAtom (w : MWord) (s : State) := issueWord (.atom w) s (fun c s => c.atomic s w 0)
/-- `atom.cas` (R273). -/
def execAtomCas (w : MWord) (s : State) := issueWord (.atomCas w) s (fun c s => c.atomic s w 1)
/-- `red.g` (R273). -/
def execRedG (w : MWord) (s : State) := issueWord (.redG w) s (fun c s => c.atomic s w 2)

/-- The words of an aligned access. -/
def accWords (pa size : Nat) : List Nat := if size ≤ 4 then [pa / 4] else [pa / 4, pa / 4 + 1]

/-- Whether a held write covers a word (R127). -/
def State.wordHeld (s : State) (word : Nat) : Bool := s.heldWrites.any (fun h => (wordsOf h.bytes).contains word)

/-- A core's own bytes of words leave its L1 and its copies of them are dropped, before an access at their home (R273). -/
def State.yieldWords (s : State) (core : Nat) (ws : List Nat) : State :=
  ws.foldl (fun s w => ((s.leaveL1 core w).ackWord core w).updCore core (fun c => c.dropClean w)) s

/-- The entries of an atomic's push fill with its old values (R273). -/
def State.atomFill (s : State) (id : WaveId) (wg queue seq size : Nat) (olds : List (Nat × Nat)) : State :=
  let words := fun (x : Nat) => (List.range (sizeRegs size)).map (fun i => wd (x / 2 ^ (32 * i)))
  let scalar := (s.queue id.core wg queue).entries.any (fun e => decide (e.seq = seq) && e.scalar)
  let data := if scalar then [words (olds.headD (0, 0)).2]
    else (List.range (sizeRegs size)).map (fun i => Sys2Proof.lanes.map (fun l =>
      match olds.find? (fun (o : Nat × Nat) => decide (o.1 = l)) with
      | some o => (words o.2).getD i 0#32
      | none => 0#32))
  s.fillEntries id.core wg queue seq data none

/-- One lane of an atomic is performed at its home as one read and write, or is not, for poison (R132, R273, R485). -/
def State.atomLane (s : State) (id : WaveId) (w : Wave) (f : Flight) (a : AtomLane) (kind op size queue seq : Nat)
    (rest : List AtomLane) (olds : List (Nat × Nat)) : State :=
  let g := s.wg id.core w.wg
  let ctx := match g with
    | some g => g.ctx
    | none => 0
  let put := fun (s : State) (todo : List AtomLane) (olds : List (Nat × Nat)) =>
    s.updWave id (fun w => w.setOp f.tag (.atomic kind op size todo queue seq olds))
  if s.poisoned a.acc.pa then
    let s := if kind = 2 then
        match g with
        | some g => s.postRecord g.vf (plainRecord 0x10 3 0 2 g.ctx g.vf a.acc.va (s.pclk g.part)).bits
        | none => s
      else s.updQueue id.core w.wg queue (fun d => { d with
        entries := d.entries.map (fun e => if e.group = seq ∧ e.poison.isNone then { e with poison := some (a.acc.va / 64 * 64) } else e) })
    put s rest (olds ++ [(a.acc.lane, 0)])
  else
    let old := s.homeNat a.acc.pa size
    let new := if kind = 1 then (if old = a.x then some a.y else none) else some (atomNew op size old a.x)
    let bytes := match new with
      | some x => byteList (s.canon a.acc.pa) (bytesOfNat x size)
      | none => []
    let held := decide (bytes ≠ []) && s.mustHold bytes
    put (s.register (.core id.core) ctx bytes) (if held then a :: rest else rest) (olds ++ [(a.acc.lane, old)])

/-- The next lane of an atomic reaches its home. A word with a held write makes it wait (R127); once every lane has been
performed the queue entries fill, or the reduction ends. -/
def State.evAtomicAtHome (s : State) (id : WaveId) (tag : Nat) : State :=
  match s.wave id with
  | none => s
  | some w => match w.flight tag with
    | none => s
    | some f => match f.op with
      | .atomic kind op size todo queue seq olds =>
        if !s.canPerform w f || (decide (kind ≠ 2) && s.pushHeld id.core w.wg queue tag) then s
        else match todo with
          | [] =>
            let s := if kind = 2 then s else s.atomFill id w.wg queue seq size olds
            (s.finish id tag).settleWg id.core w.wg
          | a :: rest =>
            let ws := accWords (s.canon a.acc.pa) size
            let s := (s.performAll id (some tag)).yieldWords id.core ws
            if ws.any (fun x => s.wordHeld x) then s
            else if olds.any (fun o => decide (o.1 = a.acc.lane)) then
              s.updWave id (fun w => w.setOp tag (.atomic kind op size rest queue seq olds))
            else s.atomLane id w f a kind op size queue seq rest olds
      | _ => s

/-- ATOMIC_AT_HOME (R132, R273). -/
def execAtomicAtHome (w : WaveId) (tag : Nat) (s : State) : Host.Outcome State Fault Refusal := .next (s.evAtomicAtHome w tag)

end Sys2Proof.Machine
end

