-- ==== Sys2Proof/Machine/Global.lean ====
section
/-!
DEFINITION. Global stores, prefetches, scalar loads and the linkage words (spec 03 R111 to R113; 09 R232; 10 R269 to R271;
24 R484).
-/

namespace Sys2Proof.Machine

/-! ### Stores and prefetches (R269, R270) -/

/-- `st.g` (R269): the stored bytes, those of uncached pages apart. -/
def execStG (w : MWord) (s : State) := issueWord (.stG w) s (fun c s =>
  c.onPath 0 s (fun s =>
    let size := sizeBytes w.size
    let one := onceFor w
    (s.access c false one .store (c.gaddrs w (immAll w) one size size .store)).then (fun accs s =>
      let bytes := fun (u : Bool) => c.storeList w.d size ((accs.filter (fun a => a.2 == u)).map (fun a => a.1))
      .done ((s.storeOrQueue c false (bytes false)).storeOrQueue c true (bytes true)))))

/-- The addresses of a prefetch that pass every check and translate; the others are dropped (R270). -/
def State.prefetchAccs (s : State) (c : Ctx) (rs : List (Nat × Except Raise Nat)) : List LaneAcc × State :=
  let all := s.laneAll c false true .load rs
  (all.1.filterMap (fun (x : Nat × LaneRes) => match x.2 with
    | .ok a _ => if a.pa = growPa then none else some a
    | _ => none), all.2)

/-- `pref` (R270). -/
def execPref (w : MWord) (s : State) := issueWord (.pref w) s (fun c s =>
  c.onPath 0 s (fun s =>
    let size := sizeBytes w.size
    let (accs, s) := s.prefetchAccs c (c.gaddrs w (immAll w) w.sbase size size .load)
    if accs = [] then .done s
    else .done ((s.launch c (.prefetch accs size w.mode) []).drain c.id)))

/-! ### Scalar loads (R270, R271) -/

/-- `ld.k`: one load for the wave (R270). -/
def execLdK (w : MWord) (s : State) := issueWord (.ldK w) s (fun c s =>
  c.onPath 0 s (fun s =>
    let size := sizeBytes w.size
    (s.access c false true .load (c.gaddrs w (immAll w) true size size .load)).then (fun accs s =>
      .done (s.launch c (.load (plainAccs accs) size (signedSize w) w.d.toNat w.mode false
        (s.appliedMask c.core c.wg.part)) (regsFrom w.d.toNat (sizeRegs size))))))

/-- HOLDER of a cell as the core sees it, its own unregistered bytes included (R114). -/
def State.cellPoisoned (s : State) (core part pa : Nat) : Bool :=
  decide (natOfBytes (s.readBytes core part true 0xFF#8 (pa + 6) 2) = 0xFFFF)

/-- A cell found POISONED at issue, with nothing of the wave before it (R271, R275). -/
def Ctx.poisonedCell (c : Ctx) (s : State) (a : LaneAcc) : Bool := !c.wave.blocked && s.cellPoisoned c.core c.wg.part a.pa

/-- `lnk.ld`: the entry, with the observing acquire of the table's cell, entry 0 of `g14` (R271). -/
def execLnkLd (w : MWord) (s : State) := issueWord (.lnkLd w) s (fun c s =>
  c.onPath 0 s (fun s =>
    let regs := regsFrom w.d.toNat 2
    let cell := (c.accLanes true).map (fun l => (l, segCheck (c.seg w) 0 8 8 .observe))
    (s.access c false true .observe (c.gaddrs w (immAll w) true 8 8 .observe ++ cell)).then (fun accs s =>
      match accs with
      | (e, _) :: (k, _) :: _ =>
        if c.poisonedCell s k then .raise ⟨0x10, 3, k.va⟩ c.eff s
        else .done (s.launch c (.linkage k.pa k.va e.pa w.d.toNat) regs)
      | _ => .done (s.launch c (.result []) regs))))

/-- `calli`: the linkage entry is read; the lanes move when the read returns (R232). -/
def execCalli (w : BWord) (s : State) := issueWord (.calli w) s (fun c s =>
  c.onPath 0 s (fun s =>
    let g := sget 0#128 c.wave.segs 14
    let at' := (c.accLanes true).map (fun l => (l, segCheck g (8 * (w.offset.toNat : Int)) 8 8 .load))
    (s.access c false true .load at').then (fun accs s =>
      match accs with
      | (e, _) :: _ => .moved (s.launch c (.callRead e w.a.toNat c.active c.eff) [w.a.toNat])
      | [] => .done s)))

/-! ### Returns -/

/-- A direct load returns: data to every lane, 0 and a deferred POISON where it is poisoned (R484). -/
def State.loadReturn (s : State) (id : WaveId) (f : Flight) (accs : List LaneAcc) (size : Nat) (signed : Bool) (reg : Nat)
    (mode : Nat) (priv : Bool) (mask : BitVec 8) : State :=
  let (ws, bad, s) := s.readLoad id accs size signed reg mode priv mask
  let s := match bad with
    | [] => s
    | a :: _ => s.deferFault id f 0x10 2 (if reg < 0x100 then maskOf (bad.map (fun (a : LaneAcc) => a.lane)) else f.fmask) a.va
  s.finishWith id f.tag ws

/-- The linkage read of `calli` returns: the lanes transfer and take their link, or the fault is raised at the word
(R232, R484, R521). -/
def State.callReturn (s : State) (id : WaveId) (f : Flight) (e : LaneAcc) (reg : Nat) (act eff : Mask) : State :=
  match s.wave id with
  | none => s
  | some w =>
    let s := s.fetchLoad id [e] 8 0 false f.applied
    let t := wd (natOfBytes (s.laneBytes id 4 0 false f.applied e))
    if s.lanePoison id.core false f.applied e then (s.deferFault id f 0x10 2 eff e.va).finish id f.tag
    else if segLimit (sget 0#128 w.segs 15) < 8 * t.toNat + 8 then (s.deferFault id f 0x0A 0 eff (segBase (sget 0#128 w.segs 15) + 8 * t.toNat)).finish id f.tag
    else
      let s := s.updWave id (fun w =>
        let w := w.pcSets (lanesOf act) (fun l => if eff.getLsbD l then t else f.pc + 1#32)
        w)
      ((s.heldCheck id).writeRegs id ((lanesOf eff).map (fun l => ⟨reg, l, f.pc + 1#32⟩))).finish id f.tag

/-- The return of a direct load or linkage read, after the earlier reads of its wave (R94, R130). -/
def State.evDirectLoadReturn (s : State) (id : WaveId) (tag : Nat) : State :=
  match s.wave id with
  | none => s
  | some w => match w.flight tag with
    | none => s
    | some f =>
      if !s.canPerform w f then s
      else match f.op with
        | .load accs size signed reg mode priv mask =>
          (s.performAll id (some tag)).loadReturn id f accs size signed reg mode priv mask
        | .callRead e reg act eff => (s.performAll id (some tag)).callReturn id f e reg act eff
        | _ => s

/-- DIRECT_LOAD_RETURN (R94, R484). -/
def execDirectLoadReturn (w : WaveId) (tag : Nat) (s : State) : Host.Outcome State Fault Refusal := .next (s.evDirectLoadReturn w tag)

/-- A word first written 65,536 cycles ago leaves its L1 (R120). -/
def State.evWriteLeaveTimeout (s : State) (core word : Nat) : State :=
  let w := sget L1Word.absent (s.core core).l1 word
  if w.dirty ≠ 0#4 ∧ w.priv = 0 ∧ w.written + 65536 ≤ s.clk then s.leaveL1 core word else s

/-- WRITE_LEAVE_TIMEOUT (R120). -/
def execWriteLeaveTimeout (core word : Nat) (s : State) : Host.Outcome State Fault Refusal :=
  .next (s.evWriteLeaveTimeout core word)

/-- The clean words of a line that the core does not own are dropped 65,536 cycles after their fill, with its sector's guest copy of
the line, so that a repeated read returns a value registered after that fill (R121). -/
def State.evCleanLineExpiry (s : State) (core line : Nat) : State :=
  let old := fun (k : Nat) (w : L1Word) => decide (k / 128 = line) && !w.owned && decide (w.priv = 0) && decide (w.filled + 65536 ≤ s.clk)
  if (s.core core).l1.any (fun e => old e.1 e.2) then
    (s.updCore core (fun c => c.dropWords old)).dropGuests (fun sec a => decide (sec = sectorOf core) && decide (a / 512 = line))
  else s

/-- CLEAN_LINE_EXPIRY (R121). -/
def execCleanLineExpiry (core line : Nat) (s : State) : Host.Outcome State Fault Refusal := .next (s.evCleanLineExpiry core line)

/-- REGISTRATION_AT_HOME: a core's dirty bytes of a word leave its L1 and register, or are held (R120, R127). -/
def execRegistrationAtHome (core word : Nat) (s : State) : Host.Outcome State Fault Refusal := .next (s.leaveL1 core word)

end Sys2Proof.Machine
end

