-- ==== Sys2Proof/Machine/Sync.lean ====
section
/-!
DEFINITION. Sync cells, bindings and fences (spec 04 R114 to R124, R126; 10 R271, R275 to R279; 22 R521; 24 R493).
-/

namespace Sys2Proof.Machine

/-! ### Words (R275 to R279) -/

/-- A word on the cell at a scalar pair's address, checked and translated (R275). -/
def Ctx.cellWord (c : Ctx) (s : State) (w : MWord) (imm : Int) (regs : List Nat) (f : LaneAcc → State → Res) : Res :=
  c.onPath 0 s (fun s =>
    (s.access c false true .sync (c.gaddrs w imm true 8 8 .sync)).then (fun accs s =>
      match accs with
      | (a, _) :: _ => f a s
      | [] => .done (if regs = [] then s else s.launch c (.result []) regs)))

/-- `acq`: waits for its grant; a cell found POISONED raises POISON where no status mask takes it (R275). -/
def execAcq (w : MWord) (s : State) := issueWord (.acq w) s (fun c s =>
  let k := w.immTop3
  let regs := w.d.toNat :: (if k = 0 then [] else [0x200 + k])
  c.cellWord s w (immLow w 21) regs (fun a s =>
    if k = 0 ∧ c.poisonedCell s a then .raise ⟨0x10, 3, a.va⟩ c.eff s
    else .done ((s.launch c (.acquire a.pa a.va false w.d.toNat k 0 0#32 0) regs).record c ⟨0x06, a.va / 8, 0⟩)))

/-- `acq.try` (R275). -/
def execAcqTry (w : MWord) (s : State) := issueWord (.acqTry w) s (fun c s =>
  let regs := regsFrom w.d.toNat 2
  c.cellWord s w (immLow w 21) regs (fun a s => .done (s.launch c (.acquire a.pa a.va true w.d.toNat 0 0 0#32 0) regs)))

/-- `rel` (R276). -/
def execRel (w : MWord) (s : State) := issueWord (.rel w) s (fun c s =>
  c.cellWord s w (immAll w) [] (fun a s => .done (s.launch c (.release a.pa a.va) [])))

/-- `bind` and `unbind`: the checks decided at issue (R277). -/
def Ctx.binding (c : Ctx) (s : State) (w : MWord) (remove : Bool) : Res :=
  c.cellWord s w (immAll w) [] (fun a s =>
    let off := sInt 64 (pair64 (c.sreg w.d 0) (c.sreg w.d 1))
    let len := pair64 (c.sreg w.d 2) (c.sreg w.d 3)
    let g := c.seg w
    if segValid g = false ∨ off < 0 ∨ (segLimit g : Int) < off + len then
      .raise ⟨0x0A, 0, wrapInt 64 ((segBase g : Int) + off)⟩ c.eff s
    else
      let va := segBase g + off.toNat
      if va % 4 ≠ 0 ∨ len % 4 ≠ 0 then .raise ⟨0x0C, 0, va⟩ c.eff s
      else if len = 0 ∨ 2 ^ 40 < len then .raise ⟨0x17, 0, a.va % 2 ^ 60⟩ c.eff s
      else .done (s.launch c (.bindRegion a.pa a.va len c.wg.vf va remove) []))

/-- `bind` (R277). -/
def execBind (w : MWord) (s : State) := issueWord (.bind w) s (fun c s => c.binding s w false)
/-- `unbind` (R277). -/
def execUnbind (w : MWord) (s : State) := issueWord (.unbind w) s (fun c s => c.binding s w true)

/-! ### Regions (R116, R117) -/

/-- The physical runs of a bound region, page by page, as the function's table maps it. -/
def State.regionRuns (s : State) (vf va len : Nat) : List (Nat × Nat) :=
  (List.range (len / 4096 + 2)).filterMap (fun i =>
    let lo := max va ((va / 4096 + i) * 4096)
    let hi := min (va + len) ((va / 4096 + i + 1) * 4096)
    if hi ≤ lo then none
    else match s.walk vf lo with
      | .page t => some (s.canon (t.pa + (lo - t.va)), hi - lo)
      | _ => none)

/-- The physical runs of the regions bound to a cell. -/
def State.boundRuns (s : State) (cell : Nat) : List (Nat × Nat) :=
  (sget CellHome.fresh s.cells cell).bindings.flatMap (fun b => s.regionRuns b.2.1 b.2.2 b.1)

/-- Whether `n` bytes at an address overlap one of the runs. -/
def inRuns (runs : List (Nat × Nat)) (pa n : Nat) : Bool := runs.any (fun r => decide (pa < r.1 + r.2) && decide (r.1 < pa + n))

/-- A core discards what an acquire makes stale: the words of the runs it does not own, its sector's guest copies of them,
and its stamp advances (R117 steps 3 and 4). -/
def State.discardRuns (s : State) (core : Nat) (runs : List (Nat × Nat)) : State :=
  (s.updCore core (fun c =>
    { c.dropWords (fun k w => !w.owned && decide (w.priv = 0) && inRuns runs (4 * k) 4) with stamp := c.stamp + 1#16 })).dropGuests
    (fun sec a => decide (sec = sectorOf core) && inRuns runs a 64)

/-! ### Cells at their home (R114 to R119) -/

/-- HOLDER, bits 47:32 and COUNT of a cell (R114). -/
def State.cellWord (s : State) (cell : Nat) : Nat × Nat × Nat :=
  let x := s.homeNat cell 8
  (x / 2 ^ 48 % 65536, x / 2 ^ 32 % 65536, x % 2 ^ 32)

/-- The bytes of a cell with HOLDER and COUNT, written in one update (R119). -/
def cellBytes (cell holder count : Nat) : List (Nat × Byte) := byteList cell (bytesOfNat (holder * 2 ^ 48 + count % 2 ^ 32) 8)

/-- What a cell's home keeps, changed. -/
def State.updCell (s : State) (cell : Nat) (f : CellHome → CellHome) : State :=
  { s with cells := sset CellHome.fresh s.cells cell (f (sget CellHome.fresh s.cells cell)) }

/-- A request updates a cell, and then takes its further effect; an update that a watch holds makes it wait (R119, R127, R322). -/
def State.setCell (s : State) (cell holder count tag : Nat) (effect : State → State) : State :=
  let bytes := cellBytes cell holder count
  if s.mustHold bytes then (s.register .engine 0 bytes).updCell cell (fun h => { h with update := some tag })
  else effect (s.register .engine 0 bytes)

/-- Whether the held update of a cell was that of a request (R127). -/
def State.updating (s : State) (cell tag : Nat) : Bool := decide ((sget CellHome.fresh s.cells cell).update = some tag)

/-- The identity of a wave: its function and record (R115). -/
def waveIdent (vf : Nat) (w : Wave) : Nat := vf * 2 ^ 64 + w.record

/-- The identity of a resident wave. -/
def State.identOf (s : State) (id : WaveId) (w : Wave) : Nat := match s.wg id.core w.wg with
  | some g => waveIdent g.vf w
  | none => w.record

/-- Whether a wave holds a cell (R115). -/
def State.holds (s : State) (cell ident : Nat) : Bool :=
  let h := (s.cellWord cell).1
  decide (h ≠ 0 ∧ h ≠ 0xFFFF) && decide ((sget CellHome.fresh s.cells cell).holder = some ident)

/-- A cell that plain stores made free keeps no holder and no binding (R114, R493). Acquires that wait for it go on waiting: what
becomes of them, no rule says (DESIGN CHOICE, log 74). -/
def State.refreshCell (s : State) (cell : Nat) : State :=
  if (s.cellWord cell).1 = 0 then s.updCell cell (fun h => if h.holder.isSome then { h with holder := none, place := none, bindings := [] } else h)
  else s

/-- The answer to an acquire, given to its wave where it stands: resident, or saved (R60). Status 0 granted, 1 held,
2 POISONED, 3 SYNC. -/
def State.answerAcquire (s : State) (ident tag count status : Nat) : State :=
  let upd := fun (w : Wave) => match w.flight tag with
    | some f => match f.op with
      | .acquire cell va attempt reg mask _ _ _ => w.setOp tag (.acquire cell va attempt reg mask 2 (wd count) status)
      | _ => w
    | none => w
  { s with
    cores := s.cores.map (fun c => (c.1, { c.2 with waves := c.2.waves.map (fun e => (e.1, e.2.map (fun w =>
      match sget none c.2.wgs w.wg with
      | some g => if waveIdent g.vf w = ident then upd w else w
      | none => w))) }))
    parts := s.parts.map (fun p => (p.1, { p.2 with saved := p.2.saved.map (fun x =>
      { x with waves := x.waves.map (fun w => if waveIdent x.wg.vf w = ident then upd w else w) }) })) }

/-- The context of a wave by its identity, resident or saved. -/
def State.ctxOfIdent (s : State) (ident : Nat) : Option Nat :=
  let res := s.cores.findSome? (fun c => c.2.waves.findSome? (fun e => match e.2 with
    | some w => match sget none c.2.wgs w.wg with
      | some g => if waveIdent g.vf w = ident then some g.ctx else none
      | none => none
    | none => none))
  match res with
  | some x => some x
  | none => s.parts.findSome? (fun p => p.2.saved.findSome? (fun x =>
      if x.waves.any (fun w => decide (waveIdent x.wg.vf w = ident)) then some x.wg.ctx else none))

/-- The place of a resident wave by its identity. -/
def State.placeOf (s : State) (ident : Nat) : Option WaveId :=
  s.cores.findSome? (fun c => (c.2.waveList c.1).findSome? (fun e => match sget none c.2.wgs e.2.wg with
    | some g => if waveIdent g.vf e.2 = ident then some e.1 else none
    | none => none))

/-- The wave that a cell has been granted to is its holder and takes the answer (R115, R117). -/
def State.granted (s : State) (cell ident tag : Nat) : State :=
  (s.updCell cell (fun h => { h with
    holder := some ident
    place := s.placeOf ident
    update := none })).answerAcquire ident tag (s.cellWord cell).2.2 0

/-- Grant a free cell to a wave: HOLDER first; the rest follows when the grant arrives (R117). -/
def State.grantCell (s : State) (cell ident ctx tag : Nat) : State :=
  s.setCell cell ctx (s.cellWord cell).2.2 tag (fun s => s.granted cell ident tag)

/-- A free cell is granted to the acquire that has waited longest (R118). -/
def State.grantNext (s : State) (cell : Nat) : State :=
  match (sget CellHome.fresh s.cells cell).waiters with
  | [] => s
  | (ident, tag) :: rest =>
    let s := s.updCell cell (fun h => { h with waiters := rest })
    match s.ctxOfIdent ident with
    | some ctx => s.grantCell cell ident ctx tag
    | none => s

/-- A cell becomes POISONED: COUNT stays, its bindings go, and its waiting acquires are answered (R493). -/
def State.poisonCell (s : State) (cell : Nat) : State :=
  let count := (s.cellWord cell).2.2
  let ws := (sget CellHome.fresh s.cells cell).waiters
  let s := (s.register .engine 0 (cellBytes cell 0xFFFF count)).updCell cell (fun _ => CellHome.fresh)
  ws.foldl (fun s x => s.answerAcquire x.1 x.2 count 2) s

/-- An acquire reaches its cell's home. Of a POISONED cell whose bits 47:32 are not zero, the home answers SYNC, and a check at issue
POISON: the spec orders neither before the other (R114, R275; DESIGN CHOICE, log 75). -/
def State.acquireAtHome (s : State) (id : WaveId) (w : Wave) (f : Flight) (cell : Nat) (attempt : Bool) : State :=
  let (holder, mid, count) := s.cellWord cell
  let me := s.identOf id w
  let ans := fun (status : Nat) => s.answerAcquire me f.tag count status
  if s.updating cell f.tag then s.granted cell me f.tag
  else if mid ≠ 0 then ans 3
  else if holder = 0xFFFF then ans 2
  else if attempt ∧ holder ≠ 0 then ans 1
  else if s.holds cell me then ans 3
  else if holder = 0 then
    match s.ctxOfIdent me with
    | some ctx => s.grantCell cell me ctx f.tag
    | none => s
  else (s.updCell cell (fun h => { h with waiters := h.waiters ++ [(me, f.tag)] })).updWave id (fun w =>
    w.setOp f.tag (match f.op with
      | .acquire cell va attempt reg mask _ count status => .acquire cell va attempt reg mask 1 count status
      | op => op))

/-- The SYNC of a word that its cell's home decides: the request has no effect (R119, R521). -/
def State.syncFail (s : State) (id : WaveId) (f : Flight) (va : Nat) : State :=
  (s.deferFault id f 0x17 0 f.fmask (va % 2 ^ 60)).finish id f.tag

/-- A release: the bound words are published, then COUNT and HOLDER change in one update and the next acquire is granted
(R119). It waits while an acknowledgement is withheld. -/
def State.releaseAtHome (s : State) (id : WaveId) (w : Wave) (f : Flight) (cell va : Nat) : State :=
  let runs := s.boundRuns cell
  let p := fun (k : Nat) => inRuns runs (4 * k) 4
  let free := fun (s : State) => ((s.updCell cell (fun h => { h with
    holder := none
    place := none
    update := none })).grantNext cell).finish id f.tag
  if s.updating cell f.tag then free s
  else
    let s := s.writeBack id.core p
    if !s.published id.core p then s
    else
      let (_, mid, count) := s.cellWord cell
      if mid ≠ 0 ∨ s.holds cell (s.identOf id w) = false then s.syncFail id f va
      else s.setCell cell 0 (count + 1) f.tag free

/-- The cells with bindings at a cell's home slice, but for the cell itself (R116). -/
def State.boundCells (s : State) (cell : Nat) : Nat :=
  let part := optD (s.partOfSector (cell / Config.sectorBytes)) 0
  let slice := fun (a : Nat) => (s.part part).homeSlice a
  (s.cells.filter (fun c => decide (c.1 ≠ cell) && decide (c.2.bindings ≠ []) && decide (slice c.1 = slice cell))).length

/-- `bind` or `unbind` at the home (R116, R277). -/
def State.bindAtHome (s : State) (id : WaveId) (w : Wave) (f : Flight) (cell va len vf base : Nat) (remove : Bool) : State :=
  let (_, mid, _) := s.cellWord cell
  let bs := (sget CellHome.fresh s.cells cell).bindings
  let b := (len, vf, base)
  if mid ≠ 0 ∨ s.holds cell (s.identOf id w) = false then s.syncFail id f va
  else if remove then
    if bs.contains b then (s.updCell cell (fun h => { h with bindings := h.bindings.erase b })).finish id f.tag
    else s.syncFail id f va
  else if 8 ≤ bs.length ∨ (bs = [] ∧ 64 ≤ s.boundCells cell) then s.syncFail id f va
  else (s.updCell cell (fun h => { h with bindings := h.bindings ++ [b] })).finish id f.tag

/-- `lnk.ld` at the home: no hold; the core discards stale words and fetched code of the bound regions, then the entry is read
(R271). -/
def State.linkageAtHome (s : State) (id : WaveId) (f : Flight) (cell cellVa entry reg : Nat) : State :=
  let (holder, mid, _) := s.cellWord cell
  if holder = 0xFFFF then (s.deferFault id f 0x10 3 f.fmask cellVa).finish id f.tag
  else if mid ≠ 0 then s.syncFail id f cellVa
  else
    let runs := s.boundRuns cell
    let s := s.discardRuns id.core runs
    let s := s.updCore id.core (fun c => c.dropCodes (fun a => inRuns runs (8 * a) 8))
    let e : LaneAcc := ⟨0, cellVa + (entry - cell), entry⟩
    let s := if entry = cell then s else s.fetchLoad id [e] 8 0 false f.applied
    if (if entry = cell then s.poisoned entry else s.lanePoison id.core false f.applied e) then
      let s := s.deferFault id f 0x10 2 f.fmask (cellVa + (entry - cell))
      s.finishWith id f.tag [⟨reg, 0, 0#32⟩, ⟨reg + 1, 0, 0#32⟩]
    else
      let bs := if entry = cell then (List.range 8).map (fun i => s.belowByte (s.partOfWave id) f.applied (entry + i))
        else s.laneBytes id 8 0 false f.applied e
      (s.updWave id (fun w => w.setOp f.tag (.result (wordWrites reg 0 (loadWords 8 false bs))))).drain id

/-- A request of a wave reaches its cell's home, once nothing of the wave stands before it (R118). -/
def State.evCellRequest (s : State) (id : WaveId) (tag : Nat) : State :=
  match s.wave id with
  | none => s
  | some w => match w.flight tag with
    | none => s
    | some f =>
      if !s.canPerform w f then s
      else
        let go := fun (cell : Nat) (act : State → State) =>
          let s := ((s.performAll id (some tag)).yieldWords id.core [cell / 4, cell / 4 + 1])
          if s.wordHeld (cell / 4) || s.wordHeld (cell / 4 + 1) then s else act (s.refreshCell cell)
        match f.op with
        | .acquire cell _ attempt _ _ phase _ _ =>
          if phase = 0 || (phase == 1 && s.updating cell tag) then go cell (fun s => s.acquireAtHome id w f cell attempt) else s
        | .release cell va => go cell (fun s => if s.performedBefore id tag then s.releaseAtHome id w f cell va else s)
        | .bindRegion cell cellVa len vf va remove => go cell (fun s => s.bindAtHome id w f cell cellVa len vf va remove)
        | .linkage cell cellVa entry reg => go cell (fun s => s.linkageAtHome id f cell cellVa entry reg)
        | _ => s

/-- CELL_REQUEST_AT_HOME (R117 to R119, R271, R277). -/
def execCellRequestAtHome (w : WaveId) (tag : Nat) (s : State) : Host.Outcome State Fault Refusal := .next (s.evCellRequest w tag)

/-- The answer to an acquire arrives at its core: a grant discards the bound regions' stale words and writes the results; a
POISONED or refused one ends as R275 and R119 state. -/
def State.evAcquireGrant (s : State) (id : WaveId) (tag : Nat) : State :=
  match s.wave id with
  | none => s
  | some w => match w.flight tag with
    | none => s
    | some f => match f.op with
      | .acquire cell va attempt reg mask 2 count status =>
        let result := fun (s : State) (ws : List RegWrite) =>
          ((s.updWave id (fun w => w.setOp tag (.result ws))).drain id).settle id
        let try' := fun (x : Word) => [⟨reg, 0, count⟩, (⟨reg + 1, 0, x⟩ : RegWrite)]
        match status with
        | 0 => result (s.discardRuns id.core (s.boundRuns cell))
            (if attempt then try' 0#32 else ⟨reg, 0, count⟩ :: (if mask = 0 then [] else [⟨0x200 + mask, 0, 0#32⟩]))
        | 1 => result s (try' 1#32)
        | 2 =>
          if attempt then result s (try' 2#32)
          else if mask ≠ 0 then result s [⟨reg, 0, count⟩, ⟨0x200 + mask, 0, 0xFFFFFFFF#32⟩]
          else (s.deferFault id f 0x10 3 f.fmask va).finish id tag
        | _ => s.syncFail id f va
      | _ => s

/-- ACQUIRE_GRANT (R117, R124, R275). -/
def execAcquireGrant (w : WaveId) (tag : Nat) (s : State) : Host.Outcome State Fault Refusal := .next (s.evAcquireGrant w tag)

/-! ### Fences (R122, R126, R278, R279) -/

/-- `fence` (R278). -/
def execFence (w : RWord) (s : State) := issueWord (.fence w) s (fun c s =>
  c.onPath 0 s (fun s => .done (if c.eff = 0#32 then s else s.launch c (.fence w.minor) [])))

/-- A fence of a wave, once its earlier accesses are performed: from ensemble scope on, the core's words are published and
what it does not own is dropped; from partition scope on, its sector's guest copies too (R122). -/
def State.fenceTry (s : State) (id : WaveId) (tag : Nat) : State :=
  match s.wave id with
  | none => s
  | some w => match w.flight tag with
    | none => s
    | some f => match f.op with
      | .fence scope =>
        if w.blockedBefore tag then s
        else
          let s := s.performAll id (some tag)
          if !s.performedBefore id tag then s
          else if scope < 2 then s.finish id tag
          else
            let s := s.writeBack id.core (fun _ => true)
            if !s.published id.core (fun _ => true) then s
            else
              let s := s.acquireAll id.core
              (if scope < 3 then s else s.dropGuests (fun sec _ => decide (sec = sectorOf id.core))).finish id tag
      | _ => s

/-- The accesses that an `xfence` from a path waits for (R126): those of its workgroup, or its wave's commands. -/
def State.fenceItems (s : State) (c : Ctx) (p : Nat) : List (Nat × Nat) :=
  let tags := fun (sel : FlightOp → Bool) => (s.wavesOf c.core c.wave.wg).flatMap (fun e =>
    (e.2.flights.filter (fun (f : Flight) => sel f.op)).map (fun (f : Flight) => (f.tag, 0)))
  match p with
  | 0 => tags (fun o => o.unperformed)
  | 1 => c.wg.channels.flatMap (fun ch => ch.2.todo.map (fun t => (t.id, 0)))
  | 2 => ((s.core c.core).cmds.filter (fun k => decide (k.w = c.id))).map (fun k => (k.num, 0))
  | 3 => tags (fun o => match o with
      | .gather .. => true
      | _ => false)
  | _ => c.wg.appended

/-- An `xfence` word (R279). -/
def Ctx.xfence (c : Ctx) (s : State) (w : RWord) (chan : Option (Nat × Word)) : Res :=
  c.onPath (w.minor % 8) s (fun s =>
    if c.eff = 0#32 then .done s
    else .done (s.launch c (.xfence (w.minor % 8) (w.minor / 8) (s.fenceItems c (w.minor % 8)) chan) []))

/-- `xfence` (R279). -/
def execXfence (w : RWord) (s : State) := issueWord (.xfence w) s (fun c s => c.xfence s w none)

/-- The channel form of `xfence` (R279). -/
def execXfenceCh (w : RWord) (s : State) := issueWord (.xfenceCh w) s (fun c s =>
  let ch := (c.uni w.a).toNat
  if c.eff ≠ 0#32 ∧ 8 ≤ ch then .raise c.valueFault c.eff s
  else c.xfence s w (some (ch, c.uni w.b)))

/-- Whether what an `xfence` waits for has come about (R126, R279). -/
def State.fenceMet (s : State) (id : WaveId) (w : Wave) (p : Nat) (items : List (Nat × Nat)) (chan : Option (Nat × Word)) : Bool :=
  match s.wg id.core w.wg with
  | none => true
  | some g =>
    match chan with
    | some (ch, v) => wrapGe (sget Channel.fresh g.channels ch).ptr.toNat v.toNat
    | none => items.all (fun (i : Nat × Nat) => match p with
      | 1 => !g.channels.any (fun ch => ch.2.todo.any (fun t => decide (t.id = i.1)))
      | 2 => !(s.core id.core).cmds.any (fun k => decide (k.num = i.1))
      | 4 => wrapGe (s.chainSeqWord g.part g.vf i.1) i.2
      | _ => !(s.wavesOf id.core w.wg).any (fun e => e.2.flights.any (fun (f : Flight) => decide (f.tag = i.1) &&
          (p == 3 || f.op.unperformed))))

/-- Writes of another path become visible to the vector path of a core: what its L1, its sector's guest copies and its pending reads
hold of words that it does not own goes (R126). -/
def State.seeOthers (s : State) (core : Nat) : State :=
  (s.updCore core (fun c => { c.dropWords (fun _ w => !w.owned && decide (w.priv = 0)) with misses := [] })).dropGuests
    (fun sec _ => decide (sec = sectorOf core))

/-- An `xfence` completes once its earlier accesses have; from the vector path, once the core's words are published; to the vector
path, its core gives up what it may hold stale (R126). -/
def State.xfenceTry (s : State) (id : WaveId) (tag : Nat) : State :=
  match s.wave id with
  | none => s
  | some w => match w.flight tag with
    | none => s
    | some f => match f.op with
      | .xfence p q items chan =>
        if !s.fenceMet id w p items chan then s
        else if p ≠ 0 then (if q = 0 then s.seeOthers id.core else s).finish id tag
        else
          let s := s.writeBack id.core (fun _ => true)
          if s.published id.core (fun _ => true) then s.finish id tag else s
      | _ => s

/-- What waits for acknowledgements at a core is tried again: fences, releases and `xfence`s of its waves (R119, R122). -/
def State.retryFences (s : State) (core : Nat) : State :=
  ((s.core core).waveList core).foldl (fun s e => e.2.flights.foldl (fun s (f : Flight) => match f.op with
    | .fence _ => s.fenceTry e.1 f.tag
    | .release .. => s.evCellRequest e.1 f.tag
    | .xfence .. => s.xfenceTry e.1 f.tag
    | .arrive .. => s.arriveTry e.1 f.tag
    | _ => s) s) s

/-- REGISTRATION_ACK: the acknowledgement of a word's registration reaches its core, unless it is withheld (R120, R127). -/
def execRegistrationAck (core word : Nat) (s : State) : Host.Outcome State Fault Refusal :=
  .next ((s.ackWord core word).retryFences core)

end Sys2Proof.Machine
end

