-- ==== Sys2Proof/Machine/Copy.lean ====
section
/-!
DEFINITION. Copies, gathers, command chains and key-value trimming (spec 03 R105 to R110; 10 R280 to R287; 24 R480, R487,
R489).
-/

namespace Sys2Proof.Machine

/-! ### Copies (R280 to R283) -/

/-- `xcopy`: the wave presents its slice and issues nothing until the copy is decided (R280). -/
def execXcopy (w : MWord) (s : State) := issueWord (.xcopy w) s (fun c s =>
  c.onPath 1 s (fun s =>
    let x : Slice := ⟨w.size, (w.imm.extractLsb' 14 3).toNat, w.seg.toNat, c.goff w (immLow w 14) 0,
      (c.wave.sreg w.immHi).toNat, (c.sreg w.d 0).toNat, c.pc, c.m⟩
    .stay (((s.updWave c.id (fun v => { v with slice := some x, lastIssue := s.clk })).copyDecide c.core c.wave.wg))))

/-- Whether a copy or gather of a core has not completed (R283). -/
def State.memberLive (s : State) (core id : Nat) : Bool :=
  let c := s.core core
  c.wgs.any (fun g => match g.2 with
    | some g => g.channels.any (fun h => h.2.todo.any (fun t => decide (t.id = id)))
    | none => false) ||
  (c.waveList core).any (fun e => e.2.flights.any (fun (f : Flight) => match f.op with
    | .gather i _ _ _ => decide (i = id)
    | _ => false))

/-- The finished batches of a core's waves are counted off, and waves that waited for them go on (R283). -/
def State.pruneBatches (s : State) (core : Nat) : State :=
  ((s.core core).waveList core).foldl (fun s e =>
    (s.updWave e.1 (fun w => { w with batches := w.batches.filter (fun b => b.any (fun i => s.memberLive core i)) })).settle e.1) s

/-- `cp.seal` (R283). -/
def execCpSeal (w : RWord) (s : State) := issueWord (.cpSeal w) s (fun c s =>
  if c.eff = 0#32 then .done s
  else if c.wave.openBatch.any (fun i => s.memberLive c.core i) then
    if 64 ≤ c.wave.batches.length then .raise (queueRaise (optD c.wave.openChan 0)) c.eff s
    else .done (s.updWave c.id (fun v => { v with batches := v.batches ++ [v.openBatch], openBatch := [], openChan := none }))
  else .done (s.updWave c.id (fun v => { v with openBatch := [], openChan := none })))

/-- `cp.wait` (R283). -/
def execCpWait (w : RWord) (s : State) := issueWord (.cpWait w) s (fun c s =>
  .done (if c.eff = 0#32 then s else s.record c ⟨0x08, 0, (c.uni w.a).toNat⟩))

/-- `cp.wp` (R283). -/
def execCpWp (w : RWord) (s : State) := issueWord (.cpWp w) s (fun c s =>
  let ch := (c.uni w.a).toNat
  if c.eff = 0#32 then .done s
  else if 8 ≤ ch then .raise c.valueFault c.eff s
  else .done (s.updWave c.id (fun v => v.sregSet (w.d.toNat - 0x100) (sget Channel.fresh c.wg.channels ch).ptr)))

/-- `cp.wpw` (R283). -/
def execCpWpw (w : RWord) (s : State) := issueWord (.cpWpw w) s (fun c s =>
  let ch := (c.uni w.a).toNat
  if c.eff = 0#32 then .done s
  else if 8 ≤ ch then .raise c.valueFault c.eff s
  else .done (s.record c ⟨0x09, ch, (c.uni w.b).toNat⟩))

/-- An engine fault contains the workgroup it works for (R489). -/
def State.engineFault (s : State) (core wg wave : Nat) (pc : Word) (code detail xinfo : Nat) : State :=
  match s.wg core wg with
  | none => s
  | some g =>
    let r := { s.wgRecord core g 3 code 0 detail xinfo with pc := pc.toNat }
    let r := match (s.wavesOf core wg).find? (fun e => decide (e.2.index = wave)) with
      | some e => { r with sched := e.1.sched, slot := e.1.slot }
      | none => r
    s.contain core wg r

/-- A copy unit faults: the rest of its copy is not moved (R489). -/
def State.copyFault (s : State) (core wg chan : Nat) (p : CopyPart) (code detail : Nat) : State :=
  let s := s.updWg core wg (fun g =>
    let ch := sget Channel.fresh g.channels chan
    { g with channels := sset Channel.fresh g.channels chan { ch with todo := ch.todo.filter (fun t => decide (t.id ≠ p.id)) } })
  (s.engineFault core wg p.wave p.pc code detail p.va).pruneBatches core

/-- A unit is visible: the write pointer advances by 64 and the channel goes on (R282). -/
def State.unitDone (s : State) (core wg chan : Nat) (p : CopyPart) : State :=
  let s := s.updWg core wg (fun g =>
    let ch := sget Channel.fresh g.channels chan
    let rest := ch.todo.drop 1
    let next := if p.left ≤ 64 then rest else { p with va := p.va + 64, loc := p.loc + 64, left := p.left - 64, sent := none } :: rest
    { g with channels := sset Channel.fresh g.channels chan ⟨ch.ptr + 64#32, next⟩ })
  (s.pruneBatches core).settleWg core wg

/-- The translation of an engine's address for a function: physical address, unmapped GROW page, or a fault (R487, R489). -/
def State.engineTranslate (s : State) (vf part va : Nat) (k : AccKind) : TransRes :=
  match s.walk vf va with
  | .page t =>
    let pa := t.pa + (va - t.va)
    match s.leafCheck vf part false t.leaf pa k with
    | some (c, d) => .bad c d
    | none => .ok (s.canon pa) t.leaf
  | .grow a =>
    let e := BitVec.ofNat 64 (s.homeNat a 8)
    if k.writes && !e.getLsbD 3 then .bad 0x0E 2
    else if !k.writes && !e.getLsbD 2 then .bad 0x0E 1
    else if e.getLsbD 5 && decide (vf ≠ 96) then .bad 0x0E 4 else .grow a
  | .bad c d => .bad c d

/-- Bytes as an engine reads them at their home (R127, R328). -/
def State.engineRead (s : State) (part : Nat) (mask : BitVec 8) (pa n : Nat) : List Byte :=
  (List.range n).map (fun i => s.belowByte part mask (pa + i))

/-- Whether a channel of a workgroup goes on: a core that is being pre-empted issues no further source read (R61). -/
def State.channelRuns (s : State) (core : Nat) (g : Workgroup) (p : CopyPart) : Bool :=
  (s.core core).preempt.isNone || g.contained.isSome || p.sent.isSome

/-- The next 64 B unit of a copy channel (R282): inbound into the local space, outbound to its home; its translation sets A, and D
where it writes (R103). A refused map stalls the channel (R480); a held registration is not yet visible (R127). -/
def State.evCopyUnit (s : State) (core wg chan : Nat) : State :=
  match s.wg core wg with
  | none => s
  | some g => match (sget Channel.fresh g.channels chan).todo with
    | [] => s
    | p :: _ =>
      if !s.channelRuns core g p then s else
      let space := copySpace p.dir
      let at' := (g.alloc space).start + p.loc
      if p.dir < 3 then
        let land := fun (s : State) (bs : List Byte) =>
          (s.updCore core (fun c => c.setSpaceBytes space at' bs)).unitDone core wg chan p
        match s.engineTranslate g.vf g.part p.va .load with
        | .ok pa _ =>
          if s.poisoned pa then s.copyFault core wg chan p 0x10 2
          else land (s.touchLeaf g.vf p.va false) (s.engineRead g.part (s.appliedMask core g.part) pa 64)
        | .bad c d => s.copyFault core wg chan p c d
        | _ => land s (List.replicate 64 0#8)
      else match p.sent with
        | some pa => if (List.range 16).any (fun i => s.wordHeld (pa / 4 + i)) then s else s.unitDone core wg chan p
        | none => match s.engineTranslate g.vf g.part p.va .store with
          | .ok pa _ =>
            let bytes := byteList pa ((s.core core).spaceBytes space at' 64)
            let s := s.touchLeaf g.vf p.va true
            if s.mustHold bytes then (s.register .engine g.ctx bytes).updWg core wg (fun g =>
              let ch := sget Channel.fresh g.channels chan
              { g with channels := sset Channel.fresh g.channels chan { ch with todo := { p with sent := some pa } :: ch.todo.drop 1 } })
            else (s.register .engine g.ctx bytes).unitDone core wg chan p
          | .grow a => (s.demandMap g.vf p.va a 1).2
          | .bad c d => s.copyFault core wg chan p c d
          | .miss => s

/-- COPY_UNIT_VISIBLE (R282). -/
def execCopyUnitVisible (core wg channel : Nat) (s : State) : Host.Outcome State Fault Refusal := .next (s.evCopyUnit core wg channel)

/-! ### Gathers (R284) -/

/-- The pieces of a lane's row at the 4 KiB pages it touches. -/
def rowPieces (va len : Nat) : List Nat :=
  va :: ((List.range (len / 4096 + 1)).map (fun i => (va / 4096 + i + 1) * 4096)).filter (fun p => decide (p < va + len))

/-- `gather` (R284). Its whole run is checked as one access of R81, so that the run starts at a multiple of its length (DEDUCED,
log 76). -/
def execGather (w : MWord) (s : State) := issueWord (.gather w) s (fun c s =>
  c.onPath 3 s (fun s =>
    let len := (c.wave.sreg w.immHi).toNat
    let base := (c.sreg w.d 0).toNat
    if c.eff = 0#32 then .done s
    else if len % 64 ≠ 0 ∨ len = 0 ∨ 1024 < len then .raise c.valueFault c.eff s
    else match localCheck (c.wg.usable .ab) (spaceCode .ab) base (32 * len) with
    | some r => .raise r c.eff s
    | none =>
      let rows := (c.accLanes false).flatMap (fun l =>
        match segCheck (c.seg w) (c.goff w (immLow w 17) l) len 1 .load with
        | .error r => [(l, (Except.error r : Except Raise Nat))]
        | .ok va => (rowPieces va len).map (fun p => (l, (Except.ok p : Except Raise Nat))))
      (s.access c false false .load rows).then (fun accs s =>
        let id := s.tags
        let s := { s with tags := id + 1 }
        let s := s.launch c (.gather id (c.wg.ab.start + base) len (plainAccs accs)) []
        .done (s.updWave c.id (fun v => { v with openBatch := v.openBatch ++ [id] })))))

/-- The bytes of a lane's row from its pieces, in ascending address. -/
def State.rowBytes (s : State) (part : Nat) (mask : BitVec 8) (len : Nat) (ps : List LaneAcc) : List Byte :=
  match ps with
  | [] => []
  | p :: rest =>
    let n := match rest with
      | q :: _ => q.va - p.va
      | [] => len
    (if p.pa = growPa then List.replicate n 0#8 else s.engineRead part mask p.pa n) ++ s.rowBytes part mask (len - n) rest

/-- The first piece of a row, if any, one of whose sectors is poisoned (R489). -/
def State.rowPoison (s : State) (len : Nat) (ps : List LaneAcc) : Option LaneAcc :=
  match ps with
  | [] => none
  | p :: rest =>
    let n := match rest with
      | q :: _ => q.va - p.va
      | [] => len
    if p.pa ≠ growPa ∧ (List.range ((n + 63) / 64 + 1)).any (fun i => decide (64 * i < p.pa % 64 + n) && s.poisoned (p.pa + 64 * i)) then some p
    else s.rowPoison (len - n) rest

/-- A row of a gather lands in the A-buffer, or faults on poison (R284, R489). -/
def State.evGatherRow (s : State) (id : WaveId) (tag lane : Nat) : State :=
  match s.wave id with
  | none => s
  | some w => match w.flight tag with
    | none => s
    | some f => match f.op with
      | .gather n base len rows =>
        let mine := rows.filter (fun a => decide (a.lane = lane))
        if mine = [] then s
        else
          let rest := rows.filter (fun a => decide (a.lane ≠ lane))
          match s.rowPoison len mine with
          | some a => ((s.engineFault id.core w.wg w.index f.pc 0x10 2 a.va).finish id tag).pruneBatches id.core
          | none =>
            let bs := s.rowBytes (s.partOfWave id) f.applied len mine
            let s := s.updCore id.core (fun c => c.setSpaceBytes .ab (base + lane * len) bs)
            if rest = [] then (s.finish id tag).pruneBatches id.core
            else s.updWave id (fun w => w.setOp tag (.gather n base len rest))
      | _ => s

/-- GATHER_ROW_LAND (R284). -/
def execGatherRowLand (w : WaveId) (tag lane : Nat) (s : State) : Host.Outcome State Fault Refusal := .next (s.evGatherRow w tag lane)

/-! ### Command chains (R285, R286) -/

/-- The entry words of `chain.add`: lanes 0 to 15 of V[D] (R286). -/
def Ctx.chainEntry (c : Ctx) (d : BitVec 9) : List Byte :=
  (List.range 16).flatMap (fun l => bytesOfNat (c.wave.vget d.toNat l).toNat 4)

/-- `chain.add` (R286): an access of the wave's vector path, in order with its earlier ones; only the engine's own accesses are
collective. While an earlier append or write of the descriptor waits at its home, it waits (R127). -/
def execChainAdd (w : MWord) (s : State) := issueWord (.chainAdd w) s (fun c s =>
  c.onPath 0 s (fun s =>
    if c.wave.blocked then s.wait else
    (s.access c false true .store (c.gaddrs w (immAll w) true 64 64 .store)).then (fun accs s =>
      match accs with
      | [] => .done s
      | (a, _) :: _ =>
        let s := (s.performAll c.id none).yieldWords c.core ((List.range 16).map (fun i => a.pa / 4 + i))
        if s.heldAt a.pa 64 then s.wait else
        let d := BitVec.ofNat 512 (s.homeNat a.pa 64)
        let num := bitsN d 442 437
        let tail := bitsN d 383 352
        let size := 2 ^ bitsN d 447 443
        match s.chainOf c.wg.part c.wg.vf num with
        | none => .raise ⟨0x1A, 2, a.va % 2 ^ 60⟩ c.eff s
        | some _ =>
          if (tail + 2 ^ 32 - bitsN d 351 320) % 2 ^ 32 = size then .raise ⟨0x1A, 1, a.va % 2 ^ 60⟩ c.eff s
          else
            let slot := bitsN d 511 448 + 64 * (tail % size)
            (s.access c false true .store [(a.lane, .ok slot)]).then (fun es s =>
              match es with
              | [] => .done s
              | (e, _) :: _ =>
                let next := (tail + 1) % 2 ^ 32
                let s := s.yieldWords c.core ((List.range 16).map (fun i => e.pa / 4 + i))
                let s := s.register .engine c.ctx (byteList e.pa (c.chainEntry w.d))
                let s := s.register .engine c.ctx (byteList (a.pa + 44) (bytesOfNat next 4))
                .done (s.updWg c.core c.wave.wg (fun g => { g with
                  appended := g.appended.filter (fun x => decide (x.1 ≠ num)) ++ [(num, next)] }))))))

/-- `chain.seq` (R286). -/
def execChainSeq (w : RWord) (s : State) := issueWord (.chainSeq w) s (fun c s =>
  let n := (c.uni w.a).toNat
  if c.eff = 0#32 then .done (s.launch c (.result []) [w.d.toNat])
  else if 64 ≤ n then .raise c.valueFault c.eff s
  else .done (s.launch c (.result [⟨w.d.toNat, 0, wd (s.chainSeqWord c.wg.part c.wg.vf n)⟩]) [w.d.toNat]))

/-- `chain.wait` (R286). -/
def execChainWait (w : RWord) (s : State) := issueWord (.chainWait w) s (fun c s =>
  let n := (c.uni w.a).toNat
  if c.eff = 0#32 then .done s
  else if 64 ≤ n then .raise c.valueFault c.eff s
  else .done (s.record c ⟨0x0A, n, (c.uni w.b).toNat⟩))

/-! ### Trimming (R110, R287) -/

/-- The address of the first of the sixteen level-0 leaves of a 64 KiB page of a function, where tables reach that level. -/
def State.leafGroup (s : State) (vf va : Nat) : Option Nat :=
  let rec go (table : Nat) : List Nat → Option Nat
    | [] => some (table + 8 * (va / 65536 * 16 % 4096))
    | level :: rest => match s.readPte (table + 8 * (va / 2 ^ (12 * (level + 1)) % 4096)) with
      | none => none
      | some e => if pteV e && !pteLeaf e then go (ptePa e) rest else none
  go (s.rootOf vf) [3, 2, 1]

/-- The sixteen leaves of a group. -/
def State.groupLeaves (s : State) (a : Nat) : List Dword := (List.range 16).map (fun i => BitVec.ofNat 64 (s.homeNat (a + 8 * i) 8))

/-- Every TLB of a partition drops a function's translations of a range (R110, R258, R387). -/
def State.dropTlb (s : State) (part vf va len : Nat) : State :=
  (s.part part).cores.foldl (fun s n => if (s.core n).tlb = [] then s else s.updCore n (fun c => { c with
    tlb := c.tlb.filter (fun t => !(decide (t.vf = vf) && decide (va < t.va + t.bytes) && decide (t.va < va + len))) })) s

/-- The leaves of a page's trim have registered (R110, step 1). -/
def State.trimUnheld (s : State) (t : TrimFrame) : Bool := decide (t.stage ≠ 0) || !s.heldAt t.leaf t.leafBytes

/-- Step 2 of every trim of a partition whose leaves have registered: every TLB drops the page (R110). While a watch holds the leaves'
registration the trim goes no further (R323). -/
def State.trimDrops (s : State) (part : Nat) : State :=
  let go := fun (s : State) (t : TrimFrame) => decide (t.stage = 0) && s.trimUnheld t
  let s' := ((s.part part).trims.filter (fun t => go s t)).foldl (fun (s : State) t => s.dropTlb part t.vf t.va t.bytes) s
  s'.updPart part (fun p => { p with trims := p.trims.map (fun t => if go s t then { t with stage := 1 } else t) })

/-- Return a mapped page to the unmapped GROW state; its frame waits for the accesses translated before (R110). -/
def State.trimPage (s : State) (part vf ctx va : Nat) : Bool × State :=
  match s.leafGroup vf va with
  | none => (false, s)
  | some a =>
    let ls := s.groupLeaves a
    match ls with
    | [] => (false, s)
    | e :: _ =>
      if !pteV e then (false, s)
      else
        let clear := fun (x : Dword) => setBits (setBits (setBits x 0 0 0) 7 6 0) 51 12 0
        let s := s.engineWrite ctx a (ls.flatMap (fun x => bytesOfNat (clear x).toNat 8))
        let s := s.updPart part (fun p => { p with trims := p.trims ++ [⟨ptePa e, va / 65536 * 65536, 65536, a, 128, s.poolOf vf, vf, 0⟩] })
        (true, s.trimDrops part)

/-- `kvtrim` (R287). -/
def execKvtrim (w : MWord) (s : State) := issueWord (.kvtrim w) s (fun c s =>
  c.onPath 0 s (fun s =>
    let q := 0x100 + w.immHi
    let word := fun (i : Nat) => c.wave.opnd (q + i) 0
    let new := pair64 (word 0) (word 1)
    let res := pair64 (word 2) (word 3)
    let g := c.seg w
    let off := c.goff w (immLow w 17) 0
    let va := wrapInt 64 ((segBase g : Int) + off)
    let regs := [w.d.toNat]
    if c.eff = 0#32 then .done (s.launch c (.result []) regs)
    else if c.wave.blocked then s.wait
    else if va % 65536 ≠ 0 ∨ res % 65536 ≠ 0 then .raise ⟨0x0C, 0, va⟩ c.eff s
    else if g.getLsbD 125 = false then .raise ⟨0x0E, 5, va⟩ c.eff s
    else if segValid g = false ∨ off < 0 ∨ (segLimit g : Int) < off + res then .raise ⟨0x0A, 0, va⟩ c.eff s
    else
      let first := (new + 65535) / 65536
      let pages := (List.range (res / 65536 - first)).map (fun i => va + (first + i) * 65536)
      let bad := pages.find? (fun p => match s.leafGroup c.wg.vf p with
        | none => true
        | some a => (s.groupLeaves a).any (fun e => !pteGrow e))
      match bad with
      | some p => .raise ⟨0x0D, 8, p⟩ c.eff s
      | none =>
        let (n, s) := pages.foldl (fun (acc : Nat × State) p =>
          let r := acc.2.trimPage c.wg.part c.wg.vf c.ctx p
          (if r.1 then acc.1 + 1 else acc.1, r.2)) (0, s)
        .done (s.launch c (.trim w.d.toNat n) regs)))

/-- The bytes of the physical range that a trim or an UNMAP of a page waits for: its frame, or the page where no pool counts it. -/
def TrimFrame.len (t : TrimFrame) : Nat := if t.pool = 0 then t.bytes else 65536

/-- Whether an access in flight was translated into a physical range (R110). -/
def FlightOp.inRange (o : FlightOp) (pa len : Nat) : Bool :=
  let hit := fun (a : Nat) => decide (pa ≤ a) && decide (a < pa + len)
  o.words.any (fun k => hit (4 * k)) || (match o with
    | .gather _ _ _ rows => rows.any (fun a => hit a.pa)
    | .later _ none accs _ _ _ data => accs.any (fun a => hit a.2) || data.any (fun b => hit b.1)
    | _ => false)

/-- Whether every access already translated into a physical range has completed (R110, step 3). -/
def State.rangeQuiet (s : State) (pa len : Nat) : Bool :=
  s.cores.all (fun c => c.2.waves.all (fun e => match e.2 with
    | some w => w.flights.all (fun (f : Flight) => !f.op.inRange pa len)
    | none => true)) &&
  s.parts.all (fun p => p.2.saved.all (fun x => x.waves.all (fun w => w.flights.all (fun (f : Flight) => !f.op.inRange pa len))))

/-- Whether every access translated through the old leaves of a trimmed page has completed (R110, step 3). -/
def State.trimQuiet (s : State) (t : TrimFrame) : Bool := decide (t.stage ≠ 0) && s.rangeQuiet t.frame t.len

/-- Whether the pool record, the reference count or the frame of a trim waits in a held write (R127). -/
def State.trimHeld (s : State) (t : TrimFrame) (count : Nat) : Bool :=
  s.heldAt t.pool 64 || s.heldAt count 4 || s.heldWrites.any (fun h => h.bytes.any (fun b => decide (b.1 / 65536 = t.frame / 65536)))

/-- Step 5: a cleared frame returns to its pool, in one update of the record, unless firmware retires it (R110, R486). -/
def State.returnFrame (s : State) (part : Nat) (t : TrimFrame) : State :=
  let taken := s.poolField t.pool 383 352 - 1
  if (s.part part).retiring.contains t.frame then s.setPool t.pool [(383, 352, taken)]
  else
    let free := s.poolField t.pool 447 416
    let s := s.engineWrite 0 (s.poolField t.pool 511 448 + 8 * free) (bytesOfNat t.frame 8)
    s.setPool t.pool [(383, 352, taken), (447, 416, free + 1)]

/-- The first page of a partition whose earlier accesses have completed goes on: its frame loses a reference; without one it is
cleared and, once that has registered, returns to its pool, unless firmware retires it (R110, R486). The cores' own bytes of it register
first. A frame of a page that no two reservations share has no count that R109 has software set; the count is not set by the
demand map either, and 0 less one stays 0, so that its frame returns (DESIGN CHOICE, log 77). -/
def State.evTrimReturn (s : State) (part : Nat) : State :=
  let s := s.trimDrops part
  match (s.part part).trims.find? (fun t => s.trimQuiet t) with
  | none => s
  | some t =>
    let done := fun (s : State) => s.updPart part (fun q => { q with trims := q.trims.erase t })
    if t.pool = 0 then done s
    else
      let count := s.poolField t.pool 351 288 + 4 * ((s.part part).rel t.frame / 65536)
      if s.trimHeld t count then s
      else if t.stage = 2 then (done s).returnFrame part t
      else
        let p := fun (k : Nat) => decide (k / 16384 = t.frame / 65536)
        let s := (skeys s.cores).foldl (fun s n => s.writeBack n p) s
        let n := s.homeNat count 4 - 1
        let s := s.engineWrite 0 count (bytesOfNat n 4)
        if n ≠ 0 then done s
        else if (s.part part).retiring.contains t.frame then (done s).returnFrame part t
        else
          let s := (List.range 1024).foldl (fun (s : State) i => s.engineWrite 0 (t.frame + 64 * i) (List.replicate 64 0#8)) s
          let t' := { t with stage := 2 }
          if s.trimHeld t' count then s.updPart part (fun q => { q with trims := q.trims.map (fun x => if x = t then t' else x) })
          else (done s).returnFrame part t

/-- TRIM_FRAME_RETURN (R110). -/
def execTrimFrameReturn (part : Nat) (s : State) : Host.Outcome State Fault Refusal := .next (s.evTrimReturn part)

/-- `kvtrim` writes its count once the accesses of every trimmed page have completed (R287). -/
def State.trimWrite (s : State) (id : WaveId) (tag reg count : Nat) : State :=
  let part := s.partOfWave id
  let vf := s.vfOfWave id
  let s := s.trimDrops part
  if (s.part part).trims.all (fun t => decide (t.vf ≠ vf) || s.trimQuiet t) then s.finishWith id tag [⟨reg, 0, wd count⟩]
  else s

/-- A variable-latency result is written: a trim, a pop, or an access that has been performed (R176). -/
def State.evVariableWrite (s : State) (id : WaveId) (tag : Nat) : State :=
  match s.wave id with
  | none => s
  | some w => match w.flight tag with
    | none => s
    | some f => match f.op with
      | .trim reg count => s.trimWrite id tag reg count
      | _ => s.evVariableResult id tag

end Sys2Proof.Machine
end

