-- ==== Sys2Proof/Machine/Census.lean ====
section
/-!
DEFINITION. Tile directories, solicit and census: the instructions, the root order, commits, combining and results (spec 14
R360 to R376; 23 R471).
-/

namespace Sys2Proof.Machine

/-! ### Directory entries (R360, R362) -/

/-- A directory entry of a core. -/
def Core.dir (c : Core) (e : Nat) : DirEntry := sget DirEntry.empty c.dirs e

/-- A directory entry changed. -/
def State.updDir (s : State) (core e : Nat) (f : DirEntry → DirEntry) : State :=
  s.updCore core (fun c => { c with dirs := sset DirEntry.empty c.dirs e (f (c.dir e)) })

/-- The lowest FREE entry of a core. -/
def Core.freeDir (c : Core) : Option Nat := (List.range 256).find? (fun e => decide ((c.dir e).state = .free))

/-- A CENSUS fault on an entry or slot (R444). -/
def censusRaise (n : Nat) : Raise := ⟨0x15, 0, n % 256⟩

/-- A result word of `dir`: STATUS in bits 31:28, VALUE in bits 27:0 (R364). -/
def dirResult (status value : Nat) : Word := wd (status * 2 ^ 28 + value % 2 ^ 28)

/-- A scalar result of fixed latency decided at issue. -/
def State.fixedScalar (s : State) (c : Ctx) (reg : Nat) (x : Word) (lat : Nat) : State :=
  s.updWave c.id (fun w => { (w.regSet reg 0 x) with pend := w.pend ++ [⟨reg, false, s.clk + lat, 0⟩] })

/-- Send a message to the partition's root. -/
def State.sendRoot (s : State) (part : Nat) (m : RootMsg) : State :=
  s.updPart part (fun p => { p with rootInbox := p.rootInbox ++ [m] })

/-! ### Directory instructions (R364, R365) -/

/-- `dir.ins` (R364). -/
def execDirIns (w : RWord) (s : State) := issueWord (.dirIns w) s (fun c s =>
  let hi := (c.sreg w.a 1).toNat
  let key := hi % 2 ^ 16 * 2 ^ 32 + (c.sreg w.a 0).toNat
  let wside := (c.sreg w.a 1).getLsbD 24
  let space := if wside then Space.wb else Space.sp
  let o := (c.sreg w.a 2).toNat
  let n := (c.sreg w.a 3).toNat
  if c.eff = 0#32 then .done (s.launch c (.result []) [w.d.toNat])
  else if hi / 2 ^ 25 ≠ 0 then .raise (censusRaise 0) c.eff s
  else if o % 64 ≠ 0 ∨ n % 64 ≠ 0 ∨ n = 0 then .raise ⟨0x0C, 0, o + spaceCode space * 2 ^ 60⟩ c.eff s
  else if c.wg.usable space < o + n then .raise ⟨0x0B, 0, o + spaceCode space * 2 ^ 60⟩ c.eff s
  else match (s.core c.core).freeDir with
    | none => .done (s.fixedScalar c w.d.toNat (dirResult 1 0) 8)
    | some e =>
      let d : DirEntry := ⟨key, c.ctx, wside, (c.wg.alloc space).start + o, n, .pending, hi / 2 ^ 16 % 256, c.wave.wg⟩
      let tag := s.tags
      let s := (s.updDir c.core e (fun _ => d)).launch c (.dirCommit true e w.d.toNat) [w.d.toNat]
      .done (s.sendRoot c.wg.part (.insert c.core e c.id tag)))

/-- `dir.del` (R364). -/
def execDirDel (w : RWord) (s : State) := issueWord (.dirDel w) s (fun c s =>
  let e := (c.uni w.a).toNat
  let d := (s.core c.core).dir e
  if c.eff = 0#32 then .done (s.launch c (.result []) [w.d.toNat])
  else if 255 < e then .raise c.valueFault c.eff s
  else if d.state = .free ∨ d.state = .pending ∨ d.wg ≠ c.wave.wg then .raise (censusRaise e) c.eff s
  else if d.state = .moving then .done (s.fixedScalar c w.d.toNat (dirResult 2 0) 8)
  else
    let tag := s.tags
    .done ((s.launch c (.dirCommit false e w.d.toNat) [w.d.toNat]).sendRoot c.wg.part (.delete c.core e c.id tag)))

/-- `dir.look` (R364). -/
def execDirLook (w : RWord) (s : State) := issueWord (.dirLook w) s (fun c s =>
  let hi := (c.sreg w.a 1).toNat
  let key := hi % 2 ^ 16 * 2 ^ 32 + (c.sreg w.a 0).toNat
  let k := s.core c.core
  if c.eff = 0#32 then .done s
  else if hi / 2 ^ 16 ≠ 0 then .raise (censusRaise 0) c.eff s
  else
    let hit := (List.range 256).find? (fun e =>
      let d := k.dir e
      (decide (d.state = .valid) || decide (d.state = .moving)) && decide (d.wg = c.wave.wg) && decide (d.key = key))
    .done (s.updWave c.id (fun v => v.regSet w.d.toNat 0 (match hit with
      | some e => wd e
      | none => 0xFFFFFFFF#32))))

/-- `dir.mov` (R365): the checks at issue and step 1. A member that has exited stands as slot 128, which no workgroup has: step 2 answers
TARGET. -/
def execDirMov (w : RWord) (s : State) := issueWord (.dirMov w) s (fun c s =>
  let e := (c.uni w.a).toNat
  let r := (c.uni w.b).toNat
  let o := (c.uni w.c).toNat
  let d := (s.core c.core).dir e
  if c.eff = 0#32 then .done (s.launch c (.result []) [w.d.toNat])
  else if c.wg.ensSize < 2 ∨ c.wg.ensSize ≤ r ∨ r = c.wg.ensRank ∨ 255 < e then .raise c.valueFault c.eff s
  else if (d.state ≠ .valid ∧ d.state ≠ .moving) ∨ d.wg ≠ c.wave.wg then .raise (censusRaise e) c.eff s
  else if o % 64 ≠ 0 then .raise ⟨0x0C, 0, o + (if d.wside then 2 ^ 60 else 0)⟩ c.eff s
  else if d.state = .moving then .done (s.fixedScalar c w.d.toNat (dirResult 2 0) 8)
  else
    let to' := (s.ensemble c.core c.wave.wg).find? (fun x => match s.wg x.1 x.2 with
      | some g => decide (g.ensRank = r)
      | none => false)
    let to' := optD to' (c.core, 128)
    .done ((s.updDir c.core e (fun d => { d with state := .moving })).launch c
      (.dirMove e to'.1 to'.2 r o 0 1 w.d.toNat) [w.d.toNat]))

/-- An entry that has become VALID after its workgroup's last wave exited is deleted (R362). -/
def State.dropIfOver (s : State) (core e : Nat) : State :=
  let d := (s.core core).dir e
  match s.wg core d.wg with
  | some g => if d.state = .valid ∧ (List.range g.waves).all (fun n => g.exitedWaves.getLsbD n) = true then
      s.sendDelete g.part core e else s
  | none => s

/-- Step 2 of a move: the target's allocation and a FREE entry of its core (R365). -/
def State.evMoveCheck (s : State) (id : WaveId) (tag : Nat) : State :=
  match s.wave id with
  | none => s
  | some w => match w.flight tag with
    | none => s
    | some f => match f.op with
      | .dirMove e core wg rank o _ 1 reg =>
        let d := (s.core id.core).dir e
        let space := if d.wside then Space.wb else Space.sp
        let fail := fun (status : Nat) =>
          let s := s.updDir id.core e (fun d => { d with state := .valid })
          (s.finishWith id tag [⟨reg, 0, dirResult status 0⟩]).dropIfOver id.core e
        match s.wg core wg with
        | none => fail 3
        | some g =>
          if !(s.ensemble id.core w.wg).contains (core, wg) || decide (g.usable space < o + d.len) then fail 3
          else match (s.core core).freeDir with
            | none => fail 1
            | some t =>
              let s := s.updDir core t (fun _ => { d with
                addr := (g.alloc space).start + o
                state := .pending
                wg := wg })
              s.updWave id (fun w => w.setOp tag (.dirMove e core wg rank o t 2 reg))
      | _ => s

/-- MOVE_TARGET_CHECK (R365). -/
def execMoveTargetCheck (w : WaveId) (tag : Nat) (s : State) : Host.Outcome State Fault Refusal := .next (s.evMoveCheck w tag)

/-- Steps 3 and 4 of a move: every byte has landed, and the move commit goes to the root (R365). -/
def State.evMoveCopy (s : State) (id : WaveId) (tag : Nat) : State :=
  match s.wave id with
  | none => s
  | some w => match w.flight tag with
    | none => s
    | some f => match f.op with
      | .dirMove e core wg rank o t 2 reg =>
        let d := (s.core id.core).dir e
        let space := if d.wside then Space.wb else Space.sp
        let bs := (s.core id.core).spaceBytes space d.addr d.len
        let s := s.updCore core (fun c => c.setSpaceBytes space (c.dir t).addr bs)
        let s := s.updWave id (fun w => w.setOp tag (.dirMove e core wg rank o t 3 reg))
        s.sendRoot (s.partOfWave id) (.move id.core e core t id tag)
      | _ => s

/-- MOVE_COPY_COMPLETE (R365). -/
def execMoveCopyComplete (w : WaveId) (tag : Nat) (s : State) : Host.Outcome State Fault Refusal := .next (s.evMoveCopy w tag)

/-! ### Solicit and results (R366, R372) -/

/-- The key or mask of a solicit: 48 bits of two words. -/
def solKey (lo hi : Word) : Nat := hi.toNat % 2 ^ 16 * 2 ^ 32 + lo.toNat

/-- `sol` (R366, R376). -/
def execSol (w : RWord) (s : State) := issueWord (.sol w) s (fun c s =>
  let a := fun (i : Nat) => c.sreg w.a i
  let h := c.uni w.b
  let g15 := sget 0#128 c.wave.segs 15
  if c.eff = 0#32 then .done s
  else if segValid g15 = false ∨ segLimit g15 < 8 * h.toNat + 8 then .raise ⟨0x0A, 0, segBase g15 + 8 * h.toNat⟩ c.eff s
  else if (a 1).toNat / 2 ^ 16 ≠ 0 ∨ (a 3).toNat / 2 ^ 16 ≠ 0 then .raise (censusRaise 0) c.eff s
  else match (List.range 4).find? (fun i => !(c.wave.census.getD i CensusSlot.empty).busy) with
    | none => .raise (censusRaise 0) c.eff s
    | some i =>
      let p := { Place.empty with
        asker := c.id
        record := c.wave.record
        slot := i
        ctx := c.ctx
        vf := c.wg.vf
        key := solKey (a 0) (a 1)
        mask := solKey (a 2) (a 3)
        handler := h
        arg := c.uni w.c
        rule := w.minor % 8
        ty := w.ty
        width := w.flags.toNat % 8 + 1
        seg15 := g15 }
      let s := s.updWave c.id (fun v => { (v.regSet w.d.toNat 0 (wd i)) with
        census := v.census.set i { CensusSlot.empty with busy := true } })
      .done (s.updPart c.wg.part (fun q => { q with solicits := q.solicits ++ [⟨c.id, p⟩] })))

/-- `cns.wait`: a slot that has no census outstanding meets the condition at once; VALUE names the slot (R372). -/
def execCnsWait (w : RWord) (s : State) := issueWord (.cnsWait w) s (fun c s =>
  let n := (c.uni w.a).toNat
  if c.eff = 0#32 then .done s
  else if 3 < n then .raise c.valueFault c.eff s
  else .done (s.record c ⟨0x07, (c.wave.census.getD n CensusSlot.empty).id.toNat, n⟩))

/-- `cns.rd` (R372). -/
def execCnsRd (w : RWord) (s : State) := issueWord (.cnsRd w) s (fun c s =>
  let n := (c.uni w.a).toNat
  let x := c.wave.census.getD n CensusSlot.empty
  if c.eff = 0#32 then .done s
  else if 3 < n then .raise c.valueFault c.eff s
  else if x.complete = false then .raise (censusRaise n) c.eff s
  else .done (s.updWave c.id (fun v =>
    let v := v.regWrites ((List.range 8).map (fun i => (⟨w.d.toNat + i, 0, x.reply.getD i 0#32⟩ : RegWrite)) ++
      [⟨w.d.toNat + 8, 0, x.count⟩, ⟨w.d.toNat + 9, 0, x.status⟩])
    { v with census := v.census.set n CensusSlot.empty })))

/-- `resp.end` (R370). -/
def execRespEnd (w : RWord) (s : State) := issueWord (.respEnd w) s (fun c s =>
  match c.wave.resp with
  | none => .raise ⟨0x01, 5, c.word.toNat⟩ c.eff s
  | some r =>
    let p := s.place r.part r.place
    .stay ((s.countIssue c.id).responderEnd c.id r ⟨(List.range p.width).map (fun i => c.wave.sreg (8 + i)), 1, 0, 0⟩))

/-! ### Root order (R361, R366) -/

/-- Whether a resident wave of a core has a record of a function. -/
def State.hasRecord (s : State) (core : Nat) (w : Wave) (vf record : Nat) : Bool :=
  decide (w.record = record) && w.resp.isNone && (match s.wg core w.wg with
    | some g => decide (g.vf = vf)
    | none => false)

/-- The wave of a record of a function, where it is resident, or else saved, changed. -/
def State.updRecord (s : State) (part vf record : Nat) (f : Wave → Wave) : State :=
  let hit := (s.part part).cores.findSome? (fun n => ((s.core n).waveList n).findSome? (fun e =>
    if s.hasRecord n e.2 vf record then some e.1 else none))
  match hit with
  | some id => s.updWave id f
  | none => s.updPart part (fun p => { p with saved := p.saved.map (fun x => if x.wg.vf = vf then
      { x with waves := x.waves.map (fun w => if w.record = record then f w else w) } else x) })

/-- A wave's census slot takes its census id, and a wait for it names it. -/
def Wave.nameCensus (slot : Nat) (id : Word) (w : Wave) : Wave :=
  let k := fun (x : Wake) => if x.kind = 0x07 ∧ x.value = slot then { x with object := id.toNat } else x
  { w with
    census := w.census.set slot { (w.census.getD slot CensusSlot.empty) with id := id }
    conds := w.conds.map k
    parked := w.parked.map k }

/-- A waiting solicit takes a place of the root, where one is free, and its place in root order (R366). -/
def State.orderSolicit (s : State) (part index : Nat) : State :=
  let p := s.part part
  match p.solicits.drop index, (List.range 256).find? (fun n => !(sget Place.empty p.places n).busy) with
  | r :: _, some n =>
    let gen := ((sget Place.empty p.places n).gen + 1) % 2 ^ 24
    let s := s.updPart part (fun q => { q with
      solicits := q.solicits.take index ++ q.solicits.drop (index + 1)
      places := sset Place.empty q.places n { r.place with
        busy := true
        gen := gen }
      rootLog := q.rootLog ++ [.solicit n] })
    s.updRecord part r.place.vf r.place.record (Wave.nameCensus r.place.slot (censusId n gen))
  | _, _ => s

/-- One message takes its place in root order: the commits that have arrived are numbered first, then the solicits. -/
def State.evRootOrder (s : State) (part index : Nat) : State :=
  let p := s.part part
  match p.rootInbox.drop index with
  | m :: _ => s.updPart part (fun q => { q with
      rootInbox := q.rootInbox.take index ++ q.rootInbox.drop (index + 1)
      rootLog := q.rootLog ++ [m] })
  | [] => s.orderSolicit part (index - p.rootInbox.length)

/-- The core that sends a root message. -/
def RootMsg.sender (m : RootMsg) : Option Nat := match m with
  | .solicit _ => none
  | .insert n _ _ _ => some n
  | .delete n _ _ _ => some n
  | .move n _ _ _ _ _ => some n

/-- The message that the root orders next among those that wait: of the lowest sending core, a commit before a solicit of the same core;
a solicit that finds no free place waits (R366, R374). -/
def State.rootIndex (s : State) (part : Nat) : Option Nat :=
  let p := s.part part
  let free := (List.range 256).any (fun n => !(sget Place.empty p.places n).busy)
  let senders := p.rootInbox.map (fun m => m.sender.getD 0) ++ (if free then p.solicits.map (fun r => r.place.asker.core) else [])
  ((List.range senders.length).zip senders).foldl (fun (best : Option (Nat × Nat)) x => match best with
    | none => some x
    | some b => if x.2 < b.2 then some x else best) none |>.map (fun x => x.1)

/-- The messages that have reached the root in a cycle take their places in root order (R361, R374). -/
def State.rootOrderAll (s : State) (part : Nat) : Nat → State
  | 0 => s
  | n + 1 => match s.rootIndex part with
    | none => s
    | some i => (s.evRootOrder part i).rootOrderAll part n

/-- ROOT_ORDER_ENTRY (R361, R366). -/
def execRootOrderEntry (part index : Nat) (s : State) : Host.Outcome State Fault Refusal := .next (s.evRootOrder part index)

/-- Whether a root message concerns a core. -/
def RootMsg.concerns (m : RootMsg) (core : Nat) : Bool := match m with
  | .solicit _ => true
  | .insert n _ _ _ => decide (n = core)
  | .delete n _ _ _ => decide (n = core)
  | .move n _ n' _ _ _ => decide (n = core) || decide (n' = core)

/-- The number of messages a core passes over and the next one that concerns it. -/
def nextRoot (core : Nat) : List RootMsg → Option (Nat × RootMsg)
  | [] => none
  | m :: rest => if m.concerns core then some (0, m)
    else (nextRoot core rest).map (fun x => (x.1 + 1, x.2))

/-- The partition of a core and the next root message for it. -/
def State.rootNext (s : State) (core : Nat) : Option (Nat × Nat × RootMsg) :=
  match s.partOfSector (sectorOf core) with
  | none => none
  | some part => (nextRoot core ((s.part part).rootLog.drop (s.core core).rootSeen)).map (fun x => (part, x.1, x.2))

/-- A core has passed messages of the root. -/
def State.rootPassed (s : State) (core n : Nat) : State := s.updCore core (fun c => { c with rootSeen := c.rootSeen + n })

/-- Whether an entry matches a solicit (R360). -/
def DirEntry.matches (d : DirEntry) (p : Place) : Bool :=
  (decide (d.state = .valid) || decide (d.state = .moving)) && decide (d.ctx = p.ctx) &&
    decide (Nat.land d.key p.mask = Nat.land p.key p.mask)

/-- A core applies a solicit: its matches are fixed, and their responders start or wait; with none it answers at once (R361,
R368). -/
def State.applySolicit (s : State) (part core n : Nat) : State :=
  let p := s.place part n
  let c := s.core core
  let hits := (List.range 256).filter (fun e => (c.dir e).matches p)
  if hits = [] then s.updPlace part n (fun p => { p with replies := sset none p.replies core (some p.identity) })
  else
    let s := s.updPlace part n (fun p => { p with waiting := sset 0 p.waiting core hits.length })
    let s := s.updCore core (fun c => { c with spawns := c.spawns ++ hits.map (fun e => ⟨part, n, e, c.dir e⟩) })
    s.startResponders core 2

/-- Whether a core's solicit queue is full: eight solicits wait behind the one that waits for spawns, and the cluster node holds the
later root messages (R368). -/
def Core.solicitsFull (c : Core) : Bool := decide (9 ≤ (dedup (c.spawns.map (fun x => x.place))).length)

/-- The next root message of a core, if it is a solicit; it is held while the core's solicit queue is full (R368). -/
def State.evSolicitApply (s : State) (core : Nat) : State :=
  match s.rootNext core with
  | some (part, k, .solicit n) =>
    if (s.core core).solicitsFull then s
    else (s.rootPassed core (k + 1)).applySolicit part core n
  | _ => s

/-- SOLICIT_APPLY (R361, R368). -/
def execSolicitApply (core : Nat) (s : State) : Host.Outcome State Fault Refusal := .next (s.evSolicitApply core)

/-- The wave that waits for a commit takes its result; a delete of an exit or a save has none. -/
def State.commitResult (s : State) (id : WaveId) (tag value : Nat) : State :=
  match s.wave id with
  | none => s
  | some w => match w.flight tag with
    | none => s
    | some f => match f.op with
      | .dirCommit _ _ reg | .dirMove _ _ _ _ _ _ _ reg => s.finishWith id tag [⟨reg, 0, dirResult 0 value⟩]
      | _ => s

/-- A core applies a commit (R361, R364, R365). -/
def State.applyCommit (s : State) (core : Nat) (m : RootMsg) : State :=
  match m with
  | .insert _ e id tag =>
    ((s.updDir core e (fun d => if d.state = .pending then { d with state := .valid } else d)).commitResult id tag e).dropIfOver core e
  | .delete _ e id tag =>
    ((s.updDir core e (fun d => if d.state = .valid then DirEntry.empty else d)).commitResult id tag e).tidy core
  | .move n e n' t id tag =>
    let s := if core = n then
        ((s.updDir core e (fun d => if d.state = .moving then DirEntry.empty else d)).commitResult id tag t).tidy core
      else s
    if core = n' then
      (s.updDir core t (fun d => if d.state = .pending then { d with state := .valid } else d)).dropIfOver core t
    else s
  | .solicit _ => s

/-- The next root message of a core, if it is a commit; it is held while the core's solicit queue is full (R368). -/
def State.evCommitApply (s : State) (core : Nat) : State :=
  match s.rootNext core with
  | some (_, _, .solicit _) => s
  | some (_, k, m) => if (s.core core).solicitsFull then s else (s.rootPassed core (k + 1)).applyCommit core m
  | none => s

/-- DIRECTORY_COMMIT_APPLY (R361). -/
def execDirectoryCommitApply (core : Nat) (s : State) : Host.Outcome State Fault Refusal := .next (s.evCommitApply core)

/-- A core applies every root message ordered so far, after the root has ordered what has arrived. -/
def State.rootCatchUp (s : State) (part core : Nat) : State :=
  let s := s.updPart part (fun p => { p with
    rootLog := p.rootLog ++ p.rootInbox
    rootInbox := [] })
  let ms := (s.part part).rootLog.drop (s.core core).rootSeen
  let s := s.rootPassed core ms.length
  ms.foldl (fun s m => match m with
    | .solicit n => s.applySolicit part core n
    | m => if m.concerns core then s.applyCommit core m else s) s

/-! ### Responders and combining (R369, R371, R372) -/

/-- RESPONDER_FAILURE: the responder of a core's slot fails with a code (R369, R471). -/
def execResponderFailure (core slot code : Nat) (s : State) : Host.Outcome State Fault Refusal :=
  .next (s.responderFail ⟨core, slot, 32⟩ code)

/-- The key of a node's reply: level 0 core, 1 cluster, 2 sector, 3 die, 4 root. -/
def nodeKey (level node : Nat) : Nat := level * 1024 + node

/-- The children of a Chanter node in a partition, ascending (R14, R371). -/
def Part.children (p : Part) (level node : Nat) : List Nat :=
  match level with
  | 1 => (List.range 8).map (fun i => nodeKey 0 (8 * node + i))
  | 2 => (List.range 8).map (fun i => nodeKey 1 (8 * node + i))
  | 3 => (p.sectorList.filter (fun x => decide (x / 3 = node))).map (fun x => nodeKey 2 x)
  | 4 => ((List.range 4).filter (fun d => p.sectorList.any (fun x => decide (x / 3 = d)))).map (fun d => nodeKey 3 d)
  | _ => []

/-- A Chanter node combines once every child has answered (R371). -/
def State.evChanter (s : State) (part place level node : Nat) : State :=
  let q := s.part part
  let p := s.place part place
  let kids := (q.children level node).map (fun k => sget none p.replies k)
  if p.busy && decide (kids ≠ []) && kids.all (fun r => r.isSome) && (sget none p.replies (nodeKey level node)).isNone then
    s.updPlace part place (fun p => { p with
      replies := sset none p.replies (nodeKey level node) (some (p.combine false (kids.filterMap (fun r => r)))) })
  else s

/-- CHANTER_COMBINE (R371). -/
def execChanterCombine (part place level node : Nat) (s : State) : Host.Outcome State Fault Refusal :=
  .next (s.evChanter part place level node)

/-- The status word of a census (R471). -/
def censusStatus (r : Reply) : Word :=
  if r.fails = 0 then 0#32 else wd (1 + min 255 r.fails * 2 ^ 8 + r.firstCode * 2 ^ 16)

/-- A wave's slot takes a census's result; a saved wave that waited for it is ready (R60, R372). -/
def Wave.takeCensus (slot : Nat) (id : Word) (r : Reply) (saved : Bool) (w : Wave) : Wave :=
  let x := w.census.getD slot CensusSlot.empty
  if x.busy && decide (x.id = id) then
    { w with
      census := w.census.set slot { x with
        complete := true
        reply := (List.range 8).map (fun i => r.words.getD i 0#32)
        count := wd r.count
        status := censusStatus r }
      parked := if saved ∧ w.parked = some ⟨0x07, id.toNat, slot⟩ then some ⟨0x00, 0, 0⟩ else w.parked }
  else w

/-- A census completes: its result reaches the asker's slot, wherever the asker is, and the place is free (R60, R372). -/
def State.evCensusComplete (s : State) (part place : Nat) : State :=
  let p := s.place part place
  match sget none p.replies (nodeKey 4 0) with
  | none => s
  | some r =>
    let id := censusId place p.gen
    let s := s.updPart part (fun q => { q with
      places := sset Place.empty q.places place { Place.empty with gen := p.gen }
      saved := q.saved.map (fun x => if x.wg.vf = p.vf then { x with waves := x.waves.map (fun w => if w.record = p.record then
        w.takeCensus p.slot id r true else w) } else x) })
    (s.part part).cores.foldl (fun s n => ((s.core n).waveList n).foldl (fun s e =>
      if s.hasRecord n e.2 p.vf p.record then (s.updWave e.1 (fun w => w.takeCensus p.slot id r false)).settle e.1
      else s) s) s

end Sys2Proof.Machine
end

