-- ==== Sys2Proof/Machine/Integer.lean ====
section
/-!
DEFINITION. Integer, logic, 64-bit, special-register and mask instructions (spec 07 R186 to R206).
-/

namespace Sys2Proof.Machine

/-! ### Shared forms -/

/-- A word that writes registers and ORs flags, with no other effect. -/
def Ctx.put (c : Ctx) (s : State) (ws : List RegWrite) (f : Flags) : Res :=
  .done (s.updWave c.id (fun w => (w.regWrites ws).orFlags f))

/-- One 32-bit result per lane (or one for a scalar destination), no flags. -/
def Ctx.put32 (c : Ctx) (s : State) (d : BitVec 9) (f : Nat → Word) : Res := c.put s (c.results d.toNat (fun l => [f l])) 0#4

/-- One 64-bit result per lane, no flags. -/
def Ctx.put64 (c : Ctx) (s : State) (d : BitVec 9) (f : Nat → Nat) : Res := c.put s (c.results d.toNat (fun l => words64 (f l))) 0#4

/-- A mask destination written for the lanes of the effective mask; the other bits stay. -/
def Ctx.putMask (c : Ctx) (s : State) (k : BitVec 9) (f : Nat → Bool) : Res :=
  .done (s.updWave c.id (fun w => w.kset k.toNat (maskWith (w.kget k.toNat) c.eff f)))

/-- A mask destination written whole, once for the wave, if the effective mask is not empty (R206). -/
def Ctx.putWhole (c : Ctx) (s : State) (k : BitVec 9) (m : Mask) : Res :=
  .done (if c.eff = 0#32 then s else s.updWave c.id (fun w => w.kset k.toNat m))

/-- A scalar destination written once for the wave, if the effective mask is not empty. -/
def Ctx.putScalar (c : Ctx) (s : State) (d : BitVec 9) (ws : List Word) : Res :=
  if c.eff = 0#32 then .done s
  else c.put s ((List.range ws.length).zip ws |>.map (fun p => ⟨d.toNat + p.1, 0, p.2⟩)) 0#4

/-- `Val(x, T)` of the low bits of a word (R189). -/
def tyVal (t : Nat) (x : Word) : Int := intVal (tyWidth t) (tySigned t) x.toNat

/-- `Ext(r mod 2^w, T)` (R138, R189). -/
def tyExt (t : Nat) (r : Int) : Word := wdI (intVal (tyWidth t) (tySigned t) (wrapInt (tyWidth t) r))

/-- A typed integer instruction: `F` of the values of A, B and C, saturated where the word says so, extended (R189). -/
def Ctx.typed (c : Ctx) (s : State) (w : RWord) (f : Int → Int → Int → Int) : Res :=
  let v := fun (x : BitVec 9) (l : Nat) => tyVal w.ty (c.opnd x l)
  c.put32 s w.d (fun l =>
    let r := f (v w.a l) (v w.b l) (v w.c l)
    tyExt w.ty (if w.flags.getLsbD 2 then satInt (tyWidth w.ty) (tySigned w.ty) r else r))

/-- A typed instruction on the pattern of A, read unsigned at its width, with the width and the raw count of B (R189). -/
def Ctx.pattern (c : Ctx) (s : State) (w : RWord) (f : Nat → Nat → Nat → Int) : Res :=
  c.put32 s w.d (fun l =>
    let n := tyWidth w.ty
    tyExt w.ty (f n ((c.opnd w.a l).toNat % 2 ^ n) ((c.opnd w.b l).toNat % 256)))

/-- An untyped instruction on 32-bit words (R193). -/
def Ctx.untyped (c : Ctx) (s : State) (w : RWord) (f : Word → Word → Word → Word) : Res :=
  c.put32 s w.d (fun l => f (c.opnd w.a l) (c.opnd w.b l) (c.opnd w.c l))

/-- A comparison of integers: 0 eq, 1 ne, 2 lt, 3 le, 4 gt, 5 ge (R195). -/
def intCond (cond : Nat) (x y : Int) : Bool :=
  match cond with
  | 0 => decide (x = y)
  | 1 => decide (x ≠ y)
  | 2 => decide (x < y)
  | 3 => decide (x ≤ y)
  | 4 => decide (y < x)
  | _ => decide (y ≤ x)

/-- The combination of a comparison with the mask in C: MINOR bits 5:4 (R195). -/
def Ctx.combined (c : Ctx) (w : RWord) (l : Nat) (t : Bool) : Bool :=
  let k := (c.wave.kget w.c.toNat).getLsbD l
  if w.minor / 16 = 1 then t && k else if w.minor / 16 = 2 then t || k else t

/-! ### Shifts and bit counts (R189) -/

/-- `shl` at a width. -/
def shlVal (w p n : Nat) : Nat := if w ≤ n then 0 else p * 2 ^ n
/-- `shr` at a width. -/
def shrVal (w p n : Nat) : Nat := if w ≤ n then 0 else p / 2 ^ n
/-- `sar` at a width. -/
def sarVal (w p n : Nat) : Int :=
  let x := sInt w p
  if w ≤ n then (if x < 0 then -1 else 0) else x / (2 ^ n : Nat)
/-- `rot` left by `n` at a width. -/
def rotVal (w p n : Nat) : Nat := let m := n % w; p * 2 ^ m % 2 ^ w + p / 2 ^ (w - m)
/-- Set bits. -/
def popVal (w p : Nat) : Nat := (List.range w).foldl (fun a i => a + (if p.testBit i then 1 else 0)) 0
/-- Leading zeros within `w` bits. -/
def clzVal (w p : Nat) : Nat := ((List.range w).takeWhile (fun i => !p.testBit (w - 1 - i))).length
/-- Trailing zeros within `w` bits. -/
def ctzVal (w p : Nat) : Nat := ((List.range w).takeWhile (fun i => !p.testBit i)).length
/-- The pattern with its bits reversed. -/
def brevVal (w p : Nat) : Nat := (List.range w).foldl (fun a i => a + (if p.testBit i then 2 ^ (w - 1 - i) else 0)) 0

/-! ### 0x20 to 0x3F (R188 to R198) -/

/-- `iadd` and `isub`: with a carry form the patterns of 32 bits, else the typed sum (R189, R190). -/
def Ctx.addSub (c : Ctx) (s : State) (w : RWord) (sub : Bool) : Res :=
  let ci := w.flags.getLsbD 1
  let cc := w.flags.getLsbD 0
  if ci || cc then
    let k := c.wave.kget w.c.toNat
    let cin := fun l => if ci && k.getLsbD l then 1 else 0
    let x := fun l => (c.opnd w.a l).toNat
    let y := fun l => (c.opnd w.b l).toNat
    let out := fun l => if sub then subBorrow (x l) (y l) (cin l) else addCarry 32 (x l) (y l) (cin l)
    let ws := c.results w.d.toNat (fun l => [wdI (if sub then (x l : Int) - y l - cin l else (x l : Int) + y l + cin l)])
    .done (s.updWave c.id (fun v =>
      let v := v.regWrites ws
      if cc then v.kset w.c.toNat (maskWith k c.eff out) else v))
  else c.typed s w (fun a b _ => if sub then a - b else a + b)

/-- `iadd` (R189, R190). -/
def execIadd (w : RWord) (s : State) := issueWord (.iadd w) s (fun c s => c.addSub s w false)
/-- `isub` (R189, R190). -/
def execIsub (w : RWord) (s : State) := issueWord (.isub w) s (fun c s => c.addSub s w true)
/-- `imul` (R189). -/
def execImul (w : RWord) (s : State) := issueWord (.imul w) s (fun c s => c.typed s w (fun a b _ => a * b))
/-- `imulh` (R189). -/
def execImulh (w : RWord) (s : State) := issueWord (.imulh w) s (fun c s =>
  c.typed s w (fun a b _ => a * b / (2 ^ tyWidth w.ty : Nat)))
/-- `imad` (R189). -/
def execImad (w : RWord) (s : State) := issueWord (.imad w) s (fun c s => c.typed s w (fun a b d => a * b + d))
/-- `iabs` (R189). -/
def execIabs (w : RWord) (s : State) := issueWord (.iabs w) s (fun c s => c.typed s w (fun a _ _ => (a.natAbs : Int)))
/-- `imin` (R189). -/
def execImin (w : RWord) (s : State) := issueWord (.imin w) s (fun c s => c.typed s w (fun a b _ => min a b))
/-- `imax` (R189). -/
def execImax (w : RWord) (s : State) := issueWord (.imax w) s (fun c s => c.typed s w (fun a b _ => max a b))
/-- `shl` (R189). -/
def execShl (w : RWord) (s : State) := issueWord (.shl w) s (fun c s => c.pattern s w (fun n p k => (shlVal n p k : Int)))
/-- `shr` (R189). -/
def execShr (w : RWord) (s : State) := issueWord (.shr w) s (fun c s => c.pattern s w (fun n p k => (shrVal n p k : Int)))
/-- `sar` (R189). -/
def execSar (w : RWord) (s : State) := issueWord (.sar w) s (fun c s => c.pattern s w (fun n p k => sarVal n p k))
/-- `rot`: left for MINOR 0, right for MINOR 1 (R189). -/
def execRot (w : RWord) (s : State) := issueWord (.rot w) s (fun c s =>
  c.pattern s w (fun n p k => (rotVal n p (if w.minor = 0 then k else n - k % n) : Int)))

/-- The window of `wext` (R191). -/
def wextVal (minor x n : Nat) : Nat :=
  if minor = 0 then x / 2 ^ n + x % 2 ^ n * 2 ^ (64 - n) else if minor = 1 then x / 2 ^ n else wrapInt 64 (sInt 64 x / (2 ^ n : Nat))

/-- `wext` (R191). -/
def execWext (w : RWord) (s : State) := issueWord (.wext w) s (fun c s =>
  c.untyped s w (fun a b d => wd (wextVal w.minor (pair64 a b) (d.toNat % 64))))

/-- Bit `i` of `lfn`: the code chosen by bit `i` of c, at the index formed by bits `i` of a and b (R192). -/
def lfnVal (g h : Nat) (a b d : Word) : Word := wd ((List.range 32).foldl (fun acc i =>
  let f := if d.getLsbD i then g else h
  let j := (if a.getLsbD i then 1 else 0) + (if b.getLsbD i then 2 else 0)
  acc + (if f.testBit j then 2 ^ i else 0)) 0)

/-- `lfn` (R192). -/
def execLfn (w : RWord) (s : State) := issueWord (.lfn w) s (fun c s =>
  c.untyped s w (lfnVal (w.mod.extractLsb' 10 4).toNat (w.mod.extractLsb' 6 4).toNat))
/-- `and` (R193). -/
def execAndW (w : RWord) (s : State) := issueWord (.andW w) s (fun c s => c.untyped s w (fun a b _ => a &&& b))
/-- `or` (R193). -/
def execOrW (w : RWord) (s : State) := issueWord (.orW w) s (fun c s => c.untyped s w (fun a b _ => a ||| b))
/-- `xor` (R193). -/
def execXorW (w : RWord) (s : State) := issueWord (.xorW w) s (fun c s => c.untyped s w (fun a b _ => a ^^^ b))
/-- `andn` (R193). -/
def execAndn (w : RWord) (s : State) := issueWord (.andn w) s (fun c s => c.untyped s w (fun a b _ => a &&& ~~~b))
/-- `not` (R193). -/
def execNotW (w : RWord) (s : State) := issueWord (.notW w) s (fun c s => c.untyped s w (fun a _ _ => ~~~a))

/-- The field of `bfe` (R196). -/
def bfeVal (signed : Bool) (a b d : Word) : Word :=
  let pos := b.toNat % 256
  let len := min (d.toNat % 256) 32
  let x : Int := if signed then a.toInt else a.toNat
  let f := x / (2 ^ pos : Nat) % (2 ^ len : Nat)
  wdI (if len = 0 then 0 else if signed ∧ (2 ^ (len - 1) : Nat) ≤ f then f - (2 ^ len : Nat) else f)

/-- `bfe` (R196). -/
def execBfe (w : RWord) (s : State) := issueWord (.bfe w) s (fun c s => c.untyped s w (bfeVal (decide (w.ty = 5))))

/-- The insertion of `bfi` (R196). -/
def bfiVal (a b d : Word) : Word :=
  let pos := d.toNat % 256
  let len := min (d.toNat / 256 % 256) 32
  let m := wd ((2 ^ len - 1) * 2 ^ pos)
  (a &&& ~~~m) ||| (wd (b.toNat * 2 ^ pos) &&& m)

/-- `bfi` (R196). -/
def execBfi (w : RWord) (s : State) := issueWord (.bfi w) s (fun c s => c.untyped s w bfiVal)
/-- `popc` (R189). -/
def execPopc (w : RWord) (s : State) := issueWord (.popc w) s (fun c s => c.pattern s w (fun n p _ => (popVal n p : Int)))
/-- `clz` (R189). -/
def execClz (w : RWord) (s : State) := issueWord (.clz w) s (fun c s => c.pattern s w (fun n p _ => (clzVal n p : Int)))
/-- `ctz` (R189). -/
def execCtz (w : RWord) (s : State) := issueWord (.ctz w) s (fun c s => c.pattern s w (fun n p _ => (ctzVal n p : Int)))
/-- `brev` (R189). -/
def execBrev (w : RWord) (s : State) := issueWord (.brev w) s (fun c s => c.pattern s w (fun n p _ => (brevVal n p : Int)))

/-- The bytes of `bsel`, formed in ascending order (R197). -/
def bselVal (a b d : Word) : Word :=
  let x := pair64 a b
  let ctl := d.toNat
  wd ((List.range 4).foldl (fun acc i =>
    let y := if ctl.testBit (12 + i) then 0 else x / 256 ^ (ctl / 8 ^ i % 8) % 256
    let y := if 0 < i ∧ ctl.testBit (16 + i) then (if acc.testBit (8 * i - 1) then 255 else 0) else y
    acc + y * 256 ^ i) 0)

/-- `bsel` (R197). -/
def execBsel (w : RWord) (s : State) := issueWord (.bsel w) s (fun c s => c.untyped s w bselVal)
/-- `icmp` (R195). -/
def execIcmp (w : RWord) (s : State) := issueWord (.icmp w) s (fun c s => c.putMask s w.d (fun l =>
  c.combined w l (intCond (w.minor % 8) (tyVal w.ty (c.opnd w.a l)) (tyVal w.ty (c.opnd w.b l)))))
/-- `sel` (R193). -/
def execSel (w : RWord) (s : State) := issueWord (.sel w) s (fun c s => c.put32 s w.d (fun l =>
  if (c.wave.kget w.c.toNat).getLsbD l then c.opnd w.a l else c.opnd w.b l))
/-- `mov` (R193). -/
def execMov (w : RWord) (s : State) := issueWord (.mov w) s (fun c s => c.untyped s w (fun a _ _ => a))

/-- The sum of `dot4`: bytes of a signed or not, bytes of b signed or not, an accumulator (R198). -/
def dot4Val (sa sb sat : Bool) (a b d : Word) : Word :=
  let r : Int := (if sa then d.toInt else (d.toNat : Int)) + (List.range 4).foldl (fun acc i =>
    acc + intVal 8 sa (a.toNat / 256 ^ i) * intVal 8 sb (b.toNat / 256 ^ i)) 0
  wdI (if sat then satInt 32 sa r else r)

/-- `dot4` (R198). -/
def execDot4 (w : RWord) (s : State) := issueWord (.dot4 w) s (fun c s =>
  c.untyped s w (dot4Val (decide (w.ty = 1)) (decide (w.ty = 1 ∧ w.minor = 0)) (w.flags.getLsbD 2)))

/-- `isad` (R198). -/
def execIsad (w : RWord) (s : State) := issueWord (.isad w) s (fun c s => c.untyped s w (fun a b d =>
  let sg := tySigned w.ty
  let r : Int := (if sg then d.toInt else (d.toNat : Int)) + (tyVal w.ty a - tyVal w.ty b).natAbs
  wdI (if w.flags.getLsbD 2 then satInt 32 sg r else r)))

/-- Quotient and remainder of `idiv` at a width (R194). -/
def divVal (w : Nat) (signed : Bool) (a b : Int) : Int × Int :=
  if b = 0 then (if signed then -1 else (2 ^ w : Nat) - 1, a) else (a.tdiv b, a - a.tdiv b * b)

/-- `idiv` (R194). -/
def execIdiv (w : RWord) (s : State) := issueWord (.idiv w) s (fun c s => c.typed s w (fun a b _ =>
  let q := divVal (tyWidth w.ty) (tySigned w.ty) a b
  if w.minor = 0 then q.1 else q.2))

/-! ### Immediate forms (R199, R200) -/

/-- An immediate instruction on 32-bit words. -/
def Ctx.immediate (c : Ctx) (s : State) (w : IWord) (f : Word → Word → Word) : Res :=
  c.put32 s w.d (fun l => f (c.opnd w.a l) w.imm)

/-- `iaddi` (R199). -/
def execIaddi (w : IWord) (s : State) := issueWord (.iaddi w) s (fun c s => c.immediate s w (fun a i => a + i))
/-- `imuli` (R199). -/
def execImuli (w : IWord) (s : State) := issueWord (.imuli w) s (fun c s => c.immediate s w (fun a i => a * i))
/-- `andi` (R199). -/
def execAndi (w : IWord) (s : State) := issueWord (.andi w) s (fun c s => c.immediate s w (fun a i => a &&& i))
/-- `ori` (R199). -/
def execOri (w : IWord) (s : State) := issueWord (.ori w) s (fun c s => c.immediate s w (fun a i => a ||| i))
/-- `xori` (R199). -/
def execXori (w : IWord) (s : State) := issueWord (.xori w) s (fun c s => c.immediate s w (fun a i => a ^^^ i))
/-- `shli` (R199). -/
def execShli (w : IWord) (s : State) := issueWord (.shli w) s (fun c s => c.immediate s w (fun a i => wd (shlVal 32 a.toNat (i.toNat % 32))))
/-- `shri` (R199). -/
def execShri (w : IWord) (s : State) := issueWord (.shri w) s (fun c s => c.immediate s w (fun a i => wd (shrVal 32 a.toNat (i.toNat % 32))))
/-- `sari` (R199). -/
def execSari (w : IWord) (s : State) := issueWord (.sari w) s (fun c s => c.immediate s w (fun a i => wdI (sarVal 32 a.toNat (i.toNat % 32))))
/-- `movi` (R199). -/
def execMovi (w : IWord) (s : State) := issueWord (.movi w) s (fun c s => c.immediate s w (fun _ i => i))
/-- `movhi`: a pair of A and the immediate (R199). -/
def execMovhi (w : IWord) (s : State) := issueWord (.movhi w) s (fun c s =>
  c.put s (c.results w.d.toNat (fun l => [c.opnd w.a l, w.imm])) 0#4)

/-- The condition of `icmpi`: 0 to 5 signed, 6 to 9 unsigned lt, le, gt, ge (R200). -/
def immCond (cond : Nat) (x y : Word) : Bool :=
  if cond < 6 then intCond cond x.toInt y.toInt else intCond (cond - 4) (x.toNat : Int) (y.toNat : Int)

/-- `icmpi` (R200). -/
def execIcmpi (w : IWord) (s : State) := issueWord (.icmpi w) s (fun c s => c.putMask s w.d (fun l =>
  immCond (w.imm.extractLsb' 28 4).toNat (c.opnd w.a l) ((w.imm.extractLsb' 0 24).signExtend 32)))

/-! ### 64-bit forms (R201, R202) -/

/-- A pair operand read by the word's type (R202). -/
def Ctx.pairVal (c : Ctx) (w : RWord) (f : BitVec 9) (l : Nat) : Int := intVal 64 (tySigned w.ty) (c.opnd64 f l)

/-- A sum or difference on pairs (R201, R202). -/
def Ctx.wide (c : Ctx) (s : State) (w : RWord) (f : Int → Int → Int) : Res :=
  c.put64 s w.d (fun l =>
    let r := f (c.pairVal w w.a l) (c.pairVal w w.b l)
    wrapInt 64 (if w.flags.getLsbD 2 then satInt 64 (tySigned w.ty) r else r))

/-- `add64` (R201). -/
def execAdd64 (w : RWord) (s : State) := issueWord (.add64 w) s (fun c s => c.wide s w (fun a b => a + b))
/-- `sub64` (R201). -/
def execSub64 (w : RWord) (s : State) := issueWord (.sub64 w) s (fun c s => c.wide s w (fun a b => a - b))
/-- `mul64`: low or high 64 bits (R201). -/
def execMul64 (w : RWord) (s : State) := issueWord (.mul64 w) s (fun c s => c.put64 s w.d (fun l =>
  let p := c.pairVal w w.a l * c.pairVal w w.b l
  wrapInt 64 (if w.minor = 0 then p else p / (2 ^ 64 : Nat))))
/-- `shl64` (R201). -/
def execShl64 (w : RWord) (s : State) := issueWord (.shl64 w) s (fun c s => c.put64 s w.d (fun l =>
  shlVal 64 (c.opnd64 w.a l) ((c.opnd w.b l).toNat % 256)))
/-- `shr64`: arithmetic for `.i64` (R201). -/
def execShr64 (w : RWord) (s : State) := issueWord (.shr64 w) s (fun c s => c.put64 s w.d (fun l =>
  let n := (c.opnd w.b l).toNat % 256
  if tySigned w.ty then wrapInt 64 (sarVal 64 (c.opnd64 w.a l) n) else shrVal 64 (c.opnd64 w.a l) n))
/-- `lea` (R201). -/
def execLea (w : RWord) (s : State) := issueWord (.lea w) s (fun c s => c.put64 s w.d (fun l =>
  let b := c.opnd w.b l
  let x : Int := if 8 ≤ w.minor then (b.toNat : Int) else b.toInt
  wrapInt 64 ((c.opnd64 w.a l : Int) + x * (2 ^ (w.minor % 8) : Nat))))
/-- `cmp64` (R201). -/
def execCmp64 (w : RWord) (s : State) := issueWord (.cmp64 w) s (fun c s => c.putMask s w.d (fun l =>
  c.combined w l (intCond (w.minor % 8) (c.pairVal w w.a l) (c.pairVal w w.b l))))
/-- `sel64` (R201). -/
def execSel64 (w : RWord) (s : State) := issueWord (.sel64 w) s (fun c s => c.put64 s w.d (fun l =>
  if (c.wave.kget w.c.toNat).getLsbD l then c.opnd64 w.a l else c.opnd64 w.b l))

/-! ### Special registers and lane moves (R203 to R205) -/

/-- The value of a special register for a lane (R203). -/
def State.special (s : State) (c : Ctx) (n lane : Nat) : Nat :=
  let g := c.wg
  let core := s.coreSeen g.vf g.part c.core
  match n with
  | 0x00 => lane
  | 0x01 => c.wave.index
  | 0x02 => g.wgx
  | 0x03 => g.wgy
  | 0x04 => g.wgz
  | 0x05 => g.waves
  | 0x06 => g.ensRank
  | 0x07 => core
  | 0x08 => core / 8
  | 0x09 => core / 64
  | 0x0A => if g.vf = 96 then g.part else 0
  | 0x0B => s.pclk g.part
  | 0x0C => c.wave.fflags.toNat
  | 0x10 => c.wave.xpc.toNat
  | 0x11 => c.wave.xmask.toNat
  | 0x12 => c.wave.fmask.toNat
  | 0x13 => c.wave.xcode.toNat
  | _ => c.wave.xinfo.toNat

/-- `mov.sr` (R203). -/
def execMovSr (w : RWord) (s : State) := issueWord (.movSr w) s (fun c s =>
  if w.minor = 0x0B ∨ w.minor = 0x14 then c.put64 s w.d (fun l => s.special c w.minor l)
  else c.put32 s w.d (fun l => wd (s.special c w.minor l)))

/-- `mov.ss`: writes the sticky flags (R204). -/
def execMovSs (w : RWord) (s : State) := issueWord (.movSs w) s (fun c s =>
  .done (if c.eff = 0#32 then s else s.updWave c.id (fun v => { v with fflags := (c.uni w.a).extractLsb' 0 4 })))

/-- `lane.rd`: any lane, active or not (R205). -/
def execLaneRd (w : RWord) (s : State) := issueWord (.laneRd w) s (fun c s =>
  c.putScalar s w.d [c.wave.vget w.a.toNat ((c.uni w.b).toNat % 32)])

/-- `lane.wr`: only a lane of the effective mask (R205). -/
def execLaneWr (w : RWord) (s : State) := issueWord (.laneWr w) s (fun c s =>
  let l := (c.uni w.b).toNat % 32
  .done (if c.eff.getLsbD l then s.updWave c.id (fun v => v.vset w.d.toNat l (c.uni w.a)) else s))

/-! ### Masks (R206) -/

/-- `kop` (R206). -/
def execKop (w : RWord) (s : State) := issueWord (.kop w) s (fun c s =>
  let x := c.wave.kget w.a.toNat
  let y := c.wave.kget w.b.toNat
  c.putWhole s w.d (match w.minor with
    | 0 => x &&& y
    | 1 => x ||| y
    | 2 => x ^^^ y
    | 3 => x &&& ~~~y
    | _ => ~~~x))

/-- `kmov`: between masks, from a value, to a scalar, or the active mask (R206). -/
def execKmov (w : RWord) (s : State) := issueWord (.kmov w) s (fun c s =>
  match w.minor with
  | 0 => c.putWhole s w.d (c.wave.kget w.a.toNat)
  | 1 => c.putWhole s w.d (c.uni w.a)
  | 2 => c.putScalar s w.d [c.wave.kget w.a.toNat]
  | _ => c.putWhole s w.d c.eff)

/-- `kpop` (R206). -/
def execKpop (w : RWord) (s : State) := issueWord (.kpop w) s (fun c s =>
  c.putScalar s w.d [wd (popVal 32 (c.wave.kget w.a.toNat).toNat)])

/-- `kffs`: lowest or highest set bit, 32 if none (R206). -/
def execKffs (w : RWord) (s : State) := issueWord (.kffs w) s (fun c s =>
  let x := (c.wave.kget w.a.toNat).toNat
  c.putScalar s w.d [wd (if w.minor = 0 then ctzVal 32 x else if x = 0 then 32 else 31 - clzVal 32 x)])

end Sys2Proof.Machine
end

