-- ==== Sys2Proof/Machine/Float.lean ====
section
/-!
DEFINITION. Floating-point and packed instructions (spec 08 R211 to R218).
-/

namespace Sys2Proof.Machine

/-! ### Shared forms -/

/-- The rounding mode of a word (R143). -/
def roundMode (w : RWord) : Nat := (w.flags.extractLsb' 0 2).toNat

/-- The saturation flag of a word (R143). -/
def saturates (w : RWord) : Bool := w.flags.getLsbD 2

/-- Results with flags: the words from D on and the flags of each lane computed (R154, R169). -/
def Ctx.calc (c : Ctx) (s : State) (d : BitVec 9) (f : Nat → List Word × Flags) : Res :=
  let rs := (c.calcLanes d.toNat).map (fun l => (l, f l))
  c.put s
    (rs.flatMap (fun r => (List.range r.2.1.length).zip r.2.1 |>.map (fun p =>
      (⟨d.toNat + p.1, if d.toNat < 0x100 then r.1 else 0, p.2⟩ : RegWrite))))
    (orAll (rs.map (fun r => r.2.2)))

/-- One floating result per lane from the patterns of A, B and C in the word's type; a 16-bit result is zero-filled (R212). -/
def Ctx.float (c : Ctx) (s : State) (w : RWord) (f : Fmt → Nat → Nat → Nat → Nat × Flags) : Res :=
  c.calc s w.d (fun l =>
    let r := f (fmtOf w.ty) (c.opnd w.a l).toNat (c.opnd w.b l).toNat (c.opnd w.c l).toNat
    ([wd r.1], r.2))

/-- The two elements of a packed operand (R138). -/
def elem (x e : Nat) : Nat := x / 2 ^ (16 * e) % 65536

/-- A packed instruction: `f` on each element (R218). -/
def Ctx.packed (c : Ctx) (s : State) (w : RWord) (f : Fmt → Nat → Nat → Nat → Nat × Flags) : Res :=
  c.calc s w.d (fun l =>
    let x := (c.opnd w.a l).toNat
    let y := (c.opnd w.b l).toNat
    let z := (c.opnd w.c l).toNat
    let r := fun e => f (fmtOf w.ty) (elem x e) (elem y e) (elem z e)
    let lo := r 0
    let hi := r 1
    ([wd (hi.1 * 65536 + lo.1)], lo.2 ||| hi.2))

/-! ### Arithmetic (R214, R215) -/

/-- `fadd` (R214). -/
def execFadd (w : RWord) (s : State) := issueWord (.fadd w) s (fun c s =>
  c.float s w (fun f x y _ => f.fadd (roundMode w) (saturates w) x y))
/-- `fsub` (R214). -/
def execFsub (w : RWord) (s : State) := issueWord (.fsub w) s (fun c s =>
  c.float s w (fun f x y _ => f.fsub (roundMode w) (saturates w) x y))
/-- `fmul` (R214). -/
def execFmul (w : RWord) (s : State) := issueWord (.fmul w) s (fun c s =>
  c.float s w (fun f x y _ => f.fmul (roundMode w) (saturates w) x y))
/-- `fma` (R214). -/
def execFma (w : RWord) (s : State) := issueWord (.fma w) s (fun c s =>
  c.float s w (fun f x y z => f.fma (roundMode w) (saturates w) x y z))
/-- `fmin` (R141, R215). -/
def execFmin (w : RWord) (s : State) := issueWord (.fmin w) s (fun c s =>
  c.float s w (fun f x y _ => f.fminmax false x y))
/-- `fmax` (R141, R215). -/
def execFmax (w : RWord) (s : State) := issueWord (.fmax w) s (fun c s =>
  c.float s w (fun f x y _ => f.fminmax true x y))
/-- `fcmp` (R215). -/
def execFcmp (w : RWord) (s : State) := issueWord (.fcmp w) s (fun c s =>
  let rs := c.lanes.map (fun l => (l, (fmtOf w.ty).fcmp (w.minor % 8) (c.opnd w.a l).toNat (c.opnd w.b l).toNat))
  let true' := maskOf ((rs.filter (fun r => c.combined w r.1 r.2.1)).map (fun r => r.1))
  .done (s.updWave c.id (fun v =>
    (v.kset w.d.toNat (maskWith (v.kget w.d.toNat) c.eff (fun l => true'.getLsbD l))).orFlags (orAll (rs.map (fun r => r.2.2))))))
/-- `fclass` (R215). -/
def execFclass (w : RWord) (s : State) := issueWord (.fclass w) s (fun c s =>
  c.putMask s w.d (fun l => (c.opnd w.b l).getLsbD ((fmtOf w.ty).fclass (c.opnd w.a l).toNat)))

/-! ### Approximating functions (R216, R217) -/

/-- An approximating instruction. -/
def Ctx.approx (c : Ctx) (s : State) (w : RWord) (fn : ApproxFn) : Res :=
  c.float s w (fun _ x _ _ => fapprox fn (wd x))

/-- `frcp` (R216). -/
def execFrcp (w : RWord) (s : State) := issueWord (.frcp w) s (fun c s =>
  c.approx s w .rcp)
/-- `frsq` (R216). -/
def execFrsq (w : RWord) (s : State) := issueWord (.frsq w) s (fun c s =>
  c.approx s w .rsq)
/-- `fsqrt` (R216): correctly rounded. -/
def execFsqrt (w : RWord) (s : State) := issueWord (.fsqrt w) s (fun c s =>
  c.float s w (fun _ x _ _ => fsqrt (roundMode w) x))
/-- `fexp2` (R216). -/
def execFexp2 (w : RWord) (s : State) := issueWord (.fexp2 w) s (fun c s =>
  c.approx s w .exp2)
/-- `flog2` (R216). -/
def execFlog2 (w : RWord) (s : State) := issueWord (.flog2 w) s (fun c s =>
  c.approx s w .log2)
/-- `fsin` (R216). -/
def execFsin (w : RWord) (s : State) := issueWord (.fsin w) s (fun c s =>
  c.approx s w .sin)
/-- `fcos` (R216). -/
def execFcos (w : RWord) (s : State) := issueWord (.fcos w) s (fun c s =>
  c.approx s w .cos)
/-- `fround` (R214). -/
def execFround (w : RWord) (s : State) := issueWord (.fround w) s (fun c s =>
  c.float s w (fun f x _ _ => f.fround (roundMode w) x))
/-- `ffract` (R214). -/
def execFfract (w : RWord) (s : State) := issueWord (.ffract w) s (fun c s =>
  c.float s w (fun _ x _ _ => ffract x))
/-- `fldexp`: B is a signed integer (R214). -/
def execFldexp (w : RWord) (s : State) := issueWord (.fldexp w) s (fun c s =>
  c.float s w (fun f x y _ => f.fldexp (roundMode w) (saturates w) x (sInt 32 y)))
/-- `fexs` (R217). -/
def execFexs (w : RWord) (s : State) := issueWord (.fexs w) s (fun c s =>
  c.float s w (fun _ x y z => fexs (wd x) (wd y) (wd z)))
/-- `ftanh` (R216). -/
def execFtanh (w : RWord) (s : State) := issueWord (.ftanh w) s (fun c s =>
  c.approx s w .tanh)

/-! ### Packed forms (R218) -/

/-- `hadd2` (R218). -/
def execHadd2 (w : RWord) (s : State) := issueWord (.hadd2 w) s (fun c s =>
  c.packed s w (fun f x y _ => f.fadd (roundMode w) (saturates w) x y))
/-- `hmul2` (R218). -/
def execHmul2 (w : RWord) (s : State) := issueWord (.hmul2 w) s (fun c s =>
  c.packed s w (fun f x y _ => f.fmul (roundMode w) (saturates w) x y))
/-- `hfma2` (R218). -/
def execHfma2 (w : RWord) (s : State) := issueWord (.hfma2 w) s (fun c s =>
  c.packed s w (fun f x y z => f.fma (roundMode w) (saturates w) x y z))
/-- `hmax2` (R141, R218). -/
def execHmax2 (w : RWord) (s : State) := issueWord (.hmax2 w) s (fun c s =>
  c.packed s w (fun f x y _ => f.fminmax true x y))

/-- `fdot2` of packed x and y and an f32 z: the exact sum, rounded once; a NaN among its terms decides as in R149 (R218, log 51). -/
def fdot2 (f : Fmt) (mode : Nat) (sat : Bool) (x y z : Nat) : Nat × Flags :=
  let p := fun e => (f.val (elem x e)).mul (f.val (elem y e))
  let vs := [p 0, p 1, f32.val z]
  f32.ofVal mode sat (if vs.any FVal.isNan then .nan (vs.any FVal.isSnan) else ((p 0).add mode (p 1)).add mode (f32.val z))

/-- `fdot2` (R218). -/
def execFdot2 (w : RWord) (s : State) := issueWord (.fdot2 w) s (fun c s =>
  c.float s w (fun f x y z => fdot2 f (roundMode w) (saturates w) x y z))

end Sys2Proof.Machine
end

