-- ==== Sys2Proof/Machine/WaveWide.lean ====
section
/-!
DEFINITION. Wave-wide instructions (spec 05 R151, R152; 09 R246 to R251).
-/

namespace Sys2Proof.Machine

/-- `vote` (R247). -/
def execVote (w : RWord) (s : State) := issueWord (.vote w) s (fun c s =>
  let b := maskOf (c.lanes.filter (fun l =>
    if w.minor % 8 < 4 then decide (c.opnd w.a l ≠ 0#32) else (c.wave.kget w.a.toNat).getLsbD l))
  let r : Word := match w.minor % 4 with
    | 0 => if b ≠ 0#32 then 1#32 else 0#32
    | 1 => if b = c.eff then 1#32 else 0#32
    | 2 => b
    | _ => wd (popVal 32 b.toNat)
  if 8 ≤ w.minor then c.putWhole s w.d r else c.putScalar s w.d [r])

/-- `match` (R248). -/
def execMatchL (w : RWord) (s : State) := issueWord (.matchL w) s (fun c s =>
  let x := fun l => if w.ty = 6 then c.opnd64 w.a l else (c.opnd w.a l).toNat
  let xs := c.lanes.map (fun l => (l, x l))
  c.put32 s w.d (fun l => maskOf ((xs.filter (fun p => decide (p.2 = x l))).map (fun p => p.1))))

/-- The source lane of `xlane`: mode 0 `.sel`, 1 `.rot`, 2 `.flip`, 3 `.rev`, groups of `n` lanes (R249). -/
def xlaneSrc (mode n l b : Nat) : Nat :=
  let g := l - l % n
  let p := l % n
  let b := b % n
  g + (if mode = 0 then b else if mode = 1 then (p + b) % n else if mode = 2 then Nat.xor p b else n - 1 - p)

/-- `xlane` (R249). -/
def execXlane (w : RWord) (s : State) := issueWord (.xlane w) s (fun c s =>
  let n := 32 / 2 ^ (w.minor / 4 % 8)
  c.put32 s w.d (fun l =>
    let src := xlaneSrc (w.minor % 4) n l (c.opnd w.b l).toNat
    if c.eff.getLsbD src then c.opnd w.a src else 0#32))

/-- The identity of an operation and type (R41, R250). -/
def redIdentity (op ty : Nat) : Word :=
  match op with
  | 1 => if ty = 0xA then 0x7F800000#32 else if ty = 5 then 0x7FFFFFFF#32 else 0xFFFFFFFF#32
  | 2 => if ty = 0xA then 0xFF800000#32 else if ty = 5 then 0x80000000#32 else 0#32
  | 3 => 0xFFFFFFFF#32
  | _ => 0#32

/-- One node of `red` and `scan` (R151, R250). -/
def redNode (w : RWord) (op : Nat) (x y : Word) : Word × Flags :=
  let ty := w.ty
  let int := fun (r : Int) => (wdI (if saturates w then satInt 32 (tySigned ty) r else r), (0#4 : Flags))
  let a := tyVal ty x
  let b := tyVal ty y
  match op with
  | 0 => if ty = 0xA then
      let r := f32.fadd (roundMode w) false x.toNat y.toNat
      (wd r.1, r.2)
    else int (a + b)
  | 1 => if ty = 0xA then
      let r := f32.fminmax false x.toNat y.toNat
      (wd r.1, r.2)
    else (if a ≤ b then x else y, 0#4)
  | 2 => if ty = 0xA then
      let r := f32.fminmax true x.toNat y.toNat
      (wd r.1, r.2)
    else (if a ≤ b then y else x, 0#4)
  | 3 => (x &&& y, 0#4)
  | 4 => (x ||| y, 0#4)
  | _ => (x ^^^ y, 0#4)

/-- One level of the tree of R151: neighbouring pairs combined. -/
def redLevel (f : Word → Word → Word × Flags) : List Word → List (Word × Flags)
  | x :: y :: rest => f x y :: redLevel f rest
  | _ => []

/-- The tree of R151 over 2^n inputs. -/
def redTree (f : Word → Word → Word × Flags) : Nat → List Word → Word × Flags
  | 0, xs => (xs.headD 0#32, 0#4)
  | n + 1, xs =>
    let level := redLevel f xs
    let r := redTree f n (level.map (fun p => p.1))
    (r.1, r.2 ||| orAll (level.map (fun p => p.2)))

/-- The inputs of `red` and `scan`: the identity outside the effective mask (R41). -/
def Ctx.redInputs (c : Ctx) (w : RWord) (op : Nat) : List Word :=
  Sys2Proof.lanes.map (fun l => if c.eff.getLsbD l then c.opnd w.a l else redIdentity op w.ty)

/-- `red` (R250). -/
def execRed (w : RWord) (s : State) := issueWord (.red w) s (fun c s =>
  let r := redTree (redNode w w.minor) 5 (c.redInputs w w.minor)
  if c.eff = 0#32 then .done s else c.calc s w.d (fun _ => ([r.1], r.2)))

/-- The five steps of R152. The events are those of the additions at the lanes of a mask (R154); lane 0, which no step adds to, keeps
its input's pattern (log 84). -/
def scanSteps (f : Word → Word → Word × Flags) (act : Mask) (xs : List Word) : List Word × Flags :=
  [1, 2, 4, 8, 16].foldl (fun acc d =>
    let t := acc.1
    let us := lanes.map (fun l => if d ≤ l then f (t.getD (l - d) 0#32) (t.getD l 0#32) else (t.getD l 0#32, 0#4))
    (us.map (fun p => p.1), acc.2 ||| orAll ((lanes.filter (fun l => act.getLsbD l)).map (fun l => (us.getD l (0#32, 0#4)).2)))) (xs, 0#4)

/-- `scan`, inclusive or exclusive; with `.excl` a lane receives the prefix, and so the events, of the lane below it (R250, log 84). -/
def execScan (w : RWord) (s : State) := issueWord (.scan w) s (fun c s =>
  let op := w.minor % 8
  let r := scanSteps (redNode w op) (if 8 ≤ w.minor then c.eff >>> 1 else c.eff) (c.redInputs w op)
  let out := if 8 ≤ w.minor then redIdentity op w.ty :: r.1 else r.1
  if c.eff = 0#32 then .done s
  else c.put s (c.lanes.map (fun l => ⟨w.d.toNat, l, out.getD l 0#32⟩)) r.2)

/-- `elect` (R251). -/
def execElect (w : RWord) (s : State) := issueWord (.elect w) s (fun c s =>
  let l := lowLane c.eff
  if w.minor = 0 then c.putWhole s w.d (wd (2 ^ l)) else c.putScalar s w.d [wd l])

/-- `uchk` (R251). -/
def execUchk (w : RWord) (s : State) := issueWord (.uchk w) s (fun c s =>
  let x := c.uni w.a
  let other := c.lanes.filter (fun l => decide (c.opnd w.a l ≠ x))
  if w.minor = 0 then c.putScalar s w.d [if other = [] then 1#32 else 0#32]
  else if other = [] then .done s
  else .raise ⟨0x09, 0, w.a.toNat % 512 + 512⟩ (maskOf other) s)

end Sys2Proof.Machine
end

