-- ==== Sys2Proof/Machine/Matrix.lean ====
section
/-!
DEFINITION. Matrix and attention instructions and the core's sequencer (spec 05 R149 to R151, R155 to R158; 11 R290 to R317;
25 R502).
-/

namespace Sys2Proof.Machine

/-! ### Reservation records (R292 to R295) -/

/-- The fields of a record. -/
def recBase (r : BitVec 128) : Nat := bitsN r 127 96
def recLen (r : BitVec 128) : Nat := bitsN r 95 64
def recScale (r : BitVec 128) : Nat := bitsN r 63 32
def recPitch (r : BitVec 128) : Nat := bitsN r 31 16
def recFmt (r : BitVec 128) : Nat := bitsN r 15 12
def recBlk (r : BitVec 128) : Nat := bitsN r 11 10
def recRemote (r : BitVec 128) : Bool := r.getLsbD 7
def recRank (r : BitVec 128) : Nat := bitsN r 6 4

/-- The space of a record. -/
def recSpace (r : BitVec 128) : Space := match bitsN r 9 8 with
  | 0 => .wb
  | 1 => .ab
  | _ => .sp

/-- Element width in bits of a format of R137. -/
def fmtBits (f : Nat) : Nat := if f = 0xD then 4 else if f = 0xB ∨ f = 0xC then 8 else if f = 0x8 ∨ f = 0x9 then 16 else 32

/-- Elements of a scale block, and scale bytes of a row (R294). -/
def recBlock (r : BitVec 128) : Nat := if recBlk r = 1 then 16 else 32
def recSpr (r : BitVec 128) : Nat := recPitch r * 8 / fmtBits (recFmt r) / recBlock r

/-- The workgroup whose allocation a record names: core and workgroup (R293, R302). -/
def State.recOwner (s : State) (core i : Nat) (r : BitVec 128) : Option (Nat × Workgroup) :=
  match s.wg core i with
  | none => none
  | some g =>
    if !recRemote r || decide (recRank r = g.ensRank) then some (core, g)
    else (s.ensemble core i).findSome? (fun e => match s.wg e.1 e.2 with
      | some h => if h.ensRank = recRank r then some (e.1, h) else none
      | none => none)

/-- A RESERVATION or MATRIX_SHAPE fault: handle or slot, and quarter (R444). -/
def handleRaise (code h q : Nat) : Raise := ⟨code, 0, h + 16 * q⟩

/-- A fault on an offset of a space (R444). -/
def spaceRaise (code o : Nat) (x : Space) : Raise := ⟨code, 0, o % 2 ^ 32 + spaceCode x * 2 ^ 60⟩

/-- The first failing check of `mres` on a record (R293, R414), but for the free handle. -/
def State.recordFail (s : State) (c : Ctx) (r : BitVec 128) : Option Raise :=
  let f := recFmt r
  let need := (if f = 0xD then [4] else []) ++ (if f = 0xB ∨ f = 0xC then [5] else []) ++ (if recRemote r then [6] else [])
  match need.find? (fun n => !s.hasFeat c.wg.vf n) with
  | some n => some ⟨0x04, n, n⟩
  | none =>
    if bitsN r 3 0 ≠ 0 ∨ (recRemote r = false ∧ recRank r ≠ 0) then some ⟨0x03, 7, c.word.toNat⟩
    else if bitsN r 9 8 = 3 ∨ (recRemote r = false ∧ bitsN r 9 8 = 2) ∨
        (recRemote r = true ∧ (c.wg.ensSize ≤ 1 ∨ c.wg.ensSize ≤ recRank r)) then some ⟨0x03, 8, c.word.toNat⟩
    else if !([0x8, 0x9, 0xA, 0xB, 0xC, 0xD].contains f) || decide (recBlk r = 3) || decide (f = 0xD ∧ recBlk r = 0) ||
        decide (f ≤ 0xA ∧ recBlk r ≠ 0) then some (handleRaise 0x11 0 0)
    else if recBase r % 64 ≠ 0 ∨ recLen r % 64 ≠ 0 ∨ recPitch r % 64 ≠ 0 ∨ recLen r = 0 ∨ recPitch r = 0 then
      some (spaceRaise 0x0C (recBase r) (recSpace r))
    else
      let usable := match s.recOwner c.core c.wave.wg r with
        | some o => o.2.usable (recSpace r)
        | none => 0
      if usable < recBase r + recLen r then some (spaceRaise 0x0B (recBase r) (recSpace r))
      else if recBlk r ≠ 0 ∧ usable < recScale r + recLen r / recPitch r * recSpr r then
        some (spaceRaise 0x0B (recScale r) (recSpace r))
      else none

/-- `mres` (R293). -/
def execMres (w : RWord) (s : State) := issueWord (.mres w) s (fun c s =>
  if c.eff = 0#32 then .done s
  else
    let r : BitVec 128 := BitVec.ofNat 128 (pair64 (c.sreg w.a 0) (c.sreg w.a 1) + 2 ^ 64 * pair64 (c.sreg w.a 2) (c.sreg w.a 3))
    match s.recordFail c r with
    | some f => .raise f c.eff s
    | none => match (List.range 16).find? (fun h => (sget none c.wg.handles h).isNone), c.wg.tokensDeclared with
      | some h, _ + 1 =>
        .done ((s.updWg c.core c.wave.wg (fun g => { g with handles := sset none g.handles h (some ⟨r, false⟩) })).updWave c.id
          (fun v => v.sregSet (w.d.toNat - 0x100) (wd h)))
      | _, _ => .raise (handleRaise 0x11 0 0) c.eff s)

/-- The handles a command names. -/
def CmdOp.handles : CmdOp → List Nat
  | .product _ _ qs => qs.flatMap (fun q => [q.da.toNat / 2 ^ 28, q.db.toNat / 2 ^ 28])
  | .transpose _ _ d _ => [d.toNat / 2 ^ 28]
  | _ => []

/-- Freed handles that no unretired command names become free (R295). -/
def State.sweepHandles (s : State) (core i : Nat) : State :=
  let named := ((s.core core).cmds.filter (fun k => decide (k.wg = i))).flatMap (fun k => k.op.handles)
  let keep := fun (m : Sparse (Option Handle)) (h : Nat) => match sget none m h with
    | some x => if x.freed && !named.contains h then sset none m h none else m
    | none => m
  s.updWg core i (fun g => { g with handles := (List.range 16).foldl keep g.handles })

/-- A bound handle that has not been freed. -/
def Ctx.handle (c : Ctx) (h : Nat) : Option (BitVec 128) := match sget none c.wg.handles h with
  | some x => if x.freed then none else some x.bits
  | none => none

/-- `mfree` (R295). -/
def execMfree (w : RWord) (s : State) := issueWord (.mfree w) s (fun c s =>
  let h := (c.uni w.a).toNat
  if c.eff = 0#32 then .done s
  else if 16 ≤ h then .raise c.valueFault c.eff s
  else match c.handle h with
    | none => .raise (handleRaise 0x11 h 0) c.eff s
    | some r => .done ((s.updWg c.core c.wave.wg (fun g =>
        { g with handles := sset none g.handles h (some ⟨r, true⟩) })).sweepHandles c.core c.wave.wg))

/-! ### Admission (R296, R297) -/

/-- Whether a command is one of a wave of a workgroup: a wave's slot may be taken by a later wave before its commands retire. -/
def Cmd.of (k : Cmd) (id : WaveId) (wg : Nat) : Bool := decide (k.w = id) && decide (k.wg = wg)

/-- The number of the wave's unretired command at a predecessor distance, plus 1, or 0 (R296). -/
def State.predecessor (s : State) (c : Ctx) (dist : Nat) : Nat :=
  if dist = 0 then 0
  else match (s.core c.core).cmds.find? (fun k => k.of c.id c.wave.wg && decide (k.id = c.wave.cmdCounter - BitVec.ofNat 16 dist)) with
    | some k => k.num + 1
    | none => 0

/-- Admit a command: it takes the wave's counter as its id, which S[D] receives; a command the sequencer has no room for
waits at issue (R296, R297). Without an effective lane it does nothing. -/
def Ctx.command (c : Ctx) (s : State) (w : RWord) (op : CmdOp) (units : Nat) : Res :=
  let k := s.core c.core
  if c.eff ≠ 0#32 ∧ (64 ≤ k.cmds.length ∨ 1024 < k.cmds.foldl (fun a x => a + x.units) 0 + units) then s.wait
  else
    let cmd : Cmd := ⟨k.cmdNum, c.id, c.wave.wg, c.wave.cmdCounter,
      s.predecessor c (w.mod.extractLsb' 8 6).toNat, s.predecessor c (w.mod.extractLsb' 2 6).toNat, op, units, s.tags,
      false, [], [], 0#4, none, []⟩
    let s := if c.eff = 0#32 then s else s.updCore c.core (fun k => { k with cmds := k.cmds ++ [cmd], cmdNum := k.cmdNum + 1 })
    .done (s.updWave c.id (fun v =>
      { (v.sregSet (w.d.toNat - 0x100) (v.cmdCounter.zeroExtend 32)) with cmdCounter := v.cmdCounter + 1#16 }))

/-! ### Products (R304, R305, R310) -/

/-- The class of formats that give one K (R305). -/
def kClass (f : Nat) : Nat := if f = 0xD then 0 else if f = 0xB ∨ f = 0xC then 1 else if f = 0x8 ∨ f = 0x9 then 2 else 3

/-- First row and segment of a descriptor (R304). -/
def descRow (d : Word) : Nat := bitsN d 27 8
def descSeg (d : Word) : Nat := bitsN d 7 0

/-- Whether rows `row` to `row + n − 1`, from byte `off` for `len` bytes, lie in a record (R305). -/
def recSpan (r : BitVec 128) (row n off len : Nat) : Bool := decide ((row + n - 1) * recPitch r + off + len ≤ recLen r)

/-- The checks on a tile of the C-buffer (R305, R315): multiples, then the allocation. -/
def tileFail (g : Workgroup) (o len align : Nat) : Option Raise :=
  if o % align ≠ 0 then some (spaceRaise 0x0C o .cb)
  else if g.usable .cb < o + len then some (spaceRaise 0x0B o .cb)
  else none

/-- One quarter of a product, or the first failing check of R305 and R310: `kind` 0 `mma.q`, 1 `mma`, 2 `mqk`, 3 `msv`. -/
def State.quarterOp (s : State) (c : Ctx) (w : RWord) (kind q : Nat) : Except Raise QuarterOp :=
  let da := c.opnd w.a (8 * q)
  let db := c.opnd w.b (8 * q)
  let cr := fun (i : Nat) => c.wave.opnd (w.c.toNat + i) (8 * q)
  let o := (cr 0).toNat + (if kind = 1 then 4096 * q else 0)
  let slot := sget SmpSlot.empty (s.core c.core).smp (bitsN (cr 3) 10 8)
  let ha := da.toNat / 2 ^ 28
  let hb := db.toNat / 2 ^ 28
  let rowA := descRow da + (if kind = 1 then 32 * q else 0)
  match c.handle ha, c.handle hb with
  | none, _ => .error (handleRaise 0x11 ha q)
  | _, none => .error (handleRaise 0x11 hb q)
  | some ra, some rb =>
    let e := fmtBits (recFmt rb)
    let k := 512 / fmtBits (recFmt ra)
    if kind = 2 ∧ (slot.state ≠ .loaded ∨ slot.tag ≠ c.wave.wg) then .error (handleRaise 0x12 (bitsN (cr 3) 10 8) q)
    else if kClass (recFmt ra) ≠ kClass (recFmt rb) then .error (handleRaise 0x12 ha q)
    else if recSpan ra rowA 32 (64 * descSeg da) 64 = false then .error (handleRaise 0x11 ha q)
    else if (if kind = 3 then recSpan rb (descRow db) k (4 * descSeg db * e) (4 * e)
        else recSpan rb (descRow db) 32 (64 * descSeg db) 64) = false then .error (handleRaise 0x11 hb q)
    else match tileFail c.wg o 4096 512 with
      | some r => .error r
      | none => .ok ⟨q, da, db, ra, rb, o, cr 1, cr 2, cr 3⟩

/-- A product command (R304, R310): every issued quarter is checked, then admitted as one command. -/
def Ctx.product (c : Ctx) (s : State) (w : RWord) (kind : Nat) : Res :=
  c.onPath 2 s (fun s =>
    let qs := (List.range 4).filter (fun q => c.eff.getLsbD (8 * q))
    if kind = 2 ∧ qs.any (fun q => decide (bitsN (c.wave.opnd (w.c.toNat + 3) (8 * q)) 31 11 ≠ 0)) then
      .raise ⟨0x03, 7, c.word.toNat⟩ c.eff s
    else
      let rs := qs.map (fun q => s.quarterOp c w kind q)
      match rs.findSome? (fun r => match r with
        | .error e => some e
        | .ok _ => none) with
      | some e => .raise e c.eff s
      | none => c.command s w (.product kind (w.mod.getLsbD 1) (rs.filterMap (fun r => match r with
          | .ok x => some x
          | .error _ => none))) (16 * qs.length))

/-- `mma.q` (R304). -/
def execMmaQ (w : RWord) (s : State) := issueWord (.mmaQ w) s (fun c s => c.product s w 0)
/-- `mma` (R304). -/
def execMma (w : RWord) (s : State) := issueWord (.mma w) s (fun c s => c.product s w 1)
/-- `mqk` (R310). -/
def execMqk (w : RWord) (s : State) := issueWord (.mqk w) s (fun c s => c.product s w 2)
/-- `msv` (R304). -/
def execMsv (w : RWord) (s : State) := issueWord (.msv w) s (fun c s => c.product s w 3)

/-! ### Row operations (R311 to R315) -/

/-- `mrow` (R311). -/
def execMrow (w : RWord) (s : State) := issueWord (.mrow w) s (fun c s =>
  c.onPath 2 s (fun s =>
    let a := (c.uni w.a).toNat
    let b := (c.uni w.b).toNat
    let sel := (w.mod.extractLsb' 0 2).toNat
    let lo := if sel = 2 then b + 128 else b
    if a % 512 ≠ 0 then .raise (spaceRaise 0x0C a .cb) c.eff s
    else if b % 256 ≠ 0 then .raise (spaceRaise 0x0C b .cb) c.eff s
    else if c.wg.usable .cb < a + 4096 then .raise (spaceRaise 0x0B a .cb) c.eff s
    else if c.wg.usable .cb < lo + (if sel = 3 then 256 else 128) then .raise (spaceRaise 0x0B b .cb) c.eff s
    else c.command s w (.rowStats sel a b) 8))

/-- `mscale` (R312). -/
def execMscale (w : RWord) (s : State) := issueWord (.mscale w) s (fun c s =>
  c.onPath 2 s (fun s =>
    let a := (c.uni w.a).toNat
    match tileFail c.wg a 4096 512 with
    | some r => .raise r c.eff s
    | none => c.command s w (.scale a (Sys2Proof.lanes.map (fun l => c.wave.vget w.b.toNat l))) 8))

/-- `mtrans` (R313). -/
def execMtrans (w : RWord) (s : State) := issueWord (.mtrans w) s (fun c s =>
  c.onPath 2 s (fun s =>
    let a := (c.uni w.a).toNat
    let d := c.uni w.b
    let h := d.toNat / 2 ^ 28
    match tileFail c.wg a 4096 512, c.handle h with
    | some r, _ => .raise r c.eff s
    | none, none => .raise (handleRaise 0x11 h 0) c.eff s
    | none, some r =>
      if recRemote r || !([0x8, 0x9, 0xA].contains (recFmt r)) || decide (recBlk r ≠ 0) then .raise (handleRaise 0x12 h 0) c.eff s
      else if recSpan r (descRow d) 32 (64 * descSeg d) (4 * fmtBits (recFmt r)) = false then .raise (handleRaise 0x11 h 0) c.eff s
      else c.command s w (.transpose (w.mod.getLsbD 0) a d r) 8))

/-- `mzero` (R314). -/
def execMzero (w : RWord) (s : State) := issueWord (.mzero w) s (fun c s =>
  c.onPath 2 s (fun s =>
    let a := (c.uni w.a).toNat
    let wide := w.mod.getLsbD 0
    match tileFail c.wg a (if wide then 16384 else 4096) 512 with
    | some r => .raise r c.eff s
    | none => c.command s w (.zero wide a) (if wide then 16 else 8)))

/-! ### Waiting (R306, R354) -/

/-- Whether a command is one of the ladder. -/
def CmdOp.ladder : CmdOp → Bool
  | .ladInit _ | .ladPush _ _ | .ladBlend _ _ _ => true
  | _ => false

/-- `mwait` for one id or for every command of the wave. A kept ladder failure that it awaits is raised precisely: the word
does not issue before an awaited ladder command has retired (R354, R474). Without an effective lane it awaits nothing, but `%fflags`
enters the pending-write set all the same (R176, R306). -/
def Ctx.mwait (c : Ctx) (s : State) (id : Option (BitVec 16)) : Res :=
  let mine := (s.core c.core).cmds.filter (fun k => k.of c.id c.wave.wg && (match id with
    | some i => decide (k.id = i)
    | none => true))
  if c.eff = 0#32 then .done (s.launch c (.mwait []) [flagsReg])
  else if mine.any (fun k => k.op.ladder) then s.wait
  else match c.wave.ladderFail with
    | some (cmd, reason) =>
      if id.isNone || decide (id = some (BitVec.ofNat 16 cmd)) then
        .raise ⟨0x14, 0, cmd + reason * 2 ^ 16⟩ c.eff (s.updWave c.id (fun v => { v with ladderFail := none }))
      else .done (s.launch c (.mwait (mine.map (fun k => k.num))) [flagsReg])
    | none => .done (s.launch c (.mwait (mine.map (fun k => k.num))) [flagsReg])

/-- `mwait` (R306). -/
def execMwait (w : RWord) (s : State) := issueWord (.mwait w) s (fun c s => c.mwait s (some ((c.uni w.a).extractLsb' 0 16)))
/-- `mwait.all` (R306). -/
def execMwaitAll (w : RWord) (s : State) := issueWord (.mwaitAll w) s (fun c s => c.mwait s none)

/-- An `mwait` whose commands have retired ends: `%fflags` leaves the pending-write set (R306). -/
def State.mwaitTry (s : State) (id : WaveId) (f : Flight) (nums : List Nat) : State :=
  if (s.core id.core).cmds.any (fun k => nums.contains k.num) then s else s.finish id f.tag

/-! ### Score-modification programs (R307 to R309) -/

/-- `smp.ld` (R307); a slot that the workgroup itself holds LOADING raises too (R456). -/
def execSmpLd (w : RWord) (s : State) := issueWord (.smpLd w) s (fun c s =>
  let t := (c.uni w.a).toNat
  let o := (c.sreg w.b 0).toNat
  let k := s.core c.core
  let slot := sget SmpSlot.empty k.smp t
  let g := sget 0#128 c.wave.segs 15
  let busy := k.cmds.any (fun x => match x.op with
    | .product 2 _ qs => qs.any (fun q => decide (bitsN q.head 10 8 = t))
    | _ => false)
  if c.eff = 0#32 then .done (s.launch c (.result []) [w.d.toNat])
  else if 8 ≤ t then .raise c.valueFault c.eff s
  else if (slot.state ≠ .free ∧ slot.tag ≠ c.wave.wg) ∨ slot.state = .loading ∨ busy = true then .raise (handleRaise 0x12 t 0) c.eff s
  else if o % 32 ≠ 0 then .raise ⟨0x0C, 0, (segBase g + 8 * o) % 2 ^ 64⟩ c.eff s
  else if segValid g = false ∨ segLimit g < 8 * o + 256 then .raise ⟨0x0A, 0, segBase g + 8 * o⟩ c.eff s
  else .done ((s.updCore c.core (fun k => { k with smp := sset SmpSlot.empty k.smp t ⟨.loading, c.wave.wg, []⟩ })).launch c
    (.smpImage t o w.d.toNat) [w.d.toNat]))

/-- The fields of an operation word of a program (R308). -/
def smpField (x : Dword) (hi lo : Nat) : Nat := bitsN x hi lo

/-- Whether an operation word is valid (R308): its selectors, its condition, and zeros in the fields it does not use. -/
def smpValid (x : Dword) : Bool :=
  let opc := smpField x 63 59
  let dst := smpField x 58 55
  let srcs := [smpField x 54 51, smpField x 50 47, smpField x 46 43, smpField x 42 39]
  let n := if opc = 5 then 4 else if opc = 6 then 1 else if (1 ≤ opc ∧ opc ≤ 4) ∨ opc = 7 then 2 else 0
  let used := srcs.take n
  decide (opc ≤ 9) && decide (smpField x 35 32 = 0) && decide (dst ≤ 7) && (decide (opc ≠ 0) || decide (dst = 0)) &&
    used.all (fun v => decide (v ≤ 11)) && (srcs.drop n).all (fun v => decide (v = 0)) &&
    (if opc = 5 then decide (smpField x 38 36 ≤ 5) else decide (smpField x 38 36 = 0)) &&
    (used.contains 11 || decide (smpField x 31 0 = 0))

/-- One dword of an image through the fetch path, or its fault's code. -/
def State.imageDword (s : State) (id : WaveId) (g : Workgroup) (seg : BitVec 128) (word : Nat) : Except Nat Dword :=
  match (s.fetchAt id.core g.vf g.part seg (wd word)).1 with
  | .ok x => .ok x
  | .error r => .error r.code

/-- The image fetch of `smp.ld` completes: the slot is LOADED, or INVALID with the status in S[D] (R307). -/
def State.evSmpImage (s : State) (id : WaveId) (tag : Nat) : State :=
  match s.wave id with
  | none => s
  | some w => match w.flight tag, s.wg id.core w.wg with
    | some f, some g => match f.op with
      | .smpImage slot o reg =>
        let xs := (List.range 32).map (fun i => s.imageDword id g (sget 0#128 w.segs 15) (o + i))
        let bad := xs.findSome? (fun x => match x with
          | .error c => some c
          | .ok _ => none)
        let img := xs.filterMap (fun x => match x with
          | .ok v => some v
          | .error _ => none)
        let status := match bad with
          | some c => c
          | none => if (img.take 16).all smpValid then 0 else 0x12
        let s := s.updCore id.core (fun k => { k with
          smp := sset SmpSlot.empty k.smp slot (if status = 0 then ⟨.loaded, w.wg, img⟩ else ⟨.invalid, w.wg, []⟩) })
        s.finishWith id tag [⟨reg, 0, wd status⟩]
      | _ => s
    | _, _ => s

/-- SMP_IMAGE_FETCH_COMPLETE (R307). -/
def execSmpImageFetchComplete (w : WaveId) (tag : Nat) (s : State) : Host.Outcome State Fault Refusal := .next (s.evSmpImage w tag)

/-- The registers of a running program: `x`, `t1` to `t7`, and its flags. -/
structure SmpRun where
  t : List Nat
  flags : Flags
  stop : Bool

/-- A value as a result of an operation: rounded to f32, so that a NaN becomes the canonical one and a signalling one sets NV (R140,
R144, R309). -/
def smpResult (x : Nat) : Nat × Flags := f32.ofVal 0 false (f32.val x)

/-- One operation of a program (R309). `i`, `j`, `h` are the selectors 8 to 10, `head` the head number. -/
def smpOp (slopes : List Dword) (i j h head : Nat) (r : SmpRun) (x : Dword) : SmpRun :=
  let src := fun (v : Nat) => if v < 8 then r.t.getD v 0 else if v = 8 then i else if v = 9 then j else if v = 10 then h
    else smpField x 31 0
  let a := src (smpField x 54 51)
  let b := src (smpField x 50 47)
  let put := fun (p : Nat × Flags) => { r with t := r.t.set (smpField x 58 55) p.1, flags := r.flags ||| p.2 }
  if r.stop then r
  else match smpField x 63 59 with
    | 0 => { r with stop := true }
    | 1 => put (f32.fadd 0 false a b)
    | 2 => put (f32.fmul 0 false a b)
    | 3 => put (f32.fminmax false a b)
    | 4 => put (f32.fminmax true a b)
    | 5 =>
      let p := f32.fcmp (smpField x 38 36) a b
      let r := smpResult (if p.1 then src (smpField x 46 43) else src (smpField x 42 39))
      put (r.1, p.2 ||| r.2)
    | 6 => put (smpResult a)
    | 7 =>
      let d := fdiv a b
      let t := fapprox .tanh (wd d.1)
      let m := f32.fmul 0 false b t.1
      put (m.1, d.2 ||| t.2 ||| m.2)
    | 8 => put (0xFF800000, 0#4)
    | _ => put (smpResult (bitsN (slopes.getD (head % 32 / 2) 0#64) (32 * (head % 2) + 31) (32 * (head % 2))))

/-- A program run on one score (R310). -/
def smpRun (img : List Dword) (q : QuarterOp) (i j x : Nat) : Nat × Flags :=
  let f := fun (n : Nat) => (f32.round 0 false false (n % 2 ^ 32) 0).1
  let head := bitsN q.head 7 0
  let r := (img.take 16).foldl (smpOp (img.drop 16) (f (q.row.toNat + i)) (f (q.col.toNat + j)) (f head) head)
    ⟨[x, 0, 0, 0, 0, 0, 0, 0], 0#4, false⟩
  (r.t.headD 0, r.flags)

/-! ### Execution of commands (R149, R298, R304) -/

/-- Element `n` of a row of a record, as the matrix path reads it (R294). -/
def State.elemOf (s : State) (owner : Nat × Workgroup) (r : BitVec 128) (row n : Nat) : FVal :=
  let f := recFmt r
  let e := fmtBits f
  let start := (owner.2.alloc (recSpace r)).start
  let at' := start + recBase r + row * recPitch r + n * e / 8
  let raw := natOfBytes ((s.core owner.1).spaceBytes (recSpace r) at' ((e + 7) / 8))
  let code := if e = 4 then (if n % 2 = 0 then raw % 16 else raw / 16) else raw
  if recBlk r = 0 then (fmtOf f).val code
  else
    let sb := natOfBytes ((s.core owner.1).spaceBytes (recSpace r) (start + recScale r + row * recSpr r + n / recBlock r) 1)
    if e = 4 then q4Val sb code
    else match fp8Scale sb with
      | some k => ((fmtOf f).val code).scale k
      | none => .nan true

/-- Chunk length of R149. -/
def chunkLen (fa fb : Nat) : Nat := if kClass fa ≤ 1 ∧ kClass fb ≤ 1 then 32 else 16

/-- One element of a product: the chunk sums rounded, then added to the accumulator (R149). -/
def chunkElem (as bs : List FVal) (len acc : Nat) : Nat × Flags :=
  (List.range (as.length / len)).foldl (fun (r : Nat × Flags) c =>
    let ps := ((as.drop (c * len)).take len).zip ((bs.drop (c * len)).take len)
    let t := f32.ofVal 0 false (chunkSum (ps.map (fun p => p.1.mul p.2)))
    let u := f32.fadd 0 false r.1 t.1
    (u.1, r.2 ||| t.2 ||| u.2)) (acc, 0#4)

/-- The shadow of an element: one f32 rounding a product, ascending (R157). -/
def shadowElem (as bs : List FVal) (acc : Nat) : Nat :=
  (as.zip bs).foldl (fun a p => (f32.fadd 0 false a (f32.ofVal 0 false (p.1.mul p.2)).1).1) acc

/-- The deviation of two f32 values (R158). -/
def deviation (x y : Nat) : Nat :=
  match f32.val x, f32.val y with
  | .nan _, .nan _ => 0
  | .inf n, .inf p => if n = p then 0 else f32.infBits
  | .fin _ _ _, .fin _ _ _ => (f32.fsub 2 false (max x y) (min x y)).1 % 2 ^ 31 |> fun d =>
      max d ((f32.fsub 2 false (min x y) (max x y)).1 % 2 ^ 31)
  | _, _ => f32.infBits

/-- The operand rows of a quarter: 32 rows of A and 32 columns of B, K elements each (R304). -/
def State.quarterRows (s : State) (core wg kind : Nat) (q : QuarterOp) : List (List FVal) × List (List FVal) :=
  match s.recOwner core wg q.ra, s.recOwner core wg q.rb with
  | some oa, some ob =>
    let ea := 512 / fmtBits (recFmt q.ra)
    let eb := 512 / fmtBits (recFmt q.rb)
    let rowA := descRow q.da + (if kind = 1 then 32 * q.q else 0)
    ((List.range 32).map (fun i => (List.range ea).map (fun k => s.elemOf oa q.ra (rowA + i) (descSeg q.da * ea + k))),
     (List.range 32).map (fun j => (List.range ea).map (fun k =>
      if kind = 3 then s.elemOf ob q.rb (descRow q.db + k) (32 * descSeg q.db + j)
      else s.elemOf ob q.rb (descRow q.db + j) (descSeg q.db * eb + k))))
  | _, _ => ([], [])

/-- A tile's words in the C-buffer, from a core offset. -/
def State.tileWords (s : State) (core o n : Nat) : List Nat :=
  (List.range n).map (fun i => natOfBytes ((s.core core).spaceBytes .cb (o + 4 * i) 4))

/-- One quarter of a product on a tile: the new words with flags, and the largest deviation of its shadow with its place, of the operands
as the pass reads them (R157). Of `mqk` the primary value compared is the score of R149 before its program runs (DESIGN CHOICE,
log 79). -/
def State.runQuarter (s : State) (core wg kind : Nat) (img : List Dword) (q : QuarterOp) (tile : List Nat) :
    List (Nat × Flags) × (Nat × Nat × Nat) :=
  let rows := s.quarterRows core wg kind q
  let len := chunkLen (recFmt q.ra) (recFmt q.rb)
  let cell := fun (n : Nat) => (rows.1.getD (n / 32) [], rows.2.getD (n % 32) [], if kind = 2 then 0 else tile.getD n 0)
  let raw := (List.range 1024).map (fun n => chunkElem (cell n).1 (cell n).2.1 len (cell n).2.2)
  let out := if kind = 2 then (List.range 1024).map (fun n =>
      let r := raw.getD n (0, 0#4)
      let p := smpRun img q (n / 32) (n % 32) r.1
      (p.1, r.2 ||| p.2)) else raw
  let dev := (List.range 1024).foldl (fun (b : Nat × Nat × Nat) n =>
      let d := deviation (raw.getD n (0, 0#4)).1 (shadowElem (cell n).1 (cell n).2.1 (cell n).2.2)
      if b.1 < d then (d, n / 32, n % 32) else b) (0, 0, 0)
  (out, dev)

/-- What a started command will write: words, halves, flags and the deviations of its quarter tiles. -/
structure CmdOut where
  out : List (Space × Nat × Word)
  half : List (Space × Nat × BitVec 16)
  flags : Flags
  dev : List (Nat × Word × Nat × Nat)
  fail : Option Nat

/-- A product's writes: quarters in ascending order, each on the tile as the previous ones left it; under `.z` the first on a
tile starts from +0 (R304); `img` gives each quarter's slot image (R310). -/
def State.runProduct (s : State) (core wg cb kind : Nat) (zero : Bool) (img : QuarterOp → List Dword) (qs : List QuarterOp) : CmdOut :=
  let r := qs.foldl (fun (acc : List (Nat × List Nat) × Flags × List (Nat × Word × Nat × Nat)) q =>
    let old := match acc.1.find? (fun t => decide (t.1 = q.c)) with
      | some t => t.2
      | none => if zero then List.replicate 1024 0 else s.tileWords core (cb + q.c) 1024
    let o := s.runQuarter core wg kind (img q) q old
    (acc.1.filter (fun t => decide (t.1 ≠ q.c)) ++ [(q.c, o.1.map (fun p => p.1))], acc.2.1 ||| orAll (o.1.map (fun p => p.2)),
      acc.2.2 ++ [(if kind = 1 then q.q else 0, wd o.2.1, o.2.2.1, o.2.2.2)])) ([], 0#4, [])
  ⟨r.1.flatMap (fun t => (List.range t.2.length).zip t.2 |>.map (fun p => (Space.cb, cb + t.1 + 4 * p.1, wd p.2))), [], r.2.1, r.2.2, none⟩

/-- The words of a row operation (R311, R312, R314). -/
def State.runRows (s : State) (core cb : Nat) (sel tile dst : Nat) : CmdOut :=
  let ws := s.tileWords core (cb + tile) 1024
  let row := fun (i : Nat) => ((ws.drop (32 * i)).take 32).map (fun x => wd x)
  let node := fun (isMax : Bool) (x y : Word) =>
    let r := if isMax then f32.fminmax true x.toNat y.toNat else f32.fadd 0 false x.toNat y.toNat
    (wd r.1, r.2)
  let one := fun (isMax : Bool) => (List.range 32).map (fun i =>
    (i, redTree (node isMax) 5 (row i)))
  let out := fun (isMax : Bool) => (one isMax).map (fun p =>
    (Space.cb, cb + dst + (if isMax then 0 else 128) + 4 * p.1, p.2.1))
  let fl := fun (isMax : Bool) => orAll ((one isMax).map (fun p => p.2.2))
  ⟨(if sel % 2 = 1 then out true else []) ++ (if 2 ≤ sel then out false else []), [],
    (if sel % 2 = 1 then fl true else 0#4) ||| (if 2 ≤ sel then fl false else 0#4), [], none⟩

/-- The elements a transpose writes (R313). -/
def State.runTrans (s : State) (core cb : Nat) (g : Workgroup) (t : Bool) (tile : Nat) (d : Word) (r : BitVec 128) : CmdOut :=
  let ws := s.tileWords core (cb + tile) 1024
  let f := recFmt r
  let n := fmtBits f / 8
  let start := (g.alloc (recSpace r)).start + recBase r
  let cells := (List.range 1024).map (fun k =>
    let i := k / 32
    let c := k % 32
    (start + (descRow d + i) * recPitch r + 64 * descSeg d + n * c,
      cvtVal 0xA f 0 false (ws.getD (if t then 32 * c + i else 32 * i + c) 0)))
  let fl := orAll (cells.map (fun p => p.2.2))
  if n = 4 then ⟨cells.map (fun p => (recSpace r, p.1, wd p.2.1)), [], fl, [], none⟩
  else ⟨[], cells.map (fun p => (recSpace r, p.1, BitVec.ofNat 16 p.2.1)), fl, [], none⟩

/-- What a command of the matrix unit reads and computes at its start (R298); ladder commands are given apart. -/
def State.runMatrix (s : State) (core : Nat) (g : Workgroup) (k : Cmd) : CmdOut :=
  let cb := g.cb.start
  match k.op with
  | .product kind zero qs =>
    s.runProduct core k.wg cb kind zero (fun q => (sget SmpSlot.empty (s.core core).smp (bitsN q.head 10 8)).image) qs
  | .rowStats sel tile dst => s.runRows core cb sel tile dst
  | .scale tile fs =>
    let r := (List.range 1024).zip (s.tileWords core (cb + tile) 1024) |>.map (fun p =>
      (p.1, f32.fmul 0 false p.2 (fs.getD (p.1 / 32) 0#32).toNat))
    ⟨r.map (fun p => (Space.cb, cb + tile + 4 * p.1, wd p.2.1)), [], orAll (r.map (fun p => p.2.2)), [], none⟩
  | .transpose t tile d r => s.runTrans core cb g t tile d r
  | .zero wide tile => ⟨(List.range (if wide then 4096 else 1024)).map (fun i => (Space.cb, cb + tile + 4 * i, 0#32)), [], 0#4, [], none⟩
  | _ => ⟨[], [], 0#4, [], none⟩

/-! ### The sequencer (R298, R299) -/

/-- Whether a command's predecessors have retired. -/
def Core.startable (c : Core) (k : Cmd) : Bool :=
  !k.started && !c.cmds.any (fun x => decide (x.num + 1 = k.pa) || decide (x.num + 1 = k.pb))

/-- Tokens of a workgroup that neither a pass nor its rest holds (R298, R72); one at least while a pre-emption, a save or a
containment waits for its passes (R454). -/
def State.freeTokens (s : State) (core wg : Nat) (g : Workgroup) : Nat :=
  let p := s.part g.part
  let must := (s.core core).preempt.isSome || g.contained.isSome ||
    (p.grace.isSome && decide (p.slice.map (fun x => x.1) = some g.vf))
  (if must then max 1 g.tokensGranted else g.tokensGranted) - ((s.core core).rests.filter (fun r => decide (r.1 = wg) && decide (s.clk < r.2))).length

/-- A started command with what it will write. -/
def State.startCmd (s : State) (core : Nat) (k : Cmd) (o : CmdOut) : State :=
  s.updCore core (fun c => { c with cmds := c.cmds.map (fun x => if x.num = k.num then
    { x with started := true, out := o.out, half := o.half, flags := o.flags, dev := o.dev, fail := o.fail } else x) })

/-- A matrix command starts if it is the oldest startable one of the matrix unit or row path that has its token (R298); its quarter
passes are counted (R256). -/
def State.evMatrixStart (s : State) (core cmd : Nat) : State :=
  let c := s.core core
  let can := fun (k : Cmd) => c.startable k && !k.op.ladder && (match k.op, s.wg core k.wg with
    | .product .., some g => decide (0 < s.freeTokens core k.wg g)
    | _, some _ => true
    | _, none => false)
  match c.cmds.find? can with
  | none => s
  | some k => if k.num ≠ cmd then s
    else match s.wg core k.wg with
      | none => s
      | some g =>
        let n := match k.op with
          | .product _ _ qs => qs.length
          | _ => 0
        let more := (List.range n).map (fun i => (k.wg, s.clk + 16 * (1 + i / max 1 g.tokensGranted)))
        let s' := s.updCore core (fun c => { c with
          rests := c.rests.filter (fun r => decide (s.clk < r.2)) ++ more
          perf := sset 0 c.perf 3 (sget 0 c.perf 3 + n) })
        s'.startCmd core k (s.runMatrix core g k)

/-- MATRIX_COMMAND_START (R298). -/
def execMatrixCommandStart (core cmd : Nat) (s : State) : Host.Outcome State Fault Refusal := .next (s.evMatrixStart core cmd)

/-- Count a retired quarter tile; one at a multiple of N goes to the checker, or is skipped while it is busy (R157, R158). -/
def State.countTile (s : State) (core part : Nat) (k : Cmd) (d : Nat × Word × Nat × Nat) : State :=
  let v := bitsN (s.part part).shadow 4 0
  s.updCore core (fun c =>
    let h := { c.shadow with count := c.shadow.count + 1 }
    { c with shadow :=
        if v = 0 ∨ h.count % 2 ^ (v - 1) ≠ 0 then h
        else if h.busy.isSome then { h with skipped := h.skipped + 1 }
        else { h with busy := some (k.id.toNat, d.1, s.pclk part, d.2.1, d.2.2.1, d.2.2.2) } })

/-- A retired command's effects: its bytes, its flags, its kept ladder failure, the tiles it counts (R155, R157, R298, R474). -/
def State.retireCmd (s : State) (core : Nat) (k : Cmd) : State :=
  let s := s.updCore core (fun c =>
    let c := k.out.foldl (fun c o => c.setSpaceBytes o.1 o.2.1 (bytesOfNat o.2.2.toNat 4)) c
    let c := k.half.foldl (fun c o => c.setSpaceBytes o.1 o.2.1 (bytesOfNat o.2.2.toNat 2)) c
    { c with cmds := c.cmds.filter (fun x => decide (x.num ≠ k.num)) })
  let s := s.updWave k.w (fun w => if w.wg ≠ k.wg then w
    else { (w.orFlags k.flags) with ladderFail := match w.ladderFail, k.fail with
      | none, some r => some (k.id.toNat, r)
      | x, _ => x })
  let part := match s.wg core k.wg with
    | some g => g.part
    | none => 0
  let s := match k.op with
    | .product _ _ qs => (List.range qs.length).foldl (fun (s : State) i => s.countTile core part k (k.dev.getD i (0, 0#32, 0, 0))) s
    | _ => s
  s.sweepHandles core k.wg

/-- SHADOW_CHECK_COMPLETE: the checker writes its entry, and triggers a snapshot above the ring's threshold (R158, R502). -/
def State.evShadow (s : State) (core : Nat) : State :=
  let h := (s.core core).shadow
  match h.busy, s.partOfSector (sectorOf core) with
  | some (id, q, time, dev, row, col), some part =>
    let s := s.updCore core (fun c => { c with shadow := { h with busy := none, skipped := 0 } })
    let s := s.telemetry part (BitVec.ofNat 256 (2 ^ 248 + core * 2 ^ 224 + id * 2 ^ 208 + q % 4 * 2 ^ 206 + time % 2 ^ 64 * 2 ^ 128 +
      dev.toNat * 2 ^ 96 + row * 2 ^ 88 + col * 2 ^ 80 + h.skipped % 2 ^ 32 * 2 ^ 32))
    let base := (s.part part).telebase.toNat
    let thresh := bitsN (BitVec.ofNat 512 (s.homeNat base 64)) 319 288
    if base ≠ 0 ∧ thresh ≠ 0 ∧ (f32.fcmp 4 dev.toNat thresh).1 then s.faultTrigger part 0 0 else s
  | _, _ => s

/-- SHADOW_CHECK_COMPLETE (R158). -/
def execShadowCheckComplete (core : Nat) (s : State) : Host.Outcome State Fault Refusal := .next (s.evShadow core)

end Sys2Proof.Machine
end

