-- ==== Sys2Proof/Machine/Ladder.lean ====
section
/-!
DEFINITION. The ladder accumulator (spec 13), the retirement of commands, and the writing of variable-latency results
(spec 06 R176; 11 R298, R306).
-/

namespace Sys2Proof.Machine

/-! ### The ladder block (R345, R346, R348) -/

/-- A ladder's descriptor as it stands, with the core offset of its block and the workgroup's C-buffer start. -/
structure Ladder where
  cb : Nat
  block : Nat
  base : Nat
  n : Nat
  decay : Nat
  k : Nat
  wide : Bool
  rule : Bool
  top : Bool
  valid : Bool
  clean : Bool
  deriving DecidableEq, Repr

/-- The descriptor of the ladder at a block offset of a workgroup's C-buffer (R345). -/
def State.ladder (s : State) (core : Nat) (g : Workgroup) (block : Nat) : Ladder :=
  let d := BitVec.ofNat 512 (natOfBytes ((s.core core).spaceBytes .cb (g.cb.start + block) 64))
  { cb := g.cb.start
    block := block
    base := bitsN d 511 480
    n := bitsN d 479 448
    decay := bitsN d 447 416
    k := bitsN d 415 412 + 1
    wide := !d.getLsbD 411
    rule := d.getLsbD 410
    top := d.getLsbD 409
    valid := d.getLsbD 408
    clean := decide (bitsN d 407 0 = 0) }

/-- Bytes of a rung and of a tile of the ladder's shape (R346). -/
def Ladder.size (l : Ladder) : Nat := if l.wide then 4096 else 1024

/-- Whether a rung is occupied (R348). -/
def Ladder.occupied (l : Ladder) (i : Nat) : Bool :=
  if i + 1 < l.k then l.n.testBit i else decide (l.n / 2 ^ (l.k - 1) ≠ 0) || l.top

/-- The core offset of a rung. -/
def Ladder.rung (l : Ladder) (i : Nat) : Nat := l.cb + l.base + i * l.size

/-- Whether two byte ranges overlap. -/
def overlap (a n b m : Nat) : Bool := decide (a < b + m) && decide (b < a + n)

/-- The first failing check of a descriptor, but for the lanes of `lad.rung`: `tile` is the command's tile, `init` says that
VALID is not checked (R354, R355). -/
def Ladder.fail (l : Ladder) (usable : Nat) (init : Bool) (tile : Option Nat) : Option Nat :=
  let span := l.k * l.size
  let out := match tile with
    | some b => decide (usable < b + l.size)
    | none => false
  let hit := match tile with
    | some b => overlap l.base span b l.size
    | none => false
  if !init && !l.valid then some 1
  else if !l.clean then some 2
  else if l.base % 512 ≠ 0 then some 3
  else if usable < l.base + span ∨ out = true then some 4
  else if overlap l.base span l.block 128 || hit then some 5
  else none

/-- The writes of a tile's words from a core offset. -/
def tileOut (at' : Nat) (ws : List Nat) : List (Space × Nat × Word) :=
  (List.range ws.length).zip ws |>.map (fun p => (Space.cb, at' + 4 * p.1, wd p.2))

/-- The writes of N, and of TOP and VALID in their word, which keeps its other bits (R345). -/
def Ladder.descOut (l : Ladder) (n : Nat) (top : Bool) : List (Space × Nat × Word) :=
  let bit := fun (b : Bool) (k : Nat) => if b then 2 ^ k else 0
  [(.cb, l.cb + l.block + 56, wd n),
   (.cb, l.cb + l.block + 48, wd ((l.k - 1) * 2 ^ 28 + bit (!l.wide) 27 + bit l.rule 26 + bit top 25 + bit true 24))]

/-! ### Pushing and blending (R349 to R351) -/

/-- One element of a merge (R349). -/
def Ladder.merge1 (l : Ladder) (older newer : Nat) : Nat × Flags :=
  if l.rule then f32.fma 0 false l.decay older newer else f32.fadd 0 false older newer

/-- A merge of two tiles with its events (R349). -/
def Ladder.merge (l : Ladder) (older : List Nat) (newer : List Nat × Flags) : List Nat × Flags :=
  let rs := (older.zip newer.1).map (fun p => l.merge1 p.1 p.2)
  (rs.map (fun r => r.1), newer.2 ||| orAll (rs.map (fun r => r.2)))

/-- The words of a rung. -/
def State.rungWords (s : State) (core : Nat) (l : Ladder) (i : Nat) : List Nat := s.tileWords core (l.rung i) (l.size / 4)

/-- The carry chain of a push: the rung it ends at and the carry (R350). -/
def State.carryChain (s : State) (core : Nat) (l : Ladder) : Nat → Nat → List Nat × Flags → Nat × (List Nat × Flags)
  | 0, i, carry => (i, carry)
  | fuel + 1, i, carry =>
    if i + 1 < l.k ∧ l.n.testBit i = true then s.carryChain core l fuel (i + 1) (l.merge (s.rungWords core l i) carry)
    else (i, carry)

/-- What a push writes (R350). -/
def State.runPush (s : State) (core : Nat) (l : Ladder) (tile : Nat) : CmdOut :=
  let (i, carry) := s.carryChain core l l.k 0 (s.tileWords core (l.cb + tile) (l.size / 4), 0#4)
  let absorb := decide (i + 1 = l.k) && l.occupied i
  let last := if absorb then l.merge (s.rungWords core l i) carry else carry
  ⟨tileOut (l.rung i) last.1 ++ l.descOut ((l.n + 1) % 2 ^ 32) (l.top || absorb), [], last.2, [], none⟩

/-- What a blend writes: the occupied rungs in ascending level, each with its weight (R351). -/
def State.runBlend (s : State) (core : Nat) (l : Ladder) (acc : Bool) (tile : Nat) : CmdOut :=
  let n := l.size / 4
  let start := if acc then s.tileWords core (l.cb + tile) n else List.replicate n 0
  let weight := fun (i : Nat) => natOfBytes ((s.core core).spaceBytes .cb (l.cb + l.block + 64 + 4 * i) 4)
  let r := ((List.range l.k).filter (fun i => l.occupied i)).foldl (fun (a : List Nat × Flags) i =>
    let w := weight i
    let rs := (a.1.zip (s.rungWords core l i)).map (fun p => f32.fma 0 false w p.2 p.1)
    (rs.map (fun x => x.1), a.2 ||| orAll (rs.map (fun x => x.2)))) (start, 0#4)
  ⟨tileOut (l.cb + tile) r.1, [], r.2, [], none⟩

/-- What a ladder command reads, checks and computes at its start (R354, R355). -/
def State.runLadder (s : State) (core : Nat) (g : Workgroup) (op : CmdOp) : CmdOut :=
  let go := fun (block : Nat) (init : Bool) (tile : Option Nat) (f : Ladder → CmdOut) =>
    let l := s.ladder core g block
    match l.fail (g.usable .cb) init tile with
    | some r => (⟨[], [], 0#4, [], some r⟩ : CmdOut)
    | none => f l
  match op with
  | .ladInit block => go block true none (fun l => ⟨l.descOut 0 false, [], 0#4, [], none⟩)
  | .ladPush block tile => go block false (some tile) (fun l => s.runPush core l tile)
  | .ladBlend acc block tile => go block false (some tile) (fun l => s.runBlend core l acc tile)
  | _ => ⟨[], [], 0#4, [], none⟩

/-! ### The commands (R352, R353) -/

/-- The checks of R353 on a block and, for a push or a blend, its tile. -/
def ladderFail (g : Workgroup) (block : Nat) (tile : Option Nat) : Option Raise :=
  let off := match tile with
    | some b => decide (b % 512 ≠ 0)
    | none => false
  let out := match tile with
    | some b => decide (g.usable .cb < b + 1024)
    | none => false
  if block % 128 ≠ 0 then some (spaceRaise 0x0C block .cb)
  else if off then some (spaceRaise 0x0C (optD tile 0) .cb)
  else if g.usable .cb < block + 128 then some (spaceRaise 0x0B block .cb)
  else if out then some (spaceRaise 0x0B (optD tile 0) .cb)
  else none

/-- A ladder command: its checks, then its admission (R353, R297, R358). -/
def Ctx.ladder (c : Ctx) (s : State) (w : RWord) (block : Nat) (tile : Option Nat) (op : CmdOp) (units : Nat) : Res :=
  c.onPath 2 s (fun s => match ladderFail c.wg block tile with
    | some r => .raise r c.eff s
    | none => c.command s w op units)

/-- `lad.init` (R355). -/
def execLadInit (w : RWord) (s : State) := issueWord (.ladInit w) s (fun c s =>
  let block := (c.uni w.a).toNat
  c.ladder s w block none (.ladInit block) 8)

/-- `lad.push` (R350). -/
def execLadPush (w : RWord) (s : State) := issueWord (.ladPush w) s (fun c s =>
  let block := (c.uni w.a).toNat
  let tile := (c.uni w.b).toNat
  c.ladder s w block (some tile) (.ladPush block tile) 264)

/-- `lad.blend` (R351). -/
def execLadBlend (w : RWord) (s : State) := issueWord (.ladBlend w) s (fun c s =>
  let block := (c.uni w.a).toNat
  let tile := (c.uni w.b).toNat
  c.ladder s w block (some tile) (.ladBlend (w.mod.getLsbD 0) block tile) 264)

/-! ### Reading and writing rungs (R356) -/

/-- The ladder a command works on. -/
def CmdOp.block : CmdOp → Option Nat
  | .ladInit b => some b
  | .ladPush b _ => some b
  | .ladBlend _ b _ => some b
  | _ => none

/-- A ladder failure of a `lad.rung` word: a deferred fault (R354, R356). -/
def State.rungFail (s : State) (id : WaveId) (f : Flight) (reason : Nat) : State :=
  (s.deferFault id f 0x14 0 f.fmask (reason * 2 ^ 16)).finish id f.tag

/-- A `lad.rung` word is performed once the ladder commands admitted before it have retired (R356). -/
def State.rungTry (s : State) (id : WaveId) (tag : Nat) : State :=
  match s.wave id with
  | none => s
  | some w => match w.flight tag, s.wg id.core w.wg with
    | some f, some g => match f.op with
      | .rung form block rung offs data reg after =>
        if !s.canPerform w f || (s.core id.core).cmds.any (fun k => after.contains k.num) then s
        else
          let l := s.ladder id.core g block
          match l.fail (g.usable .cb) false none with
          | some r => s.rungFail id f r
          | none =>
            if form ≠ 2 ∧ (l.k ≤ rung ∨ offs.any (fun o => decide (l.size ≤ o.2)) = true) then s.rungFail id f 6
            else if form = 0 then
              s.finishWith id tag (offs.map (fun o => ⟨reg, o.1, if l.occupied rung then
                wd (natOfBytes ((s.core id.core).spaceBytes .cb (l.rung rung + o.2) 4)) else 0#32⟩))
            else if form = 1 then
              (s.updCore id.core (fun c => data.foldl (fun c p => match offs.find? (fun o => decide (o.1 = p.1)) with
                | some o => c.setSpaceBytes .cb (l.rung rung + o.2) (bytesOfNat p.2.toNat 4)
                | none => c) c)).finish id tag
            else
              let mask := (List.range l.k).foldl (fun m i => m + (if l.occupied i then 2 ^ i else 0)) 0
              s.finishWith id tag [⟨reg, 0, wd l.n⟩, ⟨reg + 1, 0, wd (mask + if l.top then 2 ^ 31 else 0)⟩]
      | _ => s
    | _, _ => s

/-- A `lad.rung` word: its checks, then its access (R353, R356). `form` is its minor. -/
def Ctx.rung (c : Ctx) (s : State) (w : RWord) (form : Nat) : Res :=
  c.onPath 0 s (fun s =>
    let block := (c.uni w.a).toNat
    let rung := if form = 2 then 0 else (c.uni w.b).toNat
    let offs := if form = 2 then [] else c.lanes.map (fun l => (l, (c.opnd w.c l).toNat))
    let bad := offs.filter (fun o => decide (o.2 % 4 ≠ 0))
    let regs := if form = 0 then [w.d.toNat] else if form = 2 then regsFrom w.d.toNat 2 else []
    if c.eff = 0#32 then .done (if regs = [] then s else s.launch c (.result []) regs)
    else match ladderFail c.wg block none with
      | some r => .raise r c.eff s
      | none =>
        if 15 < rung then .raise c.valueFault c.eff s
        else match bad with
          | o :: _ => .raise (spaceRaise 0x0C o.2 .cb) (maskOf (bad.map (fun x => x.1))) s
          | [] =>
            let after := ((s.core c.core).cmds.filter (fun k => decide (k.wg = c.wave.wg) && decide (k.op.block = some block))).map
              (fun k => k.num)
            let data := if form = 1 then c.lanes.map (fun l => (l, c.wave.vget w.d.toNat l)) else []
            let tag := s.tags
            let s := s.launch c (.rung form block rung offs data w.d.toNat after) regs
            .done (if form = 1 then s.rungTry c.id tag else s))

/-- `lad.rung.ld` (R356). -/
def execLadRungLd (w : RWord) (s : State) := issueWord (.ladRungLd w) s (fun c s => c.rung s w 0)
/-- `lad.rung.st` (R356). -/
def execLadRungSt (w : RWord) (s : State) := issueWord (.ladRungSt w) s (fun c s => c.rung s w 1)
/-- `lad.rung.cnt` (R356). -/
def execLadRungCnt (w : RWord) (s : State) := issueWord (.ladRungCnt w) s (fun c s => c.rung s w 2)

/-! ### Starting and retiring (R298, R357) -/

/-- Whether a rung store of a workgroup's wave on a block was issued before a command and has not been performed (R356). -/
def State.rungStoreBefore (s : State) (core : Nat) (k : Cmd) (block : Nat) : Bool :=
  (s.wavesOf core k.wg).any (fun e => e.2.flights.any (fun (f : Flight) => match f.op with
    | .rung 1 b _ _ _ _ _ => decide (b = block) && decide (f.tag < k.tag)
    | _ => false))

/-- Whether a ladder command may start: startable, in ladder order, and after earlier rung stores (R298, R356, R357). -/
def State.ladderReady (s : State) (core : Nat) (k : Cmd) : Bool :=
  match k.op.block with
  | none => false
  | some b => (s.core core).startable k && !s.rungStoreBefore core k b &&
      !((s.core core).cmds.takeWhile (fun x => decide (x.num ≠ k.num))).any (fun x => decide (x.wg = k.wg) && decide (x.op.block = some b))

/-- The oldest ladder command that may start, started. -/
def State.evLadderStart (s : State) (core cmd : Nat) : State :=
  match (s.core core).cmds.find? (fun k => s.ladderReady core k) with
  | none => s
  | some k => if k.num ≠ cmd then s
    else match s.wg core k.wg with
      | none => s
      | some g => s.startCmd core k (s.runLadder core g k.op)

/-- LADDER_COMMAND_START (R350, R351, R354, R357). -/
def execLadderCommandStart (core cmd : Nat) (s : State) : Host.Outcome State Fault Refusal := .next (s.evLadderStart core cmd)

/-- What waits for commands at a core is tried again (R126, R306, R356). -/
def State.retryCommands (s : State) (core : Nat) : State :=
  ((s.core core).waveList core).foldl (fun s e => e.2.flights.foldl (fun s (f : Flight) => match f.op with
    | .mwait nums => s.mwaitTry e.1 f nums
    | .rung .. => s.rungTry e.1 f.tag
    | .xfence .. => s.xfenceTry e.1 f.tag
    | _ => s) s) s

/-- A started command retires (R298). -/
def State.evMatrixRetire (s : State) (core cmd : Nat) : State :=
  match (s.core core).cmds.find? (fun k => decide (k.num = cmd) && k.started) with
  | none => s
  | some k => ((s.retireCmd core k).retryCommands core).tidy core

/-- MATRIX_COMMAND_RETIRE (R298, R155). -/
def execMatrixCommandRetire (core cmd : Nat) (s : State) : Host.Outcome State Fault Refusal := .next (s.evMatrixRetire core cmd)

/-- A variable-latency result is written where the access it waits for is complete (R176). -/
def State.evResult (s : State) (id : WaveId) (tag : Nat) : State :=
  match s.wave id with
  | none => s
  | some w => match w.flight tag with
    | none => s
    | some f => match f.op with
      | .mwait nums => s.mwaitTry id f nums
      | .rung .. => s.rungTry id tag
      | .xfence .. => s.xfenceTry id tag
      | _ => s.evVariableWrite id tag

/-- VARIABLE_RESULT_WRITE (R176, R47). -/
def execVariableResultWrite (w : WaveId) (tag : Nat) (s : State) : Host.Outcome State Fault Refusal := .next (s.evResult w tag)

end Sys2Proof.Machine
end

