-- ==== Sys2Proof/Machine/Place.lean ====
section
/-!
DEFINITION. The resources of a core and the context area records (spec 02 R35, R36, R49, R67; 03 R80; 15 R390; 23 R459, R460,
R474).
-/

namespace Sys2Proof.Machine

/-! ### The record's layout (R49, R459, R460, R474) -/

/-- A wake condition as 128 bits (R56). -/
def Wake.bits (k : Wake) : Nat := k.kind % 128 * 2 ^ 121 + k.object % 2 ^ 57 * 2 ^ 64 + k.value % 2 ^ 64

/-- The word of R459. -/
def Wave.statusBits (w : Wave) (granted : Nat) (token : Bool) (now : Nat) : Nat :=
  let bit := fun (b : Bool) (n : Nat) => if b then 2 ^ n else 0
  let held := match w.held with
    | some h => (h.deadline - now) % 2 ^ 32 * 2 ^ 96 + h.pc.toNat * 2 ^ 64 + h.mask.toNat * 2 ^ 32
    | none => 0
  held + bit (w.stopped || w.stopPending) 12 + bit w.inHandler 11 + granted % 8 * 2 ^ 8 + bit token 4 + w.fflags.toNat

/-- The bytes of a census result slot (R49). -/
def CensusSlot.bytes (c : CensusSlot) : List Byte :=
  ((List.range 8).flatMap (fun i => bytesOfNat (c.reply.getD i 0#32).toNat 4)) ++ bytesOfNat c.count.toNat 4 ++
    bytesOfNat c.id.toNat 4 ++ bytesOfNat c.status.toNat 4 ++ List.replicate 20 0#8

/-- Whether an access of a saved wave still lands by itself: a pop whose entries have filled, an acquire whose cell a resident wave
holds, and every access that waits for no push and no completion of other work (R60). -/
def Flight.lands (s : State) (g : Workgroup) (f : Flight) : Bool := match f.op with
  | .xfence .. | .mwait _ | .arrive .. | .barWait .. => false
  | .pop q seq count _ => decide (0 < count) &&
      (List.range count).all (fun i => (sget DQueue.empty g.queues q).filledOrGone (seq + i))
  | .acquire cell _ _ _ _ phase _ _ => decide (phase ≠ 1) || (match (sget CellHome.fresh s.cells cell).place with
      | some id => (s.wave id).isSome
      | none => true)
  | .fill q _ _ _ _ _ _ _ => !(sget DQueue.empty g.queues q).held.any (fun h => decide (h.tag = f.tag))
  | _ => true

/-- The accesses of a wave that count as outstanding fills (R60). -/
def Wave.fills (s : State) (g : Workgroup) (w : Wave) : List Flight :=
  w.flights.filter (fun (f : Flight) => f.lands s g && !w.blockedBefore f.tag)

/-- The 64 B at offset 0x3C0, with the outstanding-fill count; a fault whose trap entry is parked goes where a deferred one does (R60,
R460, R463). -/
def Wave.tailBytes (w : Wave) (fills : Nat) : List Byte :=
  let ladder := match w.ladderFail with
    | some (cmd, reason) => 2 ^ 31 + reason % 256 * 2 ^ 16 + cmd % 2 ^ 16
    | none => 0
  let fault := match w.faultPending.orElse (fun _ => w.deferred) with
    | some f => bytesOfNat f.pc.toNat 4 ++ bytesOfNat f.xmask.toNat 4 ++ bytesOfNat f.fmask.toNat 4 ++
        bytesOfNat (2 ^ 31 + f.code % 256) 4 ++ bytesOfNat f.xinfo.toNat 8
    | none => List.replicate 24 0#8
  bytesOfNat (w.cmdCounter.toNat + w.batches.length % 128 * 2 ^ 16) 4 ++ bytesOfNat fills 4 ++ bytesOfNat ladder 4 ++
    List.replicate 4 0#8 ++ bytesOfNat w.xpc.toNat 4 ++ bytesOfNat w.xmask.toNat 4 ++ bytesOfNat w.fmask.toNat 4 ++
    bytesOfNat w.xcode.toNat 4 ++ bytesOfNat w.xinfo.toNat 8 ++ fault

/-- The 1,024 B of the fixed part of a wave's record (R49). -/
def Wave.recordBytes (w : Wave) (g : Workgroup) (token : Bool) (fills now : Nat) : List Byte :=
  ((List.range 128).flatMap (fun i => bytesOfNat (w.sreg i).toNat 4)) ++
    ((List.range 8).flatMap (fun i => bytesOfNat (w.kget i).toNat 4)) ++
    ((List.range 32).flatMap (fun l =>
      bytesOfNat ((w.pcOf l).toNat % 2 ^ 31 + if w.exited.getLsbD l then 2 ^ 31 else 0) 4)) ++
    bytesOfNat (match w.parked with
      | some k => k.bits
      | none => 0) 16 ++ bytesOfNat (w.statusBits g.tokensGranted token now) 16 ++
    (List.range 4).flatMap (fun i => (w.census.getD i CensusSlot.empty).bytes) ++ w.tailBytes fills

/-- Write the fixed part of a wave's record (R49, R67). -/
def State.saveFixed (s : State) (g : Workgroup) (w : Wave) (token : Bool) : State :=
  s.recordPut g.vf g.part w.record (w.recordBytes g token (w.fills s g).length (s.pclk g.part))

/-- Write a wave's record: the fixed part, its dirty register lines, and zeros for the lines marked zero; what the context area holds of
the others is as it was (R49, R61, R62, R67). -/
def State.saveRecord (s : State) (id : WaveId) (g : Workgroup) (w : Wave) (token : Bool) : State :=
  (List.range g.vregs).foldl (fun (s : State) r =>
    if w.zeros.getLsbD r then s.recordPut g.vf g.part (w.record + 0x400 + 128 * r) (List.replicate 128 0#8)
    else if ((s.core id.core).line (lineKey id r)).dirty then s.recordPut g.vf g.part (w.record + 0x400 + 128 * r) (w.lineBytes r)
    else s) (s.saveFixed g w token)

/-- A number of a record's bytes. -/
def recNat (bs : List Byte) (o n : Nat) : Nat := natOfBytes ((bs.drop o).take n)

/-- A held set as a record keeps it: T is formed again from the `rwait` at HELDPC (R459, R467). -/
def State.recordHeld (s : State) (g : Workgroup) (status : BitVec 128) : Option HeldSet :=
  let mask := BitVec.ofNat 32 (bitsN status 63 32)
  let pc := wd (bitsN status 95 64)
  if mask = 0#32 then none
  else match (s.fetchAt 768 g.vf g.part (sget 0#128 g.segs 15) pc).1 with
    | .ok x => match decode x with
      | .instr (.rwait b) => some ⟨pc, pc + b.offset, s.pclk g.part + bitsN status 127 96, mask, (b.aux.extractLsb' 0 3).toNat⟩
      | _ => none
    | .error _ => none

/-- A saved wave as its record in memory gives it. What the record does not hold, the wave keeps (log 8). -/
def State.loadRecord (s : State) (g : Workgroup) (w : Wave) : Wave :=
  let b := s.recordGet g.vf g.part w.record 0x400
  let v := s.recordGet g.vf g.part (w.record + 0x400) (128 * g.vregs)
  let wake := recNat b 0x2A0 16
  let status := BitVec.ofNat 128 (recNat b 0x2B0 16)
  let kind := wake / 2 ^ 121 % 128
  let fault := recNat b 0x3F4 4
  let lad := recNat b 0x3C8 4
  let held := w.faultPending.orElse (fun _ => w.deferred)
  let info : Option FaultInfo := if 2 ^ 31 ≤ fault then some ⟨fault % 256, match held with
      | some f => f.detail
      | none => 0, wd (recNat b 0x3E8 4), wd (recNat b 0x3EC 4), wd (recNat b 0x3F0 4), BitVec.ofNat 64 (recNat b 0x3F8 8), w.faultPending.isNone⟩
    else none
  { w with
    v := ssetList 0#32 [] 0 ((List.range (32 * g.vregs)).map (fun i => wd (recNat v (4 * i) 4)))
    s := ssetList 0#32 [] 0 ((List.range 128).map (fun i => wd (recNat b (4 * i) 4)))
    k := ssetList 0#32 [] 1 ((List.range 7).map (fun i => wd (recNat b (0x204 + 4 * i) 4)))
    pcs := ssetList 0#32 [] 0 ((List.range 32).map (fun l => wd (recNat b (0x220 + 4 * l) 4 % 2 ^ 31)))
    exited := maskOf (lanes.filter (fun l => decide (2 ^ 31 ≤ recNat b (0x220 + 4 * l) 4)))
    parked := if kind = 0 then none else some ⟨kind, wake / 2 ^ 64 % 2 ^ 57, wake % 2 ^ 64⟩
    fflags := BitVec.ofNat 4 (bitsN status 3 0)
    held := s.recordHeld g status
    inHandler := status.getLsbD 11
    stopped := status.getLsbD 12
    stopPending := false
    cmdCounter := BitVec.ofNat 16 (recNat b 0x3C0 2)
    ladderFail := if 2 ^ 31 ≤ lad then some (lad % 2 ^ 16, lad / 2 ^ 16 % 256) else none
    xpc := wd (recNat b 0x3D0 4)
    xmask := wd (recNat b 0x3D4 4)
    fmask := wd (recNat b 0x3D8 4)
    xcode := wd (recNat b 0x3DC 4)
    xinfo := BitVec.ofNat 64 (recNat b 0x3E0 8)
    faultPending := if w.faultPending.isSome then info else none
    deferred := if w.faultPending.isSome then w.deferred else info }

/-- The checks of R461 on a wave's record. -/
def State.recordOk (s : State) (g : Workgroup) (w : Wave) : Bool :=
  let b := s.recordGet g.vf g.part w.record 0x400
  let status := BitVec.ofNat 128 (recNat b 0x2B0 16)
  let exited := maskOf (lanes.filter (fun l => decide (2 ^ 31 ≤ recNat b (0x220 + 4 * l) 4)))
  decide (recNat b 0x2A0 16 / 2 ^ 121 % 128 ≤ 0x0E) &&
    decide (bitsN status 31 13 = 0) && decide (bitsN status 7 5 = 0) && decide (recNat b 0x3C0 4 / 2 ^ 23 = 0) &&
    decide (recNat b 0x3CC 4 = 0) && decide (recNat b 0x3F4 4 / 2 ^ 8 % 2 ^ 23 = 0) &&
    decide (recNat b 0x3C8 4 / 2 ^ 24 % 2 ^ 7 = 0) &&
    decide (BitVec.ofNat 32 (bitsN status 63 32) &&& exited = 0#32) && decide (bitsN status 10 8 ≤ g.tokensDeclared) &&
    decide (recNat b 0x3C0 4 / 2 ^ 16 % 128 ≤ 64)

/-! ### Room on a core (R35, R36, R80) -/

/-- The free wave slots of a scheduler, ascending. -/
def Core.freeSlots (c : Core) (sched : Nat) : List Nat :=
  (List.range 32).filter (fun n => (sget none c.waves (sched * 64 + n)).isNone)

/-- The scheduler with the most free slots, the lowest number on ties (R35). -/
def Core.firstSched (c : Core) : Nat :=
  (List.range 4).foldl (fun best n => if (c.freeSlots best).length < (c.freeSlots n).length then n else best) 0

/-- The places of `n` waves, where the schedulers have room (R35). -/
def Core.slotsFor (core : Nat) (c : Core) (n : Nat) : Option (List WaveId) :=
  let f := c.firstSched
  let ids := (List.range n).filterMap (fun i =>
    let sched := (f + i) % 4
    ((c.freeSlots sched).drop (i / 4)).head?.map (fun slot => (⟨core, sched, slot⟩ : WaveId)))
  if ids.length = n then some ids else none

/-- The lowest place of an allocation in a space, on a 512 B boundary (R80). Log 27. -/
def Core.findAlloc (c : Core) (x : Space) (len : Nat) : Option Alloc :=
  if len = 0 then some ⟨0, 0⟩
  else
    let n := (len + 511) / 512 * 512
    let used := (c.wgs.filterMap (fun e => e.2.map (fun g => g.alloc x))).filter (fun a => decide (a.len ≠ 0))
    let starts := 0 :: used.map (fun a => a.start + a.len)
    let fits := starts.filter (fun p => decide (p + n ≤ spaceSize x) && !used.any (fun a => overlap p n a.start a.len))
    match fits with
    | [] => none
    | p :: ps => some ⟨ps.foldl min p, n⟩

/-- What a workgroup needs of a core (R36). Lines of the register-file cache it always finds: the 128 that each of eight active waves
may need are the 1,024 of a scheduler (R50), and the rest stand in the context area. -/
structure Need where
  waves : Nat
  sp : Nat
  wb : Nat
  ab : Nat
  cb : Nat
  tokens : Nat
  bars : Nat
  deriving DecidableEq, Repr

/-- The barrier slots of a core: 16 for each of its waves, so that the declared ones always suffice; R36 gives no count (DESIGN CHOICE,
log 27). -/
def coreBars : Nat := 2048

/-- A workgroup's place on a core: its number there, its waves' slots and its allocations. -/
structure Room where
  wg : Nat
  ids : List WaveId
  sp : Alloc
  wb : Alloc
  ab : Alloc
  cb : Alloc
  deriving DecidableEq, Repr

/-- Room for a workgroup on a core, if every resource of R36 suffices. -/
def Core.room (core : Nat) (c : Core) (n : Need) : Option Room :=
  let declared := c.wgs.foldl (fun a e => match e.2 with
    | some g => a + g.tokensDeclared
    | none => a) 0
  let bars := c.wgs.foldl (fun a e => match e.2 with
    | some g => a + g.bars
    | none => a) 0
  if 4 < declared + n.tokens ∨ coreBars < bars + n.bars then none
  else match c.slotsFor core n.waves, (List.range 128).find? (fun i => (sget none c.wgs i).isNone) with
    | some ids, some i => match c.findAlloc .sp n.sp, c.findAlloc .wb n.wb, c.findAlloc .ab n.ab, c.findAlloc .cb n.cb with
      | some sp, some wb, some ab, some cb => some ⟨i, ids, sp, wb, ab, cb⟩
      | _, _, _, _ => none
    | _, _ => none

/-- What a workgroup needs again when it is restored. -/
def Workgroup.need (g : Workgroup) : Need := ⟨g.waves, g.sp.len, g.wb.len, g.ab.len, g.cb.len, g.tokensDeclared, g.bars⟩

/-! ### The context record pool (R390) -/

/-- The records of a function's queue in use by resident and saved workgroups. -/
def State.usedRecords (s : State) (vf part queue : Nat) : List Nat :=
  let p := s.part part
  let mine := fun (g : Workgroup) => if g.vf = vf ∧ g.queue = queue then g.records else []
  p.cores.flatMap (fun n => (s.core n).wgs.flatMap (fun e => match e.2 with
    | some g => mine g
    | none => [])) ++ p.saved.flatMap (fun x => mine x.wg)

/-- The lowest `n` free records of a queue's pool, where it has them. -/
def State.freeRecords (s : State) (vf part queue n : Nat) : Option (List Nat) :=
  let h := (s.qcb vf queue).hyp
  let count := if bitsN h 559 544 = 0 then 65536 else bitsN h 559 544
  let used := s.usedRecords vf part queue
  let at' := fun (i : Nat) => bitsN h 639 576 + i * bitsN h 575 560 * 4096
  let free := (List.range (min count (used.length + n))).filter (fun i => !used.contains (at' i))
  if free.length < n then none else some ((free.take n).map at')

end Sys2Proof.Machine
end

