-- ==== Sys2Proof/Machine/Assume.lean ====
section
/-!
DEFINITION. Assumption objects and regions: the `asm` instructions and the registry's operations (spec 12 R318 to R326, R334
to R342, R344).
-/

namespace Sys2Proof.Machine

/-! ### Objects and regions -/

/-- An object slot of a partition's registry. -/
def Part.object (p : Part) (h : Nat) : AsmObject := sget AsmObject.empty p.objects h

/-- A region slot of a partition's registry. -/
def Part.region (p : Part) (n : Nat) : Region := sget Region.empty p.regions n

/-- An object slot changed. -/
def State.updObject (s : State) (part h : Nat) (f : AsmObject → AsmObject) : State :=
  s.updPart part (fun p => { p with objects := sset AsmObject.empty p.objects h (f (p.object h)) })

/-- A region slot changed. -/
def State.updRegion (s : State) (part n : Nat) (f : Region → Region) : State :=
  s.updPart part (fun p => { p with regions := sset Region.empty p.regions n (f (p.region n)) })

/-- A result word: STATUS in bits 31:28, VALUE in bits 27:0 (R336). -/
def asmResult (status value : Nat) : Word := wd (status * 2 ^ 28 + value % 2 ^ 28)

/-- The ASSUMPTION of a handle or a region (R344, R444). -/
def asmRaise (region : Bool) (n : Nat) : Raise := ⟨0x13, 0, n % 2048 + if region then 2048 else 0⟩

/-- The regions that are not FREE and name an object (R340). -/
def Part.regionsOf (p : Part) (h : Nat) : List (Nat × Region) :=
  p.regions.filter (fun e => decide (e.2.state ≠ .free) && e.2.handles.contains h)

/-- The kind of a header's KIND (R319). -/
def objKind (k : Nat) : Option ObjKind := match k with
  | 1 => some .ro
  | 2 => some .disj
  | 3 => some .fix
  | 4 => some .eq
  | _ => none

/-- A slot dword of an object, 1 to 15, as a number. -/
def AsmObject.slot (o : AsmObject) (k : Nat) : Nat := (o.dwords.getD (k - 1) 0#64).toNat

/-- The virtual addresses of the words an object watches (R320). -/
def AsmObject.words (o : AsmObject) : List Nat := match o.kind with
  | .ro => []
  | .eq => [o.slot 1]
  | _ => (List.range o.count).map (fun i => o.slot (i + 1))

/-- Whether a descriptor is valid: its header, and the slots of its kind (R319, R320). -/
def AsmObject.valid (o : AsmObject) (header : Dword) : Bool :=
  let addr := fun (k m : Nat) => decide (o.slot k < 2 ^ 60) && decide (o.slot k % m = 0)
  let zero := fun (ks : List Nat) => ks.all (fun k => decide (o.slot k = 0))
  let from' := fun (k : Nat) => (List.range (16 - k)).map (fun i => k + i)
  let firsts := (List.range o.count).map (fun i => i + 1)
  decide (bitsN header 55 0 = 0) && (match o.kind with
    | .ro => decide (o.count = 0) && addr 1 64 && decide (o.slot 2 % 64 = 0) && decide (64 ≤ o.slot 2) &&
        decide (o.slot 2 ≤ 2 ^ 40) && zero (from' 3)
    | .disj => decide (2 ≤ o.count) && decide (o.count ≤ 4) && firsts.all (fun k => addr k 8 &&
        decide (1 ≤ o.slot (k + 4)) && decide (o.slot (k + 4) ≤ 2 ^ 40)) &&
        zero ((from' 1).filter (fun k => !firsts.contains k && !(firsts.map (fun i => i + 4)).contains k))
    | .fix => decide (1 ≤ o.count) && decide (o.count ≤ 8) && firsts.all (fun k => addr k 8) && zero (from' (o.count + 1))
    | .eq => decide (o.count = 0) && addr 1 8 && zero (from' 3))

/-- Whether two ranges are disjoint (R320). -/
def disjoint (p a q b : Nat) : Bool := decide (p + a ≤ q) || decide (q + b ≤ p)

/-- Whether ranges are pairwise disjoint (R320). -/
def allDisjoint : List (Nat × Nat) → Bool
  | [] => true
  | x :: xs => xs.all (fun y => disjoint x.1 x.2 y.1 y.2) && allDisjoint xs

/-- Whether an object's fact holds for the values of its watched words (R320, R338). -/
def AsmObject.holds (o : AsmObject) (values : List Nat) : Bool := match o.kind with
  | .ro => true
  | .disj => allDisjoint ((List.range o.count).map (fun i => (values.getD i 0, o.slot (i + 5))))
  | .fix => (List.range o.count).all (fun i => decide (values.getD i 0 = (o.values.getD i 0#64).toNat))
  | .eq => decide (values.getD 0 0 = o.slot 2)

/-! ### Watching (R321, R323, R338) -/

/-- Why an object cannot be armed at an address: the fault of its translation, or a page that no slice watches, with the slot
dword that names it (R338, R457). -/
inductive WatchFail where
  /-- The address does not translate: the word raises (safe). -/
  | fault (r : Raise)
  /-- Host memory, another package or MTYPE ≠ 00: status NOWATCH (safe). -/
  | noWatch (slot : Nat)
  deriving DecidableEq, Repr

/-- Whether a page can be watched: local memory with MTYPE 00; host memory with MTYPE 00 does not translate (R399, R457). -/
def State.watchable (s : State) (t : TlbEntry) : Bool :=
  let pkg := paPkg t.pa
  (s.isLocal t.pa && decide (pteMtype t.leaf = 0)) || (decide (0x90 ≤ pkg) && decide (pkg ≤ 0xFE)) ||
    (decide (pkg = 0xFF) && decide (pteMtype t.leaf = 0))

/-- The physical address of the watched word that slot dword `slot` of a function's object names, or why it has none. -/
def State.watchPa (s : State) (vf part slot va : Nat) : Except WatchFail Nat :=
  match s.walk vf va with
  | .page t =>
    if !s.watchable t then .error (.noWatch slot)
    else match s.engineTranslate vf part va .load with
      | .ok pa _ => .ok (s.canon pa)
      | .bad c d => .error (.fault ⟨c, d, va⟩)
      | _ => .error (.fault ⟨0x0D, 4, va⟩)
  | .bad c d => .error (.fault ⟨c, d, va⟩)
  | _ => .error (.fault ⟨0x0D, 4, va⟩)

/-- The physical addresses of words that the slot dwords from `slot` on name, or why the first that has none has none. -/
def State.watchPas (s : State) (vf part slot : Nat) : List Nat → Except WatchFail (List Nat)
  | [] => .ok []
  | va :: rest => match s.watchPa vf part slot va with
    | .error r => .error r
    | .ok pa => match s.watchPas vf part (slot + 1) rest with
      | .error r => .error r
      | .ok ps => .ok (pa :: ps)

/-- The first byte and the length of the leaves that map a virtual address: the whole group of a contiguous page (R103). -/
def State.leafPlace (s : State) (vf va : Nat) : Option (Nat × Nat) :=
  let rec go (table : Nat) : List Nat → Option (Nat × Nat)
    | [] => none
    | level :: rest =>
      let i := va / 2 ^ (12 * (level + 1)) % 4096
      match s.readPte (table + 8 * i) with
      | none => none
      | some e =>
        let n := if pteContig e = 0 then 1 else if pteContig e = 1 then 16 else 256
        if pteLeaf e || decide (level = 0) then some (s.canon (table + 8 * (i - i % n)), 8 * n)
        else if pteV e then go (ptePa e) rest else none
  go (s.rootOf vf) [3, 2, 1, 0]

/-- The runs of physically contiguous pages of a range, and the places of its leaves, or the first fault; an unmapped GROW
page has leaves only (R321, R323). -/
def State.roRuns (s : State) (vf part stop : Nat) : Nat → Nat → Except WatchFail (List (Nat × Nat) × List (Nat × Nat))
  | 0, _ => .ok ([], [])
  | fuel + 1, va =>
    if stop ≤ va then .ok ([], [])
    else
      let leaves := fun (rest : List (Nat × Nat)) => match s.leafPlace vf va with
        | some l => if rest.contains l then rest else l :: rest
        | none => rest
      match s.walk vf va with
      | .bad c d => .error (.fault ⟨c, d, va⟩)
      | .grow _ => match s.roRuns vf part stop fuel (va / 65536 * 65536 + 65536) with
        | .error r => .error r
        | .ok (runs, ls) => .ok (runs, leaves ls)
      | .page t =>
        let pa := s.canon (t.pa + (va - t.va))
        let n := min stop (t.va + t.bytes) - va
        match s.watchPa vf part 1 va with
        | .error r => .error r
        | .ok _ => match s.roRuns vf part stop fuel (t.va + t.bytes) with
          | .error r => .error r
          | .ok ((b, m) :: runs, ls) => .ok (if pa + n = b then ((pa, n + m) :: runs, leaves ls) else ((pa, n) :: (b, m) :: runs, leaves ls))
          | .ok ([], ls) => .ok ([(pa, n)], leaves ls)

/-- What an object's watch entries would be: words' addresses, runs and leaves; or why there are none. -/
def State.watchPlan (s : State) (part : Nat) (o : AsmObject) : Except WatchFail (List Nat × List (Nat × Nat) × List (Nat × Nat)) :=
  match o.kind with
  | .ro => match s.roRuns o.vf part (o.slot 1 + o.slot 2) (o.slot 2 / 4096 + 2) (o.slot 1) with
    | .error r => .error r
    | .ok (runs, ls) => .ok ([], runs, ls)
  | _ => match s.watchPas o.vf part 1 o.words with
    | .error r => .error r
    | .ok ps => .ok (ps, [], [])

/-- Whether a partition has entries for more words and runs (R321). A watched leaf takes no entry of its own (log 25). -/
def State.watchRoom (s : State) (part : Nat) (ps : List Nat) (runs : List (Nat × Nat)) : Bool :=
  let p := s.part part
  let mine := s.watches.filter (fun w => decide (w.part = part))
  let slice := fun (a : Nat) => p.homeSlice a
  decide ((mine.filter (fun w => w.range && decide (w.index = 0))).length + runs.length ≤ 256) &&
    ps.all (fun a => decide ((mine.filter (fun w => !w.range && decide (slice w.start = slice a))).length +
      (ps.filter (fun b => decide (slice b = slice a))).length ≤ 512))

/-- The watch entries of an object: words by their index; runs have index 0, leaves index 1. -/
def watchEntries (part h : Nat) (ps : List Nat) (runs leaves : List (Nat × Nat)) : List Watch :=
  ((List.range ps.length).zip ps).map (fun p => (⟨part, h, p.1, p.2, 8, false⟩ : Watch)) ++
    runs.map (fun r => (⟨part, h, 0, r.1, r.2, true⟩ : Watch)) ++ leaves.map (fun r => (⟨part, h, 1, r.1, r.2, true⟩ : Watch))

/-- Every watch entry of an object is removed. -/
def State.unwatch (s : State) (part h : Nat) : State :=
  { s with watches := s.watches.filter (fun w => !(decide (w.part = part) && decide (w.object = h))) }

/-! ### The registry's operations (R337 to R340, R342) -/

/-- `asm.new` performed: the descriptor is read and checked, and the lowest FREE slot takes it (R337). -/
def State.asmNew (s : State) (core part vf ctx : Nat) (mask : BitVec 8) (va pa : Nat) : Except Raise (Word × State) :=
  if s.poisoned pa || s.poisoned (pa + 64) then .error ⟨0x10, 2, va⟩
  else
    let bs := s.readBytes core part false mask pa 128
    let dws := (List.range 16).map (fun i => BitVec.ofNat 64 (natOfBytes ((bs.drop (8 * i)).take 8)))
    let hd := dws.headD 0#64
    match objKind (bitsN hd 63 60) with
    | none => .error (asmRaise false 0)
    | some k =>
      let o : AsmObject := ⟨.disarmed, ctx, vf, k, bitsN hd 59 56, dws.drop 1, [], [], false⟩
      if !o.valid hd then .error (asmRaise false 0)
      else match (List.range 512).find? (fun h =>
            decide (((s.part part).object h).state = .free) && !((s.part part).object h).inFlight) with
        | none => .ok (asmResult 1 0, s)
        | some h => .ok (asmResult 0 h, s.updObject part h (fun _ => o))

/-- Whether a handle may be named by a context: not FREE, and its own. -/
def Part.owns (p : Part) (ctx h : Nat) : Bool :=
  decide ((p.object h).state ≠ .free) && decide ((p.object h).owner = ctx)

/-- `asm.arm` performed: translate, install, read, evaluate (R338). -/
def State.asmArm (s : State) (part ctx h : Nat) : Except Raise (Word × State) :=
  let o := (s.part part).object h
  if !(s.part part).owns ctx h then .error (asmRaise false h)
  else if o.state = .armed then .ok (asmResult 0 0, s)
  else if o.inFlight then .ok (asmResult 4 0, s)
  else match s.watchPlan part o with
    | .error (.fault r) => .error r
    | .error (.noWatch n) => .ok (asmResult 2 n, s)
    | .ok (ps, runs, leaves) =>
      if !s.watchRoom part ps runs then .ok (asmResult 2 0, s)
      else
        let values := ps.map (fun a => s.homeNat a 8)
        let o := { o with
          state := .armed
          pas := ps
          values := values.map (fun x => BitVec.ofNat 64 x) }
        if !o.holds values then .ok (asmResult 3 0, s)
        else
          let s := s.updObject part h (fun _ => o)
          .ok (asmResult 0 0, { s with watches := s.watches ++ watchEntries part h ps runs leaves })

/-- The handles of a region descriptor that are valid (R324). -/
def depHandles (d : BitVec 256) : List Nat :=
  ([96, 112, 128, 144].filter (fun i => d.getLsbD (i + 15))).map (fun i => bitsN d (i + 8) i)

/-- Whether a region descriptor is valid (R324, R344). -/
def depValid (d : BitVec 256) : Bool :=
  let start := bitsN d 255 224
  let stop := bitsN d 223 192
  let fall := bitsN d 191 160
  decide (bitsN d 95 0 = 0) && decide (start < stop) && !(decide (start ≤ fall) && decide (fall < stop)) && d.getLsbD 111 &&
    [96, 112, 128, 144].all (fun i => decide (bitsN d (i + 14) (i + 9) = 0))

/-- `asm.dep` performed: the region of a descriptor is registered if every handle is ARMED (R339). -/
def State.asmDep (s : State) (core part ctx : Nat) (mask : BitVec 8) (va pa base : Nat) : Except Raise (Word × State) :=
  let p := s.part part
  let d := BitVec.ofNat 256 (natOfBytes (s.readBytes core part false mask pa 32))
  let hs := depHandles d
  if s.poisoned pa then .error ⟨0x10, 2, va⟩
  else if !depValid d then .error (asmRaise false 0)
  else match hs.find? (fun h => !p.owns ctx h) with
    | some h => .error (asmRaise false h)
    | none =>
      let same := (List.range 2048).find? (fun n =>
        let r := p.region n
        decide (r.state ≠ .free) && decide (r.owner = ctx) && decide (r.descVa = va))
      let slot := match same with
        | some n => some n
        | none => (List.range 2048).find? (fun n => decide ((p.region n).state = RegionState.free))
      match slot with
      | none => .ok (asmResult 1 0, s)
      | some n =>
        if hs.any (fun h => decide ((p.object h).state ≠ ObjState.armed)) then .ok (asmResult 3 0, s)
        else .ok (asmResult 0 n, s.updRegion part n (fun r => { r with
            state := .active
            gen := r.gen + 1#32
            owner := ctx
            base := base
            descVa := va
            start := wd (bitsN d 255 224)
            stop := wd (bitsN d 223 192)
            fallback := wd (bitsN d 191 160)
            handles := hs
            breaking := 0 }))

/-- `asm.test` performed (R340). -/
def State.asmTest (s : State) (part ctx : Nat) (region : Bool) (n : Nat) : Except Raise (Word × State) :=
  let p := s.part part
  if region then
    let r := p.region n
    if 2047 < n ∨ (r.state ≠ .free ∧ r.owner ≠ ctx) then .error (asmRaise true n)
    else
      let st := match r.state with
        | .free => 0
        | .active => 1
        | .revoked => 2
      .ok (asmResult 0 (st + r.breaking * 2 ^ 12), s)
  else
    let o := p.object n
    if o.state ≠ .free ∧ o.owner ≠ ctx then .error (asmRaise false n)
    else
      let st := match o.state with
        | .free => 0
        | .disarmed => 1
        | .armed => 2
        | .broken => 3
      .ok (asmResult 0 (st + (if o.inFlight then 8 else 0) + (p.regionsOf n).length * 2 ^ 12), s)

/-- `asm.drop` performed (R340). -/
def State.asmDrop (s : State) (part ctx : Nat) (region : Bool) (n : Nat) : Except Raise (Word × State) :=
  let p := s.part part
  if region then
    let r := p.region n
    if 2047 < n ∨ (r.state ≠ .free ∧ r.owner ≠ ctx) then .error (asmRaise true n)
    else .ok (asmResult 0 0, s.updRegion part n (fun r => { Region.empty with gen := r.gen + 1#32 }))
  else if !p.owns ctx n then .error (asmRaise false n)
  else if p.regionsOf n ≠ [] then .ok (asmResult 5 0, s)
  else if (p.object n).inFlight then .ok (asmResult 4 0, s)
  else .ok (asmResult 0 0, (s.unwatch part n).updObject part n (fun _ => AsmObject.empty))

/-- A registry operation of a wave in its place in the registry's order, after the wave's earlier vector-path accesses
(R342). -/
def State.evRegistry (s : State) (id : WaveId) (tag : Nat) : State :=
  match s.wave id with
  | none => s
  | some w => match w.flight tag, s.wg id.core w.wg with
    | some f, some g => match f.op with
      | .registry op reg =>
        let s := if w.blockedBefore tag then s else s.performAll id (some tag)
        let waits := match s.wave id with
          | some w => (w.flights.takeWhile (fun (e : Flight) => decide (e.tag ≠ tag))).any (fun (e : Flight) => e.op.unperformed)
          | none => true
        if waits then s
        else
          let r := match op with
            | .newObject va pa => s.asmNew id.core g.part g.vf g.ctx f.applied va pa
            | .arm h => s.asmArm g.part g.ctx h
            | .depend va pa base => s.asmDep id.core g.part g.ctx f.applied va pa base
            | .test region n => s.asmTest g.part g.ctx region n
            | .drop region n => s.asmDrop g.part g.ctx region n
          match r with
          | .ok (x, s) => s.finishWith id tag [⟨reg, 0, x⟩]
          | .error e => (s.deferFault id f e.code e.detail f.fmask e.xinfo).finish id tag
      | _ => s
    | _, _ => s

/-- REGISTRY_OPERATION (R342). -/
def execRegistryOperation (w : WaveId) (tag : Nat) (s : State) : Host.Outcome State Fault Refusal := .next (s.evRegistry w tag)

/-! ### The instructions (R335) -/

/-- A registry word with no effective lane writes nothing; else it starts its operation. -/
def Ctx.registryOp (c : Ctx) (s : State) (w : RWord) (op : AsmOp) : Res :=
  .done (s.launch c (.registry op w.d.toNat) [w.d.toNat])

/-- The descriptor operand of `asm.new` and `asm.dep`: checked and translated at issue (R337, R339, R344). -/
def Ctx.asmDesc (c : Ctx) (s : State) (w : RWord) (size : Nat) (op : Nat → Nat → AsmOp) : Res :=
  c.onPath 0 s (fun s =>
    if c.eff = 0#32 then .done (s.launch c (.result []) [w.d.toNat])
    else
      let off := sInt 64 (pair64 (c.sreg w.a 0) (c.sreg w.a 1))
      let g := sget 0#128 c.wave.segs (w.minor % 16)
      (s.access c false true .load [(lowLane c.eff, segCheck g off size size .load)]).then (fun accs s => match accs with
        | [] => .done s
        | (a, _) :: _ =>
          if s.poisoned a.pa || (decide (64 < size) && s.poisoned (a.pa + 64)) then .raise ⟨0x10, 2, a.va⟩ c.eff s
          else c.registryOp s w (op a.va a.pa)))

/-- A registry word on a handle or region number; a handle above 511 is found at issue (R344). -/
def Ctx.asmNamed (c : Ctx) (s : State) (w : RWord) (region : Bool) (op : Nat → AsmOp) : Res :=
  c.onPath 0 s (fun s =>
    let n := (c.uni w.a).toNat
    if c.eff = 0#32 then .done (s.launch c (.result []) [w.d.toNat])
    else if region = false ∧ 511 < n then .raise (asmRaise false n) c.eff s
    else c.registryOp s w (op n))

/-- `asm.new` (R337). -/
def execAsmNew (w : RWord) (s : State) := issueWord (.asmNew w) s (fun c s =>
  c.asmDesc s w 128 (fun va pa => .newObject va pa))

/-- `asm.arm` (R338): a watched address that does not translate is found at issue. -/
def execAsmArm (w : RWord) (s : State) := issueWord (.asmArm w) s (fun c s =>
  let h := (c.uni w.a).toNat
  let p := s.part c.wg.part
  let o := p.object h
  if c.eff ≠ 0#32 ∧ h ≤ 511 ∧ p.owns c.ctx h = true ∧ o.state ≠ .armed ∧ o.inFlight = false then
    match s.watchPlan c.wg.part o with
    | .error (.fault r) => .raise r c.eff s
    | _ => c.asmNamed s w false (fun n => .arm n)
  else c.asmNamed s w false (fun n => .arm n))

/-- `asm.dep` (R339). -/
def execAsmDep (w : RWord) (s : State) := issueWord (.asmDep w) s (fun c s =>
  if c.eff ≠ 0#32 ∧ c.wg.privBytes < 32 then .raise (asmRaise false 0) c.eff s
  else c.asmDesc s w 32 (fun va pa => .depend va pa (segBase (sget 0#128 c.wave.segs 15))))

/-- `asm.test.obj` (R340). -/
def execAsmTestObj (w : RWord) (s : State) := issueWord (.asmTestObj w) s (fun c s => c.asmNamed s w false (fun n => .test false n))
/-- `asm.test.reg` (R340). -/
def execAsmTestReg (w : RWord) (s : State) := issueWord (.asmTestReg w) s (fun c s => c.asmNamed s w true (fun n => .test true n))
/-- `asm.drop.obj` (R340). -/
def execAsmDropObj (w : RWord) (s : State) := issueWord (.asmDropObj w) s (fun c s => c.asmNamed s w false (fun n => .drop false n))
/-- `asm.drop.reg` (R340). -/
def execAsmDropReg (w : RWord) (s : State) := issueWord (.asmDropReg w) s (fun c s => c.asmNamed s w true (fun n => .drop true n))

/-- `asm.info`: minor 0 `.pc`, 1 `.rec`, 2 `.clr` (R341). A private size below 32 B raises SPACE_BOUND. -/
def Ctx.asmInfo (c : Ctx) (s : State) (w : RWord) (minor : Nat) : Res :=
  c.onPath 0 s (fun s =>
    let regs := if minor = 2 then [] else [w.d.toNat]
    if c.eff = 0#32 then .done (if minor = 2 then s else s.launch c (.result []) regs)
    else if c.wg.privBytes < 32 then .raise ⟨0x0B, 0, 20 + 4 * 2 ^ 60⟩ c.eff s
    else if c.wave.blocked then s.wait
    else
      let offs := if minor = 0 then [20, 16] else [20]
      let at' := c.lanes.flatMap (fun l => offs.map (fun o =>
        (l, (Except.ok (privAddr c.wave.record c.wg.vregs o l) : Except Raise Nat))))
      (s.access c true false (if minor = 2 then .store else .load) at').then (fun accs s =>
        let accs := plainAccs accs
        if minor = 2 then .done ((s.performAll c.id none).writeLocal c.id none
          (accs.flatMap (fun a => byteList (s.canon a.pa) (List.replicate 4 0#8))))
        else
          let s := s.performAll c.id none
          let s := s.fillPriv c.core c.wave.record ((accs.filter (fun a => decide (a.pa ≠ growPa))).map (fun a => a.pa))
          let word := fun (a : LaneAcc) => if a.pa = growPa then 0#32
            else wd (natOfBytes ((List.range 4).map (fun i => s.privByte c.core (a.pa + i))))
          let ws := c.lanes.map (fun l =>
            let mine := (accs.filter (fun a => decide (a.lane = l))).map word
            let r := mine.getD 0 0#32
            (⟨w.d.toNat, l, if minor = 1 then r else if r.getLsbD 31 then mine.getD 1 0#32 else 0xFFFFFFFF#32⟩ : RegWrite))
          .done (s.launch c (.result ws) regs)))

/-- `asm.info.pc` (R341). -/
def execAsmInfoPc (w : RWord) (s : State) := issueWord (.asmInfoPc w) s (fun c s => c.asmInfo s w 0)
/-- `asm.info.rec` (R341). -/
def execAsmInfoRec (w : RWord) (s : State) := issueWord (.asmInfoRec w) s (fun c s => c.asmInfo s w 1)
/-- `asm.info.clr` (R341). -/
def execAsmInfoClr (w : RWord) (s : State) := issueWord (.asmInfoClr w) s (fun c s => c.asmInfo s w 2)

end Sys2Proof.Machine
end

