-- ==== Sys2Proof/Machine/Revoke.lean ====
section
/-!
DEFINITION. Held writes and revocation: evaluation at a watch entry, REVOKE, its acknowledgement, the release and the shadow
(spec 04 R127; 12 R322, R323, R327 to R331, R343; 24 R495).
-/

namespace Sys2Proof.Machine

/-! ### Evaluating a held write (R322, R323) -/

/-- `n` bytes at their home with some bytes replaced, as a number. -/
def State.merged (s : State) (bytes : List (Nat × Byte)) (pa n : Nat) : Nat :=
  natOfBytes ((List.range n).map (fun i => match bytes.find? (fun b => decide (b.1 = pa + i)) with
    | some b => b.2
    | none => s.homeByte (pa + i)))

/-- The values of an object's watched words as they would be after a write; of a DISJ object, the registry's copies of the words
it does not write. -/
def State.newValues (s : State) (o : AsmObject) (bytes : List (Nat × Byte)) : List Nat :=
  (List.range o.pas.length).map (fun i =>
    let pa := o.pas.getD i 0
    if bytes.any (fun b => decide (pa ≤ b.1) && decide (b.1 < pa + 8)) then s.merged bytes pa 8
    else (o.values.getD i 0#64).toNat)

/-- Whether a write changes a translation leaf among some bytes, but for A and D (R323). -/
def State.changesLeaf (s : State) (bytes : List (Nat × Byte)) (start len : Nat) : Bool :=
  (List.range (len / 8)).any (fun i =>
    let m := fun (x : Nat) => setBits (BitVec.ofNat 64 x) 7 6 0
    decide (m (s.merged bytes (start + 8 * i) 8) ≠ m (s.homeNat (start + 8 * i) 8)))

/-- Whether a write breaks an ARMED object (R322, R323). -/
def State.breaks (s : State) (h : HeldWrite) (part n : Nat) : Bool :=
  let o := (s.part part).object n
  let ws := s.watches.filter (fun w => decide (w.part = part) && decide (w.object = n) && w.hits h.bytes)
  decide (o.state = ObjState.armed) && decide (ws ≠ []) && (match o.kind with
    | .ro => ws.any (fun w => decide (w.index = 0) || s.changesLeaf h.bytes w.start w.len)
    | _ => !o.holds (s.newValues o h.bytes))

/-- A held write by its number. -/
def State.heldWrite (s : State) (num : Nat) : Option HeldWrite := s.heldWrites.find? (fun h => decide (h.num = num))

/-- Whether a held write waits behind an earlier one of one of its words (R127), or behind the evaluation of an earlier write
to one of its objects (R322). -/
def State.heldBehind (s : State) (h : HeldWrite) : Bool :=
  (s.heldWrites.takeWhile (fun e => decide (e.num ≠ h.num))).any (fun e =>
    (wordsOf e.bytes).any (fun w => (wordsOf h.bytes).contains w) ||
    (e.revoke.isNone && (s.watchHits e.bytes).any (fun x => (s.watchHits h.bytes).contains x)))

/-- The objects whose watch entries a held write hits as they stand now, ascending. -/
def State.heldObjects (s : State) (h : HeldWrite) : List (Nat × Nat) :=
  let hits := s.watchHits h.bytes
  (List.range 512).flatMap (fun n => (hits.filter (fun x => decide (x.2 = n))).take 1)

/-- The objects a held write breaks. -/
def State.broken (s : State) (h : HeldWrite) : List (Nat × Nat) := (s.heldObjects h).filter (fun x => s.breaks h x.1 x.2)

/-- Whether a held write hits an object whose revocation is in flight (R327). -/
def State.heldInFlight (s : State) (h : HeldWrite) : Bool := (s.heldObjects h).any (fun x => ((s.part x.1).object x.2).inFlight)

/-! ### Releasing (R127, R328) -/

/-- What a released write frees: its writer's core takes the acknowledgement, and what waited for it is tried again. -/
def State.afterRelease (s : State) (h : HeldWrite) : State :=
  match h.party with
  | .engine => s
  | .core n => ((wordsOf h.bytes).foldl (fun s w => s.ackWord n w) s).retryFences n

/-- A held write leaves the slice: it registers, unless its writer was killed (R127, R495). -/
def State.releaseHeld (s : State) (h : HeldWrite) : State :=
  let s := { s with heldWrites := s.heldWrites.filter (fun e => decide (e.num ≠ h.num)) }
  (if h.discard then s else s.commitHeld h).afterRelease h

/-- A held write that breaks nothing is released; the registry's copies of its DISJ pointers follow (R322). -/
def State.evHeldRelease (s : State) (num : Nat) : State :=
  match s.heldWrite num with
  | none => s
  | some h =>
    if h.revoke.isSome || s.heldBehind h || s.heldInFlight h || decide (s.broken h ≠ []) then s
    else
      let s := if h.discard then s else (s.heldObjects h).foldl (fun s x =>
        let o := (s.part x.1).object x.2
        if o.kind = ObjKind.disj then
          s.updObject x.1 x.2 (fun o => { o with values := (s.newValues o h.bytes).map (fun v => BitVec.ofNat 64 v) })
        else s) s
      s.releaseHeld h

/-- HELD_WRITE_SLICE_RELEASE (R322, R127). -/
def execHeldWriteSliceRelease (held : Nat) (s : State) : Host.Outcome State Fault Refusal := .next (s.evHeldRelease held)

/-! ### The steps of a revocation (R327) -/

/-- Step 2: the objects are BROKEN, the ACTIVE regions that name one REVOKED, in a revocation slot. -/
def State.startRevocation (s : State) (part slot : Nat) (h : HeldWrite) (objs : List Nat) : State :=
  let p := s.part part
  let regions := (p.regions.filter (fun e => decide (e.2.state = RegionState.active) &&
    e.2.handles.any (fun n => objs.contains n))).map (fun e => e.1)
  let s := objs.foldl (fun (s : State) n => s.updObject part n (fun o => { o with
    state := .broken
    inFlight := true })) s
  let s := regions.foldl (fun (s : State) n => s.updRegion part n (fun r => { r with
    state := .revoked
    gen := r.gen + 1#32
    breaking := (objs.filter (fun x => r.handles.contains x)).headD 0 })) s
  let s := s.updPart part (fun p => { p with
    revs := sset Revocation.empty p.revs slot ⟨true, h.num, objs, regions, [], false, false, s.clk⟩
    revWaiting := p.revWaiting.filter (fun n => decide (n ≠ h.num)) })
  { s with heldWrites := s.heldWrites.map (fun e => if e.num = h.num then { e with revoke := some slot, reported := true } else e) }

/-- The report of a breaking write at the registry: a revocation starts in the lowest free slot, or waits for one (R327). -/
def State.evWatchReport (s : State) (num : Nat) : State :=
  match s.heldWrite num with
  | none => s
  | some h =>
    if h.revoke.isSome || s.heldBehind h || s.heldInFlight h then s
    else match s.broken h with
      | [] => s
      | (part, n) :: rest =>
        let objs := n :: (rest.filter (fun x => decide (x.1 = part))).map (fun x => x.2)
        let p := s.part part
        let turn := match p.revWaiting with
          | [] => true
          | x :: _ => decide (x = num)
        match turn, (List.range 8).find? (fun r => !(sget Revocation.empty p.revs r).busy) with
        | true, some r => s.startRevocation part r h objs
        | _, _ => if p.revWaiting.contains num then s
          else s.updPart part (fun p => { p with revWaiting := p.revWaiting ++ [num] })

/-- WATCH_REPORT_AT_REGISTRY (R322, R327 steps 1 and 2). -/
def execWatchReportAtRegistry (held : Nat) (s : State) : Host.Outcome State Fault Refusal := .next (s.evWatchReport held)

/-- The unexited lanes of a wave whose PC lies in one of some regions that match it (R324). -/
def Part.lanesIn (p : Part) (regions : List Nat) (ctx : Nat) (w : Wave) : List Nat :=
  let base := segBase (sget 0#128 w.segs 15)
  (lanes.filter (fun l => !w.exited.getLsbD l)).filter (fun l => regions.any (fun n =>
    let r := p.region n
    let pc := (w.pcOf l).toNat
    decide (r.owner = ctx) && decide (r.base = base) && decide (r.start.toNat ≤ pc) && decide (pc < r.stop.toNat)))

/-- Step 4 at one wave: one that is not issuing is diverted at once where R331 says so; any other is marked, and diverted at its next
diversion point (R48, R330, R331). -/
def State.revokeWave (s : State) (part : Nat) (regions : List Nat) (id : WaveId) : State :=
  match s.wave id with
  | none => s
  | some w => match w.resp, s.wg id.core w.wg with
    | none, some g =>
      let ls := (s.part part).lanesIn regions g.ctx w
      if ls = [] ∨ w.inHandler = true then s
      else
        let kind := (w.parked.map (fun k => k.kind)).getD 0
        if w.stopped then s.setWave id (some { w with divert := some kind })
        else match w.parked with
          | some k =>
            if k.kind = 0x01 ∨ k.kind = 0x02 ∨ k.kind = 0x0B ∨ k.kind = 0x0D then
              let s := s.setWave id (some { w.dropWaits with
                parked := none
                readySince := s.clk
                conds := w.conds.filter (fun x => decide (x ≠ k)) })
              ((s.divertWave id 0 k.kind).settle id).rebalance id.core id.sched
            else s.setWave id (some { w with divert := some k.kind })
          | none =>
            if w.slice.isSome then (s.setWave id (some { w with slice := none })).divertWave id 0 0
            else if w.runnable = [] ∧ ls.any (fun l => w.heldMask.getLsbD l) = true then (s.setWave id (some { w with held := none })).divertWave id 0 0
            else s.setWave id (some { w with divert := some 0 })
    | _, _ => s

/-- A wave held for a walk parks at the word with KIND 0x0E, at a precise point before it; a debug stop that waits is taken (R56, R477). -/
def State.parkHold (s : State) (id : WaveId) (w : Wave) (va : Nat) : State :=
  (s.setWave id (some { w with
    parked := some ⟨0x0E, va / 4096, 0⟩
    parkedAt := s.clk
    stopped := w.stopped || w.stopPending
    stopPending := false })).rebalance id.core id.sched

/-- The holds of a core become parks when a REVOKE reaches it (R477). -/
def State.parkHolds (s : State) (core : Nat) : State :=
  ((s.core core).waveList core).foldl (fun (s : State) e => match e.2.walk, e.2.parked with
    | some h, none => if h.done || h.demand || h.refused then s else s.parkHold e.1 e.2 h.va
    | _, _ => s) s

/-- The physical runs of the code of some regions of a partition. -/
def State.codeRuns (s : State) (part : Nat) (regions : List Nat) : List (Nat × Nat) :=
  regions.flatMap (fun n =>
    let r := (s.part part).region n
    s.regionRuns (ctxVf r.owner) (r.base + 8 * r.start.toNat) (8 * (r.stop.toNat - r.start.toNat)))

/-- REVOKE reaches a core: its replica and applied mask follow, the decoded words of the regions are dropped, holds for walks become
parks, and its waves are marked or diverted (R326, R327 step 4, R331, R477). -/
def State.evRevokeApply (s : State) (core part slot : Nat) : State :=
  let p := s.part part
  let r := sget Revocation.empty p.revs slot
  if !r.busy || r.applied.contains core || !p.cores.contains core then s
  else
    let s := s.updPart part (fun p => { p with revs := sset Revocation.empty p.revs slot { r with applied := r.applied ++ [core] } })
    let runs := if (s.core core).decoded = [] then [] else s.codeRuns part r.regions
    let s := (s.updCore core (fun c => c.dropDecoded (fun a => inRuns runs (8 * a) 8))).parkHolds core
    ((s.core core).waveList core).foldl (fun s e => s.revokeWave part r.regions e.1) s

/-- REVOKE_APPLY (R327 step 4). -/
def execRevokeApply (core part slot : Nat) (s : State) : Host.Outcome State Fault Refusal := .next (s.evRevokeApply core part slot)

/-- Whether a wave no longer delays the acknowledgement of a REVOKE (R329): no lane of it lies in a newly REVOKED region, or
it can issue nothing before a diversion point. -/
def State.waveAcks (s : State) (part : Nat) (regions : List Nat) (id : WaveId) (w : Wave) : Bool :=
  match s.wg id.core w.wg with
  | none => true
  | some g =>
    w.resp.isSome || decide ((s.part part).lanesIn regions g.ctx w = []) || w.lastMarked || w.parked.isSome || !w.active || w.stopped ||
      w.slice.isSome || w.inHandler || decide (w.runnable = []) || g.contained.isSome

/-- Whether a core has acknowledged a REVOKE (R329). -/
def State.coreAcks (s : State) (part : Nat) (r : Revocation) (core : Nat) : Bool :=
  r.applied.contains core && ((s.core core).waveList core).all (fun e => s.waveAcks part r.regions e.1 e.2)

/-- Step 5: the root has every core's acknowledgement. -/
def State.evRevokeCombine (s : State) (part slot : Nat) : State :=
  let p := s.part part
  let r := sget Revocation.empty p.revs slot
  if r.busy && !r.combined && p.cores.all (fun n => s.coreAcks part r n) then
    s.updPart part (fun p => { p with revs := sset Revocation.empty p.revs slot { r with combined := true } })
  else s

/-- REVOKE_ACK_COMBINE (R327 step 5, R329). -/
def execRevokeAckCombine (part slot : Nat) (s : State) : Host.Outcome State Fault Refusal := .next (s.evRevokeCombine part slot)

/-- Steps 6 and 7: the slice keeps the old bytes as the shadow, the write registers, and the watch entries of the BROKEN
objects go. -/
def State.evRevokeRelease (s : State) (part slot : Nat) : State :=
  let r := sget Revocation.empty (s.part part).revs slot
  if !r.busy || !r.combined || r.released then s
  else
    let s := match s.heldWrite r.held with
      | none => s
      | some h =>
        let old := h.bytes.map (fun b => (⟨b.1, s.homeByte b.1, part, slot⟩ : ShadowByte))
        ({ s with shadows := s.shadows ++ old }).releaseHeld h
    let s := r.objects.foldl (fun (s : State) n => (s.unwatch part n).updObject part n (fun o => { o with inFlight := false })) s
    s.updPart part (fun p => { p with revs := sset Revocation.empty p.revs slot { r with released := true } })

/-- REVOKE_RELEASE (R327 steps 6 and 7, R328). -/
def execRevokeRelease (part slot : Nat) (s : State) : Host.Outcome State Fault Refusal := .next (s.evRevokeRelease part slot)

/-- Whether an access is a global read that carries the applied mask (R328); a registry word reads its descriptor. -/
def FlightOp.reads : FlightOp → Bool
  | .load .. | .linkage .. | .callRead .. | .prefetch .. | .fill .. | .gather .. | .registry .. => true
  | _ => false

/-- The registry frees a revocation slot once no access issued without its bit is outstanding; the shadow ends (R328). -/
def State.evSlotFree (s : State) (part slot : Nat) : State :=
  let p := s.part part
  let r := sget Revocation.empty p.revs slot
  let quiet := fun (w : Wave) => w.flights.all (fun (f : Flight) => !f.op.reads || f.applied.getLsbD slot)
  if r.busy && r.released && p.cores.all (fun n => ((s.core n).waveList n).all (fun e => quiet e.2)) &&
      p.saved.all (fun x => x.waves.all quiet) then
    { (s.updPart part (fun p => { p with revs := sset Revocation.empty p.revs slot Revocation.empty })) with
      shadows := s.shadows.filter (fun h => !(decide (h.part = part) && decide (h.slot = slot))) }
  else s

/-- REVOCATION_SLOT_FREE (R328). -/
def execRevocationSlotFree (part slot : Nat) (s : State) : Host.Outcome State Fault Refusal := .next (s.evSlotFree part slot)

end Sys2Proof.Machine
end

