-- ==== Sys2Proof/Machine/Preempt.lean ====
section
/-!
DEFINITION. Saving and restoring workgroups: eligibility, the save, the restore, late arrivals, time slices and the save-ahead
engine (spec 02 R48, R53, R57 to R66; 12 R333; 14 R362; 23 R461, R465, R467, R468, R473).
-/

namespace Sys2Proof.Machine

/-! ### What may be saved (R48, R59, R61, R465) -/

/-- Whether work of a workgroup is still in the matrix sequencer, in a gather, or in a responder on one of its tiles, so that it
cannot be saved yet (R61, R68, R468). -/
def State.busyWg (s : State) (core i : Nat) : Bool :=
  let c := s.core core
  c.cmds.any (fun k => decide (k.wg = i)) || c.spawns.any (fun x => decide (x.tile.wg = i)) ||
    (c.waveList core).any (fun e => decide (e.2.wg = i) && (e.2.resp.isSome || e.2.flights.any (fun (f : Flight) => match f.op with
      | .gather .. | .smpImage .. => true
      | _ => false)))

/-- Whether every wave of a workgroup is parked on a condition that is not met, or has exited, and none is stopped, presents a copy or
is held whole by `rwait` (R59, R465). -/
def State.allParked (s : State) (core i : Nat) : Bool :=
  (s.wavesOf core i).all (fun e =>
    let w := e.2
    decide (w.exited = 0xFFFFFFFF#32) || (!w.stopped && w.slice.isNone && decide (w.runnable ≠ []) &&
      (match w.parked with
        | some k => !s.wakeMet e.1 w k
        | none => false)))

/-- Whether a workgroup alone is eligible for soft pre-emption (R59, R303). -/
def State.eligibleOne (s : State) (core i : Nat) : Bool :=
  match s.wg core i with
  | none => false
  | some g => g.contained.isNone && !s.busyWg core i && s.allParked core i

/-- Whether a workgroup, with its ensemble, is eligible for soft pre-emption (R59). -/
def State.eligible (s : State) (core i : Nat) : Bool :=
  let es := s.ensemble core i
  decide (es ≠ []) && es.all (fun e => s.eligibleOne e.1 e.2)

/-- Whether a wave stands at a precise point; a trap entry parked under the quota is one (R48, R61, R463). -/
def Wave.precise (w : Wave) : Bool :=
  decide (w.exited = 0xFFFFFFFF#32) || ((w.faultPending.isNone || w.parked.isSome) &&
    ((w.lastMarked && !w.atMarker) || w.parked.isSome || w.walk.isSome || w.stopped || w.slice.isSome || decide (w.runnable = [])))

/-! ### Saving (R59 to R61, R333, R362) -/

/-- An uncommitted move of a workgroup's entry, or into it, is cancelled (R362, R365). -/
def State.cancelMoves (s : State) (part core i : Nat) : State :=
  (s.part part).cores.foldl (fun s n => ((s.core n).waveList n).foldl (fun s e => e.2.flights.foldl (fun s (f : Flight) =>
    match f.op with
    | .dirMove entry tc tw _ _ t phase reg =>
      if phase < 3 ∧ ((n = core ∧ e.2.wg = i) ∨ (tc = core ∧ tw = i)) then
        let s := s.updDir n entry (fun d => if d.state = .moving then { d with state := .valid } else d)
        let s := if phase = 2 then s.updDir tc t (fun _ => DirEntry.empty) else s
        s.finishWith e.1 f.tag [⟨reg, 0, dirResult 4 0⟩]
      else s
    | _ => s) s) s) s

/-- Save-time references: each unexited lane whose PC lies in an ACTIVE region that matches it (R333). -/
def State.saveRefs (s : State) (g : Workgroup) (w : Wave) : State :=
  let p := s.part g.part
  let base := segBase (sget 0#128 w.segs 15)
  if g.privBytes < 32 then s
  else (lanes.filter (fun l => !w.exited.getLsbD l)).foldl (fun (s : State) l =>
    let pc := (w.pcOf l).toNat
    match p.regions.find? (fun e => decide (e.2.state = .active) && decide (e.2.owner = g.ctx) && decide (e.2.base = base) &&
        decide (e.2.start.toNat ≤ pc) && decide (pc < e.2.stop.toNat)) with
    | none => s
    | some (n, r) =>
      let put := fun (s : State) (o x : Nat) => s.recordPut g.vf g.part (privAddr w.record g.vregs o l) (bytesOfNat x 4)
      put (put (put s 16 r.gen.toNat) 24 r.fallback.toNat) 20 (2 ^ 30 + n * 2 ^ 10)) s

/-- A wave as it is saved: a presented slice is withdrawn, and a wait for a walk becomes KIND 0x0E; one for a page stays (R61, R468, R477,
R480). The cycle of the save is kept in `resident`. -/
def Wave.frozen (now : Nat) (w : Wave) : Wave :=
  { w with
    slice := none
    resident := now
    active := false
    prefilled := false
    yields := none
    stalled := none
    zeros := 0#256
    dead := 0#256
    walk := match w.walk with
      | some h => if h.refused || decide (w.parked.map (fun k => k.kind) = some 0x0C) then some h else none
      | none => none
    parked := match w.parked, w.walk with
      | some k, _ => some k
      | none, some h => if h.done || h.refused then none else some ⟨0x0E, h.va / 4096, 0⟩
      | none, none => none }

/-- The part of a space inside an allocation, from 0 on. -/
def sliceSpace (m : Sparse Byte) (a : Alloc) : Sparse Byte :=
  (m.filter (fun e => decide (a.start ≤ e.1) && decide (e.1 < a.start + a.len))).map (fun e => (e.1 - a.start, e.2))

/-- Save one workgroup and take it off its core: lanes that a REVOKE has marked are diverted first, then dirty global words register, the
private data of its waves is written back, and each wave's record follows (R59, R61, R65, R97). -/
def State.saveWg (s : State) (core i : Nat) : State :=
  match s.wg core i with
  | none => s
  | some g0 =>
    let s := (s.wavesOf core i).foldl (fun (s : State) e => if e.2.divert.isSome then s.divertPoint e.1 else s) s
    let s := ((s.cancelMoves g0.part core i).rootCatchUp g0.part core).writeBack core (fun _ => true)
    let s := s.dropPriv core true g0.records
    match s.wg core i with
    | none => s
    | some g =>
      let ws := (s.wavesOf core i).map (fun e => (e.1, e.2.frozen s.clk))
      let c := s.core core
      let token := fun (id : WaveId) => decide (sget none c.token id.sched = some id.slot)
      let s := ws.foldl (fun (s : State) e => s.saveRefs g e.2) s
      let s := (s.wavesOf core i).foldl (fun (s : State) e => s.saveRecord e.1 g e.2 (token e.1)) s
      let s := ws.foldl (fun (s : State) e => s.saveFixed g e.2 (token e.1)) s
      let c := s.core core
      let mine := c.dirs.filter (fun d => decide (d.2.wg = i) && decide (d.2.state ≠ .free))
      let off := fun (d : DirEntry) => { d with addr := d.addr - (if d.wside then g.wb.start else g.sp.start) }
      let smp := c.smp.filter (fun e => decide (e.2.tag = i) && decide (e.2.state ≠ .free))
      let x : Saved := ⟨true, g, ws.map (fun e => e.2), sliceSpace c.sp g.sp, sliceSpace c.wb g.wb, sliceSpace c.ab g.ab,
        sliceSpace c.cb g.cb, smp, mine.map (fun d => off d.2)⟩
      let leave := fun (c : Core) (e : WaveId × Wave) =>
        let held := decide (sget none c.token e.1.sched = some e.1.slot)
        { (c.dropLines (waveKey e.1) (fun _ => true)) with
          waves := sset none c.waves (waveKey e.1) none
          token := if held then sset none c.token e.1.sched none else c.token
          row := if held then sset 0 c.row e.1.sched 0 else c.row }
      let s := s.updCore core (fun c => ws.foldl leave { c with
        wgs := sset none c.wgs i none
        smp := smp.foldl (fun m e => sset SmpSlot.empty m e.1 SmpSlot.empty) c.smp
        dirs := mine.foldl (fun m d => sset DirEntry.empty m d.1 DirEntry.empty) c.dirs
        rests := c.rests.filter (fun r => decide (r.1 ≠ i)) })
      let s := s.updPart g.part (fun p => { p with saved := p.saved ++ [x] })
      (List.range 4).foldl (fun (s : State) n => s.rebalance core n) s

/-- Save a workgroup with its ensemble (R59). -/
def State.saveEnsemble (s : State) (core i : Nat) : State :=
  (s.ensemble core i).foldl (fun (s : State) e => s.saveWg e.1 e.2) s

/-- An eligible workgroup is evicted during the grace period of its function (R59, R64, R465). -/
def State.evSoftEvict (s : State) (core i : Nat) : State :=
  match s.wg core i with
  | none => s
  | some g =>
    let p := s.part g.part
    if p.grace.isSome && decide (p.slice.map (fun x => x.1) = some g.vf) && s.eligible core i then s.saveEnsemble core i else s

/-- SOFT_PREEMPTION_EVICT (R59). -/
def execSoftPreemptionEvict (core wg : Nat) (s : State) : Host.Outcome State Fault Refusal := .next (s.evSoftEvict core wg)

/-- Whether a command of an ensemble with a workgroup on a core is unretired on any core: it may still read that workgroup's spaces
(R61, R302). -/
def State.ensCommands (s : State) (core : Nat) : Bool :=
  (s.core core).wgs.any (fun w => (s.ensemble core w.1).any (fun e => (s.core e.1).cmds.any (fun k => decide (k.wg = e.2))))

/-- The core's waves are all at precise points, nothing of them is still under way, and no containment, which comes first, is
(R462): every workgroup is saved, and the pre-emption is reported (R61, R472). Past its bound it is a failure of the core (R473). -/
def State.evHardPreempt (s : State) (core : Nat) : State :=
  let c := s.core core
  match c.preempt, s.partOfSector (sectorOf core) with
  | some start, some part =>
    let ws := (c.waveList core).filter (fun e => e.2.resp.isNone)
    let is := c.wgs.map (fun e => e.1)
    let contained := c.wgs.any (fun e => match e.2 with
      | some g => g.contained.isSome
      | none => false)
    if decide (s.clk ≤ start + 8192) && !contained && ws.all (fun e => e.2.precise) && !s.ensCommands core &&
        !is.any (fun i => s.busyWg core i) then
      let ctx := match c.wgs with
        | (_, some g) :: _ => g.ctx
        | _ => 0
      let s := is.foldl (fun (s : State) i => s.saveWg core i) s
      let s := s.updCore core (fun c => { c with preempt := none })
      s.telemetry part (execEntry 0x04 0 core ctx ws.length (s.pclk part) 0 (s.clk - start))
    else s
  | _, _ => s

/-! ### Restoring (R60, R66, R333, R362, R461) -/

/-- A lane's save-time reference at a restore: it is diverted where its region has changed, else its reference is cleared. The
wave, and whether a lane was diverted (R333). -/
def State.restoreRefs (s : State) (g : Workgroup) (w : Wave) : Wave × Bool × State :=
  if g.privBytes < 32 then (w, false, s)
  else lanes.foldl (fun (acc : Wave × Bool × State) l =>
    let s := acc.2.2
    let at' := fun (o : Nat) => privAddr w.record g.vregs o l
    let get := fun (o : Nat) => natOfBytes (s.recordGet g.vf g.part (at' o) 4)
    let put := fun (s : State) (o x : Nat) => s.recordPut g.vf g.part (at' o) (bytesOfNat x 4)
    let word := get 20
    if w.exited.getLsbD l || !word.testBit 30 then acc
    else
      let n := word / 2 ^ 10 % 2048
      let r := sget Region.empty (s.part g.part).regions n
      if r.gen.toNat = get 16 ∧ r.state = .active then (acc.1, acc.2.1, put s 20 0)
      else
        let kind := (w.parked.map (fun k => k.kind)).getD 0
        let fall := wd (get 24)
        let s := put (put s 16 (w.pcOf l).toNat) 20 (diversionWord 2 kind n r.breaking)
        (acc.1.pcSet l fall, true, s)) (w, false, s)

/-- A restored wave in its new place: pending, its lines absent, a wait for a walk met, any other kept (R56, R66, R333). -/
def Wave.thawed (w : Wave) (i : Nat) (diverted : Bool) (now : Nat) : Wave :=
  let stale := fun (k : Wake) => decide (k.kind = 0x0E) ||
    (diverted && (decide (k.kind = 0x01) || decide (k.kind = 0x02) || decide (k.kind = 0x0B)))
  let w := { (if diverted then w.dropWaits else w) with
    wg := i
    active := false
    prefilled := false
    readySince := now
    resident := now
    firstIssue := w.firstIssue.map (fun t => t + (now - w.resident))
    parkedAt := now
    conds := w.conds.filter (fun k => !stale k)
    parked := match w.parked with
      | some k => if stale k then none else some k
      | none => none
    held := if diverted then none else w.held
    divert := if diverted then none else some 0 }
  if diverted then { w with
    lastMarked := true
    exempt := true
    walk := none } else w

/-- A local space's bytes put back at an allocation. -/
def fillSpace (m : Sparse Byte) (a : Alloc) (bytes : Sparse Byte) : Sparse Byte :=
  let m := m.filter (fun e => !(decide (a.start ≤ e.1) && decide (e.1 < a.start + a.len)))
  bytes.foldl (fun m e => sset 0#8 m (a.start + e.1) e.2) m

/-- Whether a saved workgroup still has outstanding fills (R60). -/
def Saved.pending (s : State) (x : Saved) : Bool := x.waves.any (fun w => decide (w.fills s x.wg ≠ []))

/-- Put a saved workgroup on a core in a room found for it. -/
def State.placeSaved (s : State) (x : Saved) (core : Nat) (r : Room) : State :=
  let g := x.wg
  let s := s.rootCatchUp g.part core
  let ws := x.waves.filter (fun w => decide (w.index < r.ids.length))
  let step := fun (acc : List (WaveId × Wave × Bool) × State) (w : Wave) =>
    let w' := acc.2.loadRecord g w
    let token := (recNat (acc.2.recordGet g.vf g.part w.record 0x400) 0x2B0 1).testBit 4
    let d := acc.2.restoreRefs g w'
    (acc.1 ++ [(r.ids.getD w.index ⟨core, 0, 0⟩, d.1.thawed r.wg d.2.1 acc.2.clk, token)], d.2.2)
  let all : List (WaveId × Wave × Bool) × State := ws.foldl step ([], s)
  let placed := all.1
  let s : State := all.2
  let grant := match ws with
    | w :: _ => recNat (s.recordGet g.vf g.part w.record 0x400) 0x2B1 1 % 8
    | [] => g.tokensGranted
  let owner := fun (h : HeldPush) => match placed.find? (fun p => p.2.1.flights.any (fun (f : Flight) => decide (f.tag = h.tag))) with
    | some p => { h with w := p.1 }
    | none => h
  let g' := { g with
    sp := r.sp
    wb := r.wb
    ab := r.ab
    cb := r.cb
    tokensGranted := grant
    queues := g.queues.map (fun q => (q.1, { q.2 with held := q.2.held.map owner })) }
  let s := s.setWg core r.wg (some g')
  let s := placed.foldl (fun (s : State) p => s.setWave p.1 (some p.2.1)) s
  let moved := fun (h : CellHome) => match placed.find? (fun p => decide (h.holder = some (waveIdent g.vf p.2.1))) with
    | some p => { h with place := some p.1 }
    | none => h
  let s := { s with cells := s.cells.map (fun (e : Nat × CellHome) => (e.1, moved e.2)) }
  let retake := fun (c : Core) (p : WaveId × Wave × Bool) => if p.2.2 && (sget none c.token p.1.sched).isNone then
    { c with token := sset none c.token p.1.sched (some p.1.slot) } else c
  let s := s.updCore core (fun c =>
    let c := placed.foldl retake c
    let c := { c with
      sp := fillSpace c.sp r.sp x.sp
      wb := fillSpace c.wb r.wb x.wb
      ab := fillSpace c.ab r.ab x.ab
      cb := fillSpace c.cb r.cb x.cb
      smp := x.smp.foldl (fun m (e : Nat × SmpSlot) => sset SmpSlot.empty m e.1 { e.2 with tag := r.wg }) c.smp }
    x.dirs.foldl (fun (c : Core) (d : DirEntry) => match c.freeDir with
      | some e => { c with dirs := sset DirEntry.empty c.dirs e { d with
          addr := d.addr + (if d.wside then r.wb.start else r.sp.start)
          wg := r.wg
          state := .valid } }
      | none => c) c)
  let s := s.updPart g.part (fun p => { p with saved := p.saved.erase x })
  (List.range 4).foldl (fun (s : State) n => s.rebalance core n) s

/-- The room a saved workgroup finds on a core: its resources, its SMP slots and its directory entries (R36, R307, R362). -/
def State.savedRoom (s : State) (x : Saved) (core : Nat) : Option Room :=
  let c := s.core core
  if x.smp.any (fun e => decide ((sget SmpSlot.empty c.smp e.1).state ≠ .free)) ||
      decide (256 - (c.dirs.filter (fun d => decide (d.2.state ≠ .free))).length < x.dirs.length) then none
  else c.room core x.wg.need

/-- The outcome of a restore: done, a status of R259 or R461, or a wait for running responders (R68). -/
inductive RestoreRes where
  | done (s : State)
  | status (n : Nat)
  | later

/-- The cores of the members of an ensemble, the first on a given core, the others on distinct cores of its cluster. -/
def State.ensRooms (s : State) (core : Nat) : List Saved → List Nat → Option (List (Saved × Nat × Room))
  | [], _ => some []
  | x :: xs, tried =>
    let cands := if tried = [] then [core] else ((List.range 8).map (fun i => core / 8 * 8 + i)).filter (fun n => !tried.contains n)
    match cands.find? (fun n => (s.savedRoom x n).isSome) with
    | none => none
    | some n => match s.savedRoom x n, s.ensRooms core xs (n :: tried) with
      | some r, some rest => some ((x, n, r) :: rest)
      | _, _ => none

/-- Restore a saved workgroup, with its ensemble, onto a core (R59, R60, R259, R461). -/
def State.restore (s : State) (part : Nat) (x : Saved) (core : Nat) : RestoreRes :=
  let all := if x.wg.ensSize ≤ 1 then [x]
    else x :: (s.part part).saved.filter (fun y => decide (y.wg.ensId = x.wg.ensId) && decide (1 < y.wg.ensSize) &&
      decide (y.wg.ensRank ≠ x.wg.ensRank))
  if all.any (fun y => y.pending s) then .status 3
  else if all.any (fun y => y.waves.any (fun w => !s.recordOk y.wg w)) then .status 4
  else match s.ensRooms core all [] with
    | none => .status 1
    | some rooms =>
      if rooms.any (fun r => ((s.core r.2.1).waveList r.2.1).any (fun e => e.2.resp.isSome)) then .later
      else .done (rooms.foldl (fun (s : State) r => s.placeSaved r.1 r.2.1 r.2.2) s)

/-! ### Late arrivals (R60) -/

/-- The number of a core that does not exist: accesses of a saved workgroup run there for the time of one step. -/
def limbo : Nat := 768

/-- A step of a saved workgroup's accesses: its waves as their records give them, no core around them. A condition that it meets becomes
KIND 0x00, and the fixed part of each record is written again after it (R59, R60). -/
def State.inLimbo (s : State) (part index : Nat) (f : State → State) : State :=
  match (s.part part).saved.drop index with
  | [] => s
  | x :: _ =>
    let ids := (List.range x.waves.length).map (fun i => (⟨limbo, 0, i⟩ : WaveId))
    let ws := x.waves.map (fun w => { s.loadRecord x.wg w with
      wg := 0
      atMarker := false })
    let c := { Core.idle with
      wgs := sset none [] 0 (some { x.wg with
        sp := ⟨0, x.wg.sp.len⟩
        wb := ⟨0, x.wg.wb.len⟩
        ab := ⟨0, x.wg.ab.len⟩
        cb := ⟨0, x.wg.cb.len⟩ })
      sp := x.sp
      wb := x.wb
      ab := x.ab
      cb := x.cb
      smp := x.smp
      waves := (ids.zip ws).foldl (fun m p => sset none m (waveKey p.1) (some p.2)) [] }
    let t := ((f (s.setCore limbo c)).writeBack limbo (fun _ => true)).dropPriv limbo true x.wg.records
    let d := t.core limbo
    let back := (ids.zip x.waves).filterMap (fun p => (sget none d.waves (waveKey p.1)).map (fun w => { w with
      wg := p.2.wg
      atMarker := p.2.atMarker
      parked := match w.parked with
        | some k => if t.wakeMet p.1 w k && (decide (k.kind = 0x03) || decide (k.kind = 0x04) || decide (k.kind = 0x05) ||
            decide (k.kind = 0x06)) then none else some k
        | none => none }))
    let g := match sget none d.wgs 0 with
      | some g => { g with
          sp := x.wg.sp
          wb := x.wg.wb
          ab := x.wg.ab
          cb := x.wg.cb }
      | none => x.wg
    let y := { x with
      wg := g
      waves := back
      sp := d.sp
      wb := d.wb
      ab := d.ab
      cb := d.cb
      smp := d.smp }
    let t := (t.setCore limbo Core.idle).updPart part (fun p => { p with saved := p.saved.set index y })
    back.foldl (fun (t : State) w =>
      let tok := (recNat (t.recordGet g.vf g.part w.record 0x400) 0x2B0 1).testBit 4
      t.saveFixed g w tok) t

/-- One access of a wave does what it can do next. -/
def State.landOne (s : State) (id : WaveId) (f : Flight) : State :=
  match f.op with
  | .load .. | .callRead .. => s.evDirectLoadReturn id f.tag
  | .fill .. => s.evQueueFill id f.tag
  | .acquire _ _ _ _ _ phase _ _ => if phase = 2 then s.evAcquireGrant id f.tag else s.evCellRequest id f.tag
  | .linkage .. | .release .. | .bindRegion .. => s.evCellRequest id f.tag
  | .atomic .. => s.evAtomicAtHome id f.tag
  | .remote .. => s.evRemoteReply id f.tag
  | .registry .. => s.evRegistry id f.tag
  | .fence _ => s.fenceTry id f.tag
  | .arrive .. => s.arriveTry id f.tag
  | .barWait .. => s.waitTry id f.tag
  | .xfence .. => s.xfenceTry id f.tag
  | .gather _ _ _ rows => match rows with
    | r :: _ => s.evGatherRow id f.tag r.lane
    | [] => s.finish id f.tag
  | .smpImage .. => s.evSmpImage id f.tag
  | .store .. | .later .. | .spAtomic .. | .prefetch .. => s.drain id
  | .dirMove _ _ _ _ _ _ phase _ => if phase = 1 then s.evMoveCheck id f.tag else s.evMoveCopy id f.tag
  | .dirCommit .. => s
  | _ => s.evResult id f.tag

/-- LATE_ARRIVAL: what an access of a saved wave brings is written into the saved record (R60). -/
def State.evLateArrival (s : State) (part index tag : Nat) : State :=
  s.inLimbo part index (fun s => ((s.core limbo).waveList limbo).foldl (fun s e => match e.2.flight tag with
    | some f => s.landOne e.1 f
    | none => s) s)

/-- LATE_ARRIVAL (R60). -/
def execLateArrival (part saved tag : Nat) (s : State) : Host.Outcome State Fault Refusal := .next (s.evLateArrival part saved tag)

/-- A census completes, in the record of a saved asker too (R60, R372). -/
def State.evCensusDone (s : State) (part place : Nat) : State :=
  let p := s.place part place
  let t := s.evCensusComplete part place
  if t = s then s
  else (t.part part).saved.foldl (fun (t : State) x => x.waves.foldl (fun (t : State) w =>
    if x.wg.vf = p.vf ∧ w.record = p.record then
      t.saveFixed x.wg w ((recNat (t.recordGet x.wg.vf part w.record 0x400) 0x2B0 1).testBit 4)
    else t) t) t

/-- CENSUS_COMPLETE (R372). -/
def execCensusComplete (part place : Nat) (s : State) : Host.Outcome State Fault Refusal := .next (s.evCensusDone part place)

/-! ### The save-ahead engine and displacement (R58, R62) -/

/-- The bytes of a core's dirty save set: dirty register lines, blocks of local spaces (queue entries are in the scratchpad's), and
sectors of private data (R62, R91, R97). -/
def Core.dirtySet (c : Core) : Nat :=
  128 * (c.rf.filter (fun e => e.2.dirty)).length + 512 * c.dirtyBlocks.length +
    64 * (dedup ((c.l1.filter (fun e => decide (e.2.priv ≠ 0) && decide (e.2.dirty ≠ 0#4))).map (fun e => e.1 / 16))).length

/-- One dirty unit of a core is cleaned: a register line is written to its record, a block of a local space to its save area, a
sector of private data to memory (R62; log 8). -/
def State.cleanOne (s : State) (core : Nat) : State :=
  let c := s.core core
  match c.rf.find? (fun e => e.2.dirty) with
  | some (k, l) => (s.lineOut core k).updCore core (fun c => { c with rf := sset RfLine.absent c.rf k { l with dirty := false } })
  | none => match c.dirtyBlocks with
    | (b, _) :: _ => s.updCore core (fun c => { c with dirtyBlocks := sset false c.dirtyBlocks b false })
    | [] => match c.l1.find? (fun e => decide (e.2.priv ≠ 0) && decide (e.2.dirty ≠ 0#4)) with
      | some (k, _) => ((c.l1.filter (fun e => decide (e.1 / 16 = k / 16) && decide (e.2.priv ≠ 0))).map (fun e => e.1)).foldl
          (fun (s : State) w => s.leaveL1 core w) s
      | none => s

/-- The save-ahead engine, while slicing is on: it cleans until the dirty save set is 256 KiB or less, and one unit more. The words of a
cycle that would dirty a unit beyond the bound thus wait in effect until its end (R62; log 55). -/
def State.evSaveAhead (s : State) (core : Nat) : State :=
  match s.partOfSector (sectorOf core) with
  | none => s
  | some part =>
    if (s.part part).tslice = 0#32 then s
    else
      let excess := ((s.core core).dirtySet - 262144 + 63) / 64
      ((List.range excess).foldl (fun (s : State) _ => if 262144 < (s.core core).dirtySet then s.cleanOne core else s) s).cleanOne core

/-- SAVE_AHEAD_WRITEBACK (R62). -/
def execSaveAheadWriteback (core : Nat) (s : State) : Host.Outcome State Fault Refusal := .next (s.evSaveAhead core)

/-- A pending wave ready for 512 cycles displaces the active wave that has held its slot longest without parking: at once where that
wave stands at a marker, presents a copy or is held whole, else at its next marker (R58, R280). -/
def State.evDisplace (s : State) (core sched : Nat) : State :=
  let ws := s.schedWaves core sched
  let act := ws.filter (fun e => e.2.active)
  let waiting := ws.filter (fun e => !e.2.active && e.2.wantsActive && decide (e.2.readySince + 512 ≤ s.clk) &&
    !act.any (fun a => decide (a.2.yields = some e.1.slot)))
  match leastBy (fun w => w.readySince) waiting,
      leastBy (fun w => w.activeSince) (act.filter (fun e => e.2.parked.isNone && e.2.yields.isNone)) with
  | some (p, _), some (q, v) =>
    if act.length < 8 || act.any (fun e => e.2.parked.isSome) then s.rebalance core sched
    else
      let s := s.updWave q (fun w => { w with yields := some p.slot })
      if (v.lastMarked && !v.atMarker) || v.slice.isSome || decide (v.runnable = []) then s.exchange q else s
  | _, _ => s

/-- PENDING_DISPLACEMENT (R58). -/
def execPendingDisplacement (core sched : Nat) (s : State) : Host.Outcome State Fault Refusal := .next (s.evDisplace core sched)

end Sys2Proof.Machine
end

