-- ==== Sys2Proof/Machine/System.lean ====
section
/-!
DEFINITION. System instructions, opcodes 0xF0 to 0xF9 (spec 09 R252 to R259; 22 R454).
-/

namespace Sys2Proof.Machine

/-- A system register as its words, low first (R253); the reserved bits of `%shadow` read zero (R8, R156). `%ctxbase` is CTXPOOL of the
context's queue (R378). -/
def State.sysReg (s : State) (c : Ctx) (code : Nat) : List Word :=
  let p := s.part c.wg.part
  match code with
  | 0x00 => [sget 0xFFFFFFFF#32 s.trapbase c.ctx]
  | 0x01 => words64 (bitsN (s.qcb c.wg.vf c.wg.queue).hyp 639 576)
  | 0x02 => words64 p.telebase.toNat
  | 0x03 => [p.shadow &&& 0x1F#32]
  | 0x04 => [p.tslice]
  | n => [wd ((s.func c.wg.vf).feat.toNat / 2 ^ (32 * (n - 5)))]

/-- `rdsr` (R253). -/
def execRdsr (w : RWord) (s : State) := issueWord (.rdsr w) s (fun c s => c.putScalar s w.d (s.sysReg c w.minor))

/-- A system register written (R253, R254); the reserved bits of `%shadow` ignore it (R8, R156). -/
def State.setSysReg (s : State) (c : Ctx) (code : Nat) (x : Nat) : State :=
  match code with
  | 0x00 => { s with trapbase := sset 0xFFFFFFFF#32 s.trapbase c.ctx (wd x) }
  | 0x01 => s.updQcb c.wg.vf c.wg.queue (fun q => { q with hyp := setBits q.hyp 639 576 x })
  | 0x02 => s.updPart c.wg.part (fun p => { p with telebase := BitVec.ofNat 64 x })
  | 0x03 => s.updPart c.wg.part (fun p => { p with shadow := wd (x % 32) })
  | 0x04 => s.updPart c.wg.part (fun p => { p with tslice := wd x })
  | _ => s

/-- `wrsr`: it waits for every earlier access of its wave (R253, R254). -/
def execWrsr (w : RWord) (s : State) := issueWord (.wrsr w) s (fun c s =>
  if c.eff = 0#32 then .done s
  else if c.wave.flights.any (fun (f : Flight) => f.op.unperformed) then s.wait
  else .done (s.setSysReg c w.minor (if w.minor = 1 ∨ w.minor = 2 then c.opnd64 w.a (lowLane c.eff) else (c.uni w.a).toNat)))

/-- The refusal of a binding of `gN`, by R75 to R77 and R255: code and DETAIL. -/
def bindFail (n : Nat) (g : BitVec 128) : Option (Nat × Nat) :=
  if bitsN g 123 120 ≠ 0 then some (0x03, 8)
  else if (segValid g ∧ 2 ^ 60 < segBase g + segLimit g) ∨ (n = 15 ∧ 2 ^ 34 < segLimit g) then some (0x0A, 0)
  else none

/-- `seg.bind` (R255): the issuing wave uses the binding at once, but fetches the rest of its window with the `g15` it has (R454); the
others take it from their next window on. -/
def execSegBind (w : RWord) (s : State) := issueWord (.segBind w) s (fun c s =>
  if c.eff = 0#32 then .done s
  else
    let g := BitVec.ofNat 128 ((List.range 4).foldl (fun a i => a + (c.sreg w.a i).toNat * 2 ^ (32 * i)) 0)
    match bindFail w.minor g with
    | some (0x0A, d) => .raise ⟨0x0A, d, segBase g⟩ c.eff s
    | some (code, d) => .raise ⟨code, d, c.word.toNat⟩ c.eff s
    | none => .done ((s.updWg c.core c.wave.wg (fun x => { x with segs := sset 0#128 x.segs w.minor g })).updWave c.id (fun v => { v with
        segs := sset 0#128 v.segs w.minor g
        codeSeg := if w.minor = 15 then some (optD v.codeSeg (sget 0#128 v.segs 15)) else v.codeSeg })))

/-- `ptok` (R72, R256). -/
def execPtok (w : RWord) (s : State) := issueWord (.ptok w) s (fun c s =>
  if c.eff = 0#32 then .done s
  else
    let n := min (c.uni w.a).toNat c.wg.tokensDeclared
    let s := s.updWg c.core c.wave.wg (fun g => { g with tokensGranted := n })
    if w.d = 0#9 then .done s else c.putScalar s w.d [wd n])

/-- A performance counter of a core (R256); counter 1 counts the scheduler cycles in which no word issued, counter 2 the parked
cycles of past and present waits. -/
def State.perfRead (s : State) (core part n : Nat) : Nat :=
  let c := s.core core
  let x := sget 0 c.perf n
  if n = 1 then 4 * s.pclk part + (s.issued.filter (fun x => decide (x / 4 = core))).length - sget 0 c.perf 0
  else if n = 2 then x + ((c.waveList core).map (fun e => if e.2.parked.isSome then s.clk - e.2.parkedAt else 0)).foldl (· + ·) 0
  else x

/-- `perf` (R256). -/
def execPerf (w : RWord) (s : State) := issueWord (.perf w) s (fun c s =>
  c.putScalar s w.d (words64 (s.perfRead c.core c.wg.part w.minor)))

/-- `clk` (R203, R256). -/
def execClk (w : RWord) (s : State) := issueWord (.clk w) s (fun c s => c.putScalar s w.d (words64 (s.pclk c.wg.part)))

/-- `clk.wave`: cycles since the wave's first issue in which it was resident; a restore moves the first issue (R256). -/
def execClkWave (w : RWord) (s : State) := issueWord (.clkWave w) s (fun c s =>
  c.putScalar s w.d (words64 (s.clk - optD c.wave.firstIssue s.clk)))

/-- `halt`: the wave stops past the word and is reported to the debug function, with an entry of KIND 0x03 (R257, R472). -/
def execHalt (w : RWord) (s : State) := issueWord (.halt w) s (fun c s =>
  if c.eff = 0#32 then .done s
  else
    let s := s.updWave c.id (fun v => { v with stopPending := true })
    let s := s.debugReport c.id c.wg.vf 0x22 c.pc
    .done (s.telemetry c.wg.part (execEntry 0x03 0x22 c.core c.ctx (c.id.sched * 32 + c.id.slot) (s.pclk c.wg.part) c.pc.toNat 0)))

/-- Drop the translations of every core of a partition that a test selects (R258). -/
def State.dropTlbs (s : State) (part : Nat) (p : TlbEntry → Bool) : State :=
  (s.part part).cores.foldl (fun (s : State) n => if (s.core n).tlb = [] then s else s.updCore n (fun c => { c with
    tlb := c.tlb.filter (fun t => !p t) })) s

/-- A word of `tlb.inv`: the translations are dropped and 0 is returned (R258). A walk in flight is made when it completes, so it
keeps nothing. -/
def Ctx.tlbInv (c : Ctx) (s : State) (d : BitVec 9) (p : TlbEntry → Bool) : Res :=
  if c.eff = 0#32 then .done (s.launch c (.result []) [d.toNat])
  else .done ((s.dropTlbs c.wg.part p).launch c (.result [⟨d.toNat, 0, 0#32⟩]) [d.toNat])

/-- `tlb.inv.page` (R258). -/
def execTlbInvPage (w : RWord) (s : State) := issueWord (.tlbInvPage w) s (fun c s =>
  let va := c.opnd64 w.a (lowLane c.eff)
  c.tlbInv s w.d (fun t => decide (t.vf = c.wg.vf) && decide (t.va ≤ va) && decide (va < t.va + t.bytes)))

/-- `tlb.inv.vf` (R258). -/
def execTlbInvVf (w : RWord) (s : State) := issueWord (.tlbInvVf w) s (fun c s =>
  c.tlbInv s w.d (fun t => decide (t.vf = c.wg.vf)))

/-- `tlb.inv.part` (R258). -/
def execTlbInvPart (w : RWord) (s : State) := issueWord (.tlbInvPart w) s (fun c s => c.tlbInv s w.d (fun _ => true))

/-- The record address of `ctx.sv` and `ctx.ld`. -/
def Ctx.recordAddr (c : Ctx) (w : RWord) : Nat := pair64 (c.sreg w.a 0) (c.sreg w.a 1)

/-- A status in the destination (R259). -/
def Ctx.status (c : Ctx) (s : State) (d : BitVec 9) (n : Nat) : Res :=
  .done (s.launch c (.result [⟨d.toNat, 0, wd n⟩]) [d.toNat])

/-- The first of some workgroups whose record stands at an address: one of the issuing function before one of another. R259 names a
record by its address alone, and two functions may use one virtual address (DESIGN CHOICE, log 80). -/
def recordOwner {α : Type} (vf addr : Nat) (g : α → Option Workgroup) (l : List α) : Option α :=
  let mine := fun (own : Bool) (x : α) => match g x with
    | some g => g.records.contains addr && (!own || decide (g.vf = vf))
    | none => false
  match l.find? (mine true) with
  | some x => some x
  | none => l.find? (mine false)

/-- `ctx.sv` (R259, R454): status 1 while a wave of the workgroup, or of its ensemble, is neither parked nor exited (R59); what is still
under way of a workgroup whose waves are parked, and its containment, are waited for (R303, R451). -/
def execCtxSv (w : RWord) (s : State) := issueWord (.ctxSv w) s (fun c s =>
  if c.eff = 0#32 then .done (s.launch c (.result []) [w.d.toNat])
  else match recordOwner c.wg.vf (c.recordAddr w) (fun (e : Nat × Option Workgroup) => e.2) (s.core c.core).wgs with
    | none => c.status s w.d 2
    | some (i, _) =>
      if !(s.ensemble c.core i).all (fun e => s.allParked e.1 e.2) then c.status s w.d 1
      else if s.eligible c.core i then c.status (s.saveEnsemble c.core i) w.d 0
      else s.wait)

/-- `ctx.ld`; it waits for running responders of the core (R60, R68, R259, R461). -/
def execCtxLd (w : RWord) (s : State) := issueWord (.ctxLd w) s (fun c s =>
  if c.eff = 0#32 then .done (s.launch c (.result []) [w.d.toNat])
  else match recordOwner c.wg.vf (c.recordAddr w) (fun (x : Saved) => some x.wg) ((s.part c.wg.part).saved.filter (fun x => x.live)) with
    | none => c.status s w.d 2
    | some x => match s.restore c.wg.part x c.core with
      | .done s => c.status s w.d 0
      | .status n => c.status s w.d n
      | .later => s.wait)

end Sys2Proof.Machine
end

