-- ==== Sys2Proof/Machine/Events.lean ====
section
/-!
DEFINITION. Steps of a wave that no word takes: the timeout of `rwait`, results leaving the pending-write set, prefills, wakes,
translation holds and demand maps, fetched words that are no instruction, and the delivery of faults
(spec 02 R50, R56, R57; 03 R104, R106, R108; 06 R176, R179; 09 R233; 22 R448; 23 R463; 24 R477, R480).
-/

namespace Sys2Proof.Machine

/-- The held set's deadline passes (R233). -/
def State.evRwaitTimeout (s : State) (id : WaveId) : State :=
  match s.wave id with
  | none => s
  | some w => match w.held with
    | some h => if h.deadline ≤ s.pclk (s.partOfWave id) then s.heldCheck id else s
    | none => s

/-- RWAIT_TIMEOUT (R233). -/
def execRwaitTimeout (w : WaveId) (s : State) : Host.Outcome State Fault Refusal := .next (s.evRwaitTimeout w)

/-- Fixed-latency entries whose latency has elapsed leave the pending-write set, and a marker that waited for them goes on
(R176). -/
def State.evFixedLatency (s : State) (id : WaveId) : State :=
  (s.updWave id (fun w => { w with pend := w.live s.clk })).settle id

/-- FIXED_RESULT_LATENCY (R176). -/
def execFixedResultLatency (w : WaveId) (s : State) : Host.Outcome State Fault Refusal := .next (s.evFixedLatency w)

/-- A wave at the start of a window has its register lines filled (R50). -/
def State.evPrefill (s : State) (id : WaveId) : State :=
  match s.wave id with
  | some w =>
    if (w.active || decide (w.parked.map (fun k => k.kind) = some 0x0D)) && w.lastMarked && !w.atMarker && !w.stopped && w.faultPending.isNone
    then (s.prefill id).rebalance id.core id.sched else s
  | none => s

/-- WINDOW_PREFILL (R50). -/
def execWindowPrefill (w : WaveId) (s : State) : Host.Outcome State Fault Refusal := .next (s.evPrefill w)

/-- A parked wave whose condition is met is ready; its parked cycles are counted (R56, R57, R256). -/
def State.evWake (s : State) (id : WaveId) : State :=
  match s.wave id with
  | none => s
  | some w => match w.parked with
    | none => s
    | some k =>
      if !s.wakeMet id w k then s
      else
        let s := s.setWave id (some { w with
          parked := none
          activeSince := s.clk
          readySince := s.clk })
        let s := s.updCore id.core (fun c => { c with perf := sset 0 c.perf 2 (sget 0 c.perf 2 + (s.clk - w.parkedAt)) })
        (s.settle id).rebalance id.core id.sched

/-- WAKE_CONDITION_MET (R57). -/
def execWakeConditionMet (w : WaveId) (s : State) : Host.Outcome State Fault Refusal := .next (s.evWake w)

/-! ### Translation holds (R104, R106, R477, R480) -/

/-- A wave held for a walk parks 64 cycles after the miss, or at once for a pre-emption or a debug stop; a REVOKE parks it when it
reaches the core (R477). -/
def State.evHoldExpiry (s : State) (id : WaveId) : State :=
  match s.wave id with
  | none => s
  | some w => match w.walk, w.parked with
    | some h, none =>
      if h.done || h.demand || h.refused then s
      else if s.clk < h.start + 64 ∧ (s.core id.core).preempt.isNone ∧ w.stopPending = false then s
      else s.parkHold id w h.va
    | _, _ => s

/-- TRANSLATION_WALK_HOLD_EXPIRY (R477). -/
def execTranslationWalkHoldExpiry (w : WaveId) (s : State) : Host.Outcome State Fault Refusal := .next (s.evHoldExpiry w)

/-- A walk reaches a wave that waits for it: a page fills the core's TLB, and the word translates again, which raises what the walk
ended in (R104, R477). -/
def State.walkReaches (s : State) (k : Walk) (id : WaveId) : State :=
  match s.wave id with
  | none => s
  | some w => match w.walk with
    | none => s
    | some h =>
      let vf := s.vfOfWave id
      if h.done || h.demand || !k.serves vf (h.va / 4096) (s.level0 vf h.va) then s
      else
        let s := match s.walk vf h.va with
          | .page t => s.updCore id.core (fun c => if (c.tlbFind t.vf h.va).isSome then c else c.tlbFill t)
          | _ => s
        s.updWave id (fun w => { w with walk := some { h with done := true } })

/-- A walk ends for every wave that waits for it, and leaves its slot (R104). -/
def State.finishWalk (s : State) (sec : Nat) (k : Walk) : State :=
  k.cores.foldl (fun (s : State) n => ((s.core n).waveList n).foldl (fun (s : State) e => s.walkReaches k e.1) s)
    { s with walks := sset [] s.walks sec ((sget [] s.walks sec).erase k) }

/-- The walk that a wave waits for is started where it could not be before, and ends (R104). -/
def State.evWalkDone (s : State) (id : WaveId) : State :=
  match s.wave id with
  | none => s
  | some w => match w.walk with
    | none => s
    | some h =>
      if h.done || h.demand then s
      else
        let vf := s.vfOfWave id
        let s := s.startWalk id.core vf h.va
        match (sget [] s.walks (sectorOf id.core)).find? (fun k => k.serves vf (h.va / 4096) (s.level0 vf h.va)) with
        | some k => s.finishWalk (sectorOf id.core) k
        | none => s

/-- TRANSLATION_WALK_COMPLETE (R104). -/
def execTranslationWalkComplete (w : WaveId) (s : State) : Host.Outcome State Fault Refusal := .next (s.evWalkDone w)

/-- The page that a wave's store needs is mapped, or the map is refused and the wave parks with KIND 0x0C; a map whose leaves a
watch holds is waited for (R106, R108, R323, R480). -/
def State.evDemandMap (s : State) (id : WaveId) : State :=
  match s.wave id with
  | none => s
  | some w => match w.walk with
    | none => s
    | some h =>
      let vf := s.vfOfWave id
      let go := fun (s : State) => s.updWave id (fun v => { v with walk := some { h with
        demand := false
        done := true } })
      if !h.demand || h.refused then s
      else match s.walk vf h.va with
        | .grow a =>
          match s.demandMap vf h.va a 0 with
          | (true, s) => match s.walk vf h.va with
            | .page _ => go s
            | _ => s
          | (false, t) =>
            if w.parked.isSome then s
            else (t.updWave id (fun v => { v with
              parked := some ⟨0x0C, h.va / 65536, 0⟩
              parkedAt := s.clk
              stopped := v.stopped || v.stopPending
              stopPending := false })).rebalance id.core id.sched
        | _ => go s

/-- DEMAND_MAP (R106, R108). -/
def execDemandMap (w : WaveId) (s : State) : Host.Outcome State Fault Refusal := .next (s.evDemandMap w)

/-! ### Words that are no instruction, and faults (R179, R448, R463, R521) -/

/-- ENCODING_NOT_INSTRUCTION: the word reaches issue at the wave `cur` and raises its fault (R179). -/
def execEncodingNotInstruction (word : Dword) (s : State) : Host.Outcome State Fault Refusal :=
  .next (match decode word with
    | .instr _ => s
    | .reject _ _ => s.encodingFault s.cur word)

/-- A pending fault is delivered once the pending-write set is empty; one whose save area waits for a page is entered when the
page is mapped, and doubled when the map is refused (R448, R463). -/
def State.evFaultDelivery (s : State) (id : WaveId) : State :=
  match s.wave id with
  | none => s
  | some w => match w.faultPending with
    | none => s
    | some f =>
      if w.live s.clk ≠ [] then s
      else match w.walk with
        | some h =>
          if h.refused then s.kill id 1 0x18 f.code 0 { f with xinfo := BitVec.ofNat 64 h.va }
          else if h.demand then s
          else (s.setWave id (some { w with walk := none })).deliver id f
        | none => s.deliver id f

/-- FAULT_DELIVERY (R448). -/
def execFaultDelivery (w : WaveId) (s : State) : Host.Outcome State Fault Refusal := .next (s.evFaultDelivery w)

/-- DEFERRED_FAULT_KNOWN: an access that can fault after its word has issued reaches the point where its fault is known, and
takes its effect or leaves the fault to the next marker (R521). -/
def execDeferredFaultKnown (w : WaveId) (tag : Nat) (s : State) : Host.Outcome State Fault Refusal :=
  .next (match s.wave w with
    | none => s
    | some v => match v.flight tag with
      | none => s
      | some f => match f.op with
        | .load .. | .linkage .. | .acquire .. | .release .. | .bindRegion .. | .pop .. | .registry .. | .remote .. | .rung .. =>
          s.landOne w f
        | _ => s)

end Sys2Proof.Machine
end

