-- ==== Sys2Proof/Machine/Fate.lean ====
section
/-!
DEFINITION. Containment of workgroups, the kill of a context, fault records at the firmware, and restores by the scheduler
(spec 22 R450 to R452, R458; 23 R461, R468, R469, R474; 24 R491 to R495, R498).
-/

namespace Sys2Proof.Machine

/-! ### Cells (R493) -/

/-- The identities of a workgroup's waves. -/
def wgIdents (vf : Nat) (ws : List Wave) : List Nat := ws.map (fun w => waveIdent vf w)

/-- The cells that some waves hold become POISONED, and their waiting acquires are withdrawn (R491 step 3, R493). -/
def State.poisonHeld (s : State) (idents : List Nat) : State :=
  s.cells.foldl (fun (s : State) c =>
    let s := s.updCell c.1 (fun h => { h with waiters := h.waiters.filter (fun x => !idents.contains x.1) })
    match c.2.holder with
    | some i => if idents.contains i ∧ (s.cellWord c.1).1 ≠ 0 then s.poisonCell c.1 else s
    | none => s) s

/-! ### Grids and queues (R379, R452) -/

/-- A grid takes the code of its first containment (R452). -/
def State.gridContained (s : State) (part grid code : Nat) : State :=
  s.updPart part (fun p => { p with grids := match sget none p.grids grid with
    | some x => sset none p.grids grid (some { x with contained := match x.contained with
        | some c => some c
        | none => some code })
    | none => p.grids })

/-- A queue goes to ERROR with a code in LASTSTAT (R379, R381). -/
def State.queueError (s : State) (vf q code : Nat) : State :=
  s.updQcb vf q (fun b => { b with half := setBits (setBits b.half 383 381 4) 380 373 code })

/-! ### Containment of a workgroup (R451) -/

/-- Whether what the waves of a contained workgroup issued before they stopped is still under way (R451 step 3). -/
def State.containBusy (s : State) (core i : Nat) (g : Workgroup) : Bool :=
  let c := s.core core
  g.channels.any (fun h => decide (h.2.todo ≠ [])) || c.cmds.any (fun k => decide (k.wg = i)) ||
    (s.wavesOf core i).any (fun e => (e.2.fills s g).any (fun (f : Flight) => match f.op with
      | .acquire _ _ _ _ _ phase _ _ => decide (phase ≠ 1)
      | _ => true)) ||
    g.appended.any (fun a => match s.chainOf g.part g.vf a.1 with
      | some x => !x.stopped && !wrapGe (s.chainSeqWord g.part g.vf a.1) a.2
      | none => false)

/-- Take a workgroup's waves off their core. -/
def State.dropWaves (s : State) (core i : Nat) : State :=
  let ws := s.wavesOf core i
  let leave := fun (c : Core) (e : WaveId × Wave) =>
    let held := decide (sget none c.token e.1.sched = some e.1.slot)
    { (c.dropLines (waveKey e.1) (fun _ => true)) with
      waves := sset none c.waves (waveKey e.1) none
      token := if held then sset none c.token e.1.sched none else c.token
      row := if held then sset 0 c.row e.1.sched 0 else c.row }
  let s := s.updCore core (fun c => ws.foldl leave { c with rests := c.rests.filter (fun r => decide (r.1 ≠ i)) })
  (List.range 4).foldl (fun (s : State) n => s.rebalance core n) s

/-- Whether responders run or wait on a workgroup's tiles. -/
def State.tileBusy (s : State) (core i : Nat) : Bool :=
  ((s.core core).waveList core).any (fun e => decide (e.2.wg = i) && e.2.resp.isSome) ||
    (s.core core).spawns.any (fun x => decide (x.tile.wg = i))

/-- A contained workgroup goes through the steps of R451 as far as it can: its waves stop at precise points, what they issued
completes, its directory entries are deleted, its cells POISONED, its allocations released, and its record posted. -/
def State.evContain (s : State) (core i : Nat) : State :=
  match s.wg core i with
  | none => s
  | some g => match g.contained with
    | none => s
    | some r =>
      if !(s.wavesOf core i).all (fun e => e.2.precise) then s
      else
        let s := (s.wavesOf core i).foldl (fun (s : State) e => s.updWave e.1 (fun w => { w with
          slice := none
          ladderFail := none })) s
        let s := s.cancelMoves g.part core i
        if s.containBusy core i g then s
        else
          let mine := (s.core core).dirs.filter (fun d => decide (d.2.wg = i) && decide (d.2.state ≠ .free))
          let s := mine.foldl (fun (s : State) d => if d.2.state = .valid then s.sendDelete g.part core d.1 else s) s
          if mine ≠ [] ∨ s.tileBusy core i = true then s
          else
            let s := s.poisonHeld (wgIdents g.vf ((s.wavesOf core i).map (fun e => e.2)))
            let s := (s.dropPriv core false g.records).dropWaves core i
            let s := (s.gridContained g.part g.grid (bitsN r 511 504)).removeWg core i g
            s.postRecord g.vf r

/-- WORKGROUP_CONTAINMENT (R451). -/
def execWorkgroupContainment (core wg : Nat) (s : State) : Host.Outcome State Fault Refusal := .next (s.evContain core wg)

/-- A saved workgroup is contained, from step 4 of R451 on, with a record. -/
def State.containSaved (s : State) (part : Nat) (x : Saved) (r : FaultRecord) : State :=
  let g := x.wg
  let s := s.poisonHeld (wgIdents g.vf x.waves)
  let s := s.updPart part (fun p => { p with
    saved := p.saved.erase x
    grids := match sget none p.grids g.grid with
      | some y => sset none p.grids g.grid (some { y with done := y.done + 1, placed := y.placed - 1 })
      | none => p.grids })
  (s.gridContained part g.grid r.code).postRecord g.vf r.bits

/-! ### Records at the firmware (R449, R450, R508) -/

/-- The partition that a function is a tenant of. -/
def State.partOfVf (s : State) (vf : Nat) : Option Nat := (s.parts.find? (fun p => p.2.tenants.contains vf)).map (fun p => p.1)

/-- Whether the active firmware complex works (R393, R510). -/
def State.complexUp (s : State) : Bool := s.powered && (if s.activeB then s.complexB.ok else s.complexA.ok)

/-- The oldest posted record reaches the firmware: it is listed with LOST and signalled on vector 66, or counted as dropped; a
fault-kind trigger follows where bit 4 of the mask is set (R450, R508). -/
def State.evRecordPost (s : State) : State :=
  match s.postings with
  | [] => s
  | p :: rest =>
    if !s.complexUp then s else
    let s := { s with postings := rest }
    let s := s.updFunc p.vf (fun f =>
      if 256 ≤ f.records.length then { f with lost := min (f.lost + 1) 65535 }
      else { f with
        records := f.records ++ [setBits p.bits 130 115 f.lost]
        lost := 0
        pba := sset false f.pba 66 true })
    match s.partOfVf p.vf with
    | some n => s.faultTrigger n 4 (bitsN p.bits 511 504)
    | none => s

/-- FAULT_RECORD_POST (R450). -/
def execFaultRecordPost (s : State) : Host.Outcome State Fault Refusal := .next s.evRecordPost

/-! ### Asynchronous events (R405) -/

/-- An event of CODE and DATA at a time. -/
def eventBits (code data time : Nat) : BitVec 128 := BitVec.ofNat 128 (data % 2 ^ 64 * 2 ^ 64 + code % 256 * 2 ^ 56 + time % 2 ^ 56)

/-- Post an event to a function; a full list drops it, and the next one accepted is preceded by the number dropped. -/
def State.postEvent (s : State) (vf code data time : Nat) : State :=
  s.updFunc vf (fun f =>
    let lost := if f.eventsLost = 0 then [] else [eventBits 0 f.eventsLost time]
    if 64 < f.events.length + lost.length + 1 then { f with eventsLost := f.eventsLost + 1 }
    else { f with
      events := f.events ++ lost ++ [eventBits code data time]
      eventsLost := 0
      pba := sset false f.pba 64 true })

/-! ### The kill of a context (R491 to R495) -/

/-- The pages whose refused maps the waves of a context wait for, resident or saved (R480). -/
def State.parkedPages (s : State) (vf : Nat) (keep : Nat → Bool) : List Nat :=
  let page := fun (w : Wave) => match w.walk with
    | some h => if h.demand then [h.va / 65536 * 65536] else []
    | none => []
  dedup (s.cores.flatMap (fun c => c.2.waves.flatMap (fun e => match e.2 with
      | some w => match sget none c.2.wgs w.wg with
        | some g => if g.vf = vf ∧ keep g.ctx = true then page w else []
        | none => []
      | none => [])) ++
    s.parts.flatMap (fun p => p.2.saved.flatMap (fun x => if x.wg.vf = vf ∧ keep x.wg.ctx = true then x.waves.flatMap page else [])))

/-- The quota events of pages that only a killed context waited for are withdrawn (R405, R498). -/
def State.withdrawQuota (s : State) (part vf : Nat) (pages : List Nat) : State :=
  let gone := ((s.func vf).quota.filter (fun e => pages.contains e.va && !e.answered)).map (fun e => e.va)
  let s := s.updFunc vf (fun f => { f with quota := f.quota.filter (fun e => !pages.contains e.va) })
  gone.foldl (fun (s : State) va => s.postEvent vf 0x03 va (s.pclk part)) s

/-- The responders and spawns of a context on a core are discarded; their census takes the identity for them. -/
def State.killResponders (s : State) (core ctx : Nat) : State :=
  let mine := (s.core core).spawns.filter (fun x => decide (x.tile.ctx = ctx))
  let s := s.updCore core (fun c => { c with spawns := c.spawns.filter (fun x => decide (x.tile.ctx ≠ ctx)) })
  let s := mine.foldl (fun (s : State) x =>
    (s.updPlace x.part x.place (fun p => { p with
      responses := p.responses ++ [(core, x.entry, p.identity)]
      waiting := sset 0 p.waiting core (sget 0 p.waiting core - 1) })).coreAnswer x.part x.place core) s
  ((s.core core).waveList core).foldl (fun (s : State) e => match e.2.resp with
    | some r => if (s.place r.part r.place).ctx = ctx then s.responderEnd e.1 r (s.place r.part r.place).identity else s
    | none => s) s

/-- A core stops the waves of a context at once: they go with all that they had under way, and the words that the context left
dirty in the L1 are discarded (R491 step 1, R492). -/
def State.killOnCore (s : State) (part core ctx : Nat) : State :=
  let gs := (s.core core).wgs.filterMap (fun e => match e.2 with
    | some g => if g.ctx = ctx then some (e.1, g) else none
    | none => none)
  let is := gs.map (fun e => e.1)
  let dirty := (s.core core).l1.any (fun e => decide (e.2.dirty ≠ 0#4) && decide (e.2.ctx = ctx))
  if is = [] ∧ dirty = false then s
  else
    let s := if (s.core core).dirs.any (fun d => decide (d.2.ctx = ctx)) then s.rootCatchUp part core else s
    let s := s.killResponders core ctx
    let s := gs.foldl (fun (s : State) e => (s.dropPriv core false e.2.records).dropWaves core e.1) s
    let discard := fun (w : L1Word) => if w.dirty ≠ 0#4 ∧ w.ctx = ctx then { w with
      dirty := 0#4
      present := w.present &&& ~~~w.dirty } else w
    s.updCore core (fun c => { c with
      wgs := is.foldl (fun m i => sset none m i none) c.wgs
      cmds := c.cmds.filter (fun k => !is.contains k.wg)
      smp := c.smp.filter (fun e => !is.contains e.2.tag || decide (e.2.state = .free))
      dirs := c.dirs.filter (fun d => decide (d.2.ctx ≠ ctx))
      l1 := (skeys c.l1).foldl (fun m k => sset L1Word.absent m k (discard (sget L1Word.absent m k))) c.l1 })

/-- The context's objects and regions are FREE (R318, R326). An object whose revocation runs stays out of use until it ends. -/
def State.killObjects (s : State) (part ctx : Nat) : State :=
  let p := s.part part
  let s := p.objects.foldl (fun (s : State) o =>
    if o.2.owner = ctx ∧ o.2.state ≠ .free then
      (if o.2.inFlight then s else s.unwatch part o.1).updObject part o.1 (fun x => { AsmObject.empty with inFlight := x.inFlight })
    else s) s
  p.regions.foldl (fun (s : State) r =>
    if r.2.owner = ctx ∧ r.2.state ≠ .free then s.updRegion part r.1 (fun x => { Region.empty with gen := x.gen }) else s) s

/-- Kill a context (R491): the steps at once, with the record where `report` says so. -/
def State.killCtx (s : State) (part ctx code detail xinfo : Nat) (report : Bool) : State :=
  let p := s.part part
  let vf := ctxVf ctx
  let q := ctxQueue ctx
  let res := p.cores.flatMap (fun n => ((s.core n).waveList n).filterMap (fun e => match s.wg n e.2.wg with
    | some g => if g.ctx = ctx ∧ e.2.resp.isNone = true then some (waveIdent vf e.2) else none
    | none => none))
  let sav := p.saved.flatMap (fun x => if x.wg.ctx = ctx then wgIdents vf x.waves else [])
  let others := s.parkedPages vf (fun c => decide (c ≠ ctx))
  let pages := (s.parkedPages vf (fun c => decide (c = ctx))).filter (fun a => !others.contains a)
  let s := p.cores.foldl (fun (s : State) n => s.killOnCore part n ctx) s
  let s := { s with heldWrites := s.heldWrites.map (fun (h : HeldWrite) => if h.ctx = ctx then { h with discard := true } else h) }
  let s := s.poisonHeld (res ++ sav)
  let s := s.cells.foldl (fun (s : State) (c : Nat × CellHome) => if c.2.holder.isSome ∧ (s.cellWord c.1).1 = ctx then s.poisonCell c.1 else s) s
  let s := s.killObjects part ctx
  let dead := p.grids.filterMap (fun e => match e.2 with
    | some x => if x.vf = vf ∧ x.queue = q then some e.1 else none
    | none => none)
  let s := s.updPart part (fun p => { p with
    saved := p.saved.filter (fun x => decide (x.wg.ctx ≠ ctx))
    solicits := p.solicits.filter (fun r => decide (r.place.ctx ≠ ctx))
    grids := dead.foldl (fun m n => sset none m n none) p.grids
    tcbs := (p.tcbs.map (fun (t : Nat × List Tcb) => (t.1, t.2.filter (fun b => !dead.contains b.grid)))).filter (fun t => decide (t.2 ≠ [])) })
  let s := (s.updQcb vf q (fun b => { b with
    started := []
    dispatching := none
    waited := false
    drain := [] })).queueError vf q code
  let s := s.withdrawQuota part vf pages
  if report then s.postRecord vf { plainRecord code 4 3 detail ctx vf xinfo (s.pclk part) with queue := q }.bits else s

/-- A context that has a queue. -/
def State.ctxPart (s : State) (ctx : Nat) : Option Nat := if ctx = 0 then none else s.partOfVf (ctxVf ctx)

/-- CONTEXT_KILL (R491). -/
def execContextKill (ctx code : Nat) (s : State) : Host.Outcome State Fault Refusal :=
  .next (match s.ctxPart ctx with
    | some part => s.killCtx part ctx code 0 0 true
    | none => s)

/-! ### Restores by the scheduler (R66, R461) -/

/-- The PC a failing record's fault record carries: the saved PC of its lowest unexited lane. -/
def Wave.lowestPc (w : Wave) : Nat := (optD ((lanes.filter (fun l => !w.exited.getLsbD l)).head?.map (fun l => w.pcOf l)) 0#32).toNat

/-- A saved workgroup is restored onto a core: in its function's slice, on a core of its partition that no pre-emption holds. A
record that fails a check contains the workgroup with its ensemble instead (R60, R66, R461, R476). -/
def State.evRestore (s : State) (part index core : Nat) : State :=
  let p := s.part part
  match p.saved.drop index with
  | [] => s
  | x :: _ =>
    let turn := match p.slice with
      | some (vf, _) => decide (vf = x.wg.vf) && p.grace.isNone
      | none => true
    if !turn || !x.live || !p.cores.contains core || (s.core core).preempt.isSome then s
    else match s.restore part x core with
      | .done s => s
      | .status 4 =>
        let all := p.saved.filter (fun y => decide (y = x) || (decide (1 < x.wg.ensSize) && decide (y.wg.ensId = x.wg.ensId)))
        let pc := optD ((all.flatMap (fun y => y.waves.filter (fun w => !s.recordOk y.wg w))).head?.map (fun w => w.lowestPc)) 0
        all.foldl (fun (s : State) y => s.containSaved part y { s.wgRecord core y.wg 4 0x16 0 0 0 with pc := pc }) s
      | _ => s

/-- CONTEXT_RESTORE (R461). -/
def execContextRestore (part saved core : Nat) (s : State) : Host.Outcome State Fault Refusal :=
  .next (s.evRestore part saved core)

end Sys2Proof.Machine
end

