-- ==== Sys2Proof/Machine/Launch.lean ====
section
/-!
DEFINITION. Queues, packets and dispatch: notification, the packet types, the refusal of a LAUNCH, signals and waits, MAP and
UNMAP, placement, placers and stealing, and the completion of a grid (spec 15 R377 to R390; 02 R67 to R72; 24 R486, R488).
-/

namespace Sys2Proof.Machine

/-! ### Queue control blocks (R378 to R381) -/

/-- WRITE. -/
def Qcb.write (b : Qcb) : Nat := bitsN b.half 511 480
/-- READ. -/
def Qcb.read (b : Qcb) : Nat := bitsN b.half 479 448
/-- DONE. -/
def Qcb.done (b : Qcb) : Nat := bitsN b.half 447 384
/-- STATE: 0 IDLE, 1 ACTIVE, 2 WAITING, 3 STOPPED, 4 ERROR. -/
def Qcb.state (b : Qcb) : Nat := bitsN b.half 383 381
/-- STATE replaced. -/
def Qcb.setState (b : Qcb) (x : Nat) : Qcb := { b with half := setBits b.half 383 381 x }
/-- Packets taken and not retired, or not yet taken. -/
def Qcb.pending (b : Qcb) : Bool := decide (b.started ≠ []) || decide (b.read ≠ b.write)
/-- Every packet taken has retired. -/
def Qcb.allRetired (b : Qcb) : Bool := decide (b.started = [])

/-- IDLE or ACTIVE as the packets are (R381). -/
def Qcb.settle (b : Qcb) : Qcb :=
  if b.state = 0 ∨ b.state = 1 then b.setState (if b.started = [] ∧ b.read = b.write then 0 else if b.started = [] then b.state else 1)
  else b

/-- Retire the complete packets at the head, in ring order: DONE and LASTPKT advance, and the queue's vector fires on NOTIFY
(R382, R398). `n` bounds the packets. -/
def State.retirePackets (s : State) (vf q : Nat) : Nat → State
  | 0 => s
  | n + 1 =>
    let b := s.qcb vf q
    match b.started with
    | x :: rest =>
      if x.complete then
        let s := s.updQcb vf q (fun b => { b with
          half := setBits (setBits b.half 447 384 (b.done + 1)) 372 341 x.packet
          started := rest }.settle)
        let s := if x.notify then s.updFunc vf (fun f => { f with pba := sset false f.pba q true }) else s
        s.retirePackets vf q n
      else s
    | [] => s

/-- Every complete packet at the head of a queue retires. -/
def State.retire' (s : State) (vf q : Nat) : State := s.retirePackets vf q (s.qcb vf q).started.length

/-- A packet's work is complete. -/
def State.packetDone (s : State) (vf q packet : Nat) : State :=
  (s.updQcb vf q (fun b => { b with
    started := b.started.map (fun x => if x.packet = packet then { x with complete := true } else x) })).retire' vf q

/-! ### The dispatcher's choice (R388) -/

/-- Whether a function may be served in a partition now: slicing is off, or it holds the slice and no grace period runs. -/
def Part.serves (p : Part) (vf : Nat) : Bool := match p.slice with
  | some (f, _) => decide (f = vf) && p.grace.isNone
  | none => true

/-- The virtual address of a queue's next packet in its ring (R380). -/
def Qcb.nextAt (b : Qcb) : Nat := bitsN b.hyp 1023 960 + 128 * (b.read % 2 ^ bitsN b.hyp 511 507)

/-- The next packet of a queue, read at its ring's virtual address (R380, R488). -/
def State.readPacket (s : State) (part vf q : Nat) : Except (Nat × Nat) (BitVec 1024) :=
  match s.readVa vf part (s.qcb vf q).nextAt 128 with
  | .ok bs => .ok (BitVec.ofNat 1024 (natOfBytes bs))
  | .error e => .error e

/-- TYPE of a packet. -/
def pktType (p : BitVec 1024) : Nat := bitsN p 7 0

/-- Whether a packet's header is one R382 lists. -/
def headerOk (p : BitVec 1024) : Bool :=
  decide (1 ≤ pktType p ∧ pktType p ≤ 6) && decide (bitsN p 31 10 = 0) &&
    (!p.getLsbD 9 || decide (pktType p = 2) || decide (pktType p = 3))

/-- Whether a queue's next packet could be taken (R381, R382). -/
def State.packetReady (s : State) (part vf q : Nat) : Bool :=
  let b := s.qcb vf q
  b.hyp.getLsbD 486 && decide (b.state ≤ 1) && decide (b.read ≠ b.write) &&
    (match s.readPacket part vf q with
      | .error _ => true
      | .ok p => if !headerOk p then true
        else if pktType p = 2 then b.dispatching.isNone && (!p.getLsbD 8 || b.allRetired)
        else b.allRetired)

/-- Whether a queue has a packet that the dispatcher can start (R381, R382, R388). -/
def State.startable (s : State) (part vf q : Nat) : Bool :=
  s.packetReady part vf q && (s.part part).serves vf &&
    (match (s.part part).health with
      | .serving => true
      | .contained _ => false)

/-- PRIO of a queue. -/
def State.prio (s : State) (vf q : Nat) : Nat := bitsN (s.qcb vf q).hyp 506 504

/-- The queue a partition's dispatcher takes a packet from: the highest PRIO, then round robin of (VF, QUEUE) (R388). -/
def State.pickQueue (s : State) (part : Nat) : Option (Nat × Nat) :=
  let p := s.part part
  let vfs := (List.range 97).filter (fun v => p.tenants.contains v)
  let all := (vfs.flatMap (fun v => (s.func v).queues.map (fun q => (v, q.1)))).filter (fun x => s.startable part x.1 x.2)
  let best := (all.map (fun x => s.prio x.1 x.2)).foldl max 0
  let top := all.filter (fun x => decide (s.prio x.1 x.2 = best))
  (top.filter (fun x => decide (p.rrQueue ≤ 64 * x.1 + x.2)) ++ top).head?

/-- A packet is refused: STATE ERROR with the code, and a record of KIND 2 (R384, R488). -/
def State.refusePacket (s : State) (part vf q : Nat) (code detail xinfo : Nat) : State :=
  let k := (s.qcb vf q).read
  let s := (s.updQcb vf q (fun b => { b with
    half := setBits (setBits b.half 479 448 (k + 1)) 372 341 k
    started := b.started ++ [⟨k, 0#1024, none, false, false⟩] })).queueError vf q code
  s.postRecord vf { plainRecord code 2 3 detail (ctxOf vf q) vf xinfo (s.pclk part) with pc := k }.bits

/-- The dispatcher takes the next packet of a queue where it is the queue's turn and the packet has the type the step names; `f`
acts on the packet once its page's A bit is set (R103, R380, R382). A ring that cannot be read sets ERROR (R488). -/
def State.takePacket (s : State) (vf q type : Nat) (f : Nat → Nat → BitVec 1024 → State → State) : State :=
  match s.partOfVf vf with
  | none => s
  | some part =>
    if s.pickQueue part ≠ some (vf, q) then s
    else
      let k := (s.qcb vf q).read
      match s.readPacket part vf q with
      | .error (code, _) => (s.updQcb vf q (fun b => { b with half := setBits b.half 372 341 k })).queueError vf q code
      | .ok p =>
        if !headerOk p then s.refusePacket part vf q 0x16 0 0
        else if pktType p ≠ type then s
        else
          let s := (s.touchLeaf vf (s.qcb vf q).nextAt false).updPart part (fun p => { p with rrQueue := 64 * vf + q + 1 })
          f part k p s

/-- READ passes a packet, which is now under way. -/
def State.begin' (s : State) (vf q k : Nat) (p : BitVec 1024) (grid : Option Nat) (notify : Bool) : State :=
  s.updQcb vf q (fun b => { b with
    half := setBits (setBits b.half 479 448 (k + 1)) 383 381 1
    started := b.started ++ [⟨k, p, grid, false, notify⟩] })

/-- WRITE registers and the dispatcher is notified; more packets than the ring holds set ERROR (R380). -/
def State.evWriteNotify (s : State) (vf queue : Nat) (write : Word) : State :=
  let s := s.updQcb vf queue (fun b => { b with half := setBits b.half 511 480 write.toNat })
  let b := s.qcb vf queue
  if 2 ^ bitsN b.hyp 511 507 < (b.write + 2 ^ 32 - b.read) % 2 ^ 32 ∧ b.state ≠ 4 ∧ b.hyp.getLsbD 486 = true
    then s.queueError vf queue 0x16 else s

/-- QUEUE_WRITE_NOTIFY (R380). -/
def execQueueWriteNotify (vf queue : Nat) (write : Word) (s : State) : Host.Outcome State Fault Refusal :=
  .next (s.evWriteNotify vf queue write)

/-- NOP_PACKET (R382, R385). -/
def execNopPacket (vf queue : Nat) (s : State) : Host.Outcome State Fault Refusal :=
  .next (s.takePacket vf queue 1 (fun part k p s =>
    if bitsN p 1023 32 ≠ 0 then s.refusePacket part vf queue 0x16 0 0
    else (s.begin' vf queue k p none false).packetDone vf queue k))

/-! ### LAUNCH (R383, R384) -/

/-- The fields of a LAUNCH packet, with its bindings. -/
def launchOf (p : BitVec 1024) (segs : Sparse (BitVec 128)) (code : CodeObject) : Launch where
  qdepth := (List.range 16).map (fun n => bitsN p (438 + 7 * n) (432 + 7 * n))
  access := bitsN p 431 427
  tokens := bitsN p 426 424
  bars := bitsN p 423 419
  cbytes := 512 * bitsN p 418 409
  abytes := 512 * bitsN p 408 399
  wbytes := 512 * bitsN p 398 388
  spbytes := 512 * bitsN p 387 378
  privBytes := if bitsN p 377 366 = 0 then 16384 else 4 * bitsN p 377 366
  vregs := 8 * (bitsN p 365 361 + 1)
  ens := bitsN p 360 358
  waves := bitsN p 357 352
  cval := wd (bitsN p 351 320)
  cell := bitsN p 319 256
  gx := bitsN p 95 64
  gy := bitsN p 111 96
  gz := bitsN p 127 112
  entry := wd (bitsN p 63 32)
  segs := segs
  code := code

/-- The bindings of a table of 256 B. -/
def bindings (bs : List Byte) : List (BitVec 128) := (List.range 16).map (fun i => BitVec.ofNat 128 (natOfBytes ((bs.drop (16 * i)).take 16)))

/-- The template at SEGTMPL, an address in the function's space as every address of the dispatcher but those of hypervisor halves
(R101, R488). Log 29. -/
def State.readTemplate (s : State) (part vf q : Nat) : Except (Nat × Nat) (List Byte) :=
  s.readVa vf part (bitsN (s.qcb vf q).hyp 703 640) 256

/-- Whether the `g15` binding breaks R77: no EXE, or a BASE that is no multiple of 8 B. -/
def codeBindFail (n : Nat) (g : BitVec 128) : Bool := decide (n = 15) && (!g.getLsbD 124 || decide (segBase g % 8 ≠ 0))

/-- A binding lies within its template binding. -/
def bindingWithin (g t : BitVec 128) : Bool :=
  !segValid g || (segValid t && (List.range 3).all (fun i => !g.getLsbD (124 + i) || t.getLsbD (124 + i)) &&
    decide (segBase t ≤ segBase g) && decide (segBase g + segLimit g ≤ segBase t + segLimit t))

/-- The first check that a LAUNCH fails: code, DETAIL and XINFO (R384). -/
def State.launchFail (s : State) (vf q : Nat) (p : BitVec 1024) (l : Launch) (gs ts : List (BitVec 128)) : Option (Nat × Nat × Nat) :=
  let missing := ((if l.ens ≠ 0 then [6] else []) ++ l.code.features).filter (fun n => !s.hasFeat vf n)
  if bitsN p 1023 544 ≠ 0 ∨ l.waves = 0 ∨ 32 < l.waves ∨ l.waves ≤ l.access ∨ (1 ≤ bitsN p 377 366 ∧ bitsN p 377 366 ≤ 3) ∨
      4 < l.tokens ∨ 16 < l.bars ∨ 262144 < l.cbytes ∨ 262144 < l.abytes ∨ 524288 < l.wbytes ∨ 262144 < l.spbytes ∨
      l.qdepth.any (fun d => decide (64 < d)) ∨ l.spbytes < 128 * l.qdepth.foldl (· + ·) 0 ∨
      gs.any (fun g => decide (bitsN g 123 120 ≠ 0)) then some (0x16, 0, 0)
  else if bitsN (s.qcb vf q).hyp 575 560 * 4096 < 1024 + 128 * l.vregs + 32 * l.privBytes then some (0x16, 0, 0)
  else if missing ≠ [] then some (0x04, 0, missing.foldl min 127)
  else if (gs.zip ts).any (fun x => !bindingWithin x.1 x.2) then some (0x0E, 0, 0)
  else ((List.range 16).zip gs).findSome? (fun x => match bindFail x.1 x.2 with
    | some (0x0A, _) => some (0x0A, 0, segBase x.2)
    | _ => if codeBindFail x.1 x.2 then some (0x0A, 0, segBase x.2) else none)

/-- Whether a partition of a duet does not accept a LAUNCH yet: the hashes of both queue rings' packets do not agree (R420). -/
def State.duetDiffers (s : State) (vf q : Nat) : Bool :=
  match s.partOfVf vf with
  | none => false
  | some part => (s.part part).duet.isSome && (match s.readVa vf part (s.qcb vf q).nextAt 128 with
      | .ok bs => decide (Config.sm3 bs ≠ Config.peerPacket vf q (s.qcb vf q).read)
      | .error _ => false)

/-- LAUNCH: the packet is checked and its grid goes into dispatch, or it is refused; in a duet it waits until both packages' packets agree
(R383, R384, R420). -/
def execLaunch (vf queue : Nat) (code : CodeObject) (s : State) : Host.Outcome State Fault Refusal :=
  .next (if s.duetDiffers vf queue then s else s.takePacket vf queue 2 (fun part k p s =>
    match s.readVa vf part (bitsN p 191 128) 256, s.readTemplate part vf queue with
    | .error (c, d), _ => s.refusePacket part vf queue c d (bitsN p 191 128)
    | _, .error (c, d) => s.refusePacket part vf queue c d (bitsN (s.qcb vf queue).hyp 703 640)
    | .ok bs, .ok ts =>
      let s := (s.touchLeaf vf (bitsN p 191 128) false).touchLeaf vf (bitsN (s.qcb vf queue).hyp 703 640) false
      let gs := bindings bs
      let gs := gs.set 0 (setBits (gs.headD 0#128) 59 0 (bitsN p 255 192))
      let segs := ssetList 0#128 [] 0 gs
      let l := launchOf p segs code
      match (if bitsN p 191 128 % 16 ≠ 0 then some (0x16, 0, 0) else s.launchFail vf queue p l gs (bindings ts)) with
      | some (c, d, x) => s.refusePacket part vf queue c d x
      | none =>
        let n := (s.part part).gridNum
        let s := s.updPart part (fun p => { p with
          gridNum := (n + 1) % 65536
          grids := sset none p.grids n (some
            { live := true
              vf := vf
              queue := queue
              packet := k
              seq := (s.qcb vf queue).gridSeq
              launch := l
              next := 0
              placed := 0
              done := 0
              contained := none
              signal := none }) })
        (s.begin' vf queue k p (some n) (p.getLsbD 9)).updQcb vf queue (fun b => { b with
          gridSeq := (b.gridSeq + 1) % 65536
          dispatching := if l.gx * l.gy * l.gz = 0 then none else some n })))

/-! ### Placement (R389, R390) -/

/-- The indices of a grid. -/
def Grid.total (g : Grid) : Nat := g.launch.gx * g.launch.gy * g.launch.gz

/-- What a workgroup of a launch needs of a core (R36). -/
def Launch.need (l : Launch) : Need := ⟨l.waves, l.spbytes, l.wbytes, l.abytes, l.cbytes, l.tokens, l.bars⟩

/-- The clusters of a partition, ascending. -/
def Part.clusters (p : Part) : List Nat := p.sectorList.flatMap (fun x => (List.range 8).map (fun i => 8 * x + i))

/-- The cores of a cluster with room for a workgroup, ascending; a core under hard pre-emption takes none. -/
def State.roomy (s : State) (cluster : Nat) (n : Need) : List Nat :=
  ((List.range 8).map (fun i => 8 * cluster + i)).filter (fun c => (s.core c).preempt.isNone && ((s.core c).room c n).isSome)

/-- The grid whose next index a partition's dispatcher places: of the highest priority, launched first (R389). -/
def State.pickGrid (s : State) (part : Nat) : Option (Nat × Grid) :=
  let p := s.part part
  let all := p.grids.filterMap (fun e => match e.2 with
    | some g => if (s.qcb g.vf g.queue).dispatching = some e.1 ∧ (s.qcb g.vf g.queue).state ≤ 2 ∧ p.serves g.vf = true ∧
        g.contained.isNone = true ∧ g.next < g.total then some (e.1, g) else none
    | none => none)
  let age := fun (n : Nat) => (p.gridNum + 65536 - n) % 65536
  all.foldl (fun acc x => match acc with
    | none => some x
    | some b =>
      let px := s.prio x.2.vf x.2.queue
      let pb := s.prio b.2.vf b.2.queue
      if pb < px ∨ (pb = px ∧ age b.1 < age x.1) then some x else acc) none

/-- A task control block (R71). LAUNCH holds the address of the packet's saved copy, which the manual does not give (log 30). -/
def tcbBits (s : State) (g : Grid) (rank : Nat) : BitVec 512 :=
  let l := g.launch
  let x := g.next % l.gx
  let y := g.next / l.gx % l.gy
  let z := g.next / l.gx / l.gy
  BitVec.ofNat 512 ((Config.packetCopy g.vf g.queue g.seq).toNat * 2 ^ 448 + x * 2 ^ 416 + y * 2 ^ 400 + z * 2 ^ 384 + g.seq % 65536 * 2 ^ 368 + g.queue * 2 ^ 362 +
    s.prio g.vf g.queue * 2 ^ 359 + rank * 2 ^ 356 + l.ens * 2 ^ 352)

/-! ### Cluster placers (R35, R67, R69, R70) -/

/-- The placer's order: descending priority, then launch order, then index and rank (R69). -/
def Part.tcbBefore (p : Part) (a b : Tcb) : Bool :=
  let prio := fun (t : Tcb) => bitsN t.bits 361 359
  let age := fun (t : Tcb) => (p.gridNum + 65536 - t.grid) % 65536
  if prio a ≠ prio b then decide (prio b < prio a)
  else if a.grid ≠ b.grid then decide (age b < age a)
  else if a.index ≠ b.index then decide (a.index < b.index)
  else decide (a.rank ≤ b.rank)

/-- A block put in its place among sorted blocks. -/
def Part.tcbInsert (p : Part) (x : Tcb) : List Tcb → List Tcb
  | [] => [x]
  | y :: ys => if p.tcbBefore x y then x :: y :: ys else y :: p.tcbInsert x ys

/-- The blocks of a placer in its order. -/
def Part.sortTcbs (p : Part) (l : List Tcb) : List Tcb := l.foldr (fun x acc => p.tcbInsert x acc) []

/-- The state of a wave as R67 places it. -/
def launchWave (l : Launch) (i wg record now : Nat) : Wave :=
  { Wave.fresh with
    wg := wg
    index := i
    record := record
    pcs := ssetList 0#32 [] 0 (List.replicate 32 l.entry)
    segs := l.segs
    zeros := BitVec.ofNat 256 (2 ^ l.vregs - 1)
    readySince := now
    resident := now }

/-- A workgroup as its launch declares it, in a room of a core. -/
def launchWg (s : State) (g : Grid) (t : Tcb) (part ens : Nat) (r : Room) (records : List Nat) : Workgroup :=
  let l := g.launch
  { ctx := ctxOf g.vf g.queue
    vf := g.vf
    part := part
    queue := g.queue
    grid := t.grid
    seq := g.seq
    wgx := t.index % l.gx
    wgy := t.index / l.gx % l.gy
    wgz := t.index / l.gx / l.gy
    waves := l.waves
    ensId := ens
    ensRank := t.rank
    ensSize := l.ens + 1
    prio := s.prio g.vf g.queue
    entry := l.entry
    access := l.access
    vregs := l.vregs
    privBytes := l.privBytes
    tokensDeclared := l.tokens
    tokensGranted := l.tokens
    bars := l.bars
    segs := l.segs
    sp := r.sp
    wb := r.wb
    ab := r.ab
    cb := r.cb
    queueArea := 128 * l.qdepth.foldl (· + ·) 0
    queues := ssetList DQueue.empty [] 0 (l.qdepth.map (fun d => { DQueue.empty with depth := d }))
    tiles := l.code.tiles.foldl (fun m x => sset none m x.1 (some (x.2.1, x.2.2))) []
    live := l.code.live
    barriers := []
    channels := []
    handles := []
    appended := []
    exitedWaves := 0#32
    records := records
    contained := none }

/-- Start one block on a core: its waves take their slots and the lowest free records, whose fixed part and private offsets 0 to
31 are written, and its declared registers' lines are marked zero; the core acquires the queue's implicit cell (R67, R380, R390). -/
def State.startTcb (s : State) (part core ens : Nat) (t : Tcb) : State :=
  match sget none (s.part part).grids t.grid with
  | none => s
  | some g => match (s.core core).room core g.launch.need, s.freeRecords g.vf part g.queue g.launch.waves with
    | some r, some records =>
      let wg := launchWg s g t part ens r records
      let ws := (List.range g.launch.waves).map (fun i => launchWave g.launch i r.wg (records.getD i 0) s.clk)
      let s := ((s.setWg core r.wg (some wg)).acquireAll core).dropGuests (fun sec _ => decide (sec = sectorOf core))
      let s := (r.ids.zip ws).foldl (fun (s : State) e =>
        let s := s.setWave e.1 (some e.2)
        let s := s.saveFixed wg e.2 false
        s.recordPut wg.vf part (e.2.record + 0x400 + 128 * wg.vregs) (List.replicate 1024 0#8)) s
      (List.range 4).foldl (fun (s : State) n => (List.range 8).foldl (fun (s : State) _ => s.rebalance core n) s) s
    | _, _ => s

/-- A placer starts its first block, or the ensemble it belongs to on distinct cores; later blocks wait behind it (R69). -/
def State.evPlacer (s : State) (cluster : Nat) : State :=
  match s.partOfSector (cluster / 8) with
  | none => s
  | some part =>
    let p := s.part part
    match p.sortTcbs (sget [] p.tcbs cluster) with
    | [] => s
    | t :: rest => match sget none p.grids t.grid with
      | none => s
      | some g =>
        let all := t :: rest.filter (fun x => decide (x.grid = t.grid) && decide (x.index = t.index))
        let cores := s.roomy cluster g.launch.need
        if !p.serves g.vf || decide (cores.length < all.length) ||
            (s.freeRecords g.vf part g.queue (g.launch.waves * all.length)).isNone then s
        else
          let ens := p.ensNum
          let s := s.updPart part (fun p => { p with
            ensNum := if 1 < all.length then p.ensNum + 1 else p.ensNum
            ensBarriers := p.ensBarriers.filter (fun b => decide (b.1 / 32 ≠ ens))
            tcbs := sset [] p.tcbs cluster ((sget [] p.tcbs cluster).filter (fun x => !all.contains x)) })
          (all.zip cores).foldl (fun (s : State) x => s.startTcb part x.2 ens x.1) s

/-- PLACER_START (R69). -/
def execPlacerStart (cluster : Nat) (s : State) : Host.Outcome State Fault Refusal := .next (s.evPlacer cluster)

/-! ### The dispatcher's walk (R389) -/

/-- The state once a placer has started every block it holds, if it can; `n` bounds the starts. -/
def State.allStarted (s : State) (part cluster : Nat) : Nat → Option State
  | 0 => none
  | n + 1 => if sget [] (s.part part).tcbs cluster = [] then some s
    else
      let t := s.evPlacer cluster
      if sget [] (t.part part).tcbs cluster = sget [] (s.part part).tcbs cluster then none else t.allStarted part cluster n

/-- Whether a cluster can take one index of a launch beside the blocks it holds already (R389). -/
def State.clusterTakes (s : State) (part cluster : Nat) (l : Launch) : Bool :=
  decide ((sget [] (s.part part).tcbs cluster).length + l.ens + 1 ≤ 16) &&
    (match s.allStarted part cluster 17 with
      | some t => decide (l.ens + 1 ≤ (t.roomy cluster l.need).length)
      | none => false)

/-- Waves of a queue whose blocks have not started. -/
def Part.unstarted (p : Part) (vf q : Nat) : Nat :=
  (p.tcbs.flatMap (fun e => e.2)).foldl (fun a t => match sget none p.grids t.grid with
    | some g => if g.vf = vf ∧ g.queue = q then a + g.launch.waves else a
    | none => a) 0

/-- The next index of the grid in dispatch goes to the first cluster from the pointer on that can take it, and its records must be
free (R389, R390). -/
def State.evDispatch (s : State) (part : Nat) : State :=
  match s.pickGrid part with
  | none => s
  | some (n, g) =>
    let p := s.part part
    let cs := p.clusters
    let order := cs.drop p.rrCluster ++ cs.take p.rrCluster
    if (s.freeRecords g.vf part g.queue (p.unstarted g.vf g.queue + g.launch.waves * (g.launch.ens + 1))).isNone then s
    else match order.find? (fun c => s.clusterTakes part c g.launch) with
      | none => s
      | some c =>
        let bs := (List.range (g.launch.ens + 1)).map (fun r => (⟨tcbBits s g r, n, g.next, r⟩ : Tcb))
        let s := s.updPart part (fun p => { p with
          rrCluster := ((cs.takeWhile (fun x => decide (x ≠ c))).length + 1) % cs.length
          tcbs := sset [] p.tcbs c (sget [] p.tcbs c ++ bs)
          grids := sset none p.grids n (some { g with
            next := g.next + 1
            placed := g.placed + g.launch.ens + 1 }) })
        if g.next + 1 = g.total then s.updQcb g.vf g.queue (fun b => { b with dispatching := none }) else s

/-- DISPATCH_INDEX (R389). -/
def execDispatchIndex (part : Nat) (s : State) : Host.Outcome State Fault Refusal := .next (s.evDispatch part)

/-- Whether a placer's first block can start now. -/
def State.placerReady (s : State) (part cluster : Nat) : Bool :=
  let p := s.part part
  match p.sortTcbs (sget [] p.tcbs cluster) with
  | [] => false
  | t :: rest => match sget none p.grids t.grid with
    | none => false
    | some g =>
      let n := (t :: rest.filter (fun x => decide (x.grid = t.grid) && decide (x.index = t.index))).length
      p.serves g.vf && decide (n ≤ (s.roomy cluster g.launch.need).length) &&
        (s.freeRecords g.vf part g.queue (g.launch.waves * n)).isSome

/-- The blocks a victim ships: its last ensemble, or its last up to four plain workgroups (R70). -/
def Part.shipped (p : Part) (l : List Tcb) : List Tcb :=
  let sorted := p.sortTcbs l
  match sorted.reverse with
  | [] => []
  | t :: _ =>
    if bitsN t.bits 355 352 ≠ 0 then sorted.filter (fun x => decide (x.grid = t.grid) && decide (x.index = t.index))
    else ((sorted.reverse.takeWhile (fun x => decide (bitsN x.bits 355 352 = 0))).take 4).reverse

/-- A placer without a startable block takes blocks of the next cluster of the ring that has any (R70). -/
def State.evSteal (s : State) (cluster : Nat) : State :=
  match s.partOfSector (cluster / 8) with
  | none => s
  | some part =>
    let p := s.part part
    if s.placerReady part cluster || p.duet.isSome then s
    else
      let cs := p.clusters
      let after := (cs.dropWhile (fun c => decide (c ≠ cluster))).drop 1 ++ cs.takeWhile (fun c => decide (c ≠ cluster))
      match after.find? (fun c => decide (sget [] p.tcbs c ≠ [])) with
      | none => s
      | some v =>
        let x := p.shipped (sget [] p.tcbs v)
        if 16 < (sget [] p.tcbs cluster).length + x.length then s
        else s.updPart part (fun p =>
          let m := sset [] p.tcbs v ((sget [] p.tcbs v).filter (fun t => !x.contains t))
          { p with tcbs := sset [] m cluster (sget [] m cluster ++ x) })

/-- STEAL_REQUEST (R70). -/
def execStealRequest (cluster : Nat) (s : State) : Host.Outcome State Fault Refusal := .next (s.evSteal cluster)

/-! ### Signals and waits (R385, R386) -/

/-- The physical address of a function's cell, for the dispatcher or an engine. -/
def State.cellAt (s : State) (part vf va : Nat) : Except (Nat × Nat) Nat :=
  if va % 8 ≠ 0 then .error (0x0C, 0)
  else match s.engineTranslate vf part va .sync with
    | .ok pa _ => .ok pa
    | .bad c d => .error (c, d)
    | _ => .error (0x0D, 4)

/-- The outcome of a signal: performed, a held word to wait for, or a code. -/
inductive SignalRes where
  | done (s : State)
  | wait
  | bad (code detail : Nat)

/-- A signal: COUNT is written, or VALUE added, in one update at the cell's home, where a watch may hold it, HOLDER unchanged; a POISONED
cell drops it (R322, R386). -/
def State.signal (s : State) (part vf va op value : Nat) : SignalRes :=
  match s.cellAt part vf va with
  | .error (c, d) => .bad c d
  | .ok pa =>
    let (holder, _, count) := s.cellWord pa
    if s.heldAt pa 8 then .wait
    else if holder = 0xFFFF then .bad 0x10 3
    else .done ((s.touchLeaf vf va true).engineWrite (ctxOf vf 0) pa (bytesOfNat (if op = 0 then value else (count + value) % 2 ^ 32) 4))

/-- Whether the condition of a WAIT holds for a COUNT (R385). -/
def waitHolds (cond count value : Nat) : Bool := if cond = 0 then wrapGe count value else decide (count = value)

/-- The cell of a function's signal, for the wait until its update is released. -/
def State.cellOf (s : State) (part vf va : Nat) : Nat := match s.cellAt part vf va with
  | .ok pa => pa
  | .error _ => 0

/-- The type of the packet that a queue waits for until its registrations are released, if it waits. -/
def Qcb.drainType (b : Qcb) : Option Nat := match b.drain, b.started with
  | _ :: _, x :: _ => some (pktType x.bits)
  | _, _ => none

/-- The oldest packet of a queue completes once its registrations are released and `quiet` holds. -/
def State.drained (s : State) (vf queue : Nat) (quiet : Bool) : State :=
  let b := s.qcb vf queue
  match b.started with
  | x :: _ => if b.drain.all (fun r => !s.heldAt r.1 r.2) && quiet then
      (s.updQcb vf queue (fun b => { b with drain := [] })).packetDone vf queue x.packet else s
  | [] => s

/-- SIGNAL_PACKET (R385, R386): a signal that cannot be performed retires with ERROR; one whose update a watch holds retires after its
release. -/
def execSignalPacket (vf queue : Nat) (s : State) : Host.Outcome State Fault Refusal :=
  .next (if (s.qcb vf queue).drainType = some 3 then s.drained vf queue true
    else s.takePacket vf queue 3 (fun part k p s =>
    let op := bitsN p 129 128
    let va := bitsN p 95 32
    if bitsN p 1023 130 ≠ 0 ∨ 1 < op then s.refusePacket part vf queue 0x16 0 0
    else match s.signal part vf va op (bitsN p 127 96) with
      | .wait => s
      | .done t =>
        let t := t.begin' vf queue k p none (p.getLsbD 9)
        if t.heldAt (s.cellOf part vf va) 4 then t.updQcb vf queue (fun b => { b with drain := [(s.cellOf part vf va, 4)] })
        else t.packetDone vf queue k
      | .bad 0x10 3 => ((s.begin' vf queue k p none (p.getLsbD 9)).packetDone vf queue k).queueError vf queue 0x10
      | .bad c d => s.refusePacket part vf queue c d va))

/-- The WAIT of a queue as it stands: its cell's COUNT meets the condition. -/
def State.waitMet (s : State) (part vf : Nat) (p : BitVec 1024) : Except (Nat × Nat) Bool :=
  match s.cellAt part vf (bitsN p 95 32) with
  | .error e => .error e
  | .ok pa => .ok (waitHolds (bitsN p 129 128) (s.cellWord pa).2.2 (bitsN p 127 96))

/-- A queue that waits looks at its cell again, and returns to ACTIVE when the condition holds (R381, R386). -/
def State.rewait (s : State) (vf q : Nat) : State :=
  match s.partOfVf vf with
  | none => s
  | some part =>
    let b := s.qcb vf q
    match b.started with
    | x :: _ => match s.waitMet part vf x.bits with
      | .ok true => (s.updQcb vf q (fun b => { b.setState 1 with waited := false })).packetDone vf q x.packet
      | .ok false => s
      | .error (c, _) => s.queueError vf q c
    | [] => s

/-- WAIT_PACKET (R385, R386). -/
def execWaitPacket (vf queue : Nat) (s : State) : Host.Outcome State Fault Refusal :=
  .next (if (s.qcb vf queue).state = 2 then s.rewait vf queue
    else s.takePacket vf queue 4 (fun part k p s =>
      if bitsN p 1023 130 ≠ 0 ∨ 1 < bitsN p 129 128 then s.refusePacket part vf queue 0x16 0 0
      else match s.waitMet part vf p with
        | .error (c, d) => s.refusePacket part vf queue c d (bitsN p 95 32)
        | .ok true => ((s.touchLeaf vf (bitsN p 95 32) false).begin' vf queue k p none false).packetDone vf queue k
        | .ok false => ((s.touchLeaf vf (bitsN p 95 32) false).begin' vf queue k p none false).updQcb vf queue (fun b => { b.setState 2 with waited := true })))

/-! ### MAP and UNMAP (R387) -/

/-- Bytes, level, leaves and CONTIG of a page of a SIZE code (R101, R103). -/
def pageShape (size : Nat) : Nat × Nat × Nat × Nat :=
  let level := size / 3
  let n := if size % 3 = 0 then 1 else if size % 3 = 1 then 16 else 256
  (n * 2 ^ (12 * (level + 1)), level, n, size % 3)

/-- The address of the first leaf of a page at a level, where the tables reach that level. -/
def State.leafAt (s : State) (vf va level : Nat) : Option Nat :=
  let rec go (table : Nat) : List Nat → Option Nat
    | [] => some (table + 8 * (va / 2 ^ (12 * (level + 1)) % 4096))
    | l :: rest => match s.readPte (table + 8 * (va / 2 ^ (12 * (l + 1)) % 4096)) with
      | none => none
      | some e => if pteV e && !pteLeaf e then go (ptePa e) rest else none
  go (s.rootOf vf) ([3, 2, 1].filter (fun l => decide (level < l)))

/-- Whether firmware serves: its active complex works and the package is not contained (R387, R511). -/
def State.firmware (s : State) : Bool := s.complexUp && !s.packageContained

/-- Whether a physical range lies in a range granted to a function (R404). -/
def Func.granted (f : Func) (pa len : Nat) : Bool := f.grants.any (fun g => decide (g.1 ≤ pa) && decide (pa + len ≤ g.1 + g.2))

/-- The leaf a MAP writes for a page. -/
def mapLeaf (p : BitVec 1024) (contig pa : Nat) : Nat :=
  let bit := fun (i n : Nat) => if p.getLsbD i then 2 ^ n else 0
  let grow := p.getLsbD 195
  bitsN p 197 196 * 2 ^ 56 + (if grow then 0 else pa / 4096 * 4096) + bit 195 11 + bit 202 10 + contig * 2 ^ 8 + bit 201 5 + bit 200 4 +
    bit 199 3 + bit 198 2 + 2 + (if grow then 0 else 1)

/-- MAP (R387, R385): every check precedes the first leaf written. A missing table refuses it with TRANSLATION (log 31). -/
def execMapPacket (vf queue : Nat) (s : State) : Host.Outcome State Fault Refusal :=
  .next (if !s.firmware then s else s.takePacket vf queue 5 (fun part k p s =>
    let va := bitsN p 95 32
    let count := bitsN p 127 96
    let pa := bitsN p 191 128
    let size := bitsN p 194 192
    let (bytes, level, n, contig) := pageShape size
    let grow := p.getLsbD 195
    if bitsN p 1023 203 ≠ 0 ∨ size = 7 ∨ bitsN p 197 196 = 3 ∨ va % bytes ≠ 0 ∨ (grow = true ∧ pa ≠ 0) ∨ pa % bytes ≠ 0 then
      s.refusePacket part vf queue 0x16 0 0
    else
      let pages := (List.range count).map (fun i => (va + i * bytes, pa + i * bytes))
      if grow = false ∧ pages.any (fun x => !(s.func vf).granted x.2 bytes) then s.refusePacket part vf queue 0x0E 0 pa
      else
        let leaves := pages.map (fun x => (x, s.leafAt vf x.1 level))
        let bad := leaves.find? (fun x => match x.2 with
          | none => true
          | some a => (List.range n).any (fun i => match s.readPte (a + 8 * i) with
            | some e => pteV e
            | none => true))
        match bad with
        | some x => s.refusePacket part vf queue 0x0D (if x.2.isNone then 2 else 4) x.1.1
        | none =>
          let s := leaves.foldl (fun (s : State) x => match x.2 with
            | some a => s.engineWrite 0 a ((List.range n).flatMap (fun _ => bytesOfNat (mapLeaf p contig x.1.2) 8))
            | none => s) s
          let s := if p.getLsbD 202 then s.updPart part (fun q => { q with
            sharedLeaves := q.sharedLeaves ++ (pages.map (fun x => (x.2, vf, x.1))).filter (fun x => !q.sharedLeaves.contains x) }) else s
          (s.begin' vf queue k p none false).packetDone vf queue k))

/-- A physical address that no access has: the frame of a page whose removed leaf maps none. -/
def noFrame : Nat := 2 ^ 56

/-- What UNMAP leaves of a leaf: V = 0, or with KEEPGROW the unmapped GROW state (R105, R387). -/
def clearedLeaf (keep : Bool) (e : Dword) : Dword :=
  if keep then setBits (setBits (setBits (setBits e 0 0 0) 7 6 0) 51 12 0) 11 11 1 else 0#64

/-- What UNMAP waits for and gives back of a page: each frame that a removed GROW or SHARED leaf maps, as a trim gives it; else the page
itself, which no pool counts (R387). -/
def State.unmapTrims (s : State) (vf va n bytes a : Nat) : List TrimFrame :=
  let ls := (List.range n).map (fun i => BitVec.ofNat 64 (s.homeNat (a + 8 * i) 8))
  let frames := dedup ((ls.filter (fun e => pteV e && (pteGrow e || e.getLsbD 10))).map (fun e => ptePa e / 65536 * 65536))
  if frames = [] then
    [⟨match ls.find? (fun e => pteV e) with
      | some e => s.canon (ptePa e)
      | none => noFrame, va, bytes, a, 8 * n, 0, vf, 0⟩]
  else frames.map (fun f => ⟨f, va, bytes, a, 8 * n, s.poolOf vf, vf, 0⟩)

/-- UNMAP clears one page's leaves, where a watch may hold the change; the drop of its translations and the return of its frames follow
as in a trim (R110, R323, R387). -/
def State.unmapPage (s : State) (part vf va n bytes a : Nat) (keep : Bool) : State :=
  let e := BitVec.ofNat 64 (s.homeNat a 8)
  let ts := s.unmapTrims vf va n bytes a
  let s := s.engineWrite 0 a ((List.range n).flatMap (fun i =>
    bytesOfNat (clearedLeaf keep (BitVec.ofNat 64 (s.homeNat (a + 8 * i) 8))).toNat 8))
  let s := s.updPart part (fun p => { p with
    trims := p.trims ++ ts
    sharedLeaves := if s.heldAt a (8 * n) then p.sharedLeaves else p.sharedLeaves.filter (fun x => decide (x ≠ (ptePa e, vf, va))) })
  s.trimDrops part

/-- Whether every access translated through the leaves that an UNMAP removed has completed (R387). -/
def State.unmapQuiet (s : State) (part vf : Nat) (drain : List (Nat × Nat)) : Bool :=
  (s.part part).trims.all (fun t => decide (t.vf ≠ vf) || !drain.any (fun r => decide (r.1 = t.leaf)) || s.trimQuiet t)

/-- UNMAP: its leaves return to V = 0 or to the unmapped GROW state; it retires when its writes are released and every access
translated before has completed (R323, R387). -/
def execUnmapPacket (vf queue : Nat) (s : State) : Host.Outcome State Fault Refusal :=
  let finish := fun (s : State) (part : Nat) =>
    let s := s.trimDrops part
    s.drained vf queue (s.unmapQuiet part vf (s.qcb vf queue).drain)
  .next (if (s.qcb vf queue).drainType = some 6 then match s.partOfVf vf with
      | some part => finish s part
      | none => s
    else if !s.firmware then s
    else s.takePacket vf queue 6 (fun part k p s =>
      let va := bitsN p 95 32
      let size := bitsN p 194 192
      let (bytes, level, n, _) := pageShape size
      if bitsN p 1023 196 ≠ 0 ∨ bitsN p 191 128 ≠ 0 ∨ size = 7 ∨ va % bytes ≠ 0 then s.refusePacket part vf queue 0x16 0 0
      else
        let pages := (List.range (bitsN p 127 96)).map (fun i => va + i * bytes)
        let leaves := pages.map (fun x => (x, s.leafAt vf x level))
        match leaves.find? (fun x => x.2.isNone) with
        | some x => s.refusePacket part vf queue 0x0D 2 x.1
        | none =>
          let as := leaves.filterMap (fun x => x.2.map (fun a => (x.1, a)))
          let s := as.foldl (fun (s : State) x => s.unmapPage part vf x.1 n bytes x.2 (p.getLsbD 195)) s
          let s := (s.begin' vf queue k p none false).updQcb vf queue (fun b => { b with drain := as.map (fun x => (x.2, 8 * n)) })
          finish s part))

/-! ### Completion (R386, R452) -/

/-- A grid whose workgroups have all exited, or which was contained and has none left: the dirty words of its context register and
are acknowledged, its signal is performed, after its release where a watch holds it, and its LAUNCH's work is complete (R322, R386,
R452). -/
def State.evGridComplete (s : State) (part n : Nat) : State :=
  match sget none (s.part part).grids n with
  | none => s
  | some g =>
    let ctx := ctxOf g.vf g.queue
    if g.placed ≠ 0 ∨ (g.next < g.total ∧ g.contained.isNone = true) then s
    else
      let cores := (s.part part).cores.filter (fun c => (s.core c).l1.any (fun e => decide (e.2.ctx = ctx) &&
        (decide (e.2.dirty ≠ 0#4) || e.2.unacked)))
      let mine := fun (s : State) (c w : Nat) => decide ((sget L1Word.absent (s.core c).l1 w).ctx = ctx)
      let s := cores.foldl (fun (s : State) c => s.writeBack c (mine s c)) s
      if cores.any (fun c => !s.published c (mine s c)) then s
      else
        let close := fun (s : State) =>
          let s := s.updPart part (fun p => { p with grids := sset none p.grids n none })
          let s := s.updQcb g.vf g.queue (fun b => { b with
            dispatching := if b.dispatching = some n then none else b.dispatching })
          s.packetDone g.vf g.queue g.packet
        match g.contained with
        | some code => (close s).queueError g.vf g.queue code
        | none => match g.signal with
          | some pa => if s.heldAt pa 4 then s else close s
          | none =>
            if g.launch.cell = 0 then close s
            else match s.signal part g.vf g.launch.cell 0 g.launch.cval.toNat with
              | .wait => s
              | .done t =>
                let pa := s.cellOf part g.vf g.launch.cell
                if t.heldAt pa 4 then t.updPart part (fun p => { p with grids := sset none p.grids n (some { g with signal := some pa }) })
                else close t
              | .bad c _ => (close s).queueError g.vf g.queue c

/-- GRID_COMPLETE (R386, R452). -/
def execGridComplete (part grid : Nat) (s : State) : Host.Outcome State Fault Refusal := .next (s.evGridComplete part grid)

/-! ### Time slices (R64) -/

/-- Whether a tenant of a partition holds resident or saved work, or a startable packet: one in dispatch, one that could be taken, or a
WAIT whose condition holds (R64). -/
def State.hasWork (s : State) (part vf : Nat) : Bool :=
  let p := s.part part
  p.cores.any (fun n => (s.core n).wgs.any (fun e => match e.2 with
    | some g => decide (g.vf = vf)
    | none => false)) ||
  p.saved.any (fun x => decide (x.wg.vf = vf)) ||
  (s.func vf).queues.any (fun q => q.2.hyp.getLsbD 486 && (s.packetReady part vf q.1 || (decide (q.2.state ≤ 1) && q.2.dispatching.isSome) ||
    (decide (q.2.state = 2) && (match q.2.started with
      | x :: _ => (match s.waitMet part vf x.bits with
        | .ok b => b
        | .error _ => true)
      | [] => true))))

/-- The length of a tenant's slice (R378, R388). -/
def State.sliceLen (s : State) (part vf : Nat) : Nat :=
  let own := ((s.func vf).queues.map (fun q => bitsN q.2.hyp 543 512)).find? (fun n => decide (n ≠ 0))
  optD own (s.part part).tslice.toNat

/-- The next tenant with work after one, in ascending order of tenancy, wrapping (R64). -/
def State.nextTenant (s : State) (part vf : Nat) : Option Nat :=
  let ts := (s.part part).tenants
  let after := (ts.dropWhile (fun t => decide (t ≠ vf))).drop 1
  (after ++ ts).find? (fun t => decide (t ≠ vf) && s.hasWork part t)

/-- A slice of a tenant begins; with slicing off, none does (R64, R253). -/
def State.startSlice (s : State) (part vf : Nat) : State :=
  s.updPart part (fun p => { p with
    slice := if p.tslice = 0#32 then none else some (vf, s.clk + s.sliceLen part vf)
    grace := none })

/-- A slice begins, is renewed, or expires into its grace period; slicing turned off ends it (R64, R388). -/
def State.evSliceExpiry (s : State) (part : Nat) : State :=
  let p := s.part part
  match p.slice with
    | none => match p.tenants.find? (fun t => decide (p.tslice ≠ 0#32) && s.hasWork part t) with
      | some vf => s.startSlice part vf
      | none => s
    | some (vf, stop) =>
      if s.clk < stop ∨ p.grace.isSome = true then s
      else match s.nextTenant part vf with
        | none => s.startSlice part vf
        | some _ => s.updPart part (fun p => { p with grace := some (s.clk + Config.gracePeriod) })

/-- TIME_SLICE_EXPIRY (R64). -/
def execTimeSliceExpiry (part : Nat) (s : State) : Host.Outcome State Fault Refusal := .next (s.evSliceExpiry part)

/-- The cores of a partition that hold work of a function. -/
def State.coresOf (s : State) (part vf : Nat) : List Nat :=
  (s.part part).cores.filter (fun n => (s.core n).wgs.any (fun e => match e.2 with
    | some g => decide (g.vf = vf)
    | none => false))

/-- The grace period ends: the cores that still hold work of the outgoing function are hard pre-empted, and the next tenant's
slice begins (R64, R465). -/
def State.evGraceEnd (s : State) (part : Nat) : State :=
  let p := s.part part
  match p.grace, p.slice with
  | some t, some (vf, _) =>
    let left := s.coresOf part vf
    if s.clk < t ∧ left ≠ [] then s
    else
      let s := left.foldl (fun (s : State) n => s.updCore n (fun c => { c with preempt := some s.clk })) s
      s.startSlice part (optD (s.nextTenant part vf) vf)
  | _, _ => s

/-- GRACE_PERIOD_END (R64, R465). -/
def execGracePeriodEnd (part : Nat) (s : State) : Host.Outcome State Fault Refusal := .next (s.evGraceEnd part)

end Sys2Proof.Machine
end

