-- ==== Sys2Proof/Machine/Chains.lean ====
section
/-!
DEFINITION. Collective engines: the entries of registered chains and the stop of a chain (spec 10 R285; 15 R391, R392; 16 R424;
24 R480, R482; 25 R505); and the asynchronous events of the firmware (16 R405).
-/

namespace Sys2Proof.Machine

/-! ### Asynchronous events (R405) -/

/-- Post an event to every tenant of a partition. -/
def State.postTenants (s : State) (part code data : Nat) : State :=
  (s.part part).tenants.foldl (fun (s : State) vf => s.postEvent vf code data (s.pclk part)) s

/-! ### Chains (R285, R391, R505) -/

/-- A chain of a partition by its number. -/
def State.chain (s : State) (part num : Nat) : Option Chain := (s.part part).chains.find? (fun x => decide (x.num = num))

/-- A chain changed. -/
def State.updChain (s : State) (part num : Nat) (f : Chain → Chain) : State :=
  s.updPart part (fun p => { p with chains := p.chains.map (fun x => if x.num = num then f x else x) })

/-- A chain's descriptor as memory holds it. -/
def State.chainDesc (s : State) (part : Nat) (x : Chain) : Except (Nat × Nat) (BitVec 512) :=
  match s.readVa x.vf part x.desc 64 with
  | .ok bs => .ok (BitVec.ofNat 512 (natOfBytes bs))
  | .error e => .error e

/-- SEQ of a descriptor. -/
def descSeq (d : BitVec 512) : Nat := bitsN d 351 320

/-- A chain stops at its entry: SEQ stays, and an entry of KIND 0x0B, a record and an event report it (R505, R405). -/
def State.chainStop (s : State) (part : Nat) (x : Chain) (seq code detail : Nat) : State :=
  let s := s.updChain part x.num (fun c => { c with
    stopped := true
    offset := 0
    waiting := false })
  let s := s.telemetry part (telemetryEntry 0x0B code x.sector 6 0 0 (s.pclk part) x.desc 0 seq)
  let s := s.postRecord x.vf (plainRecord code 3 3 detail x.ctx x.vf x.desc (s.pclk part)).bits
  s.postEvent x.vf 0x06 x.desc (s.pclk part)

/-- An entry is complete: SEQ advances (R391). -/
def State.chainNext (s : State) (part : Nat) (x : Chain) (seq : Nat) : State :=
  let s := s.updChain part x.num (fun c => { c with
    offset := 0
    waiting := false })
  match s.engineTranslate x.vf part (x.desc + 40) .store with
  | .ok pa _ => (s.touchLeaf x.vf (x.desc + 40) true).engineWrite x.ctx pa (bytesOfNat ((seq + 1) % 2 ^ 32) 4)
  | .bad c d => s.chainStop part x seq c d
  | _ => s

/-- Whether the fields of an entry are ones R391 lists and R505 admits: TYPE and RED where the operation uses them (log 33). -/
def entryOk (e : BitVec 512) : Bool :=
  let opc := bitsN e 7 0
  let data := decide (opc ≤ 3)
  let arith := decide (opc = 2 ∨ opc = 3)
  decide (bitsN e 511 352 = 0) && decide (bitsN e 31 15 = 0) && decide (1 ≤ opc ∧ opc ≤ 5) &&
    (!arith || ([0x5, 0x9, 0xA].contains (bitsN e 11 8) && decide (bitsN e 14 12 ≤ 2))) &&
    (!data || (decide (bitsN e 255 192 % 64 = 0) && decide (bitsN e 255 192 ≤ 2 ^ 40) && decide (bitsN e 127 64 % 64 = 0) &&
      decide (bitsN e 191 128 % 64 = 0))) &&
    (data || decide (bitsN e 319 256 % 8 = 0))

/-- Whether an update of a chain's SEQ word is held at its home (R322): the chain has not left its entry. -/
def State.seqHeld (s : State) (part : Nat) (x : Chain) : Bool :=
  match s.engineTranslate x.vf part (x.desc + 40) .store with
  | .ok pa _ => s.heldAt pa 4
  | _ => false

/-- The entry a chain's engine works on, with SEQ, where the step names its operation: an invalid or unreadable one stops the
chain. -/
def State.chainEntry (s : State) (part num opc : Nat) (f : Chain → Nat → BitVec 512 → State → State) : State :=
  match s.chain part num with
  | none => s
  | some x => if x.stopped || s.seqHeld part x then s else match s.chainDesc part x with
    | .error (c, d) => s.chainStop part x 0 c d
    | .ok desc =>
      let seq := descSeq desc
      let va := bitsN desc 511 448 + 64 * (seq % 2 ^ bitsN desc 447 443)
      if seq = bitsN desc 383 352 then s
      else match s.readVa x.vf part va 64 with
        | .error (c, d) => s.chainStop part x seq c d
        | .ok bs =>
          let e := BitVec.ofNat 512 (natOfBytes bs)
          if !entryOk e then s.chainStop part x seq 0x1A 0
          else if bitsN e 7 0 = opc then f x seq e ((s.touchLeaf x.vf x.desc false).touchLeaf x.vf va false) else s

/-- An element combined with another (R392): RED 0 add, 1 max, 2 min. -/
def redElem (ty red x y : Nat) : Nat :=
  if ty = 0x5 then
    (if red = 0 then (x + y) % 2 ^ 32
      else if red = 1 then (if sInt 32 x ≤ sInt 32 y then y else x) else (if sInt 32 x ≤ sInt 32 y then x else y))
  else
    let f := fmtOf ty
    if red = 0 then (f.fadd 0 false x y).1 else (f.fminmax (decide (red = 1)) x y).1

/-- Bytes combined elementwise. -/
def redBytes (ty red : Nat) (xs ys : List Byte) : List Byte :=
  let n := if ty = 0x9 then 2 else 4
  (List.range (xs.length / n)).flatMap (fun i =>
    bytesOfNat (redElem ty red (natOfBytes ((xs.drop (n * i)).take n)) (natOfBytes ((ys.drop (n * i)).take n))) n)

/-- A 64 B unit of a function's memory as an engine reads it: zeros of an unmapped GROW page, or a fault. -/
def State.engineUnit (s : State) (part vf va : Nat) : Except (Nat × Nat) (List Byte) :=
  match s.engineTranslate vf part va .load with
  | .ok pa _ => if s.poisoned pa then .error (0x10, 2) else .ok (s.engineRead part 0xFF#8 pa 64)
  | .bad c d => .error (c, d)
  | _ => .ok (List.replicate 64 0#8)

/-- A unit of a COPY or REDUCE is written; a refused map stalls the engine, a refusal of the map stops the chain (R480, R482). -/
def State.chainUnit (s : State) (part : Nat) (x : Chain) (seq dst : Nat) (bs : List Byte) : State :=
  match s.engineTranslate x.vf part dst .store with
  | .ok pa _ =>
    let bytes := byteList pa bs
    let held := s.mustHold bytes
    ((s.touchLeaf x.vf dst true).register .engine x.ctx bytes).updChain part x.num (fun c => if held then { c with waiting := true }
      else { c with offset := c.offset + 64 })
  | .grow a => (s.demandMap x.vf dst a 2).2
  | .bad c d => s.chainStop part x seq c d
  | .miss => s

/-- The next 64 B of a COPY or REDUCE, or the end of the entry (R391, R392). -/
def State.chainMove (s : State) (part : Nat) (reduce : Bool) (x : Chain) (seq : Nat) (e : BitVec 512) : State :=
  let src := bitsN e 127 64 + x.offset
  let dst := bitsN e 191 128 + x.offset
  if bitsN e 255 192 ≤ x.offset then s.chainNext part x seq
  else if x.waiting then
    match s.engineTranslate x.vf part dst .store with
    | .ok pa _ => if s.heldAt pa 64 then s
      else s.updChain part x.num (fun c => { c with
        offset := c.offset + 64
        waiting := false })
    | .bad c d => s.chainStop part x seq c d
    | _ => s
  else match s.engineUnit part x.vf src with
    | .error (c, d) => s.chainStop part x seq c d
    | .ok a =>
      let s := s.touchLeaf x.vf src false
      if !reduce then s.chainUnit part x seq dst a
      else match s.engineUnit part x.vf dst with
        | .error (c, d) => s.chainStop part x seq c d
        | .ok b => s.chainUnit part x seq dst (redBytes (bitsN e 11 8) (bitsN e 14 12) b a)

/-- CHAIN_COPY (R392): the next unit of the chain's COPY. -/
def execChainCopy (part chain : Nat) (s : State) : Host.Outcome State Fault Refusal :=
  .next (s.chainEntry part chain 1 (fun x seq e s => s.chainMove part false x seq e))

/-- CHAIN_REDUCE (R392): the next unit of the chain's REDUCE. -/
def execChainReduce (part chain : Nat) (s : State) : Host.Outcome State Fault Refusal :=
  .next (s.chainEntry part chain 2 (fun x seq e s => s.chainMove part true x seq e))

/-- Data of members combined in a list's order. -/
def foldData (ty red : Nat) : List (List Byte) → List Byte
  | [] => []
  | x :: xs => xs.foldl (fun acc y => redBytes ty red acc y) x

/-- The fixed tree of ALLREDUCE: each leaf switch combines its packages, the spine its switches, ascending (R424). -/
def allreduceTree (ty red : Nat) (data : List (Nat × List Byte)) : List Byte :=
  let sorted := (List.range 144).flatMap (fun p => (data.filter (fun d => decide (d.1 = p))).take 1)
  let leaf := fun (w : Nat) => (sorted.filter (fun d => decide (Config.leafSwitch d.1 = w))).map (fun d => d.2)
  let switches := (dedup (sorted.map (fun d => Config.leafSwitch d.1))).mergeSort (fun a b => decide (a ≤ b))
  foldData ty red (switches.map (fun w => foldData ty red (leaf w)))

/-- The bytes of a source of `n` units, or the fault of one. -/
def State.engineUnits (s : State) (part vf va : Nat) : Nat → Except (Nat × Nat) (List Byte)
  | 0 => .ok []
  | n + 1 => match s.engineUnit part vf va with
    | .error e => .error e
    | .ok a => match s.engineUnits part vf (va + 64) n with
      | .error e => .error e
      | .ok bs => .ok (a ++ bs)

/-- CHAIN_ALLREDUCE: once every other member's data is there, the entry's units are written; `others` are the members' data
(R424). The feature domain gates it (R414). -/
def execChainAllreduce (part chain : Nat) (others : List (Nat × List Byte)) (s : State) : Host.Outcome State Fault Refusal :=
  .next (s.chainEntry part chain 3 (fun x seq e s =>
    let len := bitsN e 255 192
    let dst := bitsN e 191 128 + x.offset
    match s.groups.find? (fun g => decide (g.1 = bitsN e 63 32)) with
    | none => s.chainStop part x seq 0x1A 0
    | some (_, members) =>
      let away := members.filter (fun m => decide (m ≠ s.package))
      if s.hasFeat x.vf 9 = false then s.chainStop part x seq 0x04 0
      else if !members.contains s.package then s.chainStop part x seq 0x1A 0
      else if len ≤ x.offset then s.chainNext part x seq
      else if x.waiting then s.chainMove part false x seq e
      else if away.any (fun m => !others.any (fun o => decide (o.1 = m) && decide (len ≤ o.2.length))) then s
      else match s.engineUnits part x.vf (bitsN e 127 64) (len / 64) with
        | .error (c, d) => s.chainStop part x seq c d
        | .ok own =>
          let data := (s.package, own) :: (others.filter (fun o => away.contains o.1)).map (fun o => (o.1, o.2.take len))
          let r := allreduceTree (bitsN e 11 8) (bitsN e 14 12) data
          s.chainUnit part x seq dst ((r.drop x.offset).take 64)))

/-- CHAIN_SIGNAL (R392), which is complete once a held update is released (R322); a POISONED cell or a failing translation stops the chain (R505). -/
def execChainSignal (part chain : Nat) (s : State) : Host.Outcome State Fault Refusal :=
  .next (s.chainEntry part chain 4 (fun x seq e s =>
    let va := bitsN e 319 256
    let pa := s.cellOf part x.vf va
    if x.waiting then (if s.heldAt pa 4 then s else s.chainNext part x seq)
    else match s.signal part x.vf va 0 (bitsN e 351 320) with
    | .wait => s
    | .done t => if t.heldAt pa 4 then t.updChain part x.num (fun c => { c with waiting := true }) else t.chainNext part x seq
    | .bad c d => s.chainStop part x seq c d))

/-- CHAIN_WAIT_ENTRY (R392): the entry is complete when its condition holds. -/
def execChainWaitEntry (part chain : Nat) (s : State) : Host.Outcome State Fault Refusal :=
  .next (s.chainEntry part chain 5 (fun x seq e s => match s.cellAt part x.vf (bitsN e 319 256) with
    | .error (c, d) => s.chainStop part x seq c d
    | .ok pa =>
      let s := s.touchLeaf x.vf (bitsN e 319 256) false
      if waitHolds 0 (s.cellWord pa).2.2 (bitsN e 351 320) then s.chainNext part x seq else s))

end Sys2Proof.Machine
end

