-- ==== Sys2Proof/Machine/Contain.lean ====
section
/-!
DEFINITION. Containment of a partition and of the package, the re-initialisation of a partition, and the failures of the
firmware complexes (spec 16 R405, R425; 25 R501, R507, R508, R510, R511).
-/

namespace Sys2Proof.Machine

/-! ### Containment of a partition (R507) -/

/-- Some cores changed. -/
def State.updCores (s : State) (ns : List Nat) (f : Core → Core) : State := ns.foldl (fun (s : State) n => s.updCore n f) s

/-- Every context of a partition: its tenants' queues, and any that still holds work. -/
def State.contextsOf (s : State) (part : Nat) : List Nat :=
  dedup ((s.part part).tenants.flatMap (fun vf => (s.func vf).queues.map (fun q => ctxOf vf q.1)))

/-- Writes held for a partition: those of its own contexts are discarded, others register (R495, R507 step 2). -/
def State.dropHeld (s : State) (part : Nat) : State :=
  let mine := s.heldWrites.filter (fun h => decide (h.part = part))
  let s := { s with heldWrites := s.heldWrites.filter (fun h => decide (h.part ≠ part)) }
  mine.foldl (fun (s : State) (h : HeldWrite) => if h.discard then s else s.commitHeld h) s

/-- The arrays of a partition's sectors are cleared and its units emptied; memory and its poison stay (R507 step 5). -/
def State.clearPart (s : State) (part : Nat) : State :=
  let p := s.part part
  let own := fun (pa : Nat) => s.isLocal pa && p.sectors.getLsbD (s.canon pa / Config.sectorBytes)
  { s with
    cores := p.cores.foldl (fun m n => sset Core.idle m n Core.idle) s.cores
    owners := s.owners.filter (fun e => !own (4 * e.1))
    cells := s.cells.filter (fun e => !own e.1)
    shadows := s.shadows.filter (fun h => decide (h.part ≠ part))
    watches := s.watches.filter (fun w => decide (w.part ≠ part))
    l2 := s.l2.filter (fun e => !p.sectors.getLsbD (e.1 / 256 / 32))
    walks := s.walks.filter (fun e => !p.sectors.getLsbD e.1)
    rings := s.rings.map (fun r => (r.1, if r.2.tag = some part then { r.2 with
      msg := none
      reserved := none } else r.2))
    fabric := s.fabric.filter (fun m => decide (m.msg.part ≠ part))
    parts := sset Part.reset s.parts part { p with
      objects := []
      regions := []
      revs := []
      revWaiting := []
      places := []
      solicits := []
      rootInbox := []
      rootLog := []
      rrQueue := 0
      rrCluster := 0
      grids := []
      slice := none
      grace := none
      tcbs := []
      saved := []
      ensBarriers := []
      chains := []
      quotas := []
      monitors := []
      shadowTags := []
      duet := none } }

/-- Steps 1 to 4 of R507 for a partition: every context is killed without a record of its own, held writes are dropped, and
the containment is reported at a level. The telemetry entry comes first, so that the snapshot it triggers holds the state at
the failure (R508). -/
def State.stopPart (s : State) (part code level : Nat) : State :=
  let s := s.telemetry part (telemetryEntry 0x08 code part 7 0 0 (s.pclk part) 0 0 level)
  let s := (s.contextsOf part).foldl (fun (s : State) ctx => s.killCtx part ctx code 0 0 false) s
  let s := s.dropHeld part
  let s := s.updPart part (fun p => { p with
    health := .contained code
    chains := p.chains.map (fun (c : Chain) => { c with stopped := true })
    revs := []
    revWaiting := []
    places := []
    solicits := []
    rootInbox := [] })
  let p := s.part part
  let s := s.updCores p.cores (fun c => { c with
    waves := []
    wgs := []
    spawns := []
    cmds := []
    preempt := none })
  p.tenants.foldl (fun (s : State) vf => s.postRecord vf (plainRecord code 4 level 0 0 vf 0 (s.pclk part)).bits) s

/-- A partition is contained, once (R507). -/
def State.containPart (s : State) (part code : Nat) : State :=
  let p := s.part part
  match p.health with
  | .contained _ => s
  | .serving => if p.sectors = 0#12 then s else (s.stopPart part code 4).clearPart part

/-- PARTITION_CONTAINMENT (R507). -/
def execPartitionContainment (part code : Nat) (s : State) : Host.Outcome State Fault Refusal := .next (s.containPart part code)

/-- A partition reset: the partition is as its record in the state table says, and its registers and those of its tenants' contexts hold
their reset values; its `%clk` and its counters start afresh. The last snapshot, which holds the state at the failure, and the frames
that firmware keeps account of stay (R9, R203, R253, R256, R407, R507, R508). -/
def State.resetPart (s : State) (part : Nat) : State :=
  let p := s.part part
  let ctxs := s.contextsOf part
  let s := { s with trapbase := ctxs.foldl (fun m c => sset 0xFFFFFFFF#32 m c 0xFFFFFFFF#32) s.trapbase }
  s.updPart part (fun _ => { Part.reset with
    sectors := p.sectors
    tenantSlots := p.tenantSlots
    tenants := p.tenants
    membase := p.membase
    origin := s.clk
    lastTrigger := p.lastTrigger
    snapDropped := p.snapDropped
    snap := p.snap
    trims := p.trims
    retiring := p.retiring
    sharedLeaves := p.sharedLeaves })

/-- Firmware re-initialises a contained partition whose sectors all work, and posts an event to its tenants (R507 step 6). -/
def State.evReinit (s : State) (part : Nat) : State :=
  let p := s.part part
  match p.health with
  | .serving => s
  | .contained _ =>
    if !s.firmware || decide (p.sectors &&& s.failedSectors ≠ 0#12) then s
    else (s.resetPart part).postTenants part 0x01 part

/-- PARTITION_REINITIALISED (R507). -/
def execPartitionReinitialised (part : Nat) (s : State) : Host.Outcome State Fault Refusal := .next (s.evReinit part)

/-- Every partition stops until power-on; no array is cleared (R507). -/
def State.containPackage (s : State) : State :=
  if s.packageContained then s
  else
    let s := (skeys s.parts).foldl (fun (s : State) n => match (s.part n).health with
      | .serving => if (s.part n).sectors = 0#12 then s else s.stopPart n 0x10 5
      | .contained _ => s) s
    { s with packageContained := true }

/-- PACKAGE_CONTAINMENT (R507). -/
def execPackageContainment (s : State) : Host.Outcome State Fault Refusal := .next s.containPackage

/-! ### Package occasions (R405) -/

/-- The functions a package occasion concerns: every tenant and the physical function. -/
def State.allFuncs (s : State) : List Nat := dedup (s.parts.flatMap (fun p => p.2.tenants) ++ [96])

/-- An event of a package occasion, in the time of partition 0. -/
def State.postAll (s : State) (code data : Nat) : State :=
  s.allFuncs.foldl (fun (s : State) vf => s.postEvent vf code data (s.pclk 0)) s

/-! ### Firmware complexes (R393, R510, R511) -/

/-- Requests in flight are answered RETRY (R401, R510). -/
def State.retryMailboxes (s : State) : State :=
  { s with funcs := s.funcs.map (fun f => (f.1, if f.2.mailbox.busy then { f.2 with
      mailbox := { f.2.mailbox with
        response := setBits (setBits (BitVec.ofNat 128 (natOfBytes (sgetList 0#8 f.2.mailbox.copy 0 16))) 47 32 0) 7 0 0x01
        payload := []
        busy := false
        done := true }
      pba := sset false f.2.pba 64 true } else f.2)) }

/-- A complex fails. The standby takes over from the active one, reporting it; a standby that fails is reported; the loss of
both contains the package (R510, R511). -/
def State.complexFails (s : State) (b : Bool) : State :=
  let s := if b then { s with complexB := { s.complexB with ok := false } } else { s with complexA := { s.complexA with ok := false } }
  if !s.complexA.ok && !s.complexB.ok then s.containPackage
  else
    let s := if s.activeB = b then ({ s with activeB := !b, missed := 0 }).retryMailboxes else s
    let s := s.telemetry 0 (telemetryEntry 0x09 0 (if b then 1 else 0) 5 0 0 (s.pclk 0) 0 0 0)
    s.postAll 0x05 (if s.activeB then 1 else 0)

/-- FIRMWARE_FAILOVER (R510): the active complex has failed. -/
def execFirmwareFailover (s : State) : Host.Outcome State Fault Refusal := .next (s.complexFails s.activeB)

/-- STANDBY_FAILURE (R511). -/
def execStandbyFailure (s : State) : Host.Outcome State Fault Refusal := .next (s.complexFails (!s.activeB))

/-- HEARTBEAT (R510): three missed in a row make the standby take over. -/
def execHeartbeat (missed : Bool) (s : State) : Host.Outcome State Fault Refusal :=
  .next (if !missed then { s with missed := 0 }
    else if s.missed + 1 < 3 then { s with missed := s.missed + 1 }
    else s.complexFails s.activeB)

/-! ### Bring-up (R425) -/

/-- The slot tags of a Serpent ring of a die, or the phase tags of a bridge, shared among the partitions that own the listed sectors, by
the counts of R20. Which of the slots carry a partition's tag the manual does not say: here they stand in the order of the owners'
lowest sectors. For two owners on a bridge in the ratio of two and three sectors, which R20 does not list, the shares are 3 and 5
(DESIGN CHOICE, log 81). -/
def ringTags (owners : List Nat) : List (Option Nat) :=
  let parts := dedup owners
  let top := owners.getLast?
  let share := fun (p : Nat) =>
    let n := (owners.filter (fun o => decide (o = p))).length
    let rest := owners.length - n
    match parts.length with
    | 1 => 8
    | 2 => if n = rest then 4 else if 2 * rest ≤ n then 6 else if 2 * n ≤ rest then 2 else if rest < n then 5 else 3
    | _ => if top = some p then 2 else 3
  let l := parts.flatMap (fun p => List.replicate (share p) (some p))
  l ++ List.replicate (8 - l.length) none

/-- The rings of every die are tagged anew; a slot that keeps its tag keeps its message (R20, R21). -/
def State.tagRings (s : State) : State :=
  (List.range 4).foldl (fun (s : State) d =>
    let owners := (List.range 3).filterMap (fun i => s.partOfSector (3 * d + i))
    let tag := fun (i : Nat) => (ringTags owners).getD (i % 8) none
    { s with rings := (List.range 16).foldl (fun m i =>
      let r := sget RingSlot.empty m (16 * d + i)
      sset RingSlot.empty m (16 * d + i) (if r.tag = tag i then r else ⟨tag i, none, none⟩)) s.rings }) s

/-- POWER_ON: images are verified, memory is cleared, and one partition takes all 12 sectors. What lies outside the package, and
the images, stay (R425). -/
def execPowerOn (okA okB : Bool) (s : State) : Host.Outcome State Fault Refusal :=
  let fresh := { State.reset with
    agenda := s.agenda
    free := s.free
    ext := s.ext
    powered := true
    complexA := { s.complexA with ok := okA, staged := [] }
    complexB := { s.complexB with ok := okB, staged := [] }
    activeB := !okA && okB
    stateMajor := s.stateMajor
    stateMinor := s.stateMinor }
  .next (if !okA && !okB then { fresh with packageContained := true }
    else (fresh.updPart 0 (fun p => { p with sectors := 0xFFF#12 })).tagRings)

end Sys2Proof.Machine
end

