-- ==== Sys2Proof/Machine/Errors.lean ====
section
/-!
DEFINITION. Array errors and their actions, the scrub, failed units, way quotas, and temperatures (spec 16 R411 to R413, R426, R427;
24 R483, R486; 25 R499 to R501).
-/

namespace Sys2Proof.Machine

/-! ### Units (R14, R504) -/

/-- The sector a unit belongs to, by UNITKIND and UNIT. -/
def unitSector (kind unit : Nat) : Option Nat := match kind with
  | 0 => some (unit / 64)
  | 1 => some (unit / 32)
  | 2 => some (unit / 96)
  | 6 => some unit
  | _ => none

/-- The partitions an error of a unit concerns: of its sector, of the die of an I/O die link, of the address of a message on a
die bridge, or the partition itself. -/
def State.unitParts (s : State) (kind unit addr : Nat) : List Nat :=
  let one := fun (o : Option Nat) => match o with
    | some n => [n]
    | none => []
  if kind = 7 then [unit]
  else if kind = 4 then
    (if 8 ≤ unit then dedup ((List.range 3).filterMap (fun i => s.partOfSector (3 * ((unit - 8) / 2) + i)))
      else one (s.partOfSector (s.canon addr / Config.sectorBytes)))
  else one ((unitSector kind unit).bind (fun x => s.partOfSector x))

/-! ### Poison (R483, R486) -/

/-- The virtual address of a physical sector within a mapping of the reverse map. -/
def leafSpan (s : State) (pa vf va : Nat) : Nat := match s.walk vf va with
  | .page t => if t.pa ≤ pa ∧ pa < t.pa + t.bytes then t.bytes else 0
  | _ => 0

/-- A 64 B sector is poisoned at its home. A SHARED frame it lies in is retiring, and one record per leaf of the reverse map that
maps it is posted (R483, R486). -/
def State.poisonSector (s : State) (pa : Nat) : State :=
  let a := s.canon pa / 64 * 64
  let s := { s with poison := sset false s.poison (a / 64) true }
  match s.partOfSector (a / Config.sectorBytes) with
  | none => s
  | some part =>
    let hits := (s.part part).sharedLeaves.filter (fun x => decide (x.1 ≤ a) && decide (a < x.1 + leafSpan s x.1 x.2.1 x.2.2))
    if hits = [] then s
    else
      let s := s.updPart part (fun p => { p with
        retiring := if p.retiring.contains (a / 65536 * 65536) then p.retiring else p.retiring ++ [a / 65536 * 65536] })
      hits.foldl (fun (s : State) x =>
        s.postRecord x.2.1 (plainRecord 0x10 4 0 2 0 x.2.1 (x.2.2 + (a - x.1)) (s.pclk part)).bits) s

/-- The contexts of a partition with a context record in use that holds a physical address (R390, R507). -/
def State.recordOwners (s : State) (part pa : Nat) : List Nat :=
  let p := s.part part
  let gs := p.cores.flatMap (fun n => (s.core n).wgs.filterMap (fun e => e.2)) ++ p.saved.map (fun x => x.wg)
  let holds := fun (g : Workgroup) => g.records.any (fun r =>
    (List.range (bitsN (s.qcb g.vf g.queue).hyp 575 560)).any (fun i => match s.walk g.vf (r + 4096 * i) with
      | .page t => decide (s.canon (t.pa + (r + 4096 * i - t.va)) / 4096 = s.canon pa / 4096)
      | _ => false))
  dedup ((gs.filter holds).map (fun g => g.ctx))

/-- An uncorrectable error in a 64 B sector: it is poisoned, and a context whose context record it lies in is killed (R483, R507). -/
def State.poisonOwned (s : State) (pa : Nat) : State :=
  match s.partOfSector (s.canon pa / Config.sectorBytes) with
  | none => s.poisonSector pa
  | some part => (s.recordOwners part pa).foldl (fun (s : State) ctx => s.killCtx part ctx 0x10 0 0 true) (s.poisonSector pa)

/-! ### Actions on an uncorrectable error (R499) -/

/-- The workgroup of a core that owns a byte of a local space: `addr` is the space's code of R445 in bits 63:60 and an offset. -/
def State.ownerOf (s : State) (core addr : Nat) : Option Nat :=
  let o := addr % 2 ^ 60
  ((s.core core).wgs.find? (fun e => match e.2 with
    | some g =>
      let a := match addr / 2 ^ 60 with
        | 0 => g.sp
        | 1 => g.wb
        | 2 => g.ab
        | _ => g.cb
      decide (a.start ≤ o) && decide (o < a.start + a.len)
    | none => false)).map (fun e => e.1)

/-- A workgroup is contained for an uncorrectable error of its registers or spaces (R499). -/
def State.containPoison (s : State) (core i : Nat) : State := match s.wg core i with
  | some g => s.contain core i (s.wgRecord core g 4 0x10 0 0 0)
  | none => s

/-- Register files: `addr` is 64 × scheduler + slot. The owning workgroup is contained; a responder fails (R471, R499). -/
def State.regFileError (s : State) (core addr : Nat) : State :=
  let id : WaveId := ⟨core, addr / 64, addr % 64⟩
  match s.wave id with
  | none => s
  | some w => if w.resp.isSome then s.responderFail id 0x10 else s.containPoison core w.wg

/-- L1 data: the 64-bit word's clean bytes are dropped, its dirty bytes register with their sector poisoned (R499). -/
def State.l1Error (s : State) (core addr : Nat) : State :=
  let k := s.canon addr / 8 * 2
  let c := s.core core
  let dirty := decide ((sget L1Word.absent c.l1 k).dirty ≠ 0#4) || decide ((sget L1Word.absent c.l1 (k + 1)).dirty ≠ 0#4)
  let s := (s.leaveL1 core k).leaveL1 core (k + 1)
  let s := s.updCore core (fun c => (c.dropClean k).dropClean (k + 1))
  if dirty then s.poisonOwned addr else s

/-- The entries of the instruction caches at a physical address, and of the TLB at a virtual one, are invalidated (R499). -/
def State.cacheError (s : State) (core addr : Nat) : State := s.updCore core (fun c =>
  { c.dropCodes (fun a => decide (a = s.canon addr / 8)) with
    tlb := c.tlb.filter (fun t => !(decide (t.va ≤ addr) && decide (addr < t.va + t.bytes))) })

/-- L2 data of a slice: a guest copy and a clean home line leave the slice, to be fetched again; a dirty home line's sector is poisoned
(R499). -/
def State.l2Error (s : State) (slice addr : Nat) : State :=
  let a := s.canon addr
  let dirty := (s.l2.filter (fun e => decide (e.1 / 256 = slice))).any (fun e =>
    e.2.any (fun w => !w.guest && decide (w.line = a / 512) && w.dirty))
  let s := s.dropGuests (fun x pa => decide (x = slice / 32) && decide (pa = a / 64 * 64))
  if dirty then s.poisonOwned a
  else { s with l2 := s.l2.filterMap (fun e =>
      let ws := if e.1 / 256 = slice then e.2.filter (fun w => w.guest || decide (w.line ≠ a / 512)) else e.2
      if ws = [] then none else some (e.1, ws)) }

/-- The action of an array on an uncorrectable error (R499). -/
def State.arrayAction (s : State) (kind unit array addr : Nat) : State :=
  match array with
  | 0x01 => s.regFileError unit addr
  | 0x02 => match s.ownerOf unit addr with
    | some i => s.containPoison unit i
    | none => s
  | 0x03 => s.l1Error unit addr
  | 0x04 => s.cacheError unit addr
  | 0x05 => s.l2Error unit addr
  | 0x06 | 0x07 | 0x09 => (s.unitParts kind unit addr).foldl (fun (s : State) n => s.containPart n 0x10) s
  | 0x08 => s.poisonOwned addr
  | 0x0A => s.complexFails (decide (unit = 1))
  | _ => s

/-- The key of a unit. -/
def unitKey (kind unit : Nat) : Nat := kind * 65536 + unit

/-- The cycles of 24 hours (R501). -/
def dayCycles : Nat := 24 * 3600 * 1200000000

/-- A unit failed: its sector is marked, and the sector's partition contained (R501). -/
def State.failUnit (s : State) (kind unit addr : Nat) : State :=
  let s := match unitSector kind unit with
    | some x => { s with failedSectors := s.failedSectors ||| (1#12 <<< x) }
    | none => s
  (s.unitParts kind unit addr).foldl (fun (s : State) n => s.containPart n 0x10) s

/-- An uncorrectable error of an array that R501 counts; the third within 24 hours fails the unit. -/
def State.countFailure (s : State) (kind unit array addr : Nat) : State :=
  if !([1, 2, 3, 4, 5, 6, 7, 9].contains array) then s
  else
    let k := unitKey kind unit
    let s := { s with unitFails := (s.unitFails.filter (fun x => decide (s.clk < x.2 + dayCycles))) ++ [(k, s.clk)] }
    if (s.unitFails.filter (fun x => decide (x.1 = k))).length < 3 then s else s.failUnit kind unit addr

/-- The address field of an array error's entry: a physical address, else 0 (R504). -/
def errorAddr (array addr : Nat) : Nat := if array = 1 ∨ array = 2 ∨ array = 4 then 0 else addr

/-- An error's entry, in the ring of each partition it concerns (R499, R504). -/
def State.errorEntry (s : State) (part kind code unitKind unit array addr : Nat) : State :=
  s.telemetry part (telemetryEntry kind code unit unitKind array 0 (s.pclk part) (errorAddr array addr)
    (sget 0 s.unitErrors (unitKey unitKind unit)) 0)

/-- An array detects an error: a corrected one is counted and reported, an uncorrectable one is reported and acted on
(R499, R501). -/
def State.evArrayError (s : State) (unitKind unit array addr : Nat) (corrected : Bool) : State :=
  if array = 0 ∨ 0x0A < array then s
  else
    let parts := if array = 0x0A then [0] else s.unitParts unitKind unit addr
    if corrected then
      let k := unitKey unitKind unit
      let s := { s with unitErrors := sset 0 s.unitErrors k (sget 0 s.unitErrors k + 1) }
      parts.foldl (fun (s : State) n => s.errorEntry n 0x05 0 unitKind unit array addr) s
    else
      let s := parts.foldl (fun (s : State) n => s.errorEntry n 0x06 0x10 unitKind unit array addr) s
      (s.arrayAction unitKind unit array addr).countFailure unitKind unit array addr

/-- ARRAY_ERROR (R499). -/
def execArrayError (unitKind unit array addr : Nat) (corrected : Bool) (s : State) : Host.Outcome State Fault Refusal :=
  .next (s.evArrayError unitKind unit array addr corrected)

/-- The pseudo-channel of a local address (R99). -/
def State.pseudoChannel (s : State) (pa : Nat) : Nat := match s.partOfSector (s.canon pa / Config.sectorBytes) with
  | none => 0
  | some n =>
    let p := s.part n
    3 * p.homeSlice (s.canon pa) + p.rel (s.canon pa) / 512 / (32 * p.sectorList.length) % 3

/-- SCRUB_PATROL (R500): the patrol finds a sector, by its address, that is correctable, or poisons it. -/
def execScrubPatrol (sector : Nat) (uncorrectable : Bool) (s : State) : Host.Outcome State Fault Refusal :=
  .next (s.evArrayError 2 (s.pseudoChannel sector) 0x08 sector (!uncorrectable))

/-! ### Bounds whose miss is a failure (R473, R501, R507) -/

/-- A hard pre-emption saves what it can; one that has not saved its last byte 8,192 cycles after its request fails its core
(R61, R473, R501). -/
def State.evPreempt (s : State) (core : Nat) : State := match (s.core core).preempt with
  | none => s
  | some start =>
    if start + 8192 < s.clk then (s.updCore core (fun c => { c with preempt := none })).failUnit 0 core 0 else s.evHardPreempt core

/-- HARD_PREEMPTION (R61, R473). -/
def execHardPreemption (core : Nat) (s : State) : Host.Outcome State Fault Refusal := .next (s.evPreempt core)

/-- A revocation whose step 7 has not ended 3,600 cycles after its detection contains its partition (R327, R507). -/
def State.evRevokeLate (s : State) (part : Nat) : State :=
  if (s.part part).revs.any (fun e => e.2.busy && !e.2.released && decide (e.2.since + 3600 < s.clk)) then s.containPart part 0x10 else s

/-! ### Way quotas (R411 to R413) -/

/-- The tenant with the largest gain of one more way, ties to the lower number. -/
def nextWay (h : List (List Nat)) (w : List Nat) : Nat :=
  let gain := fun (t : Nat) => (h.getD t []).getD (w.getD t 0) 0 - (h.getD t []).getD (w.getD t 0 - 1) 0
  (List.range w.length).foldl (fun best t => if gain best < gain t then t else best) 0

/-- Quotas from the counts of the tenants, `n` ways still to give. -/
def giveWays (h : List (List Nat)) : Nat → List Nat → List Nat
  | 0, w => w
  | n + 1, w =>
    let t := nextWay h w
    giveWays h n (w.set t (w.getD t 0 + 1))

/-- QUOTA_INTERVAL_END (R412, R413): a slice sets its tenants' way quotas and clears its counts; FROZEN leaves both. -/
def execQuotaIntervalEnd (part slice : Nat) (s : State) : Host.Outcome State Fault Refusal :=
  .next (
    let p := s.part part
    let n := p.tenants.length
    if p.frozen ∨ n = 0 ∨ p.sectors.getLsbD (slice / 32) = false then s
    else
      let h := (List.range n).map (fun t => sget (List.replicate 16 0) p.monitors (slice * 16 + t))
      s.updPart part (fun p => { p with
        quotas := sset [] p.quotas slice (giveWays h (16 - n) (List.replicate n 1))
        monitors := p.monitors.filter (fun e => decide (e.1 / 16 ≠ slice)) }))

/-- The package runs in P1, by request or by temperature (R426, R427). -/
def State.inP1 (s : State) : Bool := decide (s.pstate = 1) || s.thermal

/-- Cycles of a partition's quota interval: 0.25 ms times 2 to the INTERVAL at the clock of P0 or P1; 7 is treated as 6 (R413, R426). -/
def State.quotaCycles (s : State) (part : Nat) : Nat := (if s.inP1 then 150000 else 300000) * 2 ^ min 6 (s.part part).interval

/-- At the end of an interval of a partition's clock every slice sets its quotas (R412, R413). -/
def State.quotaTick (s : State) (part : Nat) : State :=
  if (s.clk + 1 - (s.part part).origin) % s.quotaCycles part ≠ 0 then s
  else (List.range 384).foldl (fun (s : State) slice => match execQuotaIntervalEnd part slice s with
    | .next t => t
    | _ => s) s

/-! ### Temperatures (R404, R427) -/

/-- A change of the package's state is posted (R405). -/
def State.postPower (s : State) (old : Bool) : State := if s.inP1 = old then s else s.postAll 0x07 (if s.inP1 then 1 else 0)

/-- TEMP_REPORT (R427): the readings are kept; heat moves the package to P1 and back, and past the limit contains every
partition. -/
def execTempReport (readings : List (BitVec 16)) (s : State) : Host.Outcome State Fault Refusal :=
  .next (
    let t := fun (i : Nat) => (readings.getD i 0#16).toInt
    let any := fun (is : List Nat) (limit : Int) => is.any (fun i => decide (limit ≤ t i))
    let dies := [0, 1, 2, 3]
    let ios := [16, 17]
    let piles := (List.range 12).map (fun i => i + 4)
    let old := s.inP1
    let s := { s with temps := (readings ++ List.replicate 32 0#16).take 32 }
    let hot := any dies 800 || any piles 760
    let cool := !any dies 760 && !any piles 760
    let s := ({ s with thermal := if hot then true else if cool then false else s.thermal }).postPower old
    if any (dies ++ ios) 880 || any piles 840 then (skeys s.parts).foldl (fun (s : State) n => s.containPart n 0x10) s else s)

end Sys2Proof.Machine
end

