-- ==== Sys2Proof/Machine/HostLink.lean ====
section
/-!
DEFINITION. What the host does to a function besides requests: BAR0 registers, the windows of BAR2 and BAR4, triggers and
the snapshot window (spec 16 R398, R401, R416, R417; 24 R480, R482).
-/

namespace Sys2Proof.Machine

/-! ### Snapshots (R416, R417) -/

/-- The timer period has passed: the partition's snapshot is triggered (R416). -/
def State.evSnapshotTimer (s : State) (part : Nat) : State :=
  let p := s.part part
  if p.timer = 0 ∨ s.clk < p.timerFrom + p.timer then s
  else (s.updPart part (fun p => { p with timerFrom := s.clk })).trigger part 2 0 0

/-- SNAPSHOT_TIMER (R416). -/
def execSnapshotTimer (part : Nat) (s : State) : Host.Outcome State Fault Refusal := .next (s.evSnapshotTimer part)

/-- A trigger of the package: each partition latches, with PART 0xF (R416, R417). -/
def State.triggerPackage (s : State) (tag : Nat) : State :=
  (skeys s.parts).foldl (fun (s : State) n =>
    (s.trigger n 1 tag 0).updPart n (fun p => { p with snap := p.snap.map (fun (x : Snapshot) =>
      if x.time = s.clk ∧ bitsN x.header 47 44 = 1 then { x with header := setBits x.header 43 40 15 } else x) })) s

/-- A write to TRIGGER; one from a virtual function is ignored (R401). -/
def State.hostTrigger (s : State) (vf : Nat) (value : Word) : State :=
  let n := bitsN value 3 0
  let tag := bitsN value 31 16
  if vf ≠ 96 then s
  else if n = 15 then s.triggerPackage tag
  else if (s.part n).sectors = 0#12 then s else s.trigger n 1 tag 0

/-- HOST_TRIGGER (R401, R416). -/
def execHostTrigger (vf : Nat) (value : Word) (s : State) : Host.Outcome State Fault Refusal := .next (s.hostTrigger vf value)

/-- The bytes of a snapshot as a function reads them: the header, then the PCs of its waves and the mutable halves of its queues,
all of them for the physical function (log 35). -/
def Snapshot.bytes (x : Snapshot) (vf : Nat) : List Byte :=
  let mine := fun (f : Nat) => decide (vf = 96) || decide (f = vf)
  bytesOfNat x.header.toNat 16 ++
    (x.waves.filter (fun w => mine w.1)).flatMap (fun w => (w.2.2.2).flatMap (fun p => bytesOfNat p.toNat 4)) ++
    (x.queues.filter (fun q => mine q.1)).flatMap (fun q => bytesOfNat q.2.2.toNat 64)

/-- A byte range of a list, zero past its end. -/
def bytesAt (bs : List Byte) (offset size : Nat) : List Byte := (List.range size).map (fun i => bs.getD (offset + i) 0#8)

/-- A host read answers some bytes, in a poisoned TLP or not (R8, R483). -/
def State.answerRead (s : State) (bs : List Byte) (poison : Bool) : State := { s with
  readData := bs
  readPoison := poison }

/-- The snapshot window: the snapshots of the partitions in ascending order (R417, log 35); zero for a virtual function (R401). -/
def State.snapWindow (s : State) (vf : Nat) : List Byte :=
  if vf ≠ 96 then []
  else s.parts.flatMap (fun p => match p.2.snap with
    | some x => x.bytes 96
    | none => [])

/-- A byte range of the snapshot window is read; for the physical function the snapshots count as read (R401, R417, log 35). -/
def State.readSnap (s : State) (vf offset size : Nat) : State :=
  let s := s.answerRead (bytesAt (s.snapWindow vf) offset size) false
  if vf ≠ 96 then s
  else { s with parts := s.parts.map (fun p => (p.1, { p.2 with snap := p.2.snap.map (fun (x : Snapshot) => { x with read := true }) })) }

/-- SNAPSHOT_WINDOW_READ (R417). -/
def execSnapshotWindowRead (vf offset size : Nat) (s : State) : Host.Outcome State Fault Refusal :=
  .next (if 96 < vf ∨ size = 0 ∨ 63 * 1048576 < offset + size then s else s.readSnap vf offset size)

/-! ### BAR0 registers (R401) -/

/-- DOORBELL: unless BUSY is set already, BUSY is set and the firmware copies the request (R401). -/
def Mailbox.submit (m : Mailbox) : Mailbox := if m.busy then m else { m with
  busy := true
  copy := m.request }

/-- A write of 8 B to BAR0: the request buffer, but for the STATUS byte of its header, which only the firmware writes; DOORBELL, which
is ignored while BUSY is set; MBSTATUS, TRIGGER and the MSI-X table; read-only places ignore it (R8, R398, R401, R402). A vector
written unmasked is no longer pending (log 36). -/
def State.registerWrite (s : State) (vf offset : Nat) (value : Dword) : State :=
    if 96 < vf ∨ offset % 8 ≠ 0 then s
    else if offset < 0x1000 then s.updFunc vf (fun f => { f with mailbox := { f.mailbox with
      request := ssetList 0#8 f.mailbox.request offset (bytesOfNat (if offset = 0 then setBits value 7 0 0 else value).toNat 8) } })
    else if offset = 0x2000 then s.updFunc vf (fun f => { f with mailbox := f.mailbox.submit })
    else if offset = 0x2008 then s.updFunc vf (fun f => { f with mailbox := { f.mailbox with
      done := f.mailbox.done && !value.getLsbD 1 } })
    else if offset = 0x2010 then s.hostTrigger vf (BitVec.ofNat 32 value.toNat)
    else if 0x4000 ≤ offset ∧ offset < 0x4500 then s.updFunc vf (fun f =>
      let k := (offset - 0x4000) / 8
      { f with
        msix := sset 0#64 f.msix k value
        pba := if k % 2 = 1 ∧ value.getLsbD 32 = false then sset false f.pba (k / 2) false else f.pba })
    else s

/-- REGISTER_WRITE (R8, R401). -/
def execRegisterWrite (vf offset : Nat) (value : Dword) (s : State) : Host.Outcome State Fault Refusal :=
  .next (s.registerWrite vf offset value)

/-- MBSTATUS of a function (R401). -/
def Func.mbStatus (f : Func) : Nat := (if f.mailbox.busy then 1 else 0) + (if f.mailbox.done then 2 else 0) + (if f.events = [] then 0 else 4)

/-- One byte of BAR0 below the snapshot window as a read finds it: write-only registers and what is no register read zero
(R8, R401). -/
def Func.bar0 (f : Func) (o : Nat) : Byte :=
  if o < 0x1000 then sget 0#8 f.mailbox.request o
  else if o < 0x1010 then (bytesOfNat f.mailbox.response.toNat 16).getD (o - 0x1000) 0#8
  else if o < 0x2000 then f.mailbox.payload.getD (o - 0x1010) 0#8
  else if 0x2008 ≤ o ∧ o < 0x2010 then (bytesOfNat f.mbStatus 8).getD (o - 0x2008) 0#8
  else if 0x4000 ≤ o ∧ o < 0x4500 then (bytesOfNat (sget 0#64 f.msix ((o - 0x4000) / 8)).toNat 8).getD (o % 8) 0#8
  else if 0x5000 ≤ o ∧ o < 0x5010 then
    BitVec.ofNat 8 ((List.range 8).foldl (fun a i => a + (if sget false f.pba (8 * (o - 0x5000) + i) then 2 ^ i else 0)) 0)
  else 0#8

/-! ### BAR2 and BAR4 (R398, R480, R482) -/

/-- A message of the host reaches a sector's memory over an I/O die link of its die (R24; log 82). -/
def State.hostSend (s : State) (part pa : Nat) (payload : List Byte) : State := match s.homeSector (s.canon pa) with
  | some h => if s.isLocal pa then
      { s with fabric := s.fabric ++ [⟨.link (h / 3), s.clk, ⟨part, h / 3, h % 3, s.canon pa, payload⟩⟩] } else s
  | none => s

/-- What becomes of a host write through BAR2 at a virtual address. -/
inductive HostWrite where
  | done (s : State)
  | held (s : State)

/-- A host write in its function's space: a page that is not mapped is mapped first, or holds the write; a write that does not
translate is dropped. `n` bounds the maps. -/
def State.hostWrite (s : State) (vf part va : Nat) (bs : List Byte) : Nat → HostWrite
  | 0 => .held s
  | n + 1 =>
    let ts := (List.range bs.length).map (fun i => (va + i, s.engineTranslate vf part (va + i) .store))
    match ts.findSome? (fun x => match x.2 with
      | .grow a => some (x.1, a)
      | _ => none) with
    | some (x, a) => match s.demandMap vf x a 3 with
      | (true, t) => t.hostWrite vf part va bs n
      | (false, t) => .held t
    | none =>
      if ts.any (fun x => match x.2 with
        | .bad .. => true
        | _ => false) then .done s
      else
        let bytes := (ts.zip bs).filterMap (fun x => match x.1.2 with
          | .ok pa _ => some (pa, x.2)
          | _ => none)
        let s := (dedup (ts.map (fun x => x.1 / 4096))).foldl (fun (s : State) x => s.touchLeaf vf (4096 * x) true) s
        .done ((dedup (bytes.map (fun b => b.1 / 8))).foldl (fun (s : State) x =>
          let word := bytes.filter (fun b => decide (b.1 / 8 = x))
          (s.hostSend part (8 * x) (word.map (fun b => b.2))).register .engine 0 word) s)

/-- A host write is tried; a later one of its function waits behind a held one (R480). -/
def State.hostStore (s : State) (vf va : Nat) (bs : List Byte) : State :=
  match s.partOfVf vf with
  | none => s
  | some part =>
    if s.hostHeld.any (fun h => decide (h.1 = vf)) then { s with hostHeld := s.hostHeld ++ [(vf, va, bs)] }
    else match s.hostWrite vf part va bs 4 with
      | .done t => t
      | .held t => { t with hostHeld := t.hostHeld ++ [(vf, va, bs)] }

/-- The oldest held host write of a function is tried again. -/
def State.hostRetry (s : State) (vf : Nat) : State :=
  match s.hostHeld.find? (fun h => decide (h.1 = vf)), s.partOfVf vf with
  | some h, some part => match s.hostWrite vf part h.2.1 h.2.2 4 with
    | .done t => { t with hostHeld := t.hostHeld.erase h }
    | .held t => t
  | _, _ => s

/-- A host read in its function's space: what stands at the homes, zero on an unmapped GROW page, in a poisoned TLP where a sector is
poisoned; the translations set A. A byte that does not translate is a free value: the manual does not say what the host then reads
(R103, R398, R483; log 37). -/
def State.hostLoad (s : State) (vf part va size : Nat) : State :=
  let ts := (List.range size).map (fun i => (va + i, s.engineTranslate vf part (va + i) .load))
  let pas := ts.filterMap (fun x => match x.2 with
    | .ok pa _ => some pa
    | _ => none)
  let read : List Byte × State := ts.foldl (fun (acc : List Byte × State) x => match x.2 with
    | .ok pa _ => (acc.1 ++ [acc.2.homeByte pa], acc.2)
    | .grow _ => (acc.1 ++ [0#8], acc.2)
    | _ =>
      let d := acc.2.draw
      (acc.1 ++ [d.1.extractLsb' 0 8], d.2)) ([], s)
  let s : State := (dedup (ts.map (fun x => x.1 / 4096))).foldl (fun (s : State) x => s.touchLeaf vf (4096 * x) false) read.2
  let s : State := (dedup (pas.map (fun pa => pa / 64))).foldl (fun (s : State) x => s.hostSend part (64 * x) []) s
  s.answerRead read.1 (pas.any (fun pa => s.poisoned pa))

/-- One byte of the queue control block lines of BAR4: queue `q`'s halves stand on the lines at 1,024 q (R398, log 37). -/
def Func.bar4 (f : Func) (o : Nat) : Byte :=
  let b := sget Qcb.reset f.queues (o / 1024)
  if o % 1024 < 128 then b.hyp.extractLsb' (8 * (o % 1024)) 8
  else if 512 ≤ o % 1024 ∧ o % 1024 < 576 then b.half.extractLsb' (8 * (o % 1024 - 512)) 8
  else 0#8

/-- HOST_WINDOW_ACCESS: data is a write, none a read of `size` bytes. BAR0 holds the registers of R401 and the snapshot window; BAR2
addresses are virtual addresses of the function; of the lines of BAR4 only WRITE can be written (R398, R401, log 37). -/
def execHostWindowAccess (vf bar addr : Nat) (data : List Byte) (size : Nat) (s : State) : Host.Outcome State Fault Refusal :=
  .next (
    if 96 < vf then s
    else if data = [] then
      if bar = 0 then
        if 0x100000 ≤ addr then s.readSnap vf (addr - 0x100000) size
        else s.answerRead ((List.range size).map (fun i => (s.func vf).bar0 (addr + i))) false
      else if bar = 2 then match s.partOfVf vf with
        | some part => s.hostLoad vf part addr size
        | none => s
      else if bar = 4 then s.answerRead ((List.range size).map (fun i => if addr + i < 65536 then (s.func vf).bar4 (addr + i) else 0#8)) false
      else s
    else if bar = 0 then (if data.length = 8 then s.registerWrite vf addr (BitVec.ofNat 64 (natOfBytes data)) else s)
    else if bar = 2 then s.hostStore vf addr data
    else if bar = 4 ∧ addr % 1024 ≤ 572 ∧ 576 ≤ addr % 1024 + data.length ∧ addr < 65536 then
      s.evWriteNotify vf (addr / 1024) (wd (natOfBytes ((data.drop (572 - addr % 1024)).take 4)))
    else s)

end Sys2Proof.Machine
end

