-- ==== Sys2Proof/Machine/Mailbox.lean ====
section
/-!
DEFINITION. The mailbox: requests, their statuses and what each carries out (spec 16 R401 to R405, R407 to R409, R413, R415, R420,
R424; 15 R381, R396; 24 R481, R482).
-/

namespace Sys2Proof.Machine

/-! ### Requests and responses (R401 to R403) -/

/-- The outcome of a request: a status of R403 other than OK, or the response payload and the state. -/
inductive MailRes where
  | status (n : Nat)
  | ok (payload : List Byte) (s : State)

/-- DENIED. -/
def MailRes.denied : MailRes := .status 2
/-- INVALID. -/
def MailRes.invalid : MailRes := .status 3
/-- BUSY. -/
def MailRes.busy : MailRes := .status 4
/-- NOTFOUND. -/
def MailRes.notFound : MailRes := .status 5
/-- FULL. -/
def MailRes.full : MailRes := .status 6
/-- REFUSED. -/
def MailRes.refused : MailRes := .status 7

/-- The header of a response (R402). -/
def responseHeader (r : MailReq) (opcode length status : Nat) : BitVec 128 :=
  BitVec.ofNat 128 (r.arg.toNat * 2 ^ 64 + opcode % 65536 * 2 ^ 48 + length % 65536 * 2 ^ 32 + r.tag.toNat * 2 ^ 16 +
    r.target % 256 * 2 ^ 8 + status)

/-- The response stands in the buffer: BUSY clears, DONE is set, and vector 64 is signalled (R401). -/
def State.respond (s : State) (r : MailReq) (opcode status : Nat) (payload : List Byte) : State :=
  s.updFunc r.vf (fun f => { f with
    mailbox := { f.mailbox with
      response := responseHeader r opcode payload.length status
      payload := payload
      busy := false
      done := true }
    pba := sset false f.pba 64 true })

/-- The function a request acts for (R402). -/
def mailSubject (r : MailReq) : Nat := if r.vf = 96 then r.target else r.vf

/-- The little-endian number of a payload. -/
def mailNum (r : MailReq) : Nat := natOfBytes r.payload

/-- A request is carried out: from the functions its row names, with a length its row gives and the ARG bits outside `arg` zero
(R402 to R404). The firmware must serve. -/
def State.mailRequest (s : State) (r : MailReq) (opcode : Nat) (pf : Bool) (arg : Nat) (len : Nat → Bool)
    (f : Nat → State → MailRes) : Host.Outcome State Fault Refusal :=
  .next (
    if 96 < r.vf ∨ s.firmware = false then s
    else
      let res := if pf && decide (r.vf ≠ 96) then MailRes.denied
        else if 96 < (mailSubject r) ∨ Nat.land r.arg.toNat arg ≠ r.arg.toNat ∨ len r.payload.length = false then MailRes.invalid
        else f (mailSubject r) s
      match res with
      | .status n => s.respond r opcode n []
      | .ok p t => t.respond r opcode 0 p)

/-- No payload. -/
def noPayload (n : Nat) : Bool := decide (n = 0)

/-- Exactly so many bytes. -/
def lenIs (k n : Nat) : Bool := decide (n = k)

/-- ARG as a number, in some bits. -/
def mailArg (r : MailReq) (hi lo : Nat) : Nat := bitsN r.arg hi lo

/-! ### Objects -/

/-- Whether a function has resident or saved work. -/
def State.holdsWork (s : State) (vf : Nat) : Bool :=
  s.cores.any (fun c => c.2.wgs.any (fun e => match e.2 with
    | some g => decide (g.vf = vf)
    | none => false)) || s.parts.any (fun p => p.2.saved.any (fun x => decide (x.wg.vf = vf)))

/-- Whether a context has resident or saved workgroups. -/
def State.ctxWork (s : State) (ctx : Nat) : Bool :=
  s.cores.any (fun c => c.2.wgs.any (fun e => match e.2 with
    | some g => decide (g.ctx = ctx)
    | none => false)) || s.parts.any (fun p => p.2.saved.any (fun x => decide (x.wg.ctx = ctx)))

/-- Whether a sector, or the partition that owns it, holds resident or saved work. -/
def State.sectorWork (s : State) (sec : Nat) : Bool :=
  (List.range 64).any (fun i => decide ((s.core (64 * sec + i)).wgs ≠ [])) ||
    (match s.partOfSector sec with
      | some n => decide ((s.part n).saved ≠ [])
      | none => false)

/-- Whether a partition holds resident or saved work. -/
def State.partWork (s : State) (part : Nat) : Bool := (s.part part).sectorList.any (fun x => s.sectorWork x)

/-- FEATURES of a function (R378). -/
def State.offered (s : State) (vf : Nat) : BitVec 128 :=
  match (s.func vf).queues.find? (fun q => decide (q.2.hyp ≠ 0#1024)) with
  | some q => BitVec.ofNat 128 (bitsN q.2.hyp 959 832)
  | none => 0#128

/-- Continue with a partition that exists. -/
def State.withPart (s : State) (n : Nat) (f : Part → MailRes) : MailRes :=
  if (s.part n).sectors = 0#12 then .notFound else f (s.part n)

/-- Continue with a queue that exists: firmware has written its hypervisor half. -/
def State.withQueue (s : State) (vf q : Nat) (f : Qcb → MailRes) : MailRes :=
  if (s.qcb vf q).hyp = 0#1024 then .notFound else f (s.qcb vf q)

/-! ### Features and queues (R381, R415) -/

/-- FEAT_ACCEPT (R415): bits 0 to 10 of FEATURES may be accepted; bit 0 always is (R414). -/
def execFeatAccept (r : MailReq) (s : State) : Host.Outcome State Fault Refusal :=
  s.mailRequest r 0x0001 false 0 (lenIs 16) (fun vf s =>
    let w := BitVec.ofNat 128 (mailNum r)
    let may := (s.offered vf &&& 0x7FF#128) ||| 1#128
    if w &&& may ≠ w then .denied
    else if s.holdsWork vf then .busy
    else .ok [] (s.updFunc vf (fun f => { f with feat := w ||| 1#128 })))

/-- QUEUE_STOP (R381). -/
def execQueueStop (r : MailReq) (s : State) : Host.Outcome State Fault Refusal :=
  s.mailRequest r 0x0002 false 0x3F noPayload (fun vf s =>
    let q := (mailArg r 5 0)
    s.withQueue vf q (fun b => if 2 < b.state then .busy else .ok [] (s.updQcb vf q (fun b => b.setState 3))))

/-- QUEUE_START (R381). -/
def execQueueStart (r : MailReq) (s : State) : Host.Outcome State Fault Refusal :=
  s.mailRequest r 0x0003 false 0x3F noPayload (fun vf s =>
    let q := (mailArg r 5 0)
    s.withQueue vf q (fun b =>
      if b.state ≠ 3 then .busy
      else .ok [] (s.updQcb vf q (fun b => b.setState (if b.waited then 2 else if b.pending then 1 else 0)))))

/-- What QUEUE_RESET leaves of a queue, and how many packets it discards (R381). -/
def Qcb.reset' (b : Qcb) (skip : Bool) : Qcb × Nat :=
  let left := (b.write + 2 ^ 32 - b.done % 2 ^ 32) % 2 ^ 32
  let n := if skip then min left 1 else left
  let done := b.done + n
  let h := setBits (setBits (setBits b.half 447 384 done) 479 448 (if skip then done else b.write)) 380 373 0
  let more := decide (done % 2 ^ 32 ≠ b.write) && skip
  ({ b with
    half := setBits h 383 381 (if more then 1 else 0)
    started := []
    dispatching := none
    waited := false
    drain := [] }, n)

/-- The grids and placed blocks of a queue are dropped. -/
def State.dropGrids (s : State) (part vf q : Nat) : State :=
  let dead := (s.part part).grids.filterMap (fun e => match e.2 with
    | some x => if x.vf = vf ∧ x.queue = q then some e.1 else none
    | none => none)
  s.updPart part (fun p => { p with
    grids := dead.foldl (fun m n => sset none m n none) p.grids
    tcbs := (p.tcbs.map (fun (t : Nat × List Tcb) => (t.1, t.2.filter (fun b => !dead.contains b.grid)))).filter (fun t => decide (t.2 ≠ [])) })

/-- QUEUE_RESET (R381): the response carries how many packets were discarded. -/
def execQueueReset (r : MailReq) (s : State) : Host.Outcome State Fault Refusal :=
  s.mailRequest r 0x0004 false 0x13F noPayload (fun vf s =>
    let q := (mailArg r 5 0)
    s.withQueue vf q (fun b =>
      if b.state < 3 ∨ s.ctxWork (ctxOf vf q) = true then .busy
      else
        let (b', n) := b.reset' (r.arg.getLsbD 8)
        let s := match s.partOfVf vf with
          | some part => s.dropGrids part vf q
          | none => s
        .ok (bytesOfNat n 8) (s.updQcb vf q (fun _ => b'))))

/-! ### Records and events (R405, R450, R481, R482) -/

/-- FAULT_READ (R450). -/
def execFaultRead (r : MailReq) (s : State) : Host.Outcome State Fault Refusal :=
  s.mailRequest r 0x0005 false 0 noPayload (fun vf s => match (s.func vf).records with
    | [] => .ok [] s
    | x :: rest => .ok (bytesOfNat x.toNat 64) (s.updFunc vf (fun f => { f with records := rest })))

/-- A quota event's bits (R481). -/
def QuotaEvent.bits (e : QuotaEvent) : Nat :=
  e.va % 2 ^ 64 * 2 ^ 192 + e.pool % 2 ^ 64 * 2 ^ 128 + e.taken % 2 ^ 32 * 2 ^ 96 + e.quota % 2 ^ 32 * 2 ^ 64 + e.vf % 128 * 2 ^ 57 +
    (if e.limit then 2 ^ 56 else 0) + e.source % 4 * 2 ^ 54

/-- QUOTA_READ (R481): the event read stays answerable. -/
def execQuotaRead (r : MailReq) (s : State) : Host.Outcome State Fault Refusal :=
  s.mailRequest r 0x0006 false 0 noPayload (fun vf s => match (s.func vf).quota.find? (fun e => !e.read) with
    | none => .ok [] s
    | some e => .ok (bytesOfNat e.bits 32) (s.updFunc vf (fun f => { f with
        quota := f.quota.map (fun (x : QuotaEvent) => if x = e then { x with read := true } else x) })))

/-- A wave that waits for a page is told that its map is refused. -/
def Wave.refusePage (page : Nat) (w : Wave) : Wave := match w.walk with
  | some h => if h.demand ∧ h.va / 65536 * 65536 = page then { w with walk := some { h with refused := true } } else w
  | none => w

/-- The waves of a function that wait for a page, resident and saved, are told that its map is refused (R482). -/
def State.refuseWaves (s : State) (vf page : Nat) : State :=
  { s with
    cores := s.cores.map (fun c => (c.1, { c.2 with waves := c.2.waves.map (fun e => (e.1, e.2.map (fun w =>
      match sget none c.2.wgs w.wg with
      | some g => if g.vf = vf then w.refusePage page else w
      | none => w))) }))
    parts := s.parts.map (fun p => (p.1, { p.2 with saved := p.2.saved.map (fun x =>
      if x.wg.vf = vf then { x with waves := x.waves.map (fun w => w.refusePage page) } else x) })) }

/-- The copy channels of a function that stall on a page take the engine fault QUOTA (R482). -/
def State.refuseCopies (s : State) (vf page : Nat) : State :=
  let all := s.cores.flatMap (fun c => c.2.wgs.flatMap (fun e => match e.2 with
    | some g => if g.vf = vf then g.channels.filterMap (fun h => match h.2.todo with
        | p :: _ => if 3 ≤ p.dir ∧ p.sent = none ∧ p.va / 65536 * 65536 = page then some (c.1, e.1, h.1, p) else none
        | [] => none) else []
    | none => []))
  all.foldl (fun (s : State) x => s.copyFault x.1 x.2.1 x.2.2.1 x.2.2.2 0x0F 0) s

/-- The destination unit a chain's engine writes next, with SEQ. -/
def State.chainTarget (s : State) (part : Nat) (x : Chain) : Option (Nat × Nat) :=
  match s.chainDesc part x with
  | .error _ => none
  | .ok d =>
    let seq := descSeq d
    if seq = bitsN d 383 352 then none
    else match s.readVa x.vf part (bitsN d 511 448 + 64 * (seq % 2 ^ bitsN d 447 443)) 64 with
      | .error _ => none
      | .ok bs =>
        let e := BitVec.ofNat 512 (natOfBytes bs)
        if bitsN e 7 0 ≤ 3 then some (bitsN e 191 128 + x.offset, seq) else none

/-- The chains of a function that stall on a page stop (R482, R505). -/
def State.refuseChains (s : State) (vf page : Nat) : State :=
  match s.partOfVf vf with
  | none => s
  | some part => (s.part part).chains.foldl (fun (s : State) x =>
      if x.vf ≠ vf ∨ x.stopped = true then s
      else match s.chainTarget part x with
        | some (va, seq) => match s.engineTranslate vf part va .store with
          | .grow _ => if va / 65536 * 65536 = page then s.chainStop part x seq 0x0F 0 else s
          | _ => s
        | none => s) s

/-- The held host writes of a function on a page are dropped, each with a record (R482). -/
def State.refuseHost (s : State) (vf page : Nat) : State :=
  let mine := s.hostHeld.filter (fun h => decide (h.1 = vf) && decide (h.2.1 / 65536 * 65536 = page))
  let s := { s with hostHeld := s.hostHeld.filter (fun h => !mine.contains h) }
  let now := match s.partOfVf vf with
    | some part => s.pclk part
    | none => s.clk
  mine.foldl (fun (s : State) _ => s.postRecord vf (plainRecord 0x0F 3 0 0 0 vf page now).bits) s

/-- QUOTA_ANSWER (R482): REFUSE is void where the pool can map. -/
def execQuotaAnswer (r : MailReq) (s : State) : Host.Outcome State Fault Refusal :=
  s.mailRequest r 0x0007 false (2 ^ 63 + 2 ^ 60 - 2 ^ 16) noPayload (fun vf s =>
    let page := (mailArg r 59 16) * 65536
    if !(s.func vf).quota.any (fun e => decide (e.va = page) && !e.answered) then .notFound
    else if r.arg.getLsbD 63 && (s.mapRefused (s.poolOf vf)).isSome then
      let s := s.updFunc vf (fun f => { f with quota := f.quota.filter (fun e => decide (e.va ≠ page)) })
      .ok [] ((((s.refuseWaves vf page).refuseCopies vf page).refuseChains vf page).refuseHost vf page)
    else .ok [] (s.updFunc vf (fun f => { f with quota := f.quota.map (fun (e : QuotaEvent) =>
      if e.va = page then { e with answered := true } else e) })))

/-- EVENT_READ (R405). -/
def execEventRead (r : MailReq) (s : State) : Host.Outcome State Fault Refusal :=
  s.mailRequest r 0x0011 false 0 noPayload (fun vf s => match (s.func vf).events with
    | [] => .ok [] s
    | x :: rest => .ok (bytesOfNat x.toNat 16) (s.updFunc vf (fun f => { f with events := rest })))

/-- CTX_KILL (R491): a context of the function itself. -/
def execCtxKill (r : MailReq) (s : State) : Host.Outcome State Fault Refusal :=
  s.mailRequest r 0x0008 false 0xFFFF noPayload (fun vf s =>
    let ctx := (mailArg r 15 0)
    if ctx = 0 then .notFound
    else if ctxVf ctx ≠ vf then .denied
    else match s.partOfVf vf with
      | none => .notFound
      | some part => s.withQueue vf (ctxQueue ctx) (fun _ => .ok [] (s.killCtx part ctx 0x19 0 0 true)))

/-! ### Chains (R391, R505) -/

/-- The registration of a function by its descriptor. -/
def State.chainAt (s : State) (vf desc : Nat) : Option (Nat × Chain) :=
  match s.partOfVf vf with
  | none => none
  | some part => ((s.part part).chains.find? (fun x => decide (x.vf = vf) && decide (x.desc = desc))).map (fun x => (part, x))

/-- CHAIN_REG (R391): the engine is that of the sector of the descriptor's home. -/
def execChainReg (r : MailReq) (s : State) : Host.Outcome State Fault Refusal :=
  s.mailRequest r 0x0009 false (2 ^ 64 - 1) noPayload (fun vf s =>
    let va := r.arg.toNat
    match s.partOfVf vf with
    | none => .notFound
    | some part =>
      if va % 64 ≠ 0 then .invalid
      else match s.readVa vf part va 64, s.engineTranslate vf part va .load with
        | .ok bs, .ok pa _ =>
          let d := BitVec.ofNat 512 (natOfBytes bs)
          let num := bitsN d 442 437
          let sec := optD (s.homeSector pa) 0
          if bitsN d 436 384 ≠ 0 ∨ bitsN d 319 0 ≠ 0 ∨ bitsN d 511 448 % 64 ≠ 0 ∨ bitsN d 447 443 = 0 ∨ 16 < bitsN d 447 443 ∨
              (s.chain part num).isSome = true then .invalid
          else if 64 ≤ ((s.part part).chains.filter (fun x => decide (x.sector = sec))).length then .full
          else .ok (bytesOfNat (if vf = 96 then sec else (s.part part).rank sec) 8) (s.updPart part (fun p => { p with
            chains := p.chains ++ [⟨num, sec, vf, ctxOf vf 0, va, false, 0, false⟩] }))
        | _, _ => .invalid)

/-- CHAIN_UNREG (R404). -/
def execChainUnreg (r : MailReq) (s : State) : Host.Outcome State Fault Refusal :=
  s.mailRequest r 0x000A false (2 ^ 64 - 1) noPayload (fun vf s => match s.chainAt vf r.arg.toNat with
    | none => .notFound
    | some (part, x) =>
      let idle := match s.chainDesc part x with
        | .ok d => decide (descSeq d = bitsN d 383 352)
        | .error _ => false
      if !x.stopped && !idle then .busy
      else .ok [] (s.updPart part (fun p => { p with chains := p.chains.filter (fun c => decide (c.num ≠ x.num)) })))

/-- A stopped chain resumes. -/
def State.chainResume (s : State) (part : Nat) (x : Chain) : State := s.updChain part x.num (fun c => { c with stopped := false })

/-- CHAIN_RESTART (R505). -/
def execChainRestart (r : MailReq) (s : State) : Host.Outcome State Fault Refusal :=
  s.mailRequest r 0x000B false (2 ^ 64 - 1) noPayload (fun vf s => match s.chainAt vf r.arg.toNat with
    | none => .notFound
    | some (part, x) => if x.stopped then .ok [] (s.chainResume part x) else .busy)

/-- CHAIN_SKIP (R505). -/
def execChainSkip (r : MailReq) (s : State) : Host.Outcome State Fault Refusal :=
  s.mailRequest r 0x000C false (2 ^ 64 - 1) noPayload (fun vf s => match s.chainAt vf r.arg.toNat with
    | none => .notFound
    | some (part, x) =>
      if !x.stopped then .busy
      else match s.chainDesc part x with
        | .ok d => .ok [] ((s.chainResume part x).chainNext part x (descSeq d))
        | .error _ => .busy)

/-! ### Pools, debug, snapshots, temperatures -/

/-- POOL_SET (R107, R404): the record of the function's own pool, or any named by the physical function. -/
def execPoolSet (r : MailReq) (s : State) : Host.Outcome State Fault Refusal :=
  s.mailRequest r 0x000D false (2 ^ 64 - 1) (lenIs 64) (fun vf s =>
    let a := r.arg.toNat
    let x := BitVec.ofNat 512 (mailNum r)
    if a % 64 ≠ 0 ∨ bitsN x 287 0 ≠ 0 then .invalid
    else if (r.vf ≠ 96 ∧ a ≠ s.poolOf vf) ∨ (s.partOfSector (s.canon a / Config.sectorBytes)).isNone = true then .denied
    else .ok [] (s.setPool a [(511, 448, bitsN x 511 448), (415, 384, bitsN x 415 384), (351, 288, bitsN x 351 288)]))

/-- DEBUG_AUTH (R418): a session of the debug function is authorised, or withdrawn. -/
def execDebugAuth (r : MailReq) (s : State) : Host.Outcome State Fault Refusal :=
  s.mailRequest r 0x000E false (2 ^ 63 + 2 ^ 32 - 1) noPayload (fun vf s =>
    let x := (mailArg r 31 0)
    if r.arg.getLsbD 63 then
      (if (s.func vf).debugAuth = some x then .ok [] (s.updFunc vf (fun f => { f with
        debugAuth := none
        debugAttached := false })) else .notFound)
    else if (s.func 97).spdm.sessions.contains x then .ok [] (s.updFunc vf (fun f => { f with debugAuth := some x })) else .notFound)

/-- SNAP_READ (R417): the function's part of the latest snapshot of its partition. -/
def execSnapRead (r : MailReq) (s : State) : Host.Outcome State Fault Refusal :=
  s.mailRequest r 0x000F false (2 ^ 64 - 1) noPayload (fun vf s => match s.partOfVf vf with
    | none => .notFound
    | some part => match (s.part part).snap with
      | none => .notFound
      | some x => .ok (((x.bytes vf).drop r.arg.toNat).take 4080) s)

/-- TEMP_READ (R404, R427). -/
def execTempRead (r : MailReq) (s : State) : Host.Outcome State Fault Refusal :=
  s.mailRequest r 0x0010 false 0 noPayload (fun _ s =>
    .ok ((List.range 32).flatMap (fun i => bytesOfNat (if i < 18 then (s.temps.getD i 0#16).toNat else 0) 2)) s)

/-! ### Requests of the physical function (R404) -/

/-- The fields of a hypervisor half that R378 bounds, for a queue of a function. -/
def hypOk (h : BitVec 1024) (vf q : Nat) : Bool :=
  decide (bitsN h 485 0 = 0) && decide (bitsN h 503 497 = vf) && decide (bitsN h 492 487 = q) && decide (bitsN h 496 493 < 12) &&
    decide (4 ≤ bitsN h 511 507 ∧ bitsN h 511 507 ≤ 16) && decide (bitsN h 1023 960 % 128 = 0) && decide (bitsN h 831 768 % 32768 = 0) &&
    decide (bitsN h 575 560 ≠ 0)

/-- HQ_WRITE (R378, R404). The accepted features stay a subset of the offered ones (R378). -/
def execHqWrite (r : MailReq) (s : State) : Host.Outcome State Fault Refusal :=
  s.mailRequest r 0x0100 true 0x3F (lenIs 128) (fun vf s =>
    let q := (mailArg r 5 0)
    let h := BitVec.ofNat 1024 (mailNum r)
    let st := (s.qcb vf q).state
    let offered := BitVec.ofNat 128 (bitsN h 959 832) ||| 1#128
    let f := s.func vf
    if !hypOk h vf q then .invalid
    else if st = 1 ∨ st = 2 ∨ (f.feat &&& offered ≠ f.feat ∧ s.holdsWork vf = true) then .busy
    else .ok [] ((s.updQcb vf q (fun b => { b with hyp := h })).updFunc vf (fun f => { f with feat := f.feat &&& offered })))

/-- The tenants of a partition, with the slots they hold (R407, R409). -/
def Part.setTenants (p : Part) (ts : List Nat) : Part := { p with tenants := ts, tenantSlots := BitVec.ofNat 16 (2 ^ ts.length - 1) }

/-- TENANT (R409). -/
def execTenant (r : MailReq) (s : State) : Host.Outcome State Fault Refusal :=
  s.mailRequest r 0x0101 true (2 ^ 63 + 15) noPayload (fun vf s =>
    let n := (mailArg r 3 0)
    s.withPart n (fun p =>
      if r.arg.getLsbD 63 then
        (if !p.tenants.contains vf then .notFound
          else if s.holdsWork vf then .busy
          else .ok [] (s.updPart n (fun p => { p.setTenants (p.tenants.erase vf) with
            slice := match p.slice with
              | some (f, t) => if f = vf then none else some (f, t)
              | none => none })))
      else if 16 ≤ p.tenants.length then .full
      else if (s.partOfVf vf).isSome || p.duet.isSome then .busy
      else .ok [] (s.updPart n (fun p => p.setTenants (p.tenants ++ [vf])))))

/-- PART_CONFIG (R407): a partition is created, replaced or deleted, and its units start afresh. -/
def execPartConfig (r : MailReq) (s : State) : Host.Outcome State Fault Refusal :=
  s.mailRequest r 0x0102 true 1 (lenIs 16) (fun _ s =>
    let x := BitVec.ofNat 128 (mailNum r)
    let sectors := BitVec.ofNat 12 (bitsN x 127 116)
    let n := bitsN x 115 112
    let p := s.part n
    let named := (List.range 12).filter (fun i => (sectors ||| p.sectors).getLsbD i)
    let del := r.arg.getLsbD 0
    if 11 < n ∨ bitsN x 111 80 ≠ 0 ∨ bitsN x 63 44 ≠ 0 ∨ (del = false ∧ sectors = 0#12) then .invalid
    else if del ∧ p.sectors = 0#12 then .notFound
    else if !del && decide (sectors &&& s.failedSectors ≠ 0#12) then .denied
    else if named.any (fun i => s.sectorWork i) || (!del && named.any (fun i => match s.partOfSector i with
        | some m => decide (m ≠ n)
        | none => false)) then .busy
    else
      let s := s.clearPart n
      let keep := ((List.range 16).zip p.tenants).filterMap (fun t => if (BitVec.ofNat 16 (bitsN x 79 64)).getLsbD t.1 then some t.2 else none)
      let s := { s with parts := sset Part.reset s.parts n (if del then Part.reset else
        { Part.reset.setTenants keep with
          sectors := sectors
          origin := s.clk
          membase := Config.sectorBytes * (named.filter (fun i => sectors.getLsbD i)).headD 0 }) }
      .ok [] s.tagRings)

/-- GRANT_RANGE (R387, R404). -/
def execGrantRange (r : MailReq) (s : State) : Host.Outcome State Fault Refusal :=
  s.mailRequest r 0x0103 true (2 ^ 63) (lenIs 16) (fun vf s =>
    let g := (natOfBytes (r.payload.take 8), natOfBytes (r.payload.drop 8))
    let f := s.func vf
    if g.1 % 65536 ≠ 0 ∨ g.2 % 65536 ≠ 0 ∨ g.2 = 0 ∨ s.isLocal g.1 = false ∨ 12 * Config.sectorBytes < s.canon g.1 + g.2 then .invalid
    else if r.arg.getLsbD 63 then
      (if f.grants.contains g then .ok [] (s.updFunc vf (fun f => { f with grants := f.grants.erase g })) else .notFound)
    else if 16 ≤ f.grants.length then .full
    else .ok [] (s.updFunc vf (fun f => { f with grants := f.grants ++ [g] })))

/-- QUOTA_CTRL (R413). A duet keeps FROZEN set (R420). -/
def execQuotaCtrl (r : MailReq) (s : State) : Host.Outcome State Fault Refusal :=
  s.mailRequest r 0x0104 true 15 (lenIs 8) (fun _ s =>
    let n := (mailArg r 3 0)
    let x := BitVec.ofNat 64 (mailNum r)
    if bitsN x 63 9 ≠ 0 ∨ bitsN x 7 3 ≠ 0 then .invalid
    else s.withPart n (fun p =>
      if p.duet.isSome && !x.getLsbD 8 then .busy
      else .ok [] (s.updPart n (fun p => { p with
        frozen := x.getLsbD 8
        interval := bitsN x 2 0 }))))

/-- TELE_SET (R503). -/
def execTeleSet (r : MailReq) (s : State) : Host.Outcome State Fault Refusal :=
  s.mailRequest r 0x0105 true 15 (lenIs 8) (fun _ s =>
    let n := (mailArg r 3 0)
    if (mailNum r) % 64 ≠ 0 then .invalid
    else s.withPart n (fun _ => .ok [] (s.updPart n (fun p => { p with telebase := BitVec.ofNat 64 (mailNum r) }))))

/-- TRIGGER_MASK (R508). -/
def execTriggerMask (r : MailReq) (s : State) : Host.Outcome State Fault Refusal :=
  s.mailRequest r 0x0106 true 15 (lenIs 8) (fun _ s =>
    let n := (mailArg r 3 0)
    if 2 ^ 32 ≤ (mailNum r) then .invalid else s.withPart n (fun _ => .ok [] (s.updPart n (fun p => { p with triggerMask := wd (mailNum r) }))))

/-- TIMER_TRIGGER (R416). -/
def execTimerTrigger (r : MailReq) (s : State) : Host.Outcome State Fault Refusal :=
  s.mailRequest r 0x0107 true 15 (lenIs 8) (fun _ s =>
    let n := (mailArg r 3 0)
    if (mailNum r) ≠ 0 ∧ (mailNum r) < 65536 then .invalid
    else s.withPart n (fun _ => .ok [] (s.updPart n (fun p => { p with
      timer := (mailNum r)
      timerFrom := s.clk }))))

/-- Whether a list rises strictly. -/
def rising : List Nat → Bool
  | x :: y :: rest => decide (x < y) && rising (y :: rest)
  | _ => true

/-- GROUP_REG (R424). -/
def execGroupReg (r : MailReq) (s : State) : Host.Outcome State Fault Refusal :=
  s.mailRequest r 0x0108 true (2 ^ 63 + 2 ^ 32 - 1) (fun n => decide (n % 8 = 0) && decide (n ≤ 144)) (fun _ s =>
    let id := (mailArg r 31 0)
    let known := s.groups.any (fun g => decide (g.1 = id))
    if r.arg.getLsbD 63 then
      (if known then .ok [] { s with groups := s.groups.filter (fun g => decide (g.1 ≠ id)) } else .notFound)
    else
      let ns := r.payload.map (fun b => b.toNat)
      let ms := ns.takeWhile (fun n => decide (n ≠ 255))
      if ms.length < 2 ∨ rising ms = false ∨ ms.any (fun m => decide (144 ≤ m)) = true ∨
          (ns.drop ms.length).any (fun n => decide (n ≠ 255)) = true then .invalid
      else if known then .busy
      else .ok [] { s with groups := s.groups ++ [(id, ms)] })

/-- PACKAGE_SET (R422, R425). -/
def execPackageSet (r : MailReq) (s : State) : Host.Outcome State Fault Refusal :=
  s.mailRequest r 0x0109 true 0xFF (lenIs 8) (fun _ s =>
    if 143 < (mailArg r 7 0) ∨ 2 ^ 18 ≤ (mailNum r) then .invalid
    else if (skeys s.parts).any (fun n => s.partWork n) then .busy
    else .ok [] { s with
      package := (mailArg r 7 0)
      ports := (List.range 18).foldl (fun m i => sset Port.reset m i { Port.reset with
        enabled := (BitVec.ofNat 18 (mailNum r)).getLsbD i }) s.ports })

/-- PSTATE (R426). -/
def execPstate (r : MailReq) (s : State) : Host.Outcome State Fault Refusal :=
  s.mailRequest r 0x010C true 1 noPayload (fun _ s => .ok [] (({ s with pstate := (mailArg r 0 0) }).postPower s.inP1))

/-- DUET_FORM (R420): the partition's single tenant has accepted duets, and ports 16 and 17 are up. -/
def execDuetForm (r : MailReq) (s : State) : Host.Outcome State Fault Refusal :=
  s.mailRequest r 0x010D true (2 ^ 63 + 0xFF0F) noPayload (fun _ s =>
    let n := (mailArg r 3 0)
    let peer := (mailArg r 15 8)
    s.withPart n (fun p =>
      if s.partWork n then .busy
      else if r.arg.getLsbD 63 then match p.duet with
        | none => .notFound
        | some d => if d.edge ≠ [] ∨ d.closed ≠ [] then .busy else .ok [] (s.updPart n (fun p => { p with duet := none }))
      else if 143 < peer ∨ peer = s.package then .invalid
      else if p.duet.isSome || !s.portLive 16 || !s.portLive 17 || decide (p.tenants.length ≠ 1) then .busy
      else if p.tenants.any (fun t => !s.hasFeat t 10 || (s.func t).debugAttached) then .denied
      else .ok [] (s.updPart n (fun p => { p with
        duet := some ⟨peer, s.clk / 2048, [], [], []⟩
        frozen := true
        quotas := []
        tslice := 0#32
        slice := none
        grace := none }))))

/-! ### Images (R394 to R396) -/

/-- The standby complex. -/
def State.standby (s : State) : Complex := if s.activeB then s.complexA else s.complexB

/-- The standby complex replaced. -/
def State.setStandby (s : State) (c : Complex) : State := if s.activeB then { s with complexA := c } else { s with complexB := c }

/-- FW_LOAD (R396 step 1). -/
def execFwLoad (r : MailReq) (s : State) : Host.Outcome State Fault Refusal :=
  s.mailRequest r 0x010A true (2 ^ 64 - 8) (fun n => decide (n % 8 = 0) && decide (0 < n) && decide (n ≤ 4080)) (fun _ s =>
    .ok [] (s.setStandby { s.standby with staged := ssetList 0#8 s.standby.staged r.arg.toNat r.payload }))

/-- Every open session of every function ends, with an event; the authorisations that rested on them end (R400, R405, R418). -/
def State.endSessions (s : State) : State :=
  let open' := s.funcs.filterMap (fun f => if f.2.spdm.sessions ≠ [] then some f.1 else none)
  let s := { s with funcs := s.funcs.map (fun f => (f.1, { f.2 with
    spdm := { Spdm.fresh with ended := f.2.spdm.ended || decide (f.2.spdm.sessions ≠ []) }
    debugAuth := none
    debugAttached := false })) }
  open'.foldl (fun (s : State) vf => s.postEvent vf 0x04 0 (s.pclk 0)) s

/-- FW_UPDATE (R394 to R396): the standby verifies its image, imports the state table, and becomes active. -/
def execFwUpdate (r : MailReq) (s : State) : Host.Outcome State Fault Refusal :=
  s.mailRequest r 0x010B true (2 ^ 64 - 1) noPayload (fun _ s =>
    let n := r.arg.toNat
    if n = 0 ∨ 2 ^ 32 < n then .invalid
    else
      let image := sgetList 0#8 s.standby.staged 0 n
      let (major, minor) := Config.imageTable image
      if !Config.imageVerifies image || decide (Config.imageVersion image < Config.fusedVersion) || decide (major < s.stateMajor) then .refused
      else
        let s := s.setStandby { s.standby with
          ok := true
          digest := Config.sm3 image
          version := Config.imageVersion image }
        let s := { s with
          activeB := !s.activeB
          missed := 0
          stateMajor := major
          stateMinor := minor }
        .ok [] (s.endSessions.postAll 0x02 (major % 65536 * 65536 + minor % 65536)))

/-! ### The request that DOORBELL submits (R401, R402) -/

/-- The header of the request that the firmware has copied. -/
def Mailbox.header (m : Mailbox) : BitVec 128 := BitVec.ofNat 128 (natOfBytes (sgetList 0#8 m.copy 0 16))

/-- The request of a function that the firmware has copied (R402). -/
def Mailbox.taken (m : Mailbox) (vf : Nat) : MailReq where
  vf := vf
  target := bitsN m.header 15 8
  arg := BitVec.ofNat 64 (bitsN m.header 127 64)
  tag := BitVec.ofNat 16 (bitsN m.header 31 16)
  payload := sgetList 0#8 m.copy 16 (bitsN m.header 47 32)

/-- A request is carried out by its OPCODE; an unknown one is INVALID (R403, R404). -/
def State.mailCarry (s : State) (r : MailReq) (opcode : Nat) : Host.Outcome State Fault Refusal := match opcode with
  | 0x0001 => execFeatAccept r s
  | 0x0002 => execQueueStop r s
  | 0x0003 => execQueueStart r s
  | 0x0004 => execQueueReset r s
  | 0x0005 => execFaultRead r s
  | 0x0006 => execQuotaRead r s
  | 0x0007 => execQuotaAnswer r s
  | 0x0008 => execCtxKill r s
  | 0x0009 => execChainReg r s
  | 0x000A => execChainUnreg r s
  | 0x000B => execChainRestart r s
  | 0x000C => execChainSkip r s
  | 0x000D => execPoolSet r s
  | 0x000E => execDebugAuth r s
  | 0x000F => execSnapRead r s
  | 0x0010 => execTempRead r s
  | 0x0011 => execEventRead r s
  | 0x0100 => execHqWrite r s
  | 0x0101 => execTenant r s
  | 0x0102 => execPartConfig r s
  | 0x0103 => execGrantRange r s
  | 0x0104 => execQuotaCtrl r s
  | 0x0105 => execTeleSet r s
  | 0x0106 => execTriggerMask r s
  | 0x0107 => execTimerTrigger r s
  | 0x0108 => execGroupReg r s
  | 0x0109 => execPackageSet r s
  | 0x010A => execFwLoad r s
  | 0x010B => execFwUpdate r s
  | 0x010C => execPstate r s
  | 0x010D => execDuetForm r s
  | n => .next (if s.firmware then s.respond r n 3 [] else s)

/-- The submitted request of a function is carried out; a LENGTH that no row has is INVALID (R401 to R404). -/
def State.mailServe (s : State) (vf : Nat) : Host.Outcome State Fault Refusal :=
  let m := (s.func vf).mailbox
  let n := bitsN m.header 47 32
  let r := m.taken vf
  if !m.busy then .next s
  else if 4080 < n ∨ n % 8 ≠ 0 then .next (if s.firmware then s.respond { r with payload := [] } (bitsN m.header 63 48) 3 [] else s)
  else s.mailCarry r (bitsN m.header 63 48)

end Sys2Proof.Machine
end

