-- ==== Sys2Proof/Machine/Spdm.lean ====
section
/-!
DEFINITION. SPDM exchanges and the debug function (spec 16 R400, R418, R419; 09 R244, R257; 22 R458; 23 R476).
-/

namespace Sys2Proof.Machine

/-! ### SPDM (R400) -/

/-- The bytes of a free answer. -/
def freeBytes (n : Nat) : List Byte := bytesOfNat (Config.freeAnswer n).toNat 32

/-- An exchange of a function: the stage it needs, and what it leaves; out of order it is answered with the error of SPDM, here an
empty answer (log 38). A device without firmware does not answer. -/
def State.spdm (s : State) (fn : Nat) (ready : Spdm → Bool) (f : Spdm → Spdm) : Host.Outcome State Fault Refusal :=
  .next (if 97 < fn ∨ s.firmware = false then s
    else s.updFunc fn (fun g => { g with spdm := if ready g.spdm then f g.spdm else { g.spdm with answer := [] } }))

/-- GET_VERSION: SPDM 1.3; an exchange begins anew, open sessions stay. -/
def execGetVersion (q : SpdmReq) (s : State) : Host.Outcome State Fault Refusal :=
  s.spdm q.fn (fun _ => true) (fun x => { x with
    version := true
    capabilities := false
    algorithms := false
    pendingSession := none
    answer := [0x13#8]
    ended := false })

/-- GET_CAPABILITIES. -/
def execGetCapabilities (q : SpdmReq) (s : State) : Host.Outcome State Fault Refusal :=
  s.spdm q.fn (fun x => x.version) (fun x => { x with
    capabilities := true
    answer := freeBytes 1 })

/-- NEGOTIATE_ALGORITHMS: parameter 0 stands for SM2, SM3 and SM4-GCM, the only suite. -/
def execNegotiateAlgorithms (q : SpdmReq) (s : State) : Host.Outcome State Fault Refusal :=
  s.spdm q.fn (fun x => x.capabilities && decide (q.param = 0)) (fun x => { x with
    algorithms := true
    answer := [0#8] })

/-- GET_DIGESTS. -/
def execGetDigests (q : SpdmReq) (s : State) : Host.Outcome State Fault Refusal :=
  s.spdm q.fn (fun x => x.algorithms) (fun x => { x with answer := freeBytes 2 })

/-- GET_CERTIFICATE. -/
def execGetCertificate (q : SpdmReq) (s : State) : Host.Outcome State Fault Refusal :=
  s.spdm q.fn (fun x => x.algorithms) (fun x => { x with answer := freeBytes 3 })

/-- CHALLENGE: the signature covers the data, and is free. -/
def execChallenge (q : SpdmReq) (s : State) : Host.Outcome State Fault Refusal :=
  s.spdm q.fn (fun x => x.algorithms) (fun x => { x with answer := freeBytes (4 + 256 * natOfBytes q.data) })

/-- The measurement of an index (R400). -/
def State.measurement (s : State) (i : Nat) : List Byte := match i with
  | 1 => freeBytes 0
  | 2 => bytesOfNat (if s.activeB then s.complexB.digest else s.complexA.digest).toNat 32
  | 3 => bytesOfNat (s.stateMajor % 65536 * 65536 + s.stateMinor % 65536) 4
  | _ => bytesOfNat Config.fusedVersion 4

/-- GET_MEASUREMENTS of an index 1 to 4. -/
def execGetMeasurements (q : SpdmReq) (s : State) : Host.Outcome State Fault Refusal :=
  s.spdm q.fn (fun x => x.algorithms && decide (1 ≤ q.param ∧ q.param ≤ 4)) (fun x => { x with answer := s.measurement q.param })

/-- KEY_EXCHANGE: a session is being opened. -/
def execKeyExchange (q : SpdmReq) (s : State) : Host.Outcome State Fault Refusal :=
  s.spdm q.fn (fun x => x.algorithms && !x.sessions.contains q.param) (fun x => { x with
    pendingSession := some q.param
    answer := freeBytes (5 + 256 * natOfBytes q.data) })

/-- FINISH: the session is open. -/
def execFinish (q : SpdmReq) (s : State) : Host.Outcome State Fault Refusal :=
  s.spdm q.fn (fun x => decide (x.pendingSession = some q.param)) (fun x => { x with
    pendingSession := none
    sessions := x.sessions ++ [q.param]
    answer := [0#8] })

/-- END_SESSION: a debug authorisation that rests on the session ends with it (R418). -/
def execEndSession (q : SpdmReq) (s : State) : Host.Outcome State Fault Refusal :=
  let open' := (s.func q.fn).spdm.sessions.contains q.param && s.firmware
  let s := if q.fn = 97 ∧ open' = true then { s with funcs := s.funcs.map (fun f => (f.1, if f.2.debugAuth = some q.param then { f.2 with
      debugAuth := none
      debugAttached := false } else f.2)) } else s
  s.spdm q.fn (fun x => x.sessions.contains q.param) (fun x => { x with
    sessions := x.sessions.erase q.param
    answer := [0#8] })

end Sys2Proof.Machine
end

