-- ==== Sys2Proof/Machine/Debug.lean ====
section
/-!
DEFINITION. The debug function: attach, stop, access to stopped waves, resume (spec 16 R418, R419; 02 R48, R49; 23 R476).
-/

namespace Sys2Proof.Machine

/-- DEBUG_ATTACH: within the session that the tenant has authorised, and not to a tenant of a duet (R418, R419). -/
def execDebugAttach (vf session : Nat) (s : State) : Host.Outcome State Fault Refusal :=
  let duet := match s.partOfVf vf with
    | some n => (s.part n).duet.isSome
    | none => false
  .next (if (s.func vf).debugAuth = some session ∧ (s.func 97).spdm.sessions.contains session = true ∧ duet = false then
    s.updFunc vf (fun f => { f with debugAttached := true }) else s)

/-- A wave asked to stop stands at a precise point and stops (R48, R419). -/
def State.stopIfPrecise (s : State) (id : WaveId) : State :=
  match s.wave id with
  | none => s
  | some w =>
    if w.stopPending && w.precise && w.slice.isNone then
      (s.setWave id (some { w with
        stopped := true
        stopPending := false
        active := false })).rebalance id.core id.sched
    else s

/-- A wave of a tenant is asked to stop; a responder cannot be, and a contained wave is gone (R419, R476). -/
def State.debugStop (s : State) (vf : Nat) (id : WaveId) : State :=
  match s.wave id with
  | none => s
  | some w => match s.wg id.core w.wg with
    | none => s
    | some g =>
      if g.vf ≠ vf ∨ w.resp.isSome = true ∨ g.contained.isSome = true ∨ w.stopped = true ∨ w.exited = 0xFFFFFFFF#32 then s
      else (s.updWave id (fun w => { w with stopPending := true })).stopIfPrecise id

/-- Some waves are asked to stop, one after the other. -/
def State.debugStops (s : State) (vf : Nat) (ids : List WaveId) : State := ids.foldl (fun (s : State) id => s.debugStop vf id) s

/-- DEBUG_STOP: a wave, a workgroup, or every wave of the tenant; a saved one stops at its restore (R418, R419, R428). -/
def execDebugStop (vf : Nat) (target : DebugTarget) (s : State) : Host.Outcome State Fault Refusal :=
  .next (if (s.func vf).debugAttached = false then s
    else match target with
      | .wave id => s.debugStop vf id
      | .group core wg => s.debugStops vf ((s.wavesOf core wg).map (fun e => e.1))
      | .tenant =>
        let s := s.debugStops vf (s.cores.flatMap (fun c => (c.2.waveList c.1).map (fun e => e.1)))
        { s with parts := s.parts.map (fun p => (p.1, { p.2 with saved := p.2.saved.map (fun x =>
          if x.wg.vf = vf then { x with waves := x.waves.map (fun w => { w with stopPending := !w.stopped }) } else x) })) })

/-- The local space that an item names by its code of R445. -/
def debugSpace (x : Nat) : Space := match x with
  | 0 => .sp
  | 1 => .wb
  | 2 => .ab
  | _ => .cb

/-- A wave's state with one item written (R49, R418). -/
def State.debugWrite (s : State) (id : WaveId) (w : Wave) (item : DebugItem) (value : Word) : State :=
  match item with
  | .pc l => s.setWave id (some (if l < 32 then w.pcSet l (value &&& 0x7FFFFFFF#32) else w))
  | .vreg r l => if r < 256 ∧ l < 32 then s.writeRegs id [⟨r, l, value⟩] else s
  | .sreg r => s.setWave id (some (if r < 128 then w.sregSet r value else w))
  | .mask k => s.setWave id (some (if k < 8 then w.kset k value else w))
  | .flags => s.setWave id (some { w with fflags := BitVec.ofNat 4 value.toNat })
  | .space x o => match s.wg id.core w.wg with
    | some g =>
      if o < (g.alloc (debugSpace x)).len then
        s.updCore id.core (fun c => c.setSpaceBytes (debugSpace x) ((g.alloc (debugSpace x)).start + o) [BitVec.ofNat 8 value.toNat])
      else s
    | none => s
  | .queue q =>
    let cut := fun (g : Workgroup) =>
      let d := sget DQueue.empty g.queues q
      sset DQueue.empty g.queues q { d with entries := d.entries.take value.toNat }
    s.updWg id.core w.wg (fun g => { g with queues := cut g })
  | .wake n =>
    let put := fun (k : Wake) =>
      if n = 0 then { k with kind := value.toNat % 128 }
      else if n = 1 then { k with object := value.toNat }
      else { k with value := value.toNat }
    s.setWave id (some { w with parked := w.parked.map put })

/-- One item of a stopped wave's state as the debug function reads it: the bytes of a register, a PC with its lane's exit bit as in the
wave's record, a byte of a space, the level of a queue, a field of the wake condition (R49, R418; log 45). -/
def State.debugRead (s : State) (id : WaveId) (w : Wave) (item : DebugItem) : List Byte :=
  let word := fun (x : Word) => bytesOfNat x.toNat 4
  match item with
  | .pc l => word (if w.exited.getLsbD l then w.pcOf l ||| 0x80000000#32 else w.pcOf l)
  | .vreg r l => if w.zeros.getLsbD (r % 256) then word 0#32
    else if ((s.core id.core).line (lineKey id r)).present then word (w.vget r l)
    else match s.wg id.core w.wg with
      | some g => s.recordGet g.vf g.part (w.record + 0x400 + 128 * r + 4 * l) 4
      | none => []
  | .sreg r => word (w.sreg r)
  | .mask k => word (w.kget k)
  | .flags => word (wd w.fflags.toNat)
  | .space x o => match s.wg id.core w.wg with
    | some g =>
      if o < (g.alloc (debugSpace x)).len then (s.core id.core).spaceBytes (debugSpace x) ((g.alloc (debugSpace x)).start + o) 1 else []
    | none => []
  | .queue q => match s.wg id.core w.wg with
    | some g => word (wd (sget DQueue.empty g.queues q).entries.length)
    | none => []
  | .wake n => match w.parked with
    | some k => word (wd (if n = 0 then k.kind else if n = 1 then k.object else k.value))
    | none => word 0#32

/-- DEBUG_STATE_ACCESS: a stopped wave of an attached tenant is read or written (R418, R419). -/
def execDebugStateAccess (vf : Nat) (w : WaveId) (write : Bool) (item : DebugItem) (value : Word) (s : State) :
    Host.Outcome State Fault Refusal :=
  .next (match s.wave w with
    | none => s
    | some v =>
      if !((s.func vf).debugAttached && v.stopped && decide (s.vfOfWave w = vf)) then s
      else if write then s.debugWrite w v item value
      else s.answerRead (s.debugRead w v item) false)

/-- DEBUG_RESUME: the wave re-enters the active set under R58 (R419). -/
def execDebugResume (vf : Nat) (w : WaveId) (s : State) : Host.Outcome State Fault Refusal :=
  .next (match s.wave w with
    | none => s
    | some v => if (s.func vf).debugAttached && (v.stopped || v.stopPending) && decide (s.vfOfWave w = vf) then
        (s.setWave w (some { v with
          stopped := false
          stopPending := false
          readySince := s.clk })).rebalance w.core w.sched
      else s)

end Sys2Proof.Machine
end

