-- ==== Sys2Proof/Machine/Links.lean ====
section
/-!
DEFINITION. Fenloth ports, requests that no port can carry, duets, and the reservations of Serpent slots (spec 01 R18 to R23;
16 R420 to R423; 25 R506, R509).
-/

namespace Sys2Proof.Machine

/-! ### Duets (R421, R509) -/

/-- The digest of a window's registrations, in the order they reached the edge (R421). -/
def windowDigest (w : List (Nat × Byte)) : BitVec 256 := Config.sm3 (w.flatMap (fun b => bytesOfNat b.1 8 ++ [b.2]))

/-- A duet mismatches at a window: nothing of it or of a later one leaves, and the partition is contained (R509). -/
def State.duetMismatch (s : State) (part window : Nat) : State :=
  let s := s.telemetry part (telemetryEntry 0x0A 0x10 part 7 0 0 (s.pclk part) window 0 0)
  s.containPart part 0x10

/-- The closed windows of a duet are compared with the peer's digests in order: agreeing ones leave, the first other one is a
mismatch (R421). `n` bounds the windows. -/
def State.duetCompare (s : State) (part : Nat) : Nat → State
  | 0 => s
  | n + 1 => match (s.part part).duet with
    | none => s
    | some d => match d.closed, d.digests with
      | (k, bytes) :: rest, g :: gs =>
        if windowDigest bytes = g then
          let s := s.updPart part (fun p => { p with duet := some { d with
            closed := rest
            digests := gs } })
          (s.commit .engine bytes).duetCompare part n
        else s.duetMismatch part k
      | _, _ => s

/-- DUET_WINDOW_CLOSE: the window of 2,048 cycles is over; a digest that has not come for two windows is a mismatch
(R421, R509). -/
def State.evDuetClose (s : State) (part : Nat) : State :=
  match (s.part part).duet with
  | none => s
  | some d =>
    if s.clk < (d.window + 1) * 2048 then s
    else match d.closed with
      | (k, _) :: _ =>
        if k + 2 ≤ d.window then s.duetMismatch part k
        else (s.updPart part (fun p => { p with duet := some { d with
          window := d.window + 1
          edge := []
          closed := d.closed ++ [(d.window, d.edge)] } })).duetCompare part 4
      | [] => (s.updPart part (fun p => { p with duet := some { d with
          window := d.window + 1
          edge := []
          closed := [(d.window, d.edge)] } })).duetCompare part 4

/-- DUET_WINDOW_CLOSE (R421). -/
def execDuetWindowClose (part : Nat) (s : State) : Host.Outcome State Fault Refusal := .next (s.evDuetClose part)

/-- DUET_DIGEST_RECEIVED (R421). -/
def execDuetDigestReceived (part : Nat) (digest : BitVec 256) (s : State) : Host.Outcome State Fault Refusal :=
  .next (if (s.part part).duet.isNone then s
    else (s.updPart part (fun p => { p with duet := p.duet.map (fun (d : Duet) => { d with
      digests := d.digests ++ [digest] }) })).duetCompare part 4)

/-! ### Ports (R423, R506) -/

/-- A port changed. -/
def State.updPort (s : State) (n : Nat) (f : Port → Port) : State := { s with ports := sset Port.reset s.ports n (f (sget Port.reset s.ports n)) }

/-- A link event's entry, in the ring of partition 0 (R506, log 39). -/
def State.linkEntry (s : State) (port code : Nat) : State :=
  s.telemetry 0 (telemetryEntry 0x07 0 port 3 0 0 (s.pclk 0) 0 (sget Port.reset s.ports port).resent code)

/-- A port goes down: its flits move to the lowest live port that reaches the same switch, and a duet on ports 16 and 17
mismatches (R506, R509). -/
def State.portDown (s : State) (n : Nat) : State :=
  let p := sget Port.reset s.ports n
  if !p.enabled || !p.up then s
  else
    let s := s.updPort n (fun p => { p with
      up := false
      unacked := [] })
    let s := s.linkEntry n 3
    let s := match (List.range 18).find? (fun m => s.portLive m && decide (Config.portSwitch m = Config.portSwitch n)) with
      | some m => s.updPort m (fun q => { q with
          unacked := q.unacked ++ (List.range p.unacked.length).map (fun i => (q.sent + i, s.clk))
          sent := q.sent + p.unacked.length
          resent := q.resent + p.unacked.length })
      | none => s
    if n = 16 ∨ n = 17 then (skeys s.parts).foldl (fun (s : State) k => match (s.part k).duet with
      | some d => s.duetMismatch k (match d.closed with
        | (w, _) :: _ => w
        | [] => d.window)
      | none => s) s
    else s

/-- PORT_DOWN (R506). -/
def execPortDown (port : Nat) (s : State) : Host.Outcome State Fault Refusal := .next (s.portDown port)

/-- FLIT_RECEIVE: the expected flit is accepted and acknowledged; a CRC error or a gap is answered negatively, and 64 CRC errors
within 1 ms take the port down; an old flit is acknowledged again (R423, R506). -/
def execFlitReceive (port seq : Nat) (crcOk : Bool) (s : State) : Host.Outcome State Fault Refusal :=
  .next (
    let p := sget Port.reset s.ports port
    if !s.portLive port then s
    else if crcOk && decide (seq = p.expect) then s.updPort port (fun p => { p with expect := p.expect + 1 })
    else if crcOk && decide (seq < p.expect) then s
    else
      let s := if crcOk then s else s.updPort port (fun p => if s.clk < p.crcFrom + 1200000 then { p with crcErrors := p.crcErrors + 1 }
        else { p with
          crcErrors := 1
          crcFrom := s.clk })
      let s := s.linkEntry port 1
      if 64 ≤ (sget Port.reset s.ports port).crcErrors then s.portDown port else s)

/-- The cycle in which the acknowledgement of a flit comes: of a sending after so many resends the other end's answer is an input, its
time a free value (R423; log 83). -/
def flitDue (port resends : Nat) (f : Nat × Nat) : Nat := f.2 + Config.flitAck port f.1 resends

/-- Flits that the other end has acknowledged, in order, are no longer kept (R423). -/
def State.evFlitAck (s : State) (port : Nat) : State :=
  let p := sget Port.reset s.ports port
  let left := p.unacked.dropWhile (fun f => decide (flitDue port p.resends f ≤ s.clk))
  if !s.portLive port || decide (left = p.unacked) then s
  else s.updPort port (fun p => { p with
    unacked := left
    resends := 0 })

/-- REPLAY_TIMEOUT: the oldest unacknowledged flit has waited 512 cycles, and all of them are sent again; the eighth resend takes the port
down (R423, R506). -/
def State.evReplay (s : State) (port : Nat) : State :=
  let p := sget Port.reset s.ports port
  if !s.portLive port || !(p.unacked.take 1).any (fun f => decide (f.2 + 512 ≤ s.clk)) then s
  else
    let s := s.updPort port (fun p => { p with
      resends := p.resends + 1
      resent := p.resent + p.unacked.length
      unacked := p.unacked.map (fun f => (f.1, s.clk)) })
    let s := s.linkEntry port 2
    if 8 ≤ p.resends + 1 then s.portDown port else s

/-- REPLAY_TIMEOUT (R506). -/
def execReplayTimeout (port : Nat) (s : State) : Host.Outcome State Fault Refusal := .next (s.evReplay port)

/-! ### Requests that no port can carry (R506) -/

/-- REMOTE_REQUEST_TIMEOUT: an access to another package that no live port can carry: a load fills poisoned data, any other kills
its context (R484, R491, R506). -/
def State.evRemoteTimeout (s : State) (id : WaveId) (tag : Nat) : State :=
  match s.wave id with
  | none => s
  | some w => match w.flight tag with
    | none => s
    | some f =>
      if s.carried f.op then s
      else match f.op with
        | .load accs size _ reg _ _ _ =>
          let bad := accs.filter (fun a => s.isRemote a.pa)
          let va := match bad with
            | a :: _ => a.va
            | [] => 0
          let s := s.deferFault id f 0x10 2 (if reg < 0x100 then maskOf (bad.map (fun (a : LaneAcc) => a.lane)) else f.fmask) va
          s.finishWith id tag ((dedup (accs.map (fun a => a.lane))).flatMap (fun l => wordWrites reg l (loadWords size false (List.replicate size 0#8))))
        | .linkage _ va _ reg => (s.deferFault id f 0x10 2 f.fmask va).finishWith id tag [⟨reg, 0, 0#32⟩, ⟨reg + 1, 0, 0#32⟩]
        | .fill queue seq accs size signed scalar _ _ =>
          let bad := accs.filter (fun a => s.isRemote a.pa)
          let data := fillData accs size signed scalar (fun _ => List.replicate size 0#8)
          ((s.fillEntries id.core w.wg queue seq data (bad.head?.map (fun a => a.va / 64 * 64))).finish id tag).settleWg id.core w.wg
        | .prefetch .. => s.finish id tag
        | .callRead e _ _ eff => (s.deferFault id f 0x10 2 eff e.va).finish id tag
        | _ => match s.wg id.core w.wg with
          | some g => s.killCtx g.part g.ctx 0x10 0 0 true
          | none => s

/-- REMOTE_REQUEST_TIMEOUT (R506). -/
def execRemoteRequestTimeout (w : WaveId) (tag : Nat) (s : State) : Host.Outcome State Fault Refusal := .next (s.evRemoteTimeout w tag)

/-! ### Serpent rings, die bridges and I/O die links (R18 to R24) -/

/-- The key of a slot: die, ring 0 or 1, slot 0 to 7. -/
def slotKey (die ring slot : Nat) : Nat := 16 * die + 8 * ring + slot

/-- The slot that passes a stop in a cycle: a slot advances one stop every 2 cycles, ring 0 from stop 0 to stop 1, ring 1 the other way
(R18). Which slot stands at stop 0 in cycle 0 is the model's choice (DESIGN CHOICE, log 81). -/
def slotAt (ring stop clk : Nat) : Nat := (if ring = 0 then clk + 8 - 2 * stop else clk + 2 * stop) % 8

/-- The stop of a source: 0 to 2 the crossbars of a die's sectors, 3 the bridge stop, whose sources are 3 its own traffic and 4 to 6 its
inbound bridges. -/
def sourceStop (source : Nat) : Nat := if 3 < source then 3 else source

/-- The stop at which a message leaves the ring of a die (R19, R23). -/
def RingMsg.leaves (m : RingMsg) (die : Nat) : Nat := if m.die = die then m.stop else 3

/-- The oldest message of a partition that waits at a source for a ring. -/
def State.waitingAt (s : State) (die ring source part : Nat) : Option FabricMsg :=
  s.fabric.find? (fun m => decide (m.place = .source die ring source) && decide (m.msg.part = part))

/-- A message in no slot comes to a place. -/
def State.fabricAdd (s : State) (place : FabricPlace) (m : RingMsg) : State := { s with fabric := s.fabric ++ [⟨place, s.clk, m⟩] }

/-- A slot changed. -/
def State.updSlot (s : State) (key : Nat) (f : RingSlot → RingSlot) : State :=
  { s with rings := sset RingSlot.empty s.rings key (f (sget RingSlot.empty s.rings key)) }

/-- A waiting message enters a slot. -/
def State.insertMsg (s : State) (key : Nat) (m : FabricMsg) : State :=
  ({ s with fabric := s.fabric.erase m }).updSlot key (fun r => { r with
    msg := some m.msg
    reserved := none })

/-- Whether a stop holds a reservation on a ring (R22). -/
def State.stopReserves (s : State) (die ring stop : Nat) : Bool :=
  (List.range 8).any (fun i => match (sget RingSlot.empty s.rings (slotKey die ring i)).reserved with
    | some x => decide (sourceStop x = stop)
    | none => false)

/-- A source whose oldest message of a partition has waited 32 cycles reserves the slot that passes its stop, where that is an occupied
slot of the partition without a reservation and the stop holds none on the ring (R22, R23). -/
def State.reserveSlot (s : State) (die ring source part : Nat) : State :=
  let key := slotKey die ring (slotAt ring (sourceStop source) s.clk)
  let r := sget RingSlot.empty s.rings key
  match s.waitingAt die ring source part with
  | none => s
  | some m =>
    if r.tag = some part ∧ r.msg.isSome = true ∧ r.reserved = none ∧ m.since + 32 ≤ s.clk ∧ s.stopReserves die ring (sourceStop source) = false then
      s.updSlot key (fun r => { r with reserved := some source })
    else s

/-- RING_INSERT_RESERVATION (R22). -/
def execRingInsertReservation (die ring stop part : Nat) (s : State) : Host.Outcome State Fault Refusal :=
  .next (if die < 4 ∧ ring < 2 ∧ stop < 4 then s.reserveSlot die ring stop part else s)

/-- BRIDGE_INSERT_RESERVATION (R23). -/
def execBridgeInsertReservation (die ring bridge part : Nat) (s : State) : Host.Outcome State Fault Refusal :=
  .next (if die < 4 ∧ ring < 2 ∧ bridge < 3 then s.reserveSlot die ring (4 + bridge) part else s)

/-- The sources of a stop in the order in which an unreserved slot of a partition is offered to them: at the bridge stop in rotation
from the turn on (R23). -/
def State.offers (s : State) (die ring stop part : Nat) : List Nat :=
  if stop < 3 then [stop]
  else
    let k := sget 0 s.turns ((die * 2 + ring) * 16 + part) % 4
    ([4, 5, 6, 3].drop k) ++ ([4, 5, 6, 3].take k)

/-- What a stop does with the slot that passes it in a cycle: its message is taken off where it leaves; an empty slot is filled by the
stop that has reserved it, else by a source with a message of the slot's partition; an occupied one may be reserved (R19 to R23). -/
def State.stopCycle (s : State) (die ring stop : Nat) : State :=
  let key := slotKey die ring (slotAt ring stop s.clk)
  let r := sget RingSlot.empty s.rings key
  let s := match r.msg with
    | some m =>
      if m.leaves die ≠ stop then s
      else
        let s := s.updSlot key (fun r => { r with msg := none })
        if m.die = die then s else s.fabricAdd (.bridge die m.die) m
    | none => s
  let r := sget RingSlot.empty s.rings key
  match r.tag with
  | none => s
  | some part =>
    let sources := if stop < 3 then [stop] else [4, 5, 6, 3]
    if r.msg.isSome then sources.foldl (fun (s : State) x => s.reserveSlot die ring x part) s
    else match r.reserved with
      | some x =>
        if sourceStop x ≠ stop then s
        else match s.waitingAt die ring x part with
          | some m => s.insertMsg key m
          | none => s.updSlot key (fun r => { r with reserved := none })
      | none =>
        let t := if stop < 3 then s
          else
            let k := (die * 2 + ring) * 16 + part
            { s with turns := sset 0 s.turns k ((sget 0 s.turns k + 1) % 4) }
        match (s.offers die ring stop part).findSome? (fun x => s.waitingAt die ring x part) with
        | some m => t.insertMsg key m
        | none => t

/-- The partition whose phase a bridge between two dies carries in a cycle: the rule of R20 for the partitions that own sectors on both
(R23). -/
def State.bridgePhase (s : State) (a b : Nat) : Option Nat :=
  let on := fun (d : Nat) => (List.range 3).filterMap (fun i => s.partOfSector (3 * d + i))
  let both := (on (min a b) ++ on (max a b)).filter (fun p => (on a).contains p && (on b).contains p)
  (ringTags both).getD (s.clk % 8) none

/-- The number of a bridge of a die by its far die (R23). -/
def bridgeIndex (die far : Nat) : Nat := if far < die then far else far - 1

/-- Messages at a bridge whose partition's phase it is leave, at most three of them in a cycle, those that have crossed come to the far
die's bridge stop, and those of an I/O die's link to its die's (R23 to R25; log 81). -/
def State.bridgeCycle (s : State) (m : FabricMsg) : State := match m.place with
  | .bridge d far =>
    let first := (s.fabric.filter (fun x => decide (x.place = .bridge d far) && decide (x.msg.part = m.msg.part))).take 3
    let gone := (s.fabric.filter (fun x => decide (x.place = .crossing d far) && decide (x.since = s.clk))).length
    if s.bridgePhase d far = some m.msg.part ∧ first.contains m = true ∧ gone < 3 then
      ({ s with fabric := s.fabric.erase m }).fabricAdd (.crossing d far) m.msg
    else s
  | .crossing d far =>
    if s.clk < m.since + 40 then s
    else ({ s with fabric := s.fabric.erase m }).fabricAdd (.source far (ringFor 3 m.msg.stop m.msg.addr) (4 + bridgeIndex far d)) m.msg
  | .link d =>
    if s.clk < m.since + 60 then s
    else ({ s with fabric := s.fabric.erase m }).fabricAdd (.source d (ringFor 3 m.msg.stop m.msg.addr) 3) m.msg
  | .source .. => s

/-- A cycle of the fabric: the bridges and links, then every stop of every ring (R18 to R25). -/
def State.fabricCycle (s : State) : State :=
  let s := s.fabric.foldl (fun (s : State) m => s.bridgeCycle m) s
  (List.range 32).foldl (fun (s : State) i => s.stopCycle (i / 8) (i / 4 % 2) (i % 4)) s

end Sys2Proof.Machine
end

