-- ==== Sys2Proof/Machine/Background.lean ====
section
/-!
DEFINITION. The work that engines and units do by themselves, in the order the model takes it (log 1), and the placing of a
probe word.
-/

namespace Sys2Proof.Machine

/-! ### The work each kind of unit may have -/

/-- Some steps taken, one after the other. -/
def State.doAll (s : State) (fs : List (State → State)) : State := fs.foldl (fun (s : State) f => f s) s

/-- Every resident wave. -/
def State.allWaves (s : State) : List (WaveId × Wave) := s.cores.flatMap (fun c => c.2.waveList c.1)

/-- Waves: results and latencies, faults to deliver, releases of `rwait`, translations, demand maps, wakes, stops, prefills. -/
def State.waveWork (s : State) : List (State → State) :=
  s.allWaves.flatMap (fun e =>
    let id := e.1
    let w := e.2
    (if w.pend ≠ [] ∨ w.atMarker then [fun (t : State) => t.evFixedLatency id] else []) ++
    (if w.faultPending.isSome then [fun (t : State) => t.evFaultDelivery id] else []) ++
    (if w.held.isSome then [fun (t : State) => t.heldCheck id] else []) ++
    (if w.walk.isSome then [fun (t : State) => t.evWalkDone id, fun (t : State) => t.evDemandMap id, fun (t : State) => t.evHoldExpiry id] else []) ++
    (if w.parked.map (fun k => k.kind) = some 0x0D then [fun (t : State) => t.evPrefill id]
      else if w.parked.isSome then [fun (t : State) => t.evWake id] else []) ++
    (if w.stopPending then [fun (t : State) => t.stopIfPrecise id] else []))

/-- The replies of pending reads reach the cores (R98, R124). -/
def State.missWork (s : State) : List (State → State) :=
  (s.cores.filter (fun c => decide (c.2.misses ≠ []))).map (fun c => fun (t : State) => t.missReturn c.1)

/-- Walks that no wave waits for any longer end (R104). -/
def State.dropWalks (s : State) : State :=
  let waits := fun (k : Walk) => k.cores.any (fun n => ((s.core n).waveList n).any (fun e => match e.2.walk with
    | some h => !h.done && !h.demand && k.serves (s.vfOfWave e.1) (h.va / 4096) (s.level0 (s.vfOfWave e.1) h.va)
    | none => false))
  { s with walks := (s.walks.map (fun e => (e.1, e.2.filter waits))).filter (fun e => decide (e.2 ≠ [])) }

/-- Whether a wave is within a window and can issue: its variable-latency results are not written yet, so that a word which reads
one before the next marker raises HAZARD (R45, R176). Log 2. -/
def State.midWindow (s : State) (id : WaveId) (w : Wave) : Bool := s.ready id w && !w.lastMarked

/-- Where a request to a cell stands among those of its cycle: releases before the others, then by ascending crossbar port of its home, a
cluster of the home's sector 0 to 7, the ring 8 (R118); other accesses come after. -/
def State.requestRank (s : State) (core : Nat) (f : Flight) : Nat :=
  let port := fun (cell : Nat) => if s.homeSector (s.canon cell) = some (sectorOf core) then core / 8 % 8 else 8
  match f.op with
  | .release cell _ => port cell
  | .acquire cell .. | .bindRegion cell .. | .linkage cell .. => 9 + port cell
  | _ => 18

/-- Accesses: each does what it can do next, or is lost where no port can carry it; the requests to cells of a cycle in their order
(R118, R506). -/
def State.flightWork (s : State) : List (State → State) :=
  let due := s.allWaves.flatMap (fun e =>
    let mid := s.midWindow e.1 e.2
    (e.2.flights.filter (fun (f : Flight) => !mid || !e.2.pend.any (fun x => x.vlat && decide (x.tag = f.tag)))).map (fun f => (e.1, f)))
  let act := fun (x : WaveId × Flight) => if s.carried x.2.op then fun (t : State) => t.landOne x.1 x.2
    else fun (t : State) => t.evRemoteTimeout x.1 x.2.tag
  (List.range 19).flatMap (fun r => (due.filter (fun x => decide (s.requestRank x.1.core x.2 = r))).map act)

/-- Accesses of saved waves (R60). -/
def State.lateWork (s : State) : List (State → State) :=
  s.parts.flatMap (fun p => (List.range p.2.saved.length).flatMap (fun i => match p.2.saved.drop i with
    | x :: _ => x.waves.flatMap (fun w => w.flights.map (fun (f : Flight) => fun (t : State) => t.evLateArrival p.1 i f.tag))
    | [] => []))

/-- Copy channels, one unit of each so that an engine serves every workgroup in turn, and matrix sequencers (R282, R296). -/
def State.coreWork (s : State) : List (State → State) :=
  s.cores.flatMap (fun c =>
    c.2.wgs.flatMap (fun e => match e.2 with
      | some g => (g.channels.filter (fun h => decide (h.2.todo ≠ []))).map (fun h => fun (t : State) => t.evCopyUnit c.1 e.1 h.1)
      | none => []) ++
    c.2.cmds.flatMap (fun k => if k.started then [fun (t : State) => t.evMatrixRetire c.1 k.num]
      else [fun (t : State) => t.evMatrixStart c.1 k.num, fun (t : State) => t.evLadderStart c.1 k.num]) ++
    (if c.2.shadow.busy.isSome then [fun (t : State) => t.evShadow c.1] else []))

/-- L1 words that wait for an acknowledgement, have stayed dirty too long, or have stayed clean too long (R120, R121). -/
def State.cacheWork (s : State) : List (State → State) :=
  s.cores.flatMap (fun c => c.2.l1.flatMap (fun e =>
    (if e.2.unacked then [fun (t : State) => (t.ackWord c.1 e.1).retryFences c.1] else []) ++
    (if e.2.dirty ≠ 0#4 ∧ e.2.written + 65536 ≤ s.clk then [fun (t : State) => t.evWriteLeaveTimeout c.1 e.1] else []) ++
    (if e.2.owned = false ∧ e.2.filled + 65536 ≤ s.clk then [fun (t : State) => t.evCleanLineExpiry c.1 (e.1 / 128)] else [])))

/-- Held writes and revocations (R127, R327, R507). -/
def State.watchWork (s : State) : List (State → State) :=
  s.heldWrites.flatMap (fun (h : HeldWrite) => [fun (t : State) => t.evWatchReport h.num, fun (t : State) => t.evHeldRelease h.num]) ++
    s.parts.flatMap (fun p => p.2.revs.flatMap (fun r =>
      p.2.cores.map (fun n => fun (t : State) => t.evRevokeApply n p.1 r.1) ++
        [fun (t : State) => t.evRevokeCombine p.1 r.1, fun (t : State) => t.evRevokeRelease p.1 r.1, fun (t : State) => t.evSlotFree p.1 r.1]) ++
      (if p.2.revs = [] then [] else [fun (t : State) => t.evRevokeLate p.1]))

/-- The census root, the cores that take its messages, responders waiting for a slot, and the Chanter tree. -/
def State.censusWork (s : State) : List (State → State) :=
  s.parts.flatMap (fun p =>
    (if p.2.rootInbox = [] ∧ p.2.solicits = [] then [] else
      [fun (t : State) => t.rootOrderAll p.1 (p.2.rootInbox.length + p.2.solicits.length)]) ++
    p.2.cores.flatMap (fun n => [fun (t : State) => t.evCommitApply n, fun (t : State) => t.evSolicitApply n] ++
      (if (s.core n).spawns ≠ [] then [fun (t : State) => t.startResponders n 2] else [])) ++
    (p.2.places.filter (fun x => x.2.busy)).flatMap (fun x =>
      p.2.clusters.map (fun n => fun (t : State) => t.evChanter p.1 x.1 1 n) ++
      p.2.sectorList.map (fun n => fun (t : State) => t.evChanter p.1 x.1 2 n) ++
      (List.range 4).map (fun n => fun (t : State) => t.evChanter p.1 x.1 3 n) ++
      [fun (t : State) => t.evChanter p.1 x.1 4 0, fun (t : State) => t.evCensusDone p.1 x.1]))

/-- The state after a step that always answers one. -/
def nextOf (s : State) (o : Host.Outcome State Fault Refusal) : State := match o with
  | .next t => t
  | _ => s

/-- Collective engines: an ALLREDUCE of a group of this package alone needs no other data. -/
def State.chainWork (s : State) : List (State → State) :=
  s.parts.flatMap (fun p => p.2.chains.flatMap (fun x => [fun (t : State) => nextOf t (execChainCopy p.1 x.num t),
    fun (t : State) => nextOf t (execChainReduce p.1 x.num t), fun (t : State) => nextOf t (execChainAllreduce p.1 x.num [] t),
    fun (t : State) => nextOf t (execChainSignal p.1 x.num t), fun (t : State) => nextOf t (execChainWaitEntry p.1 x.num t)]))

/-- The one packet that a partition's dispatcher takes in a cycle, unless it is a LAUNCH, whose step is offered with its code object
(R388, log 15). -/
def State.takeNext (s : State) (part : Nat) : State :=
  match s.pickQueue part with
  | none => s
  | some (vf, q) =>
    let type := match s.readPacket part vf q with
      | .ok p => if headerOk p then pktType p else 1
      | .error _ => 1
    nextOf s (match type with
      | 2 => .next s
      | 3 => execSignalPacket vf q s
      | 4 => execWaitPacket vf q s
      | 5 => execMapPacket vf q s
      | 6 => execUnmapPacket vf q s
      | _ => execNopPacket vf q s)

/-- Packets: those that wait for a cell or for the release of their writes go on, and each dispatcher takes one (R381, R386 to R388). -/
def State.packetWork (s : State) : List (State → State) :=
  s.parts.flatMap (fun p => p.2.tenants.flatMap (fun vf => (s.func vf).queues.flatMap (fun q =>
    (if q.2.state = 2 then [fun (t : State) => nextOf t (execWaitPacket vf q.1 t)] else []) ++
    (if q.2.drain = [] then [] else
      [fun (t : State) => if (t.qcb vf q.1).drain = [] then t
        else nextOf t (if (t.qcb vf q.1).drainType = some 3 then execSignalPacket vf q.1 t else execUnmapPacket vf q.1 t)]))) ++
    (if p.2.tenants = [] then [] else [fun (t : State) => t.takeNext p.1]))

/-- Dispatch, placers, steals, and grids that are complete. A placer that has stolen blocks tries to start one (R69, R70). -/
def State.dispatchWork (s : State) : List (State → State) :=
  s.parts.flatMap (fun p => [fun (t : State) => t.evDispatch p.1] ++
    (if p.2.tcbs = [] then [] else p.2.clusters.map (fun c => fun (t : State) => t.evPlacer c) ++
      p.2.clusters.map (fun c => fun (t : State) => (t.evSteal c).evPlacer c)) ++
    p.2.grids.map (fun g => fun (t : State) => t.evGridComplete p.1 g.1))

/-- Slices, evictions, pre-emptions, restores and containments. -/
def State.turnWork (s : State) : List (State → State) :=
  s.parts.flatMap (fun p =>
    [fun (t : State) => t.evGraceEnd p.1, fun (t : State) => t.evSliceExpiry p.1] ++
    (List.range p.2.saved.length).flatMap (fun i => p.2.cores.map (fun n => fun (t : State) => t.evRestore p.1 i n))) ++
  s.cores.flatMap (fun c =>
    (if c.2.preempt.isSome then [fun (t : State) => t.evPreempt c.1] else []) ++
    c.2.wgs.flatMap (fun e => match e.2 with
      | some g => if g.contained.isSome then [fun (t : State) => t.evContain c.1 e.1] else [fun (t : State) => t.evSoftEvict c.1 e.1]
      | none => []))

/-- Firmware, host and edge: records, trims, timers, duet windows, quota intervals, submitted requests, held host writes, links; then
displacement and save-ahead. -/
def State.edgeWork (s : State) : List (State → State) :=
  [fun (t : State) => t.evRecordPost] ++
  s.parts.flatMap (fun p => [fun (t : State) => (t.trimDrops p.1).evTrimReturn p.1, fun (t : State) => t.evSnapshotTimer p.1,
    fun (t : State) => t.evDuetClose p.1, fun (t : State) => t.quotaTick p.1]) ++
  (s.funcs.filter (fun f => f.2.mailbox.busy)).map (fun f => fun (t : State) => nextOf t (t.mailServe f.1)) ++
  (dedup (s.hostHeld.map (fun h => h.1))).map (fun vf => fun (t : State) => t.hostRetry vf) ++
  s.ports.flatMap (fun p => if p.2.unacked = [] then [] else [fun (t : State) => t.evFlitAck p.1, fun (t : State) => t.evReplay p.1]) ++
  s.cores.flatMap (fun c => (List.range 4).map (fun n => fun (t : State) => t.evDisplace c.1 n)) ++
  s.cores.map (fun c => fun (t : State) => t.evSaveAhead c.1)

/-- The kinds of work, in the order in which a cycle does them. -/
def cycleWork : List (State → List (State → State)) :=
  [State.waveWork, State.missWork, State.flightWork, State.coreWork, State.cacheWork, State.watchWork, State.censusWork, State.chainWork,
    State.packetWork, State.dispatchWork, State.turnWork, State.lateWork, State.edgeWork]

/-- The end of a cycle: every unit does its unfinished work once, the fabric moves, and the next cycle begins (logs 1, 2). -/
def State.endCycle (s : State) : State :=
  let s := (cycleWork.foldl (fun (s : State) kind => s.doAll (kind s)) s).dropWalks.fabricCycle
  { s with
    clk := s.clk + 1
    issued := [] }

/-- The segment of the probe: valid, all permissions, 4 KiB from address 0. -/
def probeSeg : BitVec 128 := BitVec.ofNat 128 (15 * 2 ^ 124 + 4096 * 2 ^ 60)

/-- The machine with one workgroup of one wave resident whose next word is `word`, in partition 0 for the physical function
(log 16). -/
def State.placeProbe (s : State) (word : Dword) : State :=
  let segs := sset 0#128 (sset 0#128 [] 1 probeSeg) 15 probeSeg
  let w := { Wave.fresh with
    record := 0x10000
    active := true
    prefilled := true
    lastMarked := true
    zeros := BitVec.allOnes 256
    segs := segs }
  let g : Workgroup :=
    { ctx := ctxOf 96 0
      vf := 96
      part := 0
      queue := 0
      grid := 0
      seq := 0
      wgx := 0
      wgy := 0
      wgz := 0
      waves := 1
      ensId := 0
      ensRank := 0
      ensSize := 1
      prio := 0
      entry := 0#32
      access := 0
      vregs := 256
      privBytes := 64
      tokensDeclared := 4
      tokensGranted := 4
      bars := 16
      segs := segs
      sp := ⟨0, 65536⟩
      wb := ⟨0, 65536⟩
      ab := ⟨0, 65536⟩
      cb := ⟨0, 65536⟩
      queueArea := 2048
      queues := []
      tiles := []
      live := []
      barriers := []
      channels := []
      handles := []
      appended := []
      exitedWaves := 0#32
      records := [0x10000]
      contained := none }
  let leaf : Dword := 0xDF#64
  let s := { s with agenda := [], powered := true, clk := 0, cur := ⟨0, 0, 0⟩, issued := [] }
  let s := s.updPart 0 (fun p => { p with sectors := 0xFFF#12, tenantSlots := 1#16, tenants := [96] })
  let s := s.updFunc 96 (fun f => { f with feat := 0xFFFFFFFF#128 })
  let s := s.updCore 0 (fun c => { c with
    wgs := sset none c.wgs 0 (some g)
    waves := sset none c.waves 0 (some w)
    tlb := [⟨96, 0, 2 ^ 24, 0, leaf⟩] })
  s.setHomeBytes 0 (bytesOfWord word)

end Sys2Proof.Machine
end

