-- ==== Sys2Proof/Machine/Convert.lean ====
section
/-!
DEFINITION. Conversions and the q4 instructions (spec 08 R219 to R224).
-/

namespace Sys2Proof.Machine

/-! ### Conversions (R219, R220) -/

/-- `cvt` (R219). -/
def execCvt (w : RWord) (s : State) := issueWord (.cvt w) s (fun c s =>
  let st := w.minor % 16
  c.calc s w.d (fun l =>
    let x := if tyWidth st = 64 then c.opnd64 w.a l else (c.opnd w.a l).toNat
    let r := cvtVal st w.ty (roundMode w) (saturates w) x
    (if tyWidth w.ty = 64 then words64 r.1
      else if w.ty < 8 then [wdI (intVal (tyWidth w.ty) (tySigned w.ty) r.1)] else [wd r.1], r.2)))

/-- An f32 divided exactly by a block scale and rounded to an fp8 type; a NaN scale gives the NaN and sets NV (R148, R220). -/
def pack8 (f : Fmt) (mode : Nat) (sat : Bool) (scale : Option Int) (x : Nat) : Nat × Flags :=
  match scale with
  | none => (f.nan, fNV)
  | some k => f.ofVal mode sat ((f32.val x).scale (-k))

/-- The scale a word's `.scl` operand names; 1 without `.scl`. -/
def sclOf (scl : Bool) (x : Word) : Option Int := if scl then fp8Scale (x.toNat % 256) else some 0

/-- `cvt.pk8`: two bytes of D, the others kept (R220). -/
def execCvtPk8 (w : RWord) (s : State) := issueWord (.cvtPk8 w) s (fun c s =>
  c.calc s w.d (fun l =>
    let k := sclOf (decide (2 ≤ w.minor)) (c.opnd w.c l)
    let x := pack8 (fmtOf w.ty) (roundMode w) (saturates w) k (c.opnd w.a l).toNat
    let y := pack8 (fmtOf w.ty) (roundMode w) (saturates w) k (c.opnd w.b l).toNat
    let p := 16 * (w.minor % 2)
    ([setBits (setBits (c.opnd w.d l) (p + 7) p x.1) (p + 15) (p + 8) y.1], x.2 ||| y.2)))

/-- `cvt.ex8` (R220). -/
def execCvtEx8 (w : RWord) (s : State) := issueWord (.cvtEx8 w) s (fun c s =>
  c.calc s w.d (fun l =>
    let x := (c.opnd w.a l).toNat / 256 ^ (w.minor % 4) % 256
    let r := match sclOf (decide (4 ≤ w.minor)) (c.opnd w.b l) with
      | none => (f32.nan, fNV)
      | some k => f32.ofVal 0 false (((fmtOf w.ty).val x).scale k)
    ([wd r.1], r.2)))

/-! ### Block scales and codes (R222 to R224) -/

/-- MaxMag of `q4.scale` (R222). -/
def maxMag (ty qt : Nat) : Nat :=
  if ty = 0xB then 448 else if ty = 0xC then 57344 else [7, 6, 8, 16].getD qt 7

/-- Whether m × 2^e ≤ M × 2^k. -/
def leScaled (m : Nat) (e : Int) (mm : Nat) (k : Int) : Bool :=
  let b := min e k
  decide (m * 2 ^ (e - b).toNat ≤ mm * 2 ^ (k - b).toNat)

/-- The scale exponent of a block of f32 patterns, and NV where it holds a NaN or an infinity (R222). -/
def blockScale (mm : Nat) (xs : List Nat) : Nat × Flags :=
  let vs := xs.map (fun x => f32.val x)
  let bad := vs.any (fun v => match v with
    | .fin _ _ _ => false
    | _ => true)
  if bad then (63, fNV)
  else
    let big := xs.foldl (fun a x => max a (x % 2 ^ 31)) 0
    match f32.val big with
    | .fin _ m e => if m = 0 then (0, 0#4)
      else (optD ((List.range 63).find? (fun k => leScaled m e mm ((k : Int) - 32))) 62, 0#4)
    | _ => (63, fNV)

/-- `q4.scale` (R222). -/
def execQ4Scale (w : RWord) (s : State) := issueWord (.q4Scale w) s (fun c s =>
  let half := decide (4 ≤ w.minor)
  let qt := w.minor % 4
  let blocks : List (List Nat) := (if half then [c.lanes.filter (fun l => l < 16), c.lanes.filter (fun l => 16 ≤ l)]
    else [c.lanes]).filter (fun b => !b.isEmpty)
  let rs := blocks.map (fun b => (b, blockScale (maxMag w.ty qt) (b.map (fun l => (c.opnd w.a l).toNat))))
  c.put s (rs.flatMap (fun r => r.1.map (fun l => (⟨w.d.toNat, l, wd (64 * qt + r.2.1)⟩ : RegWrite))))
    (orAll (rs.map (fun r => r.2.2))))

/-- `q4.enc` (R223). -/
def execQ4Enc (w : RWord) (s : State) := issueWord (.q4Enc w) s (fun c s =>
  c.calc s w.d (fun l =>
    let r := q4Enc (roundMode w) ((c.opnd w.b l).toNat % 256) (c.opnd w.a l).toNat
    ([wd r.1], r.2)))

/-- `q4.dec` (R224). -/
def execQ4Dec (w : RWord) (s : State) := issueWord (.q4Dec w) s (fun c s =>
  c.calc s w.d (fun l =>
    let r := f32.ofVal 0 false (q4Val ((c.opnd w.b l).toNat % 256) ((c.opnd w.a l).toNat % 16))
    ([wd r.1], r.2)))

/-- `nib.pack`: one word per quarter (R224). -/
def execNibPack (w : RWord) (s : State) := issueWord (.nibPack w) s (fun c s =>
  let word := fun q => (List.range 8).foldl (fun acc i =>
    acc + (if c.eff.getLsbD (8 * q + i) then (c.opnd w.a (8 * q + i)).toNat % 16 else 0) * 16 ^ i) 0
  c.put32 s w.d (fun l => wd (word (l / 8))))

/-- `nib.unpk` (R224). -/
def execNibUnpk (w : RWord) (s : State) := issueWord (.nibUnpk w) s (fun c s =>
  c.put32 s w.d (fun l =>
    let n := (c.opnd w.a l).toNat / 16 ^ ((c.opnd w.b l).toNat % 8) % 16
    if w.minor = 1 ∧ 8 ≤ n then wdI ((n : Int) - 16) else wd n))

end Sys2Proof.Machine
end

