-- ==== Sys2Proof/Machine/HalfOps.lean ====
section
/-!
DEFINITION. Paired words and their half-ops (spec 06 R171 to R173; 07 R207, R208; 08 R225).
-/

namespace Sys2Proof.Machine

/-- A sign-extended imm8. -/
def simm8 (x : BitVec 8) : Word := x.signExtend 32

/-- The canonical result of `hfneg` and `hfabs` (R225). -/
def floatSign (f : Word → Word) (x : Word) : Word × Flags :=
  match f32.val x.toNat with
  | .nan s => (wd f32.nan, if s then fNV else 0#4)
  | _ => (f x, 0#4)

/-- A pattern result with flags. -/
def asWord (r : Nat × Flags) : Word × Flags := (wd r.1, r.2)

/-- The result of a half-op for the values of its `d` and `a` (R207, R225). -/
def halfVal (op : HalfOp) (imm : BitVec 8) (d a : Word) : Word × Flags :=
  match op with
  | .nop => (d, 0#4)
  | .mov => (a, 0#4)
  | .iadd => (d + a, 0#4)
  | .isub => (d - a, 0#4)
  | .and => (d &&& a, 0#4)
  | .or => (d ||| a, 0#4)
  | .xor => (d ^^^ a, 0#4)
  | .imin => (if d.toInt ≤ a.toInt then d else a, 0#4)
  | .imax => (if d.toInt ≤ a.toInt then a else d, 0#4)
  | .shl => (wd (shlVal 32 d.toNat (a.toNat % 256)), 0#4)
  | .shr => (wd (shrVal 32 d.toNat (a.toNat % 256)), 0#4)
  | .sar => (wdI (sarVal 32 d.toNat (a.toNat % 256)), 0#4)
  | .fadd => asWord (f32.fadd 0 false d.toNat a.toNat)
  | .fmul => asWord (f32.fmul 0 false d.toNat a.toNat)
  | .fmin => asWord (f32.fminmax false d.toNat a.toNat)
  | .fmax => asWord (f32.fminmax true d.toNat a.toNat)
  | .iaddi => (a + simm8 imm, 0#4)
  | .andi => (a &&& imm.zeroExtend 32, 0#4)
  | .shli => (wd (shlVal 32 a.toNat imm.toNat), 0#4)
  | .shri => (wd (shrVal 32 a.toNat imm.toNat), 0#4)
  | .movi => (simm8 imm, 0#4)
  | .fneg => floatSign (fun x => x ^^^ 0x80000000#32) a
  | .fabs => floatSign (fun x => x &&& 0x7FFFFFFF#32) a
  | .not => (~~~a, 0#4)

/-- The writes of a half for the lanes of the effective mask, from the registers as they stood at issue, with its flags. -/
def Ctx.half (c : Ctx) (h : Half) : List RegWrite × Flags :=
  if h.op = .nop then ([], 0#4)
  else
    let rs := c.lanes.map (fun l => (l, halfVal h.op h.f.imm (c.wave.vget h.f.d.toNat l) (c.wave.vget h.f.a.toNat l)))
    (rs.map (fun r => ⟨h.f.d.toNat, r.1, r.2.1⟩), orAll (rs.map (fun r => r.2.2)))

/-- A paired word: both halves read at issue, then both write (R171, R172, R154). -/
def Ctx.pair (c : Ctx) (s : State) (a b : Half) : Res :=
  let x := c.half a
  let y := c.half b
  c.put s (x.1 ++ y.1) (x.2 ||| y.2)

/-- A pair whose A half is `hnop` (R208). -/
def execHnop (m : Bool) (a : HalfFields) (b : Half) (s : State) := issueWord (.hnop m a b) s (fun c s => c.pair s ⟨.nop, a⟩ b)
/-- A pair whose A half is `hmov` (R207). -/
def execHmov (m : Bool) (a : HalfFields) (b : Half) (s : State) := issueWord (.hmov m a b) s (fun c s => c.pair s ⟨.mov, a⟩ b)
/-- A pair whose A half is `hiadd` (R207). -/
def execHiadd (m : Bool) (a : HalfFields) (b : Half) (s : State) := issueWord (.hiadd m a b) s (fun c s => c.pair s ⟨.iadd, a⟩ b)
/-- A pair whose A half is `hisub` (R207). -/
def execHisub (m : Bool) (a : HalfFields) (b : Half) (s : State) := issueWord (.hisub m a b) s (fun c s => c.pair s ⟨.isub, a⟩ b)
/-- A pair whose A half is `hand` (R207). -/
def execHand (m : Bool) (a : HalfFields) (b : Half) (s : State) := issueWord (.hand m a b) s (fun c s => c.pair s ⟨.and, a⟩ b)
/-- A pair whose A half is `hor` (R207). -/
def execHor (m : Bool) (a : HalfFields) (b : Half) (s : State) := issueWord (.hor m a b) s (fun c s => c.pair s ⟨.or, a⟩ b)
/-- A pair whose A half is `hxor` (R207). -/
def execHxor (m : Bool) (a : HalfFields) (b : Half) (s : State) := issueWord (.hxor m a b) s (fun c s => c.pair s ⟨.xor, a⟩ b)
/-- A pair whose A half is `himin` (R207). -/
def execHimin (m : Bool) (a : HalfFields) (b : Half) (s : State) := issueWord (.himin m a b) s (fun c s => c.pair s ⟨.imin, a⟩ b)
/-- A pair whose A half is `himax` (R207). -/
def execHimax (m : Bool) (a : HalfFields) (b : Half) (s : State) := issueWord (.himax m a b) s (fun c s => c.pair s ⟨.imax, a⟩ b)
/-- A pair whose A half is `hshl` (R207). -/
def execHshl (m : Bool) (a : HalfFields) (b : Half) (s : State) := issueWord (.hshl m a b) s (fun c s => c.pair s ⟨.shl, a⟩ b)
/-- A pair whose A half is `hshr` (R207). -/
def execHshr (m : Bool) (a : HalfFields) (b : Half) (s : State) := issueWord (.hshr m a b) s (fun c s => c.pair s ⟨.shr, a⟩ b)
/-- A pair whose A half is `hsar` (R207). -/
def execHsar (m : Bool) (a : HalfFields) (b : Half) (s : State) := issueWord (.hsar m a b) s (fun c s => c.pair s ⟨.sar, a⟩ b)
/-- A pair whose A half is `hfadd` (R225). -/
def execHfadd (m : Bool) (a : HalfFields) (b : Half) (s : State) := issueWord (.hfadd m a b) s (fun c s => c.pair s ⟨.fadd, a⟩ b)
/-- A pair whose A half is `hfmul` (R225). -/
def execHfmul (m : Bool) (a : HalfFields) (b : Half) (s : State) := issueWord (.hfmul m a b) s (fun c s => c.pair s ⟨.fmul, a⟩ b)
/-- A pair whose A half is `hfmin` (R225). -/
def execHfmin (m : Bool) (a : HalfFields) (b : Half) (s : State) := issueWord (.hfmin m a b) s (fun c s => c.pair s ⟨.fmin, a⟩ b)
/-- A pair whose A half is `hfmax` (R225). -/
def execHfmax (m : Bool) (a : HalfFields) (b : Half) (s : State) := issueWord (.hfmax m a b) s (fun c s => c.pair s ⟨.fmax, a⟩ b)
/-- A pair whose A half is `hiaddi` (R207). -/
def execHiaddi (m : Bool) (a : HalfFields) (b : Half) (s : State) := issueWord (.hiaddi m a b) s (fun c s => c.pair s ⟨.iaddi, a⟩ b)
/-- A pair whose A half is `handi` (R207). -/
def execHandi (m : Bool) (a : HalfFields) (b : Half) (s : State) := issueWord (.handi m a b) s (fun c s => c.pair s ⟨.andi, a⟩ b)
/-- A pair whose A half is `hshli` (R207). -/
def execHshli (m : Bool) (a : HalfFields) (b : Half) (s : State) := issueWord (.hshli m a b) s (fun c s => c.pair s ⟨.shli, a⟩ b)
/-- A pair whose A half is `hshri` (R207). -/
def execHshri (m : Bool) (a : HalfFields) (b : Half) (s : State) := issueWord (.hshri m a b) s (fun c s => c.pair s ⟨.shri, a⟩ b)
/-- A pair whose A half is `hmovi` (R207). -/
def execHmovi (m : Bool) (a : HalfFields) (b : Half) (s : State) := issueWord (.hmovi m a b) s (fun c s => c.pair s ⟨.movi, a⟩ b)
/-- A pair whose A half is `hfneg` (R225). -/
def execHfneg (m : Bool) (a : HalfFields) (b : Half) (s : State) := issueWord (.hfneg m a b) s (fun c s => c.pair s ⟨.fneg, a⟩ b)
/-- A pair whose A half is `hfabs` (R225). -/
def execHfabs (m : Bool) (a : HalfFields) (b : Half) (s : State) := issueWord (.hfabs m a b) s (fun c s => c.pair s ⟨.fabs, a⟩ b)
/-- A pair whose A half is `hnot` (R207). -/
def execHnot (m : Bool) (a : HalfFields) (b : Half) (s : State) := issueWord (.hnot m a b) s (fun c s => c.pair s ⟨.not, a⟩ b)

end Sys2Proof.Machine
end

