-- ==== Sys2Proof/Machine/Dispatch.lean ====
section
/-!
DEFINITION. The dispatch: one arm per constructor of Instr, each one direct call of its meaning.
-/

namespace Sys2Proof.Machine

/-- The effect of an instruction or step on a state. -/
def exec (i : Instr) (s : State) : Host.Outcome State Fault Refusal :=
  match i with
  | .nop w => Sys2Proof.Machine.execNop w s
  | .exit w => Sys2Proof.Machine.execExit w s
  | .jmp w => Sys2Proof.Machine.execJmp w s
  | .brv w => Sys2Proof.Machine.execBrv w s
  | .bru w => Sys2Proof.Machine.execBru w s
  | .jmpi w => Sys2Proof.Machine.execJmpi w s
  | .call w => Sys2Proof.Machine.execCall w s
  | .calli w => Sys2Proof.Machine.execCalli w s
  | .ret w => Sys2Proof.Machine.execRet w s
  | .rwait w => Sys2Proof.Machine.execRwait w s
  | .loop w => Sys2Proof.Machine.execLoop w s
  | .yield w => Sys2Proof.Machine.execYield w s
  | .priPass w => Sys2Proof.Machine.execPriPass w s
  | .sleep w => Sys2Proof.Machine.execSleep w s
  | .trap w => Sys2Proof.Machine.execTrap w s
  | .tret w => Sys2Proof.Machine.execTret w s
  | .barFull w => Sys2Proof.Machine.execBarFull w s
  | .barArrive w => Sys2Proof.Machine.execBarArrive w s
  | .barWait w => Sys2Proof.Machine.execBarWait w s
  | .barEnsFull w => Sys2Proof.Machine.execBarEnsFull w s
  | .barEnsArrive w => Sys2Proof.Machine.execBarEnsArrive w s
  | .barEnsWait w => Sys2Proof.Machine.execBarEnsWait w s
  | .brk w => Sys2Proof.Machine.execBrk w s
  | .snap w => Sys2Proof.Machine.execSnap w s
  | .iadd w => Sys2Proof.Machine.execIadd w s
  | .isub w => Sys2Proof.Machine.execIsub w s
  | .imul w => Sys2Proof.Machine.execImul w s
  | .imulh w => Sys2Proof.Machine.execImulh w s
  | .imad w => Sys2Proof.Machine.execImad w s
  | .iabs w => Sys2Proof.Machine.execIabs w s
  | .imin w => Sys2Proof.Machine.execImin w s
  | .imax w => Sys2Proof.Machine.execImax w s
  | .shl w => Sys2Proof.Machine.execShl w s
  | .shr w => Sys2Proof.Machine.execShr w s
  | .sar w => Sys2Proof.Machine.execSar w s
  | .rot w => Sys2Proof.Machine.execRot w s
  | .wext w => Sys2Proof.Machine.execWext w s
  | .lfn w => Sys2Proof.Machine.execLfn w s
  | .andW w => Sys2Proof.Machine.execAndW w s
  | .orW w => Sys2Proof.Machine.execOrW w s
  | .xorW w => Sys2Proof.Machine.execXorW w s
  | .andn w => Sys2Proof.Machine.execAndn w s
  | .notW w => Sys2Proof.Machine.execNotW w s
  | .bfe w => Sys2Proof.Machine.execBfe w s
  | .bfi w => Sys2Proof.Machine.execBfi w s
  | .popc w => Sys2Proof.Machine.execPopc w s
  | .clz w => Sys2Proof.Machine.execClz w s
  | .ctz w => Sys2Proof.Machine.execCtz w s
  | .brev w => Sys2Proof.Machine.execBrev w s
  | .bsel w => Sys2Proof.Machine.execBsel w s
  | .icmp w => Sys2Proof.Machine.execIcmp w s
  | .sel w => Sys2Proof.Machine.execSel w s
  | .mov w => Sys2Proof.Machine.execMov w s
  | .dot4 w => Sys2Proof.Machine.execDot4 w s
  | .isad w => Sys2Proof.Machine.execIsad w s
  | .idiv w => Sys2Proof.Machine.execIdiv w s
  | .iaddi w => Sys2Proof.Machine.execIaddi w s
  | .imuli w => Sys2Proof.Machine.execImuli w s
  | .andi w => Sys2Proof.Machine.execAndi w s
  | .ori w => Sys2Proof.Machine.execOri w s
  | .xori w => Sys2Proof.Machine.execXori w s
  | .shli w => Sys2Proof.Machine.execShli w s
  | .shri w => Sys2Proof.Machine.execShri w s
  | .sari w => Sys2Proof.Machine.execSari w s
  | .movi w => Sys2Proof.Machine.execMovi w s
  | .movhi w => Sys2Proof.Machine.execMovhi w s
  | .icmpi w => Sys2Proof.Machine.execIcmpi w s
  | .add64 w => Sys2Proof.Machine.execAdd64 w s
  | .sub64 w => Sys2Proof.Machine.execSub64 w s
  | .mul64 w => Sys2Proof.Machine.execMul64 w s
  | .shl64 w => Sys2Proof.Machine.execShl64 w s
  | .shr64 w => Sys2Proof.Machine.execShr64 w s
  | .lea w => Sys2Proof.Machine.execLea w s
  | .cmp64 w => Sys2Proof.Machine.execCmp64 w s
  | .sel64 w => Sys2Proof.Machine.execSel64 w s
  | .movSr w => Sys2Proof.Machine.execMovSr w s
  | .movSs w => Sys2Proof.Machine.execMovSs w s
  | .laneRd w => Sys2Proof.Machine.execLaneRd w s
  | .laneWr w => Sys2Proof.Machine.execLaneWr w s
  | .kop w => Sys2Proof.Machine.execKop w s
  | .kmov w => Sys2Proof.Machine.execKmov w s
  | .kpop w => Sys2Proof.Machine.execKpop w s
  | .kffs w => Sys2Proof.Machine.execKffs w s
  | .fadd w => Sys2Proof.Machine.execFadd w s
  | .fsub w => Sys2Proof.Machine.execFsub w s
  | .fmul w => Sys2Proof.Machine.execFmul w s
  | .fma w => Sys2Proof.Machine.execFma w s
  | .fmin w => Sys2Proof.Machine.execFmin w s
  | .fmax w => Sys2Proof.Machine.execFmax w s
  | .fcmp w => Sys2Proof.Machine.execFcmp w s
  | .fclass w => Sys2Proof.Machine.execFclass w s
  | .frcp w => Sys2Proof.Machine.execFrcp w s
  | .frsq w => Sys2Proof.Machine.execFrsq w s
  | .fsqrt w => Sys2Proof.Machine.execFsqrt w s
  | .fexp2 w => Sys2Proof.Machine.execFexp2 w s
  | .flog2 w => Sys2Proof.Machine.execFlog2 w s
  | .fsin w => Sys2Proof.Machine.execFsin w s
  | .fcos w => Sys2Proof.Machine.execFcos w s
  | .fround w => Sys2Proof.Machine.execFround w s
  | .ffract w => Sys2Proof.Machine.execFfract w s
  | .fldexp w => Sys2Proof.Machine.execFldexp w s
  | .fexs w => Sys2Proof.Machine.execFexs w s
  | .ftanh w => Sys2Proof.Machine.execFtanh w s
  | .hadd2 w => Sys2Proof.Machine.execHadd2 w s
  | .hmul2 w => Sys2Proof.Machine.execHmul2 w s
  | .hfma2 w => Sys2Proof.Machine.execHfma2 w s
  | .hmax2 w => Sys2Proof.Machine.execHmax2 w s
  | .fdot2 w => Sys2Proof.Machine.execFdot2 w s
  | .cvt w => Sys2Proof.Machine.execCvt w s
  | .cvtPk8 w => Sys2Proof.Machine.execCvtPk8 w s
  | .cvtEx8 w => Sys2Proof.Machine.execCvtEx8 w s
  | .q4Scale w => Sys2Proof.Machine.execQ4Scale w s
  | .q4Enc w => Sys2Proof.Machine.execQ4Enc w s
  | .q4Dec w => Sys2Proof.Machine.execQ4Dec w s
  | .nibPack w => Sys2Proof.Machine.execNibPack w s
  | .nibUnpk w => Sys2Proof.Machine.execNibUnpk w s
  | .vote w => Sys2Proof.Machine.execVote w s
  | .matchL w => Sys2Proof.Machine.execMatchL w s
  | .xlane w => Sys2Proof.Machine.execXlane w s
  | .red w => Sys2Proof.Machine.execRed w s
  | .scan w => Sys2Proof.Machine.execScan w s
  | .elect w => Sys2Proof.Machine.execElect w s
  | .uchk w => Sys2Proof.Machine.execUchk w s
  | .ldSp w => Sys2Proof.Machine.execLdSp w s
  | .stSp w => Sys2Proof.Machine.execStSp w s
  | .ldA w => Sys2Proof.Machine.execLdA w s
  | .stA w => Sys2Proof.Machine.execStA w s
  | .ldC w => Sys2Proof.Machine.execLdC w s
  | .stC w => Sys2Proof.Machine.execStC w s
  | .ldRsp w => Sys2Proof.Machine.execLdRsp w s
  | .stRsp w => Sys2Proof.Machine.execStRsp w s
  | .dqLd w => Sys2Proof.Machine.execDqLd w s
  | .dqPop w => Sys2Proof.Machine.execDqPop w s
  | .stG w => Sys2Proof.Machine.execStG w s
  | .ldP w => Sys2Proof.Machine.execLdP w s
  | .stP w => Sys2Proof.Machine.execStP w s
  | .dqCfg w => Sys2Proof.Machine.execDqCfg w s
  | .dqLvl w => Sys2Proof.Machine.execDqLvl w s
  | .pref w => Sys2Proof.Machine.execPref w s
  | .ldK w => Sys2Proof.Machine.execLdK w s
  | .lnkLd w => Sys2Proof.Machine.execLnkLd w s
  | .xcopy w => Sys2Proof.Machine.execXcopy w s
  | .cpSeal w => Sys2Proof.Machine.execCpSeal w s
  | .cpWait w => Sys2Proof.Machine.execCpWait w s
  | .cpWp w => Sys2Proof.Machine.execCpWp w s
  | .cpWpw w => Sys2Proof.Machine.execCpWpw w s
  | .chainAdd w => Sys2Proof.Machine.execChainAdd w s
  | .chainSeq w => Sys2Proof.Machine.execChainSeq w s
  | .chainWait w => Sys2Proof.Machine.execChainWait w s
  | .gather w => Sys2Proof.Machine.execGather w s
  | .kvtrim w => Sys2Proof.Machine.execKvtrim w s
  | .atom w => Sys2Proof.Machine.execAtom w s
  | .atomCas w => Sys2Proof.Machine.execAtomCas w s
  | .redG w => Sys2Proof.Machine.execRedG w s
  | .atomSp w => Sys2Proof.Machine.execAtomSp w s
  | .acq w => Sys2Proof.Machine.execAcq w s
  | .acqTry w => Sys2Proof.Machine.execAcqTry w s
  | .rel w => Sys2Proof.Machine.execRel w s
  | .bind w => Sys2Proof.Machine.execBind w s
  | .unbind w => Sys2Proof.Machine.execUnbind w s
  | .fence w => Sys2Proof.Machine.execFence w s
  | .xfence w => Sys2Proof.Machine.execXfence w s
  | .xfenceCh w => Sys2Proof.Machine.execXfenceCh w s
  | .mres w => Sys2Proof.Machine.execMres w s
  | .mfree w => Sys2Proof.Machine.execMfree w s
  | .mmaQ w => Sys2Proof.Machine.execMmaQ w s
  | .mma w => Sys2Proof.Machine.execMma w s
  | .mqk w => Sys2Proof.Machine.execMqk w s
  | .msv w => Sys2Proof.Machine.execMsv w s
  | .mwait w => Sys2Proof.Machine.execMwait w s
  | .mwaitAll w => Sys2Proof.Machine.execMwaitAll w s
  | .smpLd w => Sys2Proof.Machine.execSmpLd w s
  | .mrow w => Sys2Proof.Machine.execMrow w s
  | .mscale w => Sys2Proof.Machine.execMscale w s
  | .mtrans w => Sys2Proof.Machine.execMtrans w s
  | .mzero w => Sys2Proof.Machine.execMzero w s
  | .asmNew w => Sys2Proof.Machine.execAsmNew w s
  | .asmArm w => Sys2Proof.Machine.execAsmArm w s
  | .asmDep w => Sys2Proof.Machine.execAsmDep w s
  | .asmTestObj w => Sys2Proof.Machine.execAsmTestObj w s
  | .asmTestReg w => Sys2Proof.Machine.execAsmTestReg w s
  | .asmDropObj w => Sys2Proof.Machine.execAsmDropObj w s
  | .asmDropReg w => Sys2Proof.Machine.execAsmDropReg w s
  | .asmInfoPc w => Sys2Proof.Machine.execAsmInfoPc w s
  | .asmInfoRec w => Sys2Proof.Machine.execAsmInfoRec w s
  | .asmInfoClr w => Sys2Proof.Machine.execAsmInfoClr w s
  | .ladInit w => Sys2Proof.Machine.execLadInit w s
  | .ladPush w => Sys2Proof.Machine.execLadPush w s
  | .ladBlend w => Sys2Proof.Machine.execLadBlend w s
  | .ladRungLd w => Sys2Proof.Machine.execLadRungLd w s
  | .ladRungSt w => Sys2Proof.Machine.execLadRungSt w s
  | .ladRungCnt w => Sys2Proof.Machine.execLadRungCnt w s
  | .dirIns w => Sys2Proof.Machine.execDirIns w s
  | .dirDel w => Sys2Proof.Machine.execDirDel w s
  | .dirMov w => Sys2Proof.Machine.execDirMov w s
  | .dirLook w => Sys2Proof.Machine.execDirLook w s
  | .sol w => Sys2Proof.Machine.execSol w s
  | .cnsWait w => Sys2Proof.Machine.execCnsWait w s
  | .cnsRd w => Sys2Proof.Machine.execCnsRd w s
  | .respEnd w => Sys2Proof.Machine.execRespEnd w s
  | .rdsr w => Sys2Proof.Machine.execRdsr w s
  | .wrsr w => Sys2Proof.Machine.execWrsr w s
  | .segBind w => Sys2Proof.Machine.execSegBind w s
  | .ptok w => Sys2Proof.Machine.execPtok w s
  | .perf w => Sys2Proof.Machine.execPerf w s
  | .clk w => Sys2Proof.Machine.execClk w s
  | .clkWave w => Sys2Proof.Machine.execClkWave w s
  | .halt w => Sys2Proof.Machine.execHalt w s
  | .tlbInvPage w => Sys2Proof.Machine.execTlbInvPage w s
  | .tlbInvVf w => Sys2Proof.Machine.execTlbInvVf w s
  | .tlbInvPart w => Sys2Proof.Machine.execTlbInvPart w s
  | .ctxSv w => Sys2Proof.Machine.execCtxSv w s
  | .ctxLd w => Sys2Proof.Machine.execCtxLd w s
  | .hnop m a b => Sys2Proof.Machine.execHnop m a b s
  | .hmov m a b => Sys2Proof.Machine.execHmov m a b s
  | .hiadd m a b => Sys2Proof.Machine.execHiadd m a b s
  | .hisub m a b => Sys2Proof.Machine.execHisub m a b s
  | .hand m a b => Sys2Proof.Machine.execHand m a b s
  | .hor m a b => Sys2Proof.Machine.execHor m a b s
  | .hxor m a b => Sys2Proof.Machine.execHxor m a b s
  | .himin m a b => Sys2Proof.Machine.execHimin m a b s
  | .himax m a b => Sys2Proof.Machine.execHimax m a b s
  | .hshl m a b => Sys2Proof.Machine.execHshl m a b s
  | .hshr m a b => Sys2Proof.Machine.execHshr m a b s
  | .hsar m a b => Sys2Proof.Machine.execHsar m a b s
  | .hfadd m a b => Sys2Proof.Machine.execHfadd m a b s
  | .hfmul m a b => Sys2Proof.Machine.execHfmul m a b s
  | .hfmin m a b => Sys2Proof.Machine.execHfmin m a b s
  | .hfmax m a b => Sys2Proof.Machine.execHfmax m a b s
  | .hiaddi m a b => Sys2Proof.Machine.execHiaddi m a b s
  | .handi m a b => Sys2Proof.Machine.execHandi m a b s
  | .hshli m a b => Sys2Proof.Machine.execHshli m a b s
  | .hshri m a b => Sys2Proof.Machine.execHshri m a b s
  | .hmovi m a b => Sys2Proof.Machine.execHmovi m a b s
  | .hfneg m a b => Sys2Proof.Machine.execHfneg m a b s
  | .hfabs m a b => Sys2Proof.Machine.execHfabs m a b s
  | .hnot m a b => Sys2Proof.Machine.execHnot m a b s
  | .rwaitTimeout w => Sys2Proof.Machine.execRwaitTimeout w s
  | .remoteScratchpadReply w tag => Sys2Proof.Machine.execRemoteScratchpadReply w tag s
  | .queueEntryFill w tag => Sys2Proof.Machine.execQueueEntryFill w tag s
  | .directLoadReturn w tag => Sys2Proof.Machine.execDirectLoadReturn w tag s
  | .copyUnitVisible core wg channel => Sys2Proof.Machine.execCopyUnitVisible core wg channel s
  | .gatherRowLand w tag lane => Sys2Proof.Machine.execGatherRowLand w tag lane s
  | .trimFrameReturn part => Sys2Proof.Machine.execTrimFrameReturn part s
  | .cellRequestAtHome w tag => Sys2Proof.Machine.execCellRequestAtHome w tag s
  | .acquireGrant w tag => Sys2Proof.Machine.execAcquireGrant w tag s
  | .registrationAtHome core word => Sys2Proof.Machine.execRegistrationAtHome core word s
  | .registrationAck core word => Sys2Proof.Machine.execRegistrationAck core word s
  | .writeLeaveTimeout core word => Sys2Proof.Machine.execWriteLeaveTimeout core word s
  | .cleanLineExpiry core line => Sys2Proof.Machine.execCleanLineExpiry core line s
  | .smpImageFetchComplete w tag => Sys2Proof.Machine.execSmpImageFetchComplete w tag s
  | .matrixCommandStart core cmd => Sys2Proof.Machine.execMatrixCommandStart core cmd s
  | .matrixCommandRetire core cmd => Sys2Proof.Machine.execMatrixCommandRetire core cmd s
  | .shadowCheckComplete core => Sys2Proof.Machine.execShadowCheckComplete core s
  | .registryOperation w tag => Sys2Proof.Machine.execRegistryOperation w tag s
  | .watchReportAtRegistry held => Sys2Proof.Machine.execWatchReportAtRegistry held s
  | .heldWriteSliceRelease held => Sys2Proof.Machine.execHeldWriteSliceRelease held s
  | .revokeApply core part slot => Sys2Proof.Machine.execRevokeApply core part slot s
  | .revokeAckCombine part slot => Sys2Proof.Machine.execRevokeAckCombine part slot s
  | .revokeRelease part slot => Sys2Proof.Machine.execRevokeRelease part slot s
  | .revocationSlotFree part slot => Sys2Proof.Machine.execRevocationSlotFree part slot s
  | .ladderCommandStart core cmd => Sys2Proof.Machine.execLadderCommandStart core cmd s
  | .moveTargetCheck w tag => Sys2Proof.Machine.execMoveTargetCheck w tag s
  | .moveCopyComplete w tag => Sys2Proof.Machine.execMoveCopyComplete w tag s
  | .rootOrderEntry part index => Sys2Proof.Machine.execRootOrderEntry part index s
  | .solicitApply core => Sys2Proof.Machine.execSolicitApply core s
  | .directoryCommitApply core => Sys2Proof.Machine.execDirectoryCommitApply core s
  | .responderFailure core slot code => Sys2Proof.Machine.execResponderFailure core slot code s
  | .chanterCombine part place level node => Sys2Proof.Machine.execChanterCombine part place level node s
  | .censusComplete part place => Sys2Proof.Machine.execCensusComplete part place s
  | .fixedResultLatency w => Sys2Proof.Machine.execFixedResultLatency w s
  | .variableResultWrite w tag => Sys2Proof.Machine.execVariableResultWrite w tag s
  | .windowPrefill w => Sys2Proof.Machine.execWindowPrefill w s
  | .wakeConditionMet w => Sys2Proof.Machine.execWakeConditionMet w s
  | .pendingDisplacement core sched => Sys2Proof.Machine.execPendingDisplacement core sched s
  | .translationWalkHoldExpiry w => Sys2Proof.Machine.execTranslationWalkHoldExpiry w s
  | .translationWalkComplete w => Sys2Proof.Machine.execTranslationWalkComplete w s
  | .demandMap w => Sys2Proof.Machine.execDemandMap w s
  | .ringInsertReservation die ring stop part => Sys2Proof.Machine.execRingInsertReservation die ring stop part s
  | .bridgeInsertReservation die ring bridge part => Sys2Proof.Machine.execBridgeInsertReservation die ring bridge part s
  | .saveAheadWriteback core => Sys2Proof.Machine.execSaveAheadWriteback core s
  | .timeSliceExpiry part => Sys2Proof.Machine.execTimeSliceExpiry part s
  | .softPreemptionEvict core wg => Sys2Proof.Machine.execSoftPreemptionEvict core wg s
  | .gracePeriodEnd part => Sys2Proof.Machine.execGracePeriodEnd part s
  | .hardPreemption core => Sys2Proof.Machine.execHardPreemption core s
  | .contextRestore part saved core => Sys2Proof.Machine.execContextRestore part saved core s
  | .lateArrival part saved tag => Sys2Proof.Machine.execLateArrival part saved tag s
  | .dispatchIndex part => Sys2Proof.Machine.execDispatchIndex part s
  | .placerStart cluster => Sys2Proof.Machine.execPlacerStart cluster s
  | .stealRequest cluster => Sys2Proof.Machine.execStealRequest cluster s
  | .queueWriteNotify vf queue write => Sys2Proof.Machine.execQueueWriteNotify vf queue write s
  | .nopPacket vf queue => Sys2Proof.Machine.execNopPacket vf queue s
  | .launch vf queue code => Sys2Proof.Machine.execLaunch vf queue code s
  | .signalPacket vf queue => Sys2Proof.Machine.execSignalPacket vf queue s
  | .waitPacket vf queue => Sys2Proof.Machine.execWaitPacket vf queue s
  | .mapPacket vf queue => Sys2Proof.Machine.execMapPacket vf queue s
  | .unmapPacket vf queue => Sys2Proof.Machine.execUnmapPacket vf queue s
  | .gridComplete part grid => Sys2Proof.Machine.execGridComplete part grid s
  | .chainCopy part chain => Sys2Proof.Machine.execChainCopy part chain s
  | .chainReduce part chain => Sys2Proof.Machine.execChainReduce part chain s
  | .chainAllreduce part chain others => Sys2Proof.Machine.execChainAllreduce part chain others s
  | .chainSignal part chain => Sys2Proof.Machine.execChainSignal part chain s
  | .chainWaitEntry part chain => Sys2Proof.Machine.execChainWaitEntry part chain s
  | .faultDelivery w => Sys2Proof.Machine.execFaultDelivery w s
  | .deferredFaultKnown w tag => Sys2Proof.Machine.execDeferredFaultKnown w tag s
  | .workgroupContainment core wg => Sys2Proof.Machine.execWorkgroupContainment core wg s
  | .faultRecordPost => Sys2Proof.Machine.execFaultRecordPost s
  | .contextKill ctx code => Sys2Proof.Machine.execContextKill ctx code s
  | .partitionContainment part code => Sys2Proof.Machine.execPartitionContainment part code s
  | .partitionReinitialised part => Sys2Proof.Machine.execPartitionReinitialised part s
  | .packageContainment => Sys2Proof.Machine.execPackageContainment s
  | .arrayError unitKind unit array addr corrected => Sys2Proof.Machine.execArrayError unitKind unit array addr corrected s
  | .scrubPatrol sector uncorrectable => Sys2Proof.Machine.execScrubPatrol sector uncorrectable s
  | .quotaIntervalEnd part slice => Sys2Proof.Machine.execQuotaIntervalEnd part slice s
  | .tempReport readings => Sys2Proof.Machine.execTempReport readings s
  | .snapshotTimer part => Sys2Proof.Machine.execSnapshotTimer part s
  | .hostTrigger vf value => Sys2Proof.Machine.execHostTrigger vf value s
  | .registerWrite vf offset value => Sys2Proof.Machine.execRegisterWrite vf offset value s
  | .hostWindowAccess vf bar addr data size => Sys2Proof.Machine.execHostWindowAccess vf bar addr data size s
  | .featAccept r => Sys2Proof.Machine.execFeatAccept r s
  | .queueStop r => Sys2Proof.Machine.execQueueStop r s
  | .queueStart r => Sys2Proof.Machine.execQueueStart r s
  | .queueReset r => Sys2Proof.Machine.execQueueReset r s
  | .faultRead r => Sys2Proof.Machine.execFaultRead r s
  | .quotaRead r => Sys2Proof.Machine.execQuotaRead r s
  | .quotaAnswer r => Sys2Proof.Machine.execQuotaAnswer r s
  | .ctxKill r => Sys2Proof.Machine.execCtxKill r s
  | .chainReg r => Sys2Proof.Machine.execChainReg r s
  | .chainUnreg r => Sys2Proof.Machine.execChainUnreg r s
  | .chainRestart r => Sys2Proof.Machine.execChainRestart r s
  | .chainSkip r => Sys2Proof.Machine.execChainSkip r s
  | .poolSet r => Sys2Proof.Machine.execPoolSet r s
  | .debugAuth r => Sys2Proof.Machine.execDebugAuth r s
  | .snapRead r => Sys2Proof.Machine.execSnapRead r s
  | .tempRead r => Sys2Proof.Machine.execTempRead r s
  | .eventRead r => Sys2Proof.Machine.execEventRead r s
  | .hqWrite r => Sys2Proof.Machine.execHqWrite r s
  | .tenant r => Sys2Proof.Machine.execTenant r s
  | .partConfig r => Sys2Proof.Machine.execPartConfig r s
  | .grantRange r => Sys2Proof.Machine.execGrantRange r s
  | .quotaCtrl r => Sys2Proof.Machine.execQuotaCtrl r s
  | .teleSet r => Sys2Proof.Machine.execTeleSet r s
  | .triggerMask r => Sys2Proof.Machine.execTriggerMask r s
  | .timerTrigger r => Sys2Proof.Machine.execTimerTrigger r s
  | .groupReg r => Sys2Proof.Machine.execGroupReg r s
  | .packageSet r => Sys2Proof.Machine.execPackageSet r s
  | .fwLoad r => Sys2Proof.Machine.execFwLoad r s
  | .fwUpdate r => Sys2Proof.Machine.execFwUpdate r s
  | .pstate r => Sys2Proof.Machine.execPstate r s
  | .duetForm r => Sys2Proof.Machine.execDuetForm r s
  | .getVersion q => Sys2Proof.Machine.execGetVersion q s
  | .getCapabilities q => Sys2Proof.Machine.execGetCapabilities q s
  | .negotiateAlgorithms q => Sys2Proof.Machine.execNegotiateAlgorithms q s
  | .getDigests q => Sys2Proof.Machine.execGetDigests q s
  | .getCertificate q => Sys2Proof.Machine.execGetCertificate q s
  | .challenge q => Sys2Proof.Machine.execChallenge q s
  | .getMeasurements q => Sys2Proof.Machine.execGetMeasurements q s
  | .keyExchange q => Sys2Proof.Machine.execKeyExchange q s
  | .finish q => Sys2Proof.Machine.execFinish q s
  | .endSession q => Sys2Proof.Machine.execEndSession q s
  | .debugAttach vf session => Sys2Proof.Machine.execDebugAttach vf session s
  | .debugStop vf target => Sys2Proof.Machine.execDebugStop vf target s
  | .debugStateAccess vf w write item value => Sys2Proof.Machine.execDebugStateAccess vf w write item value s
  | .debugResume vf w => Sys2Proof.Machine.execDebugResume vf w s
  | .powerOn okA okB => Sys2Proof.Machine.execPowerOn okA okB s
  | .heartbeat missed => Sys2Proof.Machine.execHeartbeat missed s
  | .firmwareFailover => Sys2Proof.Machine.execFirmwareFailover s
  | .standbyFailure => Sys2Proof.Machine.execStandbyFailure s
  | .flitReceive port seq crcOk => Sys2Proof.Machine.execFlitReceive port seq crcOk s
  | .replayTimeout port => Sys2Proof.Machine.execReplayTimeout port s
  | .portDown port => Sys2Proof.Machine.execPortDown port s
  | .remoteRequestTimeout w tag => Sys2Proof.Machine.execRemoteRequestTimeout w tag s
  | .duetWindowClose part => Sys2Proof.Machine.execDuetWindowClose part s
  | .duetDigestReceived part digest => Sys2Proof.Machine.execDuetDigestReceived part digest s
  | .atomicAtHome w tag => Sys2Proof.Machine.execAtomicAtHome w tag s
  | .encodingNotInstruction word => Sys2Proof.Machine.execEncodingNotInstruction word s
  | .snapshotWindowRead vf offset size => Sys2Proof.Machine.execSnapshotWindowRead vf offset size s

end Sys2Proof.Machine
end

