-- ==== Sys2Proof/Machine/Step.lean ====
section
/-!
DEFINITION. One step of the machine: the oldest offered step, else the next word of this cycle, scheduler by scheduler, else the
end of the cycle, in which every unit does its work (spec 02 R54; logs 1, 2).
-/

namespace Sys2Proof.Machine

/-- The wave a scheduler selects issues: the start of its window, the window's prefill, during which other waves of the scheduler may
issue, then the fetch, and the effect of the word or the fault of its encoding. -/
def issueNext (s : State) (id : WaveId) : Host.Outcome State Fault Refusal :=
  let s := { s with cur := id, issued := s.issued ++ [4 * id.core + id.sched] }.windowStart id
  if s.needsPrefill id then .next ((s.prefill id).stall id)
  else match s.fetchHead id with
    | (.error r, s) => .next (s.fetchFault id r)
    | (.ok x, s) => match decode x with
      | .instr i => exec i s
      | .reject _ _ => .next (s.encodingFault id x)

/-- A step of the machine. -/
def step (s : State) : Host.Outcome State Fault Refusal :=
  match s.agenda with
  | i :: rest => exec i { s with agenda := rest }
  | [] => match s.nextWave with
    | some id => issueNext s id
    | none => .next s.endCycle

/-- The state in which the next step fetches and runs the word with the bits `w` (log 16). -/
def State.withFetchWord (s : State) (_nbits w : Nat) : State := s.placeProbe (BitVec.ofNat 64 w)

end Sys2Proof.Machine
end

