-- ==== Sys2Proof/Safety.lean ====
section
/-!
DEFINITION. What a safe run is: one in which every step answers a next state; and when an instruction word issues, in the
terms the statements use.
-/

namespace Sys2Proof

/-- A state from which `n` steps all answer a next state. -/
def SafeFor : Nat → Machine.State → Prop
  | 0, _ => True
  | n + 1, s => ∃ t, Machine.step s = .next t ∧ SafeFor n t

/-- A state from which the machine never stops. -/
def Safe (s : Machine.State) : Prop := ∀ n, SafeFor n s

end Sys2Proof

namespace Sys2Proof.Claims
open Sys2Proof.Machine

/-- The state after the checks of R180, which fetch the word before a window and change nothing of any wave. -/
def checked (i : Instr) (s : State) (c : Ctx) : State := (s.checks c i.shape (wordNeeds i c.wave)).2

/-- The word `i` issues in `s` with what `c` holds: the wave `cur` names has a lane to run (R37), no check of R180 before the
execution faults fails, a marked word that waits for its pending-write set has nothing to wait for (R227), and a responder
issues only words of R369, at most 256 (R369). -/
structure Issues (i : Instr) (s : State) (c : Ctx) : Prop where
  ctx : s.ctxFor s.cur (optD (encode i) 0#64) i.shape.pred i.shape.m = some c
  responder : ∀ r, c.wave.resp = some r → r.issued < 256 ∧ responderWord c.word = true
  passes : (s.checks c i.shape (wordNeeds i c.wave)).1 = none
  marker : i.shape.mustMark = true → c.wave.live (checked i s c).clk = [] ∧ c.wave.conds = []

/-- `i` completes with the effect `u`: the next state is `u` with the word retired, its lanes gone on to the next word. -/
def Completes (i : Instr) (s : State) (c : Ctx) (u : State) : Prop := exec i s = .next (u.retire i.shape c false)

/-- `i` completes with the effect `u`, which has set the lanes' PCs itself. -/
def CompletesMoved (i : Instr) (s : State) (c : Ctx) (u : State) : Prop := exec i s = .next (u.retire i.shape c true)

/-- `i` raises the fault `r` for the lanes of `m`, with no effect (R183). -/
def Raises (i : Instr) (s : State) (c : Ctx) (r : Raise) (m : Mask) : Prop := exec i s = .next ((checked i s c).raiseAt c r m)

end Sys2Proof.Claims
end

