-- ==== Sys2Proof/Certificates/Slice0/Obligations.lean ====
section
/-!
DEFINITION. The statements for the provers. `Claims` holds the vocabulary they share: when a word issues, what its issue
makes of the state, and the values of the manual's pseudocode on bit vectors.
-/

namespace Sys2Proof.Claims
open Sys2Proof.Machine

/-! ### What a word writes -/

/-- Wherever `i` issues it writes the words `f` gives for a lane to the registers from `d` on, and nothing else: every
effective lane of a vector register, a scalar register once (R169). -/
def Writes (i : Instr) (d : BitVec 9) (f : State → Ctx → Nat → List Word) : Prop :=
  ∀ s c, Issues i s c → Completes i s c
    ((checked i s c).updWave c.id (fun v => v.regWrites (c.results d.toNat (f (checked i s c) c))))

/-- The same with the flags that `g` gives added to `%fflags` (R153, R154). -/
def WritesFlags (i : Instr) (d : BitVec 9) (f : Ctx → Nat → List Word × Flags) : Prop :=
  ∀ s c, Issues i s c → Completes i s c
    ((checked i s c).updWave c.id (fun v => (v.regWrites (c.results d.toNat (fun l => (f c l).1))).orFlags
      (orAll ((c.calcLanes d.toNat).map (fun l => (f c l).2)))))

/-- Wherever `i` issues it sets the bit of every effective lane of the mask register `d` to `f`, the other bits staying. -/
def WritesMask (i : Instr) (d : BitVec 9) (f : Ctx → Nat → Bool) : Prop :=
  ∀ s c, Issues i s c → ∃ m : Mask,
    (∀ l, l < 32 → m.getLsbD l = if c.eff.getLsbD l then f c l else (c.wave.kget d.toNat).getLsbD l) ∧
    Completes i s c ((checked i s c).updWave c.id (fun v => v.kset d.toNat m))

/-- Wherever `i` issues it writes `f` once for the wave, to the mask register `d`, if a lane is effective (R206). -/
def WritesWhole (i : Instr) (d : BitVec 9) (f : Ctx → Mask) : Prop :=
  ∀ s c, Issues i s c → Completes i s c
    (if c.eff = 0#32 then checked i s c else (checked i s c).updWave c.id (fun v => v.kset d.toNat (f c)))

/-- Wherever `i` issues it writes `f` once for the wave, to the scalar register `d`, if a lane is effective. -/
def WritesScalar (i : Instr) (d : BitVec 9) (f : Ctx → Word) : Prop :=
  ∀ s c, Issues i s c → Completes i s c
    (if c.eff = 0#32 then checked i s c else (checked i s c).updWave c.id (fun v => v.regSet d.toNat 0 (f c)))

/-! ### Values of integer instructions (R138, R182, R189) -/

/-- The low bits of a word that an integer type holds. -/
def pat (ty : Nat) (x : Word) : BitVec (tyWidth ty) := x.setWidth (tyWidth ty)

/-- A pattern of an integer type in a register: extended by its signedness. -/
def out (ty : Nat) (y : BitVec (tyWidth ty)) : Word := if tySigned ty then y.signExtend 32 else y.setWidth 32

/-- The integer a pattern of a type denotes. -/
def val (ty : Nat) (x : Word) : Int := if tySigned ty then (pat ty x).toInt else ((pat ty x).toNat : Int)

/-- An integer brought into the range of a type where the word saturates, else taken modulo its width. -/
def result (w : RWord) (r : Int) : Word :=
  let n := tyWidth w.ty
  let lo : Int := if tySigned w.ty then -(2 ^ (n - 1) : Nat) else 0
  let hi : Int := if tySigned w.ty then (2 ^ (n - 1) : Nat) - 1 else (2 ^ n : Nat) - 1
  out w.ty (BitVec.ofInt n (if w.flags.getLsbD 2 then max lo (min hi r) else r))

/-- A typed integer instruction computes `f` of the values of its operands. -/
def Typed (i : Instr) (w : RWord) (f : Int → Int → Int → Int) : Prop :=
  Writes i w.d (fun _ c l => [result w (f (val w.ty (c.opnd w.a l)) (val w.ty (c.opnd w.b l)) (val w.ty (c.opnd w.c l)))])

/-- A typed instruction on the pattern of A and the shift count in the low byte of B. -/
def Pattern (i : Instr) (w : RWord) (f : BitVec (tyWidth w.ty) → Nat → BitVec (tyWidth w.ty)) : Prop :=
  Writes i w.d (fun _ c l => [out w.ty (f (pat w.ty (c.opnd w.a l)) ((c.opnd w.b l).toNat % 256))])

/-- An untyped instruction on words. -/
def Words (i : Instr) (w : RWord) (f : Word → Word → Word → Word) : Prop :=
  Writes i w.d (fun _ c l => [f (c.opnd w.a l) (c.opnd w.b l) (c.opnd w.c l)])

/-- A word given bit by bit. -/
def ofBits (f : Nat → Bool) : Word := BitVec.ofFnLE (fun i : Fin 32 => f i)

/-- An immediate instruction on words. -/
def Immediate (i : Instr) (w : IWord) (f : Word → Word → Word) : Prop := Writes i w.d (fun _ c l => [f (c.opnd w.a l) w.imm])

/-- The 64-bit value of a pair operand. -/
def pairOf (c : Ctx) (f : BitVec 9) (l : Nat) : Dword :=
  if isC f.toNat then (c.opnd f l).signExtend 64
  else c.wave.opnd (f.toNat + 1) l ++ c.wave.opnd f.toNat l

/-- The words of a 64-bit result, low first. -/
def halves (x : Dword) : List Word := [x.setWidth 32, (x >>> 32).setWidth 32]

/-- The integer a pair denotes under a word's type. -/
def pairInt (w : RWord) (x : Dword) : Int := if tySigned w.ty then x.toInt else (x.toNat : Int)

/-- A comparison of R195 by its condition code. -/
def holds (n : Nat) (x y : Int) : Bool :=
  match n with
  | 0 => decide (x = y)
  | 1 => decide (x ≠ y)
  | 2 => decide (x < y)
  | 3 => decide (x ≤ y)
  | 4 => decide (x > y)
  | _ => decide (x ≥ y)

/-- A comparison combined with the mask in C as MINOR bits 5:4 say (R195). -/
def combine (c : Ctx) (w : RWord) (l : Nat) (t : Bool) : Bool :=
  let k := (c.wave.kget w.c.toNat).getLsbD l
  match w.minor / 16 with
  | 1 => t && k
  | 2 => t || k
  | _ => t

/-- The window of `wext` of two words (R191). -/
def wextOf (minor : Nat) (a b d : Word) : Word :=
  let x : Dword := b ++ a
  let n := d.toNat % 64
  (if minor = 0 then x.rotateRight n else if minor = 1 then x >>> n else x.sshiftRight n).setWidth 32

/-- `lfn` bit by bit: its two codes stand in MOD (R192). -/
def lfnOf (mod : BitVec 14) (a b d : Word) : Word := ofBits (fun i =>
  mod.getLsbD ((if d.getLsbD i then 10 else 6) + (a.getLsbD i).toNat + 2 * (b.getLsbD i).toNat))

/-- `bfe` bit by bit (R196). -/
def bfeOf (signed : Bool) (a b d : Word) : Word :=
  let p := b.toNat % 256
  let n := min (d.toNat % 256) 32
  let at' := fun (i : Nat) => if i < 32 then a.getLsbD i else signed && a.getLsbD 31
  ofBits (fun i => decide (n ≠ 0) && (if i < n then at' (p + i) else signed && at' (p + n - 1)))

/-- `bfi` bit by bit (R196). -/
def bfiOf (a b d : Word) : Word :=
  let p := d.toNat % 256
  let n := min (d.toNat / 256 % 256) 32
  ofBits (fun i => if p ≤ i ∧ i < p + n then b.getLsbD (i - p) else a.getLsbD i)

/-- `bsel` bit by bit (R197). -/
def bselOf (a b d : Word) : Word :=
  let x : Dword := b ++ a
  let pick := fun (i j : Nat) => !d.getLsbD (12 + i) && x.getLsbD (8 * (d.toNat / 8 ^ i % 8) + j)
  let top0 := pick 0 7
  let top1 := if d.getLsbD 17 then top0 else pick 1 7
  let top2 := if d.getLsbD 18 then top1 else pick 2 7
  ofBits (fun k => match k / 8 with
    | 0 => pick 0 (k % 8)
    | 1 => if d.getLsbD 17 then top0 else pick 1 (k % 8)
    | 2 => if d.getLsbD 18 then top1 else pick 2 (k % 8)
    | _ => if d.getLsbD 19 then top2 else pick 3 (k % 8))

/-- A 32-bit accumulator as an integer. -/
def acc32 (signed : Bool) (d : Word) : Int := if signed then d.toInt else (d.toNat : Int)

/-- A sum brought into 32 bits, saturated where the word says so (R198). -/
def fit32 (sat signed : Bool) (r : Int) : Word :=
  BitVec.ofInt 32 (if sat then (if signed then max (-2147483648) (min 2147483647 r) else max 0 (min 4294967295 r)) else r)

/-- `dot4`: signed or unsigned bytes of a and of b (R198). -/
def dot4Of (sa sb sat : Bool) (a b d : Word) : Word :=
  let byte := fun (sg : Bool) (x : Word) (i : Nat) =>
    if sg then (x.extractLsb' (8 * i) 8).toInt else ((x.extractLsb' (8 * i) 8).toNat : Int)
  fit32 sat sa (acc32 sa d + byte sa a 0 * byte sb b 0 + byte sa a 1 * byte sb b 1 + byte sa a 2 * byte sb b 2 +
    byte sa a 3 * byte sb b 3)

/-- `isad`: the absolute difference added to C (R198). -/
def isadOf (ty : Nat) (sat : Bool) (a b d : Word) : Word :=
  let x := val ty a - val ty b
  fit32 sat (tySigned ty) (acc32 (tySigned ty) d + if x < 0 then -x else x)

/-- The saturation of a 64-bit sum (R201, R202). -/
def clamp64 (w : RWord) (r : Int) : Int := if w.flags.getLsbD 2 then
  (if tySigned w.ty then max (-(2 ^ 63 : Int)) (min (2 ^ 63 - 1) r) else max 0 (min (2 ^ 64 - 1) r)) else r

/-! ### Values of the other register words -/

/-- A special register as a lane reads it (R203); `%part` is 0 for a virtual function (R406). -/
def specialOf (s : State) (c : Ctx) (n lane : Nat) : Nat :=
  match n with
  | 0x00 => lane
  | 0x01 => c.wave.index
  | 0x02 => c.wg.wgx
  | 0x03 => c.wg.wgy
  | 0x04 => c.wg.wgz
  | 0x05 => c.wg.waves
  | 0x06 => c.wg.ensRank
  | 0x07 => s.coreSeen c.wg.vf c.wg.part c.id.core
  | 0x08 => s.coreSeen c.wg.vf c.wg.part c.id.core / 8
  | 0x09 => s.coreSeen c.wg.vf c.wg.part c.id.core / 64
  | 0x0A => if c.wg.vf = 96 then c.wg.part else 0
  | 0x0B => s.clk - (s.part c.wg.part).origin
  | 0x0C => c.wave.fflags.toNat
  | 0x10 => c.wave.xpc.toNat
  | 0x11 => c.wave.xmask.toNat
  | 0x12 => c.wave.fmask.toNat
  | 0x13 => c.wave.xcode.toNat
  | _ => c.wave.xinfo.toNat

/-- A floating word: `f` on the patterns of A, B and C in the word's type, with its flags (R212). -/
def Floats (i : Instr) (w : RWord) (f : Fmt → Nat → Nat → Nat → Nat × Flags) : Prop :=
  WritesFlags i w.d (fun c l =>
    let r := f (fmtOf w.ty) (c.opnd w.a l).toNat (c.opnd w.b l).toNat (c.opnd w.c l).toNat
    ([BitVec.ofNat 32 r.1], r.2))

/-- A packed word: `f` on the low and the high 16 bits of A, B and C (R138, R218). -/
def Packed (i : Instr) (w : RWord) (f : Fmt → Nat → Nat → Nat → Nat × Flags) : Prop :=
  WritesFlags i w.d (fun c l =>
    let at' := fun (o : BitVec 9) (e : Nat) => ((c.opnd o l).extractLsb' (16 * e) 16).toNat
    let lo := f (fmtOf w.ty) (at' w.a 0) (at' w.b 0) (at' w.c 0)
    let hi := f (fmtOf w.ty) (at' w.a 1) (at' w.b 1) (at' w.c 1)
    ([BitVec.ofNat 32 (lo.1 + 65536 * hi.1)], lo.2 ||| hi.2))

/-- The exact value of a finite number of a format. -/
def exactly (neg : Bool) (m : Nat) (e : Int) : ℚ := (if neg then -1 else 1) * m * (2 : ℚ) ^ e

/-- The finite value of a pattern of a format. -/
def finite (f : Fmt) (x : Nat) : Option ℚ :=
  match f.val x with
  | .fin neg m e => some (exactly neg m e)
  | _ => none

/-- What a half-op makes of the values of its `d` and `a` (R173, R207, R225). -/
def pairedValue (op : HalfOp) (imm : BitVec 8) (d a : Word) : Word × Flags :=
  let float := fun (r : Nat × Flags) => ((BitVec.ofNat 32 r.1 : Word), r.2)
  let signed := fun (x : Word) => if (f32.val a.toNat).isNan then (0x7FC00000#32, if (f32.val a.toNat).isSnan then 1#4 else 0#4)
    else (x, (0#4 : Flags))
  match op with
  | .nop => (d, 0#4)
  | .mov => (a, 0#4)
  | .iadd => (d + a, 0#4)
  | .isub => (d - a, 0#4)
  | .and => (d &&& a, 0#4)
  | .or => (d ||| a, 0#4)
  | .xor => (d ^^^ a, 0#4)
  | .imin => (if a.slt d then a else d, 0#4)
  | .imax => (if d.slt a then a else d, 0#4)
  | .shl => (d <<< (a.toNat % 256), 0#4)
  | .shr => (d >>> (a.toNat % 256), 0#4)
  | .sar => (d.sshiftRight (a.toNat % 256), 0#4)
  | .fadd => float (f32.fadd 0 false d.toNat a.toNat)
  | .fmul => float (f32.fmul 0 false d.toNat a.toNat)
  | .fmin => float (f32.fminmax false d.toNat a.toNat)
  | .fmax => float (f32.fminmax true d.toNat a.toNat)
  | .iaddi => (a + imm.signExtend 32, 0#4)
  | .andi => (a &&& imm.setWidth 32, 0#4)
  | .shli => (a <<< imm.toNat, 0#4)
  | .shri => (a >>> imm.toNat, 0#4)
  | .movi => (imm.signExtend 32, 0#4)
  | .fneg => signed (a ^^^ 0x80000000#32)
  | .fabs => signed (a &&& 0x7FFFFFFF#32)
  | .not => (~~~a, 0#4)

/-- A half's writes, one vector register of every effective lane, and its flags, from the registers as they stood at issue. -/
def halfWrites (c : Ctx) (op : HalfOp) (h : HalfFields) : List RegWrite × Flags :=
  if op = .nop then ([], 0#4)
  else
    let r := fun (l : Nat) => pairedValue op h.imm (c.wave.vget h.d.toNat l) (c.wave.vget h.a.toNat l)
    (c.lanes.map (fun l => ⟨h.d.toNat, l, (r l).1⟩), orAll (c.lanes.map (fun l => (r l).2)))

/-- The source lane of `xlane` in groups of `n` lanes (R249). -/
def sourceLane (mode n l b : Nat) : Nat :=
  n * (l / n) + (match mode with
    | 0 => b % n
    | 1 => (l + b) % n
    | 2 => (l % n) ^^^ (b % n)
    | _ => n - 1 - l % n)

/-- One combination of `red` and `scan`: the operation and type of R250, 0 add, 1 min, 2 max, 3 and, 4 or, 5 xor. -/
def combineTwo (w : RWord) (op : Nat) (x y : Word) : Word × Flags :=
  let float := fun (r : Nat × Flags) => ((BitVec.ofNat 32 r.1 : Word), r.2)
  match op with
  | 0 => if w.ty = 0xA then float (f32.fadd (w.flags.toNat % 4) false x.toNat y.toNat)
    else (fit32 (w.flags.getLsbD 2) (tySigned w.ty) (val w.ty x + val w.ty y), 0#4)
  | 1 => if w.ty = 0xA then float (f32.fminmax false x.toNat y.toNat) else (if val w.ty x ≤ val w.ty y then x else y, 0#4)
  | 2 => if w.ty = 0xA then float (f32.fminmax true x.toNat y.toNat) else (if val w.ty x ≤ val w.ty y then y else x, 0#4)
  | 3 => (x &&& y, 0#4)
  | 4 => (x ||| y, 0#4)
  | _ => (x ^^^ y, 0#4)

/-- The value a lane brings to `red` and `scan`: the identity of the operation outside the effective mask (R41, R250). -/
def brought (c : Ctx) (w : RWord) (op l : Nat) : Word :=
  if c.eff.getLsbD l then c.opnd w.a l
  else match op with
    | 1 => if w.ty = 0xA then 0x7F800000#32 else if w.ty = 5 then 0x7FFFFFFF#32 else 0xFFFFFFFF#32
    | 2 => if w.ty = 0xA then 0xFF800000#32 else if w.ty = 5 then 0x80000000#32 else 0#32
    | 3 => 0xFFFFFFFF#32
    | _ => 0#32

/-- The tree of R151 over the lanes from `l` on, `2 ^ n` of them: its two halves combined. -/
def tree (f : Word → Word → Word × Flags) (x : Nat → Word) : Nat → Nat → Word × Flags
  | 0, l => (x l, 0#4)
  | n + 1, l =>
    let a := tree f x n l
    let b := tree f x n (l + 2 ^ n)
    let r := f a.1 b.1
    (r.1, a.2 ||| b.2 ||| r.2)

/-- The steps of R152 for the distances of a list: each lane from the distance on is combined with the lane that far below. The events
are those at the lanes of a mask (R154). -/
def scanned (f : Word → Word → Word × Flags) (at' : Mask) : List Nat → (Nat → Word) → (Nat → Word) × Flags
  | [], x => (x, 0#4)
  | d :: ds, x =>
    let y := fun (l : Nat) => if d ≤ l then f (x (l - d)) (x l) else (x l, 0#4)
    let r := scanned f at' ds (fun l => (y l).1)
    (r.1, orAll (((List.range 32).filter (fun l => at'.getLsbD l)).map (fun l => (y l).2)) ||| r.2)

/-! ### Control words -/

/-- A lane's target lies beyond the limit of `g15` (R165). -/
def pastLimit (c : Ctx) (t : Word) : Bool := decide (bitsN (sget 0#128 c.wave.segs 15) 119 60 < 8 * t.toNat + 8)

/-- A transfer of R229: if an effective lane that takes it has its target beyond the limit, SEG_LIMIT for those lanes with the
address of the lowest; else the effective lanes that take it go to their targets and the other active lanes to the next word, and
`extra` happens. -/
def Transfers (i : Instr) (take : Ctx → Nat → Bool) (target : Ctx → Nat → Word) (extra : Ctx → Wave → Wave) : Prop :=
  ∀ s c, Issues i s c →
    let past := fun (l : Nat) => c.eff.getLsbD l && take c l && pastLimit c (target c l)
    ((∀ l, l < 32 → past l = false) → CompletesMoved i s c ((checked i s c).updWave c.id (fun v =>
      (extra c v).pcSets (lanesOf c.active) (fun l => if c.eff.getLsbD l && take c l then target c l else c.pc + 1#32)))) ∧
    (∀ l, l < 32 → past l = true → (∀ j, j < l → past j = false) →
      Raises i s c ⟨0x0A, 0, bitsN (sget 0#128 c.wave.segs 15) 59 0 + 8 * (target c l).toNat⟩ (ofBits past))

/-- The generation and arrivals of a barrier slot of a wave's workgroup, or of its ensemble (R237, R238). -/
def slotOf (s : State) (c : Ctx) (ens : Bool) (n : Nat) : Barrier :=
  if ens then sget Barrier.fresh (s.part c.wg.part).ensBarriers (32 * c.wg.ensId + n) else sget Barrier.fresh c.wg.barriers n

/-- The wave's place among the arrivals of a slot. -/
def seatOf (c : Ctx) (ens : Bool) : Nat := if ens then 32 * c.wg.ensRank + c.wave.index else c.wave.index

/-- A barrier word on a slot that is declared: arriving twice for a generation, or waiting without an arrival, raises SYNC; an
arrival is recorded for the generation and may complete it; a wait parks the wave until the generation after its arrival, or
takes its arrival away where that generation is over (R237, R238). -/
def BarrierWord (i : Instr) (w : BWord) (ens arrive waits : Bool) : Prop :=
  ∀ s c, Issues i s c → c.eff ≠ 0#32 →
    let n := (c.opnd w.a (lowLane c.eff)).toNat
    let t := checked i s c
    let b := slotOf t c ens n
    let old := sget none b.arrivals (seatOf c ens)
    let mark := fun (t : State) (x : Option Word) => t.setBarrier c ens n { b with arrivals := sset none b.arrivals (seatOf c ens) x }
    let park := fun (t : State) => t.updWave c.id (fun v => { v with
      conds := v.conds ++ [⟨if ens then 0x02 else 0x01, n, (b.gen + 1#32).toNat⟩] })
    let arrives := fun (t : State) => (t.launch c (.arrive ens n) []).arriveTry c.id t.tags
    let holds := fun (t : State) => (t.launch c (.barWait ens n b.gen) []).waitTry c.id t.tags
    (c.wg.bars ≤ n ∨ (ens = true ∧ c.wg.ensSize ≤ 1) → Raises i s c ⟨0x03, 8, c.word.toNat⟩ c.eff) ∧
    (n < c.wg.bars → (ens = true → 1 < c.wg.ensSize) →
      ((if arrive then old = some b.gen else old = none) →
        Raises i s c ⟨0x17, 0, n + 2 ^ 63 + (if ens then 2 ^ 62 else 0)⟩ c.eff) ∧
      (arrive = true → old ≠ some b.gen →
        Completes i s c (if waits then holds (arrives (park (mark t (some b.gen)))) else arrives (mark t (some b.gen)))) ∧
      (arrive = false → ∀ a, old = some a →
        Completes i s c (if waits then (if a = b.gen then holds (park t) else mark (if ens then t.acquireAll c.id.core else t) none) else t)))

/-- An arrival is counted once the wave's earlier accesses have been performed, at ensemble scope with the core's dirty words registered
and acknowledged; a wait is over once the slot's generation has passed the arrival's, at ensemble scope as an acquire (R123, R237, R238). -/
def BarrierOrder : Prop := ∀ (s : State) (id : WaveId) (tag slot : Nat) (w : Wave) (f : Flight) (g : Workgroup) (ens : Bool),
  s.wave id = some w → w.flight tag = some f → s.wg id.core w.wg = some g →
  (f.op = .arrive ens slot →
    let t := s.performAll id (some tag)
    let u := if ens then t.writeBack id.core (fun _ => true) else t
    (t.performedBefore id tag = false → s.arriveTry id tag = t) ∧
    (t.performedBefore id tag = true → ens = true → u.published id.core (fun _ => true) = false → s.arriveTry id tag = u) ∧
    (t.performedBefore id tag = true → (ens = true → u.published id.core (fun _ => true) = true) →
      s.arriveTry id tag = if ens then (u.finish id tag).ensBarCheck id.core w.wg slot else (u.finish id tag).barCheck id.core w.wg slot)) ∧
  (∀ gen, f.op = .barWait ens slot gen →
    let now := (if ens then sget Barrier.fresh (s.part g.part).ensBarriers (32 * g.ensId + slot) else sget Barrier.fresh g.barriers slot).gen
    (2 ^ 31 ≤ (now - (gen + 1#32)).toNat → s.waitTry id tag = s) ∧
    ((now - (gen + 1#32)).toNat < 2 ^ 31 → w.blockedBefore tag = false →
      s.waitTry id tag = (if ens then s.acquireAll id.core else s).finish id tag))

/-- A workgroup's slot completes when every wave that has not exited has an arrival of its generation that is counted, and one such wave
is there: the generation advances; else nothing happens (R237). -/
def BarrierCompletes : Prop := ∀ (s : State) (core wg slot : Nat) (g : Workgroup), s.wg core wg = some g →
  let b := sget Barrier.fresh g.barriers slot
  let there := fun (n : Nat) => sget none b.arrivals n = some b.gen
  let complete := (∀ n, n < g.waves → g.exitedWaves.getLsbD n = true ∨ (there n ∧ n ∉ s.arriving core wg false slot)) ∧
    ∃ n, n < g.waves ∧ g.exitedWaves.getLsbD n = false ∧ there n
  (complete → ∃ left, s.barCheck core wg slot = s.updWg core wg (fun g => { g with
    barriers := sset Barrier.fresh g.barriers slot ⟨b.gen + 1#32, left⟩ })) ∧
  (¬ complete → s.barCheck core wg slot = s)

/-! ### Memory words -/

/-- A word of a path issues and no `xfence` to its path holds it (R126). -/
def OnPath (i : Instr) (s : State) (c : Ctx) (path : Nat) : Prop := Issues i s c ∧ c.wave.fencedTo path = false

/-- The lanes that access: the effective ones, or the first of them where the word accesses once for the wave (R261). -/
def accessing (c : Ctx) (one : Bool) : List Nat := if one then c.lanes.take 1 else c.lanes

/-- A lane's 32-bit local offset (R263). -/
def localOffset (c : Ctx) (w : MWord) (imm : Int) (l : Nat) : Nat := (c.wave.opnd w.lbase.field l + BitVec.ofInt 32 imm).toNat

/-- A local load or store (R263): a lane that fails its check makes the word raise; else a load takes the bytes of its lanes' pieces
as a result in flight, and a store writes its lanes' bytes in ascending order of the lanes; a scratchpad access counts its passes (R84,
R256). Behind a synchronisation word they wait in the queue of the wave's accesses (R275). -/
def LocalWord (i : Instr) (w : MWord) (space : Space) (store : Bool) : Prop :=
  ∀ s c, OnPath i s c 0 →
    let t := checked i s c
    let size := sizeBytes w.size
    let skew := if space = .sp ∧ w.mode = 1 then some (w.imm.extractLsb' 21 3).toNat else none
    let imm := if skew.isSome then (w.imm.extractLsb' 0 21).toInt else w.imm.toInt
    let place := fun (l : Nat) => match c.wave.resp with
      | some r => responderAccess r size (localOffset c w imm l)
      | none => localAccess c.wg space size (localOffset c w imm l) skew
    let checks := c.allLanes (onceFor w) ((accessing c (onceFor w)).map (fun l => (l, place l)))
    (∀ r m, checks = .error (r, m) → Raises i s c r m) ∧
    (∀ ps, checks = .ok ps →
      let pieces := ps.flatMap (fun p => p.2.map (fun a => (p.1, a)))
      let data := ps.flatMap (fun p => ((List.range size).map (fun b => p.2.getD (b / 4) 0 + b % 4)).zip (c.storeData w.d size p.1))
      let u := if space = .sp then t.countPasses c.id.core (passCount size (ps.map (fun p => (p.1, p.2.map (fun a => a / 4))))) else t
      Completes i s c (match store, c.wave.blocked with
        | true, false => u.writeLocal c.id (some space) data
        | true, true => u.launch c (.later true (some space) [] size false 0 data) []
        | false, false => u.launch c (.result (u.readLocal c.id.core (some space) pieces size (signedSize w) w.d.toNat))
            (regsFrom w.d.toNat (sizeRegs size))
        | false, true => u.launch c (.later false (some space) pieces size (signedSize w) w.d.toNat [])
            (regsFrom w.d.toNat (sizeRegs size))))

/-- The addresses of the words of a lane's private access (R95), or the fault of its offset (R96). -/
def privateAddrs (c : Ctx) (size o lane : Nat) : List (Nat × Except Raise Nat) :=
  match localCheck c.wg.privBytes 4 o size with
  | some r => [(lane, .error r)]
  | none => (List.range ((size + 3) / 4)).map (fun j => (lane, .ok (privAddr c.wave.record c.wg.vregs (o + 4 * j) lane)))

/-- A remote scratchpad word (R83, R264) of an ensemble member, `wg` of `core`: the access leaves for its target and the wave waits for its
reply. -/
def RemoteWord (i : Instr) (w : MWord) (store : Bool) : Prop :=
  ∀ s c, OnPath i s c 0 → c.eff ≠ 0#32 →
    let t := checked i s c
    let size := sizeBytes w.size
    let rank := (w.imm.extractLsb' 21 3).toNat
    (c.wg.ensSize ≤ 1 ∨ c.wg.ensSize ≤ rank → Raises i s c ⟨0x03, 8, c.word.toNat⟩ c.eff) ∧
    (1 < c.wg.ensSize → rank < c.wg.ensSize → ∀ core n (g : Workgroup),
      (t.ensemble c.id.core c.wave.wg).findSome? (fun e => match t.wg e.1 e.2 with
        | some g => if g.ensRank = rank then some (e.1, e.2, g) else none
        | none => none) = some (core, n, g) →
      let off := localOffset c w (w.imm.extractLsb' 0 21).toInt
      (∀ l ∈ accessing c (onceFor w), off l + size ≤ g.usable .sp ∧ off l % size = 0) →
      Completes i s c ((t.launch c (.remote store core n
        ((accessing c (onceFor w)).flatMap (fun l => (localPieces g.sp.start size (off l) none).map (fun a => (l, a))))
        size (signedSize w) w.d.toNat
        (if store then (accessing c (onceFor w)).flatMap (fun l => byteList (g.sp.start + off l) (c.storeData w.d size l)) else []))
        (if store then [] else regsFrom w.d.toNat (sizeRegs size))).record c ⟨0x05, core, t.tags⟩))

/-- The addresses of a word's lanes: BASE pair plus immediate in its segment, with the checks of R74. -/
def globalAddrs (c : Ctx) (w : MWord) (imm : Int) (one : Bool) (size : Nat) (k : AccKind) : List (Nat × Except Raise Nat) :=
  (accessing c one).map (fun l =>
    (l, segCheck (sget 0#128 c.wave.segs w.seg.toNat)
      ((c.wave.opnd (w.gbase.field + 1) l ++ c.wave.opnd w.gbase.field l : Dword).toInt + imm) size size k))

/-- What the checks and translations of a word's lanes answer: ready, it completes with `f` of the accesses; a fault, it raises it;
a wait for a translation or a demand map, it stays unissued with the walk recorded (R74, R447, R477). -/
def Accesses (i : Instr) (s : State) (c : Ctx) (a : Access) (f : List (LaneAcc × Bool) → State → Prop) : Prop :=
  match a with
  | .ready accs u => f accs u
  | .raise r m u => exec i s = .next (u.raiseAt c r m)
  | .hold u => exec i s = .next u

/-- A private load or store (R94 to R97, R270): each lane's bytes stand at its addresses in the wave's record; every lane is checked and
translated before the word acts, a load leaves as an access in flight, and a store enters the core's L1. -/
def PrivateWord (i : Instr) (w : MWord) (store : Bool) : Prop :=
  ∀ s c, OnPath i s c 0 →
    let size := sizeBytes w.size
    let lanes := accessing c (onceFor w)
    let vas := lanes.flatMap (fun l => privateAddrs c size (localOffset c w w.imm.toInt l) l)
    Accesses i s c ((checked i s c).access c true false (if store then .store else .load) vas) (fun accs u =>
      (store = false → Completes i s c (u.launch c
        (.load (plainAccs accs) (min size 4) (signedSize w) w.d.toNat 0 true 0xFF#8) (regsFrom w.d.toNat (sizeRegs size)))) ∧
      (store = true →
        let data := lanes.flatMap (fun l => (List.range size).map (fun b =>
          (u.canon ((((plainAccs accs).filter (fun a => decide (a.lane = l))).map (fun a => a.pa)).getD (b / 4) 0) + b % 4,
            (c.storeData w.d size l).getD b 0#8)))
        Completes i s c (if c.wave.blocked then u.launch c (.later true none [] size false 0 data) []
          else (u.performAll c.id none).storePriv c.id data)))

/-! ### Words of the engines -/

/-- A scalar operand over the effective mask. -/
def one (c : Ctx) (f : BitVec 9) : Nat := (c.opnd f (lowLane c.eff)).toNat

/-- A command of R296 is admitted where the sequencer has room, 64 commands and 1,024 units (R297): it takes the wave's counter as its
id, which S[D] receives, and its predecessors by distance; without room the word waits and is tried again a cycle later. -/
def Admits (i : Instr) (w : RWord) (s : State) (c : Ctx) (op : CmdOp) (units : Nat) : Prop :=
  let t := checked i s c
  let k := t.core c.id.core
  let room := k.cmds.length < 64 ∧ (k.cmds.map (fun x => x.units)).sum + units ≤ 1024
  let cmd : Cmd := ⟨k.cmdNum, c.id, c.wave.wg, c.wave.cmdCounter, t.predecessor c (w.mod.extractLsb' 8 6).toNat,
    t.predecessor c (w.mod.extractLsb' 2 6).toNat, op, units, t.tags, false, [], [], 0#4, none, []⟩
  (room → Completes i s c ((t.updCore c.id.core (fun k => { k with cmds := k.cmds ++ [cmd], cmdNum := k.cmdNum + 1 })).updWave c.id
    (fun v => { (v.sregSet (w.d.toNat - 0x100) (v.cmdCounter.setWidth 32)) with cmdCounter := v.cmdCounter + 1#16 }))) ∧
  (¬ room → exec i s = .next (t.stall s.cur))

/-- The quarters that a word issues: those whose lowest lane is effective (R291). -/
def quarters (c : Ctx) : List Nat := (List.range 4).filter (fun q => c.eff.getLsbD (8 * q))

/-- A product of a kind (R304, R310): every issued quarter passes its checks, then they are admitted as one command; else the fault of the
first failing quarter. -/
def Product (i : Instr) (w : RWord) (kind : Nat) : Prop :=
  ∀ s c, OnPath i s c 2 → c.eff ≠ 0#32 →
    (kind = 2 → ∀ q ∈ quarters c, (c.wave.opnd (w.c.toNat + 3) (8 * q)).toNat < 2 ^ 11) →
    (∀ xs, (quarters c).map (fun q => (checked i s c).quarterOp c w kind q) = xs.map Except.ok →
      Admits i w s c (.product kind (w.mod.getLsbD 1) xs) (16 * (quarters c).length)) ∧
    (∀ q r, q ∈ quarters c → (checked i s c).quarterOp c w kind q = .error r →
      (∀ p ∈ quarters c, p < q → ∃ x, (checked i s c).quarterOp c w kind p = .ok x) → Raises i s c r c.eff)

/-- A registry word leaves for the registry with its destination pending (R335, R342). -/
def Registers (i : Instr) (w : RWord) (s : State) (c : Ctx) (u : State) (op : AsmOp) : Prop :=
  Completes i s c (u.launch c (.registry op w.d.toNat) [w.d.toNat])

/-- A scalar result known at issue that leaves the pending-write set after `lat` cycles. -/
def fixed (t : State) (c : Ctx) (w : RWord) (x : Word) (lat : Nat) : State :=
  t.updWave c.id (fun v => { (v.regSet w.d.toNat 0 x) with pend := v.pend ++ [⟨w.d.toNat, false, t.clk + lat, 0⟩] })

/-! ### Steps that no wave issues -/

/-- The step `i` answers the next state `t`. -/
def Becomes (i : Instr) (s t : State) : Prop := exec i s = .next t

/-- The wave `id` is resident as `w` and has the access `f` in flight under the tag `tag`. -/
def Flying (s : State) (id : WaveId) (tag : Nat) (w : Wave) (f : Flight) : Prop := s.wave id = some w ∧ w.flight tag = some f

/-- The wave `id` parks with a condition, a debug stop that waits for it taking effect. -/
def parks (s : State) (id : WaveId) (k : Wake) : State :=
  (s.updWave id (fun v => { v with
    parked := some k
    parkedAt := s.clk
    stopped := v.stopped || v.stopPending
    stopPending := false })).rebalance id.core id.sched

/-- The channel `chan` of a workgroup with what it still has to move changed. -/
def channelTodo (s : State) (core wg chan : Nat) (todo : List CopyPart) : State :=
  s.updWg core wg (fun g => { g with
    channels := sset Channel.fresh g.channels chan ⟨(sget Channel.fresh g.channels chan).ptr, todo⟩ })

/-- The slot of an acquire is answered, and its wave goes on. -/
def answered (s : State) (id : WaveId) (tag : Nat) (ws : List RegWrite) : State :=
  ((s.updWave id (fun w => w.setOp tag (.result ws))).drain id).settle id

/-- A request of a wave to a cell is next at the cell's home: the earlier accesses that may be performed are, the core's own bytes of
the cell have left its L1, no held write covers the cell, and a cell that plain stores freed has lost its holder. -/
def atHome (s : State) (id : WaveId) (tag cell : Nat) : State :=
  ((s.performAll id (some tag)).yieldWords id.core [cell / 4, cell / 4 + 1]).refreshCell cell

/-- Such a request may act: nothing of its wave stands before it, the package carries it, and no held write covers the cell. -/
def ReachesHome (s : State) (id : WaveId) (tag cell : Nat) (w : Wave) (f : Flight) : Prop :=
  Flying s id tag w f ∧ s.canPerform w f = true ∧
  (let t := (s.performAll id (some tag)).yieldWords id.core [cell / 4, cell / 4 + 1]
   t.wordHeld (cell / 4) = false ∧ t.wordHeld (cell / 4 + 1) = false)

/-! ### Commands of the matrix unit (R149, R298, R304) -/

/-- `k` is the oldest command of a core's matrix unit and row path that may start: its predecessors have retired, and a product has a
token that neither a pass nor its rest holds (R298). -/
def NextCommand (s : State) (core : Nat) (k : Cmd) (g : Workgroup) : Prop := s.wg core k.wg = some g ∧
  (s.core core).cmds.find? (fun x => (s.core core).startable x && !x.op.ladder && (match x.op, s.wg core x.wg with
    | .product .., some h => decide (0 < s.freeTokens core x.wg h)
    | _, some _ => true
    | _, none => false)) = some k

/-- `k` starts and will write `o`; a product's passes hold the tokens of its workgroup for 16 cycles a pass, and are counted (R256). -/
def Starts (s : State) (core : Nat) (k : Cmd) (g : Workgroup) (passes : Nat) (o : CmdOut) : Prop :=
  exec (.matrixCommandStart core k.num) s = .next ((s.updCore core (fun c => { c with
    rests := c.rests.filter (fun r => decide (s.clk < r.2)) ++
      (List.range passes).map (fun i => (k.wg, s.clk + 16 * (1 + i / max 1 g.tokensGranted)))
    perf := sset 0 c.perf 3 (sget 0 c.perf 3 + passes) })).startCmd core k o)

/-- The writes of 32-bit words to a tile at a core offset of the C-buffer. -/
def tileWrites (start n : Nat) (f : Nat → Word) : List (Space × Nat × Word) :=
  (List.range n).map (fun i => (Space.cb, start + 4 * i, f i))

/-- The word of the C-buffer at a core offset. -/
def tileWord (s : State) (core start i : Nat) : Nat := natOfBytes ((s.core core).spaceBytes .cb (start + 4 * i) 4)

/-- The rungs a push passes: its chain ends at the first level that is not occupied, or at the top (R350). -/
def chainEnd (l : Ladder) : Nat := ((List.range (l.k - 1)).takeWhile (fun i => l.n.testBit i)).length

/-- The wave `id` has the registry operation `op` in flight, in its place in the registry's order: with the wave's earlier accesses
performed the state is `u`, and none of them is left (R342). -/
def InRegistry (s : State) (id : WaveId) (tag : Nat) (w : Wave) (f : Flight) (g : Workgroup) (op : AsmOp) (reg : Nat) (u : State) : Prop :=
  Flying s id tag w f ∧ s.wg id.core w.wg = some g ∧ f.op = .registry op reg ∧
  (if w.blockedBefore tag then s else s.performAll id (some tag)) = u ∧
  ∃ v, u.wave id = some v ∧ ∀ e ∈ v.flights.takeWhile (fun (e : Flight) => decide (e.tag ≠ tag)), e.op.unperformed = false

/-- A registry's result word: STATUS in bits 31:28, VALUE in bits 27:0 (R336). -/
def statusWord (status value : Nat) : Word := BitVec.ofNat 32 (status * 2 ^ 28 + value % 2 ^ 28)

/-- The revocation slot of a partition. -/
def revocation (s : State) (part slot : Nat) : Revocation := sget Revocation.empty (s.part part).revs slot

/-- The revocation slot of a partition changed. -/
def updRevocation (s : State) (part slot : Nat) (r : Revocation) : State :=
  s.updPart part (fun p => { p with revs := sset Revocation.empty p.revs slot r })

/-- A held write that is the first to be decided: no revocation holds it, and nothing earlier stands before it (R127, R322, R327). -/
def Decided (s : State) (num : Nat) (h : HeldWrite) : Prop := s.heldWrite num = some h ∧ h.revoke = none ∧
  s.heldBehind h = false ∧ s.heldInFlight h = false

/-- The dispatcher takes from the queue `q` of `vf` a packet `p` of the type `type`: it is the queue's turn in the partition `part`, its
READ is `k`, its next packet reads as `p` with a header of R382; `u` is the state with the A bit of the packet's page set and the round
robin past the queue (R103, R380, R388). -/
def Taken (s : State) (vf q type part k : Nat) (p : BitVec 1024) (u : State) : Prop := s.partOfVf vf = some part ∧
  s.pickQueue part = some (vf, q) ∧ (s.qcb vf q).read = k ∧ s.readPacket part vf q = .ok p ∧ headerOk p = true ∧
  bitsN p 7 0 = type ∧ (s.touchLeaf vf (s.qcb vf q).nextAt false).updPart part (fun x => { x with rrQueue := 64 * vf + q + 1 }) = u

/-- A packet without a grid that is complete at once: READ passes it and it retires in ring order (R382). -/
def retires (u : State) (vf q k : Nat) (p : BitVec 1024) (notify : Bool) : State := (u.begin' vf q k p none notify).packetDone vf q k

/-- The chain `x` of a partition works on an entry `e` whose operation is `opc`, at SEQ `seq` (R391): no update of its SEQ word is held, and
`u` is the state once the leaves of its descriptor and of the entry are accessed (R103). -/
def Works (s : State) (part chain opc : Nat) (x : Chain) (seq : Nat) (e : BitVec 512) (u : State) : Prop :=
  s.chain part chain = some x ∧ x.stopped = false ∧ s.seqHeld part x = false ∧ ∃ d bs, s.chainDesc part x = .ok d ∧ bitsN d 351 320 = seq ∧
  bitsN d 383 352 ≠ seq ∧ s.readVa x.vf part (bitsN d 511 448 + 64 * (seq % 2 ^ bitsN d 447 443)) 64 = .ok bs ∧
  BitVec.ofNat 512 (natOfBytes bs) = e ∧ entryOk e = true ∧ bitsN e 7 0 = opc ∧
  (s.touchLeaf x.vf x.desc false).touchLeaf x.vf (bitsN d 511 448 + 64 * (seq % 2 ^ bitsN d 447 443)) false = u

/-! ### Requests of the mailbox (R401 to R404) -/

/-- `x` is one of the 31 requests: the step, its OPCODE, whether only the physical function may make it, the ARG bits it uses, the lengths
it admits (R404). -/
def Request (r : MailReq) (x : Instr × Nat × Bool × Nat × (Nat → Bool)) : Prop :=
  let none' := fun (n : Nat) => decide (n = 0)
  let size := fun (k n : Nat) => decide (n = k)
  let all := 2 ^ 64 - 1
  x ∈ [((.featAccept r : Instr), 0x0001, false, 0, size 16), (.queueStop r, 0x0002, false, 0x3F, none'), (.queueStart r, 0x0003, false, 0x3F, none'),
   (.queueReset r, 0x0004, false, 0x13F, none'), (.faultRead r, 0x0005, false, 0, none'), (.quotaRead r, 0x0006, false, 0, none'),
   (.quotaAnswer r, 0x0007, false, 2 ^ 63 + 2 ^ 60 - 2 ^ 16, none'), (.ctxKill r, 0x0008, false, 0xFFFF, none'),
   (.chainReg r, 0x0009, false, all, none'), (.chainUnreg r, 0x000A, false, all, none'), (.chainRestart r, 0x000B, false, all, none'),
   (.chainSkip r, 0x000C, false, all, none'), (.poolSet r, 0x000D, false, all, size 64),
   (.debugAuth r, 0x000E, false, 2 ^ 63 + 2 ^ 32 - 1, none'), (.snapRead r, 0x000F, false, all, none'),
   (.tempRead r, 0x0010, false, 0, none'), (.eventRead r, 0x0011, false, 0, none'), (.hqWrite r, 0x0100, true, 0x3F, size 128),
   (.tenant r, 0x0101, true, 2 ^ 63 + 15, none'), (.partConfig r, 0x0102, true, 1, size 16), (.grantRange r, 0x0103, true, 2 ^ 63, size 16),
   (.quotaCtrl r, 0x0104, true, 15, size 8), (.teleSet r, 0x0105, true, 15, size 8), (.triggerMask r, 0x0106, true, 15, size 8),
   (.timerTrigger r, 0x0107, true, 15, size 8),
   (.groupReg r, 0x0108, true, 2 ^ 63 + 2 ^ 32 - 1, fun n => decide (n % 8 = 0) && decide (n ≤ 144)), (.packageSet r, 0x0109, true, 0xFF, size 8),
   (.fwLoad r, 0x010A, true, 2 ^ 64 - 8, fun n => decide (n % 8 = 0) && decide (0 < n) && decide (n ≤ 4080)),
   (.fwUpdate r, 0x010B, true, all, none'), (.pstate r, 0x010C, true, 1, none'), (.duetForm r, 0x010D, true, 2 ^ 63 + 0xFF0F, none')]

/-- The function a request acts for: the physical function names it in TARGET (R402). -/
def subject (r : MailReq) : Nat := if r.vf = 96 then r.target else r.vf

/-- The firmware serves the request with the opcode `opcode`, and its header is in order (R401 to R404). -/
def Served (s : State) (r : MailReq) (opcode : Nat) : Prop := r.vf ≤ 96 ∧ s.firmware = true ∧ subject r ≤ 96 ∧
  ∃ x, Request r x ∧ x.2.1 = opcode ∧ (x.2.2.1 = true → r.vf = 96) ∧ Nat.land r.arg.toNat x.2.2.2.1 = r.arg.toNat ∧
    x.2.2.2.2 r.payload.length = true

/-- The request is answered OK with a payload, leaving the state `t` otherwise. -/
def Answers (i : Instr) (s : State) (r : MailReq) (opcode : Nat) (payload : List Byte) (t : State) : Prop :=
  exec i s = .next (t.respond r opcode 0 payload)

/-- The request is answered with a status other than OK, and has no effect (R403). -/
def Status (i : Instr) (s : State) (r : MailReq) (opcode n : Nat) : Prop := exec i s = .next (s.respond r opcode n [])

/-- The payload as a little-endian number. -/
def number (r : MailReq) : Nat := natOfBytes r.payload

/-- An SPDM exchange is answered: the device's firmware serves (R400). -/
def Exchanges (s : State) (fn : Nat) : Prop := fn ≤ 97 ∧ s.firmware = true

/-- The SPDM responder of a function changed. -/
def spdmOf (s : State) (fn : Nat) (f : Spdm → Spdm) : State := s.updFunc fn (fun g => { g with spdm := f g.spdm })

/-! ### Frames -/

/-- Nothing changes but the core of the wave `id`, and there neither a workgroup, a local space, the L1, nor the registers of another
wave: memory, the other cores, the partitions, the functions and the vector bases stay as they were. -/
def Within (s t : State) (id : WaveId) : Prop :=
  t.mem = s.mem ∧ t.ext = s.ext ∧ t.parts = s.parts ∧ t.funcs = s.funcs ∧ t.trapbase = s.trapbase ∧ t.watches = s.watches ∧
  (∀ n, n ≠ id.core → t.core n = s.core n) ∧ (∀ g, t.wg id.core g = s.wg id.core g) ∧
  (∀ x, (t.core id.core).space x = (s.core id.core).space x) ∧ (t.core id.core).l1 = (s.core id.core).l1 ∧
  ∀ j, j.core = id.core → waveKey j ≠ waveKey id →
    (t.wave j).map (fun v => (v.v, v.s, v.k, v.pcs, v.fflags, v.exited)) = (s.wave j).map (fun v => (v.v, v.s, v.k, v.pcs, v.fflags, v.exited))

/-- A wave keeps its vector and scalar registers but for the `n` from code `d` on, of which a vector register keeps the lanes outside
`m`; its exit bits, its handler registers and the in-handler state stay. -/
def Keeps (w v : Wave) (m : Mask) (d n : Nat) : Prop :=
  (∀ r l, l < 32 → (r < d ∨ d + n ≤ r ∨ m.getLsbD l = false) → v.vget r l = w.vget r l) ∧
  (∀ r, 0x100 + r < d ∨ d + n ≤ 0x100 + r → v.sreg r = w.sreg r) ∧
  v.exited = w.exited ∧ v.xpc = w.xpc ∧ v.xmask = w.xmask ∧ v.fmask = w.fmask ∧ v.xcode = w.xcode ∧ v.xinfo = w.xinfo ∧
  v.inHandler = w.inHandler

/-- A wave keeps its mask registers but for one, and for the timeout mask of the set that `rwait` holds, which a release writes (R233). -/
def KeepsMasks (w v : Wave) (d : Option Nat) : Prop :=
  ∀ k, some k ≠ d → (∀ h, w.held = some h → k ≠ h.aux) → v.kget k = w.kget k

/-- What the checks of a word change, which look at the word before a window (R180): caches and counters of cores, and in the leaf that
maps that word the A bit (R103). Nothing changes of a wave, a workgroup, a local space, a partition or a function. -/
def ChecksKeep (i : Instr) (s : State) (c : Ctx) : Prop :=
  let t := checked i s c
  (∀ j, t.wave j = s.wave j) ∧ (∀ n g, t.wg n g = s.wg n g) ∧ (∀ n x, (t.core n).space x = (s.core n).space x) ∧
  t.parts = s.parts ∧ t.funcs = s.funcs ∧ t.trapbase = s.trapbase ∧ t.watches = s.watches ∧ t.clk = s.clk ∧
  (s.rootOf c.wg.vf % 8 = 0 → ∀ pa, t.homeByte pa = s.homeByte pa ∨ t.homeByte pa = s.homeByte pa ||| 0x40#8)

/-- The frame of a word that issues and writes registers only: where no fault waits for the marker (R474) and the code marks no register
dead (R52), the next state keeps all but what its checks touch and `f` allows of the wave. -/
def Frame (i : Instr) (f : Ctx → Wave → Prop) : Prop :=
  ∀ s c t, Issues i s c → c.wave.deferred = none → c.wg.live = [] → exec i s = .next t →
    ChecksKeep i s c ∧ ∃ v, t.wave c.id = some v ∧ Within (checked i s c) t c.id ∧ f c v

end Sys2Proof.Claims

open Sys2Proof Sys2Proof.Machine Sys2Proof.Claims

/-! ### Integer words -/

/-- The typed arithmetic of R189 and R194: exact integers, saturated or taken modulo the width of the type, extended. Without
`.ci` and `.cc` for `iadd` and `isub`. -/
def Sys2Proof.Claims.typedArithmetic : Prop := ∀ w : RWord,
  (w.flags.getLsbD 0 = false → w.flags.getLsbD 1 = false →
    Typed (.iadd w) w (fun a b _ => a + b) ∧ Typed (.isub w) w (fun a b _ => a - b)) ∧
  Typed (.imul w) w (fun a b _ => a * b) ∧
  Typed (.imulh w) w (fun a b _ => a * b / (2 ^ tyWidth w.ty : Nat)) ∧
  Typed (.imad w) w (fun a b d => a * b + d) ∧
  Typed (.iabs w) w (fun a _ _ => if a < 0 then -a else a) ∧
  Typed (.imin w) w (fun a b _ => if a ≤ b then a else b) ∧
  Typed (.imax w) w (fun a b _ => if a ≤ b then b else a) ∧
  Typed (.idiv w) w (fun a b _ =>
    if b = 0 then (if w.minor = 0 then (if tySigned w.ty then -1 else (2 ^ tyWidth w.ty : Nat) - 1) else a) else if w.minor = 0 then a.tdiv b else a.tmod b)

/-- The carry and borrow forms of R190: with `.ci` the bit of the mask in C is added or subtracted, and with `.cc` each
effective lane's bit of that mask becomes its carry or borrow. -/
def Sys2Proof.Claims.carryChains : Prop := ∀ (w : RWord) (sub : Bool) (s : State) (c : Ctx),
  w.flags.getLsbD 0 = true ∨ w.flags.getLsbD 1 = true → Issues (if sub then .isub w else .iadd w) s c →
  let ci := fun (l : Nat) => w.flags.getLsbD 1 && (c.wave.kget w.c.toNat).getLsbD l
  let sum := fun (l : Nat) =>
    let k : Word := if ci l then 1#32 else 0#32
    if sub then c.opnd w.a l - c.opnd w.b l - k else c.opnd w.a l + c.opnd w.b l + k
  let carry := fun (l : Nat) =>
    if sub then decide ((c.opnd w.a l).toNat < (c.opnd w.b l).toNat + (ci l).toNat)
    else decide (2 ^ 32 ≤ (c.opnd w.a l).toNat + (c.opnd w.b l).toNat + (ci l).toNat)
  ∃ m : Mask,
    (∀ l, l < 32 → m.getLsbD l = if c.eff.getLsbD l then carry l else (c.wave.kget w.c.toNat).getLsbD l) ∧
    Completes (if sub then .isub w else .iadd w) s c ((checked (if sub then .isub w else .iadd w) s c).updWave c.id (fun v =>
      let v := v.regWrites (c.results w.d.toNat (fun l => [sum l]))
      if w.flags.getLsbD 0 then v.kset w.c.toNat m else v))

/-- Shifts, rotations and bit counts on the pattern of the type (R189). -/
def Sys2Proof.Claims.shiftsAndCounts : Prop := ∀ w : RWord,
  Pattern (.shl w) w (fun x n => x <<< n) ∧
  Pattern (.shr w) w (fun x n => x >>> n) ∧
  Pattern (.sar w) w (fun x n => x.sshiftRight n) ∧
  Pattern (.rot w) w (fun x n => if w.minor = 0 then x.rotateLeft n else x.rotateRight n) ∧
  Pattern (.brev w) w (fun x _ => x.reverse) ∧
  Pattern (.popc w) w (fun x _ => x.cpop) ∧
  Pattern (.clz w) w (fun x _ => x.clz) ∧
  Pattern (.ctz w) w (fun x _ => x.ctz)

/-- The bitwise words of R192, R193, R196 and R197, each bit of the result from the bits of the operands. -/
def Sys2Proof.Claims.bitwiseWords : Prop := ∀ w : RWord,
  Words (.andW w) w (fun a b _ => ofBits (fun i => a.getLsbD i && b.getLsbD i)) ∧
  Words (.orW w) w (fun a b _ => ofBits (fun i => a.getLsbD i || b.getLsbD i)) ∧
  Words (.xorW w) w (fun a b _ => ofBits (fun i => a.getLsbD i ^^ b.getLsbD i)) ∧
  Words (.andn w) w (fun a b _ => ofBits (fun i => a.getLsbD i && !b.getLsbD i)) ∧
  Words (.notW w) w (fun a _ _ => ofBits (fun i => !a.getLsbD i)) ∧
  Words (.mov w) w (fun a _ _ => a) ∧
  Writes (.sel w) w.d (fun _ c l =>
    [if (c.wave.kget w.c.toNat).getLsbD l then c.opnd w.a l else c.opnd w.b l]) ∧
  Words (.lfn w) w (lfnOf w.mod) ∧
  Words (.wext w) w (wextOf w.minor) ∧
  Words (.bfe w) w (bfeOf (w.ty == 5)) ∧
  Words (.bfi w) w bfiOf ∧
  Words (.bsel w) w bselOf

/-- Shifts, rotations, bit counts and the bitwise words. -/
def Obligations.ShiftsAndBitwiseWords : Prop := Claims.shiftsAndCounts ∧ Claims.bitwiseWords

/-- The sums of R198: four byte products, or an absolute difference, added to C and saturated where the word says so. -/
def Sys2Proof.Claims.dotAndDifferenceSums : Prop := ∀ w : RWord,
  Words (.dot4 w) w (dot4Of (w.ty == 1) (w.ty == 1 && w.minor == 0) (w.flags.getLsbD 2)) ∧
  Words (.isad w) w (isadOf w.ty (w.flags.getLsbD 2))

/-- The typed integer arithmetic and its sums of products. -/
def Obligations.IntegerArithmetic : Prop := Claims.typedArithmetic ∧ Claims.dotAndDifferenceSums

/-- The immediate words (R199) and the pair that `movhi` makes. -/
def Obligations.ImmediateWords : Prop := ∀ w : IWord,
  Immediate (.iaddi w) w (fun a i => a + i) ∧ Immediate (.imuli w) w (fun a i => a * i) ∧
  Immediate (.andi w) w (fun a i => a &&& i) ∧ Immediate (.ori w) w (fun a i => a ||| i) ∧
  Immediate (.xori w) w (fun a i => a ^^^ i) ∧ Immediate (.shli w) w (fun a i => a <<< (i.toNat % 32)) ∧
  Immediate (.shri w) w (fun a i => a >>> (i.toNat % 32)) ∧
  Immediate (.sari w) w (fun a i => a.sshiftRight (i.toNat % 32)) ∧
  Immediate (.movi w) w (fun _ i => i) ∧
  Writes (.movhi w) w.d (fun _ c l => [c.opnd w.a l, w.imm])

/-- The 64-bit words (R201, R202) on register pairs. -/
def Sys2Proof.Claims.pairArithmetic : Prop := ∀ w : RWord,
  let on := fun (i : Instr) (f : Dword → Dword → Dword) =>
    Writes i w.d (fun _ c l => halves (f (pairOf c w.a l) (pairOf c w.b l)))
  on (.add64 w) (fun x y => BitVec.ofInt 64 (clamp64 w (pairInt w x + pairInt w y))) ∧
  on (.sub64 w) (fun x y => BitVec.ofInt 64 (clamp64 w (pairInt w x - pairInt w y))) ∧
  on (.mul64 w) (fun x y => if w.minor = 0 then x * y else BitVec.ofInt 64 (pairInt w x * pairInt w y / (2 ^ 64 : Nat))) ∧
  Writes (.shl64 w) w.d (fun _ c l => halves (pairOf c w.a l <<< ((c.opnd w.b l).toNat % 256))) ∧
  Writes (.shr64 w) w.d (fun _ c l =>
    let n := (c.opnd w.b l).toNat % 256
    halves (if tySigned w.ty then (pairOf c w.a l).sshiftRight n else pairOf c w.a l >>> n)) ∧
  Writes (.lea w) w.d (fun _ c l =>
    let x : Dword := if 8 ≤ w.minor then (c.opnd w.b l).setWidth 64 else (c.opnd w.b l).signExtend 64
    halves (pairOf c w.a l + (x <<< (w.minor % 8)))) ∧
  Writes (.sel64 w) w.d (fun _ c l =>
    halves (if (c.wave.kget w.c.toNat).getLsbD l then pairOf c w.a l else pairOf c w.b l))

/-- Arithmetic wider than a word: carry chains and register pairs. -/
def Obligations.WideArithmetic : Prop := Claims.carryChains ∧ Claims.pairArithmetic

/-- The integer comparisons (R195, R200, R201): the lanes' bits of the mask, combined with the mask in C where MINOR says so. -/
def Obligations.IntegerComparisons : Prop :=
  (∀ w : RWord,
    WritesMask (.icmp w) w.d (fun c l => combine c w l (holds (w.minor % 8) (val w.ty (c.opnd w.a l)) (val w.ty (c.opnd w.b l)))) ∧
    WritesMask (.cmp64 w) w.d (fun c l =>
      combine c w l (holds (w.minor % 8) (pairInt w (pairOf c w.a l)) (pairInt w (pairOf c w.b l))))) ∧
  (∀ w : IWord, WritesMask (.icmpi w) w.d (fun c l =>
    let n := (w.imm.extractLsb' 28 4).toNat
    let i := (w.imm.extractLsb' 0 24).signExtend 32
    let a := c.opnd w.a l
    if n < 6 then holds n a.toInt i.toInt else holds (n - 4) (a.toNat : Int) (i.toNat : Int)))

/-! ### Special registers and masks -/

/-- `mov.sr` reads every special register of R203, `%clk` and `%xinfo` as pairs; `mov.ss` writes the sticky flags (R204); a lane
of a vector register is read and written by number (R205). -/
def Obligations.SpecialAndLaneMoves : Prop := ∀ w : RWord,
  Writes (.movSr w) w.d (fun s c l => if w.minor = 0x0B ∨ w.minor = 0x14 then halves (BitVec.ofNat 64 (specialOf s c w.minor l))
    else [BitVec.ofNat 32 (specialOf s c w.minor l)]) ∧
  (∀ s c, Issues (.movSs w) s c → Completes (.movSs w) s c (if c.eff = 0#32 then checked (.movSs w) s c
    else (checked (.movSs w) s c).updWave c.id (fun v => { v with fflags := (c.opnd w.a (lowLane c.eff)).setWidth 4 }))) ∧
  WritesScalar (.laneRd w) w.d (fun c => c.wave.vget w.a.toNat ((c.opnd w.b (lowLane c.eff)).toNat % 32)) ∧
  (∀ s c, Issues (.laneWr w) s c →
    let l := (c.opnd w.b (lowLane c.eff)).toNat % 32
    Completes (.laneWr w) s c (if c.eff.getLsbD l then
      (checked (.laneWr w) s c).updWave c.id (fun v => v.vset w.d.toNat l (c.opnd w.a (lowLane c.eff)))
      else checked (.laneWr w) s c))

/-- The mask words act on whole masks, once for the wave (R206). -/
def Obligations.MaskWords : Prop := ∀ w : RWord,
  let k := fun (c : Ctx) (f : BitVec 9) => c.wave.kget f.toNat
  WritesWhole (.kop w) w.d (fun c => ofBits (fun l =>
    let x := (k c w.a).getLsbD l
    let y := (k c w.b).getLsbD l
    match w.minor with
    | 0 => x && y
    | 1 => x || y
    | 2 => x ^^ y
    | 3 => x && !y
    | _ => !x)) ∧
  (w.minor = 0 → WritesWhole (.kmov w) w.d (fun c => k c w.a)) ∧
  (w.minor = 1 → WritesWhole (.kmov w) w.d (fun c => c.opnd w.a (lowLane c.eff))) ∧
  (w.minor = 2 → WritesScalar (.kmov w) w.d (fun c => k c w.a)) ∧
  (3 ≤ w.minor → WritesWhole (.kmov w) w.d (fun c => c.eff)) ∧
  WritesScalar (.kpop w) w.d (fun c => (k c w.a).cpop) ∧
  WritesScalar (.kffs w) w.d (fun c =>
    if w.minor = 0 then (k c w.a).ctz else if k c w.a = 0#32 then 32#32 else 31#32 - (k c w.a).clz)

/-! ### Floating-point words -/

/-- The floating-point words of R214 and R215 write the operation of their type and mode and add its flags; `fcmp` and `fclass`
write the lanes' bits of a mask. -/
def Obligations.FloatArithmetic : Prop := ∀ w : RWord,
  let mode := w.flags.toNat % 4
  let sat := w.flags.getLsbD 2
  Floats (.fadd w) w (fun f x y _ => f.fadd mode sat x y) ∧
  Floats (.fsub w) w (fun f x y _ => f.ofVal mode sat ((f.val x).add mode (f.val y).negate)) ∧
  Floats (.fmul w) w (fun f x y _ => f.fmul mode sat x y) ∧
  Floats (.fma w) w (fun f x y z => f.ofVal mode sat (((f.val x).mul (f.val y)).add mode (f.val z))) ∧
  Floats (.fmin w) w (fun f x y _ => f.fminmax false x y) ∧
  Floats (.fmax w) w (fun f x y _ => f.fminmax true x y) ∧
  Floats (.fround w) w (fun f x _ _ => f.fround mode x) ∧
  Floats (.ffract w) w (fun _ x _ _ => ffract x) ∧
  Floats (.fldexp w) w (fun f x y _ => f.fldexp mode sat x (BitVec.ofNat 32 y).toInt) ∧
  Packed (.hadd2 w) w (fun f x y _ => f.fadd mode sat x y) ∧
  Packed (.hmul2 w) w (fun f x y _ => f.fmul mode sat x y) ∧
  Packed (.hfma2 w) w (fun f x y z => f.fma mode sat x y z) ∧
  Packed (.hmax2 w) w (fun f x y _ => f.fminmax true x y) ∧
  WritesFlags (.fdot2 w) w.d (fun c l =>
    let v := fun (o : BitVec 9) (e : Nat) => (fmtOf w.ty).val ((c.opnd o l).extractLsb' (16 * e) 16).toNat
    let p := fun (e : Nat) => (v w.a e).mul (v w.b e)
    let z := f32.val (c.opnd w.c l).toNat
    let r := f32.ofVal mode sat (if (p 0).isNan || (p 1).isNan || z.isNan then .nan ((p 0).isSnan || (p 1).isSnan || z.isSnan)
      else ((p 0).add mode (p 1)).add mode z)
    ([BitVec.ofNat 32 r.1], r.2)) ∧
  (∀ s c, Issues (.fcmp w) s c → ∃ m : Mask,
    let r := fun (l : Nat) => (fmtOf w.ty).fcmp (w.minor % 8) (c.opnd w.a l).toNat (c.opnd w.b l).toNat
    (∀ l, l < 32 → m.getLsbD l = if c.eff.getLsbD l then combine c w l (r l).1 else (c.wave.kget w.d.toNat).getLsbD l) ∧
    Completes (.fcmp w) s c ((checked (.fcmp w) s c).updWave c.id (fun v =>
      (v.kset w.d.toNat m).orFlags (orAll (c.lanes.map (fun l => (r l).2)))))) ∧
  WritesMask (.fclass w) w.d (fun c l => (c.opnd w.b l).getLsbD ((fmtOf w.ty).fclass (c.opnd w.a l).toNat))

/-- Rounding to nearest (R143, R144): the rounded pattern of a finite value that does not overflow is finite, and no finite
pattern of the format lies nearer to the value. Toward zero, the result is the largest magnitude not above the value's. -/
def Sys2Proof.Claims.roundingIsNearest : Prop :=
  ∀ f ∈ [f32, f16, bf16, e4m3, e5m2], ∀ (neg : Bool) (m : Nat) (e : Int),
    ((f.round 0 false neg m e).2.getLsbD 1 = false → ∃ v, finite f (f.round 0 false neg m e).1 = some v ∧
      ∀ y u, finite f y = some u → |v - exactly neg m e| ≤ |u - exactly neg m e|) ∧
    ((f.round 1 false neg m e).2.getLsbD 1 = false → ∃ v, finite f (f.round 1 false neg m e).1 = some v ∧
      |v| ≤ |exactly neg m e| ∧ ∀ y u, finite f y = some u → |u| ≤ |exactly neg m e| → |u| ≤ |v|)

/-- A finite pattern is its own rounding in every mode, with no flag (R139, R144). -/
def Sys2Proof.Claims.finitePatternsRoundToThemselves : Prop :=
  ∀ f ∈ [f32, f16, bf16, e4m3, e5m2], ∀ (mode x : Nat) (sat neg : Bool) (m : Nat) (e : Int),
    x < 2 ^ f.width → f.val x = .fin neg m e → f.round mode sat neg m e = (x, 0#4)

/-- Rounding: nearest, toward zero, and the identity on finite patterns. -/
def Obligations.Rounding : Prop := Claims.roundingIsNearest ∧ Claims.finitePatternsRoundToThemselves

/-- The approximating functions write one value per operand, `fsqrt` the correctly rounded root (R216, R217), and the fixed results of
special operands hold: a NaN gives the canonical NaN, and NV is set for a signalling one. -/
def Obligations.ApproximatingWords : Prop :=
  (∀ w : RWord,
    Floats (.frcp w) w (fun _ x _ _ => fapprox .rcp (BitVec.ofNat 32 x)) ∧
    Floats (.frsq w) w (fun _ x _ _ => fapprox .rsq (BitVec.ofNat 32 x)) ∧
    Floats (.fexp2 w) w (fun _ x _ _ => fapprox .exp2 (BitVec.ofNat 32 x)) ∧
    Floats (.flog2 w) w (fun _ x _ _ => fapprox .log2 (BitVec.ofNat 32 x)) ∧
    Floats (.fsin w) w (fun _ x _ _ => fapprox .sin (BitVec.ofNat 32 x)) ∧
    Floats (.fcos w) w (fun _ x _ _ => fapprox .cos (BitVec.ofNat 32 x)) ∧
    Floats (.ftanh w) w (fun _ x _ _ => fapprox .tanh (BitVec.ofNat 32 x)) ∧
    Floats (.fsqrt w) w (fun _ x _ _ => fsqrt (w.flags.toNat % 4) x) ∧
    Floats (.fexs w) w (fun _ x y z => fexs (BitVec.ofNat 32 x) (BitVec.ofNat 32 y) (BitVec.ofNat 32 z))) ∧
  (∀ (fn : ApproxFn) (x : Word), (f32.val x.toNat).isNan = true →
    fapprox fn x = (0x7FC00000, if (f32.val x.toNat).isSnan then 1#4 else 0#4)) ∧
  fapprox .rcp 0#32 = (0x7F800000, 0#4) ∧ fapprox .rcp 0x80000000#32 = (0xFF800000, 0#4) ∧
  fapprox .rcp 0x7F800000#32 = (0, 0#4) ∧ fapprox .rsq 0xFF800000#32 = (0x7FC00000, 1#4) ∧
  fapprox .log2 0#32 = (0xFF800000, 0#4) ∧ fapprox .exp2 0xFF800000#32 = (0, 0#4) ∧
  fapprox .sin 0x7F800000#32 = (0x7FC00000, 1#4) ∧ fapprox .tanh 0xFF800000#32 = (0xBF800000, 0#4)

/-- Conversions (R144, R219 to R221) and the q4 words (R222 to R224). -/
def Obligations.ConversionsAndQ4 : Prop := ∀ w : RWord,
  let mode := w.flags.toNat % 4
  let sat := w.flags.getLsbD 2
  WritesFlags (.cvt w) w.d (fun c l =>
    let st := w.minor % 16
    let r := cvtVal st w.ty mode sat (if tyWidth st = 64 then (pairOf c w.a l).toNat else (c.opnd w.a l).toNat)
    (if tyWidth w.ty = 64 then halves (BitVec.ofNat 64 r.1)
      else if w.ty < 8 then [out w.ty (BitVec.ofNat _ r.1)] else [BitVec.ofNat 32 r.1], r.2)) ∧
  WritesFlags (.cvtPk8 w) w.d (fun c l =>
    let scl := fun (x : Word) => if 2 ≤ w.minor then fp8Scale (x.toNat % 256) else some 0
    let x := pack8 (fmtOf w.ty) mode sat (scl (c.opnd w.c l)) (c.opnd w.a l).toNat
    let y := pack8 (fmtOf w.ty) mode sat (scl (c.opnd w.c l)) (c.opnd w.b l).toNat
    let d := c.opnd w.d l
    let both : BitVec 16 := BitVec.ofNat 8 y.1 ++ BitVec.ofNat 8 x.1
    ([if w.minor % 2 = 0 then d.extractLsb' 16 16 ++ both else both ++ d.extractLsb' 0 16], x.2 ||| y.2)) ∧
  WritesFlags (.cvtEx8 w) w.d (fun c l =>
    let x := ((c.opnd w.a l).extractLsb' (8 * (w.minor % 4)) 8).toNat
    let r := match (if 4 ≤ w.minor then fp8Scale ((c.opnd w.b l).toNat % 256) else some 0) with
      | none => (0x7FC00000, 1#4)
      | some k => f32.ofVal 0 false (((fmtOf w.ty).val x).scale k)
    ([BitVec.ofNat 32 r.1], r.2)) ∧
  WritesFlags (.q4Enc w) w.d (fun c l =>
    let r := q4Enc mode ((c.opnd w.b l).toNat % 256) (c.opnd w.a l).toNat
    ([BitVec.ofNat 32 r.1], r.2)) ∧
  WritesFlags (.q4Dec w) w.d (fun c l =>
    let r := f32.ofVal 0 false (q4Val ((c.opnd w.b l).toNat % 256) ((c.opnd w.a l).toNat % 16))
    ([BitVec.ofNat 32 r.1], r.2)) ∧
  Writes (.nibPack w) w.d (fun _ c l => [ofBits (fun i =>
    c.eff.getLsbD (8 * (l / 8) + i / 4) && (c.opnd w.a (8 * (l / 8) + i / 4)).getLsbD (i % 4))]) ∧
  Writes (.nibUnpk w) w.d (fun _ c l =>
    let n := (c.opnd w.a l).extractLsb' (4 * ((c.opnd w.b l).toNat % 8)) 4
    [if w.minor = 1 then n.signExtend 32 else n.setWidth 32]) ∧
  (∀ s c, Issues (.q4Scale w) s c →
    let part := fun (l : Nat) => if 4 ≤ w.minor then l / 16 else 0
    let peers := fun (l : Nat) => (c.lanes.filter (fun j => part j = part l)).map (fun j => (c.opnd w.a j).toNat)
    let r := fun (l : Nat) => blockScale (maxMag w.ty (w.minor % 4)) (peers l)
    Completes (.q4Scale w) s c ((checked (.q4Scale w) s c).updWave c.id (fun v =>
      (v.regWrites (c.lanes.map (fun l => ⟨w.d.toNat, l, BitVec.ofNat 32 (64 * (w.minor % 4) + (r l).1)⟩))).orFlags
        (orAll (c.lanes.map (fun l => (r l).2))))))

/-- Paired words: both halves read the registers as they stood at issue, then half A and half B write (R171 to R173, R207, R208,
R225). -/
def Obligations.PairedWords : Prop := ∀ (m : Bool) (op : HalfOp) (a : HalfFields) (b : Half) (s : State) (c : Ctx),
  Issues (pairInstr m op a b) s c → Completes (pairInstr m op a b) s c ((checked (pairInstr m op a b) s c).updWave c.id (fun v =>
    (v.regWrites ((halfWrites c op a).1 ++ (halfWrites c b.op b.f).1)).orFlags ((halfWrites c op a).2 ||| (halfWrites c b.op b.f).2)))

/-! ### Wave-wide words -/

/-- Votes, matches, lane exchanges, elections and the uniformity check (R246 to R251). -/
def Obligations.VotesAndExchanges : Prop := ∀ w : RWord,
  let ballot := fun (c : Ctx) => ofBits (fun l => c.eff.getLsbD l &&
    (if w.minor % 8 < 4 then c.opnd w.a l != 0#32 else (c.wave.kget w.a.toNat).getLsbD l))
  let verdict := fun (c : Ctx) => match w.minor % 4 with
    | 0 => if ballot c = 0#32 then 0#32 else 1#32
    | 1 => if ballot c = c.eff then 1#32 else 0#32
    | 2 => ballot c
    | _ => (ballot c).cpop
  (w.minor < 8 → WritesScalar (.vote w) w.d verdict) ∧ (8 ≤ w.minor → WritesWhole (.vote w) w.d verdict) ∧
  Writes (.matchL w) w.d (fun _ c l => [ofBits (fun j => c.eff.getLsbD j &&
    (if w.ty = 6 then pairOf c w.a j == pairOf c w.a l else c.opnd w.a j == c.opnd w.a l))]) ∧
  Writes (.xlane w) w.d (fun _ c l =>
    let j := sourceLane (w.minor % 4) (32 / 2 ^ (w.minor / 4 % 8)) l (c.opnd w.b l).toNat
    [if c.eff.getLsbD j then c.opnd w.a j else 0#32]) ∧
  (w.minor = 0 → WritesWhole (.elect w) w.d (fun c => c.eff &&& -c.eff)) ∧
  (w.minor ≠ 0 → WritesScalar (.elect w) w.d (fun c => c.eff.ctz)) ∧
  (w.minor = 0 → WritesScalar (.uchk w) w.d (fun c =>
    if c.lanes.all (fun l => c.opnd w.a l == c.opnd w.a c.eff.ctz.toNat) then 1#32 else 0#32)) ∧
  (w.minor ≠ 0 → ∀ s c, Issues (.uchk w) s c →
    let other := ofBits (fun l => c.eff.getLsbD l && c.opnd w.a l != c.opnd w.a c.eff.ctz.toNat)
    (other = 0#32 → Completes (.uchk w) s c (checked (.uchk w) s c)) ∧
    (other ≠ 0#32 → Raises (.uchk w) s c ⟨0x09, 0, 512 + w.a.toNat⟩ other))

/-- Reductions by the tree of R151 and scans by the steps of R152, lanes outside the effective mask bringing the identity (R250). The
events of a scan are those of the effective lanes (R154); that an exclusive one takes them at the lane below is the model's choice (log 84). -/
def Obligations.ReductionsAndScans : Prop := ∀ w : RWord,
  (∀ s c, Issues (.red w) s c →
    let r := tree (combineTwo w w.minor) (brought c w w.minor) 5 0
    Completes (.red w) s c (if c.eff = 0#32 then checked (.red w) s c else (checked (.red w) s c).updWave c.id (fun v =>
      (v.regWrites (c.results w.d.toNat (fun _ => [r.1]))).orFlags r.2))) ∧
  (∀ s c, Issues (.scan w) s c →
    let op := w.minor % 8
    let r := scanned (combineTwo w op) (if 8 ≤ w.minor then c.eff >>> 1 else c.eff) [1, 2, 4, 8, 16] (brought c w op)
    let none' := brought { c with eff := 0#32 } w op 0
    Completes (.scan w) s c (if c.eff = 0#32 then checked (.scan w) s c else (checked (.scan w) s c).updWave c.id (fun v =>
      (v.regWrites (c.lanes.map (fun l => ⟨w.d.toNat, l,
        if 8 ≤ w.minor then (if l = 0 then none' else r.1 (l - 1)) else r.1 l⟩))).orFlags r.2)))

/-! ### Control words -/

/-- The transfers of R229, R231 and R234 to targets within the limit of `g15`, and the SEG_LIMIT of targets beyond it. -/
def Sys2Proof.Claims.transferWords : Prop := ∀ w : BWord,
  let rel := fun (c : Ctx) (_ : Nat) => c.pc + w.offset
  let own := fun (c : Ctx) (l : Nat) => c.opnd w.a l
  let plain := fun (_ : Ctx) (v : Wave) => v
  let all := fun (_ : Ctx) (_ : Nat) => true
  let count := fun (c : Ctx) => c.wave.sreg (w.a.toNat - 0x100) - 1#32
  Transfers (.jmp w) all rel plain ∧
  Transfers (.brv w) (fun c l => w.minor == 0#5 || (if w.minor = 1#5 then c.opnd w.a l != 0#32 else c.opnd w.a l == 0#32)) rel plain ∧
  Transfers (.bru w) (fun c _ => match w.minor.toNat with
    | 0 => c.wave.kget w.a.toNat &&& c.eff != 0#32
    | 1 => c.wave.kget w.a.toNat &&& c.eff == c.eff
    | 2 => c.wave.kget w.a.toNat &&& c.eff == 0#32
    | 3 => c.opnd w.a (lowLane c.eff) != 0#32
    | _ => c.opnd w.a (lowLane c.eff) == 0#32) rel plain ∧
  Transfers (.jmpi w) all own plain ∧
  Transfers (.ret w) all own plain ∧
  Transfers (.call w) all rel (fun c v => c.lanes.foldl (fun v l => v.vset w.a.toNat l (c.pc + 1#32)) v) ∧
  Transfers (.loop w) (fun c _ => count c != 0#32) rel
    (fun c v => if c.eff = 0#32 then v else v.sregSet (w.a.toNat - 0x100) (count c))

/-- `nop` only advances the lanes (R228); `exit` takes the effective lanes out of the wave, the other active lanes going on, and
with the last lane the wave ends (R230). -/
def Sys2Proof.Claims.nopAndExit : Prop := ∀ (w : BWord) (s : State) (c : Ctx),
  (Issues (.nop w) s c → Completes (.nop w) s c (checked (.nop w) s c)) ∧
  (Issues (.exit w) s c →
    let on := fun (v : Wave) => { v.pcSets (lanesOf (c.active &&& ~~~c.eff)) (fun _ => c.pc + 1#32) with exited := v.exited ||| c.eff }
    let t := (checked (.exit w) s c).updWave c.id on
    CompletesMoved (.exit w) s c (if c.wave.exited ||| c.eff = 0xFFFFFFFF#32 then t.waveEnd c.id (on c.wave) c.wg else t))

/-- The control words: transfers, `nop` and `exit`. -/
def Obligations.ControlTransfers : Prop := Claims.transferWords ∧ Claims.nopAndExit

/-- `rwait` holds its effective lanes, with others at the same PC, or lets them pass where another word holds lanes (R233). -/
def Obligations.HoldingLanes : Prop := ∀ (w : BWord) (s : State) (c : Ctx), Issues (.rwait w) s c →
  let k := (w.aux.extractLsb' 0 3).toNat
  let on := fun (v : Wave) => v.pcSets (lanesOf (c.active &&& ~~~c.eff)) (fun _ => c.pc + 1#32)
  let t := checked (.rwait w) s c
  let becomes := fun (f : Wave → Wave) => CompletesMoved (.rwait w) s c (t.updWave c.id (fun v => f (on v)))
  (c.eff = 0#32 → becomes id) ∧
  (c.eff ≠ 0#32 → c.wave.held = none → 
    let deadline := t.clk - (t.part c.wg.part).origin + (c.opnd w.a (lowLane c.eff)).toNat
    becomes (fun v => { v with held := some ⟨c.pc, c.pc + w.offset, deadline, c.eff, k⟩ })) ∧
  (c.eff ≠ 0#32 → ∀ h, c.wave.held = some h → h.pc = c.pc → becomes (fun v => { v with held := some { h with mask := h.mask ||| c.eff } })) ∧
  (c.eff ≠ 0#32 → ∀ h, c.wave.held = some h → h.pc ≠ c.pc → becomes (fun v =>
    (v.pcSets c.lanes (fun _ => c.pc + 1#32)).kset k ((v.pcSets c.lanes (fun _ => c.pc + 1#32)).kget k ||| c.eff)))

/-- `yield` counts as 32 words of the token's holder, `pri.pass` hands the token to a live wave of the same workgroup and scheduler, `sleep`
parks the wave until its cycle, `snap` triggers the partition's snapshot (R235, R236, R245). -/
def Sys2Proof.Claims.schedulingWords : Prop := ∀ (w : BWord) (s : State) (c : Ctx),
  (Issues (.yield w) s c → Completes (.yield w) s c
    (if c.eff = 0#32 then checked (.yield w) s c else (checked (.yield w) s c).updCore c.id.core (fun k => { k with
      row := if sget none k.token c.id.sched = some c.id.slot then sset 0 k.row c.id.sched 32 else k.row }))) ∧
  (Issues (.priPass w) s c →
    let t := checked (.priPass w) s c
    let holder := sget none (t.core c.id.core).token c.id.sched
    let heirs := (t.wavesOf c.id.core c.wave.wg).filter (fun e => decide (e.1.sched = c.id.sched) &&
      decide (e.2.index = (c.opnd w.a (lowLane c.eff)).toNat) && decide (e.2.exited ≠ 0xFFFFFFFF#32))
    let heir := match heirs with
      | e :: _ => e.1.slot
      | [] => c.id.slot
    Completes (.priPass w) s c (if c.eff = 0#32 ∨ (holder ≠ none ∧ holder ≠ some c.id.slot) then t
      else t.updCore c.id.core (fun k => { k with
        token := sset none k.token c.id.sched (some heir)
        row := if some heir = holder then k.row else sset 0 k.row c.id.sched 0 }))) ∧
  (Issues (.sleep w) s c →
    let t := checked (.sleep w) s c
    let n := (c.opnd w.a (lowLane c.eff)).toNat
    Completes (.sleep w) s c (if c.eff = 0#32 ∨ n = 0 then t else t.updWave c.id (fun v => { v with
      conds := v.conds ++ [⟨0x0B, 0, t.pclk c.wg.part + n⟩] }))) ∧
  (Issues (.snap w) s c → Completes (.snap w) s c (if c.eff = 0#32 then checked (.snap w) s c
    else (checked (.snap w) s c).trigger c.wg.part 0 (((c.opnd w.a (lowLane c.eff)).extractLsb' 0 16).toNat) 0))

/-- The barrier words (R237, R238). -/
def Sys2Proof.Claims.barrierWords : Prop := ∀ w : BWord,
  BarrierWord (.barFull w) w false true true ∧ BarrierWord (.barArrive w) w false true false ∧
  BarrierWord (.barWait w) w false false true ∧ BarrierWord (.barEnsFull w) w true true true ∧
  BarrierWord (.barEnsArrive w) w true true false ∧ BarrierWord (.barEnsWait w) w true false true ∧
  (∀ i ∈ [Instr.barFull w, .barArrive w, .barWait w, .barEnsFull w, .barEnsArrive w, .barEnsWait w], ∀ s c,
    Issues i s c → c.eff = 0#32 → Completes i s c (checked i s c)) ∧ BarrierOrder ∧ BarrierCompletes

/-- Scheduling and barrier words. -/
def Obligations.SchedulingAndBarrierWords : Prop := Claims.schedulingWords ∧ Claims.barrierWords

/-- `trap` and `brk` raise their exception after the word, the lanes past it; where a debugger is attached `brk` stops the wave and reports
it to the debug function (R244); `tret` leaves the handler with the state its save areas give (R243). -/
def Sys2Proof.Claims.trapWordsIssue : Prop := ∀ (w : BWord) (s : State) (c : Ctx),
  (Issues (.trap w) s c → c.eff ≠ 0#32 → exec (.trap w) s = .next (((checked (.trap w) s c).afterWord c).raiseFault c.id
    ⟨0x20, 0, c.pc, c.active, c.eff, (c.opnd w.a (lowLane c.eff)).setWidth 64, true⟩)) ∧
  (Issues (.brk w) s c → c.eff ≠ 0#32 →
    ((checked (.brk w) s c).func c.wg.vf).debugAttached = false →
    exec (.brk w) s = .next (((checked (.brk w) s c).afterWord c).raiseFault c.id
      ⟨0x21, 0, c.pc, c.active, c.eff, w.offset.setWidth 64, true⟩)) ∧
  (Issues (.brk w) s c → c.eff ≠ 0#32 → ((checked (.brk w) s c).func c.wg.vf).debugAttached = true →
    Completes (.brk w) s c { (checked (.brk w) s c).updWave c.id (fun v => { v with stopPending := true }) with
      debugReports := s.debugReports ++ [⟨c.wg.vf, c.id, 0x21, c.pc⟩] }) ∧
  (Issues (.tret w) s c → c.eff ≠ 0#32 → ∀ v,
    let t := checked (.tret w) s c
    (t.trapReturn c).wave c.id = some v → v.deferred = none →
    exec (.tret w) s =
      .next ((((t.trapReturn c).updWave c.id (fun x => { x with lastIssue := t.clk })).countIssue c.id).heldCheck c.id)) ∧
  (∀ i ∈ [Instr.trap w, .brk w, .tret w], Issues i s c → c.eff = 0#32 → Completes i s c (checked i s c))

/-- Taking an exception (R239, R241, R448): with a handler installed and the wave not in it, the registers of R241 are saved, the held
set is discarded, and every one of the 32 lanes, exited or not, stands at TRAPBASE with its exit bit clear. -/
def Sys2Proof.Claims.handlerEntered : Prop := ∀ (s t : State) (id : WaveId) (f : FaultInfo) (w : Wave) (g : Workgroup),
  s.wave id = some w → w.resp = none → s.wg id.core w.wg = some g → w.inHandler = false →
  sget 0xFFFFFFFF#32 s.trapbase g.ctx ≠ 0xFFFFFFFF#32 →
  s.writeSaveAreas id (let w := { w.dropWaits with faultPending := none, conds := [], parked := none }
    if f.after then w else w.pcSets (lanesOf f.xmask) (fun _ => f.pc)) g f = .ok t →
  ∃ v, (s.deliver id f).wave id = some v ∧ v.xpc = f.pc ∧ v.xmask = f.xmask ∧ v.fmask = f.fmask ∧
    v.xcode = BitVec.ofNat 32 f.code ∧ v.xinfo = f.xinfo ∧ v.held = none ∧ v.inHandler = true ∧ v.exited = 0#32 ∧
    (∀ l, l < 32 → v.pcOf l = sget 0xFFFFFFFF#32 s.trapbase g.ctx) ∧
    v.v = w.v ∧ v.s = w.s ∧ v.k = w.k ∧ v.fflags = w.fflags ∧
    (∀ pa, (s.deliver id f).homeByte pa = t.homeByte pa)

/-- Return from the handler (R243): where the save areas read as `a`, every lane takes its PC and exit bit from its area, the in-handler
state is cleared, no held set stands where no area names a held lane, and the handler registers keep their values. -/
def Sys2Proof.Claims.handlerLeft : Prop := ∀ (s : State) (c : Ctx) (a : Nat → BitVec 128),
  (∀ l j, l < 32 → j < 4 → s.recordRead c.core c.wg.vf c.wg.part (privAddr c.wave.record c.wg.vregs (4 * j) l) 4 =
    .ok (bytesOfNat ((a l).extractLsb' (32 * j) 32).toNat 4)) →
  (∃ l, l < 32 ∧ (a l).getLsbD 31 = false) →
  ∃ v, (s.trapReturn c).wave c.id = some v ∧ v.inHandler = false ∧
    (∀ l, l < 32 → v.pcOf l = ((a l).extractLsb' 0 31).setWidth 32 ∧ v.exited.getLsbD l = (a l).getLsbD 31) ∧
    ((∀ l, l < 32 → (a l).getLsbD 31 = false → (a l).getLsbD 32 = false) → v.held = none) ∧
    v.xpc = c.wave.xpc ∧ v.xmask = c.wave.xmask ∧ v.fmask = c.wave.fmask ∧ v.xcode = c.wave.xcode ∧ v.xinfo = c.wave.xinfo

/-- The words that enter and leave the handler, and what leaving restores. -/
def Obligations.TrapWords : Prop := Claims.trapWordsIssue ∧ Claims.handlerLeft

/-- A fault without a handler, or in the handler, kills the wave with the code of R448: its workgroup is contained with a record of
KIND 0 and the fault's code, or KIND 1, code DOUBLE and the code that caused the entry. -/
def Sys2Proof.Claims.faultsThatKill : Prop := ∀ (s : State) (id : WaveId) (f : FaultInfo) (w : Wave) (g : Workgroup),
  s.wave id = some w → w.resp = none → s.wg id.core w.wg = some g → g.ensSize ≤ 1 → g.contained = none →
  w.inHandler = true ∨ sget 0xFFFFFFFF#32 s.trapbase g.ctx = 0xFFFFFFFF#32 →
  ∃ h r, (s.deliver id f).wg id.core w.wg = some h ∧ h.contained = some r ∧
    bitsN r 511 504 = (if w.inHandler then 0x18 else f.code) % 256 ∧
    bitsN r 503 500 = (if w.inHandler then 1 else 0) ∧
    bitsN r 496 489 = (if w.inHandler then w.xcode.toNat % 256 else 0)

/-- The trap save area of a lane (R240): its PC, whether it has exited, is held, was active and raised the fault. -/
def Sys2Proof.Claims.trapSaveArea : Prop := ∀ (s : State) (part : Nat) (w : Wave) (f : FaultInfo) (l : Nat),
  let x := saveArea s part w f l
  bitsN x 30 0 = (w.pcOf l).toNat % 2 ^ 31 ∧ x.getLsbD 31 = w.exited.getLsbD l ∧ x.getLsbD 32 = w.heldMask.getLsbD l ∧
  x.getLsbD 33 = f.xmask.getLsbD l ∧ x.getLsbD 34 = f.fmask.getLsbD l ∧ bitsN x 63 35 = 0 ∧
  (w.held = none → bitsN x 127 64 = 0) ∧
  (∀ h, w.held = some h → bitsN x 95 64 = h.pc.toNat ∧ bitsN x 127 96 = min (2 ^ 32 - 1) (h.deadline - s.pclk part))

/-- Taking an exception: entry to the handler, the save area of each lane, and the faults that kill instead. -/
def Obligations.HandlerEntry : Prop := Claims.handlerEntered ∧ Claims.trapSaveArea ∧ Claims.faultsThatKill

/-! ### Memory words -/

/-- Local, remote and private loads and stores, and the scratchpad atomic (R79 to R97, R263, R264, R270, R274). -/
def Obligations.LocalAndPrivateWords : Prop := ∀ w : MWord,
  LocalWord (.ldSp w) w .sp false ∧ LocalWord (.stSp w) w .sp true ∧ LocalWord (.ldA w) w .ab false ∧
  LocalWord (.stA w) w .ab true ∧ LocalWord (.ldC w) w .cb false ∧ LocalWord (.stC w) w .cb true ∧
  RemoteWord (.ldRsp w) w false ∧ RemoteWord (.stRsp w) w true ∧ PrivateWord (.ldP w) w false ∧ PrivateWord (.stP w) w true ∧
  (∀ s c, OnPath (.atomSp w) s c 0 →
    let t := checked (.atomSp w) s c
    let size := sizeBytes w.size
    let op := (w.imm.extractLsb' 20 4).toNat
    let regs := regsFrom w.d.toNat (sizeRegs size)
    let value := fun (k l : Nat) => natOfBytes ((List.range (sizeRegs size)).flatMap (fun i =>
      bytesOfNat (c.wave.opnd (w.d.toNat + k * sizeRegs size + i) l).toNat 4))
    let checks := c.allLanes (onceFor w) ((accessing c (onceFor w)).map (fun l =>
      (l, localAccess c.wg .sp size (localOffset c w (w.imm.extractLsb' 0 20).toInt l) none)))
    (∀ r m, checks = .error (r, m) → Raises (.atomSp w) s c r m) ∧
    (∀ ps, checks = .ok ps →
      let todo := ps.map (fun p => (p.1, p.2.headD 0, value 0 p.1, if op = 0xF then value 1 p.1 else 0))
      let u := t.countPasses c.id.core (atomPasses size ps)
      Completes (.atomSp w) s c (if c.wave.blocked then u.launch c (.spAtomic op size todo w.d.toNat) regs
        else (u.doSpAtomic c.id.core op size todo w.d.toNat).2.launch c
          (.result (u.doSpAtomic c.id.core op size todo w.d.toNat).1) regs)))

/-- Global loads, stores, prefetches, linkage words, queue loads and atomics whose lanes' addresses pass their checks (R74, R266,
R269 to R273, R232). -/
def Obligations.GlobalWords : Prop := ∀ w : MWord,
  let size := sizeBytes w.size
  let regs := regsFrom w.d.toNat (sizeRegs size)
  let one := onceFor w
  (∀ s c, OnPath (.stG w) s c 0 →
    Accesses (.stG w) s c ((checked (.stG w) s c).access c false one .store (globalAddrs c w w.imm.toInt one size .store)) (fun accs u =>
      let bytes := fun (uncached : Bool) => (accs.filter (fun a => a.2 == uncached)).flatMap (fun a =>
        byteList a.1.pa (c.storeData w.d size a.1.lane))
      Completes (.stG w) s c ((u.storeOrQueue c false (bytes false)).storeOrQueue c true (bytes true)))) ∧
  (∀ s c, OnPath (.ldK w) s c 0 →
    Accesses (.ldK w) s c ((checked (.ldK w) s c).access c false true .load (globalAddrs c w w.imm.toInt true size .load)) (fun accs u =>
      Completes (.ldK w) s c (u.launch c (.load (plainAccs accs) size (signedSize w) w.d.toNat w.mode false
        (u.appliedMask c.id.core c.wg.part)) regs))) ∧
  (∀ s c, OnPath (.pref w) s c 0 →
    let p := (checked (.pref w) s c).prefetchAccs c (globalAddrs c w w.imm.toInt w.sbase size .load)
    Completes (.pref w) s c (if p.1 = [] then p.2 else (p.2.launch c (.prefetch p.1 size w.mode) []).drain c.id)) ∧
  (∀ s c, OnPath (.dqLd w) s c 0 → c.eff ≠ 0#32 → ∀ accs u,
    (checked (.dqLd w) s c).access c false w.sbase .load (globalAddrs c w w.imm.toInt w.sbase size .load) = .ready accs u →
    let q := w.d.toNat % 16
    (u.queue c.id.core c.wave.wg q).depth ≠ 0 →
    Completes (.dqLd w) s c ((u.launch c (.fill q 0 (plainAccs accs) size (signedSize w) w.sbase w.mode
      (u.appliedMask c.id.core c.wg.part)) []).push c q u.tags size w.sbase)) ∧
  (∀ s c, OnPath (.lnkLd w) s c 0 → ∀ entry cell b d rest u,
    (checked (.lnkLd w) s c).access c false true .observe (globalAddrs c w w.imm.toInt true 8 .observe ++
      (accessing c true).map (fun l => (l, segCheck (sget 0#128 c.wave.segs w.seg.toNat) 0 8 8 .observe))) =
      .ready ((entry, b) :: (cell, d) :: rest) u →
    (c.wave.blocked = false → u.cellPoisoned c.id.core c.wg.part cell.pa = false) →
    Completes (.lnkLd w) s c (u.launch c (.linkage cell.pa cell.va entry.pa w.d.toNat) (regsFrom w.d.toNat 2))) ∧
  (∀ kind ∈ [0, 1, 2], let i : Instr := if kind = 0 then .atom w else if kind = 1 then .atomCas w else .redG w
    ∀ s c, OnPath i s c 0 → c.eff ≠ 0#32 →
    let imm := if kind = 2 then (w.imm.extractLsb' 0 20).toInt else (w.imm.extractLsb' 0 16).toInt
    let q := (w.imm.extractLsb' 16 4).toNat
    Accesses i s c ((checked i s c).access c false one .atomic (globalAddrs c w imm one size .atomic)) (fun accs u =>
      (kind ≠ 2 → (u.queue c.id.core c.wave.wg q).depth ≠ 0) →
      let todo := (plainAccs accs).map (fun a => (⟨a, c.atomValue w.d size 0 a.lane,
        if kind = 1 then c.atomValue w.d size 1 a.lane else 0⟩ : AtomLane))
      let t := u.launch c (.atomic kind (w.imm.extractLsb' 20 4).toNat size todo q 0 []) []
      Completes i s c (if kind = 2 then t else t.push c q u.tags size one)))

/-- A word of a path that an unfinished `xfence` holds waits, with no effect, and is tried again a cycle later; its scheduler may issue another
wave in this one (R54, R126). -/
def Obligations.FencedWordsWait : Prop := ∀ (w : MWord) (b : BWord) (i : Instr) (p : Nat),
  (i, p) ∈ ([(.ldSp w, 0), (.stSp w, 0), (.ldA w, 0), (.stA w, 0), (.ldC w, 0), (.stC w, 0), (.ldRsp w, 0), (.stRsp w, 0),
    (.ldP w, 0), (.stP w, 0), (.atomSp w, 0), (.stG w, 0), (.pref w, 0), (.ldK w, 0), (.lnkLd w, 0), (.dqLd w, 0), (.atom w, 0),
    (.atomCas w, 0), (.redG w, 0), (.acq w, 0), (.acqTry w, 0), (.rel w, 0), (.bind w, 0), (.unbind w, 0), (.kvtrim w, 0),
    (.calli b, 0), (.xcopy w, 1), (.gather w, 3), (.chainAdd w, 0)] : List (Instr × Nat)) →
  ∀ s c, Issues i s c → c.wave.fencedTo p = true → exec i s = .next ((checked i s c).stall s.cur)

/-- The words on sync cells, their bindings, the fences and `calli` (R232, R275 to R279): each leaves as an access of its wave with the
registers it will write, and `acq` makes the wave wait for its grant. -/
def Obligations.SynchronisationWords : Prop := (∀ (w : MWord) (s : State) (c : Ctx) (a : LaneAcc) (d : Bool)
    (rest : List (LaneAcc × Bool)) (u : State),
  let on := fun (i : Instr) (imm : Int) => OnPath i s c 0 ∧
    (checked i s c).access c false true .sync (globalAddrs c w imm true 8 .sync) = .ready ((a, d) :: rest) u
  let low := (w.imm.extractLsb' 0 21).toInt
  let k := (w.imm.extractLsb' 21 3).toNat
  (on (.acq w) low → (k = 0 → c.wave.blocked = false → u.cellPoisoned c.id.core c.wg.part a.pa = false) →
    Completes (.acq w) s c ((u.launch c (.acquire a.pa a.va false w.d.toNat k 0 0#32 0)
      (w.d.toNat :: (if k = 0 then [] else [0x200 + k]))).record c ⟨0x06, a.va / 8, 0⟩)) ∧
  (on (.acqTry w) low → Completes (.acqTry w) s c
    (u.launch c (.acquire a.pa a.va true w.d.toNat 0 0 0#32 0) [w.d.toNat, w.d.toNat + 1])) ∧
  (on (.rel w) w.imm.toInt → Completes (.rel w) s c (u.launch c (.release a.pa a.va) [])) ∧
  (∀ remove, on (if remove then .unbind w else .bind w) w.imm.toInt →
    let off := (c.sreg w.d 1 ++ c.sreg w.d 0 : Dword).toInt
    let len := (c.sreg w.d 3 ++ c.sreg w.d 2 : Dword).toNat
    let g := sget 0#128 c.wave.segs w.seg.toNat
    segValid g = true → 0 ≤ off → off + len ≤ segLimit g → (segBase g + off.toNat) % 4 = 0 → len % 4 = 0 → 0 < len → len ≤ 2 ^ 40 →
    Completes (if remove then .unbind w else .bind w) s c
      (u.launch c (.bindRegion a.pa a.va len c.wg.vf (segBase g + off.toNat) remove) []))) ∧
  (∀ (w : BWord) (s : State) (c : Ctx) (e : LaneAcc) (d : Bool) (rest : List (LaneAcc × Bool)) (u : State),
    OnPath (.calli w) s c 0 → (checked (.calli w) s c).access c false true .load ((accessing c true).map (fun l =>
      (l, segCheck (sget 0#128 c.wave.segs 14) (8 * (w.offset.toNat : Int)) 8 8 .load))) = .ready ((e, d) :: rest) u →
    CompletesMoved (.calli w) s c (u.launch c (.callRead e w.a.toNat c.active c.eff) [w.a.toNat])) ∧
  (∀ (w : RWord) (s : State) (c : Ctx), c.eff ≠ 0#32 →
    (OnPath (.fence w) s c 0 → Completes (.fence w) s c ((checked (.fence w) s c).launch c (.fence w.minor) [])) ∧
    (OnPath (.xfence w) s c (w.minor % 8) → Completes (.xfence w) s c ((checked (.xfence w) s c).launch c
      (.xfence (w.minor % 8) (w.minor / 8) ((checked (.xfence w) s c).fenceItems c (w.minor % 8)) none) [])) ∧
    (OnPath (.xfenceCh w) s c (w.minor % 8) → (c.opnd w.a (lowLane c.eff)).toNat < 8 →
      Completes (.xfenceCh w) s c ((checked (.xfenceCh w) s c).launch c
        (.xfence (w.minor % 8) (w.minor / 8) ((checked (.xfenceCh w) s c).fenceItems c (w.minor % 8))
          (some ((c.opnd w.a (lowLane c.eff)).toNat, c.opnd w.b (lowLane c.eff)))) [])))

/-- The queue words (R267, R268): a pop claims the oldest push not yet claimed whose class fits its D and waits for it, a queue is
configured while all queues are empty, and its level is read. -/
def Obligations.QueueWords : Prop := ∀ (w : RWord) (s : State) (c : Ctx), c.eff ≠ 0#32 →
  let q := (c.opnd w.a (lowLane c.eff)).toNat
  (Issues (.dqPop w) s c →
    let t := checked (.dqPop w) s c
    let d := t.queue c.id.core c.wave.wg q
    let live := c.wave.live t.clk
    (16 ≤ q → Raises (.dqPop w) s c ⟨0x03, 8, c.word.toNat⟩ c.eff) ∧
    (q < 16 → ∀ e, d.entries.find? (fun e => !e.claimed) = some e →
      let n := pushCount e.size e.scalar
      let regs := regsFrom w.d.toNat (popRegs e.size e.scalar)
      (popFits c.wg.vregs w.d.toNat e.size e.scalar = false →
        (hazard live [] [w.d.toNat] = none → exec (.dqPop w) s = .next
          (((t.updQueue c.id.core c.wave.wg q (fun d => d.discard e.group)).levelFell c.id.core c.wave.wg).raiseAt c
            ⟨0x16, 0, q⟩ c.eff)) ∧
        (∀ x, hazard live [] [w.d.toNat] = some x → Raises (.dqPop w) s c ⟨0x06, 0, x⟩ c.eff)) ∧
      (popFits c.wg.vregs w.d.toNat e.size e.scalar = true → ∀ x, hazard live [] regs = some x →
        Raises (.dqPop w) s c ⟨0x06, 0, x⟩ c.eff) ∧
      (popFits c.wg.vregs w.d.toNat e.size e.scalar = true → hazard live [] regs = none → 0 < n → Completes (.dqPop w) s c
        (((t.launch c (.pop q e.group n w.d.toNat) regs).record c ⟨0x03, q, e.group + n - 1⟩).updQueue c.id.core c.wave.wg q
          (fun d => { d with entries := d.entries.map (fun x => if x.group = e.group then { x with claimed := true } else x) })))) ∧
    (q < 16 → d.entries.find? (fun e => !e.claimed) = none →
      let first := d.next + (t.waitingPops c.id.core c.wave.wg q).length
      (∀ x, hazard live [] (popCould c.wg.vregs w.d.toNat) = some x → Raises (.dqPop w) s c ⟨0x06, 0, x⟩ c.eff) ∧
      (hazard live [] (popCould c.wg.vregs w.d.toNat) = none → ∃ u, Completes (.dqPop w) s c u ∧
        u.wave c.id = ((t.launch c (.pop q first 0 w.d.toNat) (popCould c.wg.vregs w.d.toNat)).record c ⟨0x03, q, first⟩).wave c.id))) ∧
  (∀ i ∈ [Instr.dqCfg w, .dqLvl w], Issues i s c → 16 ≤ q → Raises i s c ⟨0x03, 8, c.word.toNat⟩ c.eff) ∧
  (Issues (.dqCfg w) s c → q < 16 →
    let t := checked (.dqCfg w) s c
    let depth := (c.opnd w.b (lowLane c.eff)).toNat
    let total := ((List.range 16).map (fun i => if i = q then depth else (t.queue c.id.core c.wave.wg i).depth)).sum
    (64 < depth ∨ (∃ i, i < 16 ∧ (t.queue c.id.core c.wave.wg i).entries ≠ []) ∨ c.wg.queueArea < 128 * total →
      Raises (.dqCfg w) s c ⟨0x16, 0, q⟩ c.eff) ∧
    (depth ≤ 64 → (∀ i, i < 16 → (t.queue c.id.core c.wave.wg i).entries = []) → 128 * total ≤ c.wg.queueArea →
      Completes (.dqCfg w) s c ((t.updQueue c.id.core c.wave.wg q (fun d => { d with depth := depth })).levelFell
        c.id.core c.wave.wg))) ∧
  (Issues (.dqLvl w) s c → q < 16 → Completes (.dqLvl w) s c ((checked (.dqLvl w) s c).updWave c.id (fun v =>
    v.sregSet (w.d.toNat - 0x100) (BitVec.ofNat 32 ((checked (.dqLvl w) s c).queue c.id.core c.wave.wg q).entries.length))))

/-! ### Copies, gathers, chains and trimming -/

/-- `xcopy` presents its slice and the wave waits for the decision of its workgroup (R280); sealing, waiting and reading of copies,
gathers, chains and trims (R283 to R287). -/
def Obligations.CopyAndChainWords : Prop :=
  (∀ (w : MWord) (s : State) (c : Ctx),
    (OnPath (.xcopy w) s c 1 →
      let t := checked (.xcopy w) s c
      let off := (c.wave.opnd (w.gbase.field + 1) 0 ++ c.wave.opnd w.gbase.field 0 : Dword).toInt + (w.imm.extractLsb' 0 14).toInt
      exec (.xcopy w) s = .next (((t.updWave c.id (fun v => { v with
        slice := some ⟨w.size, (w.imm.extractLsb' 14 3).toNat, w.seg.toNat, off, (c.wave.sreg w.immHi).toNat, (c.sreg w.d 0).toNat, c.pc, c.m⟩
        lastIssue := t.clk })).copyDecide c.id.core c.wave.wg))) ∧
    (OnPath (.gather w) s c 3 → c.eff ≠ 0#32 →
      let t := checked (.gather w) s c
      let len := (c.wave.sreg w.immHi).toNat
      let base := (c.sreg w.d 0).toNat
      let rows := c.lanes.flatMap (fun l => match segCheck (sget 0#128 c.wave.segs w.seg.toNat) (c.goff w (w.imm.extractLsb' 0 17).toInt l)
          len 1 .load with
        | .error r => [(l, (Except.error r : Except Raise Nat))]
        | .ok va => (rowPieces va len).map (fun p => (l, (Except.ok p : Except Raise Nat))))
      (len % 64 ≠ 0 ∨ len = 0 ∨ 1024 < len → Raises (.gather w) s c ⟨0x03, 8, c.word.toNat⟩ c.eff) ∧
      (len % 64 = 0 → 0 < len → len ≤ 1024 →
        (c.wg.ab.len < base + 32 * len → Raises (.gather w) s c ⟨0x0B, 0, base + 2 * 2 ^ 60⟩ c.eff) ∧
        (base + 32 * len ≤ c.wg.ab.len → base % (32 * len) ≠ 0 → Raises (.gather w) s c ⟨0x0C, 0, base + 2 * 2 ^ 60⟩ c.eff) ∧
        (base % (32 * len) = 0 → base + 32 * len ≤ c.wg.ab.len →
          Accesses (.gather w) s c (t.access c false false .load rows) (fun accs u =>
            let id := u.tags
            Completes (.gather w) s c ((({ u with tags := id + 1 }).launch c
              (.gather id (c.wg.ab.start + base) len (plainAccs accs)) []).updWave c.id
              (fun v => { v with openBatch := v.openBatch ++ [id] })))))) ∧
    (OnPath (.chainAdd w) s c 0 → c.wave.blocked = true → exec (.chainAdd w) s = .next
      ((checked (.chainAdd w) s c).stall (checked (.chainAdd w) s c).cur)) ∧
    (OnPath (.chainAdd w) s c 0 → c.wave.blocked = false → ∀ a d rest u,
      (checked (.chainAdd w) s c).access c false true .store (globalAddrs c w w.imm.toInt true 64 .store) = .ready ((a, d) :: rest) u →
      let u := (u.performAll c.id none).yieldWords c.id.core ((List.range 16).map (fun i => a.pa / 4 + i))
      (u.heldAt a.pa 64 = true → exec (.chainAdd w) s = .next (u.stall u.cur)) ∧
      (u.heldAt a.pa 64 = false →
      let desc := BitVec.ofNat 512 (u.homeNat a.pa 64)
      let num := bitsN desc 442 437
      let tail := bitsN desc 383 352
      let size := 2 ^ bitsN desc 447 443
      (u.chainOf c.wg.part c.wg.vf num = none → exec (.chainAdd w) s = .next (u.raiseAt c ⟨0x1A, 2, a.va % 2 ^ 60⟩ c.eff)) ∧
      (u.chainOf c.wg.part c.wg.vf num ≠ none → (tail + 2 ^ 32 - bitsN desc 351 320) % 2 ^ 32 = size →
        exec (.chainAdd w) s = .next (u.raiseAt c ⟨0x1A, 1, a.va % 2 ^ 60⟩ c.eff)) ∧
      (u.chainOf c.wg.part c.wg.vf num ≠ none → (tail + 2 ^ 32 - bitsN desc 351 320) % 2 ^ 32 ≠ size → ∀ e f more v,
        u.access c false true .store [(a.lane, .ok (bitsN desc 511 448 + 64 * (tail % size)))] = .ready ((e, f) :: more) v →
        Completes (.chainAdd w) s c ((((v.yieldWords c.id.core ((List.range 16).map (fun i => e.pa / 4 + i))).register .engine c.wg.ctx
          (byteList e.pa (c.chainEntry w.d))).register .engine c.wg.ctx (byteList (a.pa + 44) (bytesOfNat ((tail + 1) % 2 ^ 32) 4))).updWg
          c.id.core c.wave.wg (fun g => { g with
            appended := g.appended.filter (fun x => decide (x.1 ≠ num)) ++ [(num, (tail + 1) % 2 ^ 32)] }))))) ∧
    (OnPath (.kvtrim w) s c 0 → c.eff ≠ 0#32 → c.wave.blocked = false →
      let t := checked (.kvtrim w) s c
      let word := fun (i : Nat) => c.wave.opnd (0x100 + w.immHi + i) 0
      let new := (word 1 ++ word 0 : Dword).toNat
      let res := (word 3 ++ word 2 : Dword).toNat
      let g := sget 0#128 c.wave.segs w.seg.toNat
      let off := c.goff w (w.imm.extractLsb' 0 17).toInt 0
      let va := segBase g + off.toNat
      let first := (new + 65535) / 65536
      let pages := (List.range (res / 65536 - first)).map (fun i => va + (first + i) * 65536)
      segValid g = true → segPermits g .store = true → 0 ≤ off → off + res ≤ segLimit g → segBase g + segLimit g ≤ 2 ^ 60 →
      va % 65536 = 0 → res % 65536 = 0 →
      (∀ p ∈ pages, ∃ a, t.leafGroup c.wg.vf p = some a ∧ ∀ e ∈ t.groupLeaves a, pteGrow e = true) →
      let r := pages.foldl (fun (acc : Nat × State) p =>
        let r := acc.2.trimPage c.wg.part c.wg.vf c.wg.ctx p
        (if r.1 then acc.1 + 1 else acc.1, r.2)) (0, t)
      Completes (.kvtrim w) s c (r.2.launch c (.trim w.d.toNat r.1) [w.d.toNat]))) ∧
  (∀ (w : RWord) (s : State) (c : Ctx), c.eff ≠ 0#32 →
    let n := one c w.a
    (Issues (.cpSeal w) s c →
      let t := checked (.cpSeal w) s c
      let live := c.wave.openBatch.any (fun i => t.memberLive c.id.core i)
      (live = false → Completes (.cpSeal w) s c (t.updWave c.id (fun v => { v with openBatch := [], openChan := none }))) ∧
      (live = true → c.wave.batches.length < 64 → Completes (.cpSeal w) s c (t.updWave c.id (fun v =>
        { v with batches := v.batches ++ [v.openBatch], openBatch := [], openChan := none }))) ∧
      (live = true → 64 ≤ c.wave.batches.length → Raises (.cpSeal w) s c ⟨0x16, 0, c.wave.openChan.getD 0⟩ c.eff)) ∧
    (Issues (.cpWait w) s c → Completes (.cpWait w) s c ((checked (.cpWait w) s c).record c ⟨0x08, 0, n⟩)) ∧
    (Issues (.cpWp w) s c → n < 8 → Completes (.cpWp w) s c ((checked (.cpWp w) s c).updWave c.id (fun v =>
      v.sregSet (w.d.toNat - 0x100) (sget Channel.fresh c.wg.channels n).ptr))) ∧
    (Issues (.cpWpw w) s c → n < 8 → Completes (.cpWpw w) s c ((checked (.cpWpw w) s c).record c ⟨0x09, n, one c w.b⟩)) ∧
    (Issues (.chainSeq w) s c → n < 64 → Completes (.chainSeq w) s c ((checked (.chainSeq w) s c).launch c
      (.result [⟨w.d.toNat, 0, BitVec.ofNat 32 ((checked (.chainSeq w) s c).chainSeqWord c.wg.part c.wg.vf n)⟩]) [w.d.toNat])) ∧
    (Issues (.chainWait w) s c → n < 64 → Completes (.chainWait w) s c ((checked (.chainWait w) s c).record c ⟨0x0A, n, one c w.b⟩)) ∧
    (∀ i ∈ [Instr.cpWp w, .cpWpw w], Issues i s c → 8 ≤ n → Raises i s c ⟨0x03, 8, c.word.toNat⟩ c.eff) ∧
    (∀ i ∈ [Instr.chainSeq w, .chainWait w], Issues i s c → 64 ≤ n → Raises i s c ⟨0x03, 8, c.word.toNat⟩ c.eff))

/-! ### Matrix words and ladders -/

/-- Reservations, products, row operations, waits and program loads whose checks pass (R292 to R315). -/
def Obligations.MatrixWords : Prop := ∀ w : RWord,
  Product (.mmaQ w) w 0 ∧ Product (.mma w) w 1 ∧ Product (.mqk w) w 2 ∧ Product (.msv w) w 3 ∧
  (∀ s c, c.eff ≠ 0#32 →
    let a := one c w.a
    (OnPath (.mrow w) s c 2 → a % 512 = 0 → one c w.b % 256 = 0 → a + 4096 ≤ c.wg.cb.len →
      let sel := (w.mod.extractLsb' 0 2).toNat
      one c w.b + (if sel = 3 then 256 else if sel = 2 then 256 else 128) ≤ c.wg.cb.len →
      Admits (.mrow w) w s c (.rowStats sel a (one c w.b)) 8) ∧
    (OnPath (.mscale w) s c 2 → a % 512 = 0 → a + 4096 ≤ c.wg.cb.len →
      Admits (.mscale w) w s c (.scale a ((List.range 32).map (fun l => c.wave.vget w.b.toNat l))) 8) ∧
    (OnPath (.mtrans w) s c 2 → a % 512 = 0 → a + 4096 ≤ c.wg.cb.len → ∀ r, c.handle (one c w.b / 2 ^ 28) = some r →
      recRemote r = false → recFmt r ∈ [0x8, 0x9, 0xA] → recBlk r = 0 →
      recSpan r (descRow (BitVec.ofNat 32 (one c w.b))) 32 (64 * descSeg (BitVec.ofNat 32 (one c w.b))) (4 * fmtBits (recFmt r)) = true →
      Admits (.mtrans w) w s c (.transpose (w.mod.getLsbD 0) a (c.opnd w.b (lowLane c.eff)) r) 8) ∧
    (OnPath (.mzero w) s c 2 → a % 512 = 0 → a + (if w.mod.getLsbD 0 then 16384 else 4096) ≤ c.wg.cb.len →
      Admits (.mzero w) w s c (.zero (w.mod.getLsbD 0) a) (if w.mod.getLsbD 0 then 16 else 8)) ∧
    (Issues (.mres w) s c →
      let t := checked (.mres w) s c
      let r : BitVec 128 := c.sreg w.a 3 ++ c.sreg w.a 2 ++ c.sreg w.a 1 ++ c.sreg w.a 0
      (∀ f, t.recordFail c r = some f → Raises (.mres w) s c f c.eff) ∧
      (t.recordFail c r = none → 0 < c.wg.tokensDeclared → ∀ h, h < 16 → sget none c.wg.handles h = none →
        (∀ j, j < h → sget none c.wg.handles j ≠ none) →
        Completes (.mres w) s c ((t.updWg c.id.core c.wave.wg (fun g => { g with handles := sset none g.handles h (some ⟨r, false⟩) })).updWave
          c.id (fun v => v.sregSet (w.d.toNat - 0x100) (BitVec.ofNat 32 h)))) ∧
      (t.recordFail c r = none → (∀ h, h < 16 → sget none c.wg.handles h ≠ none) ∨ c.wg.tokensDeclared = 0 →
        Raises (.mres w) s c ⟨0x11, 0, 0⟩ c.eff)) ∧
    (Issues (.mfree w) s c → a < 16 →
      (c.handle a = none → Raises (.mfree w) s c ⟨0x11, 0, a⟩ c.eff) ∧
      (∀ r, c.handle a = some r → Completes (.mfree w) s c (((checked (.mfree w) s c).updWg c.id.core c.wave.wg (fun g =>
        { g with handles := sset none g.handles a (some ⟨r, true⟩) })).sweepHandles c.id.core c.wave.wg))) ∧
    (∀ all, let i : Instr := if all then .mwaitAll w else .mwait w
      Issues i s c →
      let t := checked i s c
      let mine := (t.core c.id.core).cmds.filter (fun k => decide (k.w = c.id) && decide (k.wg = c.wave.wg) &&
        (all || decide (k.id.toNat = a % 65536)))
      ((∃ k ∈ mine, k.op.ladder = true) → exec i s = .next (t.stall s.cur)) ∧
      ((∀ k ∈ mine, k.op.ladder = false) → (∀ cmd reason, c.wave.ladderFail = some (cmd, reason) → all = false ∧ a % 65536 ≠ cmd % 65536) →
        Completes i s c (t.launch c (.mwait (mine.map (fun k => k.num))) [flagsReg])) ∧
      ((∀ k ∈ mine, k.op.ladder = false) → ∀ cmd reason, c.wave.ladderFail = some (cmd, reason) → all = true ∨ a % 65536 = cmd % 65536 →
        exec i s = .next ((t.updWave c.id (fun v => { v with ladderFail := none })).raiseAt c ⟨0x14, 0, cmd + reason * 2 ^ 16⟩ c.eff))) ∧
    (Issues (.smpLd w) s c → a < 8 →
      let t := checked (.smpLd w) s c
      let o := (c.sreg w.b 0).toNat
      let slot := sget SmpSlot.empty (t.core c.id.core).smp a
      let g := sget 0#128 c.wave.segs 15
      (slot.state = .free ∨ slot.tag = c.wave.wg) → slot.state ≠ .loading →
      (∀ k ∈ (t.core c.id.core).cmds, ∀ z qs, k.op = .product 2 z qs → ∀ q ∈ qs, bitsN q.head 10 8 ≠ a) →
      o % 32 = 0 → segValid g = true → 8 * o + 256 ≤ segLimit g →
      Completes (.smpLd w) s c ((t.updCore c.id.core (fun k => { k with
        smp := sset SmpSlot.empty k.smp a ⟨.loading, c.wave.wg, []⟩ })).launch c (.smpImage a o w.d.toNat) [w.d.toNat])))

/-- The ladder words (R350 to R356): a block or tile that fails a check of R353 raises; else commands are admitted, and a `lad.rung`
word leaves behind the ladder commands admitted before it. -/
def Obligations.LadderWords : Prop := ∀ (w : RWord) (s : State) (c : Ctx), c.eff ≠ 0#32 →
  let block := one c w.a
  let tile := one c w.b
  let cmd := fun (i : Instr) (t : Option Nat) (op : CmdOp) (units : Nat) => OnPath i s c 2 →
    (∀ r, ladderFail c.wg block t = some r → Raises i s c r c.eff) ∧ (ladderFail c.wg block t = none → Admits i w s c op units)
  cmd (.ladInit w) none (.ladInit block) 8 ∧
  cmd (.ladPush w) (some tile) (.ladPush block tile) 264 ∧
  cmd (.ladBlend w) (some tile) (.ladBlend (w.mod.getLsbD 0) block tile) 264 ∧
  (∀ form ∈ [0, 1, 2], let i : Instr := if form = 0 then .ladRungLd w else if form = 1 then .ladRungSt w else .ladRungCnt w
    OnPath i s c 0 →
    let t := checked i s c
    let rung := if form = 2 then 0 else tile
    let offs := if form = 2 then [] else c.lanes.map (fun l => (l, (c.opnd w.c l).toNat))
    let after := ((t.core c.id.core).cmds.filter (fun k => decide (k.wg = c.wave.wg) && decide (k.op.block = some block))).map (fun k => k.num)
    let data := if form = 1 then c.lanes.map (fun l => (l, c.wave.vget w.d.toNat l)) else []
    let regs := if form = 0 then [w.d.toNat] else if form = 2 then [w.d.toNat, w.d.toNat + 1] else []
    (∀ r, ladderFail c.wg block none = some r → Raises i s c r c.eff) ∧
    (ladderFail c.wg block none = none → 15 < rung → Raises i s c ⟨0x03, 8, c.word.toNat⟩ c.eff) ∧
    (ladderFail c.wg block none = none → rung ≤ 15 → ∀ o rest, offs.filter (fun o => decide (o.2 % 4 ≠ 0)) = o :: rest →
      Raises i s c ⟨0x0C, 0, o.2 % 2 ^ 32 + 3 * 2 ^ 60⟩ (maskOf ((o :: rest).map (fun x => x.1)))) ∧
    (ladderFail c.wg block none = none → rung ≤ 15 → (∀ o ∈ offs, o.2 % 4 = 0) →
      let u := t.launch c (.rung form block rung offs data w.d.toNat after) regs
      Completes i s c (if form = 1 then u.rungTry c.id t.tags else u)))

/-! ### Assumptions, directories and the census -/

/-- The `asm` words (R335 to R344): a checked descriptor or a handle leaves for the registry; the last diversion's record is read from
the lane's private area or cleared there. -/
def Obligations.AssumptionWords : Prop := ∀ (w : RWord) (s : State) (c : Ctx), c.eff ≠ 0#32 →
  let g := sget 0#128 c.wave.segs (w.minor % 16)
  let off := (c.sreg w.a 1 ++ c.sreg w.a 0 : Dword).toInt
  let desc := fun (i : Instr) (size : Nat) (op : Nat → Nat → AsmOp) => OnPath i s c 0 →
    Accesses i s c ((checked i s c).access c false true .load [(lowLane c.eff, segCheck g off size size .load)]) (fun accs u =>
      ∀ a d rest, accs = (a, d) :: rest →
        (u.poisoned a.pa = true ∨ (64 < size ∧ u.poisoned (a.pa + 64) = true) → exec i s = .next (u.raiseAt c ⟨0x10, 2, a.va⟩ c.eff)) ∧
        (u.poisoned a.pa = false → (64 < size → u.poisoned (a.pa + 64) = false) → Registers i w s c u (op a.va a.pa)))
  let named := fun (i : Instr) (region : Bool) (op : Nat → AsmOp) => OnPath i s c 0 →
    (region = true ∨ one c w.a ≤ 511 → Registers i w s c (checked i s c) (op (one c w.a))) ∧
    (region = false → 511 < one c w.a → Raises i s c (asmRaise false (one c w.a)) c.eff)
  desc (.asmNew w) 128 (fun va pa => .newObject va pa) ∧
  (32 ≤ c.wg.privBytes → desc (.asmDep w) 32 (fun va pa => .depend va pa (segBase (sget 0#128 c.wave.segs 15)))) ∧
  named (.asmTestObj w) false (fun n => .test false n) ∧ named (.asmTestReg w) true (fun n => .test true n) ∧
  named (.asmDropObj w) false (fun n => .drop false n) ∧ named (.asmDropReg w) true (fun n => .drop true n) ∧
  (let t := checked (.asmArm w) s c
   let n := one c w.a
   let o := (t.part c.wg.part).object n
   let bad := fun (r : Raise) => n ≤ 511 ∧ (t.part c.wg.part).owns c.wg.ctx n = true ∧ o.state ≠ .armed ∧ o.inFlight = false ∧
     t.watchPlan c.wg.part o = .error (.fault r)
   (∀ r, bad r → OnPath (.asmArm w) s c 0 → Raises (.asmArm w) s c r c.eff) ∧
   ((∀ r, ¬ bad r) → named (.asmArm w) false (fun n => .arm n))) ∧
  (∀ minor ∈ [0, 1, 2], let i : Instr := if minor = 0 then .asmInfoPc w else if minor = 1 then .asmInfoRec w else .asmInfoClr w
    OnPath i s c 0 →
    let offs := if minor = 0 then [20, 16] else [20]
    let at' := c.lanes.flatMap (fun l => offs.map (fun o => (l, (Except.ok (privAddr c.wave.record c.wg.vregs o l) : Except Raise Nat))))
    (c.wg.privBytes < 32 → Raises i s c ⟨0x0B, 0, 20 + 4 * 2 ^ 60⟩ c.eff) ∧
    (32 ≤ c.wg.privBytes → c.wave.blocked = true → exec i s = .next ((checked i s c).stall (checked i s c).cur)) ∧
    (32 ≤ c.wg.privBytes → c.wave.blocked = false →
      Accesses i s c ((checked i s c).access c true false (if minor = 2 then .store else .load) at') (fun accs u =>
        let p := u.performAll c.id none
        let v := p.fillPriv c.id.core c.wave.record (((plainAccs accs).filter (fun (a : LaneAcc) => decide (a.pa ≠ growPa))).map (fun a => a.pa))
        let word := fun (l n : Nat) => ((((plainAccs accs).filter (fun a => decide (a.lane = l))).map (fun (a : LaneAcc) =>
          if a.pa = growPa then 0#32 else
            BitVec.ofNat 32 (natOfBytes ((List.range 4).map (fun i => v.privByte c.id.core (a.pa + i)))))).getD n 0#32)
        Completes i s c (if minor = 2 then p.writeLocal c.id none
            ((plainAccs accs).flatMap (fun a => byteList (u.canon a.pa) (List.replicate 4 0#8)))
          else v.launch c (.result (c.lanes.map (fun l => ⟨w.d.toNat, l,
            if minor = 1 then word l 0 else if (word l 0).getLsbD 31 then word l 1 else 0xFFFFFFFF#32⟩))) [w.d.toNat]))))

/-- Directory, solicit, census and responder words (R362 to R372) where their operands pass their checks. -/
def Obligations.DirectoryAndCensusWords : Prop := ∀ (w : RWord) (s : State) (c : Ctx), c.eff ≠ 0#32 →
  let a := one c w.a
  let key := (c.sreg w.a 1).toNat % 2 ^ 16 * 2 ^ 32 + (c.sreg w.a 0).toNat
  (Issues (.dirIns w) s c →
    let t := checked (.dirIns w) s c
    let wside := (c.sreg w.a 1).getLsbD 24
    let space := if wside then Space.wb else Space.sp
    let o := (c.sreg w.a 2).toNat
    let n := (c.sreg w.a 3).toNat
    (c.sreg w.a 1).toNat < 2 ^ 25 → o % 64 = 0 → n % 64 = 0 → 0 < n → o + n ≤ c.wg.usable space →
    ((∀ e, e < 256 → ((t.core c.id.core).dir e).state ≠ .free) → Completes (.dirIns w) s c (fixed t c w 0x10000000#32 8)) ∧
    (∀ e, e < 256 → ((t.core c.id.core).dir e).state = .free → (∀ j, j < e → ((t.core c.id.core).dir j).state ≠ .free) →
      Completes (.dirIns w) s c (((t.updDir c.id.core e (fun _ => ⟨key, c.wg.ctx, wside, (c.wg.alloc space).start + o, n, .pending,
        (c.sreg w.a 1).toNat / 2 ^ 16 % 256, c.wave.wg⟩)).launch c (.dirCommit true e w.d.toNat) [w.d.toNat]).sendRoot c.wg.part
        (.insert c.id.core e c.id t.tags)))) ∧
  (Issues (.dirDel w) s c → a ≤ 255 →
    let t := checked (.dirDel w) s c
    let d := (t.core c.id.core).dir a
    (d.state = .free ∨ d.state = .pending ∨ d.wg ≠ c.wave.wg → Raises (.dirDel w) s c ⟨0x15, 0, a⟩ c.eff) ∧
    (d.wg = c.wave.wg → d.state = .moving → Completes (.dirDel w) s c (fixed t c w 0x20000000#32 8)) ∧
    (d.wg = c.wave.wg → d.state = .valid → Completes (.dirDel w) s c
      ((t.launch c (.dirCommit false a w.d.toNat) [w.d.toNat]).sendRoot c.wg.part (.delete c.id.core a c.id t.tags)))) ∧
  (Issues (.dirLook w) s c → (c.sreg w.a 1).toNat < 2 ^ 16 →
    let t := checked (.dirLook w) s c
    let hit := fun (e : Nat) =>
      let d := (t.core c.id.core).dir e
      (d.state = .valid ∨ d.state = .moving) ∧ d.wg = c.wave.wg ∧ d.key = key
    let gives := fun (x : Word) => Completes (.dirLook w) s c (t.updWave c.id (fun v => v.regSet w.d.toNat 0 x))
    ((∀ e, e < 256 → ¬ hit e) → gives 0xFFFFFFFF#32) ∧
    (∀ e, e < 256 → hit e → (∀ j, j < e → ¬ hit j) → gives (BitVec.ofNat 32 e))) ∧
  (Issues (.dirMov w) s c → a ≤ 255 → ∀ core n (g : Workgroup),
    let t := checked (.dirMov w) s c
    let d := (t.core c.id.core).dir a
    let r := one c w.b
    2 ≤ c.wg.ensSize → r < c.wg.ensSize → r ≠ c.wg.ensRank → d.wg = c.wave.wg → one c w.c % 64 = 0 →
    (d.state = .moving → Completes (.dirMov w) s c (fixed t c w 0x20000000#32 8)) ∧
    (d.state = .valid → (t.ensemble c.id.core c.wave.wg).find? (fun x => match t.wg x.1 x.2 with
        | some g => decide (g.ensRank = r)
        | none => false) = some (core, n) → t.wg core n = some g →
      Completes (.dirMov w) s c ((t.updDir c.id.core a (fun d => { d with state := .moving })).launch c
        (.dirMove a core n r (one c w.c) 0 1 w.d.toNat) [w.d.toNat])) ∧
    (d.state = .valid → (∀ x ∈ t.ensemble c.id.core c.wave.wg, ∀ g, t.wg x.1 x.2 = some g → g.ensRank ≠ r) →
      Completes (.dirMov w) s c ((t.updDir c.id.core a (fun d => { d with state := .moving })).launch c
        (.dirMove a c.id.core 128 r (one c w.c) 0 1 w.d.toNat) [w.d.toNat]))) ∧
  (Issues (.sol w) s c →
    let t := checked (.sol w) s c
    let h := c.opnd w.b (lowLane c.eff)
    let g := sget 0#128 c.wave.segs 15
    segValid g = true → 8 * h.toNat + 8 ≤ segLimit g → (c.sreg w.a 1).toNat < 2 ^ 16 → (c.sreg w.a 3).toNat < 2 ^ 16 →
    ∀ i, i < 4 → (c.wave.census.getD i CensusSlot.empty).busy = false → (∀ j, j < i → (c.wave.census.getD j CensusSlot.empty).busy = true) →
    ∃ p : Place, p.asker = c.id ∧ p.slot = i ∧ p.ctx = c.wg.ctx ∧ p.vf = c.wg.vf ∧ p.key = key ∧
      p.mask = (c.sreg w.a 3).toNat * 2 ^ 32 + (c.sreg w.a 2).toNat ∧ p.handler = h ∧ p.arg = c.opnd w.c (lowLane c.eff) ∧
      p.rule = w.minor % 8 ∧ p.ty = w.ty ∧ p.width = w.flags.toNat % 8 + 1 ∧ p.seg15 = g ∧
      Completes (.sol w) s c ((t.updWave c.id (fun v => { (v.regSet w.d.toNat 0 (BitVec.ofNat 32 i)) with
        census := v.census.set i { CensusSlot.empty with busy := true } })).updPart c.wg.part (fun q => { q with
          solicits := q.solicits ++ [⟨c.id, p⟩] }))) ∧
  (Issues (.cnsWait w) s c → a ≤ 3 → Completes (.cnsWait w) s c
    ((checked (.cnsWait w) s c).record c ⟨0x07, (c.wave.census.getD a CensusSlot.empty).id.toNat, a⟩)) ∧
  (Issues (.cnsRd w) s c → a ≤ 3 →
    let x := c.wave.census.getD a CensusSlot.empty
    (x.complete = false → Raises (.cnsRd w) s c ⟨0x15, 0, a⟩ c.eff) ∧
    (x.complete = true → Completes (.cnsRd w) s c ((checked (.cnsRd w) s c).updWave c.id (fun v =>
      { v.regWrites ((List.range 8).map (fun i => (⟨w.d.toNat + i, 0, x.reply.getD i 0#32⟩ : RegWrite)) ++
        [⟨w.d.toNat + 8, 0, x.count⟩, ⟨w.d.toNat + 9, 0, x.status⟩]) with census := v.census.set a CensusSlot.empty })))) ∧
  (Issues (.respEnd w) s c → ∀ r, c.wave.resp = some r →
    let t := checked (.respEnd w) s c
    exec (.respEnd w) s = .next ((t.countIssue c.id).responderEnd c.id r
      ⟨(List.range (t.place r.part r.place).width).map (fun i => c.wave.sreg (8 + i)), 1, 0, 0⟩))

/-! ### System words -/

/-- The system words (R252 to R259) in a context that may run them. -/
def Obligations.SystemWords : Prop := ∀ (w : RWord) (s : State) (c : Ctx), c.eff ≠ 0#32 →
  let scalars := fun (i : Instr) (xs : List Word) => Completes i s c ((checked i s c).updWave c.id (fun v =>
    v.regWrites ((List.range xs.length).map (fun n => ⟨w.d.toNat + n, 0, xs.getD n 0#32⟩))))
  let at' := fun (i : Instr) => checked i s c
  let result := fun (i : Instr) (u : State) (n : Nat) => Completes i s c (u.launch c (.result [⟨w.d.toNat, 0, BitVec.ofNat 32 n⟩]) [w.d.toNat])
  (Issues (.rdsr w) s c →
    let p := (at' (.rdsr w)).part c.wg.part
    scalars (.rdsr w) (match w.minor with
      | 0x00 => [sget 0xFFFFFFFF#32 (at' (.rdsr w)).trapbase c.wg.ctx]
      | 0x01 => halves (((at' (.rdsr w)).qcb c.wg.vf c.wg.queue).hyp.extractLsb' 576 64)
      | 0x02 => halves p.telebase
      | 0x03 => [p.shadow &&& 0x1F#32]
      | 0x04 => [p.tslice]
      | n => [BitVec.ofNat 32 (((at' (.rdsr w)).func c.wg.vf).feat.toNat / 2 ^ (32 * (n - 5)))])) ∧
  (Issues (.wrsr w) s c → (∃ f ∈ c.wave.flights, f.op.unperformed = true) →
    exec (.wrsr w) s = .next ((at' (.wrsr w)).stall (at' (.wrsr w)).cur)) ∧
  (Issues (.wrsr w) s c → (∀ f ∈ c.wave.flights, f.op.unperformed = false) →
    let x := c.opnd w.a (lowLane c.eff)
    let y := pairOf c w.a (lowLane c.eff)
    let t := at' (.wrsr w)
    let sets := fun (u : State) => Completes (.wrsr w) s c u
    (w.minor = 0 → sets { t with trapbase := sset 0xFFFFFFFF#32 t.trapbase c.wg.ctx x }) ∧
    (w.minor = 1 → sets (t.updQcb c.wg.vf c.wg.queue (fun q => { q with hyp := setBits q.hyp 639 576 y.toNat }))) ∧
    (w.minor = 2 → sets (t.updPart c.wg.part (fun p => { p with telebase := y }))) ∧
    (w.minor = 3 → sets (t.updPart c.wg.part (fun p => { p with shadow := BitVec.ofNat 32 (x.toNat % 32) }))) ∧
    (w.minor = 4 → sets (t.updPart c.wg.part (fun p => { p with tslice := x })))) ∧
  (Issues (.segBind w) s c →
    let g : BitVec 128 := c.sreg w.a 3 ++ c.sreg w.a 2 ++ c.sreg w.a 1 ++ c.sreg w.a 0
    let room := (segValid g = true → segBase g + segLimit g ≤ 2 ^ 60) ∧ (w.minor = 15 → segLimit g ≤ 2 ^ 34)
    (bitsN g 123 120 ≠ 0 → Raises (.segBind w) s c ⟨0x03, 8, c.word.toNat⟩ c.eff) ∧
    (bitsN g 123 120 = 0 → ¬ room → Raises (.segBind w) s c ⟨0x0A, 0, segBase g⟩ c.eff) ∧
    (bitsN g 123 120 = 0 → room →
      Completes (.segBind w) s c (((at' (.segBind w)).updWg c.id.core c.wave.wg (fun x => { x with
        segs := sset 0#128 x.segs w.minor g })).updWave c.id (fun v => { v with
          segs := sset 0#128 v.segs w.minor g
          codeSeg := if w.minor = 15 then some (v.codeSeg.getD (sget 0#128 v.segs 15)) else v.codeSeg })))) ∧
  (Issues (.ptok w) s c →
    let n := min (one c w.a) c.wg.tokensDeclared
    let u := (at' (.ptok w)).updWg c.id.core c.wave.wg (fun g => { g with tokensGranted := n })
    Completes (.ptok w) s c (if w.d = 0#9 then u else u.updWave c.id (fun v => v.regSet w.d.toNat 0 (BitVec.ofNat 32 n)))) ∧
  (Issues (.perf w) s c → scalars (.perf w) (halves (BitVec.ofNat 64 ((at' (.perf w)).perfRead c.id.core c.wg.part w.minor)))) ∧
  (Issues (.clk w) s c → scalars (.clk w) (halves (BitVec.ofNat 64 ((at' (.clk w)).pclk c.wg.part)))) ∧
  (Issues (.clkWave w) s c → ∀ first, c.wave.firstIssue = some first →
    scalars (.clkWave w) (halves (BitVec.ofNat 64 ((at' (.clkWave w)).clk - first)))) ∧
  (Issues (.halt w) s c →
    let u := ((at' (.halt w)).updWave c.id (fun v => { v with stopPending := true })).debugReport c.id c.wg.vf 0x22 c.pc
    Completes (.halt w) s c (u.telemetry c.wg.part
      (execEntry 0x03 0x22 c.id.core c.wg.ctx (c.id.sched * 32 + c.id.slot) (u.pclk c.wg.part) c.pc.toNat 0))) ∧
  (Issues (.tlbInvPage w) s c → result (.tlbInvPage w) ((at' (.tlbInvPage w)).dropTlbs c.wg.part (fun t =>
    let va := (pairOf c w.a (lowLane c.eff)).toNat
    decide (t.vf = c.wg.vf) && decide (t.va ≤ va) && decide (va < t.va + t.bytes))) 0) ∧
  (Issues (.tlbInvVf w) s c → result (.tlbInvVf w) ((at' (.tlbInvVf w)).dropTlbs c.wg.part (fun t => decide (t.vf = c.wg.vf))) 0) ∧
  (Issues (.tlbInvPart w) s c → result (.tlbInvPart w) ((at' (.tlbInvPart w)).dropTlbs c.wg.part (fun _ => true)) 0) ∧
  (Issues (.ctxSv w) s c →
    let rec' := (c.sreg w.a 1 ++ c.sreg w.a 0 : Dword).toNat
    let t := at' (.ctxSv w)
    let hit := recordOwner c.wg.vf rec' (fun (e : Nat × Option Workgroup) => e.2) (t.core c.id.core).wgs
    (hit = none → result (.ctxSv w) t 2) ∧
    (∀ i g, hit = some (i, g) → (∃ e ∈ t.ensemble c.id.core i, t.allParked e.1 e.2 = false) → result (.ctxSv w) t 1) ∧
    (∀ i g, hit = some (i, g) → (∀ e ∈ t.ensemble c.id.core i, t.allParked e.1 e.2 = true) →
      (t.eligible c.id.core i = false → exec (.ctxSv w) s = .next (t.stall s.cur)) ∧
      (t.eligible c.id.core i = true → result (.ctxSv w) (t.saveEnsemble c.id.core i) 0))) ∧
  (Issues (.ctxLd w) s c →
    let t := at' (.ctxLd w)
    let rec' := (c.sreg w.a 1 ++ c.sreg w.a 0 : Dword).toNat
    let hit := recordOwner c.wg.vf rec' (fun (x : Saved) => some x.wg) ((t.part c.wg.part).saved.filter (fun x => x.live))
    (hit = none → result (.ctxLd w) t 2) ∧
    (∀ x u, hit = some x → t.restore c.wg.part x c.id.core = .done u → result (.ctxLd w) u 0) ∧
    (∀ x n, hit = some x → t.restore c.wg.part x c.id.core = .status n → result (.ctxLd w) t n) ∧
    (∀ x, hit = some x → t.restore c.wg.part x c.id.core = .later → exec (.ctxLd w) s = .next (t.stall s.cur)))

/-- The privileged words in an unprivileged context raise PRIVILEGE for the effective mask, with no effect (R252, R180). -/
def Obligations.PrivilegedWordsTrap : Prop := ∀ (i : Instr) (s : State) (c : Ctx),
  i.shape.priv = true → s.ctxFor s.cur (optD (encode i) 0#64) i.shape.pred i.shape.m = some c → c.wave.resp = none →
  i.shape.illegal = none → s.missingFeature c.wg.vf i.shape = none → wordNeeds i c.wave ≠ some false → c.wg.vf ≠ 96 →
  exec i s = .next (s.raiseAt c ⟨0x05, 0, (optD (encode i) 0#64).toNat⟩ c.eff)

/-! ### Steps of waves -/

/-- Steps that a wave takes without a word: the timeout of a held set, results leaving the pending-write set, the prefill of a window,
the wake of a parked wave with its cycles counted, the delivery of a fault, and a fetched word that is no instruction (R50, R56, R57,
R176, R179, R233, R256, R448, R463). -/
def Sys2Proof.Claims.wavesStep : Prop := ∀ (s : State) (id : WaveId) (w : Wave), s.wave id = some w →
  (∀ h g, w.held = some h → s.wg id.core w.wg = some g → h.deadline ≤ s.pclk g.part →
    Becomes (.rwaitTimeout id) s (s.setWave id (some (w.heldEval (s.pclk g.part))))) ∧
  (∀ h, w.held = some h → s.pclk (s.partOfWave id) < h.deadline → Becomes (.rwaitTimeout id) s s) ∧
  Becomes (.fixedResultLatency id) s ((s.updWave id (fun v => { v with pend := v.live s.clk })).settle id) ∧
  (w.active = true ∨ (∃ k, w.parked = some k ∧ k.kind = 0x0D) → w.lastMarked = true → w.atMarker = false → w.stopped = false →
    w.faultPending = none →
    Becomes (.windowPrefill id) s ((s.prefill id).rebalance id.core id.sched)) ∧
  (∀ k, w.parked = some k →
    (s.wakeMet id w k = false → Becomes (.wakeConditionMet id) s s) ∧
    (s.wakeMet id w k = true → Becomes (.wakeConditionMet id) s
      ((((s.setWave id (some { w with
        parked := none
        activeSince := s.clk
        readySince := s.clk })).updCore id.core (fun c => { c with
          perf := sset 0 c.perf 2 (sget 0 c.perf 2 + (s.clk - w.parkedAt)) })).settle id).rebalance id.core id.sched))) ∧
  (∀ f, w.faultPending = some f →
    (w.live s.clk ≠ [] → Becomes (.faultDelivery id) s s) ∧
    (w.live s.clk = [] → w.walk = none → Becomes (.faultDelivery id) s (s.deliver id f)) ∧
    (w.live s.clk = [] → ∀ h, w.walk = some h →
      (h.refused = true → Becomes (.faultDelivery id) s (s.kill id 1 0x18 f.code 0 { f with xinfo := BitVec.ofNat 64 h.va })) ∧
      (h.refused = false → h.demand = true → Becomes (.faultDelivery id) s s) ∧
      (h.refused = false → h.demand = false →
        Becomes (.faultDelivery id) s ((s.setWave id (some { w with walk := none })).deliver id f)))) ∧
  (∀ x r a, decode x = .reject r a → Becomes (.encodingNotInstruction x) s (s.encodingFault s.cur x))

/-- A wave whose access misses the TLB holds its word for the walk: it parks 64 cycles after the miss, or at once for a pre-emption or a
debug stop (a REVOKE parks it in the step that applies it); the walk of its sector ends for every wave that joined it, whose page
fills the TLB of the wave's core and whose word translates again; a store's GROW page is mapped, or the map is refused and the wave
parks; a map whose leaves a watch holds is waited for (R104, R106, R108, R323, R477, R480). -/
def Sys2Proof.Claims.translationSteps : Prop := ∀ (s : State) (id : WaveId) (w : Wave) (h : WalkHold),
  s.wave id = some w → w.walk = some h →
  (w.parked = none → h.done = false → h.demand = false → h.refused = false →
    (h.start + 64 ≤ s.clk ∨ (s.core id.core).preempt ≠ none ∨ w.stopPending = true →
      Becomes (.translationWalkHoldExpiry id) s ((s.setWave id (some { w with
        parked := some ⟨0x0E, h.va / 4096, 0⟩
        parkedAt := s.clk
        stopped := w.stopped || w.stopPending
        stopPending := false })).rebalance id.core id.sched)) ∧
    (s.clk < h.start + 64 → (s.core id.core).preempt = none → w.stopPending = false →
      Becomes (.translationWalkHoldExpiry id) s s)) ∧
  (h.done = true ∨ h.demand = true → Becomes (.translationWalkComplete id) s s) ∧
  (h.done = false → h.demand = false →
    let vf := s.vfOfWave id
    let sec := sectorOf id.core
    let u := s.startWalk id.core vf h.va
    let joined := fun (k : Walk) => (sget [] u.walks sec).find? (fun x => x.serves vf (h.va / 4096) (u.level0 vf h.va)) = some k
    let left := fun (k : Walk) => ({ u with walks := sset [] u.walks sec ((sget [] u.walks sec).erase k) } : State)
    let done := fun (t : State) => t.updWave id (fun v => { v with walk := some { h with done := true } })
    ((∀ k, ¬ joined k) → Becomes (.translationWalkComplete id) s u) ∧
    (∀ k, joined k → Becomes (.translationWalkComplete id) s (u.finishWalk sec k)) ∧
    (∀ k v, joined k → k.cores = [id.core] → ((left k).core id.core).waveList id.core = [(id, v)] →
      (∀ code d, (left k).walk vf h.va = .bad code d → u.finishWalk sec k = done (left k)) ∧
      (∀ a, (left k).walk vf h.va = .grow a → u.finishWalk sec k = done (left k)) ∧
      (∀ p, (left k).walk vf h.va = .page p → u.finishWalk sec k = done ((left k).updCore id.core (fun c =>
        if (c.tlbFind p.vf h.va).isSome then c else c.tlbFill p))))) ∧
  (h.demand = true → h.refused = false → ∀ a t, s.walk (s.vfOfWave id) h.va = .grow a →
    (s.demandMap (s.vfOfWave id) h.va a 0 = (true, t) → (∀ p, t.walk (s.vfOfWave id) h.va ≠ .page p) → Becomes (.demandMap id) s t) ∧
    (∀ p, s.demandMap (s.vfOfWave id) h.va a 0 = (true, t) → t.walk (s.vfOfWave id) h.va = .page p →
      Becomes (.demandMap id) s (t.updWave id (fun v => { v with walk := some { h with
        demand := false
        done := true } }))) ∧
    (s.demandMap (s.vfOfWave id) h.va a 0 = (false, t) → w.parked = none → t.clk = s.clk →
      Becomes (.demandMap id) s (parks t id ⟨0x0C, h.va / 65536, 0⟩)))

/-- The steps of a wave: its wakes, deliveries and translations. -/
def Obligations.WaveSteps : Prop := Claims.wavesStep ∧ Claims.translationSteps

/-- What returns to a wave: direct loads and linkage reads, remote scratchpad replies, queue entries, pops and trims, rows of a gather,
images of score programs, and results of variable latency (R83, R94, R110, R176, R232, R264, R266, R267, R284, R287, R307, R484,
R489, R521). -/
def Obligations.AccessReturns : Prop := ∀ (s : State) (id : WaveId) (tag : Nat) (w : Wave) (f : Flight), Flying s id tag w f →
  let t := s.performAll id (some tag)
  (∀ accs size signed reg nl1 priv mask ws bad u, f.op = .load accs size signed reg nl1 priv mask → s.canPerform w f = true →
    t.readLoad id accs size signed reg nl1 priv mask = (ws, bad, u) →
    (bad = [] → Becomes (.directLoadReturn id tag) s (u.finishWith id f.tag ws)) ∧
    (∀ a rest, bad = a :: rest → Becomes (.directLoadReturn id tag) s ((u.deferFault id f 0x10 2
      (if reg < 0x100 then maskOf (bad.map (fun (a : LaneAcc) => a.lane)) else f.fmask) a.va).finishWith id f.tag ws))) ∧
  (∀ e reg act eff, f.op = .callRead e reg act eff → s.canPerform w f = true →
    Becomes (.directLoadReturn id tag) s (t.callReturn id f e reg act eff)) ∧
  (∀ core wg accs size signed reg data, w.blockedBefore tag = false →
    let u := s.countPasses core (passCount size (accs.map (fun (a : Nat × Nat) => (a.1, [a.2 / 4]))))
    (f.op = .remote true core wg accs size signed reg data →
      Becomes (.remoteScratchpadReply id tag) s ((u.writeSpace core .sp data).finish id tag)) ∧
    (f.op = .remote false core wg accs size signed reg data →
      Becomes (.remoteScratchpadReply id tag) s (u.finishWith id tag (u.readLocal core (some .sp) accs size signed reg)))) ∧
  (∀ q n accs size signed scalar nl1 mask, f.op = .fill q n accs size signed scalar nl1 mask → s.canPerform w f = true →
    Becomes (.queueEntryFill id tag) s ((s.performOne id f).tidy id.core)) ∧
  (∀ ws, f.op = .result ws → Becomes (.variableResultWrite id tag) s (s.finishWith id tag ws)) ∧
  (∀ q seq count reg es, f.op = .pop q seq count reg → count ≠ 0 →
    (s.queue id.core w.wg q).entries.filter (fun e => decide (e.group = seq)) = es → es.length = count →
    (∀ e ∈ es, e.filled = true) →
    let u := s.updQueue id.core w.wg q (fun d => d.discard seq)
    ((∀ e ∈ es, e.poison = none) →
      Becomes (.variableResultWrite id tag) s ((u.finishWith id f.tag (popWrites es reg f.fmask)).levelFell id.core w.wg)) ∧
    (∀ va, es.findSome? (fun e => e.poison) = some va →
      Becomes (.variableResultWrite id tag) s (((u.deferFault id f 0x10 2 f.fmask va).finish id f.tag).levelFell id.core w.wg))) ∧
  (∀ reg count, f.op = .trim reg count →
    let u := s.trimDrops (s.partOfWave id)
    let over' := ∀ x ∈ (u.part (s.partOfWave id)).trims, x.vf = s.vfOfWave id → u.trimQuiet x = true
    (over' → Becomes (.variableResultWrite id tag) s (u.finishWith id tag [⟨reg, 0, BitVec.ofNat 32 count⟩])) ∧
    (¬ over' → Becomes (.variableResultWrite id tag) s u)) ∧
  (∀ n base len rows lane, f.op = .gather n base len rows →
    let mine := rows.filter (fun a => decide (a.lane = lane))
    let rest := rows.filter (fun a => decide (a.lane ≠ lane))
    mine ≠ [] →
    (∀ a, s.rowPoison len mine = some a → Becomes (.gatherRowLand id tag lane) s
      (((s.engineFault id.core w.wg w.index f.pc 0x10 2 a.va).finish id tag).pruneBatches id.core)) ∧
    (s.rowPoison len mine = none →
      let u := s.updCore id.core (fun c => c.setSpaceBytes .ab (base + lane * len) (s.rowBytes (s.partOfWave id) f.applied len mine))
      Becomes (.gatherRowLand id tag lane) s (if rest = [] then (u.finish id tag).pruneBatches id.core
        else u.updWave id (fun v => v.setOp tag (.gather n base len rest))))) ∧
  (∀ slot o reg g img, f.op = .smpImage slot o reg → s.wg id.core w.wg = some g →
    (List.range 32).map (fun i => s.imageDword id g (sget 0#128 w.segs 15) (o + i)) = img.map Except.ok →
    let ok := (img.take 16).all smpValid
    Becomes (.smpImageFetchComplete id tag) s ((s.updCore id.core (fun k => { k with
      smp := sset SmpSlot.empty k.smp slot (if ok then ⟨.loaded, w.wg, img⟩ else ⟨.invalid, w.wg, []⟩) })).finishWith id tag
        [⟨reg, 0, if ok then 0#32 else 0x12#32⟩])) ∧
  (∀ slot o reg g code, f.op = .smpImage slot o reg → s.wg id.core w.wg = some g → code ≠ 0 →
    ((List.range 32).map (fun i => s.imageDword id g (sget 0#128 w.segs 15) (o + i))).findSome? (fun x => match x with
      | .error c => some c
      | .ok _ => none) = some code →
    Becomes (.smpImageFetchComplete id tag) s ((s.updCore id.core (fun k => { k with
      smp := sset SmpSlot.empty k.smp slot ⟨.invalid, w.wg, []⟩ })).finishWith id tag [⟨reg, 0, BitVec.ofNat 32 code⟩])) ∧
  (∀ accs size signed reg nl1 priv mask, f.op = .load accs size signed reg nl1 priv mask →
    Becomes (.deferredFaultKnown id tag) s (s.evDirectLoadReturn id f.tag))

/-- The copy engine and the trimmed frames: the next 64 B unit of a channel is visible in the local space or at its home, an outbound unit
whose registration is held waits, a fault contains the workgroup; a frame whose earlier accesses have completed is cleared and returns
to its pool (R110, R127, R282, R480, R486, R489). -/
def Obligations.CopySteps : Prop :=
  (∀ (s : State) (core wg chan : Nat) (g : Workgroup) (p : CopyPart) (rest : List CopyPart), s.wg core wg = some g →
    (sget Channel.fresh g.channels chan).todo = p :: rest →
    let space := copySpace p.dir
    let start := (g.alloc space).start + p.loc
    (s.channelRuns core g p = false → Becomes (.copyUnitVisible core wg chan) s s) ∧
    (s.channelRuns core g p = true →
    (p.dir < 3 → ∀ pa leaf, s.engineTranslate g.vf g.part p.va .load = .ok pa leaf →
      (s.poisoned pa = true → Becomes (.copyUnitVisible core wg chan) s (s.copyFault core wg chan p 0x10 2)) ∧
      (s.poisoned pa = false → Becomes (.copyUnitVisible core wg chan) s (((s.touchLeaf g.vf p.va false).updCore core (fun c =>
        c.setSpaceBytes space start (s.engineRead g.part (s.appliedMask core g.part) pa 64))).unitDone core wg chan p))) ∧
    (p.dir < 3 → ∀ a, s.engineTranslate g.vf g.part p.va .load = .grow a → Becomes (.copyUnitVisible core wg chan) s
      ((s.updCore core (fun c => c.setSpaceBytes space start (List.replicate 64 0#8))).unitDone core wg chan p)) ∧
    (3 ≤ p.dir → p.sent = none → ∀ pa leaf, s.engineTranslate g.vf g.part p.va .store = .ok pa leaf →
      let bytes := byteList pa ((s.core core).spaceBytes space start 64)
      let r := s.touchLeaf g.vf p.va true
      let t := r.register .engine g.ctx bytes
      (r.mustHold bytes = false → Becomes (.copyUnitVisible core wg chan) s (t.unitDone core wg chan p)) ∧
      (r.mustHold bytes = true → ∀ h, t.wg core wg = some h → (sget Channel.fresh h.channels chan).todo = p :: rest →
        Becomes (.copyUnitVisible core wg chan) s (channelTodo t core wg chan ({ p with sent := some pa } :: rest)))) ∧
    (3 ≤ p.dir → ∀ pa, p.sent = some pa → Becomes (.copyUnitVisible core wg chan) s
      (if (List.range 16).any (fun i => s.wordHeld (pa / 4 + i)) then s else s.unitDone core wg chan p)) ∧
    (3 ≤ p.dir → p.sent = none → ∀ a, s.engineTranslate g.vf g.part p.va .store = .grow a →
      Becomes (.copyUnitVisible core wg chan) s (s.demandMap g.vf p.va a 1).2) ∧
    (∀ code d, s.engineTranslate g.vf g.part p.va (if p.dir < 3 then .load else .store) = .bad code d → (p.dir < 3 ∨ p.sent = none) →
      Becomes (.copyUnitVisible core wg chan) s (s.copyFault core wg chan p code d)))) ∧
  (∀ (s : State) (core wg chan : Nat) (g : Workgroup), s.wg core wg = some g → (sget Channel.fresh g.channels chan).todo = [] →
    Becomes (.copyUnitVisible core wg chan) s s) ∧
  (∀ (s : State) (core wg chan : Nat), s.wg core wg = none → Becomes (.copyUnitVisible core wg chan) s s) ∧
  (∀ (s : State) (part : Nat),
    let u := s.trimDrops part
    let done := fun (t : State) (x : TrimFrame) => t.updPart part (fun q => { q with trims := q.trims.erase x })
    ((∀ x ∈ (u.part part).trims, u.trimQuiet x = false) → Becomes (.trimFrameReturn part) s u) ∧
    (∀ x, (u.part part).trims.find? (fun t => u.trimQuiet t) = some x →
      let count := u.poolField x.pool 351 288 + 4 * ((u.part part).rel x.frame / 65536)
      (x.pool = 0 → Becomes (.trimFrameReturn part) s (done u x)) ∧
      (x.pool ≠ 0 → u.trimHeld x count = true → Becomes (.trimFrameReturn part) s u) ∧
      (x.pool ≠ 0 → u.trimHeld x count = false → x.stage = 2 → Becomes (.trimFrameReturn part) s ((done u x).returnFrame part x)) ∧
      (x.pool ≠ 0 → u.trimHeld x count = false → x.stage ≠ 2 →
        let v := (skeys u.cores).foldl (fun (t : State) n => t.writeBack n (fun k => decide (k / 16384 = x.frame / 65536))) u
        let n := v.homeNat count 4 - 1
        let t := v.engineWrite 0 count (bytesOfNat n 4)
        (n ≠ 0 → Becomes (.trimFrameReturn part) s (done t x)) ∧
        (n = 0 → x.frame ∈ (t.part part).retiring → Becomes (.trimFrameReturn part) s ((done t x).returnFrame part x)) ∧
        (n = 0 → x.frame ∉ (t.part part).retiring →
          let z := (List.range 1024).foldl (fun (t : State) i => t.engineWrite 0 (x.frame + 64 * i) (List.replicate 64 0#8)) t
          let y : TrimFrame := { x with stage := 2 }
          (z.trimHeld y count = true → Becomes (.trimFrameReturn part) s (z.updPart part (fun q =>
            { q with trims := q.trims.map (fun r => if r = x then y else r) }))) ∧
          (z.trimHeld y count = false → Becomes (.trimFrameReturn part) s ((done z x).returnFrame part x))))))

/-! ### Steps at the homes -/

/-- Requests at their homes (R114 to R119, R271, R275, R277, R521): an acquire is granted to one wave at a time and otherwise waits; a
release publishes, counts and grants the next; an update that a watch holds takes its further effect when it has registered; a binding is entered or leaves; a cell that is POISONED, or whose bits 47:32 are not
zero, answers as the rules state. -/
def Sys2Proof.Claims.cellsStep : Prop := ∀ (s : State) (id : WaveId) (tag cell : Nat) (w : Wave) (f : Flight),
  ReachesHome s id tag cell w f →
  let t := atHome s id tag cell
  let me := t.identOf id w
  let holder := (t.cellWord cell).1
  let mid := (t.cellWord cell).2.1
  let count := (t.cellWord cell).2.2
  let becomes := Becomes (.cellRequestAtHome id tag) s
  (∀ va attempt reg mask phase n st, f.op = .acquire cell va attempt reg mask phase n st →
    phase = 0 ∨ phase = 1 ∧ s.updating cell tag = true →
    (t.updating cell tag = true → becomes (t.granted cell me tag)) ∧
    (t.updating cell tag = false →
    (mid ≠ 0 → becomes (t.answerAcquire me f.tag count 3)) ∧
    (mid = 0 → holder = 0xFFFF → becomes (t.answerAcquire me f.tag count 2)) ∧
    (mid = 0 → holder ≠ 0 → holder ≠ 0xFFFF → attempt = true → becomes (t.answerAcquire me f.tag count 1)) ∧
    (mid = 0 → holder ≠ 0 → holder ≠ 0xFFFF → attempt = false → t.holds cell me = true → becomes (t.answerAcquire me f.tag count 3)) ∧
    (mid = 0 → holder = 0 → ∀ ctx, t.ctxOfIdent me = some ctx →
      becomes (t.setCell cell ctx count f.tag (fun (u : State) => (u.updCell cell (fun h => { h with
        holder := some me
        place := u.placeOf me
        update := none })).answerAcquire me f.tag (u.cellWord cell).2.2 0))) ∧
    (mid = 0 → holder ≠ 0 → holder ≠ 0xFFFF → t.holds cell me = false → attempt = false →
      becomes ((t.updCell cell (fun h => { h with waiters := h.waiters ++ [(me, f.tag)] })).updWave id (fun v =>
        v.setOp f.tag (.acquire cell va attempt reg mask 1 n st)))))) ∧
  (∀ va len vf base remove, f.op = .bindRegion cell va len vf base remove →
    let bs := (sget CellHome.fresh t.cells cell).bindings
    (mid ≠ 0 ∨ t.holds cell me = false → becomes (t.syncFail id f va)) ∧
    (mid = 0 → t.holds cell me = true → remove = true → (len, vf, base) ∈ bs →
      becomes ((t.updCell cell (fun h => { h with bindings := h.bindings.erase (len, vf, base) })).finish id f.tag)) ∧
    (mid = 0 → t.holds cell me = true → remove = true → (len, vf, base) ∉ bs → becomes (t.syncFail id f va)) ∧
    (mid = 0 → t.holds cell me = true → remove = false → 8 ≤ bs.length ∨ (bs = [] ∧ 64 ≤ t.boundCells cell) →
      becomes (t.syncFail id f va)) ∧
    (mid = 0 → t.holds cell me = true → remove = false → bs.length < 8 → (bs ≠ [] ∨ t.boundCells cell < 64) →
      becomes ((t.updCell cell (fun h => { h with bindings := h.bindings ++ [(len, vf, base)] })).finish id f.tag))) ∧
  (∀ va entry reg, f.op = .linkage cell va entry reg →
    (holder = 0xFFFF → becomes ((t.deferFault id f 0x10 3 f.fmask va).finish id f.tag)) ∧
    (holder ≠ 0xFFFF → mid ≠ 0 → becomes (t.syncFail id f va))) ∧
  (∀ va, f.op = .release cell va →
    let free := fun (u : State) => ((u.updCell cell (fun h => { h with
      holder := none
      place := none
      update := none })).grantNext cell).finish id f.tag
    let p := fun (k : Nat) => inRuns (t.boundRuns cell) (4 * k) 4
    let u := t.writeBack id.core p
    (t.performedBefore id tag = false → becomes t) ∧
    (t.performedBefore id tag = true → t.updating cell f.tag = true → becomes (free t)) ∧
    (t.performedBefore id tag = true → t.updating cell f.tag = false →
    (u.published id.core p = false → becomes u) ∧
    (u.published id.core p = true → (u.cellWord cell).2.1 ≠ 0 ∨ u.holds cell (u.identOf id w) = false → becomes (u.syncFail id f va)) ∧
    (u.published id.core p = true → (u.cellWord cell).2.1 = 0 → u.holds cell (u.identOf id w) = true →
      becomes (u.setCell cell 0 ((u.cellWord cell).2.2 + 1) f.tag free))))

/-- Answers and registrations (R117, R120, R121, R124, R127, R275): a grant discards stale words and writes COUNT and the status; an
acknowledgement reaches its core; a word dirty for 65,536 cycles leaves the L1, and the clean words of a line that the core does not own
are dropped as long after their fill, with the sector's guest copy of it. -/
def Sys2Proof.Claims.answersAndRegistrations : Prop := (∀ (s : State) (id : WaveId) (tag : Nat) (w : Wave) (f : Flight) (cell va : Nat)
    (attempt : Bool) (reg mask : Nat) (count : Word) (status : Nat), Flying s id tag w f →
    f.op = .acquire cell va attempt reg mask 2 count status →
    let becomes := Becomes (.acquireGrant id tag) s
    (status = 0 → becomes (answered (s.discardRuns id.core (s.boundRuns cell)) id tag
      (if attempt then [⟨reg, 0, count⟩, ⟨reg + 1, 0, 0#32⟩] else ⟨reg, 0, count⟩ :: (if mask = 0 then [] else [⟨0x200 + mask, 0, 0#32⟩])))) ∧
    (status = 1 → becomes (answered s id tag [⟨reg, 0, count⟩, ⟨reg + 1, 0, 1#32⟩])) ∧
    (status = 2 → attempt = true → becomes (answered s id tag [⟨reg, 0, count⟩, ⟨reg + 1, 0, 2#32⟩])) ∧
    (status = 2 → attempt = false → mask ≠ 0 → becomes (answered s id tag [⟨reg, 0, count⟩, ⟨0x200 + mask, 0, 0xFFFFFFFF#32⟩])) ∧
    (status = 2 → attempt = false → mask = 0 → becomes ((s.deferFault id f 0x10 3 f.fmask va).finish id tag)) ∧
    (2 < status → becomes (s.syncFail id f va))) ∧
  (∀ (s : State) (core word : Nat),
    Becomes (.registrationAtHome core word) s (s.leaveL1 core word) ∧
    Becomes (.registrationAck core word) s ((s.ackWord core word).retryFences core) ∧
    (let w := sget L1Word.absent (s.core core).l1 word
     Becomes (.writeLeaveTimeout core word) s (if w.dirty ≠ 0#4 ∧ w.priv = 0 ∧ w.written + 65536 ≤ s.clk then s.leaveL1 core word else s))) ∧
  (∀ (s : State) (core line : Nat),
    let old := fun (k : Nat) (w : L1Word) =>
      decide (k / 128 = line) && !w.owned && decide (w.priv = 0) && decide (w.filled + 65536 ≤ s.clk)
    ((∃ e ∈ (s.core core).l1, old e.1 e.2 = true) → Becomes (.cleanLineExpiry core line) s
      ((s.updCore core (fun c => c.dropWords old)).dropGuests (fun sec a => decide (sec = sectorOf core) && decide (a / 512 = line)))) ∧
    ((∀ e ∈ (s.core core).l1, old e.1 e.2 = false) → Becomes (.cleanLineExpiry core line) s s))

/-- The steps of synchronisation cells, and answers and registrations. -/
def Obligations.CellSteps : Prop := Claims.cellsStep ∧ Claims.answersAndRegistrations

/-- A global atomic is performed a lane at a time at its home as one read and write (R127, R132, R272, R273, R485): the old value goes to
its queue entry, the new value is registered; a compare and swap writes only on equality; poison stops the lane's write; with every lane
done the entries fill or the reduction ends. -/
def Obligations.AtomicSteps : Prop := ∀ (s : State) (id : WaveId) (tag : Nat) (w : Wave) (f : Flight) (kind op size q seq : Nat)
    (todo : List AtomLane) (olds : List (Nat × Nat)), Flying s id tag w f → f.op = .atomic kind op size todo q seq olds →
  s.canPerform w f = true → (kind = 2 ∨ s.pushHeld id.core w.wg q tag = false) →
  (todo = [] → Becomes (.atomicAtHome id tag) s
    (((if kind = 2 then s else s.atomFill id w.wg q seq size olds).finish id tag).settleWg id.core w.wg)) ∧
  (∀ a rest, todo = a :: rest →
    let words := accWords (s.canon a.acc.pa) size
    let t := (s.performAll id (some tag)).yieldWords id.core words
    let put := fun (u : State) (todo : List AtomLane) (olds : List (Nat × Nat)) =>
      u.updWave id (fun v => v.setOp f.tag (.atomic kind op size todo q seq olds))
    (words.any (fun x => t.wordHeld x) = true → Becomes (.atomicAtHome id tag) s t) ∧
    (words.any (fun x => t.wordHeld x) = false → (∀ o ∈ olds, o.1 ≠ a.acc.lane) →
      (t.poisoned a.acc.pa = false → ∀ g, t.wg id.core w.wg = some g →
        let old := t.homeNat a.acc.pa size
        let bytes := if kind = 1 ∧ old ≠ a.x then [] else byteList (t.canon a.acc.pa)
          (bytesOfNat (if kind = 1 then a.y else atomNew op size old a.x) size)
        let held := decide (bytes ≠ []) && t.mustHold bytes
        Becomes (.atomicAtHome id tag) s (put (t.register (.core id.core) g.ctx bytes) (if held then a :: rest else rest)
          (olds ++ [(a.acc.lane, old)]))) ∧
      (t.poisoned a.acc.pa = true → kind = 2 → ∀ g, t.wg id.core w.wg = some g → Becomes (.atomicAtHome id tag) s
        (put (t.postRecord g.vf (plainRecord 0x10 3 0 2 g.ctx g.vf a.acc.va (t.pclk g.part)).bits) rest (olds ++ [(a.acc.lane, 0)]))) ∧
      (t.poisoned a.acc.pa = true → kind ≠ 2 → Becomes (.atomicAtHome id tag) s
        (put (t.updQueue id.core w.wg q (fun d => { d with
          entries := d.entries.map (fun e => if e.group = seq ∧ e.poison.isNone then { e with
            poison := some (a.acc.va / 64 * 64) } else e) })) rest (olds ++ [(a.acc.lane, 0)])))) ∧
    (words.any (fun x => t.wordHeld x) = false → (∃ o ∈ olds, o.1 = a.acc.lane) → Becomes (.atomicAtHome id tag) s
      (t.updWave id (fun v => v.setOp tag (.atomic kind op size rest q seq olds)))))

/-! ### Steps of the engines -/

/-- Commands of the matrix unit and row path start with what they will write (R149, R151, R298, R304, R311 to R314) and retire with their
words, flags and kept failure (R155, R157, R298, R474): a product's element is its chunk sums added one after the other to the word of
its tile, or to +0 under `.z`. -/
def Obligations.MatrixSteps : Prop :=
  (∀ (s : State) (core : Nat) (k : Cmd) (g : Workgroup), NextCommand s core k g →
    (∀ tile, k.op = .zero false tile → Starts s core k g 0 ⟨tileWrites (g.cb.start + tile) 1024 (fun _ => 0#32), [], 0#4, [], none⟩) ∧
    (∀ tile, k.op = .zero true tile → Starts s core k g 0 ⟨tileWrites (g.cb.start + tile) 4096 (fun _ => 0#32), [], 0#4, [], none⟩) ∧
    (∀ tile fs, k.op = .scale tile fs → ∃ fl, Starts s core k g 0 ⟨tileWrites (g.cb.start + tile) 1024 (fun i =>
      BitVec.ofNat 32 (f32.fmul 0 false (tileWord s core (g.cb.start + tile) i) (fs.getD (i / 32) 0#32).toNat).1), [], fl, [], none⟩) ∧
    (∀ tile dst, k.op = .rowStats 1 tile dst → ∃ fl, Starts s core k g 0 ⟨tileWrites (g.cb.start + dst) 32 (fun i =>
      (redTree (fun x y => let r := f32.fminmax true x.toNat y.toNat; (BitVec.ofNat 32 r.1, r.2)) 5
        ((List.range 32).map (fun c => BitVec.ofNat 32 (tileWord s core (g.cb.start + tile) (32 * i + c))))).1), [], fl, [], none⟩) ∧
    (∀ tile dst, k.op = .rowStats 2 tile dst → ∃ fl, Starts s core k g 0 ⟨tileWrites (g.cb.start + dst + 128) 32 (fun i =>
      (redTree (fun x y => let r := f32.fadd 0 false x.toNat y.toNat; (BitVec.ofNat 32 r.1, r.2)) 5
        ((List.range 32).map (fun c => BitVec.ofNat 32 (tileWord s core (g.cb.start + tile) (32 * i + c))))).1), [], fl, [], none⟩) ∧
    (∀ t tile d r, k.op = .transpose t tile d r → Starts s core k g 0 (s.runTrans core g.cb.start g t tile d r)) ∧
    (∀ kind zero q, k.op = .product kind zero [q] → kind ≠ 2 →
      let rows := s.quarterRows core k.wg kind q
      let len := if kClass (recFmt q.ra) ≤ 1 ∧ kClass (recFmt q.rb) ≤ 1 then 32 else 16
      ∃ fl dev, Starts s core k g 1 ⟨tileWrites (g.cb.start + q.c) 1024 (fun n => BitVec.ofNat 32
        (chunkElem (rows.1.getD (n / 32) []) (rows.2.getD (n % 32) []) len
          (if zero then 0 else tileWord s core (g.cb.start + q.c) n)).1), [], fl, dev, none⟩)) ∧
  (∀ (s : State) (core : Nat) (k : Cmd), (s.core core).cmds.find? (fun x => decide (x.num = k.num) && x.started) = some k →
    Becomes (.matrixCommandRetire core k.num) s (((s.retireCmd core k).retryCommands core).tidy core)) ∧
  (∀ (as bs : List FVal) (len acc : Nat), chunkElem as bs len acc = (List.range (as.length / len)).foldl (fun r c =>
    let t := f32.ofVal 0 false (chunkSum ((((as.drop (c * len)).take len).zip ((bs.drop (c * len)).take len)).map (fun p => p.1.mul p.2)))
    let u := f32.fadd 0 false r.1 t.1
    (u.1, r.2 ||| t.2 ||| u.2)) (acc, 0#4)) ∧
  (∀ (s : State) (core part id q time row col : Nat) (dev : Word), (s.core core).shadow.busy = some (id, q, time, dev, row, col) →
    s.partOfSector (sectorOf core) = some part →
    let t := (s.updCore core (fun c => { c with shadow := { (s.core core).shadow with
      busy := none
      skipped := 0 } })).telemetry part (BitVec.ofNat 256 (2 ^ 248 + core * 2 ^ 224 + id * 2 ^ 208 + q % 4 * 2 ^ 206 +
        time % 2 ^ 64 * 2 ^ 128 + dev.toNat * 2 ^ 96 + row * 2 ^ 88 + col * 2 ^ 80 + (s.core core).shadow.skipped % 2 ^ 32 * 2 ^ 32))
    let base := (t.part part).telebase.toNat
    let above := base ≠ 0 ∧ bitsN (BitVec.ofNat 512 (t.homeNat base 64)) 319 288 ≠ 0 ∧
      (f32.fcmp 4 dev.toNat (bitsN (BitVec.ofNat 512 (t.homeNat base 64)) 319 288)).1 = true
    (¬ above → Becomes (.shadowCheckComplete core) s t) ∧
    (above → Becomes (.shadowCheckComplete core) s (t.faultTrigger part 0 0)))

/-- Ladder commands (R345 to R351, R354, R355): a failing descriptor fails with its reason; initialisation empties the ladder and
validates it; a push merges the tile with the occupied rungs below the first free one, the older operand first, and counts; a blend
adds the occupied rungs, each with its weight. -/
def Obligations.LadderSteps : Prop := ∀ (s : State) (core : Nat) (k : Cmd) (g : Workgroup),
  (s.core core).cmds.find? (fun x => s.ladderReady core x) = some k → s.wg core k.wg = some g →
  let starts := fun (o : CmdOut) => Becomes (.ladderCommandStart core k.num) s (s.startCmd core k o)
  let l := fun (block : Nat) => s.ladder core g block
  (∀ block, k.op = .ladInit block →
    (∀ r, (l block).fail (g.usable .cb) true none = some r → starts ⟨[], [], 0#4, [], some r⟩) ∧
    ((l block).fail (g.usable .cb) true none = none → starts ⟨(l block).descOut 0 false, [], 0#4, [], none⟩)) ∧
  (∀ block tile, k.op = .ladPush block tile →
    (∀ r, (l block).fail (g.usable .cb) false (some tile) = some r → starts ⟨[], [], 0#4, [], some r⟩) ∧
    ((l block).fail (g.usable .cb) false (some tile) = none →
      let e := chainEnd (l block)
      let carry := (List.range e).foldl (fun a i => (l block).merge (s.rungWords core (l block) i) a)
        (s.tileWords core (g.cb.start + tile) ((l block).size / 4), 0#4)
      let absorb := decide (e + 1 = (l block).k) && (l block).occupied e
      let last := if absorb then (l block).merge (s.rungWords core (l block) e) carry else carry
      starts ⟨tileOut ((l block).rung e) last.1 ++ (l block).descOut (((l block).n + 1) % 2 ^ 32) ((l block).top || absorb), [],
        last.2, [], none⟩)) ∧
  (∀ acc block tile, k.op = .ladBlend acc block tile → (l block).fail (g.usable .cb) false (some tile) = none →
    starts (s.runBlend core (l block) acc tile))

/-! ### Steps of the registry -/

/-- The registry's operations (R336 to R340, R342): `asm.new` takes the lowest FREE slot, DISARMED; `asm.arm` translates, installs, reads
and evaluates; `asm.dep` registers a region whose handles are all ARMED; `asm.test` reports; `asm.drop` frees. -/
def Obligations.RegistrySteps : Prop := ∀ (s u : State) (id : WaveId) (tag : Nat) (w : Wave) (f : Flight) (g : Workgroup) (op : AsmOp)
    (reg : Nat), InRegistry s id tag w f g op reg u →
  let p := u.part g.part
  let answers := fun (x : Word) (t : State) => Becomes (.registryOperation id tag) s (t.finishWith id tag [⟨reg, 0, x⟩])
  let fails := fun (r : Raise) => Becomes (.registryOperation id tag) s ((u.deferFault id f r.code r.detail f.fmask r.xinfo).finish id tag)
  (∀ va pa, op = .newObject va pa → u.poisoned pa = true ∨ u.poisoned (pa + 64) = true → fails ⟨0x10, 2, va⟩) ∧
  (∀ va pa, op = .newObject va pa → u.poisoned pa = false → u.poisoned (pa + 64) = false →
    let bs := u.readBytes id.core g.part false f.applied pa 128
    let dws := (List.range 16).map (fun i => BitVec.ofNat 64 (natOfBytes ((bs.drop (8 * i)).take 8)))
    let hd := dws.headD 0#64
    (∀ k, objKind (bitsN hd 63 60) = some k →
      let o : AsmObject := ⟨.disarmed, g.ctx, g.vf, k, bitsN hd 59 56, dws.drop 1, [], [], false⟩
      (o.valid hd = false → fails ⟨0x13, 0, 0⟩) ∧
      (o.valid hd = true → ∀ h, (List.range 512).find? (fun h => decide ((p.object h).state = .free) && !(p.object h).inFlight) = some h →
        answers (statusWord 0 h) (u.updObject g.part h (fun _ => o))) ∧
      (o.valid hd = true → (∀ h, h < 512 → (p.object h).state ≠ .free ∨ (p.object h).inFlight = true) → answers (statusWord 1 0) u)) ∧
    (objKind (bitsN hd 63 60) = none → fails ⟨0x13, 0, 0⟩)) ∧
  (∀ h, op = .arm h →
    let o := p.object h
    (o.state = .free ∨ o.owner ≠ g.ctx → fails ⟨0x13, 0, h % 2048⟩) ∧
    (o.state = .armed → o.owner = g.ctx → answers (statusWord 0 0) u) ∧
    (o.state ≠ .free → o.state ≠ .armed → o.owner = g.ctx → o.inFlight = true → answers (statusWord 4 0) u) ∧
    (o.state ≠ .free → o.state ≠ .armed → o.owner = g.ctx → o.inFlight = false →
      (∀ r, u.watchPlan g.part o = .error (.fault r) → fails r) ∧
      (∀ n, u.watchPlan g.part o = .error (.noWatch n) → answers (statusWord 2 n) u)) ∧
    (o.state ≠ .free → o.state ≠ .armed → o.owner = g.ctx → o.inFlight = false → ∀ ps runs leaves,
      u.watchPlan g.part o = .ok (ps, runs, leaves) →
      let values := ps.map (fun a => u.homeNat a 8)
      let a := { o with
        state := .armed
        pas := ps
        values := values.map (fun x => BitVec.ofNat 64 x) }
      (u.watchRoom g.part ps runs = false → answers (statusWord 2 0) u) ∧
      (u.watchRoom g.part ps runs = true → a.holds values = false → answers (statusWord 3 0) u) ∧
      (u.watchRoom g.part ps runs = true → a.holds values = true →
        let t := u.updObject g.part h (fun _ => a)
        answers (statusWord 0 0) { t with watches := t.watches ++ watchEntries g.part h ps runs leaves }))) ∧
  (∀ n, op = .test false n → (p.object n).state ≠ .free → (p.object n).owner ≠ g.ctx → fails ⟨0x13, 0, n % 2048⟩) ∧
  (∀ n, op = .test false n → (p.object n).state = .free ∨ (p.object n).owner = g.ctx →
    let st := match (p.object n).state with
      | .free => 0
      | .disarmed => 1
      | .armed => 2
      | .broken => 3
    answers (statusWord 0 (st + (if (p.object n).inFlight then 8 else 0) + (p.regionsOf n).length * 2 ^ 12)) u) ∧
  (∀ n, op = .test true n ∨ op = .drop true n → 2047 < n ∨ ((p.region n).state ≠ .free ∧ (p.region n).owner ≠ g.ctx) →
    fails ⟨0x13, 0, n % 2048 + 2048⟩) ∧
  (∀ n, op = .test true n → n ≤ 2047 → (p.region n).state = .free ∨ (p.region n).owner = g.ctx →
    answers (statusWord 0 ((match (p.region n).state with
      | .free => 0
      | .active => 1
      | .revoked => 2) + (p.region n).breaking * 2 ^ 12)) u) ∧
  (∀ n, op = .drop false n → (p.object n).state = .free ∨ (p.object n).owner ≠ g.ctx → fails ⟨0x13, 0, n % 2048⟩) ∧
  (∀ n, op = .drop false n → (p.object n).state ≠ .free → (p.object n).owner = g.ctx →
    (p.regionsOf n ≠ [] → answers (statusWord 5 0) u) ∧
    (p.regionsOf n = [] → (p.object n).inFlight = true → answers (statusWord 4 0) u) ∧
    (p.regionsOf n = [] → (p.object n).inFlight = false →
      answers (statusWord 0 0) ((u.unwatch g.part n).updObject g.part n (fun _ => AsmObject.empty)))) ∧
  (∀ n, op = .drop true n → n ≤ 2047 → (p.region n).state = .free ∨ (p.region n).owner = g.ctx →
    answers (statusWord 0 0) (u.updRegion g.part n (fun r => { Region.empty with gen := r.gen + 1#32 }))) ∧
  (∀ va pa base, op = .depend va pa base → u.poisoned pa = true → fails ⟨0x10, 2, va⟩) ∧
  (∀ va pa base, op = .depend va pa base → u.poisoned pa = false →
    let d := BitVec.ofNat 256 (natOfBytes (u.readBytes id.core g.part false f.applied pa 32))
    (depValid d = false → fails ⟨0x13, 0, 0⟩) ∧
    (depValid d = true → ∀ h, (depHandles d).find? (fun h => !p.owns g.ctx h) = some h → fails ⟨0x13, 0, h % 2048⟩) ∧
    (depValid d = true → (∀ h ∈ depHandles d, p.owns g.ctx h = true) →
      let mine := (List.range 2048).find? (fun n => decide ((p.region n).state ≠ .free) && decide ((p.region n).owner = g.ctx) &&
        decide ((p.region n).descVa = va))
      (mine = none → (∀ n, n < 2048 → (p.region n).state ≠ .free) → answers (statusWord 1 0) u) ∧
      ∀ n, mine = some n ∨ (mine = none ∧ (List.range 2048).find? (fun n => decide ((p.region n).state = RegionState.free)) = some n) →
      ((∃ h ∈ depHandles d, (p.object h).state ≠ .armed) → answers (statusWord 3 0) u) ∧
      ((∀ h ∈ depHandles d, (p.object h).state = .armed) → answers (statusWord 0 n) (u.updRegion g.part n (fun r => { r with
        state := .active
        gen := r.gen + 1#32
        owner := g.ctx
        base := base
        descVa := va
        start := BitVec.ofNat 32 (bitsN d 255 224)
        stop := BitVec.ofNat 32 (bitsN d 223 192)
        fallback := BitVec.ofNat 32 (bitsN d 191 160)
        handles := depHandles d
        breaking := 0 })))))

/-- Held writes and revocations (R127, R322, R323, R327 to R331, R343, R495): a held write that breaks nothing is released; one that
breaks ARMED objects takes the lowest free revocation slot, or waits for one; each core of the partition applies REVOKE once, drops what it has decoded of the
regions and marks or diverts its waves; with all
acknowledgements the slice keeps the old bytes, the write registers and the broken objects' watches go; the slot is freed when no read
issued without its bit is in flight. -/
def Obligations.RevocationSteps : Prop :=
  (∀ (s : State) (num : Nat) (h : HeldWrite), Decided s num h →
    (s.broken h = [] → h.discard = true → Becomes (.heldWriteSliceRelease num) s (s.releaseHeld h)) ∧
    (s.broken h = [] → (∀ x ∈ s.heldObjects h, ((s.part x.1).object x.2).kind ≠ .disj) →
      Becomes (.heldWriteSliceRelease num) s (s.releaseHeld h)) ∧
    (s.broken h ≠ [] → Becomes (.heldWriteSliceRelease num) s s) ∧
    (s.broken h = [] → Becomes (.watchReportAtRegistry num) s s) ∧
    (∀ part n rest, s.broken h = (part, n) :: rest →
      let objs := n :: (rest.filter (fun x => decide (x.1 = part))).map (fun x => x.2)
      (∀ r, (s.part part).revWaiting = [] ∨ (s.part part).revWaiting.head? = some num →
        (List.range 8).find? (fun r => !(revocation s part r).busy) = some r →
        Becomes (.watchReportAtRegistry num) s (s.startRevocation part r h objs)) ∧
      ((∀ r, r < 8 → (revocation s part r).busy = true) →
        Becomes (.watchReportAtRegistry num) s (if (s.part part).revWaiting.contains num then s
          else s.updPart part (fun p => { p with revWaiting := p.revWaiting ++ [num] }))))) ∧
  (∀ (s : State) (h : HeldWrite), h.discard = false → s.releaseHeld h =
    let t := ({ s with heldWrites := s.heldWrites.filter (fun e => decide (e.num ≠ h.num)) } : State)
    (match h.party with
      | .core n => (t.updCore n (fun c => (wordsOf h.bytes).foldl (fun c w => c.dropClean w) c)).commitFor h.party h.ctx h.bytes
      | .engine => t.commitFor h.party h.ctx h.bytes).afterRelease h) ∧
  (∀ (s : State) (core part slot : Nat),
    let r := revocation s part slot
    (r.busy = true → r.applied.contains core = false → (s.part part).cores.contains core = true →
      let t := updRevocation s part slot { r with applied := r.applied ++ [core] }
      let u := (t.updCore core (fun c => c.dropDecoded (fun a =>
        decide (c.decoded ≠ []) && inRuns (t.codeRuns part r.regions) (8 * a) 8))).parkHolds core
      Becomes (.revokeApply core part slot) s (((u.core core).waveList core).foldl (fun s e => s.revokeWave part r.regions e.1) u)) ∧
    (r.applied.contains core = true → Becomes (.revokeApply core part slot) s s)) ∧
  (∀ (s : State) (part slot : Nat),
    let r := revocation s part slot
    (r.busy = true → r.combined = false → (∀ n ∈ (s.part part).cores, s.coreAcks part r n = true) →
      Becomes (.revokeAckCombine part slot) s (updRevocation s part slot { r with combined := true })) ∧
    ((∃ n ∈ (s.part part).cores, s.coreAcks part r n = false) → Becomes (.revokeAckCombine part slot) s s) ∧
    (r.busy = true → r.combined = true → r.released = false → ∀ h, s.heldWrite r.held = some h →
      let t := State.releaseHeld { s with
        shadows := s.shadows ++ h.bytes.map (fun b => (⟨b.1, s.homeByte b.1, part, slot⟩ : ShadowByte)) } h
      Becomes (.revokeRelease part slot) s (updRevocation (r.objects.foldl (fun (s : State) n =>
        (s.unwatch part n).updObject part n (fun o => { o with inFlight := false })) t) part slot { r with released := true })) ∧
    (r.combined = false → Becomes (.revokeRelease part slot) s s) ∧
    (r.busy = true → r.released = true →
      (∀ n ∈ (s.part part).cores, ∀ e ∈ (s.core n).waveList n, ∀ f ∈ e.2.flights, f.op.reads = true → f.applied.getLsbD slot = true) →
      (∀ x ∈ (s.part part).saved, ∀ w ∈ x.waves, ∀ f ∈ w.flights, f.op.reads = true → f.applied.getLsbD slot = true) →
      let t := updRevocation s part slot Revocation.empty
      Becomes (.revocationSlotFree part slot) s { t with
        shadows := s.shadows.filter (fun h => !(decide (h.part = part) && decide (h.slot = slot))) }) ∧
    (r.released = false → Becomes (.revocationSlotFree part slot) s s))

/-- The resonance directory (R361, R364 to R369, R371, R372, R471): messages take their place in root order, the commits that have arrived
before the solicits; a core applies them in that order; a move is checked and copied; a responder fails with its code; a Chanter node
combines once all its children have answered; the result reaches the asker's slot. -/
def Obligations.CensusSteps : Prop :=
  (∀ (s : State) (part index : Nat) (m : RootMsg) (rest : List RootMsg), (s.part part).rootInbox.drop index = m :: rest →
    Becomes (.rootOrderEntry part index) s (s.updPart part (fun q => { q with
      rootInbox := q.rootInbox.take index ++ q.rootInbox.drop (index + 1)
      rootLog := q.rootLog ++ [m] }))) ∧
  (∀ (s : State) (part index n : Nat) (r : SolicitReq) (rest : List SolicitReq), (s.part part).rootInbox.drop index = [] →
    (s.part part).solicits.drop (index - (s.part part).rootInbox.length) = r :: rest →
    (List.range 256).find? (fun n => !(sget Place.empty (s.part part).places n).busy) = some n →
    let k := index - (s.part part).rootInbox.length
    let gen := ((sget Place.empty (s.part part).places n).gen + 1) % 2 ^ 24
    Becomes (.rootOrderEntry part index) s ((s.updPart part (fun q => { q with
      solicits := q.solicits.take k ++ q.solicits.drop (k + 1)
      places := sset Place.empty q.places n { r.place with
        busy := true
        gen := gen }
      rootLog := q.rootLog ++ [.solicit n] })).updRecord part r.place.vf r.place.record (Wave.nameCensus r.place.slot (censusId n gen)))) ∧
  (∀ (s : State) (core part k n : Nat), s.rootNext core = some (part, k, .solicit n) →
    (9 ≤ (dedup ((s.core core).spawns.map (fun x => x.place))).length → Becomes (.solicitApply core) s s) ∧
    ((dedup ((s.core core).spawns.map (fun x => x.place))).length < 9 →
      Becomes (.solicitApply core) s ((s.rootPassed core (k + 1)).applySolicit part core n)) ∧
    Becomes (.directoryCommitApply core) s s) ∧
  (∀ (s : State) (core part k : Nat) (m : RootMsg), s.rootNext core = some (part, k, m) → (∀ n, m ≠ .solicit n) →
    (9 ≤ (dedup ((s.core core).spawns.map (fun x => x.place))).length → Becomes (.directoryCommitApply core) s s) ∧
    ((dedup ((s.core core).spawns.map (fun x => x.place))).length < 9 →
      Becomes (.directoryCommitApply core) s ((s.rootPassed core (k + 1)).applyCommit core m)) ∧
    Becomes (.solicitApply core) s s) ∧
  (∀ (s : State) (core e tag : Nat) (id : WaveId), s.applyCommit core (.insert core e id tag) =
    ((s.updDir core e (fun d => if d.state = .pending then { d with state := .valid } else d)).commitResult id tag e).dropIfOver core e) ∧
  (∀ (s : State) (part core n : Nat), (∀ e, e < 256 → ((s.core core).dir e).matches (s.place part n) = false) →
    s.applySolicit part core n = s.updPlace part n (fun p => { p with replies := sset none p.replies core (some (s.place part n).identity) })) ∧
  (∀ (d : DirEntry) (p : Place), d.matches p = true ↔
    (d.state = .valid ∨ d.state = .moving) ∧ d.ctx = p.ctx ∧ Nat.land d.key p.mask = Nat.land p.key p.mask) ∧
  (∀ (s : State) (id : WaveId) (tag e core wg rank o t reg : Nat) (w : Wave) (f : Flight), Flying s id tag w f →
    let d := (s.core id.core).dir e
    let space := if d.wside then Space.wb else Space.sp
    let fails := fun (status : Nat) => Becomes (.moveTargetCheck id tag) s
      (((s.updDir id.core e (fun d => { d with state := .valid })).finishWith id tag [⟨reg, 0, dirResult status 0⟩]).dropIfOver id.core e)
    (f.op = .dirMove e core wg rank o t 1 reg →
      (s.wg core wg = none → fails 3) ∧
      (∀ g, s.wg core wg = some g →
        ((core, wg) ∉ s.ensemble id.core w.wg ∨ g.usable space < o + d.len → fails 3) ∧
        ((core, wg) ∈ s.ensemble id.core w.wg → o + d.len ≤ g.usable space → (s.core core).freeDir = none → fails 1) ∧
        (∀ n, (core, wg) ∈ s.ensemble id.core w.wg → o + d.len ≤ g.usable space → (s.core core).freeDir = some n → Becomes (.moveTargetCheck id tag) s
          ((s.updDir core n (fun _ => { d with
            addr := (g.alloc space).start + o
            state := .pending
            wg := wg })).updWave id (fun v => v.setOp tag (.dirMove e core wg rank o n 2 reg)))))) ∧
    (f.op = .dirMove e core wg rank o t 2 reg →
      let moved := (s.updCore core (fun c => c.setSpaceBytes space (c.dir t).addr ((s.core id.core).spaceBytes space d.addr d.len))).updWave
        id (fun v => v.setOp tag (.dirMove e core wg rank o t 3 reg))
      Becomes (.moveCopyComplete id tag) s (moved.sendRoot (moved.partOfWave id) (.move id.core e core t id tag)))) ∧
  (∀ (s : State) (core slot code : Nat), Becomes (.responderFailure core slot code) s (s.responderFail ⟨core, slot, 32⟩ code)) ∧
  (∀ (s : State) (part place level node : Nat) (rs : List Reply), (s.place part place).busy = true → rs ≠ [] →
    ((s.part part).children level node).map (fun k => sget none (s.place part place).replies k) = rs.map some →
    sget none (s.place part place).replies (nodeKey level node) = none →
    Becomes (.chanterCombine part place level node) s (s.updPlace part place (fun p => { p with
      replies := sset none p.replies (nodeKey level node) (some (p.combine false rs)) }))) ∧
  (∀ (s : State) (part place : Nat), sget none (s.place part place).replies (nodeKey 4 0) = none →
    Becomes (.censusComplete part place) s s) ∧
  (∀ (s : State) (part place : Nat) (r : Reply), sget none (s.place part place).replies (nodeKey 4 0) = some r →
    let p := s.place part place
    let id := censusId place p.gen
    let t := s.updPart part (fun q => { q with
      places := sset Place.empty q.places place { Place.empty with gen := p.gen }
      saved := q.saved.map (fun x => if x.wg.vf = p.vf then { x with waves := x.waves.map (fun w => if w.record = p.record then
        w.takeCensus p.slot id r true else w) } else x) })
    let u := (t.part part).cores.foldl (fun s n => ((s.core n).waveList n).foldl (fun s e =>
      if s.hasRecord n e.2 p.vf p.record then (s.updWave e.1 (fun w => w.takeCensus p.slot id r false)).settle e.1
      else s) s) t
    Becomes (.censusComplete part place) s u) ∧
  (∀ (slot : Nat) (id : Word) (r : Reply) (w : Wave) (x : CensusSlot), w.census[slot]? = some x → x.busy = true → x.id = id →
    (w.takeCensus slot id r false).census = w.census.set slot { x with
      complete := true
      reply := (List.range 8).map (fun i => r.words.getD i 0#32)
      count := BitVec.ofNat 32 r.count
      status := if r.fails = 0 then 0#32 else BitVec.ofNat 32 (1 + min 255 r.fails * 2 ^ 8 + r.firstCode * 2 ^ 16) })

/-! ### Steps of the dispatcher -/

/-- Pre-emption (R58 to R66, R388, R465, R472, R473, R501): an eligible workgroup is evicted in its function's grace period; a core whose waves are
all at precise points is saved, and fails where that is not done in 8,192 cycles; a slice begins, is renewed, or expires; at the end of the grace period the cores that still hold the
function's work are pre-empted; a pending wave ready for 512 cycles displaces; the save-ahead engine writes back dirty units. -/
def Obligations.PreemptionSteps : Prop :=
  (∀ (s : State) (core wg : Nat) (g : Workgroup), s.wg core wg = some g →
    ((s.part g.part).grace ≠ none → (s.part g.part).slice.map (fun x => x.1) = some g.vf → s.eligible core wg = true →
      Becomes (.softPreemptionEvict core wg) s ((s.ensemble core wg).foldl (fun (s : State) e => s.saveWg e.1 e.2) s)) ∧
    (s.eligible core wg = false → Becomes (.softPreemptionEvict core wg) s s)) ∧
  (∀ (s : State) (core part start : Nat), (s.core core).preempt = some start → s.partOfSector (sectorOf core) = some part →
    let ws := ((s.core core).waveList core).filter (fun e => e.2.resp.isNone)
    let contained := ∃ e ∈ (s.core core).wgs, ∃ g, e.2 = some g ∧ g.contained ≠ none
    (s.clk ≤ start + 8192 → ¬ contained → (∀ e ∈ ws, e.2.precise = true) → s.ensCommands core = false →
      (∀ e ∈ (s.core core).wgs, s.busyWg core e.1 = false) →
      let ctx := match (s.core core).wgs with
        | (_, some g) :: _ => g.ctx
        | _ => 0
      let t := (((s.core core).wgs.map (fun e => e.1)).foldl (fun (s : State) i => s.saveWg core i) s).updCore core (fun c => { c with preempt := none })
      Becomes (.hardPreemption core) s (t.telemetry part (execEntry 0x04 0 core ctx ws.length (t.pclk part) 0 (t.clk - start)))) ∧
    (s.clk ≤ start + 8192 → contained ∨ (∃ e ∈ ws, e.2.precise = false) ∨ s.ensCommands core = true ∨
      (∃ e ∈ (s.core core).wgs, s.busyWg core e.1 = true) → Becomes (.hardPreemption core) s s) ∧
    (start + 8192 < s.clk → Becomes (.hardPreemption core) s ((s.updCore core (fun c => { c with preempt := none })).failUnit 0 core 0))) ∧
  (∀ (s : State) (part vf stop : Nat), (s.part part).slice = some (vf, stop) →
    (s.clk < stop → Becomes (.timeSliceExpiry part) s s) ∧
    (stop ≤ s.clk → (s.part part).grace = none → s.nextTenant part vf = none → Becomes (.timeSliceExpiry part) s (s.startSlice part vf)) ∧
    (stop ≤ s.clk → (s.part part).grace = none → s.nextTenant part vf ≠ none →
      Becomes (.timeSliceExpiry part) s (s.updPart part (fun p => { p with grace := some (s.clk + Config.gracePeriod) }))) ∧
    (∀ t, (s.part part).grace = some t → (t ≤ s.clk ∨ s.coresOf part vf = []) →
      let u := (s.coresOf part vf).foldl (fun (s : State) n => s.updCore n (fun c => { c with preempt := some s.clk })) s
      ∀ next, u.nextTenant part vf = some next → Becomes (.gracePeriodEnd part) s (u.startSlice part next)) ∧
    (∀ t, (s.part part).grace = some t → s.clk < t → s.coresOf part vf ≠ [] → Becomes (.gracePeriodEnd part) s s)) ∧
  (∀ (s : State) (part vf : Nat), (s.part part).slice = none →
    ((s.part part).tslice = 0#32 → Becomes (.timeSliceExpiry part) s s) ∧
    ((s.part part).tslice ≠ 0#32 → (s.part part).tenants.find? (fun t => s.hasWork part t) = some vf →
      Becomes (.timeSliceExpiry part) s (s.updPart part (fun p => { p with
        slice := some (vf, s.clk + s.sliceLen part vf)
        grace := none })))) ∧
  (∀ (s : State) (core sched : Nat) (p q : WaveId) (w v : Wave),
    let ws := s.schedWaves core sched
    let act := ws.filter (fun e => e.2.active)
    leastBy (fun w => w.readySince) (ws.filter (fun e => !e.2.active && e.2.wantsActive && decide (e.2.readySince + 512 ≤ s.clk) &&
      !act.any (fun a => decide (a.2.yields = some e.1.slot)))) = some (p, w) →
    leastBy (fun w => w.activeSince) (act.filter (fun e => e.2.parked.isNone && e.2.yields.isNone)) = some (q, v) →
    8 ≤ act.length → (∀ e ∈ act, e.2.parked = none) →
    let t := s.updWave q (fun w => { w with yields := some p.slot })
    let may := (v.lastMarked = true ∧ v.atMarker = false) ∨ v.slice ≠ none ∨ v.runnable = []
    (¬ may → Becomes (.pendingDisplacement core sched) s t) ∧
    (may → Becomes (.pendingDisplacement core sched) s (t.exchange q))) ∧
  (∀ (t : State) (p q : WaveId) (w v : Wave), p.core = q.core → p.sched = q.sched → t.wave q = some v → v.yields = some p.slot →
    t.wave p = some w → v.active = true → w.active = false → w.wantsActive = true →
    t.exchange q = (t.updWave q (fun w => { w with
      active := false
      yields := none
      readySince := if w.parked.isNone then t.clk else w.readySince })).updWave p (fun w => { w with
        active := true
        activeSince := t.clk
        prefilled := false
        yields := none })) ∧
  (∀ (s : State) (core part : Nat), s.partOfSector (sectorOf core) = some part →
    ((s.part part).tslice = 0#32 → Becomes (.saveAheadWriteback core) s s) ∧
    ((s.part part).tslice ≠ 0#32 → (s.core core).dirtySet ≤ 262144 →
      (∀ key line, (s.core core).rf.find? (fun e => e.2.dirty) = some (key, line) →
        Becomes (.saveAheadWriteback core) s ((s.lineOut core key).updCore core (fun c => { c with
          rf := sset RfLine.absent c.rf key { line with dirty := false } }))) ∧
      ((∀ e ∈ (s.core core).rf, e.2.dirty = false) →
        (∀ b x rest, (s.core core).dirtyBlocks = (b, x) :: rest →
          Becomes (.saveAheadWriteback core) s (s.updCore core (fun c => { c with dirtyBlocks := sset false c.dirtyBlocks b false }))) ∧
        ((s.core core).dirtyBlocks = [] → (∀ e ∈ (s.core core).l1, e.2.priv = 0 ∨ e.2.dirty = 0#4) →
          Becomes (.saveAheadWriteback core) s s)))) ∧
  (∀ (s : State) (core key : Nat) (w : Wave) (g : Workgroup), sget none (s.core core).waves (key / 256) = some w →
    sget none (s.core core).wgs w.wg = some g →
    s.lineOut core key = s.recordOut core g (w.record + 0x400 + 128 * (key % 256)) (w.lineBytes (key % 256))) ∧
  (∀ (s : State) (part index tag : Nat), (s.part part).saved.drop index = [] → Becomes (.lateArrival part index tag) s s) ∧
  (∀ (s : State) (part index tag : Nat), Becomes (.lateArrival part index tag) s
    (s.inLimbo part index (fun s => ((s.core limbo).waveList limbo).foldl (fun s e => match e.2.flight tag with
      | some f => s.landOne e.1 f
      | none => s) s)))

/-- Placement (R67 to R70, R386, R389, R390, R452): an index of the grid of the highest priority goes to the first cluster from the
pointer on that takes it; a placer starts its first block, an ensemble's on distinct cores; a placer without a startable block takes the
last blocks of the next cluster that has any; a finished grid is published, signalled and retired. -/
def Obligations.DispatchSteps : Prop :=
  (∀ (s : State) (part n c : Nat) (g : Grid), s.pickGrid part = some (n, g) →
    let cs := (s.part part).clusters
    let start := (s.part part).rrCluster
    (s.freeRecords g.vf part g.queue ((s.part part).unstarted g.vf g.queue + g.launch.waves * (g.launch.ens + 1))) ≠ none →
    (cs.drop start ++ cs.take start).find? (fun c => s.clusterTakes part c g.launch) = some c →
    let t := s.updPart part (fun p => { p with
      rrCluster := ((cs.takeWhile (fun x => decide (x ≠ c))).length + 1) % cs.length
      tcbs := sset [] p.tcbs c (sget [] p.tcbs c ++ (List.range (g.launch.ens + 1)).map (fun r => (⟨tcbBits s g r, n, g.next, r⟩ : Tcb)))
      grids := sset none p.grids n (some { g with
        next := g.next + 1
        placed := g.placed + g.launch.ens + 1 }) })
    Becomes (.dispatchIndex part) s (if g.next + 1 = g.launch.gx * g.launch.gy * g.launch.gz then
      t.updQcb g.vf g.queue (fun b => { b with dispatching := none }) else t)) ∧
  (∀ (s : State) (part : Nat), s.pickGrid part = none → Becomes (.dispatchIndex part) s s) ∧
  (∀ (s : State) (cluster part : Nat) (t : Tcb) (rest : List Tcb) (g : Grid), s.partOfSector (cluster / 8) = some part →
    (s.part part).sortTcbs (sget [] (s.part part).tcbs cluster) = t :: rest → sget none (s.part part).grids t.grid = some g →
    let all := t :: rest.filter (fun x => decide (x.grid = t.grid) && decide (x.index = t.index))
    let cores := s.roomy cluster g.launch.need
    ((s.part part).serves g.vf = true → all.length ≤ cores.length →
      s.freeRecords g.vf part g.queue (g.launch.waves * all.length) ≠ none →
      Becomes (.placerStart cluster) s ((all.zip cores).foldl (fun (u : State) x => u.startTcb part x.2 (s.part part).ensNum x.1)
        (s.updPart part (fun p => { p with
          ensNum := if 1 < all.length then p.ensNum + 1 else p.ensNum
          ensBarriers := p.ensBarriers.filter (fun b => decide (b.1 / 32 ≠ (s.part part).ensNum))
          tcbs := sset [] p.tcbs cluster ((sget [] p.tcbs cluster).filter (fun x => !all.contains x)) })))) ∧
    (cores.length < all.length → Becomes (.placerStart cluster) s s)) ∧
  (∀ (s : State) (cluster part v : Nat), s.partOfSector (cluster / 8) = some part → s.placerReady part cluster = false →
    (s.part part).duet = none →
    let cs := (s.part part).clusters
    ((cs.dropWhile (fun c => decide (c ≠ cluster))).drop 1 ++ cs.takeWhile (fun c => decide (c ≠ cluster))).find?
      (fun c => decide (sget [] (s.part part).tcbs c ≠ [])) = some v →
    let x := (s.part part).shipped (sget [] (s.part part).tcbs v)
    (sget [] (s.part part).tcbs cluster).length + x.length ≤ 16 →
    Becomes (.stealRequest cluster) s (s.updPart part (fun p =>
      let m := sset [] p.tcbs v ((sget [] p.tcbs v).filter (fun t => !x.contains t))
      { p with tcbs := sset [] m cluster (sget [] m cluster ++ x) }))) ∧
  (∀ (s : State) (part n : Nat) (g : Grid), sget none (s.part part).grids n = some g →
    (g.placed ≠ 0 ∨ (g.next < g.launch.gx * g.launch.gy * g.launch.gz ∧ g.contained = none) → Becomes (.gridComplete part n) s s) ∧
    (g.placed = 0 → (g.contained ≠ none ∨ g.launch.gx * g.launch.gy * g.launch.gz ≤ g.next) →
      (s.part part).cores.filter (fun c => (s.core c).l1.any (fun e => decide (e.2.ctx = ctxOf g.vf g.queue) &&
        (decide (e.2.dirty ≠ 0#4) || e.2.unacked))) = [] →
      let close := fun (s : State) => ((s.updPart part (fun p => { p with grids := sset none p.grids n none })).updQcb g.vf g.queue
        (fun b => { b with dispatching := if b.dispatching = some n then none else b.dispatching })).packetDone g.vf g.queue g.packet
      (∀ code, g.contained = some code → Becomes (.gridComplete part n) s ((close s).queueError g.vf g.queue code)) ∧
      (∀ pa, g.contained = none → g.signal = some pa →
        (s.heldAt pa 4 = true → Becomes (.gridComplete part n) s s) ∧ (s.heldAt pa 4 = false → Becomes (.gridComplete part n) s (close s))) ∧
      (g.contained = none → g.signal = none → g.launch.cell = 0 → Becomes (.gridComplete part n) s (close s)) ∧
      (g.contained = none → g.signal = none → g.launch.cell ≠ 0 →
        let r := s.signal part g.vf g.launch.cell 0 g.launch.cval.toNat
        let pa := s.cellOf part g.vf g.launch.cell
        (r = .wait → Becomes (.gridComplete part n) s s) ∧
        (∀ c d, r = .bad c d → Becomes (.gridComplete part n) s ((close s).queueError g.vf g.queue c)) ∧
        (∀ t, r = .done t → t.heldAt pa 4 = false → Becomes (.gridComplete part n) s (close t)) ∧
        (∀ t, r = .done t → t.heldAt pa 4 = true → Becomes (.gridComplete part n) s (t.updPart part (fun p => { p with
          grids := sset none p.grids n (some { g with signal := some pa }) }))))))

/-- Packets (R380 to R388, R488): WRITE registers, and a ring over its size sets ERROR; each packet has the effect of its type, in ring
order; a packet whose fields the rules do not admit is refused with its code; a SIGNAL or an UNMAP whose writes a watch holds retires
after their release, an UNMAP also after every access translated before. -/
def Obligations.PacketSteps : Prop :=
  (∀ (s : State) (vf q : Nat) (write : Word),
    let t := s.updQcb vf q (fun b => { b with half := setBits b.half 511 480 write.toNat })
    let b := t.qcb vf q
    Becomes (.queueWriteNotify vf q write) s (if 2 ^ bitsN b.hyp 511 507 < (b.write + 2 ^ 32 - b.read) % 2 ^ 32 ∧ b.state ≠ 4 ∧
      b.hyp.getLsbD 486 = true then t.queueError vf q 0x16 else t)) ∧
  (∀ (s u : State) (vf q part k : Nat) (p : BitVec 1024),
    (Taken s vf q 1 part k p u →
      (bitsN p 1023 32 = 0 → Becomes (.nopPacket vf q) s (retires u vf q k p false)) ∧
      (bitsN p 1023 32 ≠ 0 → Becomes (.nopPacket vf q) s (u.refusePacket part vf q 0x16 0 0))) ∧
    (Taken s vf q 3 part k p u → (s.qcb vf q).drain = [] →
      let va := bitsN p 95 32
      let r := u.signal part vf va (bitsN p 129 128) (bitsN p 127 96)
      (bitsN p 1023 130 ≠ 0 ∨ 1 < bitsN p 129 128 → Becomes (.signalPacket vf q) s (u.refusePacket part vf q 0x16 0 0)) ∧
      (bitsN p 1023 130 = 0 → bitsN p 129 128 ≤ 1 →
        (r = .wait → Becomes (.signalPacket vf q) s u) ∧
        (∀ t, r = .done t →
          let t' := t.begin' vf q k p none (p.getLsbD 9)
          (t'.heldAt (u.cellOf part vf va) 4 = false → Becomes (.signalPacket vf q) s (t'.packetDone vf q k)) ∧
          (t'.heldAt (u.cellOf part vf va) 4 = true →
            Becomes (.signalPacket vf q) s (t'.updQcb vf q (fun b => { b with drain := [(u.cellOf part vf va, 4)] })))) ∧
        (r = .bad 0x10 3 → Becomes (.signalPacket vf q) s ((retires u vf q k p (p.getLsbD 9)).queueError vf q 0x10)) ∧
        (∀ c d, r = .bad c d → (c, d) ≠ (0x10, 3) → Becomes (.signalPacket vf q) s (u.refusePacket part vf q c d va)))) ∧
    (Taken s vf q 4 part k p u → (s.qcb vf q).state ≠ 2 → bitsN p 1023 130 ≠ 0 ∨ 1 < bitsN p 129 128 →
      Becomes (.waitPacket vf q) s (u.refusePacket part vf q 0x16 0 0)) ∧
    (Taken s vf q 4 part k p u → (s.qcb vf q).state ≠ 2 → bitsN p 1023 130 = 0 → bitsN p 129 128 ≤ 1 → ∀ c d,
      u.cellAt part vf (bitsN p 95 32) = .error (c, d) → Becomes (.waitPacket vf q) s (u.refusePacket part vf q c d (bitsN p 95 32))) ∧
    (Taken s vf q 4 part k p u → (s.qcb vf q).state ≠ 2 → bitsN p 1023 130 = 0 → bitsN p 129 128 ≤ 1 → ∀ pa,
      u.cellAt part vf (bitsN p 95 32) = .ok pa →
      let count := (u.cellWord pa).2.2
      let met := if bitsN p 129 128 = 0 then wrapGe count (bitsN p 127 96) else decide (count = bitsN p 127 96)
      let t := u.touchLeaf vf (bitsN p 95 32) false
      (met = true → Becomes (.waitPacket vf q) s (retires t vf q k p false)) ∧
      (met = false → Becomes (.waitPacket vf q) s
        ((t.begin' vf q k p none false).updQcb vf q (fun b => { b.setState 2 with waited := true })))) ∧
    (∀ code, s.duetDiffers vf q = true → Becomes (.launch vf q code) s s) ∧
    (Taken s vf q 2 part k p u → s.duetDiffers vf q = false → ∀ code c d, u.readVa vf part (bitsN p 191 128) 256 = .error (c, d) →
      Becomes (.launch vf q code) s (u.refusePacket part vf q c d (bitsN p 191 128))) ∧
    (Taken s vf q 2 part k p u → s.duetDiffers vf q = false → ∀ code bs c d, u.readVa vf part (bitsN p 191 128) 256 = .ok bs →
      u.readTemplate part vf q = .error (c, d) →
      Becomes (.launch vf q code) s (u.refusePacket part vf q c d (bitsN (u.qcb vf q).hyp 703 640))) ∧
    (Taken s vf q 2 part k p u → s.duetDiffers vf q = false → ∀ code bs ts, u.readVa vf part (bitsN p 191 128) 256 = .ok bs →
      u.readTemplate part vf q = .ok ts →
      let u := (u.touchLeaf vf (bitsN p 191 128) false).touchLeaf vf (bitsN (u.qcb vf q).hyp 703 640) false
      let gs := (bindings bs).set 0 (setBits ((bindings bs).headD 0#128) 59 0 (bitsN p 255 192))
      let l := launchOf p (ssetList 0#128 [] 0 gs) code
      (bitsN p 191 128 % 16 ≠ 0 → Becomes (.launch vf q code) s (u.refusePacket part vf q 0x16 0 0)) ∧
      (∀ c d x, bitsN p 191 128 % 16 = 0 → u.launchFail vf q p l gs (bindings ts) = some (c, d, x) →
        Becomes (.launch vf q code) s (u.refusePacket part vf q c d x)) ∧
      (bitsN p 191 128 % 16 = 0 → u.launchFail vf q p l gs (bindings ts) = none →
        let n := (u.part part).gridNum
        Becomes (.launch vf q code) s (((u.updPart part (fun x => { x with
          gridNum := (n + 1) % 65536
          grids := sset none x.grids n (some ⟨true, vf, q, k, (u.qcb vf q).gridSeq, l, 0, 0, 0, none, none⟩) })).begin' vf q k p (some n)
            (p.getLsbD 9)).updQcb vf q (fun b => { b with
              gridSeq := (b.gridSeq + 1) % 65536
              dispatching := if l.gx * l.gy * l.gz = 0 then none else some n })))) ∧
    (Taken s vf q 5 part k p u → s.firmware = true →
      let shape := pageShape (bitsN p 194 192)
      let va := bitsN p 95 32
      let pa := bitsN p 191 128
      let bad := bitsN p 1023 203 ≠ 0 ∨ bitsN p 194 192 = 7 ∨ bitsN p 197 196 = 3 ∨ va % shape.1 ≠ 0 ∨ (p.getLsbD 195 = true ∧ pa ≠ 0) ∨
        pa % shape.1 ≠ 0
      (bad → Becomes (.mapPacket vf q) s (u.refusePacket part vf q 0x16 0 0)) ∧
      (¬ bad → bitsN p 127 96 = 1 → p.getLsbD 195 = false → (u.func vf).granted pa shape.1 = false →
        Becomes (.mapPacket vf q) s (u.refusePacket part vf q 0x0E 0 pa)) ∧
      (¬ bad → bitsN p 127 96 = 1 → p.getLsbD 195 = true ∨ (u.func vf).granted pa shape.1 = true →
        (u.leafAt vf va shape.2.1 = none → Becomes (.mapPacket vf q) s (u.refusePacket part vf q 0x0D 2 va)) ∧
        (∀ a, u.leafAt vf va shape.2.1 = some a →
          ((∃ i, i < shape.2.2.1 ∧ ∀ e, u.readPte (a + 8 * i) = some e → e.getLsbD 0 = true) →
            Becomes (.mapPacket vf q) s (u.refusePacket part vf q 0x0D 4 va)) ∧
          ((∀ i, i < shape.2.2.1 → ∃ e, u.readPte (a + 8 * i) = some e ∧ e.getLsbD 0 = false) →
            let t := u.engineWrite 0 a ((List.range shape.2.2.1).flatMap (fun _ => bytesOfNat (mapLeaf p shape.2.2.2 pa) 8))
            Becomes (.mapPacket vf q) s (retires (if p.getLsbD 202 then t.updPart part (fun x => { x with
              sharedLeaves := x.sharedLeaves ++ [(pa, vf, va)].filter (fun y => !x.sharedLeaves.contains y) }) else t) vf q k p false))))) ∧
    (Taken s vf q 6 part k p u → s.firmware = true → (s.qcb vf q).drain = [] →
      let shape := pageShape (bitsN p 194 192)
      let va := bitsN p 95 32
      (bitsN p 1023 196 ≠ 0 ∨ bitsN p 191 128 ≠ 0 ∨ bitsN p 194 192 = 7 ∨ va % shape.1 ≠ 0 →
        Becomes (.unmapPacket vf q) s (u.refusePacket part vf q 0x16 0 0)) ∧
      (bitsN p 1023 196 = 0 → bitsN p 191 128 = 0 → bitsN p 194 192 ≠ 7 → va % shape.1 = 0 → bitsN p 127 96 = 1 →
        (u.leafAt vf va shape.2.1 = none → Becomes (.unmapPacket vf q) s (u.refusePacket part vf q 0x0D 2 va)) ∧
        (∀ a, u.leafAt vf va shape.2.1 = some a →
          let ls := (List.range shape.2.2.1).map (fun i => BitVec.ofNat 64 (u.homeNat (a + 8 * i) 8))
          let v := u.engineWrite 0 a (ls.flatMap (fun e => bytesOfNat (if p.getLsbD 195
            then setBits (setBits (setBits (setBits e 0 0 0) 7 6 0) 51 12 0) 11 11 1 else 0#64).toNat 8))
          let frame := ptePa (ls.headD 0#64)
          let r := ((((v.updPart part (fun x => { x with
            trims := x.trims ++ u.unmapTrims vf va shape.2.2.1 shape.1 a
            sharedLeaves := if v.heldAt a (8 * shape.2.2.1) then x.sharedLeaves
              else x.sharedLeaves.filter (fun y => decide (y ≠ (frame, vf, va))) })).trimDrops part).begin' vf q k p none false).updQcb vf q
                (fun b => { b with drain := [(a, 8 * shape.2.2.1)] })).trimDrops part
          Becomes (.unmapPacket vf q) s (r.drained vf q (r.unmapQuiet part vf (r.qcb vf q).drain)))))) ∧
  (∀ (s : State) (vf q part : Nat) (x : Started) (rest : List Started), s.partOfVf vf = some part →
    (s.qcb vf q).started = x :: rest → (s.qcb vf q).drain ≠ [] →
    let over' := fun (t : State) => (t.updQcb vf q (fun b => { b with drain := [] })).packetDone vf q x.packet
    (bitsN x.bits 7 0 = 3 →
      ((∀ r ∈ (s.qcb vf q).drain, s.heldAt r.1 r.2 = false) → Becomes (.signalPacket vf q) s (over' s)) ∧
      ((∃ r ∈ (s.qcb vf q).drain, s.heldAt r.1 r.2 = true) → Becomes (.signalPacket vf q) s s)) ∧
    (bitsN x.bits 7 0 = 6 →
      let t := s.trimDrops part
      let done := (∀ r ∈ (s.qcb vf q).drain, t.heldAt r.1 r.2 = false) ∧ t.unmapQuiet part vf (s.qcb vf q).drain = true
      (done → Becomes (.unmapPacket vf q) s (over' t)) ∧ (¬ done → Becomes (.unmapPacket vf q) s t))) ∧
  (∀ (p : BitVec 1024) (contig pa : Nat), pa % 4096 = 0 → pa < 2 ^ 52 → contig < 4 → p.getLsbD 195 = false →
    let e := BitVec.ofNat 64 (mapLeaf p contig pa)
    bitsN e 57 56 = bitsN p 197 196 ∧ bitsN e 51 12 = pa / 4096 ∧ e.getLsbD 10 = p.getLsbD 202 ∧ bitsN e 9 8 = contig ∧
    e.getLsbD 5 = p.getLsbD 201 ∧ e.getLsbD 4 = p.getLsbD 200 ∧ e.getLsbD 3 = p.getLsbD 199 ∧ e.getLsbD 2 = p.getLsbD 198 ∧
    e.getLsbD 1 = true ∧ e.getLsbD 0 = true)

/-- Registered chains (R285, R322, R391, R392, R424, R505): COPY and REDUCE move their entry 64 B at a time, REDUCE combining with the
destination as the older operand; a unit whose write is held is waited for; ALLREDUCE waits for every other member; SIGNAL and WAIT act on
a cell; a complete entry advances SEQ and a failing one stops the chain with SEQ kept. -/
def Obligations.ChainSteps : Prop := ∀ (s u : State) (part chain seq : Nat) (x : Chain) (e : BitVec 512),
  let src := bitsN e 127 64 + x.offset
  let dst := bitsN e 191 128 + x.offset
  let cell := bitsN e 319 256
  let len := bitsN e 255 192
  let v := u.touchLeaf x.vf src false
  let pa := u.cellOf part x.vf cell
  let moves := fun (i : Instr) => (len ≤ x.offset → Becomes i s (u.chainNext part x seq)) ∧
    (x.offset < len → x.waiting = true → ∀ pa leaf, u.engineTranslate x.vf part dst .store = .ok pa leaf →
      (u.heldAt pa 64 = true → Becomes i s u) ∧
      (u.heldAt pa 64 = false → Becomes i s (u.updChain part x.num (fun c => { c with
        offset := c.offset + 64
        waiting := false }))))
  (Works s part chain 1 x seq e u → moves (.chainCopy part chain) ∧
    (x.offset < len → x.waiting = false →
      (∀ a, u.engineUnit part x.vf src = .ok a → Becomes (.chainCopy part chain) s (v.chainUnit part x seq dst a)) ∧
      (∀ c d, u.engineUnit part x.vf src = .error (c, d) → Becomes (.chainCopy part chain) s (u.chainStop part x seq c d)))) ∧
  (Works s part chain 2 x seq e u → moves (.chainReduce part chain) ∧
    (x.offset < len → x.waiting = false →
      (∀ a b, u.engineUnit part x.vf src = .ok a → v.engineUnit part x.vf dst = .ok b →
        Becomes (.chainReduce part chain) s (v.chainUnit part x seq dst (redBytes (bitsN e 11 8) (bitsN e 14 12) b a))) ∧
      (∀ c d, u.engineUnit part x.vf src = .error (c, d) → Becomes (.chainReduce part chain) s (u.chainStop part x seq c d)) ∧
      (∀ a c d, u.engineUnit part x.vf src = .ok a → v.engineUnit part x.vf dst = .error (c, d) →
        Becomes (.chainReduce part chain) s (v.chainStop part x seq c d)))) ∧
  (Works s part chain 3 x seq e u → ∀ others,
    (u.groups.find? (fun g => decide (g.1 = bitsN e 63 32)) = none →
      Becomes (.chainAllreduce part chain others) s (u.chainStop part x seq 0x1A 0)) ∧
    (∀ n members, u.groups.find? (fun g => decide (g.1 = bitsN e 63 32)) = some (n, members) →
      (u.hasFeat x.vf 9 = false → Becomes (.chainAllreduce part chain others) s (u.chainStop part x seq 0x04 0)) ∧
      (u.hasFeat x.vf 9 = true → members.contains u.package = false →
        Becomes (.chainAllreduce part chain others) s (u.chainStop part x seq 0x1A 0)) ∧
      (u.hasFeat x.vf 9 = true → members.contains u.package = true →
        (len ≤ x.offset → Becomes (.chainAllreduce part chain others) s (u.chainNext part x seq)) ∧
        (x.offset < len → x.waiting = false →
          let away := members.filter (fun m => decide (m ≠ u.package))
          ((∃ m ∈ away, ∀ o ∈ others, o.1 = m → o.2.length < len) → Becomes (.chainAllreduce part chain others) s u) ∧
          (∀ own, (∀ m ∈ away, ∃ o ∈ others, o.1 = m ∧ len ≤ o.2.length) →
            u.engineUnits part x.vf (bitsN e 127 64) (len / 64) = .ok own →
            let data := (u.package, own) :: (others.filter (fun o => away.contains o.1)).map (fun o => (o.1, o.2.take len))
            Becomes (.chainAllreduce part chain others) s (u.chainUnit part x seq dst
              (((allreduceTree (bitsN e 11 8) (bitsN e 14 12) data).drop x.offset).take 64))))))) ∧
  (Works s part chain 4 x seq e u →
    (x.waiting = true → Becomes (.chainSignal part chain) s (if u.heldAt pa 4 then u else u.chainNext part x seq)) ∧
    (x.waiting = false →
      (∀ t, u.signal part x.vf cell 0 (bitsN e 351 320) = .done t →
        (t.heldAt pa 4 = false → Becomes (.chainSignal part chain) s (t.chainNext part x seq)) ∧
        (t.heldAt pa 4 = true → Becomes (.chainSignal part chain) s (t.updChain part x.num (fun c => { c with waiting := true })))) ∧
      (∀ c d, u.signal part x.vf cell 0 (bitsN e 351 320) = .bad c d →
        Becomes (.chainSignal part chain) s (u.chainStop part x seq c d)))) ∧
  (Works s part chain 5 x seq e u →
    (∀ a, u.cellAt part x.vf cell = .ok a →
      let t := u.touchLeaf x.vf cell false
      Becomes (.chainWaitEntry part chain) s (if wrapGe (t.cellWord a).2.2 (bitsN e 351 320) then t.chainNext part x seq else t)) ∧
    (∀ c d, u.cellAt part x.vf cell = .error (c, d) → Becomes (.chainWaitEntry part chain) s (u.chainStop part x seq c d))) ∧
  (∀ (a : Nat) (bs : List Byte) leaf, s.engineTranslate x.vf part dst .store = .ok a leaf →
    s.chainUnit part x seq dst bs = ((s.touchLeaf x.vf dst true).register .engine x.ctx (byteList a bs)).updChain part x.num
      (fun c => if s.mustHold (byteList a bs) then { c with waiting := true } else { c with offset := c.offset + 64 })) ∧
  (∀ a leaf,
    let t := s.updChain part x.num (fun c => { c with
      offset := 0
      waiting := false })
    t.engineTranslate x.vf part (x.desc + 40) .store = .ok a leaf →
    s.chainNext part x seq = (t.touchLeaf x.vf (x.desc + 40) true).engineWrite x.ctx a (bytesOfNat ((seq + 1) % 2 ^ 32) 4))

/-! ### Containment and errors -/

/-- Containment, kills, records and the firmware (R393, R425, R449 to R452, R461, R491 to R495, R507, R508, R510, R511): each takes
effect once; a contained workgroup waits until its waves stand at precise points; three missed heartbeats make the standby take over;
power-on keeps the images and what lies outside the package and resets the rest. -/
def Obligations.ContainmentSteps : Prop :=
  (∀ (s : State) (core wg : Nat) (g : Workgroup), s.wg core wg = some g →
    (g.contained = none → Becomes (.workgroupContainment core wg) s s) ∧
    (∀ r, g.contained = some r → (∃ e ∈ s.wavesOf core wg, e.2.precise = false) → Becomes (.workgroupContainment core wg) s s) ∧
    (∀ r, g.contained = some r → (∀ e ∈ s.wavesOf core wg, e.2.precise = true) →
      let t := ((s.wavesOf core wg).foldl (fun (s : State) e => s.updWave e.1 (fun w => { w with
        slice := none
        ladderFail := none })) s).cancelMoves g.part core wg
      (t.containBusy core wg g = true → Becomes (.workgroupContainment core wg) s t) ∧
      (t.containBusy core wg g = false →
        let mine := (t.core core).dirs.filter (fun d => decide (d.2.wg = wg) && decide (d.2.state ≠ .free))
        let v := mine.foldl (fun (s : State) d => if d.2.state = .valid then s.sendDelete g.part core d.1 else s) t
        (mine ≠ [] ∨ v.tileBusy core wg = true → Becomes (.workgroupContainment core wg) s v) ∧
        (mine = [] → t.tileBusy core wg = false →
          let u := ((t.poisonHeld (wgIdents g.vf ((t.wavesOf core wg).map (fun e => e.2)))).dropPriv core false g.records).dropWaves core wg
          Becomes (.workgroupContainment core wg) s
            (((u.gridContained g.part g.grid (bitsN r 511 504)).removeWg core wg g).postRecord g.vf r))))) ∧
  (∀ (s : State) (p : Posting) (rest : List Posting), s.postings = p :: rest → s.complexUp = true →
    let t := { s with postings := rest }
    let u := t.updFunc p.vf (fun f => if 256 ≤ f.records.length then { f with lost := min (f.lost + 1) 65535 }
      else { f with
        records := f.records ++ [setBits p.bits 130 115 f.lost]
        lost := 0
        pba := sset false f.pba 66 true })
    (∀ n, u.partOfVf p.vf = some n → Becomes .faultRecordPost s (u.faultTrigger n 4 (bitsN p.bits 511 504))) ∧
    (u.partOfVf p.vf = none → Becomes .faultRecordPost s u)) ∧
  (∀ (s : State) (ctx code part : Nat), ctx ≠ 0 → s.partOfVf (ctxVf ctx) = some part →
    Becomes (.contextKill ctx code) s (s.killCtx part ctx code 0 0 true)) ∧
  (∀ (s t : State) (part index core : Nat) (x : Saved) (rest : List Saved), (s.part part).saved.drop index = x :: rest →
    ((s.part part).slice = none ∨ ∃ n, (s.part part).slice = some (x.wg.vf, n) ∧ (s.part part).grace = none) → x.live = true →
    (s.part part).cores.contains core = true → (s.core core).preempt = none →
    s.restore part x core = .done t → Becomes (.contextRestore part index core) s t) ∧
  (∀ (s : State) (part index core n : Nat) (x : Saved) (rest : List Saved), (s.part part).saved.drop index = x :: rest →
    (∀ vf m, (s.part part).slice = some (vf, m) → vf ≠ x.wg.vf → Becomes (.contextRestore part index core) s s) ∧
    (s.restore part x core = .status n → n ≠ 4 → Becomes (.contextRestore part index core) s s)) ∧
  (∀ (s : State) (part code : Nat),
    (∀ c, (s.part part).health = .contained c → Becomes (.partitionContainment part code) s s) ∧
    ((s.part part).health = .serving → (s.part part).sectors ≠ 0#12 →
      Becomes (.partitionContainment part code) s ((s.stopPart part code 4).clearPart part)) ∧
    (∀ c, (s.part part).health = .contained c → s.firmware = true → (s.part part).sectors &&& s.failedSectors = 0#12 →
      Becomes (.partitionReinitialised part) s ((s.resetPart part).postTenants part 0x01 part)) ∧
    ((s.part part).health = .serving → Becomes (.partitionReinitialised part) s s)) ∧
  (∀ s : State,
    (s.packageContained = true → Becomes .packageContainment s s) ∧
    (s.packageContained = false → Becomes .packageContainment s { (skeys s.parts).foldl (fun (s : State) n => match (s.part n).health with
      | .serving => if (s.part n).sectors = 0#12 then s else s.stopPart n 0x10 5
      | .contained _ => s) s with packageContained := true }) ∧
    Becomes (.heartbeat false) s { s with missed := 0 } ∧
    (s.missed < 2 → Becomes (.heartbeat true) s { s with missed := s.missed + 1 }) ∧
    (2 ≤ s.missed → Becomes (.heartbeat true) s (s.complexFails s.activeB)) ∧
    Becomes .firmwareFailover s (s.complexFails s.activeB) ∧
    Becomes .standbyFailure s (s.complexFails (!s.activeB)) ∧
    (s.activeB = false → s.complexB.ok = true →
      let t := State.retryMailboxes { s with
        complexA := { s.complexA with ok := false }
        activeB := true
        missed := 0 }
      s.complexFails s.activeB = (t.telemetry 0 (telemetryEntry 0x09 0 0 5 0 0 (t.pclk 0) 0 0 0)).postAll 0x05
        (if (t.telemetry 0 (telemetryEntry 0x09 0 0 5 0 0 (t.pclk 0) 0 0 0)).activeB then 1 else 0))) ∧
  (∀ (s : State) (okA okB : Bool), ∃ t, exec (.powerOn okA okB) s = .next t ∧ t.powered = true ∧ t.mem = [] ∧ t.ext = s.ext ∧
    t.complexA.ok = okA ∧ t.complexB.ok = okB ∧ t.complexA.digest = s.complexA.digest ∧ t.complexB.digest = s.complexB.digest ∧
    t.packageContained = (!okA && !okB) ∧ (okA || okB → (t.part 0).sectors = 0xFFF#12 ∧ t.activeB = !okA))

/-- Errors, quotas and temperatures (R411 to R413, R426, R427, R483, R499 to R501, R504): a corrected error is counted and reported; an
uncorrectable one is reported, acted on, and counted towards the failure of its unit; a slice's ways go one after the other to the
tenant with the largest gain; heat moves the package to P1 and back. -/
def Obligations.ErrorSteps : Prop :=
  (∀ (s : State) (kind unit array addr : Nat), 1 ≤ array → array ≤ 0x0A →
    let parts := if array = 0x0A then [0] else s.unitParts kind unit addr
    let t := { s with unitErrors := sset 0 s.unitErrors (kind * 65536 + unit) (sget 0 s.unitErrors (kind * 65536 + unit) + 1) }
    Becomes (.arrayError kind unit array addr true) s
      (parts.foldl (fun (s : State) n => s.errorEntry n 0x05 0 kind unit array addr) t) ∧
    Becomes (.arrayError kind unit array addr false) s
      (((parts.foldl (fun (s : State) n => s.errorEntry n 0x06 0x10 kind unit array addr) s).arrayAction kind unit array addr).countFailure
        kind unit array addr)) ∧
  (∀ (s : State) (kind unit addr : Nat), s.arrayAction kind unit 0x08 addr = s.poisonOwned addr) ∧
  (∀ (s : State) (pa : Nat), s.partOfSector (s.canon pa / 64 * 64 / Config.sectorBytes) = none →
    sget false (s.poisonSector pa).poison (s.canon pa / 64) = true) ∧
  (∀ (s : State) (sector : Nat) (bad : Bool),
    Becomes (.scrubPatrol sector bad) s (s.evArrayError 2 (s.pseudoChannel sector) 0x08 sector (!bad))) ∧
  (∀ (s : State) (part slice : Nat),
    let n := (s.part part).tenants.length
    ((s.part part).frozen = true → Becomes (.quotaIntervalEnd part slice) s s) ∧
    ((s.part part).frozen = false → n ≠ 0 → (s.part part).sectors.getLsbD (slice / 32) = true →
      Becomes (.quotaIntervalEnd part slice) s (s.updPart part (fun p => { p with
        quotas := sset [] p.quotas slice (giveWays ((List.range n).map (fun t =>
          sget (List.replicate 16 0) (s.part part).monitors (slice * 16 + t))) (16 - n) (List.replicate n 1))
        monitors := p.monitors.filter (fun e => decide (e.1 / 16 ≠ slice)) })))) ∧
  (∀ (h : List (List Nat)) (w : List Nat), w ≠ [] →
    let gain := fun (t : Nat) => (h.getD t []).getD (w.getD t 0) 0 - (h.getD t []).getD (w.getD t 0 - 1) 0
    nextWay h w < w.length ∧ (∀ t, t < w.length → gain t ≤ gain (nextWay h w)) ∧ (∀ t, t < nextWay h w → gain t < gain (nextWay h w))) ∧
  (∀ (h : List (List Nat)) (n : Nat) (w : List Nat), w ≠ [] → (giveWays h n w).sum = w.sum + n) ∧
  (∀ (s : State) (readings : List (BitVec 16)),
    let t := fun (i : Nat) => (readings.getD i 0#16).toInt
    let dies := fun (limit : Int) => ∃ i, i < 4 ∧ limit ≤ t i
    let piles := fun (limit : Int) => ∃ i, 4 ≤ i ∧ i < 16 ∧ limit ≤ t i
    let ios := fun (limit : Int) => ∃ i, 16 ≤ i ∧ i < 18 ∧ limit ≤ t i
    let kept := { s with temps := (readings ++ List.replicate 32 0#16).take 32 }
    ¬ dies 880 → ¬ ios 880 → ¬ piles 840 →
    (dies 800 ∨ piles 760 → Becomes (.tempReport readings) s (State.postPower { kept with thermal := true } s.inP1)) ∧
    (¬ dies 760 → ¬ piles 760 → Becomes (.tempReport readings) s (State.postPower { kept with thermal := false } s.inP1)))

/-! ### Steps of the host -/

/-- What the host does besides requests (R398, R400, R401, R416 to R419, R476, R480, R482): snapshots, BAR0 registers and the windows,
attachment to stopped waves, and SPDM exchanges in their order. -/
def Obligations.HostSteps : Prop :=
  (∀ (s : State) (part : Nat), (s.part part).timer ≠ 0 → (s.part part).timerFrom + (s.part part).timer ≤ s.clk →
    Becomes (.snapshotTimer part) s ((s.updPart part (fun p => { p with timerFrom := s.clk })).trigger part 2 0 0)) ∧
  (∀ (s : State) (part : Nat), (s.part part).timer = 0 → Becomes (.snapshotTimer part) s s) ∧
  (∀ (s : State) (vf : Nat) (value : Word),
    (vf ≠ 96 → Becomes (.hostTrigger vf value) s s) ∧
    (bitsN value 3 0 = 15 → Becomes (.hostTrigger 96 value) s (s.triggerPackage (bitsN value 31 16))) ∧
    (bitsN value 3 0 ≠ 15 → (s.part (bitsN value 3 0)).sectors ≠ 0#12 →
      Becomes (.hostTrigger 96 value) s (s.trigger (bitsN value 3 0) 1 (bitsN value 31 16) 0))) ∧
  (∀ (s : State) (vf offset : Nat) (value : Dword), vf ≤ 96 →
    let mailbox := fun (f : Mailbox → Mailbox) => Becomes (.registerWrite vf offset value) s
      (s.updFunc vf (fun g => { g with mailbox := f g.mailbox }))
    (offset % 8 = 0 → offset < 0x1000 → mailbox (fun m => { m with
      request := ssetList 0#8 m.request offset (bytesOfNat (if offset = 0 then setBits value 7 0 0 else value).toNat 8) })) ∧
    (offset = 0x2000 → mailbox (fun m => if m.busy then m else { m with
      busy := true
      copy := m.request })) ∧
    (offset = 0x2008 → mailbox (fun m => { m with done := m.done && !value.getLsbD 1 })) ∧
    (offset = 0x2010 → Becomes (.registerWrite vf offset value) s (s.hostTrigger vf (BitVec.ofNat 32 value.toNat))) ∧
    (offset % 8 = 0 → 0x4000 ≤ offset → offset < 0x4500 → Becomes (.registerWrite vf offset value) s (s.updFunc vf (fun f =>
      let k := (offset - 0x4000) / 8
      { f with
        msix := sset 0#64 f.msix k value
        pba := if k % 2 = 1 ∧ value.getLsbD 32 = false then sset false f.pba (k / 2) false else f.pba }))) ∧
    (offset % 8 = 0 → 0x4500 ≤ offset → Becomes (.registerWrite vf offset value) s s)) ∧
  (∀ (s : State) (vf addr : Nat) (data : List Byte) (size : Nat), vf ≤ 96 →
    let reads := fun (bar : Nat) (f : Nat → Byte) =>
      Becomes (.hostWindowAccess vf bar addr [] size) s (s.answerRead ((List.range size).map (fun i => f (addr + i))) false)
    (addr < 0x100000 → reads 0 (s.func vf).bar0) ∧
    (0x100000 ≤ addr → Becomes (.hostWindowAccess vf 0 addr [] size) s (s.readSnap vf (addr - 0x100000) size)) ∧
    (∀ part, s.partOfVf vf = some part → Becomes (.hostWindowAccess vf 2 addr [] size) s (s.hostLoad vf part addr size)) ∧
    reads 4 (fun a => if a < 65536 then (s.func vf).bar4 a else 0#8) ∧
    (data.length = 8 → Becomes (.hostWindowAccess vf 0 addr data size) s (s.registerWrite vf addr (BitVec.ofNat 64 (natOfBytes data)))) ∧
    (data ≠ [] → Becomes (.hostWindowAccess vf 2 addr data size) s (s.hostStore vf addr data)) ∧
    (data ≠ [] → addr < 65536 →
      (addr % 1024 ≤ 572 ∧ 576 ≤ addr % 1024 + data.length → Becomes (.hostWindowAccess vf 4 addr data size) s
        (s.evWriteNotify vf (addr / 1024) (wd (natOfBytes ((data.drop (572 - addr % 1024)).take 4))))) ∧
      (¬ (addr % 1024 ≤ 572 ∧ 576 ≤ addr % 1024 + data.length) → Becomes (.hostWindowAccess vf 4 addr data size) s s))) ∧
  (∀ f : Func,
    (∀ o, (0x2000 ≤ o ∧ o < 0x2008) ∨ (0x2010 ≤ o ∧ o < 0x2018) → f.bar0 o = 0#8) ∧
    f.bar0 0x2008 = BitVec.ofNat 8 ((if f.mailbox.busy then 1 else 0) + (if f.mailbox.done then 2 else 0) + (if f.events = [] then 0 else 4))) ∧
  (∀ (s : State) (offset size : Nat), size ≠ 0 → offset + size ≤ 63 * 1048576 →
    (∀ vf, vf < 96 → Becomes (.snapshotWindowRead vf offset size) s (s.answerRead (List.replicate size 0#8) false)) ∧
    Becomes (.snapshotWindowRead 96 offset size) s { s with
      readData := bytesAt (s.parts.flatMap (fun p => match p.2.snap with
        | some x => x.bytes 96
        | none => [])) offset size
      readPoison := false
      parts := s.parts.map (fun p => (p.1, { p.2 with snap := p.2.snap.map (fun (x : Snapshot) => { x with read := true }) })) }) ∧
  (∀ (s : State) (vf session : Nat), (s.func vf).debugAuth = some session → session ∈ (s.func 97).spdm.sessions →
    (∀ n, s.partOfVf vf = some n → (s.part n).duet = none) →
    Becomes (.debugAttach vf session) s (s.updFunc vf (fun f => { f with debugAttached := true }))) ∧
  (∀ (s : State) (vf : Nat) (id : WaveId) (w : Wave) (g : Workgroup), (s.func vf).debugAttached = true → s.wave id = some w →
    s.wg id.core w.wg = some g → g.vf = vf →
    (w.resp = none → g.contained = none → w.stopped = false → w.exited ≠ 0xFFFFFFFF#32 →
      Becomes (.debugStop vf (.wave id)) s ((s.updWave id (fun w => { w with stopPending := true })).stopIfPrecise id)) ∧
    (w.resp ≠ none → Becomes (.debugStop vf (.wave id)) s s) ∧
    (∀ core wg, Becomes (.debugStop vf (.group core wg)) s
      (((s.wavesOf core wg).map (fun e => e.1)).foldl (fun (s : State) id => s.debugStop vf id) s)) ∧
    (∀ item value, w.stopped = true →
      Becomes (.debugStateAccess vf id true item value) s (s.debugWrite id w item value) ∧
      Becomes (.debugStateAccess vf id false item value) s (s.answerRead (s.debugRead id w item) false)) ∧
    (∀ item value, w.stopped = false → Becomes (.debugStateAccess vf id true item value) s s) ∧
    (w.stopped = true ∨ w.stopPending = true → Becomes (.debugResume vf id) s ((s.setWave id (some { w with
      stopped := false
      stopPending := false
      readySince := s.clk })).rebalance id.core id.sched))) ∧
  (∀ (s : State) (q : SpdmReq), Exchanges s q.fn →
    let x := (s.func q.fn).spdm
    let leaves := fun (i : Instr) (ready : Bool) (f : Spdm → Spdm) => Becomes i s
      (spdmOf s q.fn (if ready then f else fun x => { x with answer := [] }))
    leaves (.getVersion q) true (fun x => { x with
      version := true
      capabilities := false
      algorithms := false
      pendingSession := none
      answer := [0x13#8]
      ended := false }) ∧
    (∃ a, leaves (.getCapabilities q) x.version (fun x => { x with
      capabilities := true
      answer := a })) ∧
    leaves (.negotiateAlgorithms q) (x.capabilities && decide (q.param = 0)) (fun x => { x with
      algorithms := true
      answer := [0#8] }) ∧
    (∃ a, leaves (.getDigests q) x.algorithms (fun x => { x with answer := a })) ∧
    (∃ a, leaves (.getCertificate q) x.algorithms (fun x => { x with answer := a })) ∧
    (∃ a, leaves (.challenge q) x.algorithms (fun x => { x with answer := a })) ∧
    leaves (.getMeasurements q) (x.algorithms && decide (1 ≤ q.param ∧ q.param ≤ 4)) (fun x => { x with answer := s.measurement q.param }) ∧
    (∃ a, leaves (.keyExchange q) (x.algorithms && !x.sessions.contains q.param) (fun x => { x with
      pendingSession := some q.param
      answer := a })) ∧
    leaves (.finish q) (decide (x.pendingSession = some q.param)) (fun x => { x with
      pendingSession := none
      sessions := x.sessions ++ [q.param]
      answer := [0#8] }) ∧
    (q.fn ≠ 97 → leaves (.endSession q) (x.sessions.contains q.param) (fun x => { x with
      sessions := x.sessions.erase q.param
      answer := [0#8] })))

/-- Requests (R381, R394 to R396, R401 to R409, R413, R415 to R418, R420, R424 to R426, R450, R481, R482, R491, R503, R505, R508): a
virtual function's request that only the physical one may make is DENIED, a header out of order is INVALID, neither has an effect; every
other request has the effect of its row, and its response stands in the buffer with DONE set and vector 64 signalled. -/
def Obligations.MailboxRequests : Prop := ∀ (s : State) (r : MailReq),
  let vf := subject r
  let n := bitsN r.arg 3 0
  let q := bitsN r.arg 5 0
  let f := s.func vf
  (∀ x, Request r x → r.vf ≤ 96 → s.firmware = true →
    (x.2.2.1 = true → r.vf ≠ 96 → Status x.1 s r x.2.1 2) ∧
    ((x.2.2.1 = false ∨ r.vf = 96) → 96 < vf ∨ Nat.land r.arg.toNat x.2.2.2.1 ≠ r.arg.toNat ∨ x.2.2.2.2 r.payload.length = false →
      Status x.1 s r x.2.1 3)) ∧
  (∀ x, Request r x → s.firmware = false → Becomes x.1 s s) ∧
  (let m := (s.func r.vf).mailbox
    let n := bitsN m.header 47 32
    (m.busy = false → s.mailServe r.vf = .next s) ∧
    (m.busy = true → r = m.taken r.vf → n ≤ 4080 → n % 8 = 0 →
      (∀ x, Request r x → bitsN m.header 63 48 = x.2.1 → s.mailServe r.vf = exec x.1 s) ∧
      (s.firmware = true → (∀ x, Request r x → bitsN m.header 63 48 ≠ x.2.1) →
        s.mailServe r.vf = .next (s.respond r (bitsN m.header 63 48) 3 []))) ∧
    (m.busy = true → 4080 < n ∨ n % 8 ≠ 0 → s.firmware = true →
      s.mailServe r.vf = .next (s.respond { m.taken r.vf with payload := [] } (bitsN m.header 63 48) 3 []))) ∧
  (∀ opcode st payload, ((s.respond r opcode st payload).func r.vf).mailbox.done = true ∧
    ((s.respond r opcode st payload).func r.vf).mailbox.busy = false ∧
    ((s.respond r opcode st payload).func r.vf).mailbox.payload = payload ∧
    sget false ((s.respond r opcode st payload).func r.vf).pba 64 = true) ∧
  (Served s r 0x0001 → let w := BitVec.ofNat 128 (number r)
    (w &&& ((s.offered vf &&& 0x7FF#128) ||| 1#128) ≠ w → Status (.featAccept r) s r 0x0001 2) ∧
    (w &&& ((s.offered vf &&& 0x7FF#128) ||| 1#128) = w → s.holdsWork vf = false →
      Answers (.featAccept r) s r 0x0001 [] (s.updFunc vf (fun f => { f with feat := w ||| 1#128 })))) ∧
  (Served s r 0x0002 → (s.qcb vf q).hyp ≠ 0#1024 → (s.qcb vf q).state ≤ 2 →
    Answers (.queueStop r) s r 0x0002 [] (s.updQcb vf q (fun b => b.setState 3))) ∧
  (Served s r 0x0003 → (s.qcb vf q).hyp ≠ 0#1024 → (s.qcb vf q).state = 3 → Answers (.queueStart r) s r 0x0003 []
    (s.updQcb vf q (fun b => b.setState (if b.waited then 2 else if b.pending then 1 else 0)))) ∧
  (Served s r 0x0004 → (s.qcb vf q).hyp ≠ 0#1024 → 3 ≤ (s.qcb vf q).state → s.ctxWork (ctxOf vf q) = false →
    ∀ part, s.partOfVf vf = some part →
    let d := (s.qcb vf q).reset' (r.arg.getLsbD 8)
    Answers (.queueReset r) s r 0x0004 (bytesOfNat d.2 8) ((s.dropGrids part vf q).updQcb vf q (fun _ => d.1))) ∧
  (Served s r 0x0005 → (f.records = [] → Answers (.faultRead r) s r 0x0005 [] s) ∧ (∀ x rest, f.records = x :: rest → Answers (.faultRead r) s r 0x0005 (bytesOfNat x.toNat 64)
    (s.updFunc vf (fun f => { f with records := rest })))) ∧
  (Served s r 0x0006 → ((∀ e ∈ f.quota, e.read = true) → Answers (.quotaRead r) s r 0x0006 [] s) ∧ (∀ e, f.quota.find? (fun e => !e.read) = some e → Answers (.quotaRead r) s r 0x0006 (bytesOfNat e.bits 32)
    (s.updFunc vf (fun f => { f with quota := f.quota.map (fun (x : QuotaEvent) => if x = e then { x with read := true } else x) })))) ∧
  (Served s r 0x0007 → let page := bitsN r.arg 59 16 * 65536
    ((∀ e ∈ f.quota, e.va = page → e.answered = true) → Status (.quotaAnswer r) s r 0x0007 5) ∧
    ((∃ e ∈ f.quota, e.va = page ∧ e.answered = false) → r.arg.getLsbD 63 = false → Answers (.quotaAnswer r) s r 0x0007 []
      (s.updFunc vf (fun f => { f with quota := f.quota.map (fun (e : QuotaEvent) => if e.va = page then { e with answered := true } else e) }))) ∧
    ((∃ e ∈ f.quota, e.va = page ∧ e.answered = false) → r.arg.getLsbD 63 = true → s.mapRefused (s.poolOf vf) ≠ none →
      let t := s.updFunc vf (fun f => { f with quota := f.quota.filter (fun e => decide (e.va ≠ page)) })
      Answers (.quotaAnswer r) s r 0x0007 [] ((((t.refuseWaves vf page).refuseCopies vf page).refuseChains vf page).refuseHost vf page))) ∧
  (Served s r 0x0008 → let ctx := bitsN r.arg 15 0
    (ctx ≠ 0 → ctxVf ctx ≠ vf → Status (.ctxKill r) s r 0x0008 2) ∧
    (ctx ≠ 0 → ctxVf ctx = vf → ∀ part, s.partOfVf vf = some part → (s.qcb vf (ctxQueue ctx)).hyp ≠ 0#1024 →
      Answers (.ctxKill r) s r 0x0008 [] (s.killCtx part ctx 0x19 0 0 true))) ∧
  (Served s r 0x0009 → ∀ part bs pa leaf, s.partOfVf vf = some part → r.arg.toNat % 64 = 0 → s.readVa vf part r.arg.toNat 64 = .ok bs →
    s.engineTranslate vf part r.arg.toNat .load = .ok pa leaf →
    let d := BitVec.ofNat 512 (natOfBytes bs)
    let sec := (s.homeSector pa).getD 0
    (s.chain part (bitsN d 442 437) ≠ none → Status (.chainReg r) s r 0x0009 3) ∧
    (bitsN d 436 384 = 0 → bitsN d 319 0 = 0 → bitsN d 511 448 % 64 = 0 → 1 ≤ bitsN d 447 443 → bitsN d 447 443 ≤ 16 →
      s.chain part (bitsN d 442 437) = none → ((s.part part).chains.filter (fun x => decide (x.sector = sec))).length < 64 →
      Answers (.chainReg r) s r 0x0009 (bytesOfNat (if vf = 96 then sec else (s.part part).rank sec) 8) (s.updPart part (fun p => { p with
        chains := p.chains ++ [⟨bitsN d 442 437, sec, vf, ctxOf vf 0, r.arg.toNat, false, 0, false⟩] })))) ∧
  (∀ part x, s.chainAt vf r.arg.toNat = some (part, x) →
    (Served s r 0x000A → (x.stopped = true ∨ ∃ d, s.chainDesc part x = .ok d ∧ bitsN d 351 320 = bitsN d 383 352) → Answers (.chainUnreg r) s r 0x000A []
      (s.updPart part (fun p => { p with chains := p.chains.filter (fun c => decide (c.num ≠ x.num)) }))) ∧
    (Served s r 0x000B → x.stopped = true → Answers (.chainRestart r) s r 0x000B []
      (s.updChain part x.num (fun c => { c with stopped := false }))) ∧
    (Served s r 0x000B → x.stopped = false → Status (.chainRestart r) s r 0x000B 4) ∧
    (Served s r 0x000C → x.stopped = true → ∀ d, s.chainDesc part x = .ok d → Answers (.chainSkip r) s r 0x000C []
      ((s.updChain part x.num (fun c => { c with stopped := false })).chainNext part x (bitsN d 351 320))) ∧
    (Served s r 0x000C → x.stopped = false → Status (.chainSkip r) s r 0x000C 4)) ∧
  (Served s r 0x000D → let a := r.arg.toNat
    let x := BitVec.ofNat 512 (number r)
    (a % 64 ≠ 0 ∨ bitsN x 287 0 ≠ 0 → Status (.poolSet r) s r 0x000D 3) ∧
    (a % 64 = 0 → bitsN x 287 0 = 0 → (r.vf = 96 ∨ a = s.poolOf vf) → s.partOfSector (s.canon a / Config.sectorBytes) ≠ none →
      Answers (.poolSet r) s r 0x000D [] (s.setPool a [(511, 448, bitsN x 511 448), (415, 384, bitsN x 415 384),
        (351, 288, bitsN x 351 288)]))) ∧
  (Served s r 0x000E → let x := bitsN r.arg 31 0
    (r.arg.getLsbD 63 = false → x ∈ (s.func 97).spdm.sessions → Answers (.debugAuth r) s r 0x000E []
      (s.updFunc vf (fun f => { f with debugAuth := some x }))) ∧
    (r.arg.getLsbD 63 = true → f.debugAuth = some x → Answers (.debugAuth r) s r 0x000E [] (s.updFunc vf (fun f => { f with
      debugAuth := none
      debugAttached := false })))) ∧
  (Served s r 0x000F → ∀ part x, s.partOfVf vf = some part → (s.part part).snap = some x →
    Answers (.snapRead r) s r 0x000F (((x.bytes vf).drop r.arg.toNat).take 4080) s) ∧
  (Served s r 0x0010 → Answers (.tempRead r) s r 0x0010
    ((List.range 32).flatMap (fun i => bytesOfNat (if i < 18 then (s.temps.getD i 0#16).toNat else 0) 2)) s) ∧
  (Served s r 0x0011 → (f.events = [] → Answers (.eventRead r) s r 0x0011 [] s) ∧ (∀ x rest, f.events = x :: rest → Answers (.eventRead r) s r 0x0011 (bytesOfNat x.toNat 16)
    (s.updFunc vf (fun f => { f with events := rest })))) ∧
  (Served s r 0x0100 → let h := BitVec.ofNat 1024 (number r)
    (hypOk h vf q = false → Status (.hqWrite r) s r 0x0100 3) ∧
    (hypOk h vf q = true → (s.qcb vf q).state ≠ 1 → (s.qcb vf q).state ≠ 2 → s.holdsWork vf = false → Answers (.hqWrite r) s r 0x0100 []
      ((s.updQcb vf q (fun b => { b with hyp := h })).updFunc vf (fun f => { f with
        feat := f.feat &&& (BitVec.ofNat 128 (bitsN h 959 832) ||| 1#128) })))) ∧
  (Served s r 0x0101 → (s.part n).sectors ≠ 0#12 →
    (r.arg.getLsbD 63 = false → (s.part n).tenants.length < 16 → s.partOfVf vf = none → (s.part n).duet = none →
      Answers (.tenant r) s r 0x0101 [] (s.updPart n (fun p => p.setTenants (p.tenants ++ [vf])))) ∧
    (r.arg.getLsbD 63 = true → vf ∈ (s.part n).tenants → s.holdsWork vf = false →
      Answers (.tenant r) s r 0x0101 [] (s.updPart n (fun p => { p.setTenants (p.tenants.erase vf) with slice := match p.slice with
        | some (f, t) => if f = vf then none else some (f, t)
        | none => none })))) ∧
  (Served s r 0x0102 → let x := BitVec.ofNat 128 (number r)
    let sectors := BitVec.ofNat 12 (bitsN x 127 116)
    let k := bitsN x 115 112
    (11 < k ∨ bitsN x 111 80 ≠ 0 ∨ bitsN x 63 44 ≠ 0 → Status (.partConfig r) s r 0x0102 3) ∧
    (k ≤ 11 → bitsN x 111 80 = 0 → bitsN x 63 44 = 0 → r.arg.getLsbD 0 = true → (s.part k).sectors ≠ 0#12 →
      (∀ i, i < 12 → (sectors ||| (s.part k).sectors).getLsbD i = true → s.sectorWork i = false) →
      Answers (.partConfig r) s r 0x0102 [] (State.tagRings { s.clearPart k with
        parts := sset Part.reset (s.clearPart k).parts k Part.reset })) ∧
    (k ≤ 11 → bitsN x 111 80 = 0 → bitsN x 63 44 = 0 → r.arg.getLsbD 0 = false → sectors ≠ 0#12 → sectors &&& s.failedSectors = 0#12 →
      (∀ i, i < 12 → (sectors ||| (s.part k).sectors).getLsbD i = true →
        s.sectorWork i = false ∧ ∀ m, s.partOfSector i = some m → m = k) →
      let keep := ((List.range 16).zip (s.part k).tenants).filterMap (fun t =>
        if (BitVec.ofNat 16 (bitsN x 79 64)).getLsbD t.1 then some t.2 else none)
      Answers (.partConfig r) s r 0x0102 [] (State.tagRings { s.clearPart k with
        parts := sset Part.reset (s.clearPart k).parts k { Part.reset.setTenants keep with
          sectors := sectors
          origin := (s.clearPart k).clk
          membase := Config.sectorBytes * (((List.range 12).filter (fun i =>
            (sectors ||| (s.part k).sectors).getLsbD i)).filter (fun i => sectors.getLsbD i)).headD 0 } }))) ∧
  (Served s r 0x0103 → let g := (natOfBytes (r.payload.take 8), natOfBytes (r.payload.drop 8))
    g.1 % 65536 = 0 → g.2 % 65536 = 0 → g.2 ≠ 0 → s.isLocal g.1 = true → s.canon g.1 + g.2 ≤ 12 * Config.sectorBytes →
    (r.arg.getLsbD 63 = false → f.grants.length < 16 →
      Answers (.grantRange r) s r 0x0103 [] (s.updFunc vf (fun f => { f with grants := f.grants ++ [g] }))) ∧
    (r.arg.getLsbD 63 = true → g ∈ f.grants →
      Answers (.grantRange r) s r 0x0103 [] (s.updFunc vf (fun f => { f with grants := f.grants.erase g })))) ∧
  (Served s r 0x0104 → let x := BitVec.ofNat 64 (number r)
    bitsN x 63 9 = 0 → bitsN x 7 3 = 0 → (s.part n).sectors ≠ 0#12 → ((s.part n).duet = none ∨ x.getLsbD 8 = true) →
    Answers (.quotaCtrl r) s r 0x0104 [] (s.updPart n (fun p => { p with
      frozen := x.getLsbD 8
      interval := bitsN x 2 0 }))) ∧
  (Served s r 0x0105 → number r % 64 = 0 → (s.part n).sectors ≠ 0#12 →
    Answers (.teleSet r) s r 0x0105 [] (s.updPart n (fun p => { p with telebase := BitVec.ofNat 64 (number r) }))) ∧
  (Served s r 0x0106 → number r < 2 ^ 32 → (s.part n).sectors ≠ 0#12 →
    Answers (.triggerMask r) s r 0x0106 [] (s.updPart n (fun p => { p with triggerMask := BitVec.ofNat 32 (number r) }))) ∧
  (Served s r 0x0107 → (number r = 0 ∨ 65536 ≤ number r) → (s.part n).sectors ≠ 0#12 →
    Answers (.timerTrigger r) s r 0x0107 [] (s.updPart n (fun p => { p with
      timer := number r
      timerFrom := s.clk }))) ∧
  (Served s r 0x0108 → let id := bitsN r.arg 31 0
    let ns := r.payload.map (fun b => b.toNat)
    let ms := ns.takeWhile (fun n => decide (n ≠ 255))
    (r.arg.getLsbD 63 = false → 2 ≤ ms.length → rising ms = true → (∀ m ∈ ms, m < 144) → (∀ m ∈ ns.drop ms.length, m = 255) →
      (∀ g ∈ s.groups, g.1 ≠ id) → Answers (.groupReg r) s r 0x0108 [] { s with groups := s.groups ++ [(id, ms)] }) ∧
    (r.arg.getLsbD 63 = true → (∃ g ∈ s.groups, g.1 = id) →
      Answers (.groupReg r) s r 0x0108 [] { s with groups := s.groups.filter (fun g => decide (g.1 ≠ id)) })) ∧
  (Served s r 0x0109 → bitsN r.arg 7 0 ≤ 143 → number r < 2 ^ 18 → (∀ k ∈ skeys s.parts, s.partWork k = false) →
    Answers (.packageSet r) s r 0x0109 [] { s with
      package := bitsN r.arg 7 0
      ports := (List.range 18).foldl (fun m i => sset Port.reset m i { Port.reset with
        enabled := (BitVec.ofNat 18 (number r)).getLsbD i }) s.ports }) ∧
  (Served s r 0x010A → Answers (.fwLoad r) s r 0x010A []
    (s.setStandby { s.standby with staged := ssetList 0#8 s.standby.staged r.arg.toNat r.payload })) ∧
  (Served s r 0x010B → let image := sgetList 0#8 s.standby.staged 0 r.arg.toNat
    r.arg.toNat ≠ 0 → r.arg.toNat ≤ 2 ^ 32 →
    (Config.imageVerifies image = false → Status (.fwUpdate r) s r 0x010B 7) ∧
    (Config.imageVerifies image = true → Config.fusedVersion ≤ Config.imageVersion image → s.stateMajor ≤ (Config.imageTable image).1 →
      let t := s.setStandby { s.standby with
        ok := true
        digest := Config.sm3 image
        version := Config.imageVersion image }
      Answers (.fwUpdate r) s r 0x010B [] ((State.endSessions { t with
        activeB := !t.activeB
        missed := 0
        stateMajor := (Config.imageTable image).1
        stateMinor := (Config.imageTable image).2 }).postAll 0x02
          ((Config.imageTable image).1 % 65536 * 65536 + (Config.imageTable image).2 % 65536)))) ∧
  (Served s r 0x010C → Answers (.pstate r) s r 0x010C [] (State.postPower { s with pstate := bitsN r.arg 0 0 } s.inP1)) ∧
  (Served s r 0x010D → let peer := bitsN r.arg 15 8
    (s.part n).sectors ≠ 0#12 → s.partWork n = false →
    (r.arg.getLsbD 63 = true → ∀ d, (s.part n).duet = some d → d.edge = [] → d.closed = [] →
      Answers (.duetForm r) s r 0x010D [] (s.updPart n (fun p => { p with duet := none }))) ∧
    (r.arg.getLsbD 63 = false → peer ≤ 143 → peer ≠ s.package →
    (s.part n).duet = none → s.portLive 16 = true → s.portLive 17 = true → ∀ t, (s.part n).tenants = [t] → s.hasFeat t 10 = true →
    (s.func t).debugAttached = false →
    Answers (.duetForm r) s r 0x010D [] (s.updPart n (fun p => { p with
      duet := some ⟨peer, s.clk / 2048, [], [], []⟩
      frozen := true
      quotas := []
      tslice := 0#32
      slice := none
      grace := none }))))

/-! ### Links -/

/-- Ports, duets, requests that no port can carry, and the slots of the rings (R18 to R23, R421, R423, R506, R509): the expected flit is
acknowledged, an old one again, a CRC error or a gap is answered negatively; the eighth resend or the 64th CRC error within 1 ms takes a
port down; windows are compared in order and the first disagreement is a mismatch. -/
def Obligations.LinkSteps : Prop :=
  (∀ (s : State) (port seq : Nat), s.portLive port = true →
    let p := sget Port.reset s.ports port
    (seq = p.expect → Becomes (.flitReceive port seq true) s (s.updPort port (fun p => { p with expect := p.expect + 1 }))) ∧
    (seq < p.expect → Becomes (.flitReceive port seq true) s s) ∧
    (p.expect < seq → Becomes (.flitReceive port seq true) s (if 64 ≤ (sget Port.reset (s.linkEntry port 1).ports port).crcErrors then
      (s.linkEntry port 1).portDown port else s.linkEntry port 1)) ∧
    (let t := (s.updPort port (fun p => if s.clk < p.crcFrom + 1200000 then { p with crcErrors := p.crcErrors + 1 }
        else { p with
          crcErrors := 1
          crcFrom := s.clk })).linkEntry port 1
     Becomes (.flitReceive port seq false) s (if 64 ≤ (sget Port.reset t.ports port).crcErrors then t.portDown port else t)) ∧
    (p.unacked = [] → Becomes (.replayTimeout port) s s) ∧
    (∀ f rest, p.unacked = f :: rest →
      let t := (s.updPort port (fun p => { p with
        resends := p.resends + 1
        resent := p.resent + p.unacked.length
        unacked := p.unacked.map (fun f => (f.1, s.clk)) })).linkEntry port 2
      (s.clk < f.2 + 512 → Becomes (.replayTimeout port) s s) ∧
      (f.2 + 512 ≤ s.clk → Becomes (.replayTimeout port) s (if 8 ≤ p.resends + 1 then t.portDown port else t)))) ∧
  (∀ (s : State) (port seq : Nat) (ok : Bool), s.portLive port = false → Becomes (.flitReceive port seq ok) s s) ∧
  (∀ (s : State) (port : Nat), (sget Port.reset s.ports port).enabled = false → Becomes (.portDown port) s s) ∧
  (∀ (s : State) (port : Nat), (sget Port.reset s.ports port).enabled = true → (sget Port.reset s.ports port).up = true →
    let t := (s.updPort port (fun p => { p with
      up := false
      unacked := [] })).linkEntry port 3
    let falls := fun (u : State) => if port = 16 ∨ port = 17 then (skeys u.parts).foldl (fun (s : State) k => match (s.part k).duet with
      | some d => s.duetMismatch k (match d.closed with
        | (w, _) :: _ => w
        | [] => d.window)
      | none => s) u else u
    (∀ m, (List.range 18).find? (fun m => t.portLive m && decide (Config.portSwitch m = Config.portSwitch port)) = some m →
      let k := (sget Port.reset s.ports port).unacked.length
      Becomes (.portDown port) s (falls (t.updPort m (fun q => { q with
        unacked := q.unacked ++ (List.range k).map (fun i => (q.sent + i, t.clk))
        sent := q.sent + k
        resent := q.resent + k })))) ∧
    ((∀ m, m < 18 → t.portLive m = true → Config.portSwitch m ≠ Config.portSwitch port) → Becomes (.portDown port) s (falls t))) ∧
  (∀ (s : State) (id : WaveId) (tag : Nat) (w : Wave) (f : Flight), Flying s id tag w f →
    (s.carried f.op = true → Becomes (.remoteRequestTimeout id tag) s s) ∧
    (s.carried f.op = false →
      (∀ accs size nl1, f.op = .prefetch accs size nl1 → Becomes (.remoteRequestTimeout id tag) s (s.finish id tag)) ∧
      (∀ accs size signed reg mode priv mask, f.op = .load accs size signed reg mode priv mask → reg < 0x100 →
        let bad := accs.filter (fun a => s.isRemote a.pa)
        let va := match bad with
          | a :: _ => a.va
          | [] => 0
        Becomes (.remoteRequestTimeout id tag) s ((s.deferFault id f 0x10 2 (maskOf (bad.map (fun (a : LaneAcc) => a.lane))) va).finishWith id tag
          ((dedup (accs.map (fun a => a.lane))).flatMap (fun l => wordWrites reg l (loadWords size false (List.replicate size 0#8)))))) ∧
      (∀ g, s.wg id.core w.wg = some g →
        (∀ bytes u, f.op = .store bytes u → Becomes (.remoteRequestTimeout id tag) s (s.killCtx g.part g.ctx 0x10 0 0 true)) ∧
        (∀ scope, f.op = .fence scope → Becomes (.remoteRequestTimeout id tag) s (s.killCtx g.part g.ctx 0x10 0 0 true))))) ∧
  (∀ (s : State) (part : Nat) (d : Duet) (digest : BitVec 256), (s.part part).duet = some d →
    Becomes (.duetDigestReceived part digest) s ((s.updPart part (fun p => { p with duet := p.duet.map (fun (d : Duet) => { d with
      digests := d.digests ++ [digest] }) })).duetCompare part 4) ∧
    (s.clk < (d.window + 1) * 2048 → Becomes (.duetWindowClose part) s s) ∧
    ((d.window + 1) * 2048 ≤ s.clk → d.closed = [] → Becomes (.duetWindowClose part) s
      ((s.updPart part (fun p => { p with duet := some { d with
        window := d.window + 1
        edge := []
        closed := [(d.window, d.edge)] } })).duetCompare part 4)) ∧
    (∀ k b rest, (d.window + 1) * 2048 ≤ s.clk → d.closed = (k, b) :: rest → k + 2 ≤ d.window →
      Becomes (.duetWindowClose part) s (s.duetMismatch part k)) ∧
    (∀ k b rest, (d.window + 1) * 2048 ≤ s.clk → d.closed = (k, b) :: rest → d.window < k + 2 →
      Becomes (.duetWindowClose part) s ((s.updPart part (fun p => { p with duet := some { d with
        window := d.window + 1
        edge := []
        closed := d.closed ++ [(d.window, d.edge)] } })).duetCompare part 4)) ∧
    (∀ k b rest g gs m, d.closed = (k, b) :: rest → d.digests = g :: gs →
      (windowDigest b ≠ g → s.duetCompare part (m + 1) = s.duetMismatch part k) ∧
      (windowDigest b = g → s.duetCompare part (m + 1) = ((s.updPart part (fun p => { p with duet := some { d with
        closed := rest
        digests := gs } })).commit .engine b).duetCompare part m))) ∧
  (∀ (s : State) (die ring source part : Nat) (m : FabricMsg), die < 4 → ring < 2 → source < 7 →
    let stop := if 3 < source then 3 else source
    let key := slotKey die ring (slotAt ring stop s.clk)
    let r := sget RingSlot.empty s.rings key
    let reserves := fun (t : State) => (source < 4 → Becomes (.ringInsertReservation die ring source part) s t) ∧
      (3 < source → Becomes (.bridgeInsertReservation die ring (source - 4) part) s t)
    s.waitingAt die ring source part = some m →
    (r.tag = some part → r.msg ≠ none → r.reserved = none → m.since + 32 ≤ s.clk →
      (∀ i x, i < 8 → (sget RingSlot.empty s.rings (slotKey die ring i)).reserved = some x → (if 3 < x then 3 else x) ≠ stop) →
      reserves { s with rings := sset RingSlot.empty s.rings key { r with reserved := some source } }) ∧
    (r.tag ≠ some part ∨ r.msg = none ∨ r.reserved ≠ none ∨ s.clk < m.since + 32 → reserves s) ∧
    (r.tag = some part → r.msg = none → r.reserved = some source →
      s.stopCycle die ring stop = { s with
        fabric := s.fabric.erase m
        rings := sset RingSlot.empty s.rings key { r with
          msg := some m.msg
          reserved := none } })) ∧
  (∀ (s : State) (die ring stop part x : Nat),
    let r := sget RingSlot.empty s.rings (slotKey die ring (slotAt ring stop s.clk))
    r.tag = some part → r.msg = none → r.reserved = some x → (if 3 < x then 3 else x) ≠ stop → s.stopCycle die ring stop = s)

/-! ### Frames -/

/-- What register words leave unchanged (R153, R159, R169, R170): memory, local spaces, every other wave and unit, and of their own wave
every register but the destination, every mask but a mask destination, the flags but for a floating word's added ones. -/
def Obligations.RegisterWordFrames : Prop :=
  (∀ w : RWord,
    (∀ i ∈ [Instr.iadd w, .isub w], w.flags.getLsbD 0 = false →
      Frame i (fun c v => Keeps c.wave v c.eff w.d.toNat 1 ∧ KeepsMasks c.wave v none ∧ v.fflags = c.wave.fflags)) ∧
    (∀ i ∈ [Instr.iadd w, .isub w],
      Frame i (fun c v => Keeps c.wave v c.eff w.d.toNat 1 ∧ KeepsMasks c.wave v (some w.c.toNat) ∧ v.fflags = c.wave.fflags)) ∧
    (∀ i ∈ [Instr.imul w, .imulh w, .imad w, .iabs w, .imin w, .imax w, .shl w, .shr w, .sar w, .rot w, .wext w, .lfn w, .andW w, .orW w,
        .xorW w, .andn w, .notW w, .bfe w, .bfi w, .popc w, .clz w, .ctz w, .brev w, .bsel w, .sel w, .mov w, .dot4 w, .isad w, .idiv w,
        .laneRd w, .laneWr w, .kpop w, .kffs w, .nibPack w, .nibUnpk w, .matchL w, .xlane w],
      Frame i (fun c v => Keeps c.wave v c.eff w.d.toNat 1 ∧ KeepsMasks c.wave v none ∧ v.fflags = c.wave.fflags)) ∧
    (∀ i ∈ [Instr.add64 w, .sub64 w, .mul64 w, .shl64 w, .shr64 w, .lea w, .sel64 w, .movSr w],
      Frame i (fun c v => Keeps c.wave v c.eff w.d.toNat 2 ∧ KeepsMasks c.wave v none ∧ v.fflags = c.wave.fflags)) ∧
    (∀ i ∈ [Instr.fadd w, .fsub w, .fmul w, .fma w, .fmin w, .fmax w, .frcp w, .frsq w, .fsqrt w, .fexp2 w, .flog2 w, .fsin w, .fcos w,
        .fround w, .ffract w, .fldexp w, .fexs w, .ftanh w, .hadd2 w, .hmul2 w, .hfma2 w, .hmax2 w, .fdot2 w, .cvtPk8 w, .cvtEx8 w,
        .q4Enc w, .q4Dec w, .q4Scale w, .red w, .scan w],
      Frame i (fun c v => Keeps c.wave v c.eff w.d.toNat 1 ∧ KeepsMasks c.wave v none ∧ v.fflags &&& c.wave.fflags = c.wave.fflags)) ∧
    Frame (.cvt w) (fun c v => Keeps c.wave v c.eff w.d.toNat (if tyWidth w.ty = 64 then 2 else 1) ∧ KeepsMasks c.wave v none ∧
      v.fflags &&& c.wave.fflags = c.wave.fflags) ∧
    (∀ i ∈ [Instr.icmp w, .cmp64 w, .fclass w, .kop w],
      Frame i (fun c v => Keeps c.wave v c.eff 0 0 ∧ KeepsMasks c.wave v (some w.d.toNat) ∧ v.fflags = c.wave.fflags)) ∧
    Frame (.fcmp w) (fun c v => Keeps c.wave v c.eff 0 0 ∧ KeepsMasks c.wave v (some w.d.toNat) ∧
      v.fflags &&& c.wave.fflags = c.wave.fflags) ∧
    Frame (.movSs w) (fun c v => Keeps c.wave v c.eff 0 0 ∧ KeepsMasks c.wave v none)) ∧
  (∀ w : IWord,
    (∀ i ∈ [Instr.iaddi w, .imuli w, .andi w, .ori w, .xori w, .shli w, .shri w, .sari w, .movi w],
      Frame i (fun c v => Keeps c.wave v c.eff w.d.toNat 1 ∧ KeepsMasks c.wave v none ∧ v.fflags = c.wave.fflags)) ∧
    Frame (.movhi w) (fun c v => Keeps c.wave v c.eff w.d.toNat 2 ∧ KeepsMasks c.wave v none ∧ v.fflags = c.wave.fflags) ∧
    Frame (.icmpi w) (fun c v => Keeps c.wave v c.eff 0 0 ∧ KeepsMasks c.wave v (some w.d.toNat) ∧ v.fflags = c.wave.fflags)) ∧
  (∀ (m : Bool) (op : HalfOp) (a : HalfFields) (b : Half), Frame (pairInstr m op a b) (fun c v =>
    KeepsMasks c.wave v none ∧ v.fflags &&& c.wave.fflags = c.wave.fflags ∧ v.s = c.wave.s ∧ v.exited = c.wave.exited ∧
    ∀ r l, l < 32 → r ≠ a.d.toNat → r ≠ b.f.d.toNat → v.vget r l = c.wave.vget r l))

/-- What stores leave unchanged (R79, R98, R263, R269): a local store changes no byte of any space but the bytes its lanes store, and
nothing outside its core; a store to cached pages of a wave with no access in flight changes no byte at any home but those that a line
leaving the L1 for it carries there, none where its lines are resident, and then no byte its core reads but the bytes its lanes store.
Both keep every register, mask and flag. `u` is the state once the checks, and the store's translations, have been made. -/
def Obligations.StoreFrames : Prop := ∀ w : MWord,
  let size := sizeBytes w.size
  (∀ x ∈ [(Instr.stSp w, Space.sp), (.stA w, .ab), (.stC w, .cb)], ∀ s c t, OnPath x.1 s c 0 → c.wave.blocked = false → c.wave.resp = none →
    c.wave.deferred = none → c.wg.live = [] → exec x.1 s = .next t →
    let skew := if x.2 = .sp ∧ w.mode = 1 then some (w.imm.extractLsb' 21 3).toNat else none
    let imm := if skew.isSome then (w.imm.extractLsb' 0 21).toInt else w.imm.toInt
    ∀ ps, c.allLanes (onceFor w) ((accessing c (onceFor w)).map (fun l => (l, localAccess c.wg x.2 size (localOffset c w imm l) skew))) = .ok ps →
    let stored := ps.flatMap (fun p => (List.range size).map (fun b => p.2.getD (b / 4) 0 + b % 4))
    let u := checked x.1 s c
    ChecksKeep x.1 s c ∧
    t.mem = u.mem ∧ t.ext = u.ext ∧ (∀ n, n ≠ c.id.core → t.core n = u.core n) ∧ (t.core c.id.core).l1 = (u.core c.id.core).l1 ∧
    (∀ y a, (y = x.2 → a ∉ stored) → sget 0#8 ((t.core c.id.core).space y) a = sget 0#8 ((u.core c.id.core).space y) a) ∧
    ∃ v, t.wave c.id = some v ∧ Keeps c.wave v c.eff 0 0 ∧ KeepsMasks c.wave v none ∧ v.fflags = c.wave.fflags) ∧
  (∀ s c t, OnPath (.stG w) s c 0 → c.wave.blocked = false → c.wave.flights = [] → c.wave.deferred = none → c.wg.live = [] →
    exec (.stG w) s = .next t → ∀ accs u,
    (checked (.stG w) s c).access c false (onceFor w) .store (globalAddrs c w w.imm.toInt (onceFor w) size .store) = .ready accs u →
    (∀ a ∈ accs, a.2 = false) →
    let touched := fun (pa : Nat) => ∃ a ∈ accs, ∃ b, b < size ∧ u.canon pa = u.canon (a.1.pa + b)
    let leaving := fun (pa : Nat) => ∃ k i, i < 4 ∧ (sget L1Word.absent (u.core c.id.core).l1 k).dirty.getLsbD i = true ∧
      u.canon (4 * k + i) = u.canon pa
    (∀ pa, t.homeByte pa = u.homeByte pa ∨ touched pa ∨ leaving pa) ∧
    ((∀ a ∈ accs, ∀ b, b < size → sget none (u.core c.id.core).lines (u.canon (a.1.pa + b) / 512) ≠ none) →
      (∀ pa, t.homeByte pa = u.homeByte pa) ∧
      (∀ pa, ¬ touched pa → ∀ part nl1 m, t.readByte c.id.core part nl1 m pa = u.readByte c.id.core part nl1 m pa)) ∧
    ∃ v, t.wave c.id = some v ∧ Keeps c.wave v c.eff 0 0 ∧ KeepsMasks c.wave v none ∧ v.fflags = c.wave.fflags)

/-! ### Addresses and memory -/

/-- The checks of a global address in the order of R74, of a local one (R81), the choice among lanes (R447), and the skewed tile of R88:
its words stay in the tile, no two share a place, and a column of 32 rows meets 32 banks. That SEG_LIMIT reports the address the access
would have is the model's reading (log 41). -/
def Obligations.AddressChecks : Prop :=
  (∀ (g : BitVec 128) (off : Int) (size align : Nat) (k : AccKind),
    let past := g.getLsbD 127 = false ∨ off < 0 ∨ (bitsN g 119 60 : Int) < off + size
    let va := bitsN g 59 0 + off.toNat
    let permits := g.getLsbD (match k with
      | .load | .observe => 126
      | .fetch => 124
      | _ => 125)
    (past → segCheck g off size align k = .error ⟨0x0A, 0, (((bitsN g 59 0 : Int) + off) % (2 ^ 64 : Nat)).toNat⟩) ∧
    (¬ past → permits = false → segCheck g off size align k = .error ⟨0x0E, 5, va⟩) ∧
    (¬ past → permits = true → va % align ≠ 0 → segCheck g off size align k = .error ⟨0x0C, 0, va⟩) ∧
    (¬ past → permits = true → va % align = 0 → segCheck g off size align k = .ok va)) ∧
  (∀ usable code o size : Nat,
    (usable < o + size → localCheck usable code o size = some ⟨0x0B, 0, o + code * 2 ^ 60⟩) ∧
    (o + size ≤ usable → o % size ≠ 0 → localCheck usable code o size = some ⟨0x0C, 0, o + code * 2 ^ 60⟩) ∧
    (o + size ≤ usable → o % size = 0 → localCheck usable code o size = none)) ∧
  (∀ (c : Ctx) (good : List (Nat × Nat)) (l : Nat) (r : Raise) (rest : List (Nat × Except Raise Nat)),
    c.allLanes false (good.map (fun x => (x.1, .ok x.2))) = .ok good ∧
    ∃ m : Mask, c.allLanes false (good.map (fun x => (x.1, .ok x.2)) ++ (l, .error r) :: rest) = .error (r, m) ∧
      ∀ j, j < 32 → (m.getLsbD j = true ↔ j = l ∨ ∃ q, (j, .error q) ∈ rest)) ∧
  (∀ base rows o p : Nat, base % 4 = 0 → base ≤ o → o < base + 128 * rows → base ≤ p → p < base + 128 * rows →
    let at' := fun (x : Nat) => 4 * skewWord base x + x % 4
    base ≤ at' o ∧ at' o < base + 128 * rows ∧ (at' o = at' p → o = p)) ∧
  (∀ base col : Nat, col < 32 →
    let bank := fun (row : Nat) => skewWord base (base + 128 * row + 4 * col) % 32
    (∀ row, bank row = (base / 4 + col + row) % 32) ∧ ((List.range 32).map bank).Nodup)

/-- Reading what was written, and only that: bytes at their home, of a local space, of a core's L1 (R79, R98, R120, R138), the extension of
loaded values (R164), the new value of an atomic (R272), the homing of lines (R99) and the place of private bytes (R95). -/
def Obligations.MemoryValues : Prop :=
  (∀ (s : State) (pa q : Nat) (b : Byte),
    (s.setHome pa b).homeByte q = if s.canon q = s.canon pa then b else s.homeByte q) ∧
  (∀ (s : State) (pa : Nat) (bs : List Byte), pa % 2 ^ 44 + bs.length ≤ 2 ^ 44 → (s.setHomeBytes pa bs).homeBytes pa bs.length = bs) ∧
  (∀ (k : Core) (x y : Space) (a b : Nat) (bs : List Byte), sget 0#8 ((k.setSpaceBytes x a bs).space y) b =
    if y = x ∧ a ≤ b ∧ b < a + bs.length then bs.getD (b - a) 0#8 else sget 0#8 (k.space y) b) ∧
  (∀ (s : State) (core ctx priv pa n part q : Nat) (nl1 : Bool) (m : BitVec 8) (b : Byte),
    (n = core → s.canon q = s.canon pa → (s.storeByte core ctx priv pa b).readByte n part nl1 m q = b) ∧
    (sget none (s.core core).lines (s.canon pa / 512) ≠ none → ¬ (n = core ∧ s.canon q = s.canon pa) →
      (s.storeByte core ctx priv pa b).readByte n part nl1 m q = s.readByte n part nl1 m q)) ∧
  (∀ bs : List Byte,
    (∀ b, bs = [b] → loadWords 1 false bs = [b.setWidth 32] ∧ loadWords 1 true bs = [b.signExtend 32]) ∧
    (∀ b0 b1, bs = [b0, b1] → loadWords 2 false bs = [(b1 ++ b0).setWidth 32] ∧ loadWords 2 true bs = [(b1 ++ b0).signExtend 32]) ∧
    (∀ size signed, 4 ≤ size → loadWords size signed bs = (List.range (size / 4)).map (fun i => BitVec.ofNat 32 (natOfBytes ((bs.drop (4 * i)).take 4))))) ∧
  (∀ size, size = 4 ∨ size = 8 → ∀ x y : BitVec (8 * size),
    let new := fun (op : Nat) => atomNew op size x.toNat y.toNat
    new 0 = (x + y).toNat ∧ new 1 = (if x.sle y then x else y).toNat ∧ new 2 = (if x.sle y then y else x).toNat ∧
    new 3 = (if x.ule y then x else y).toNat ∧ new 4 = (if x.ule y then y else x).toNat ∧ new 5 = (x &&& y).toNat ∧
    new 6 = (x ||| y).toNat ∧ new 7 = (x ^^^ y).toNat ∧ new 8 = y.toNat) ∧
  (∀ x y : Nat, atomNew 9 4 x y = (f32.fadd 0 false x y).1 ∧ atomNew 0xA 4 x y = (f32.fminmax false x y).1 ∧
    atomNew 0xB 4 x y = (f32.fminmax true x y).1) ∧
  (∀ (p : Part) (a b : Nat), p.sectors ≠ 0#12 → p.homeSlice a = p.homeSlice b →
    let n := 32 * p.sectorList.length
    p.rel a / 512 / n = p.rel b / 512 / n → p.rel a / 512 = p.rel b / 512) ∧
  (∀ record vregs o p l j : Nat, l < 32 → j < 32 → privAddr record vregs o l = privAddr record vregs p j → o = p ∧ l = j)

/-! ### The machine as a whole -/

/-- Words written out from the encodings of R161 to R173 and the worked words of the manual decode to the instructions they stand for. -/
def Obligations.SampleWordsDecode : Prop :=
  decode 0x0800805030001400#64 = .instr (.iadd ⟨false, 0x0#4, 0x4#9, 0x5#9, 0x6#9, 0x0#9, 0x1400#14⟩) ∧
  decode 0x188140BC1800E800#64 = .instr (.fmul ⟨false, 0x3#4, 0xA#9, 0xB#9, 0x183#9, 0x0#9, 0x2800#14⟩) ∧
  decode 0xAC22902208000040#64 = .instr (.ldK ⟨true, 0x114#9, 0x81#8, 0x1#4, 0x0#4, 0x8#5, 0x40#24⟩) ∧
  decode 0x080100A060081003#64 = .instr (.iadd ⟨false, 0x0#4, 0x8#9, 0xA#9, 0xC#9, 0x2#9, 0x1003#14⟩) ∧
  decode 0x1280207020FFFFFB#64 = .instr (.icmpi ⟨false, 0x1#9, 0x7#9, 0x0#4, 0x20FFFFFB#32⟩) ∧
  decode 0x480404FF97050600#64 = .instr (.hiaddi false ⟨0x04#8, 0x09#8, 0xFF#8⟩ ⟨.not, ⟨0x05#8, 0x06#8, 0x00#8⟩⟩) ∧
  decode 0x18C08050301C2801#64 = .instr (.fma ⟨false, 0x0#4, 0x4#9, 0x5#9, 0x6#9, 0x7#9, 0x2801#14⟩) ∧
  decode 0x2001803000002CA4#64 = .instr (.cvt ⟨false, 0x0#4, 0xC#9, 0x3#9, 0x0#9, 0x0#9, 0x2CA4#14⟩) ∧
  decode 0x80C820700000000A#64 = .instr (.brv ⟨true, 0x2#4, 0x1#5, 0x7#9, 0x0#4, 0xA#32⟩) ∧
  decode 0x82801090FFFFFFF8#64 = .instr (.loop ⟨true, 0x0#4, 0x0#5, 0x109#9, 0x0#4, 0xFFFFFFF8#32⟩) ∧
  decode 0x84005A3000000000#64 = .instr (.barWait ⟨true, 0x0#4, 0x2#5, 0x1A3#9, 0x0#4, 0x0#32⟩) ∧
  decode 0x24C1404000002800#64 = .instr (.red ⟨false, 0x0#4, 0xA#9, 0x4#9, 0x0#9, 0x0#9, 0x2800#14⟩) ∧
  decode 0x2A82808208000040#64 = .instr (.stG ⟨false, 0x14#9, 0x4#8, 0x1#4, 0x0#4, 0x8#5, 0x40#24⟩) ∧
  decode 0x3000808408030010#64 = .instr (.atom ⟨false, 0x4#9, 0x4#8, 0x2#4, 0x0#4, 0x8#5, 0x30010#24⟩) ∧
  decode 0x2CA0D022001A0000#64 = .instr (.xcopy ⟨false, 0x106#9, 0x81#8, 0x1#4, 0x0#4, 0x0#5, 0x1A0000#24⟩) ∧
  decode 0x3200000000001030#64 = .instr (.fence ⟨false, 0x0#4, 0x0#9, 0x0#9, 0x0#9, 0x0#9, 0x1030#14⟩) ∧
  decode 0x34A2802828180000#64 = .instr (.mmaQ ⟨false, 0x0#4, 0x114#9, 0x2#9, 0x105#9, 0x6#9, 0x0#14⟩) ∧
  decode 0x34E2B0884C280102#64 = .instr (.mma ⟨false, 0x0#4, 0x115#9, 0x108#9, 0x109#9, 0x10A#9, 0x102#14⟩) ∧
  decode 0xB580114000000000#64 = .instr (.mwait ⟨true, 0x0#4, 0x0#9, 0x114#9, 0x0#9, 0x0#9, 0x0#14⟩) ∧
  decode 0x3822904000001010#64 = .instr (.asmNew ⟨false, 0x0#4, 0x114#9, 0x104#9, 0x0#9, 0x0#9, 0x1010#14⟩) ∧
  decode 0x3943C00000001000#64 = .instr (.asmInfoPc ⟨false, 0x0#4, 0x1E#9, 0x0#9, 0x0#9, 0x0#9, 0x1000#14⟩) ∧
  decode 0x3A62D08848000000#64 = .instr (.ladPush ⟨false, 0x0#4, 0x116#9, 0x108#9, 0x109#9, 0x0#9, 0x0#14⟩) ∧
  decode 0x3AA2F08850000101#64 = .instr (.ladBlend ⟨false, 0x0#4, 0x117#9, 0x108#9, 0x10A#9, 0x0#9, 0x101#14⟩) ∧
  decode 0xBAC5108858A41000#64 = .instr (.ladRungLd ⟨true, 0x0#4, 0x28#9, 0x108#9, 0x10B#9, 0x29#9, 0x1000#14⟩) ∧
  decode 0x3B22B28000001000#64 = .instr (.dirIns ⟨false, 0x0#4, 0x115#9, 0x128#9, 0x0#9, 0x0#9, 0x1000#14⟩) ∧
  decode 0x3B62928964B42801#64 = .instr (.sol ⟨false, 0x0#4, 0x114#9, 0x128#9, 0x12C#9, 0x12D#9, 0x2801#14⟩) ∧
  decode 0xBB80114000001000#64 = .instr (.cnsWait ⟨true, 0x0#4, 0x0#9, 0x114#9, 0x0#9, 0x0#9, 0x1000#14⟩) ∧
  decode 0xBBC0000000001000#64 = .instr (.respEnd ⟨true, 0x0#4, 0x0#9, 0x0#9, 0x0#9, 0x0#9, 0x1000#14⟩) ∧
  decode 0x2802806048000000#64 = .instr (.ldSp ⟨false, 0x14#9, 0x3#8, 0x0#4, 0x2#4, 0x8#5, 0x0#24⟩)

/-- Encoding loses nothing: the word of a well-formed instruction decodes to that instruction, with every operand at every value. -/
def Obligations.EncodedWordsDecode : Prop :=
  ∀ (i : Instr) (x : Dword), encode i = some x → WellFormed i → decode x = .instr i

/-- Decoding loses nothing (R159, R161, R173, R178, R179): the instruction a word decodes to is well formed and is encoded by that word
alone; a major opcode of no row is ILLEGAL_OPCODE with DETAIL 1, a reserved half-op with DETAIL 2. -/
def Obligations.DecodedWordsEncode : Prop :=
  (∀ (x : Dword) (i : Instr), decode x = .instr i → encode i = some x ∧ WellFormed i) ∧
  (∀ x : Dword, x.getLsbD 62 = false → bitsN x 61 54 ∈ (List.range 0xC).map (0x14 + ·) ++ (List.range 5).map (0x4B + ·) ++
    (List.range 7).map (0x79 + ·) ++ (List.range 8).map (0x88 + ·) ++ (List.range 9).map (0x97 + ·) ++ [0xBB, 0xBC, 0xBE, 0xBF] ++
    (List.range 5).map (0xCB + ·) ++ [0xDC, 0xDD, 0xDE, 0xDF, 0xE6, 0xE7] ++ (List.range 6).map (0xFA + ·) → decode x = .reject 0x01 1) ∧
  (∀ x : Dword, x.getLsbD 62 = true → 0x18 ≤ bitsN x 61 55 ∨ 0x18 ≤ bitsN x 30 24 → decode x = .reject 0x01 2)

/-- A step runs the decoded instruction: the oldest offered step first; else the next scheduler of this cycle issues the word at the PC of
its wave's lowest lanes, fetched through `g15` (R37, R54, R77, R160) and, once seen, from the instruction caches; where no scheduler can,
the cycle ends (log 1). -/
def Obligations.StepRunsDecoded : Prop :=
  (∀ (s : State) i rest, s.agenda = i :: rest → step s = exec i { s with agenda := rest }) ∧
  (∀ (s : State) id, s.agenda = [] → s.nextWave = some id →
    let t := { s with cur := id, issued := s.issued ++ [4 * id.core + id.sched] }.windowStart id
    (t.needsPrefill id = true → step s = .next ((t.prefill id).stall id)) ∧
    (∀ x u i, t.needsPrefill id = false → t.fetchHead id = (.ok x, u) → decode x = .instr i → step s = exec i u) ∧
    (∀ x u a b, t.needsPrefill id = false → t.fetchHead id = (.ok x, u) → decode x = .reject a b → step s = .next (u.encodingFault id x)) ∧
    (∀ r u, t.needsPrefill id = false → t.fetchHead id = (.error r, u) → step s = .next (u.fetchFault id r))) ∧
  (∀ (s : State), s.agenda = [] → s.nextWave = none → step s = .next s.endCycle) ∧
  (∀ (s : State) id, s.nextWave = some id → 4 * id.core + id.sched ∉ s.issued) ∧
  (∀ (s u : State) (id : WaveId) (w : Wave) (g : Workgroup) (pc : Word) (active : Mask) (va pa : Nat) (leaf x : Dword), s.wave id = some w →
    w.headRun = some (pc, active) → s.wg id.core w.wg = some g → w.codeSeg = none →
    segCheck (sget 0#128 w.segs 15) (8 * pc.toNat) 8 8 .fetch = .ok va →
    s.translate id.core g.vf g.part false true va .fetch = (.ok pa leaf, u) →
    let v := u.touch id.core g.vf va false
    let a := v.canon pa / 8
    let decoded := sget none (v.core id.core).decoded a
    let cached := sget none (v.core id.core).icache a
    (∀ y, decoded = some y → s.fetchHead id = (.ok y, v)) ∧
    (∀ y, decoded = none → cached = some y → s.fetchHead id = (.ok y, v.updCore id.core (fun c => c.keepCode a y))) ∧
    (decoded = none → cached = none → v.poisoned pa = true → s.fetchHead id = (.error ⟨0x10, 2, va⟩, v)) ∧
    (decoded = none → cached = none → v.poisoned pa = false → v.homeBytes pa 8 = bytesOfWord x →
      s.fetchHead id = (.ok x, v.updCore id.core (fun c => c.keepCode a x))))

/-- The memory of the package keeps its canonical form over every step: addresses rising, none listed that reads as an unlisted one. -/
def Obligations.MemoryStaysCanonical : Prop :=
  ∀ s t : State, Memory.wf s.mem = true → step s = .next t → Memory.wf t.mem = true

/-- What reset leaves: the reset values that R253, R401, R413, R416 and R508 state for registers, with nothing resident, queued or watched. That
unlisted memory reads as 0 is the model's choice (log 6). -/
def Obligations.ResetValues : Prop :=
  let s := State.reset
  Memory.wf s.mem = true ∧ (∀ pa, s.isLocal pa = true → s.homeByte pa = 0#8) ∧
  (∀ ctx, sget 0xFFFFFFFF#32 s.trapbase ctx = 0xFFFFFFFF#32) ∧
  (∀ n, (s.part n).telebase = 0#64 ∧ (s.part n).shadow = 0#32 ∧ (s.part n).tslice = 0x00249F00#32 ∧
    (s.part n).triggerMask = 0x0000000E#32 ∧ (s.part n).health = .serving ∧ (s.part n).objects = [] ∧ (s.part n).regions = []) ∧
  (∀ n, (s.func n).feat = 0#128 ∧ (s.func n).queues = [] ∧ (s.func n).records = [] ∧ (s.func n).mailbox.busy = false ∧
    (s.func n).mailbox.done = false) ∧
  (∀ id, s.wave id = none) ∧ (∀ n i, s.wg n i = none) ∧ s.heldWrites = [] ∧ s.watches = [] ∧ s.packageContained = false ∧
  (∀ n l, sget L1Word.absent (s.core n).l1 l = L1Word.absent)
end

