-- ==== Sys2Proof/Laws/Issue.lean ====
section
/-!
SUPPORT. What the issue of a word does, once: a word that issues ends as its body says.
-/

namespace Sys2Proof.Laws
open Sys2Proof.Machine Sys2Proof.Claims

/-- Where a word issues, its body decides the next state. -/
theorem issueWord_of_issues {i : Instr} {s : State} {c : Ctx} {body : Ctx → State → Res} (h : Issues i s c) :
    issueWord i s body = .next (match body c (checked i s c) with
      | .done u => u.retire i.shape c false
      | .moved u => u.retire i.shape c true
      | .raise r m u => u.raiseAt c r m
      | .stay u => u) := by
  obtain ⟨hc, hr, hp, hm⟩ := h
  have hb : (s.issueBody i.shape (wordNeeds i c.wave) c body) = (match body c (checked i s c) with
      | .done u => u.retire i.shape c false
      | .moved u => u.retire i.shape c true
      | .raise r m u => u.raiseAt c r m
      | .stay u => u) := by
    unfold State.issueBody checked at *
    revert hp hm
    generalize s.checks c i.shape (wordNeeds i c.wave) = p
    obtain ⟨a, t⟩ := p
    rintro rfl hm
    dsimp only
    split
    · next hw =>
      simp only [Bool.and_eq_true, Bool.or_eq_true, decide_eq_true_eq] at hw
      obtain ⟨h1, h2⟩ := hm hw.1
      simp [h1, h2] at hw
    · rfl
  unfold issueWord
  simp only [hc, State.issue]
  cases hq : c.wave.resp with
  | none => simp only [hb]
  | some r =>
    obtain ⟨h1, h2⟩ := hr r hq
    simp only [hb, h2, Bool.not_true, Bool.false_eq_true, if_false, Nat.not_le.mpr h1]

/-- A word whose body is done retires. -/
theorem issueWord_done {i : Instr} {s u : State} {c : Ctx} {body : Ctx → State → Res} (h : Issues i s c)
    (hb : body c (checked i s c) = .done u) : issueWord i s body = .next (u.retire i.shape c false) := by
  rw [issueWord_of_issues h, hb]

/-- A word whose body has set the PCs retires. -/
theorem issueWord_moved {i : Instr} {s u : State} {c : Ctx} {body : Ctx → State → Res} (h : Issues i s c)
    (hb : body c (checked i s c) = .moved u) : issueWord i s body = .next (u.retire i.shape c true) := by
  rw [issueWord_of_issues h, hb]

/-- A word whose body raises is delivered as a fault. -/
theorem issueWord_raise {i : Instr} {s u : State} {c : Ctx} {body : Ctx → State → Res} {r : Raise} {m : Mask} (h : Issues i s c)
    (hb : body c (checked i s c) = .raise r m u) : issueWord i s body = .next (u.raiseAt c r m) := by
  rw [issueWord_of_issues h, hb]

end Sys2Proof.Laws
end

