-- ==== Sys2Proof/Laws/Sparse.lean ====
section
/-!
SUPPORT. Sparse tables: a read after a write, of the same key and of another, and the canonical form that every write keeps.
-/

namespace Sys2Proof.Laws
open Sys2Proof.Machine

variable {β : Type} [DecidableEq β] (d : β)

/-- Nothing is read where an entry was removed. -/
@[simp] theorem sget_sdel_same (m : Sparse β) (k : Nat) : sget d (sdel m k) k = d := by
  induction m with
  | nil => rfl
  | cons e m ih =>
    by_cases h : e.1 = k
    · simpa [sdel, h] using ih
    · have h' : ¬ k = e.1 := fun e' => h e'.symm
      simpa [sdel, h, sget, h'] using ih

/-- A removal leaves the other keys as they read. -/
theorem sget_sdel_other (m : Sparse β) {k j : Nat} (hj : j ≠ k) : sget d (sdel m k) j = sget d m j := by
  induction m with
  | nil => rfl
  | cons e m ih =>
    by_cases h : e.1 = k
    · simpa [sdel, h, sget, hj] using ih
    · by_cases h2 : j = e.1
      · simp [sdel, h, sget, h2]
      · simpa [sdel, h, sget, h2] using ih

/-- A read after a write of the same key gives the value written. -/
@[simp] theorem sget_sset_same (m : Sparse β) (k : Nat) (v : β) : sget d (sset d m k v) k = v := by
  induction m with
  | nil => by_cases h : v = d <;> simp [sset, sget, h]
  | cons e m ih =>
    obtain ⟨j, u⟩ := e
    rcases Nat.lt_trichotomy k j with h | rfl | h
    · have h1 : ¬ k = j := by omega
      by_cases hv : v = d
      · subst hv; simp [sset, sget, h, h1]
      · simp [sset, sget, h, h1, hv]
    · by_cases hv : v = d
      · subst hv; simp [sset]
      · simp [sset, sget, hv]
    · have h1 : ¬ k = j := by omega
      have h2 : ¬ k < j := by omega
      simpa [sset, sget, h1, h2] using ih

/-- A write leaves the other keys as they read. -/
theorem sget_sset_other (m : Sparse β) {k j : Nat} (v : β) (hj : j ≠ k) : sget d (sset d m k v) j = sget d m j := by
  induction m with
  | nil => by_cases h : v = d <;> simp [sset, sget, h, hj]
  | cons e m ih =>
    obtain ⟨i, u⟩ := e
    rcases Nat.lt_trichotomy k i with h | rfl | h
    · have h1 : ¬ k = i := by omega
      by_cases hv : v = d
      · simp [sset, sget, h, h1, hv, sget_sdel_other d m hj]
      · simp [sset, sget, h, h1, hv, hj]
    · by_cases hv : v = d
      · simp [sset, sget, hv, hj, sget_sdel_other d m hj]
      · simp [sset, sget, hv, hj]
    · have h1 : ¬ k = i := by omega
      have h2 : ¬ k < i := by omega
      by_cases h3 : j = i
      · simp [sset, sget, h1, h2, h3]
      · simp [sset, sget, h1, h2, h3, ih]

/-- A read after a write, whichever the keys. -/
theorem sget_sset (m : Sparse β) (k j : Nat) (v : β) : sget d (sset d m k v) j = if j = k then v else sget d m j := by
  by_cases h : j = k
  · subst h; simp
  · simp [h, sget_sset_other d m v h]

/-- Writing what is there already changes nothing that is read. -/
theorem sget_sset_self (m : Sparse β) (k j : Nat) : sget d (sset d m k (sget d m k)) j = sget d m j := by
  rw [sget_sset]; split <;> simp_all

/-! ### The canonical form -/

/-- A lower bound on the keys may be weakened. -/
theorem sokFrom_mono {m : Sparse β} {a b : Nat} (hab : a ≤ b) (h : sokFrom d b m = true) : sokFrom d a m = true := by
  cases m with
  | nil => rfl
  | cons e m =>
    simp only [sokFrom, Bool.and_eq_true, decide_eq_true_eq] at h ⊢
    exact ⟨⟨by omega, h.1.2⟩, h.2⟩

/-- A removal keeps the canonical form. -/
theorem sokFrom_sdel {m : Sparse β} {a : Nat} (k : Nat) (h : sokFrom d a m = true) : sokFrom d a (sdel m k) = true := by
  induction m generalizing a with
  | nil => rfl
  | cons e m ih =>
    simp only [sokFrom, Bool.and_eq_true, decide_eq_true_eq] at h
    by_cases he : e.1 = k
    · simpa [sdel, he] using sokFrom_mono d (by omega) (ih h.2)
    · have e1 : sdel (e :: m) k = e :: sdel m k := List.filter_cons_of_pos (by simpa using he)
      rw [e1]
      simp only [sokFrom, Bool.and_eq_true, decide_eq_true_eq]
      exact ⟨h.1, ih h.2⟩

/-- A write at or above a lower bound keeps the canonical form from there. -/
theorem sokFrom_sset {m : Sparse β} {a : Nat} (k : Nat) (v : β) (hk : a ≤ k) (h : sokFrom d a m = true) :
    sokFrom d a (sset d m k v) = true := by
  induction m generalizing a with
  | nil => by_cases hv : v = d <;> simp [sset, sokFrom, hv, hk]
  | cons e m ih =>
    obtain ⟨j, u⟩ := e
    have h' := h
    simp only [sokFrom, Bool.and_eq_true, decide_eq_true_eq] at h
    rcases Nat.lt_trichotomy k j with hj | rfl | hj
    · have h1 : ¬ k = j := by omega
      by_cases hv : v = d
      · simp only [sset, if_neg h1, hj, if_true, hv]
        simp [sokFrom, h.1.1, h.1.2, sokFrom_sdel d k h.2]
      · simp only [sset, if_neg h1, hj, if_true, if_neg hv]
        have : sokFrom d (k + 1) ((j, u) :: m) = true := by
          simp only [sokFrom, Bool.and_eq_true, decide_eq_true_eq]; exact ⟨⟨by omega, h.1.2⟩, h.2⟩
        simp [sokFrom, hk, hv] at this ⊢; exact this
    · by_cases hv : v = d
      · simp only [sset, if_true, hv]
        exact sokFrom_mono d (by omega) (sokFrom_sdel d k h.2)
      · simp [sset, sokFrom, hv, hk, h.2]
    · have h1 : ¬ k = j := by omega
      have h2 : ¬ k < j := by omega
      simp [sset, sokFrom, h1, h2, h.1.1, h.1.2, ih (a := j + 1) (by omega) h.2]

/-- Every write of a table keeps its canonical form. -/
theorem sok_sset {m : Sparse β} (k : Nat) (v : β) (h : sok d m = true) : sok d (sset d m k v) = true :=
  sokFrom_sset d k v (Nat.zero_le k) h

/-- So does a write of consecutive entries. -/
theorem sok_ssetList {m : Sparse β} (k : Nat) (vs : List β) (h : sok d m = true) : sok d (ssetList d m k vs) = true := by
  induction vs generalizing m k with
  | nil => exact h
  | cons v vs ih => exact ih (k + 1) (sok_sset d k v h)

end Sys2Proof.Laws
end

