-- ==== Sys2Proof/Laws/State.lean ====
section
/-!
SUPPORT. Every field of the state and of a wave after each named update of one part of it: the update leaves it as it was.
-/

namespace Sys2Proof.Laws
open Sys2Proof.Machine

/-! ### What replacing a core leaves -/

@[simp] theorem setCore_agenda (s : State) (n : Nat) (c : Core) : (s.setCore n c).agenda = s.agenda := rfl
@[simp] theorem setCore_cur (s : State) (n : Nat) (c : Core) : (s.setCore n c).cur = s.cur := rfl
@[simp] theorem setCore_issued (s : State) (n : Nat) (c : Core) : (s.setCore n c).issued = s.issued := rfl
@[simp] theorem setCore_free (s : State) (n : Nat) (c : Core) : (s.setCore n c).free = s.free := rfl
@[simp] theorem setCore_tags (s : State) (n : Nat) (c : Core) : (s.setCore n c).tags = s.tags := rfl
@[simp] theorem setCore_clk (s : State) (n : Nat) (c : Core) : (s.setCore n c).clk = s.clk := rfl
@[simp] theorem setCore_powered (s : State) (n : Nat) (c : Core) : (s.setCore n c).powered = s.powered := rfl
@[simp] theorem setCore_mem (s : State) (n : Nat) (c : Core) : (s.setCore n c).mem = s.mem := rfl
@[simp] theorem setCore_ext (s : State) (n : Nat) (c : Core) : (s.setCore n c).ext = s.ext := rfl
@[simp] theorem setCore_poison (s : State) (n : Nat) (c : Core) : (s.setCore n c).poison = s.poison := rfl
@[simp] theorem setCore_owners (s : State) (n : Nat) (c : Core) : (s.setCore n c).owners = s.owners := rfl
@[simp] theorem setCore_cells (s : State) (n : Nat) (c : Core) : (s.setCore n c).cells = s.cells := rfl
@[simp] theorem setCore_heldWrites (s : State) (n : Nat) (c : Core) : (s.setCore n c).heldWrites = s.heldWrites := rfl
@[simp] theorem setCore_heldNum (s : State) (n : Nat) (c : Core) : (s.setCore n c).heldNum = s.heldNum := rfl
@[simp] theorem setCore_shadows (s : State) (n : Nat) (c : Core) : (s.setCore n c).shadows = s.shadows := rfl
@[simp] theorem setCore_watches (s : State) (n : Nat) (c : Core) : (s.setCore n c).watches = s.watches := rfl
@[simp] theorem setCore_l2 (s : State) (n : Nat) (c : Core) : (s.setCore n c).l2 = s.l2 := rfl
@[simp] theorem setCore_walks (s : State) (n : Nat) (c : Core) : (s.setCore n c).walks = s.walks := rfl
@[simp] theorem setCore_parts (s : State) (n : Nat) (c : Core) : (s.setCore n c).parts = s.parts := rfl
@[simp] theorem setCore_funcs (s : State) (n : Nat) (c : Core) : (s.setCore n c).funcs = s.funcs := rfl
@[simp] theorem setCore_trapbase (s : State) (n : Nat) (c : Core) : (s.setCore n c).trapbase = s.trapbase := rfl
@[simp] theorem setCore_postings (s : State) (n : Nat) (c : Core) : (s.setCore n c).postings = s.postings := rfl
@[simp] theorem setCore_complexA (s : State) (n : Nat) (c : Core) : (s.setCore n c).complexA = s.complexA := rfl
@[simp] theorem setCore_complexB (s : State) (n : Nat) (c : Core) : (s.setCore n c).complexB = s.complexB := rfl
@[simp] theorem setCore_activeB (s : State) (n : Nat) (c : Core) : (s.setCore n c).activeB = s.activeB := rfl
@[simp] theorem setCore_missed (s : State) (n : Nat) (c : Core) : (s.setCore n c).missed = s.missed := rfl
@[simp] theorem setCore_stateMajor (s : State) (n : Nat) (c : Core) : (s.setCore n c).stateMajor = s.stateMajor := rfl
@[simp] theorem setCore_stateMinor (s : State) (n : Nat) (c : Core) : (s.setCore n c).stateMinor = s.stateMinor := rfl
@[simp] theorem setCore_pstate (s : State) (n : Nat) (c : Core) : (s.setCore n c).pstate = s.pstate := rfl
@[simp] theorem setCore_thermal (s : State) (n : Nat) (c : Core) : (s.setCore n c).thermal = s.thermal := rfl
@[simp] theorem setCore_temps (s : State) (n : Nat) (c : Core) : (s.setCore n c).temps = s.temps := rfl
@[simp] theorem setCore_package (s : State) (n : Nat) (c : Core) : (s.setCore n c).package = s.package := rfl
@[simp] theorem setCore_ports (s : State) (n : Nat) (c : Core) : (s.setCore n c).ports = s.ports := rfl
@[simp] theorem setCore_groups (s : State) (n : Nat) (c : Core) : (s.setCore n c).groups = s.groups := rfl
@[simp] theorem setCore_rings (s : State) (n : Nat) (c : Core) : (s.setCore n c).rings = s.rings := rfl
@[simp] theorem setCore_fabric (s : State) (n : Nat) (c : Core) : (s.setCore n c).fabric = s.fabric := rfl
@[simp] theorem setCore_turns (s : State) (n : Nat) (c : Core) : (s.setCore n c).turns = s.turns := rfl
@[simp] theorem setCore_unitErrors (s : State) (n : Nat) (c : Core) : (s.setCore n c).unitErrors = s.unitErrors := rfl
@[simp] theorem setCore_unitFails (s : State) (n : Nat) (c : Core) : (s.setCore n c).unitFails = s.unitFails := rfl
@[simp] theorem setCore_hostHeld (s : State) (n : Nat) (c : Core) : (s.setCore n c).hostHeld = s.hostHeld := rfl
@[simp] theorem setCore_failedSectors (s : State) (n : Nat) (c : Core) : (s.setCore n c).failedSectors = s.failedSectors := rfl
@[simp] theorem setCore_packageContained (s : State) (n : Nat) (c : Core) : (s.setCore n c).packageContained = s.packageContained := rfl
@[simp] theorem setCore_readData (s : State) (n : Nat) (c : Core) : (s.setCore n c).readData = s.readData := rfl
@[simp] theorem setCore_readPoison (s : State) (n : Nat) (c : Core) : (s.setCore n c).readPoison = s.readPoison := rfl
@[simp] theorem setCore_debugReports (s : State) (n : Nat) (c : Core) : (s.setCore n c).debugReports = s.debugReports := rfl

/-! ### What changing a core leaves -/

@[simp] theorem updCore_agenda (s : State) (n : Nat) (g : Core → Core) : (s.updCore n g).agenda = s.agenda := rfl
@[simp] theorem updCore_cur (s : State) (n : Nat) (g : Core → Core) : (s.updCore n g).cur = s.cur := rfl
@[simp] theorem updCore_issued (s : State) (n : Nat) (g : Core → Core) : (s.updCore n g).issued = s.issued := rfl
@[simp] theorem updCore_free (s : State) (n : Nat) (g : Core → Core) : (s.updCore n g).free = s.free := rfl
@[simp] theorem updCore_tags (s : State) (n : Nat) (g : Core → Core) : (s.updCore n g).tags = s.tags := rfl
@[simp] theorem updCore_clk (s : State) (n : Nat) (g : Core → Core) : (s.updCore n g).clk = s.clk := rfl
@[simp] theorem updCore_powered (s : State) (n : Nat) (g : Core → Core) : (s.updCore n g).powered = s.powered := rfl
@[simp] theorem updCore_mem (s : State) (n : Nat) (g : Core → Core) : (s.updCore n g).mem = s.mem := rfl
@[simp] theorem updCore_ext (s : State) (n : Nat) (g : Core → Core) : (s.updCore n g).ext = s.ext := rfl
@[simp] theorem updCore_poison (s : State) (n : Nat) (g : Core → Core) : (s.updCore n g).poison = s.poison := rfl
@[simp] theorem updCore_owners (s : State) (n : Nat) (g : Core → Core) : (s.updCore n g).owners = s.owners := rfl
@[simp] theorem updCore_cells (s : State) (n : Nat) (g : Core → Core) : (s.updCore n g).cells = s.cells := rfl
@[simp] theorem updCore_heldWrites (s : State) (n : Nat) (g : Core → Core) : (s.updCore n g).heldWrites = s.heldWrites := rfl
@[simp] theorem updCore_heldNum (s : State) (n : Nat) (g : Core → Core) : (s.updCore n g).heldNum = s.heldNum := rfl
@[simp] theorem updCore_shadows (s : State) (n : Nat) (g : Core → Core) : (s.updCore n g).shadows = s.shadows := rfl
@[simp] theorem updCore_watches (s : State) (n : Nat) (g : Core → Core) : (s.updCore n g).watches = s.watches := rfl
@[simp] theorem updCore_l2 (s : State) (n : Nat) (g : Core → Core) : (s.updCore n g).l2 = s.l2 := rfl
@[simp] theorem updCore_walks (s : State) (n : Nat) (g : Core → Core) : (s.updCore n g).walks = s.walks := rfl
@[simp] theorem updCore_parts (s : State) (n : Nat) (g : Core → Core) : (s.updCore n g).parts = s.parts := rfl
@[simp] theorem updCore_funcs (s : State) (n : Nat) (g : Core → Core) : (s.updCore n g).funcs = s.funcs := rfl
@[simp] theorem updCore_trapbase (s : State) (n : Nat) (g : Core → Core) : (s.updCore n g).trapbase = s.trapbase := rfl
@[simp] theorem updCore_postings (s : State) (n : Nat) (g : Core → Core) : (s.updCore n g).postings = s.postings := rfl
@[simp] theorem updCore_complexA (s : State) (n : Nat) (g : Core → Core) : (s.updCore n g).complexA = s.complexA := rfl
@[simp] theorem updCore_complexB (s : State) (n : Nat) (g : Core → Core) : (s.updCore n g).complexB = s.complexB := rfl
@[simp] theorem updCore_activeB (s : State) (n : Nat) (g : Core → Core) : (s.updCore n g).activeB = s.activeB := rfl
@[simp] theorem updCore_missed (s : State) (n : Nat) (g : Core → Core) : (s.updCore n g).missed = s.missed := rfl
@[simp] theorem updCore_stateMajor (s : State) (n : Nat) (g : Core → Core) : (s.updCore n g).stateMajor = s.stateMajor := rfl
@[simp] theorem updCore_stateMinor (s : State) (n : Nat) (g : Core → Core) : (s.updCore n g).stateMinor = s.stateMinor := rfl
@[simp] theorem updCore_pstate (s : State) (n : Nat) (g : Core → Core) : (s.updCore n g).pstate = s.pstate := rfl
@[simp] theorem updCore_thermal (s : State) (n : Nat) (g : Core → Core) : (s.updCore n g).thermal = s.thermal := rfl
@[simp] theorem updCore_temps (s : State) (n : Nat) (g : Core → Core) : (s.updCore n g).temps = s.temps := rfl
@[simp] theorem updCore_package (s : State) (n : Nat) (g : Core → Core) : (s.updCore n g).package = s.package := rfl
@[simp] theorem updCore_ports (s : State) (n : Nat) (g : Core → Core) : (s.updCore n g).ports = s.ports := rfl
@[simp] theorem updCore_groups (s : State) (n : Nat) (g : Core → Core) : (s.updCore n g).groups = s.groups := rfl
@[simp] theorem updCore_rings (s : State) (n : Nat) (g : Core → Core) : (s.updCore n g).rings = s.rings := rfl
@[simp] theorem updCore_fabric (s : State) (n : Nat) (g : Core → Core) : (s.updCore n g).fabric = s.fabric := rfl
@[simp] theorem updCore_turns (s : State) (n : Nat) (g : Core → Core) : (s.updCore n g).turns = s.turns := rfl
@[simp] theorem updCore_unitErrors (s : State) (n : Nat) (g : Core → Core) : (s.updCore n g).unitErrors = s.unitErrors := rfl
@[simp] theorem updCore_unitFails (s : State) (n : Nat) (g : Core → Core) : (s.updCore n g).unitFails = s.unitFails := rfl
@[simp] theorem updCore_hostHeld (s : State) (n : Nat) (g : Core → Core) : (s.updCore n g).hostHeld = s.hostHeld := rfl
@[simp] theorem updCore_failedSectors (s : State) (n : Nat) (g : Core → Core) : (s.updCore n g).failedSectors = s.failedSectors := rfl
@[simp] theorem updCore_packageContained (s : State) (n : Nat) (g : Core → Core) : (s.updCore n g).packageContained = s.packageContained := rfl
@[simp] theorem updCore_readData (s : State) (n : Nat) (g : Core → Core) : (s.updCore n g).readData = s.readData := rfl
@[simp] theorem updCore_readPoison (s : State) (n : Nat) (g : Core → Core) : (s.updCore n g).readPoison = s.readPoison := rfl
@[simp] theorem updCore_debugReports (s : State) (n : Nat) (g : Core → Core) : (s.updCore n g).debugReports = s.debugReports := rfl

/-! ### What replacing a wave leaves -/

@[simp] theorem setWave_agenda (s : State) (w : WaveId) (v : Option Wave) : (s.setWave w v).agenda = s.agenda := rfl
@[simp] theorem setWave_cur (s : State) (w : WaveId) (v : Option Wave) : (s.setWave w v).cur = s.cur := rfl
@[simp] theorem setWave_issued (s : State) (w : WaveId) (v : Option Wave) : (s.setWave w v).issued = s.issued := rfl
@[simp] theorem setWave_free (s : State) (w : WaveId) (v : Option Wave) : (s.setWave w v).free = s.free := rfl
@[simp] theorem setWave_tags (s : State) (w : WaveId) (v : Option Wave) : (s.setWave w v).tags = s.tags := rfl
@[simp] theorem setWave_clk (s : State) (w : WaveId) (v : Option Wave) : (s.setWave w v).clk = s.clk := rfl
@[simp] theorem setWave_powered (s : State) (w : WaveId) (v : Option Wave) : (s.setWave w v).powered = s.powered := rfl
@[simp] theorem setWave_mem (s : State) (w : WaveId) (v : Option Wave) : (s.setWave w v).mem = s.mem := rfl
@[simp] theorem setWave_ext (s : State) (w : WaveId) (v : Option Wave) : (s.setWave w v).ext = s.ext := rfl
@[simp] theorem setWave_poison (s : State) (w : WaveId) (v : Option Wave) : (s.setWave w v).poison = s.poison := rfl
@[simp] theorem setWave_owners (s : State) (w : WaveId) (v : Option Wave) : (s.setWave w v).owners = s.owners := rfl
@[simp] theorem setWave_cells (s : State) (w : WaveId) (v : Option Wave) : (s.setWave w v).cells = s.cells := rfl
@[simp] theorem setWave_heldWrites (s : State) (w : WaveId) (v : Option Wave) : (s.setWave w v).heldWrites = s.heldWrites := rfl
@[simp] theorem setWave_heldNum (s : State) (w : WaveId) (v : Option Wave) : (s.setWave w v).heldNum = s.heldNum := rfl
@[simp] theorem setWave_shadows (s : State) (w : WaveId) (v : Option Wave) : (s.setWave w v).shadows = s.shadows := rfl
@[simp] theorem setWave_watches (s : State) (w : WaveId) (v : Option Wave) : (s.setWave w v).watches = s.watches := rfl
@[simp] theorem setWave_l2 (s : State) (w : WaveId) (v : Option Wave) : (s.setWave w v).l2 = s.l2 := rfl
@[simp] theorem setWave_walks (s : State) (w : WaveId) (v : Option Wave) : (s.setWave w v).walks = s.walks := rfl
@[simp] theorem setWave_parts (s : State) (w : WaveId) (v : Option Wave) : (s.setWave w v).parts = s.parts := rfl
@[simp] theorem setWave_funcs (s : State) (w : WaveId) (v : Option Wave) : (s.setWave w v).funcs = s.funcs := rfl
@[simp] theorem setWave_trapbase (s : State) (w : WaveId) (v : Option Wave) : (s.setWave w v).trapbase = s.trapbase := rfl
@[simp] theorem setWave_postings (s : State) (w : WaveId) (v : Option Wave) : (s.setWave w v).postings = s.postings := rfl
@[simp] theorem setWave_complexA (s : State) (w : WaveId) (v : Option Wave) : (s.setWave w v).complexA = s.complexA := rfl
@[simp] theorem setWave_complexB (s : State) (w : WaveId) (v : Option Wave) : (s.setWave w v).complexB = s.complexB := rfl
@[simp] theorem setWave_activeB (s : State) (w : WaveId) (v : Option Wave) : (s.setWave w v).activeB = s.activeB := rfl
@[simp] theorem setWave_missed (s : State) (w : WaveId) (v : Option Wave) : (s.setWave w v).missed = s.missed := rfl
@[simp] theorem setWave_stateMajor (s : State) (w : WaveId) (v : Option Wave) : (s.setWave w v).stateMajor = s.stateMajor := rfl
@[simp] theorem setWave_stateMinor (s : State) (w : WaveId) (v : Option Wave) : (s.setWave w v).stateMinor = s.stateMinor := rfl
@[simp] theorem setWave_pstate (s : State) (w : WaveId) (v : Option Wave) : (s.setWave w v).pstate = s.pstate := rfl
@[simp] theorem setWave_thermal (s : State) (w : WaveId) (v : Option Wave) : (s.setWave w v).thermal = s.thermal := rfl
@[simp] theorem setWave_temps (s : State) (w : WaveId) (v : Option Wave) : (s.setWave w v).temps = s.temps := rfl
@[simp] theorem setWave_package (s : State) (w : WaveId) (v : Option Wave) : (s.setWave w v).package = s.package := rfl
@[simp] theorem setWave_ports (s : State) (w : WaveId) (v : Option Wave) : (s.setWave w v).ports = s.ports := rfl
@[simp] theorem setWave_groups (s : State) (w : WaveId) (v : Option Wave) : (s.setWave w v).groups = s.groups := rfl
@[simp] theorem setWave_rings (s : State) (w : WaveId) (v : Option Wave) : (s.setWave w v).rings = s.rings := rfl
@[simp] theorem setWave_fabric (s : State) (w : WaveId) (v : Option Wave) : (s.setWave w v).fabric = s.fabric := rfl
@[simp] theorem setWave_turns (s : State) (w : WaveId) (v : Option Wave) : (s.setWave w v).turns = s.turns := rfl
@[simp] theorem setWave_unitErrors (s : State) (w : WaveId) (v : Option Wave) : (s.setWave w v).unitErrors = s.unitErrors := rfl
@[simp] theorem setWave_unitFails (s : State) (w : WaveId) (v : Option Wave) : (s.setWave w v).unitFails = s.unitFails := rfl
@[simp] theorem setWave_hostHeld (s : State) (w : WaveId) (v : Option Wave) : (s.setWave w v).hostHeld = s.hostHeld := rfl
@[simp] theorem setWave_failedSectors (s : State) (w : WaveId) (v : Option Wave) : (s.setWave w v).failedSectors = s.failedSectors := rfl
@[simp] theorem setWave_packageContained (s : State) (w : WaveId) (v : Option Wave) : (s.setWave w v).packageContained = s.packageContained := rfl
@[simp] theorem setWave_readData (s : State) (w : WaveId) (v : Option Wave) : (s.setWave w v).readData = s.readData := rfl
@[simp] theorem setWave_readPoison (s : State) (w : WaveId) (v : Option Wave) : (s.setWave w v).readPoison = s.readPoison := rfl
@[simp] theorem setWave_debugReports (s : State) (w : WaveId) (v : Option Wave) : (s.setWave w v).debugReports = s.debugReports := rfl

/-! ### What replacing a workgroup leaves -/

@[simp] theorem setWg_agenda (s : State) (n i : Nat) (g : Option Workgroup) : (s.setWg n i g).agenda = s.agenda := rfl
@[simp] theorem setWg_cur (s : State) (n i : Nat) (g : Option Workgroup) : (s.setWg n i g).cur = s.cur := rfl
@[simp] theorem setWg_issued (s : State) (n i : Nat) (g : Option Workgroup) : (s.setWg n i g).issued = s.issued := rfl
@[simp] theorem setWg_free (s : State) (n i : Nat) (g : Option Workgroup) : (s.setWg n i g).free = s.free := rfl
@[simp] theorem setWg_tags (s : State) (n i : Nat) (g : Option Workgroup) : (s.setWg n i g).tags = s.tags := rfl
@[simp] theorem setWg_clk (s : State) (n i : Nat) (g : Option Workgroup) : (s.setWg n i g).clk = s.clk := rfl
@[simp] theorem setWg_powered (s : State) (n i : Nat) (g : Option Workgroup) : (s.setWg n i g).powered = s.powered := rfl
@[simp] theorem setWg_mem (s : State) (n i : Nat) (g : Option Workgroup) : (s.setWg n i g).mem = s.mem := rfl
@[simp] theorem setWg_ext (s : State) (n i : Nat) (g : Option Workgroup) : (s.setWg n i g).ext = s.ext := rfl
@[simp] theorem setWg_poison (s : State) (n i : Nat) (g : Option Workgroup) : (s.setWg n i g).poison = s.poison := rfl
@[simp] theorem setWg_owners (s : State) (n i : Nat) (g : Option Workgroup) : (s.setWg n i g).owners = s.owners := rfl
@[simp] theorem setWg_cells (s : State) (n i : Nat) (g : Option Workgroup) : (s.setWg n i g).cells = s.cells := rfl
@[simp] theorem setWg_heldWrites (s : State) (n i : Nat) (g : Option Workgroup) : (s.setWg n i g).heldWrites = s.heldWrites := rfl
@[simp] theorem setWg_heldNum (s : State) (n i : Nat) (g : Option Workgroup) : (s.setWg n i g).heldNum = s.heldNum := rfl
@[simp] theorem setWg_shadows (s : State) (n i : Nat) (g : Option Workgroup) : (s.setWg n i g).shadows = s.shadows := rfl
@[simp] theorem setWg_watches (s : State) (n i : Nat) (g : Option Workgroup) : (s.setWg n i g).watches = s.watches := rfl
@[simp] theorem setWg_l2 (s : State) (n i : Nat) (g : Option Workgroup) : (s.setWg n i g).l2 = s.l2 := rfl
@[simp] theorem setWg_walks (s : State) (n i : Nat) (g : Option Workgroup) : (s.setWg n i g).walks = s.walks := rfl
@[simp] theorem setWg_parts (s : State) (n i : Nat) (g : Option Workgroup) : (s.setWg n i g).parts = s.parts := rfl
@[simp] theorem setWg_funcs (s : State) (n i : Nat) (g : Option Workgroup) : (s.setWg n i g).funcs = s.funcs := rfl
@[simp] theorem setWg_trapbase (s : State) (n i : Nat) (g : Option Workgroup) : (s.setWg n i g).trapbase = s.trapbase := rfl
@[simp] theorem setWg_postings (s : State) (n i : Nat) (g : Option Workgroup) : (s.setWg n i g).postings = s.postings := rfl
@[simp] theorem setWg_complexA (s : State) (n i : Nat) (g : Option Workgroup) : (s.setWg n i g).complexA = s.complexA := rfl
@[simp] theorem setWg_complexB (s : State) (n i : Nat) (g : Option Workgroup) : (s.setWg n i g).complexB = s.complexB := rfl
@[simp] theorem setWg_activeB (s : State) (n i : Nat) (g : Option Workgroup) : (s.setWg n i g).activeB = s.activeB := rfl
@[simp] theorem setWg_missed (s : State) (n i : Nat) (g : Option Workgroup) : (s.setWg n i g).missed = s.missed := rfl
@[simp] theorem setWg_stateMajor (s : State) (n i : Nat) (g : Option Workgroup) : (s.setWg n i g).stateMajor = s.stateMajor := rfl
@[simp] theorem setWg_stateMinor (s : State) (n i : Nat) (g : Option Workgroup) : (s.setWg n i g).stateMinor = s.stateMinor := rfl
@[simp] theorem setWg_pstate (s : State) (n i : Nat) (g : Option Workgroup) : (s.setWg n i g).pstate = s.pstate := rfl
@[simp] theorem setWg_thermal (s : State) (n i : Nat) (g : Option Workgroup) : (s.setWg n i g).thermal = s.thermal := rfl
@[simp] theorem setWg_temps (s : State) (n i : Nat) (g : Option Workgroup) : (s.setWg n i g).temps = s.temps := rfl
@[simp] theorem setWg_package (s : State) (n i : Nat) (g : Option Workgroup) : (s.setWg n i g).package = s.package := rfl
@[simp] theorem setWg_ports (s : State) (n i : Nat) (g : Option Workgroup) : (s.setWg n i g).ports = s.ports := rfl
@[simp] theorem setWg_groups (s : State) (n i : Nat) (g : Option Workgroup) : (s.setWg n i g).groups = s.groups := rfl
@[simp] theorem setWg_rings (s : State) (n i : Nat) (g : Option Workgroup) : (s.setWg n i g).rings = s.rings := rfl
@[simp] theorem setWg_fabric (s : State) (n i : Nat) (g : Option Workgroup) : (s.setWg n i g).fabric = s.fabric := rfl
@[simp] theorem setWg_turns (s : State) (n i : Nat) (g : Option Workgroup) : (s.setWg n i g).turns = s.turns := rfl
@[simp] theorem setWg_unitErrors (s : State) (n i : Nat) (g : Option Workgroup) : (s.setWg n i g).unitErrors = s.unitErrors := rfl
@[simp] theorem setWg_unitFails (s : State) (n i : Nat) (g : Option Workgroup) : (s.setWg n i g).unitFails = s.unitFails := rfl
@[simp] theorem setWg_hostHeld (s : State) (n i : Nat) (g : Option Workgroup) : (s.setWg n i g).hostHeld = s.hostHeld := rfl
@[simp] theorem setWg_failedSectors (s : State) (n i : Nat) (g : Option Workgroup) : (s.setWg n i g).failedSectors = s.failedSectors := rfl
@[simp] theorem setWg_packageContained (s : State) (n i : Nat) (g : Option Workgroup) : (s.setWg n i g).packageContained = s.packageContained := rfl
@[simp] theorem setWg_readData (s : State) (n i : Nat) (g : Option Workgroup) : (s.setWg n i g).readData = s.readData := rfl
@[simp] theorem setWg_readPoison (s : State) (n i : Nat) (g : Option Workgroup) : (s.setWg n i g).readPoison = s.readPoison := rfl
@[simp] theorem setWg_debugReports (s : State) (n i : Nat) (g : Option Workgroup) : (s.setWg n i g).debugReports = s.debugReports := rfl

/-! ### What changing a wave leaves -/

@[simp] theorem updWave_agenda (s : State) (w : WaveId) (g : Wave → Wave) : (s.updWave w g).agenda = s.agenda := by unfold State.updWave; split <;> rfl
@[simp] theorem updWave_cur (s : State) (w : WaveId) (g : Wave → Wave) : (s.updWave w g).cur = s.cur := by unfold State.updWave; split <;> rfl
@[simp] theorem updWave_issued (s : State) (w : WaveId) (g : Wave → Wave) : (s.updWave w g).issued = s.issued := by unfold State.updWave; split <;> rfl
@[simp] theorem updWave_free (s : State) (w : WaveId) (g : Wave → Wave) : (s.updWave w g).free = s.free := by unfold State.updWave; split <;> rfl
@[simp] theorem updWave_tags (s : State) (w : WaveId) (g : Wave → Wave) : (s.updWave w g).tags = s.tags := by unfold State.updWave; split <;> rfl
@[simp] theorem updWave_clk (s : State) (w : WaveId) (g : Wave → Wave) : (s.updWave w g).clk = s.clk := by unfold State.updWave; split <;> rfl
@[simp] theorem updWave_powered (s : State) (w : WaveId) (g : Wave → Wave) : (s.updWave w g).powered = s.powered := by unfold State.updWave; split <;> rfl
@[simp] theorem updWave_mem (s : State) (w : WaveId) (g : Wave → Wave) : (s.updWave w g).mem = s.mem := by unfold State.updWave; split <;> rfl
@[simp] theorem updWave_ext (s : State) (w : WaveId) (g : Wave → Wave) : (s.updWave w g).ext = s.ext := by unfold State.updWave; split <;> rfl
@[simp] theorem updWave_poison (s : State) (w : WaveId) (g : Wave → Wave) : (s.updWave w g).poison = s.poison := by unfold State.updWave; split <;> rfl
@[simp] theorem updWave_owners (s : State) (w : WaveId) (g : Wave → Wave) : (s.updWave w g).owners = s.owners := by unfold State.updWave; split <;> rfl
@[simp] theorem updWave_cells (s : State) (w : WaveId) (g : Wave → Wave) : (s.updWave w g).cells = s.cells := by unfold State.updWave; split <;> rfl
@[simp] theorem updWave_heldWrites (s : State) (w : WaveId) (g : Wave → Wave) : (s.updWave w g).heldWrites = s.heldWrites := by unfold State.updWave; split <;> rfl
@[simp] theorem updWave_heldNum (s : State) (w : WaveId) (g : Wave → Wave) : (s.updWave w g).heldNum = s.heldNum := by unfold State.updWave; split <;> rfl
@[simp] theorem updWave_shadows (s : State) (w : WaveId) (g : Wave → Wave) : (s.updWave w g).shadows = s.shadows := by unfold State.updWave; split <;> rfl
@[simp] theorem updWave_watches (s : State) (w : WaveId) (g : Wave → Wave) : (s.updWave w g).watches = s.watches := by unfold State.updWave; split <;> rfl
@[simp] theorem updWave_l2 (s : State) (w : WaveId) (g : Wave → Wave) : (s.updWave w g).l2 = s.l2 := by unfold State.updWave; split <;> rfl
@[simp] theorem updWave_walks (s : State) (w : WaveId) (g : Wave → Wave) : (s.updWave w g).walks = s.walks := by unfold State.updWave; split <;> rfl
@[simp] theorem updWave_parts (s : State) (w : WaveId) (g : Wave → Wave) : (s.updWave w g).parts = s.parts := by unfold State.updWave; split <;> rfl
@[simp] theorem updWave_funcs (s : State) (w : WaveId) (g : Wave → Wave) : (s.updWave w g).funcs = s.funcs := by unfold State.updWave; split <;> rfl
@[simp] theorem updWave_trapbase (s : State) (w : WaveId) (g : Wave → Wave) : (s.updWave w g).trapbase = s.trapbase := by unfold State.updWave; split <;> rfl
@[simp] theorem updWave_postings (s : State) (w : WaveId) (g : Wave → Wave) : (s.updWave w g).postings = s.postings := by unfold State.updWave; split <;> rfl
@[simp] theorem updWave_complexA (s : State) (w : WaveId) (g : Wave → Wave) : (s.updWave w g).complexA = s.complexA := by unfold State.updWave; split <;> rfl
@[simp] theorem updWave_complexB (s : State) (w : WaveId) (g : Wave → Wave) : (s.updWave w g).complexB = s.complexB := by unfold State.updWave; split <;> rfl
@[simp] theorem updWave_activeB (s : State) (w : WaveId) (g : Wave → Wave) : (s.updWave w g).activeB = s.activeB := by unfold State.updWave; split <;> rfl
@[simp] theorem updWave_missed (s : State) (w : WaveId) (g : Wave → Wave) : (s.updWave w g).missed = s.missed := by unfold State.updWave; split <;> rfl
@[simp] theorem updWave_stateMajor (s : State) (w : WaveId) (g : Wave → Wave) : (s.updWave w g).stateMajor = s.stateMajor := by unfold State.updWave; split <;> rfl
@[simp] theorem updWave_stateMinor (s : State) (w : WaveId) (g : Wave → Wave) : (s.updWave w g).stateMinor = s.stateMinor := by unfold State.updWave; split <;> rfl
@[simp] theorem updWave_pstate (s : State) (w : WaveId) (g : Wave → Wave) : (s.updWave w g).pstate = s.pstate := by unfold State.updWave; split <;> rfl
@[simp] theorem updWave_thermal (s : State) (w : WaveId) (g : Wave → Wave) : (s.updWave w g).thermal = s.thermal := by unfold State.updWave; split <;> rfl
@[simp] theorem updWave_temps (s : State) (w : WaveId) (g : Wave → Wave) : (s.updWave w g).temps = s.temps := by unfold State.updWave; split <;> rfl
@[simp] theorem updWave_package (s : State) (w : WaveId) (g : Wave → Wave) : (s.updWave w g).package = s.package := by unfold State.updWave; split <;> rfl
@[simp] theorem updWave_ports (s : State) (w : WaveId) (g : Wave → Wave) : (s.updWave w g).ports = s.ports := by unfold State.updWave; split <;> rfl
@[simp] theorem updWave_groups (s : State) (w : WaveId) (g : Wave → Wave) : (s.updWave w g).groups = s.groups := by unfold State.updWave; split <;> rfl
@[simp] theorem updWave_rings (s : State) (w : WaveId) (g : Wave → Wave) : (s.updWave w g).rings = s.rings := by unfold State.updWave; split <;> rfl
@[simp] theorem updWave_fabric (s : State) (w : WaveId) (g : Wave → Wave) : (s.updWave w g).fabric = s.fabric := by unfold State.updWave; split <;> rfl
@[simp] theorem updWave_turns (s : State) (w : WaveId) (g : Wave → Wave) : (s.updWave w g).turns = s.turns := by unfold State.updWave; split <;> rfl
@[simp] theorem updWave_unitErrors (s : State) (w : WaveId) (g : Wave → Wave) : (s.updWave w g).unitErrors = s.unitErrors := by unfold State.updWave; split <;> rfl
@[simp] theorem updWave_unitFails (s : State) (w : WaveId) (g : Wave → Wave) : (s.updWave w g).unitFails = s.unitFails := by unfold State.updWave; split <;> rfl
@[simp] theorem updWave_hostHeld (s : State) (w : WaveId) (g : Wave → Wave) : (s.updWave w g).hostHeld = s.hostHeld := by unfold State.updWave; split <;> rfl
@[simp] theorem updWave_failedSectors (s : State) (w : WaveId) (g : Wave → Wave) : (s.updWave w g).failedSectors = s.failedSectors := by unfold State.updWave; split <;> rfl
@[simp] theorem updWave_packageContained (s : State) (w : WaveId) (g : Wave → Wave) : (s.updWave w g).packageContained = s.packageContained := by unfold State.updWave; split <;> rfl
@[simp] theorem updWave_readData (s : State) (w : WaveId) (g : Wave → Wave) : (s.updWave w g).readData = s.readData := by unfold State.updWave; split <;> rfl
@[simp] theorem updWave_readPoison (s : State) (w : WaveId) (g : Wave → Wave) : (s.updWave w g).readPoison = s.readPoison := by unfold State.updWave; split <;> rfl
@[simp] theorem updWave_debugReports (s : State) (w : WaveId) (g : Wave → Wave) : (s.updWave w g).debugReports = s.debugReports := by unfold State.updWave; split <;> rfl

/-! ### What changing a workgroup leaves -/

@[simp] theorem updWg_agenda (s : State) (n i : Nat) (g : Workgroup → Workgroup) : (s.updWg n i g).agenda = s.agenda := by unfold State.updWg; split <;> rfl
@[simp] theorem updWg_cur (s : State) (n i : Nat) (g : Workgroup → Workgroup) : (s.updWg n i g).cur = s.cur := by unfold State.updWg; split <;> rfl
@[simp] theorem updWg_issued (s : State) (n i : Nat) (g : Workgroup → Workgroup) : (s.updWg n i g).issued = s.issued := by unfold State.updWg; split <;> rfl
@[simp] theorem updWg_free (s : State) (n i : Nat) (g : Workgroup → Workgroup) : (s.updWg n i g).free = s.free := by unfold State.updWg; split <;> rfl
@[simp] theorem updWg_tags (s : State) (n i : Nat) (g : Workgroup → Workgroup) : (s.updWg n i g).tags = s.tags := by unfold State.updWg; split <;> rfl
@[simp] theorem updWg_clk (s : State) (n i : Nat) (g : Workgroup → Workgroup) : (s.updWg n i g).clk = s.clk := by unfold State.updWg; split <;> rfl
@[simp] theorem updWg_powered (s : State) (n i : Nat) (g : Workgroup → Workgroup) : (s.updWg n i g).powered = s.powered := by unfold State.updWg; split <;> rfl
@[simp] theorem updWg_mem (s : State) (n i : Nat) (g : Workgroup → Workgroup) : (s.updWg n i g).mem = s.mem := by unfold State.updWg; split <;> rfl
@[simp] theorem updWg_ext (s : State) (n i : Nat) (g : Workgroup → Workgroup) : (s.updWg n i g).ext = s.ext := by unfold State.updWg; split <;> rfl
@[simp] theorem updWg_poison (s : State) (n i : Nat) (g : Workgroup → Workgroup) : (s.updWg n i g).poison = s.poison := by unfold State.updWg; split <;> rfl
@[simp] theorem updWg_owners (s : State) (n i : Nat) (g : Workgroup → Workgroup) : (s.updWg n i g).owners = s.owners := by unfold State.updWg; split <;> rfl
@[simp] theorem updWg_cells (s : State) (n i : Nat) (g : Workgroup → Workgroup) : (s.updWg n i g).cells = s.cells := by unfold State.updWg; split <;> rfl
@[simp] theorem updWg_heldWrites (s : State) (n i : Nat) (g : Workgroup → Workgroup) : (s.updWg n i g).heldWrites = s.heldWrites := by unfold State.updWg; split <;> rfl
@[simp] theorem updWg_heldNum (s : State) (n i : Nat) (g : Workgroup → Workgroup) : (s.updWg n i g).heldNum = s.heldNum := by unfold State.updWg; split <;> rfl
@[simp] theorem updWg_shadows (s : State) (n i : Nat) (g : Workgroup → Workgroup) : (s.updWg n i g).shadows = s.shadows := by unfold State.updWg; split <;> rfl
@[simp] theorem updWg_watches (s : State) (n i : Nat) (g : Workgroup → Workgroup) : (s.updWg n i g).watches = s.watches := by unfold State.updWg; split <;> rfl
@[simp] theorem updWg_l2 (s : State) (n i : Nat) (g : Workgroup → Workgroup) : (s.updWg n i g).l2 = s.l2 := by unfold State.updWg; split <;> rfl
@[simp] theorem updWg_walks (s : State) (n i : Nat) (g : Workgroup → Workgroup) : (s.updWg n i g).walks = s.walks := by unfold State.updWg; split <;> rfl
@[simp] theorem updWg_parts (s : State) (n i : Nat) (g : Workgroup → Workgroup) : (s.updWg n i g).parts = s.parts := by unfold State.updWg; split <;> rfl
@[simp] theorem updWg_funcs (s : State) (n i : Nat) (g : Workgroup → Workgroup) : (s.updWg n i g).funcs = s.funcs := by unfold State.updWg; split <;> rfl
@[simp] theorem updWg_trapbase (s : State) (n i : Nat) (g : Workgroup → Workgroup) : (s.updWg n i g).trapbase = s.trapbase := by unfold State.updWg; split <;> rfl
@[simp] theorem updWg_postings (s : State) (n i : Nat) (g : Workgroup → Workgroup) : (s.updWg n i g).postings = s.postings := by unfold State.updWg; split <;> rfl
@[simp] theorem updWg_complexA (s : State) (n i : Nat) (g : Workgroup → Workgroup) : (s.updWg n i g).complexA = s.complexA := by unfold State.updWg; split <;> rfl
@[simp] theorem updWg_complexB (s : State) (n i : Nat) (g : Workgroup → Workgroup) : (s.updWg n i g).complexB = s.complexB := by unfold State.updWg; split <;> rfl
@[simp] theorem updWg_activeB (s : State) (n i : Nat) (g : Workgroup → Workgroup) : (s.updWg n i g).activeB = s.activeB := by unfold State.updWg; split <;> rfl
@[simp] theorem updWg_missed (s : State) (n i : Nat) (g : Workgroup → Workgroup) : (s.updWg n i g).missed = s.missed := by unfold State.updWg; split <;> rfl
@[simp] theorem updWg_stateMajor (s : State) (n i : Nat) (g : Workgroup → Workgroup) : (s.updWg n i g).stateMajor = s.stateMajor := by unfold State.updWg; split <;> rfl
@[simp] theorem updWg_stateMinor (s : State) (n i : Nat) (g : Workgroup → Workgroup) : (s.updWg n i g).stateMinor = s.stateMinor := by unfold State.updWg; split <;> rfl
@[simp] theorem updWg_pstate (s : State) (n i : Nat) (g : Workgroup → Workgroup) : (s.updWg n i g).pstate = s.pstate := by unfold State.updWg; split <;> rfl
@[simp] theorem updWg_thermal (s : State) (n i : Nat) (g : Workgroup → Workgroup) : (s.updWg n i g).thermal = s.thermal := by unfold State.updWg; split <;> rfl
@[simp] theorem updWg_temps (s : State) (n i : Nat) (g : Workgroup → Workgroup) : (s.updWg n i g).temps = s.temps := by unfold State.updWg; split <;> rfl
@[simp] theorem updWg_package (s : State) (n i : Nat) (g : Workgroup → Workgroup) : (s.updWg n i g).package = s.package := by unfold State.updWg; split <;> rfl
@[simp] theorem updWg_ports (s : State) (n i : Nat) (g : Workgroup → Workgroup) : (s.updWg n i g).ports = s.ports := by unfold State.updWg; split <;> rfl
@[simp] theorem updWg_groups (s : State) (n i : Nat) (g : Workgroup → Workgroup) : (s.updWg n i g).groups = s.groups := by unfold State.updWg; split <;> rfl
@[simp] theorem updWg_rings (s : State) (n i : Nat) (g : Workgroup → Workgroup) : (s.updWg n i g).rings = s.rings := by unfold State.updWg; split <;> rfl
@[simp] theorem updWg_fabric (s : State) (n i : Nat) (g : Workgroup → Workgroup) : (s.updWg n i g).fabric = s.fabric := by unfold State.updWg; split <;> rfl
@[simp] theorem updWg_turns (s : State) (n i : Nat) (g : Workgroup → Workgroup) : (s.updWg n i g).turns = s.turns := by unfold State.updWg; split <;> rfl
@[simp] theorem updWg_unitErrors (s : State) (n i : Nat) (g : Workgroup → Workgroup) : (s.updWg n i g).unitErrors = s.unitErrors := by unfold State.updWg; split <;> rfl
@[simp] theorem updWg_unitFails (s : State) (n i : Nat) (g : Workgroup → Workgroup) : (s.updWg n i g).unitFails = s.unitFails := by unfold State.updWg; split <;> rfl
@[simp] theorem updWg_hostHeld (s : State) (n i : Nat) (g : Workgroup → Workgroup) : (s.updWg n i g).hostHeld = s.hostHeld := by unfold State.updWg; split <;> rfl
@[simp] theorem updWg_failedSectors (s : State) (n i : Nat) (g : Workgroup → Workgroup) : (s.updWg n i g).failedSectors = s.failedSectors := by unfold State.updWg; split <;> rfl
@[simp] theorem updWg_packageContained (s : State) (n i : Nat) (g : Workgroup → Workgroup) : (s.updWg n i g).packageContained = s.packageContained := by unfold State.updWg; split <;> rfl
@[simp] theorem updWg_readData (s : State) (n i : Nat) (g : Workgroup → Workgroup) : (s.updWg n i g).readData = s.readData := by unfold State.updWg; split <;> rfl
@[simp] theorem updWg_readPoison (s : State) (n i : Nat) (g : Workgroup → Workgroup) : (s.updWg n i g).readPoison = s.readPoison := by unfold State.updWg; split <;> rfl
@[simp] theorem updWg_debugReports (s : State) (n i : Nat) (g : Workgroup → Workgroup) : (s.updWg n i g).debugReports = s.debugReports := by unfold State.updWg; split <;> rfl

/-! ### What changing a partition leaves -/

@[simp] theorem updPart_agenda (s : State) (n : Nat) (g : Part → Part) : (s.updPart n g).agenda = s.agenda := rfl
@[simp] theorem updPart_cur (s : State) (n : Nat) (g : Part → Part) : (s.updPart n g).cur = s.cur := rfl
@[simp] theorem updPart_issued (s : State) (n : Nat) (g : Part → Part) : (s.updPart n g).issued = s.issued := rfl
@[simp] theorem updPart_free (s : State) (n : Nat) (g : Part → Part) : (s.updPart n g).free = s.free := rfl
@[simp] theorem updPart_tags (s : State) (n : Nat) (g : Part → Part) : (s.updPart n g).tags = s.tags := rfl
@[simp] theorem updPart_clk (s : State) (n : Nat) (g : Part → Part) : (s.updPart n g).clk = s.clk := rfl
@[simp] theorem updPart_powered (s : State) (n : Nat) (g : Part → Part) : (s.updPart n g).powered = s.powered := rfl
@[simp] theorem updPart_cores (s : State) (n : Nat) (g : Part → Part) : (s.updPart n g).cores = s.cores := rfl
@[simp] theorem updPart_mem (s : State) (n : Nat) (g : Part → Part) : (s.updPart n g).mem = s.mem := rfl
@[simp] theorem updPart_ext (s : State) (n : Nat) (g : Part → Part) : (s.updPart n g).ext = s.ext := rfl
@[simp] theorem updPart_poison (s : State) (n : Nat) (g : Part → Part) : (s.updPart n g).poison = s.poison := rfl
@[simp] theorem updPart_owners (s : State) (n : Nat) (g : Part → Part) : (s.updPart n g).owners = s.owners := rfl
@[simp] theorem updPart_cells (s : State) (n : Nat) (g : Part → Part) : (s.updPart n g).cells = s.cells := rfl
@[simp] theorem updPart_heldWrites (s : State) (n : Nat) (g : Part → Part) : (s.updPart n g).heldWrites = s.heldWrites := rfl
@[simp] theorem updPart_heldNum (s : State) (n : Nat) (g : Part → Part) : (s.updPart n g).heldNum = s.heldNum := rfl
@[simp] theorem updPart_shadows (s : State) (n : Nat) (g : Part → Part) : (s.updPart n g).shadows = s.shadows := rfl
@[simp] theorem updPart_watches (s : State) (n : Nat) (g : Part → Part) : (s.updPart n g).watches = s.watches := rfl
@[simp] theorem updPart_l2 (s : State) (n : Nat) (g : Part → Part) : (s.updPart n g).l2 = s.l2 := rfl
@[simp] theorem updPart_walks (s : State) (n : Nat) (g : Part → Part) : (s.updPart n g).walks = s.walks := rfl
@[simp] theorem updPart_funcs (s : State) (n : Nat) (g : Part → Part) : (s.updPart n g).funcs = s.funcs := rfl
@[simp] theorem updPart_trapbase (s : State) (n : Nat) (g : Part → Part) : (s.updPart n g).trapbase = s.trapbase := rfl
@[simp] theorem updPart_postings (s : State) (n : Nat) (g : Part → Part) : (s.updPart n g).postings = s.postings := rfl
@[simp] theorem updPart_complexA (s : State) (n : Nat) (g : Part → Part) : (s.updPart n g).complexA = s.complexA := rfl
@[simp] theorem updPart_complexB (s : State) (n : Nat) (g : Part → Part) : (s.updPart n g).complexB = s.complexB := rfl
@[simp] theorem updPart_activeB (s : State) (n : Nat) (g : Part → Part) : (s.updPart n g).activeB = s.activeB := rfl
@[simp] theorem updPart_missed (s : State) (n : Nat) (g : Part → Part) : (s.updPart n g).missed = s.missed := rfl
@[simp] theorem updPart_stateMajor (s : State) (n : Nat) (g : Part → Part) : (s.updPart n g).stateMajor = s.stateMajor := rfl
@[simp] theorem updPart_stateMinor (s : State) (n : Nat) (g : Part → Part) : (s.updPart n g).stateMinor = s.stateMinor := rfl
@[simp] theorem updPart_pstate (s : State) (n : Nat) (g : Part → Part) : (s.updPart n g).pstate = s.pstate := rfl
@[simp] theorem updPart_thermal (s : State) (n : Nat) (g : Part → Part) : (s.updPart n g).thermal = s.thermal := rfl
@[simp] theorem updPart_temps (s : State) (n : Nat) (g : Part → Part) : (s.updPart n g).temps = s.temps := rfl
@[simp] theorem updPart_package (s : State) (n : Nat) (g : Part → Part) : (s.updPart n g).package = s.package := rfl
@[simp] theorem updPart_ports (s : State) (n : Nat) (g : Part → Part) : (s.updPart n g).ports = s.ports := rfl
@[simp] theorem updPart_groups (s : State) (n : Nat) (g : Part → Part) : (s.updPart n g).groups = s.groups := rfl
@[simp] theorem updPart_rings (s : State) (n : Nat) (g : Part → Part) : (s.updPart n g).rings = s.rings := rfl
@[simp] theorem updPart_fabric (s : State) (n : Nat) (g : Part → Part) : (s.updPart n g).fabric = s.fabric := rfl
@[simp] theorem updPart_turns (s : State) (n : Nat) (g : Part → Part) : (s.updPart n g).turns = s.turns := rfl
@[simp] theorem updPart_unitErrors (s : State) (n : Nat) (g : Part → Part) : (s.updPart n g).unitErrors = s.unitErrors := rfl
@[simp] theorem updPart_unitFails (s : State) (n : Nat) (g : Part → Part) : (s.updPart n g).unitFails = s.unitFails := rfl
@[simp] theorem updPart_hostHeld (s : State) (n : Nat) (g : Part → Part) : (s.updPart n g).hostHeld = s.hostHeld := rfl
@[simp] theorem updPart_failedSectors (s : State) (n : Nat) (g : Part → Part) : (s.updPart n g).failedSectors = s.failedSectors := rfl
@[simp] theorem updPart_packageContained (s : State) (n : Nat) (g : Part → Part) : (s.updPart n g).packageContained = s.packageContained := rfl
@[simp] theorem updPart_readData (s : State) (n : Nat) (g : Part → Part) : (s.updPart n g).readData = s.readData := rfl
@[simp] theorem updPart_readPoison (s : State) (n : Nat) (g : Part → Part) : (s.updPart n g).readPoison = s.readPoison := rfl
@[simp] theorem updPart_debugReports (s : State) (n : Nat) (g : Part → Part) : (s.updPart n g).debugReports = s.debugReports := rfl

/-! ### What changing a function leaves -/

@[simp] theorem updFunc_agenda (s : State) (n : Nat) (g : Func → Func) : (s.updFunc n g).agenda = s.agenda := rfl
@[simp] theorem updFunc_cur (s : State) (n : Nat) (g : Func → Func) : (s.updFunc n g).cur = s.cur := rfl
@[simp] theorem updFunc_issued (s : State) (n : Nat) (g : Func → Func) : (s.updFunc n g).issued = s.issued := rfl
@[simp] theorem updFunc_free (s : State) (n : Nat) (g : Func → Func) : (s.updFunc n g).free = s.free := rfl
@[simp] theorem updFunc_tags (s : State) (n : Nat) (g : Func → Func) : (s.updFunc n g).tags = s.tags := rfl
@[simp] theorem updFunc_clk (s : State) (n : Nat) (g : Func → Func) : (s.updFunc n g).clk = s.clk := rfl
@[simp] theorem updFunc_powered (s : State) (n : Nat) (g : Func → Func) : (s.updFunc n g).powered = s.powered := rfl
@[simp] theorem updFunc_cores (s : State) (n : Nat) (g : Func → Func) : (s.updFunc n g).cores = s.cores := rfl
@[simp] theorem updFunc_mem (s : State) (n : Nat) (g : Func → Func) : (s.updFunc n g).mem = s.mem := rfl
@[simp] theorem updFunc_ext (s : State) (n : Nat) (g : Func → Func) : (s.updFunc n g).ext = s.ext := rfl
@[simp] theorem updFunc_poison (s : State) (n : Nat) (g : Func → Func) : (s.updFunc n g).poison = s.poison := rfl
@[simp] theorem updFunc_owners (s : State) (n : Nat) (g : Func → Func) : (s.updFunc n g).owners = s.owners := rfl
@[simp] theorem updFunc_cells (s : State) (n : Nat) (g : Func → Func) : (s.updFunc n g).cells = s.cells := rfl
@[simp] theorem updFunc_heldWrites (s : State) (n : Nat) (g : Func → Func) : (s.updFunc n g).heldWrites = s.heldWrites := rfl
@[simp] theorem updFunc_heldNum (s : State) (n : Nat) (g : Func → Func) : (s.updFunc n g).heldNum = s.heldNum := rfl
@[simp] theorem updFunc_shadows (s : State) (n : Nat) (g : Func → Func) : (s.updFunc n g).shadows = s.shadows := rfl
@[simp] theorem updFunc_watches (s : State) (n : Nat) (g : Func → Func) : (s.updFunc n g).watches = s.watches := rfl
@[simp] theorem updFunc_l2 (s : State) (n : Nat) (g : Func → Func) : (s.updFunc n g).l2 = s.l2 := rfl
@[simp] theorem updFunc_walks (s : State) (n : Nat) (g : Func → Func) : (s.updFunc n g).walks = s.walks := rfl
@[simp] theorem updFunc_parts (s : State) (n : Nat) (g : Func → Func) : (s.updFunc n g).parts = s.parts := rfl
@[simp] theorem updFunc_trapbase (s : State) (n : Nat) (g : Func → Func) : (s.updFunc n g).trapbase = s.trapbase := rfl
@[simp] theorem updFunc_postings (s : State) (n : Nat) (g : Func → Func) : (s.updFunc n g).postings = s.postings := rfl
@[simp] theorem updFunc_complexA (s : State) (n : Nat) (g : Func → Func) : (s.updFunc n g).complexA = s.complexA := rfl
@[simp] theorem updFunc_complexB (s : State) (n : Nat) (g : Func → Func) : (s.updFunc n g).complexB = s.complexB := rfl
@[simp] theorem updFunc_activeB (s : State) (n : Nat) (g : Func → Func) : (s.updFunc n g).activeB = s.activeB := rfl
@[simp] theorem updFunc_missed (s : State) (n : Nat) (g : Func → Func) : (s.updFunc n g).missed = s.missed := rfl
@[simp] theorem updFunc_stateMajor (s : State) (n : Nat) (g : Func → Func) : (s.updFunc n g).stateMajor = s.stateMajor := rfl
@[simp] theorem updFunc_stateMinor (s : State) (n : Nat) (g : Func → Func) : (s.updFunc n g).stateMinor = s.stateMinor := rfl
@[simp] theorem updFunc_pstate (s : State) (n : Nat) (g : Func → Func) : (s.updFunc n g).pstate = s.pstate := rfl
@[simp] theorem updFunc_thermal (s : State) (n : Nat) (g : Func → Func) : (s.updFunc n g).thermal = s.thermal := rfl
@[simp] theorem updFunc_temps (s : State) (n : Nat) (g : Func → Func) : (s.updFunc n g).temps = s.temps := rfl
@[simp] theorem updFunc_package (s : State) (n : Nat) (g : Func → Func) : (s.updFunc n g).package = s.package := rfl
@[simp] theorem updFunc_ports (s : State) (n : Nat) (g : Func → Func) : (s.updFunc n g).ports = s.ports := rfl
@[simp] theorem updFunc_groups (s : State) (n : Nat) (g : Func → Func) : (s.updFunc n g).groups = s.groups := rfl
@[simp] theorem updFunc_rings (s : State) (n : Nat) (g : Func → Func) : (s.updFunc n g).rings = s.rings := rfl
@[simp] theorem updFunc_fabric (s : State) (n : Nat) (g : Func → Func) : (s.updFunc n g).fabric = s.fabric := rfl
@[simp] theorem updFunc_turns (s : State) (n : Nat) (g : Func → Func) : (s.updFunc n g).turns = s.turns := rfl
@[simp] theorem updFunc_unitErrors (s : State) (n : Nat) (g : Func → Func) : (s.updFunc n g).unitErrors = s.unitErrors := rfl
@[simp] theorem updFunc_unitFails (s : State) (n : Nat) (g : Func → Func) : (s.updFunc n g).unitFails = s.unitFails := rfl
@[simp] theorem updFunc_hostHeld (s : State) (n : Nat) (g : Func → Func) : (s.updFunc n g).hostHeld = s.hostHeld := rfl
@[simp] theorem updFunc_failedSectors (s : State) (n : Nat) (g : Func → Func) : (s.updFunc n g).failedSectors = s.failedSectors := rfl
@[simp] theorem updFunc_packageContained (s : State) (n : Nat) (g : Func → Func) : (s.updFunc n g).packageContained = s.packageContained := rfl
@[simp] theorem updFunc_readData (s : State) (n : Nat) (g : Func → Func) : (s.updFunc n g).readData = s.readData := rfl
@[simp] theorem updFunc_readPoison (s : State) (n : Nat) (g : Func → Func) : (s.updFunc n g).readPoison = s.readPoison := rfl
@[simp] theorem updFunc_debugReports (s : State) (n : Nat) (g : Func → Func) : (s.updFunc n g).debugReports = s.debugReports := rfl

/-! ### What changing a queue leaves -/

@[simp] theorem updQcb_agenda (s : State) (vf q : Nat) (g : Qcb → Qcb) : (s.updQcb vf q g).agenda = s.agenda := rfl
@[simp] theorem updQcb_cur (s : State) (vf q : Nat) (g : Qcb → Qcb) : (s.updQcb vf q g).cur = s.cur := rfl
@[simp] theorem updQcb_issued (s : State) (vf q : Nat) (g : Qcb → Qcb) : (s.updQcb vf q g).issued = s.issued := rfl
@[simp] theorem updQcb_free (s : State) (vf q : Nat) (g : Qcb → Qcb) : (s.updQcb vf q g).free = s.free := rfl
@[simp] theorem updQcb_tags (s : State) (vf q : Nat) (g : Qcb → Qcb) : (s.updQcb vf q g).tags = s.tags := rfl
@[simp] theorem updQcb_clk (s : State) (vf q : Nat) (g : Qcb → Qcb) : (s.updQcb vf q g).clk = s.clk := rfl
@[simp] theorem updQcb_powered (s : State) (vf q : Nat) (g : Qcb → Qcb) : (s.updQcb vf q g).powered = s.powered := rfl
@[simp] theorem updQcb_cores (s : State) (vf q : Nat) (g : Qcb → Qcb) : (s.updQcb vf q g).cores = s.cores := rfl
@[simp] theorem updQcb_mem (s : State) (vf q : Nat) (g : Qcb → Qcb) : (s.updQcb vf q g).mem = s.mem := rfl
@[simp] theorem updQcb_ext (s : State) (vf q : Nat) (g : Qcb → Qcb) : (s.updQcb vf q g).ext = s.ext := rfl
@[simp] theorem updQcb_poison (s : State) (vf q : Nat) (g : Qcb → Qcb) : (s.updQcb vf q g).poison = s.poison := rfl
@[simp] theorem updQcb_owners (s : State) (vf q : Nat) (g : Qcb → Qcb) : (s.updQcb vf q g).owners = s.owners := rfl
@[simp] theorem updQcb_cells (s : State) (vf q : Nat) (g : Qcb → Qcb) : (s.updQcb vf q g).cells = s.cells := rfl
@[simp] theorem updQcb_heldWrites (s : State) (vf q : Nat) (g : Qcb → Qcb) : (s.updQcb vf q g).heldWrites = s.heldWrites := rfl
@[simp] theorem updQcb_heldNum (s : State) (vf q : Nat) (g : Qcb → Qcb) : (s.updQcb vf q g).heldNum = s.heldNum := rfl
@[simp] theorem updQcb_shadows (s : State) (vf q : Nat) (g : Qcb → Qcb) : (s.updQcb vf q g).shadows = s.shadows := rfl
@[simp] theorem updQcb_watches (s : State) (vf q : Nat) (g : Qcb → Qcb) : (s.updQcb vf q g).watches = s.watches := rfl
@[simp] theorem updQcb_l2 (s : State) (vf q : Nat) (g : Qcb → Qcb) : (s.updQcb vf q g).l2 = s.l2 := rfl
@[simp] theorem updQcb_walks (s : State) (vf q : Nat) (g : Qcb → Qcb) : (s.updQcb vf q g).walks = s.walks := rfl
@[simp] theorem updQcb_parts (s : State) (vf q : Nat) (g : Qcb → Qcb) : (s.updQcb vf q g).parts = s.parts := rfl
@[simp] theorem updQcb_trapbase (s : State) (vf q : Nat) (g : Qcb → Qcb) : (s.updQcb vf q g).trapbase = s.trapbase := rfl
@[simp] theorem updQcb_postings (s : State) (vf q : Nat) (g : Qcb → Qcb) : (s.updQcb vf q g).postings = s.postings := rfl
@[simp] theorem updQcb_complexA (s : State) (vf q : Nat) (g : Qcb → Qcb) : (s.updQcb vf q g).complexA = s.complexA := rfl
@[simp] theorem updQcb_complexB (s : State) (vf q : Nat) (g : Qcb → Qcb) : (s.updQcb vf q g).complexB = s.complexB := rfl
@[simp] theorem updQcb_activeB (s : State) (vf q : Nat) (g : Qcb → Qcb) : (s.updQcb vf q g).activeB = s.activeB := rfl
@[simp] theorem updQcb_missed (s : State) (vf q : Nat) (g : Qcb → Qcb) : (s.updQcb vf q g).missed = s.missed := rfl
@[simp] theorem updQcb_stateMajor (s : State) (vf q : Nat) (g : Qcb → Qcb) : (s.updQcb vf q g).stateMajor = s.stateMajor := rfl
@[simp] theorem updQcb_stateMinor (s : State) (vf q : Nat) (g : Qcb → Qcb) : (s.updQcb vf q g).stateMinor = s.stateMinor := rfl
@[simp] theorem updQcb_pstate (s : State) (vf q : Nat) (g : Qcb → Qcb) : (s.updQcb vf q g).pstate = s.pstate := rfl
@[simp] theorem updQcb_thermal (s : State) (vf q : Nat) (g : Qcb → Qcb) : (s.updQcb vf q g).thermal = s.thermal := rfl
@[simp] theorem updQcb_temps (s : State) (vf q : Nat) (g : Qcb → Qcb) : (s.updQcb vf q g).temps = s.temps := rfl
@[simp] theorem updQcb_package (s : State) (vf q : Nat) (g : Qcb → Qcb) : (s.updQcb vf q g).package = s.package := rfl
@[simp] theorem updQcb_ports (s : State) (vf q : Nat) (g : Qcb → Qcb) : (s.updQcb vf q g).ports = s.ports := rfl
@[simp] theorem updQcb_groups (s : State) (vf q : Nat) (g : Qcb → Qcb) : (s.updQcb vf q g).groups = s.groups := rfl
@[simp] theorem updQcb_rings (s : State) (vf q : Nat) (g : Qcb → Qcb) : (s.updQcb vf q g).rings = s.rings := rfl
@[simp] theorem updQcb_fabric (s : State) (vf q : Nat) (g : Qcb → Qcb) : (s.updQcb vf q g).fabric = s.fabric := rfl
@[simp] theorem updQcb_turns (s : State) (vf q : Nat) (g : Qcb → Qcb) : (s.updQcb vf q g).turns = s.turns := rfl
@[simp] theorem updQcb_unitErrors (s : State) (vf q : Nat) (g : Qcb → Qcb) : (s.updQcb vf q g).unitErrors = s.unitErrors := rfl
@[simp] theorem updQcb_unitFails (s : State) (vf q : Nat) (g : Qcb → Qcb) : (s.updQcb vf q g).unitFails = s.unitFails := rfl
@[simp] theorem updQcb_hostHeld (s : State) (vf q : Nat) (g : Qcb → Qcb) : (s.updQcb vf q g).hostHeld = s.hostHeld := rfl
@[simp] theorem updQcb_failedSectors (s : State) (vf q : Nat) (g : Qcb → Qcb) : (s.updQcb vf q g).failedSectors = s.failedSectors := rfl
@[simp] theorem updQcb_packageContained (s : State) (vf q : Nat) (g : Qcb → Qcb) : (s.updQcb vf q g).packageContained = s.packageContained := rfl
@[simp] theorem updQcb_readData (s : State) (vf q : Nat) (g : Qcb → Qcb) : (s.updQcb vf q g).readData = s.readData := rfl
@[simp] theorem updQcb_readPoison (s : State) (vf q : Nat) (g : Qcb → Qcb) : (s.updQcb vf q g).readPoison = s.readPoison := rfl
@[simp] theorem updQcb_debugReports (s : State) (vf q : Nat) (g : Qcb → Qcb) : (s.updQcb vf q g).debugReports = s.debugReports := rfl

/-! ### What the passing of cycles leaves -/

@[simp] theorem tick_agenda (s : State) (n : Nat) : (s.tick n).agenda = s.agenda := rfl
@[simp] theorem tick_cur (s : State) (n : Nat) : (s.tick n).cur = s.cur := rfl
@[simp] theorem tick_issued (s : State) (n : Nat) : (s.tick n).issued = s.issued := rfl
@[simp] theorem tick_free (s : State) (n : Nat) : (s.tick n).free = s.free := rfl
@[simp] theorem tick_tags (s : State) (n : Nat) : (s.tick n).tags = s.tags := rfl
@[simp] theorem tick_powered (s : State) (n : Nat) : (s.tick n).powered = s.powered := rfl
@[simp] theorem tick_cores (s : State) (n : Nat) : (s.tick n).cores = s.cores := rfl
@[simp] theorem tick_mem (s : State) (n : Nat) : (s.tick n).mem = s.mem := rfl
@[simp] theorem tick_ext (s : State) (n : Nat) : (s.tick n).ext = s.ext := rfl
@[simp] theorem tick_poison (s : State) (n : Nat) : (s.tick n).poison = s.poison := rfl
@[simp] theorem tick_owners (s : State) (n : Nat) : (s.tick n).owners = s.owners := rfl
@[simp] theorem tick_cells (s : State) (n : Nat) : (s.tick n).cells = s.cells := rfl
@[simp] theorem tick_heldWrites (s : State) (n : Nat) : (s.tick n).heldWrites = s.heldWrites := rfl
@[simp] theorem tick_heldNum (s : State) (n : Nat) : (s.tick n).heldNum = s.heldNum := rfl
@[simp] theorem tick_shadows (s : State) (n : Nat) : (s.tick n).shadows = s.shadows := rfl
@[simp] theorem tick_watches (s : State) (n : Nat) : (s.tick n).watches = s.watches := rfl
@[simp] theorem tick_l2 (s : State) (n : Nat) : (s.tick n).l2 = s.l2 := rfl
@[simp] theorem tick_walks (s : State) (n : Nat) : (s.tick n).walks = s.walks := rfl
@[simp] theorem tick_parts (s : State) (n : Nat) : (s.tick n).parts = s.parts := rfl
@[simp] theorem tick_funcs (s : State) (n : Nat) : (s.tick n).funcs = s.funcs := rfl
@[simp] theorem tick_trapbase (s : State) (n : Nat) : (s.tick n).trapbase = s.trapbase := rfl
@[simp] theorem tick_postings (s : State) (n : Nat) : (s.tick n).postings = s.postings := rfl
@[simp] theorem tick_complexA (s : State) (n : Nat) : (s.tick n).complexA = s.complexA := rfl
@[simp] theorem tick_complexB (s : State) (n : Nat) : (s.tick n).complexB = s.complexB := rfl
@[simp] theorem tick_activeB (s : State) (n : Nat) : (s.tick n).activeB = s.activeB := rfl
@[simp] theorem tick_missed (s : State) (n : Nat) : (s.tick n).missed = s.missed := rfl
@[simp] theorem tick_stateMajor (s : State) (n : Nat) : (s.tick n).stateMajor = s.stateMajor := rfl
@[simp] theorem tick_stateMinor (s : State) (n : Nat) : (s.tick n).stateMinor = s.stateMinor := rfl
@[simp] theorem tick_pstate (s : State) (n : Nat) : (s.tick n).pstate = s.pstate := rfl
@[simp] theorem tick_thermal (s : State) (n : Nat) : (s.tick n).thermal = s.thermal := rfl
@[simp] theorem tick_temps (s : State) (n : Nat) : (s.tick n).temps = s.temps := rfl
@[simp] theorem tick_package (s : State) (n : Nat) : (s.tick n).package = s.package := rfl
@[simp] theorem tick_ports (s : State) (n : Nat) : (s.tick n).ports = s.ports := rfl
@[simp] theorem tick_groups (s : State) (n : Nat) : (s.tick n).groups = s.groups := rfl
@[simp] theorem tick_rings (s : State) (n : Nat) : (s.tick n).rings = s.rings := rfl
@[simp] theorem tick_fabric (s : State) (n : Nat) : (s.tick n).fabric = s.fabric := rfl
@[simp] theorem tick_turns (s : State) (n : Nat) : (s.tick n).turns = s.turns := rfl
@[simp] theorem tick_unitErrors (s : State) (n : Nat) : (s.tick n).unitErrors = s.unitErrors := rfl
@[simp] theorem tick_unitFails (s : State) (n : Nat) : (s.tick n).unitFails = s.unitFails := rfl
@[simp] theorem tick_hostHeld (s : State) (n : Nat) : (s.tick n).hostHeld = s.hostHeld := rfl
@[simp] theorem tick_failedSectors (s : State) (n : Nat) : (s.tick n).failedSectors = s.failedSectors := rfl
@[simp] theorem tick_packageContained (s : State) (n : Nat) : (s.tick n).packageContained = s.packageContained := rfl
@[simp] theorem tick_readData (s : State) (n : Nat) : (s.tick n).readData = s.readData := rfl
@[simp] theorem tick_readPoison (s : State) (n : Nat) : (s.tick n).readPoison = s.readPoison := rfl
@[simp] theorem tick_debugReports (s : State) (n : Nat) : (s.tick n).debugReports = s.debugReports := rfl

/-! ### What a byte written at its home leaves -/

@[simp] theorem setHome_agenda (s : State) (pa : Nat) (b : Byte) : (s.setHome pa b).agenda = s.agenda := by unfold State.setHome; split <;> rfl
@[simp] theorem setHome_cur (s : State) (pa : Nat) (b : Byte) : (s.setHome pa b).cur = s.cur := by unfold State.setHome; split <;> rfl
@[simp] theorem setHome_issued (s : State) (pa : Nat) (b : Byte) : (s.setHome pa b).issued = s.issued := by unfold State.setHome; split <;> rfl
@[simp] theorem setHome_free (s : State) (pa : Nat) (b : Byte) : (s.setHome pa b).free = s.free := by unfold State.setHome; split <;> rfl
@[simp] theorem setHome_tags (s : State) (pa : Nat) (b : Byte) : (s.setHome pa b).tags = s.tags := by unfold State.setHome; split <;> rfl
@[simp] theorem setHome_clk (s : State) (pa : Nat) (b : Byte) : (s.setHome pa b).clk = s.clk := by unfold State.setHome; split <;> rfl
@[simp] theorem setHome_powered (s : State) (pa : Nat) (b : Byte) : (s.setHome pa b).powered = s.powered := by unfold State.setHome; split <;> rfl
@[simp] theorem setHome_cores (s : State) (pa : Nat) (b : Byte) : (s.setHome pa b).cores = s.cores := by unfold State.setHome; split <;> rfl
@[simp] theorem setHome_poison (s : State) (pa : Nat) (b : Byte) : (s.setHome pa b).poison = s.poison := by unfold State.setHome; split <;> rfl
@[simp] theorem setHome_owners (s : State) (pa : Nat) (b : Byte) : (s.setHome pa b).owners = s.owners := by unfold State.setHome; split <;> rfl
@[simp] theorem setHome_cells (s : State) (pa : Nat) (b : Byte) : (s.setHome pa b).cells = s.cells := by unfold State.setHome; split <;> rfl
@[simp] theorem setHome_heldWrites (s : State) (pa : Nat) (b : Byte) : (s.setHome pa b).heldWrites = s.heldWrites := by unfold State.setHome; split <;> rfl
@[simp] theorem setHome_heldNum (s : State) (pa : Nat) (b : Byte) : (s.setHome pa b).heldNum = s.heldNum := by unfold State.setHome; split <;> rfl
@[simp] theorem setHome_shadows (s : State) (pa : Nat) (b : Byte) : (s.setHome pa b).shadows = s.shadows := by unfold State.setHome; split <;> rfl
@[simp] theorem setHome_watches (s : State) (pa : Nat) (b : Byte) : (s.setHome pa b).watches = s.watches := by unfold State.setHome; split <;> rfl
@[simp] theorem setHome_l2 (s : State) (pa : Nat) (b : Byte) : (s.setHome pa b).l2 = s.l2 := by unfold State.setHome; split <;> rfl
@[simp] theorem setHome_walks (s : State) (pa : Nat) (b : Byte) : (s.setHome pa b).walks = s.walks := by unfold State.setHome; split <;> rfl
@[simp] theorem setHome_parts (s : State) (pa : Nat) (b : Byte) : (s.setHome pa b).parts = s.parts := by unfold State.setHome; split <;> rfl
@[simp] theorem setHome_funcs (s : State) (pa : Nat) (b : Byte) : (s.setHome pa b).funcs = s.funcs := by unfold State.setHome; split <;> rfl
@[simp] theorem setHome_trapbase (s : State) (pa : Nat) (b : Byte) : (s.setHome pa b).trapbase = s.trapbase := by unfold State.setHome; split <;> rfl
@[simp] theorem setHome_postings (s : State) (pa : Nat) (b : Byte) : (s.setHome pa b).postings = s.postings := by unfold State.setHome; split <;> rfl
@[simp] theorem setHome_complexA (s : State) (pa : Nat) (b : Byte) : (s.setHome pa b).complexA = s.complexA := by unfold State.setHome; split <;> rfl
@[simp] theorem setHome_complexB (s : State) (pa : Nat) (b : Byte) : (s.setHome pa b).complexB = s.complexB := by unfold State.setHome; split <;> rfl
@[simp] theorem setHome_activeB (s : State) (pa : Nat) (b : Byte) : (s.setHome pa b).activeB = s.activeB := by unfold State.setHome; split <;> rfl
@[simp] theorem setHome_missed (s : State) (pa : Nat) (b : Byte) : (s.setHome pa b).missed = s.missed := by unfold State.setHome; split <;> rfl
@[simp] theorem setHome_stateMajor (s : State) (pa : Nat) (b : Byte) : (s.setHome pa b).stateMajor = s.stateMajor := by unfold State.setHome; split <;> rfl
@[simp] theorem setHome_stateMinor (s : State) (pa : Nat) (b : Byte) : (s.setHome pa b).stateMinor = s.stateMinor := by unfold State.setHome; split <;> rfl
@[simp] theorem setHome_pstate (s : State) (pa : Nat) (b : Byte) : (s.setHome pa b).pstate = s.pstate := by unfold State.setHome; split <;> rfl
@[simp] theorem setHome_thermal (s : State) (pa : Nat) (b : Byte) : (s.setHome pa b).thermal = s.thermal := by unfold State.setHome; split <;> rfl
@[simp] theorem setHome_temps (s : State) (pa : Nat) (b : Byte) : (s.setHome pa b).temps = s.temps := by unfold State.setHome; split <;> rfl
@[simp] theorem setHome_package (s : State) (pa : Nat) (b : Byte) : (s.setHome pa b).package = s.package := by unfold State.setHome; split <;> rfl
@[simp] theorem setHome_ports (s : State) (pa : Nat) (b : Byte) : (s.setHome pa b).ports = s.ports := by unfold State.setHome; split <;> rfl
@[simp] theorem setHome_groups (s : State) (pa : Nat) (b : Byte) : (s.setHome pa b).groups = s.groups := by unfold State.setHome; split <;> rfl
@[simp] theorem setHome_rings (s : State) (pa : Nat) (b : Byte) : (s.setHome pa b).rings = s.rings := by unfold State.setHome; split <;> rfl
@[simp] theorem setHome_fabric (s : State) (pa : Nat) (b : Byte) : (s.setHome pa b).fabric = s.fabric := by unfold State.setHome; split <;> rfl
@[simp] theorem setHome_turns (s : State) (pa : Nat) (b : Byte) : (s.setHome pa b).turns = s.turns := by unfold State.setHome; split <;> rfl
@[simp] theorem setHome_unitErrors (s : State) (pa : Nat) (b : Byte) : (s.setHome pa b).unitErrors = s.unitErrors := by unfold State.setHome; split <;> rfl
@[simp] theorem setHome_unitFails (s : State) (pa : Nat) (b : Byte) : (s.setHome pa b).unitFails = s.unitFails := by unfold State.setHome; split <;> rfl
@[simp] theorem setHome_hostHeld (s : State) (pa : Nat) (b : Byte) : (s.setHome pa b).hostHeld = s.hostHeld := by unfold State.setHome; split <;> rfl
@[simp] theorem setHome_failedSectors (s : State) (pa : Nat) (b : Byte) : (s.setHome pa b).failedSectors = s.failedSectors := by unfold State.setHome; split <;> rfl
@[simp] theorem setHome_packageContained (s : State) (pa : Nat) (b : Byte) : (s.setHome pa b).packageContained = s.packageContained := by unfold State.setHome; split <;> rfl
@[simp] theorem setHome_readData (s : State) (pa : Nat) (b : Byte) : (s.setHome pa b).readData = s.readData := by unfold State.setHome; split <;> rfl
@[simp] theorem setHome_readPoison (s : State) (pa : Nat) (b : Byte) : (s.setHome pa b).readPoison = s.readPoison := by unfold State.setHome; split <;> rfl
@[simp] theorem setHome_debugReports (s : State) (pa : Nat) (b : Byte) : (s.setHome pa b).debugReports = s.debugReports := by unfold State.setHome; split <;> rfl

/-! ### What a write of a vector register lane leaves -/

@[simp] theorem vset_wg (w : Wave) (r l : Nat) (x : Word) : (w.vset r l x).wg = w.wg := rfl
@[simp] theorem vset_index (w : Wave) (r l : Nat) (x : Word) : (w.vset r l x).index = w.index := rfl
@[simp] theorem vset_record (w : Wave) (r l : Nat) (x : Word) : (w.vset r l x).record = w.record := rfl
@[simp] theorem vset_pcs (w : Wave) (r l : Nat) (x : Word) : (w.vset r l x).pcs = w.pcs := rfl
@[simp] theorem vset_exited (w : Wave) (r l : Nat) (x : Word) : (w.vset r l x).exited = w.exited := rfl
@[simp] theorem vset_s (w : Wave) (r l : Nat) (x : Word) : (w.vset r l x).s = w.s := rfl
@[simp] theorem vset_k (w : Wave) (r l : Nat) (x : Word) : (w.vset r l x).k = w.k := rfl
@[simp] theorem vset_fflags (w : Wave) (r l : Nat) (x : Word) : (w.vset r l x).fflags = w.fflags := rfl
@[simp] theorem vset_pend (w : Wave) (r l : Nat) (x : Word) : (w.vset r l x).pend = w.pend := rfl
@[simp] theorem vset_held (w : Wave) (r l : Nat) (x : Word) : (w.vset r l x).held = w.held := rfl
@[simp] theorem vset_xpc (w : Wave) (r l : Nat) (x : Word) : (w.vset r l x).xpc = w.xpc := rfl
@[simp] theorem vset_xmask (w : Wave) (r l : Nat) (x : Word) : (w.vset r l x).xmask = w.xmask := rfl
@[simp] theorem vset_fmask (w : Wave) (r l : Nat) (x : Word) : (w.vset r l x).fmask = w.fmask := rfl
@[simp] theorem vset_xcode (w : Wave) (r l : Nat) (x : Word) : (w.vset r l x).xcode = w.xcode := rfl
@[simp] theorem vset_xinfo (w : Wave) (r l : Nat) (x : Word) : (w.vset r l x).xinfo = w.xinfo := rfl
@[simp] theorem vset_inHandler (w : Wave) (r l : Nat) (x : Word) : (w.vset r l x).inHandler = w.inHandler := rfl
@[simp] theorem vset_faultPending (w : Wave) (r l : Nat) (x : Word) : (w.vset r l x).faultPending = w.faultPending := rfl
@[simp] theorem vset_deferred (w : Wave) (r l : Nat) (x : Word) : (w.vset r l x).deferred = w.deferred := rfl
@[simp] theorem vset_deferredTag (w : Wave) (r l : Nat) (x : Word) : (w.vset r l x).deferredTag = w.deferredTag := rfl
@[simp] theorem vset_ladderFail (w : Wave) (r l : Nat) (x : Word) : (w.vset r l x).ladderFail = w.ladderFail := rfl
@[simp] theorem vset_conds (w : Wave) (r l : Nat) (x : Word) : (w.vset r l x).conds = w.conds := rfl
@[simp] theorem vset_parked (w : Wave) (r l : Nat) (x : Word) : (w.vset r l x).parked = w.parked := rfl
@[simp] theorem vset_parkedAt (w : Wave) (r l : Nat) (x : Word) : (w.vset r l x).parkedAt = w.parkedAt := rfl
@[simp] theorem vset_atMarker (w : Wave) (r l : Nat) (x : Word) : (w.vset r l x).atMarker = w.atMarker := rfl
@[simp] theorem vset_active (w : Wave) (r l : Nat) (x : Word) : (w.vset r l x).active = w.active := rfl
@[simp] theorem vset_activeSince (w : Wave) (r l : Nat) (x : Word) : (w.vset r l x).activeSince = w.activeSince := rfl
@[simp] theorem vset_readySince (w : Wave) (r l : Nat) (x : Word) : (w.vset r l x).readySince = w.readySince := rfl
@[simp] theorem vset_lastIssue (w : Wave) (r l : Nat) (x : Word) : (w.vset r l x).lastIssue = w.lastIssue := rfl
@[simp] theorem vset_windowPc (w : Wave) (r l : Nat) (x : Word) : (w.vset r l x).windowPc = w.windowPc := rfl
@[simp] theorem vset_windowLen (w : Wave) (r l : Nat) (x : Word) : (w.vset r l x).windowLen = w.windowLen := rfl
@[simp] theorem vset_lastMarked (w : Wave) (r l : Nat) (x : Word) : (w.vset r l x).lastMarked = w.lastMarked := rfl
@[simp] theorem vset_exempt (w : Wave) (r l : Nat) (x : Word) : (w.vset r l x).exempt = w.exempt := rfl
@[simp] theorem vset_prefilled (w : Wave) (r l : Nat) (x : Word) : (w.vset r l x).prefilled = w.prefilled := rfl
@[simp] theorem vset_census (w : Wave) (r l : Nat) (x : Word) : (w.vset r l x).census = w.census := rfl
@[simp] theorem vset_cmdCounter (w : Wave) (r l : Nat) (x : Word) : (w.vset r l x).cmdCounter = w.cmdCounter := rfl
@[simp] theorem vset_openBatch (w : Wave) (r l : Nat) (x : Word) : (w.vset r l x).openBatch = w.openBatch := rfl
@[simp] theorem vset_openChan (w : Wave) (r l : Nat) (x : Word) : (w.vset r l x).openChan = w.openChan := rfl
@[simp] theorem vset_batches (w : Wave) (r l : Nat) (x : Word) : (w.vset r l x).batches = w.batches := rfl
@[simp] theorem vset_outstanding (w : Wave) (r l : Nat) (x : Word) : (w.vset r l x).outstanding = w.outstanding := rfl
@[simp] theorem vset_stopped (w : Wave) (r l : Nat) (x : Word) : (w.vset r l x).stopped = w.stopped := rfl
@[simp] theorem vset_stopPending (w : Wave) (r l : Nat) (x : Word) : (w.vset r l x).stopPending = w.stopPending := rfl
@[simp] theorem vset_slice (w : Wave) (r l : Nat) (x : Word) : (w.vset r l x).slice = w.slice := rfl
@[simp] theorem vset_walk (w : Wave) (r l : Nat) (x : Word) : (w.vset r l x).walk = w.walk := rfl
@[simp] theorem vset_divert (w : Wave) (r l : Nat) (x : Word) : (w.vset r l x).divert = w.divert := rfl
@[simp] theorem vset_run (w : Wave) (r l : Nat) (x : Word) : (w.vset r l x).run = w.run := rfl
@[simp] theorem vset_window (w : Wave) (r l : Nat) (x : Word) : (w.vset r l x).window = w.window := rfl
@[simp] theorem vset_zeros (w : Wave) (r l : Nat) (x : Word) : (w.vset r l x).zeros = w.zeros := rfl
@[simp] theorem vset_dead (w : Wave) (r l : Nat) (x : Word) : (w.vset r l x).dead = w.dead := rfl
@[simp] theorem vset_stalled (w : Wave) (r l : Nat) (x : Word) : (w.vset r l x).stalled = w.stalled := rfl
@[simp] theorem vset_yields (w : Wave) (r l : Nat) (x : Word) : (w.vset r l x).yields = w.yields := rfl
@[simp] theorem vset_codeSeg (w : Wave) (r l : Nat) (x : Word) : (w.vset r l x).codeSeg = w.codeSeg := rfl
@[simp] theorem vset_flights (w : Wave) (r l : Nat) (x : Word) : (w.vset r l x).flights = w.flights := rfl
@[simp] theorem vset_segs (w : Wave) (r l : Nat) (x : Word) : (w.vset r l x).segs = w.segs := rfl
@[simp] theorem vset_firstIssue (w : Wave) (r l : Nat) (x : Word) : (w.vset r l x).firstIssue = w.firstIssue := rfl
@[simp] theorem vset_resident (w : Wave) (r l : Nat) (x : Word) : (w.vset r l x).resident = w.resident := rfl
@[simp] theorem vset_resp (w : Wave) (r l : Nat) (x : Word) : (w.vset r l x).resp = w.resp := rfl

/-! ### What a write of a scalar register leaves -/

@[simp] theorem sregSet_wg (w : Wave) (r : Nat) (x : Word) : (w.sregSet r x).wg = w.wg := rfl
@[simp] theorem sregSet_index (w : Wave) (r : Nat) (x : Word) : (w.sregSet r x).index = w.index := rfl
@[simp] theorem sregSet_record (w : Wave) (r : Nat) (x : Word) : (w.sregSet r x).record = w.record := rfl
@[simp] theorem sregSet_pcs (w : Wave) (r : Nat) (x : Word) : (w.sregSet r x).pcs = w.pcs := rfl
@[simp] theorem sregSet_exited (w : Wave) (r : Nat) (x : Word) : (w.sregSet r x).exited = w.exited := rfl
@[simp] theorem sregSet_v (w : Wave) (r : Nat) (x : Word) : (w.sregSet r x).v = w.v := rfl
@[simp] theorem sregSet_k (w : Wave) (r : Nat) (x : Word) : (w.sregSet r x).k = w.k := rfl
@[simp] theorem sregSet_fflags (w : Wave) (r : Nat) (x : Word) : (w.sregSet r x).fflags = w.fflags := rfl
@[simp] theorem sregSet_pend (w : Wave) (r : Nat) (x : Word) : (w.sregSet r x).pend = w.pend := rfl
@[simp] theorem sregSet_held (w : Wave) (r : Nat) (x : Word) : (w.sregSet r x).held = w.held := rfl
@[simp] theorem sregSet_xpc (w : Wave) (r : Nat) (x : Word) : (w.sregSet r x).xpc = w.xpc := rfl
@[simp] theorem sregSet_xmask (w : Wave) (r : Nat) (x : Word) : (w.sregSet r x).xmask = w.xmask := rfl
@[simp] theorem sregSet_fmask (w : Wave) (r : Nat) (x : Word) : (w.sregSet r x).fmask = w.fmask := rfl
@[simp] theorem sregSet_xcode (w : Wave) (r : Nat) (x : Word) : (w.sregSet r x).xcode = w.xcode := rfl
@[simp] theorem sregSet_xinfo (w : Wave) (r : Nat) (x : Word) : (w.sregSet r x).xinfo = w.xinfo := rfl
@[simp] theorem sregSet_inHandler (w : Wave) (r : Nat) (x : Word) : (w.sregSet r x).inHandler = w.inHandler := rfl
@[simp] theorem sregSet_faultPending (w : Wave) (r : Nat) (x : Word) : (w.sregSet r x).faultPending = w.faultPending := rfl
@[simp] theorem sregSet_deferred (w : Wave) (r : Nat) (x : Word) : (w.sregSet r x).deferred = w.deferred := rfl
@[simp] theorem sregSet_deferredTag (w : Wave) (r : Nat) (x : Word) : (w.sregSet r x).deferredTag = w.deferredTag := rfl
@[simp] theorem sregSet_ladderFail (w : Wave) (r : Nat) (x : Word) : (w.sregSet r x).ladderFail = w.ladderFail := rfl
@[simp] theorem sregSet_conds (w : Wave) (r : Nat) (x : Word) : (w.sregSet r x).conds = w.conds := rfl
@[simp] theorem sregSet_parked (w : Wave) (r : Nat) (x : Word) : (w.sregSet r x).parked = w.parked := rfl
@[simp] theorem sregSet_parkedAt (w : Wave) (r : Nat) (x : Word) : (w.sregSet r x).parkedAt = w.parkedAt := rfl
@[simp] theorem sregSet_atMarker (w : Wave) (r : Nat) (x : Word) : (w.sregSet r x).atMarker = w.atMarker := rfl
@[simp] theorem sregSet_active (w : Wave) (r : Nat) (x : Word) : (w.sregSet r x).active = w.active := rfl
@[simp] theorem sregSet_activeSince (w : Wave) (r : Nat) (x : Word) : (w.sregSet r x).activeSince = w.activeSince := rfl
@[simp] theorem sregSet_readySince (w : Wave) (r : Nat) (x : Word) : (w.sregSet r x).readySince = w.readySince := rfl
@[simp] theorem sregSet_lastIssue (w : Wave) (r : Nat) (x : Word) : (w.sregSet r x).lastIssue = w.lastIssue := rfl
@[simp] theorem sregSet_windowPc (w : Wave) (r : Nat) (x : Word) : (w.sregSet r x).windowPc = w.windowPc := rfl
@[simp] theorem sregSet_windowLen (w : Wave) (r : Nat) (x : Word) : (w.sregSet r x).windowLen = w.windowLen := rfl
@[simp] theorem sregSet_lastMarked (w : Wave) (r : Nat) (x : Word) : (w.sregSet r x).lastMarked = w.lastMarked := rfl
@[simp] theorem sregSet_exempt (w : Wave) (r : Nat) (x : Word) : (w.sregSet r x).exempt = w.exempt := rfl
@[simp] theorem sregSet_prefilled (w : Wave) (r : Nat) (x : Word) : (w.sregSet r x).prefilled = w.prefilled := rfl
@[simp] theorem sregSet_census (w : Wave) (r : Nat) (x : Word) : (w.sregSet r x).census = w.census := rfl
@[simp] theorem sregSet_cmdCounter (w : Wave) (r : Nat) (x : Word) : (w.sregSet r x).cmdCounter = w.cmdCounter := rfl
@[simp] theorem sregSet_openBatch (w : Wave) (r : Nat) (x : Word) : (w.sregSet r x).openBatch = w.openBatch := rfl
@[simp] theorem sregSet_openChan (w : Wave) (r : Nat) (x : Word) : (w.sregSet r x).openChan = w.openChan := rfl
@[simp] theorem sregSet_batches (w : Wave) (r : Nat) (x : Word) : (w.sregSet r x).batches = w.batches := rfl
@[simp] theorem sregSet_outstanding (w : Wave) (r : Nat) (x : Word) : (w.sregSet r x).outstanding = w.outstanding := rfl
@[simp] theorem sregSet_stopped (w : Wave) (r : Nat) (x : Word) : (w.sregSet r x).stopped = w.stopped := rfl
@[simp] theorem sregSet_stopPending (w : Wave) (r : Nat) (x : Word) : (w.sregSet r x).stopPending = w.stopPending := rfl
@[simp] theorem sregSet_slice (w : Wave) (r : Nat) (x : Word) : (w.sregSet r x).slice = w.slice := rfl
@[simp] theorem sregSet_walk (w : Wave) (r : Nat) (x : Word) : (w.sregSet r x).walk = w.walk := rfl
@[simp] theorem sregSet_divert (w : Wave) (r : Nat) (x : Word) : (w.sregSet r x).divert = w.divert := rfl
@[simp] theorem sregSet_run (w : Wave) (r : Nat) (x : Word) : (w.sregSet r x).run = w.run := rfl
@[simp] theorem sregSet_window (w : Wave) (r : Nat) (x : Word) : (w.sregSet r x).window = w.window := rfl
@[simp] theorem sregSet_zeros (w : Wave) (r : Nat) (x : Word) : (w.sregSet r x).zeros = w.zeros := rfl
@[simp] theorem sregSet_dead (w : Wave) (r : Nat) (x : Word) : (w.sregSet r x).dead = w.dead := rfl
@[simp] theorem sregSet_stalled (w : Wave) (r : Nat) (x : Word) : (w.sregSet r x).stalled = w.stalled := rfl
@[simp] theorem sregSet_yields (w : Wave) (r : Nat) (x : Word) : (w.sregSet r x).yields = w.yields := rfl
@[simp] theorem sregSet_codeSeg (w : Wave) (r : Nat) (x : Word) : (w.sregSet r x).codeSeg = w.codeSeg := rfl
@[simp] theorem sregSet_flights (w : Wave) (r : Nat) (x : Word) : (w.sregSet r x).flights = w.flights := rfl
@[simp] theorem sregSet_segs (w : Wave) (r : Nat) (x : Word) : (w.sregSet r x).segs = w.segs := rfl
@[simp] theorem sregSet_firstIssue (w : Wave) (r : Nat) (x : Word) : (w.sregSet r x).firstIssue = w.firstIssue := rfl
@[simp] theorem sregSet_resident (w : Wave) (r : Nat) (x : Word) : (w.sregSet r x).resident = w.resident := rfl
@[simp] theorem sregSet_resp (w : Wave) (r : Nat) (x : Word) : (w.sregSet r x).resp = w.resp := rfl

/-! ### What a write of a mask register leaves -/

@[simp] theorem kset_wg (w : Wave) (k : Nat) (x : Mask) : (w.kset k x).wg = w.wg := by unfold Wave.kset; split <;> rfl
@[simp] theorem kset_index (w : Wave) (k : Nat) (x : Mask) : (w.kset k x).index = w.index := by unfold Wave.kset; split <;> rfl
@[simp] theorem kset_record (w : Wave) (k : Nat) (x : Mask) : (w.kset k x).record = w.record := by unfold Wave.kset; split <;> rfl
@[simp] theorem kset_pcs (w : Wave) (k : Nat) (x : Mask) : (w.kset k x).pcs = w.pcs := by unfold Wave.kset; split <;> rfl
@[simp] theorem kset_exited (w : Wave) (k : Nat) (x : Mask) : (w.kset k x).exited = w.exited := by unfold Wave.kset; split <;> rfl
@[simp] theorem kset_v (w : Wave) (k : Nat) (x : Mask) : (w.kset k x).v = w.v := by unfold Wave.kset; split <;> rfl
@[simp] theorem kset_s (w : Wave) (k : Nat) (x : Mask) : (w.kset k x).s = w.s := by unfold Wave.kset; split <;> rfl
@[simp] theorem kset_fflags (w : Wave) (k : Nat) (x : Mask) : (w.kset k x).fflags = w.fflags := by unfold Wave.kset; split <;> rfl
@[simp] theorem kset_pend (w : Wave) (k : Nat) (x : Mask) : (w.kset k x).pend = w.pend := by unfold Wave.kset; split <;> rfl
@[simp] theorem kset_held (w : Wave) (k : Nat) (x : Mask) : (w.kset k x).held = w.held := by unfold Wave.kset; split <;> rfl
@[simp] theorem kset_xpc (w : Wave) (k : Nat) (x : Mask) : (w.kset k x).xpc = w.xpc := by unfold Wave.kset; split <;> rfl
@[simp] theorem kset_xmask (w : Wave) (k : Nat) (x : Mask) : (w.kset k x).xmask = w.xmask := by unfold Wave.kset; split <;> rfl
@[simp] theorem kset_fmask (w : Wave) (k : Nat) (x : Mask) : (w.kset k x).fmask = w.fmask := by unfold Wave.kset; split <;> rfl
@[simp] theorem kset_xcode (w : Wave) (k : Nat) (x : Mask) : (w.kset k x).xcode = w.xcode := by unfold Wave.kset; split <;> rfl
@[simp] theorem kset_xinfo (w : Wave) (k : Nat) (x : Mask) : (w.kset k x).xinfo = w.xinfo := by unfold Wave.kset; split <;> rfl
@[simp] theorem kset_inHandler (w : Wave) (k : Nat) (x : Mask) : (w.kset k x).inHandler = w.inHandler := by unfold Wave.kset; split <;> rfl
@[simp] theorem kset_faultPending (w : Wave) (k : Nat) (x : Mask) : (w.kset k x).faultPending = w.faultPending := by unfold Wave.kset; split <;> rfl
@[simp] theorem kset_deferred (w : Wave) (k : Nat) (x : Mask) : (w.kset k x).deferred = w.deferred := by unfold Wave.kset; split <;> rfl
@[simp] theorem kset_deferredTag (w : Wave) (k : Nat) (x : Mask) : (w.kset k x).deferredTag = w.deferredTag := by unfold Wave.kset; split <;> rfl
@[simp] theorem kset_ladderFail (w : Wave) (k : Nat) (x : Mask) : (w.kset k x).ladderFail = w.ladderFail := by unfold Wave.kset; split <;> rfl
@[simp] theorem kset_conds (w : Wave) (k : Nat) (x : Mask) : (w.kset k x).conds = w.conds := by unfold Wave.kset; split <;> rfl
@[simp] theorem kset_parked (w : Wave) (k : Nat) (x : Mask) : (w.kset k x).parked = w.parked := by unfold Wave.kset; split <;> rfl
@[simp] theorem kset_parkedAt (w : Wave) (k : Nat) (x : Mask) : (w.kset k x).parkedAt = w.parkedAt := by unfold Wave.kset; split <;> rfl
@[simp] theorem kset_atMarker (w : Wave) (k : Nat) (x : Mask) : (w.kset k x).atMarker = w.atMarker := by unfold Wave.kset; split <;> rfl
@[simp] theorem kset_active (w : Wave) (k : Nat) (x : Mask) : (w.kset k x).active = w.active := by unfold Wave.kset; split <;> rfl
@[simp] theorem kset_activeSince (w : Wave) (k : Nat) (x : Mask) : (w.kset k x).activeSince = w.activeSince := by unfold Wave.kset; split <;> rfl
@[simp] theorem kset_readySince (w : Wave) (k : Nat) (x : Mask) : (w.kset k x).readySince = w.readySince := by unfold Wave.kset; split <;> rfl
@[simp] theorem kset_lastIssue (w : Wave) (k : Nat) (x : Mask) : (w.kset k x).lastIssue = w.lastIssue := by unfold Wave.kset; split <;> rfl
@[simp] theorem kset_windowPc (w : Wave) (k : Nat) (x : Mask) : (w.kset k x).windowPc = w.windowPc := by unfold Wave.kset; split <;> rfl
@[simp] theorem kset_windowLen (w : Wave) (k : Nat) (x : Mask) : (w.kset k x).windowLen = w.windowLen := by unfold Wave.kset; split <;> rfl
@[simp] theorem kset_lastMarked (w : Wave) (k : Nat) (x : Mask) : (w.kset k x).lastMarked = w.lastMarked := by unfold Wave.kset; split <;> rfl
@[simp] theorem kset_exempt (w : Wave) (k : Nat) (x : Mask) : (w.kset k x).exempt = w.exempt := by unfold Wave.kset; split <;> rfl
@[simp] theorem kset_prefilled (w : Wave) (k : Nat) (x : Mask) : (w.kset k x).prefilled = w.prefilled := by unfold Wave.kset; split <;> rfl
@[simp] theorem kset_census (w : Wave) (k : Nat) (x : Mask) : (w.kset k x).census = w.census := by unfold Wave.kset; split <;> rfl
@[simp] theorem kset_cmdCounter (w : Wave) (k : Nat) (x : Mask) : (w.kset k x).cmdCounter = w.cmdCounter := by unfold Wave.kset; split <;> rfl
@[simp] theorem kset_openBatch (w : Wave) (k : Nat) (x : Mask) : (w.kset k x).openBatch = w.openBatch := by unfold Wave.kset; split <;> rfl
@[simp] theorem kset_openChan (w : Wave) (k : Nat) (x : Mask) : (w.kset k x).openChan = w.openChan := by unfold Wave.kset; split <;> rfl
@[simp] theorem kset_batches (w : Wave) (k : Nat) (x : Mask) : (w.kset k x).batches = w.batches := by unfold Wave.kset; split <;> rfl
@[simp] theorem kset_outstanding (w : Wave) (k : Nat) (x : Mask) : (w.kset k x).outstanding = w.outstanding := by unfold Wave.kset; split <;> rfl
@[simp] theorem kset_stopped (w : Wave) (k : Nat) (x : Mask) : (w.kset k x).stopped = w.stopped := by unfold Wave.kset; split <;> rfl
@[simp] theorem kset_stopPending (w : Wave) (k : Nat) (x : Mask) : (w.kset k x).stopPending = w.stopPending := by unfold Wave.kset; split <;> rfl
@[simp] theorem kset_slice (w : Wave) (k : Nat) (x : Mask) : (w.kset k x).slice = w.slice := by unfold Wave.kset; split <;> rfl
@[simp] theorem kset_walk (w : Wave) (k : Nat) (x : Mask) : (w.kset k x).walk = w.walk := by unfold Wave.kset; split <;> rfl
@[simp] theorem kset_divert (w : Wave) (k : Nat) (x : Mask) : (w.kset k x).divert = w.divert := by unfold Wave.kset; split <;> rfl
@[simp] theorem kset_run (w : Wave) (k : Nat) (x : Mask) : (w.kset k x).run = w.run := by unfold Wave.kset; split <;> rfl
@[simp] theorem kset_window (w : Wave) (k : Nat) (x : Mask) : (w.kset k x).window = w.window := by unfold Wave.kset; split <;> rfl
@[simp] theorem kset_zeros (w : Wave) (k : Nat) (x : Mask) : (w.kset k x).zeros = w.zeros := by unfold Wave.kset; split <;> rfl
@[simp] theorem kset_dead (w : Wave) (k : Nat) (x : Mask) : (w.kset k x).dead = w.dead := by unfold Wave.kset; split <;> rfl
@[simp] theorem kset_stalled (w : Wave) (k : Nat) (x : Mask) : (w.kset k x).stalled = w.stalled := by unfold Wave.kset; split <;> rfl
@[simp] theorem kset_yields (w : Wave) (k : Nat) (x : Mask) : (w.kset k x).yields = w.yields := by unfold Wave.kset; split <;> rfl
@[simp] theorem kset_codeSeg (w : Wave) (k : Nat) (x : Mask) : (w.kset k x).codeSeg = w.codeSeg := by unfold Wave.kset; split <;> rfl
@[simp] theorem kset_flights (w : Wave) (k : Nat) (x : Mask) : (w.kset k x).flights = w.flights := by unfold Wave.kset; split <;> rfl
@[simp] theorem kset_segs (w : Wave) (k : Nat) (x : Mask) : (w.kset k x).segs = w.segs := by unfold Wave.kset; split <;> rfl
@[simp] theorem kset_firstIssue (w : Wave) (k : Nat) (x : Mask) : (w.kset k x).firstIssue = w.firstIssue := by unfold Wave.kset; split <;> rfl
@[simp] theorem kset_resident (w : Wave) (k : Nat) (x : Mask) : (w.kset k x).resident = w.resident := by unfold Wave.kset; split <;> rfl
@[simp] theorem kset_resp (w : Wave) (k : Nat) (x : Mask) : (w.kset k x).resp = w.resp := by unfold Wave.kset; split <;> rfl

/-! ### What a write of a PC leaves -/

@[simp] theorem pcSet_wg (w : Wave) (l : Nat) (p : Word) : (w.pcSet l p).wg = w.wg := rfl
@[simp] theorem pcSet_index (w : Wave) (l : Nat) (p : Word) : (w.pcSet l p).index = w.index := rfl
@[simp] theorem pcSet_record (w : Wave) (l : Nat) (p : Word) : (w.pcSet l p).record = w.record := rfl
@[simp] theorem pcSet_exited (w : Wave) (l : Nat) (p : Word) : (w.pcSet l p).exited = w.exited := rfl
@[simp] theorem pcSet_v (w : Wave) (l : Nat) (p : Word) : (w.pcSet l p).v = w.v := rfl
@[simp] theorem pcSet_s (w : Wave) (l : Nat) (p : Word) : (w.pcSet l p).s = w.s := rfl
@[simp] theorem pcSet_k (w : Wave) (l : Nat) (p : Word) : (w.pcSet l p).k = w.k := rfl
@[simp] theorem pcSet_fflags (w : Wave) (l : Nat) (p : Word) : (w.pcSet l p).fflags = w.fflags := rfl
@[simp] theorem pcSet_pend (w : Wave) (l : Nat) (p : Word) : (w.pcSet l p).pend = w.pend := rfl
@[simp] theorem pcSet_held (w : Wave) (l : Nat) (p : Word) : (w.pcSet l p).held = w.held := rfl
@[simp] theorem pcSet_xpc (w : Wave) (l : Nat) (p : Word) : (w.pcSet l p).xpc = w.xpc := rfl
@[simp] theorem pcSet_xmask (w : Wave) (l : Nat) (p : Word) : (w.pcSet l p).xmask = w.xmask := rfl
@[simp] theorem pcSet_fmask (w : Wave) (l : Nat) (p : Word) : (w.pcSet l p).fmask = w.fmask := rfl
@[simp] theorem pcSet_xcode (w : Wave) (l : Nat) (p : Word) : (w.pcSet l p).xcode = w.xcode := rfl
@[simp] theorem pcSet_xinfo (w : Wave) (l : Nat) (p : Word) : (w.pcSet l p).xinfo = w.xinfo := rfl
@[simp] theorem pcSet_inHandler (w : Wave) (l : Nat) (p : Word) : (w.pcSet l p).inHandler = w.inHandler := rfl
@[simp] theorem pcSet_faultPending (w : Wave) (l : Nat) (p : Word) : (w.pcSet l p).faultPending = w.faultPending := rfl
@[simp] theorem pcSet_deferred (w : Wave) (l : Nat) (p : Word) : (w.pcSet l p).deferred = w.deferred := rfl
@[simp] theorem pcSet_deferredTag (w : Wave) (l : Nat) (p : Word) : (w.pcSet l p).deferredTag = w.deferredTag := rfl
@[simp] theorem pcSet_ladderFail (w : Wave) (l : Nat) (p : Word) : (w.pcSet l p).ladderFail = w.ladderFail := rfl
@[simp] theorem pcSet_conds (w : Wave) (l : Nat) (p : Word) : (w.pcSet l p).conds = w.conds := rfl
@[simp] theorem pcSet_parked (w : Wave) (l : Nat) (p : Word) : (w.pcSet l p).parked = w.parked := rfl
@[simp] theorem pcSet_parkedAt (w : Wave) (l : Nat) (p : Word) : (w.pcSet l p).parkedAt = w.parkedAt := rfl
@[simp] theorem pcSet_atMarker (w : Wave) (l : Nat) (p : Word) : (w.pcSet l p).atMarker = w.atMarker := rfl
@[simp] theorem pcSet_active (w : Wave) (l : Nat) (p : Word) : (w.pcSet l p).active = w.active := rfl
@[simp] theorem pcSet_activeSince (w : Wave) (l : Nat) (p : Word) : (w.pcSet l p).activeSince = w.activeSince := rfl
@[simp] theorem pcSet_readySince (w : Wave) (l : Nat) (p : Word) : (w.pcSet l p).readySince = w.readySince := rfl
@[simp] theorem pcSet_lastIssue (w : Wave) (l : Nat) (p : Word) : (w.pcSet l p).lastIssue = w.lastIssue := rfl
@[simp] theorem pcSet_windowPc (w : Wave) (l : Nat) (p : Word) : (w.pcSet l p).windowPc = w.windowPc := rfl
@[simp] theorem pcSet_windowLen (w : Wave) (l : Nat) (p : Word) : (w.pcSet l p).windowLen = w.windowLen := rfl
@[simp] theorem pcSet_lastMarked (w : Wave) (l : Nat) (p : Word) : (w.pcSet l p).lastMarked = w.lastMarked := rfl
@[simp] theorem pcSet_exempt (w : Wave) (l : Nat) (p : Word) : (w.pcSet l p).exempt = w.exempt := rfl
@[simp] theorem pcSet_prefilled (w : Wave) (l : Nat) (p : Word) : (w.pcSet l p).prefilled = w.prefilled := rfl
@[simp] theorem pcSet_census (w : Wave) (l : Nat) (p : Word) : (w.pcSet l p).census = w.census := rfl
@[simp] theorem pcSet_cmdCounter (w : Wave) (l : Nat) (p : Word) : (w.pcSet l p).cmdCounter = w.cmdCounter := rfl
@[simp] theorem pcSet_openBatch (w : Wave) (l : Nat) (p : Word) : (w.pcSet l p).openBatch = w.openBatch := rfl
@[simp] theorem pcSet_openChan (w : Wave) (l : Nat) (p : Word) : (w.pcSet l p).openChan = w.openChan := rfl
@[simp] theorem pcSet_batches (w : Wave) (l : Nat) (p : Word) : (w.pcSet l p).batches = w.batches := rfl
@[simp] theorem pcSet_outstanding (w : Wave) (l : Nat) (p : Word) : (w.pcSet l p).outstanding = w.outstanding := rfl
@[simp] theorem pcSet_stopped (w : Wave) (l : Nat) (p : Word) : (w.pcSet l p).stopped = w.stopped := rfl
@[simp] theorem pcSet_stopPending (w : Wave) (l : Nat) (p : Word) : (w.pcSet l p).stopPending = w.stopPending := rfl
@[simp] theorem pcSet_slice (w : Wave) (l : Nat) (p : Word) : (w.pcSet l p).slice = w.slice := rfl
@[simp] theorem pcSet_walk (w : Wave) (l : Nat) (p : Word) : (w.pcSet l p).walk = w.walk := rfl
@[simp] theorem pcSet_divert (w : Wave) (l : Nat) (p : Word) : (w.pcSet l p).divert = w.divert := rfl
@[simp] theorem pcSet_run (w : Wave) (l : Nat) (p : Word) : (w.pcSet l p).run = w.run := rfl
@[simp] theorem pcSet_window (w : Wave) (l : Nat) (p : Word) : (w.pcSet l p).window = w.window := rfl
@[simp] theorem pcSet_zeros (w : Wave) (l : Nat) (p : Word) : (w.pcSet l p).zeros = w.zeros := rfl
@[simp] theorem pcSet_dead (w : Wave) (l : Nat) (p : Word) : (w.pcSet l p).dead = w.dead := rfl
@[simp] theorem pcSet_stalled (w : Wave) (l : Nat) (p : Word) : (w.pcSet l p).stalled = w.stalled := rfl
@[simp] theorem pcSet_yields (w : Wave) (l : Nat) (p : Word) : (w.pcSet l p).yields = w.yields := rfl
@[simp] theorem pcSet_codeSeg (w : Wave) (l : Nat) (p : Word) : (w.pcSet l p).codeSeg = w.codeSeg := rfl
@[simp] theorem pcSet_flights (w : Wave) (l : Nat) (p : Word) : (w.pcSet l p).flights = w.flights := rfl
@[simp] theorem pcSet_segs (w : Wave) (l : Nat) (p : Word) : (w.pcSet l p).segs = w.segs := rfl
@[simp] theorem pcSet_firstIssue (w : Wave) (l : Nat) (p : Word) : (w.pcSet l p).firstIssue = w.firstIssue := rfl
@[simp] theorem pcSet_resident (w : Wave) (l : Nat) (p : Word) : (w.pcSet l p).resident = w.resident := rfl
@[simp] theorem pcSet_resp (w : Wave) (l : Nat) (p : Word) : (w.pcSet l p).resp = w.resp := rfl

/-! ### What added flags leave -/

@[simp] theorem orFlags_wg (w : Wave) (f : Flags) : (w.orFlags f).wg = w.wg := rfl
@[simp] theorem orFlags_index (w : Wave) (f : Flags) : (w.orFlags f).index = w.index := rfl
@[simp] theorem orFlags_record (w : Wave) (f : Flags) : (w.orFlags f).record = w.record := rfl
@[simp] theorem orFlags_pcs (w : Wave) (f : Flags) : (w.orFlags f).pcs = w.pcs := rfl
@[simp] theorem orFlags_exited (w : Wave) (f : Flags) : (w.orFlags f).exited = w.exited := rfl
@[simp] theorem orFlags_v (w : Wave) (f : Flags) : (w.orFlags f).v = w.v := rfl
@[simp] theorem orFlags_s (w : Wave) (f : Flags) : (w.orFlags f).s = w.s := rfl
@[simp] theorem orFlags_k (w : Wave) (f : Flags) : (w.orFlags f).k = w.k := rfl
@[simp] theorem orFlags_pend (w : Wave) (f : Flags) : (w.orFlags f).pend = w.pend := rfl
@[simp] theorem orFlags_held (w : Wave) (f : Flags) : (w.orFlags f).held = w.held := rfl
@[simp] theorem orFlags_xpc (w : Wave) (f : Flags) : (w.orFlags f).xpc = w.xpc := rfl
@[simp] theorem orFlags_xmask (w : Wave) (f : Flags) : (w.orFlags f).xmask = w.xmask := rfl
@[simp] theorem orFlags_fmask (w : Wave) (f : Flags) : (w.orFlags f).fmask = w.fmask := rfl
@[simp] theorem orFlags_xcode (w : Wave) (f : Flags) : (w.orFlags f).xcode = w.xcode := rfl
@[simp] theorem orFlags_xinfo (w : Wave) (f : Flags) : (w.orFlags f).xinfo = w.xinfo := rfl
@[simp] theorem orFlags_inHandler (w : Wave) (f : Flags) : (w.orFlags f).inHandler = w.inHandler := rfl
@[simp] theorem orFlags_faultPending (w : Wave) (f : Flags) : (w.orFlags f).faultPending = w.faultPending := rfl
@[simp] theorem orFlags_deferred (w : Wave) (f : Flags) : (w.orFlags f).deferred = w.deferred := rfl
@[simp] theorem orFlags_deferredTag (w : Wave) (f : Flags) : (w.orFlags f).deferredTag = w.deferredTag := rfl
@[simp] theorem orFlags_ladderFail (w : Wave) (f : Flags) : (w.orFlags f).ladderFail = w.ladderFail := rfl
@[simp] theorem orFlags_conds (w : Wave) (f : Flags) : (w.orFlags f).conds = w.conds := rfl
@[simp] theorem orFlags_parked (w : Wave) (f : Flags) : (w.orFlags f).parked = w.parked := rfl
@[simp] theorem orFlags_parkedAt (w : Wave) (f : Flags) : (w.orFlags f).parkedAt = w.parkedAt := rfl
@[simp] theorem orFlags_atMarker (w : Wave) (f : Flags) : (w.orFlags f).atMarker = w.atMarker := rfl
@[simp] theorem orFlags_active (w : Wave) (f : Flags) : (w.orFlags f).active = w.active := rfl
@[simp] theorem orFlags_activeSince (w : Wave) (f : Flags) : (w.orFlags f).activeSince = w.activeSince := rfl
@[simp] theorem orFlags_readySince (w : Wave) (f : Flags) : (w.orFlags f).readySince = w.readySince := rfl
@[simp] theorem orFlags_lastIssue (w : Wave) (f : Flags) : (w.orFlags f).lastIssue = w.lastIssue := rfl
@[simp] theorem orFlags_windowPc (w : Wave) (f : Flags) : (w.orFlags f).windowPc = w.windowPc := rfl
@[simp] theorem orFlags_windowLen (w : Wave) (f : Flags) : (w.orFlags f).windowLen = w.windowLen := rfl
@[simp] theorem orFlags_lastMarked (w : Wave) (f : Flags) : (w.orFlags f).lastMarked = w.lastMarked := rfl
@[simp] theorem orFlags_exempt (w : Wave) (f : Flags) : (w.orFlags f).exempt = w.exempt := rfl
@[simp] theorem orFlags_prefilled (w : Wave) (f : Flags) : (w.orFlags f).prefilled = w.prefilled := rfl
@[simp] theorem orFlags_census (w : Wave) (f : Flags) : (w.orFlags f).census = w.census := rfl
@[simp] theorem orFlags_cmdCounter (w : Wave) (f : Flags) : (w.orFlags f).cmdCounter = w.cmdCounter := rfl
@[simp] theorem orFlags_openBatch (w : Wave) (f : Flags) : (w.orFlags f).openBatch = w.openBatch := rfl
@[simp] theorem orFlags_openChan (w : Wave) (f : Flags) : (w.orFlags f).openChan = w.openChan := rfl
@[simp] theorem orFlags_batches (w : Wave) (f : Flags) : (w.orFlags f).batches = w.batches := rfl
@[simp] theorem orFlags_outstanding (w : Wave) (f : Flags) : (w.orFlags f).outstanding = w.outstanding := rfl
@[simp] theorem orFlags_stopped (w : Wave) (f : Flags) : (w.orFlags f).stopped = w.stopped := rfl
@[simp] theorem orFlags_stopPending (w : Wave) (f : Flags) : (w.orFlags f).stopPending = w.stopPending := rfl
@[simp] theorem orFlags_slice (w : Wave) (f : Flags) : (w.orFlags f).slice = w.slice := rfl
@[simp] theorem orFlags_walk (w : Wave) (f : Flags) : (w.orFlags f).walk = w.walk := rfl
@[simp] theorem orFlags_divert (w : Wave) (f : Flags) : (w.orFlags f).divert = w.divert := rfl
@[simp] theorem orFlags_run (w : Wave) (f : Flags) : (w.orFlags f).run = w.run := rfl
@[simp] theorem orFlags_window (w : Wave) (f : Flags) : (w.orFlags f).window = w.window := rfl
@[simp] theorem orFlags_zeros (w : Wave) (f : Flags) : (w.orFlags f).zeros = w.zeros := rfl
@[simp] theorem orFlags_dead (w : Wave) (f : Flags) : (w.orFlags f).dead = w.dead := rfl
@[simp] theorem orFlags_stalled (w : Wave) (f : Flags) : (w.orFlags f).stalled = w.stalled := rfl
@[simp] theorem orFlags_yields (w : Wave) (f : Flags) : (w.orFlags f).yields = w.yields := rfl
@[simp] theorem orFlags_codeSeg (w : Wave) (f : Flags) : (w.orFlags f).codeSeg = w.codeSeg := rfl
@[simp] theorem orFlags_flights (w : Wave) (f : Flags) : (w.orFlags f).flights = w.flights := rfl
@[simp] theorem orFlags_segs (w : Wave) (f : Flags) : (w.orFlags f).segs = w.segs := rfl
@[simp] theorem orFlags_firstIssue (w : Wave) (f : Flags) : (w.orFlags f).firstIssue = w.firstIssue := rfl
@[simp] theorem orFlags_resident (w : Wave) (f : Flags) : (w.orFlags f).resident = w.resident := rfl
@[simp] theorem orFlags_resp (w : Wave) (f : Flags) : (w.orFlags f).resp = w.resp := rfl

/-! ### What a write of a register by its code leaves -/

@[simp] theorem regSet_wg (w : Wave) (r l : Nat) (x : Word) : (w.regSet r l x).wg = w.wg := by unfold Wave.regSet; split <;> (try split) <;> simp
@[simp] theorem regSet_index (w : Wave) (r l : Nat) (x : Word) : (w.regSet r l x).index = w.index := by unfold Wave.regSet; split <;> (try split) <;> simp
@[simp] theorem regSet_record (w : Wave) (r l : Nat) (x : Word) : (w.regSet r l x).record = w.record := by unfold Wave.regSet; split <;> (try split) <;> simp
@[simp] theorem regSet_pcs (w : Wave) (r l : Nat) (x : Word) : (w.regSet r l x).pcs = w.pcs := by unfold Wave.regSet; split <;> (try split) <;> simp
@[simp] theorem regSet_exited (w : Wave) (r l : Nat) (x : Word) : (w.regSet r l x).exited = w.exited := by unfold Wave.regSet; split <;> (try split) <;> simp
@[simp] theorem regSet_fflags (w : Wave) (r l : Nat) (x : Word) : (w.regSet r l x).fflags = w.fflags := by unfold Wave.regSet; split <;> (try split) <;> simp
@[simp] theorem regSet_pend (w : Wave) (r l : Nat) (x : Word) : (w.regSet r l x).pend = w.pend := by unfold Wave.regSet; split <;> (try split) <;> simp
@[simp] theorem regSet_held (w : Wave) (r l : Nat) (x : Word) : (w.regSet r l x).held = w.held := by unfold Wave.regSet; split <;> (try split) <;> simp
@[simp] theorem regSet_xpc (w : Wave) (r l : Nat) (x : Word) : (w.regSet r l x).xpc = w.xpc := by unfold Wave.regSet; split <;> (try split) <;> simp
@[simp] theorem regSet_xmask (w : Wave) (r l : Nat) (x : Word) : (w.regSet r l x).xmask = w.xmask := by unfold Wave.regSet; split <;> (try split) <;> simp
@[simp] theorem regSet_fmask (w : Wave) (r l : Nat) (x : Word) : (w.regSet r l x).fmask = w.fmask := by unfold Wave.regSet; split <;> (try split) <;> simp
@[simp] theorem regSet_xcode (w : Wave) (r l : Nat) (x : Word) : (w.regSet r l x).xcode = w.xcode := by unfold Wave.regSet; split <;> (try split) <;> simp
@[simp] theorem regSet_xinfo (w : Wave) (r l : Nat) (x : Word) : (w.regSet r l x).xinfo = w.xinfo := by unfold Wave.regSet; split <;> (try split) <;> simp
@[simp] theorem regSet_inHandler (w : Wave) (r l : Nat) (x : Word) : (w.regSet r l x).inHandler = w.inHandler := by unfold Wave.regSet; split <;> (try split) <;> simp
@[simp] theorem regSet_faultPending (w : Wave) (r l : Nat) (x : Word) : (w.regSet r l x).faultPending = w.faultPending := by unfold Wave.regSet; split <;> (try split) <;> simp
@[simp] theorem regSet_deferred (w : Wave) (r l : Nat) (x : Word) : (w.regSet r l x).deferred = w.deferred := by unfold Wave.regSet; split <;> (try split) <;> simp
@[simp] theorem regSet_deferredTag (w : Wave) (r l : Nat) (x : Word) : (w.regSet r l x).deferredTag = w.deferredTag := by unfold Wave.regSet; split <;> (try split) <;> simp
@[simp] theorem regSet_ladderFail (w : Wave) (r l : Nat) (x : Word) : (w.regSet r l x).ladderFail = w.ladderFail := by unfold Wave.regSet; split <;> (try split) <;> simp
@[simp] theorem regSet_conds (w : Wave) (r l : Nat) (x : Word) : (w.regSet r l x).conds = w.conds := by unfold Wave.regSet; split <;> (try split) <;> simp
@[simp] theorem regSet_parked (w : Wave) (r l : Nat) (x : Word) : (w.regSet r l x).parked = w.parked := by unfold Wave.regSet; split <;> (try split) <;> simp
@[simp] theorem regSet_parkedAt (w : Wave) (r l : Nat) (x : Word) : (w.regSet r l x).parkedAt = w.parkedAt := by unfold Wave.regSet; split <;> (try split) <;> simp
@[simp] theorem regSet_atMarker (w : Wave) (r l : Nat) (x : Word) : (w.regSet r l x).atMarker = w.atMarker := by unfold Wave.regSet; split <;> (try split) <;> simp
@[simp] theorem regSet_active (w : Wave) (r l : Nat) (x : Word) : (w.regSet r l x).active = w.active := by unfold Wave.regSet; split <;> (try split) <;> simp
@[simp] theorem regSet_activeSince (w : Wave) (r l : Nat) (x : Word) : (w.regSet r l x).activeSince = w.activeSince := by unfold Wave.regSet; split <;> (try split) <;> simp
@[simp] theorem regSet_readySince (w : Wave) (r l : Nat) (x : Word) : (w.regSet r l x).readySince = w.readySince := by unfold Wave.regSet; split <;> (try split) <;> simp
@[simp] theorem regSet_lastIssue (w : Wave) (r l : Nat) (x : Word) : (w.regSet r l x).lastIssue = w.lastIssue := by unfold Wave.regSet; split <;> (try split) <;> simp
@[simp] theorem regSet_windowPc (w : Wave) (r l : Nat) (x : Word) : (w.regSet r l x).windowPc = w.windowPc := by unfold Wave.regSet; split <;> (try split) <;> simp
@[simp] theorem regSet_windowLen (w : Wave) (r l : Nat) (x : Word) : (w.regSet r l x).windowLen = w.windowLen := by unfold Wave.regSet; split <;> (try split) <;> simp
@[simp] theorem regSet_lastMarked (w : Wave) (r l : Nat) (x : Word) : (w.regSet r l x).lastMarked = w.lastMarked := by unfold Wave.regSet; split <;> (try split) <;> simp
@[simp] theorem regSet_exempt (w : Wave) (r l : Nat) (x : Word) : (w.regSet r l x).exempt = w.exempt := by unfold Wave.regSet; split <;> (try split) <;> simp
@[simp] theorem regSet_prefilled (w : Wave) (r l : Nat) (x : Word) : (w.regSet r l x).prefilled = w.prefilled := by unfold Wave.regSet; split <;> (try split) <;> simp
@[simp] theorem regSet_census (w : Wave) (r l : Nat) (x : Word) : (w.regSet r l x).census = w.census := by unfold Wave.regSet; split <;> (try split) <;> simp
@[simp] theorem regSet_cmdCounter (w : Wave) (r l : Nat) (x : Word) : (w.regSet r l x).cmdCounter = w.cmdCounter := by unfold Wave.regSet; split <;> (try split) <;> simp
@[simp] theorem regSet_openBatch (w : Wave) (r l : Nat) (x : Word) : (w.regSet r l x).openBatch = w.openBatch := by unfold Wave.regSet; split <;> (try split) <;> simp
@[simp] theorem regSet_openChan (w : Wave) (r l : Nat) (x : Word) : (w.regSet r l x).openChan = w.openChan := by unfold Wave.regSet; split <;> (try split) <;> simp
@[simp] theorem regSet_batches (w : Wave) (r l : Nat) (x : Word) : (w.regSet r l x).batches = w.batches := by unfold Wave.regSet; split <;> (try split) <;> simp
@[simp] theorem regSet_outstanding (w : Wave) (r l : Nat) (x : Word) : (w.regSet r l x).outstanding = w.outstanding := by unfold Wave.regSet; split <;> (try split) <;> simp
@[simp] theorem regSet_stopped (w : Wave) (r l : Nat) (x : Word) : (w.regSet r l x).stopped = w.stopped := by unfold Wave.regSet; split <;> (try split) <;> simp
@[simp] theorem regSet_stopPending (w : Wave) (r l : Nat) (x : Word) : (w.regSet r l x).stopPending = w.stopPending := by unfold Wave.regSet; split <;> (try split) <;> simp
@[simp] theorem regSet_slice (w : Wave) (r l : Nat) (x : Word) : (w.regSet r l x).slice = w.slice := by unfold Wave.regSet; split <;> (try split) <;> simp
@[simp] theorem regSet_walk (w : Wave) (r l : Nat) (x : Word) : (w.regSet r l x).walk = w.walk := by unfold Wave.regSet; split <;> (try split) <;> simp
@[simp] theorem regSet_divert (w : Wave) (r l : Nat) (x : Word) : (w.regSet r l x).divert = w.divert := by unfold Wave.regSet; split <;> (try split) <;> simp
@[simp] theorem regSet_run (w : Wave) (r l : Nat) (x : Word) : (w.regSet r l x).run = w.run := by unfold Wave.regSet; split <;> (try split) <;> simp
@[simp] theorem regSet_window (w : Wave) (r l : Nat) (x : Word) : (w.regSet r l x).window = w.window := by unfold Wave.regSet; split <;> (try split) <;> simp
@[simp] theorem regSet_zeros (w : Wave) (r l : Nat) (x : Word) : (w.regSet r l x).zeros = w.zeros := by unfold Wave.regSet; split <;> (try split) <;> simp
@[simp] theorem regSet_dead (w : Wave) (r l : Nat) (x : Word) : (w.regSet r l x).dead = w.dead := by unfold Wave.regSet; split <;> (try split) <;> simp
@[simp] theorem regSet_stalled (w : Wave) (r l : Nat) (x : Word) : (w.regSet r l x).stalled = w.stalled := by unfold Wave.regSet; split <;> (try split) <;> simp
@[simp] theorem regSet_yields (w : Wave) (r l : Nat) (x : Word) : (w.regSet r l x).yields = w.yields := by unfold Wave.regSet; split <;> (try split) <;> simp
@[simp] theorem regSet_codeSeg (w : Wave) (r l : Nat) (x : Word) : (w.regSet r l x).codeSeg = w.codeSeg := by unfold Wave.regSet; split <;> (try split) <;> simp
@[simp] theorem regSet_flights (w : Wave) (r l : Nat) (x : Word) : (w.regSet r l x).flights = w.flights := by unfold Wave.regSet; split <;> (try split) <;> simp
@[simp] theorem regSet_segs (w : Wave) (r l : Nat) (x : Word) : (w.regSet r l x).segs = w.segs := by unfold Wave.regSet; split <;> (try split) <;> simp
@[simp] theorem regSet_firstIssue (w : Wave) (r l : Nat) (x : Word) : (w.regSet r l x).firstIssue = w.firstIssue := by unfold Wave.regSet; split <;> (try split) <;> simp
@[simp] theorem regSet_resident (w : Wave) (r l : Nat) (x : Word) : (w.regSet r l x).resident = w.resident := by unfold Wave.regSet; split <;> (try split) <;> simp
@[simp] theorem regSet_resp (w : Wave) (r l : Nat) (x : Word) : (w.regSet r l x).resp = w.resp := by unfold Wave.regSet; split <;> (try split) <;> simp

end Sys2Proof.Laws
end

