-- ==== Sys2Proof/Laws/Units.lean ====
section
/-!
SUPPORT. Units by number: what each reads as after an update of it or of another.
-/

namespace Sys2Proof.Laws
open Sys2Proof.Machine

/-! ### Cores, waves, workgroups -/

/-- A core after one is replaced. -/
theorem core_setCore (s : State) (n m : Nat) (c : Core) : (s.setCore n c).core m = if m = n then c else s.core m :=
  sget_sset _ _ _ _ _

@[simp] theorem core_setCore_same (s : State) (n : Nat) (c : Core) : (s.setCore n c).core n = c := by simp [core_setCore]

/-- A core after one is changed. -/
theorem core_updCore (s : State) (n m : Nat) (f : Core → Core) :
    (s.updCore n f).core m = if m = n then f (s.core n) else s.core m := core_setCore s n m _

@[simp] theorem core_updCore_same (s : State) (n : Nat) (f : Core → Core) : (s.updCore n f).core n = f (s.core n) := by
  simp [core_updCore]

@[simp] theorem core_updPart (s : State) (n m : Nat) (f : Part → Part) : (s.updPart n f).core m = s.core m := rfl
@[simp] theorem core_updFunc (s : State) (n m : Nat) (f : Func → Func) : (s.updFunc n f).core m = s.core m := rfl
@[simp] theorem core_tick (s : State) (n m : Nat) : (s.tick n).core m = s.core m := rfl
@[simp] theorem core_setHome (s : State) (pa : Nat) (b : Byte) (m : Nat) : (s.setHome pa b).core m = s.core m := by
  simp [State.core]

/-- A wave after a slot is set: waves of a core are told apart by their key. -/
theorem wave_setWave (s : State) (w j : WaveId) (v : Option Wave) :
    (s.setWave w v).wave j = if j.core = w.core ∧ waveKey j = waveKey w then v else s.wave j := by
  unfold State.setWave State.wave
  by_cases h : j.core = w.core
  · by_cases h2 : waveKey j = waveKey w <;> simp [sget_sset, h, h2]
  · simp [core_updCore, h]

@[simp] theorem wave_setWave_same (s : State) (w : WaveId) (v : Option Wave) : (s.setWave w v).wave w = v := by
  simp [wave_setWave]

/-- A wave after one is changed. -/
theorem wave_updWave (s : State) (w j : WaveId) (f : Wave → Wave) :
    (s.updWave w f).wave j = if j.core = w.core ∧ waveKey j = waveKey w then (s.wave w).map f else s.wave j := by
  have hk : j.core = w.core → waveKey j = waveKey w → s.wave j = s.wave w := by
    intro h1 h2; simp [State.wave, h1, h2]
  unfold State.updWave
  cases h : s.wave w with
  | none =>
    by_cases hj : j.core = w.core ∧ waveKey j = waveKey w
    · simp [hj, hk hj.1 hj.2, h]
    · simp [hj]
  | some x => simp [wave_setWave]

@[simp] theorem wave_updWave_same (s : State) (w : WaveId) (f : Wave → Wave) : (s.updWave w f).wave w = (s.wave w).map f := by
  simp [wave_updWave]

/-- A workgroup after one is set. -/
theorem wg_setWg (s : State) (n i m j : Nat) (g : Option Workgroup) :
    (s.setWg n i g).wg m j = if m = n ∧ j = i then g else s.wg m j := by
  unfold State.setWg State.wg
  by_cases h : m = n
  · by_cases h2 : j = i <;> simp [sget_sset, h, h2]
  · simp [core_updCore, h]

@[simp] theorem wg_setWave (s : State) (w : WaveId) (v : Option Wave) (n i : Nat) : (s.setWave w v).wg n i = s.wg n i := by
  unfold State.setWave State.wg
  by_cases h : n = w.core
  · subst h; simp
  · simp [core_updCore, h]

@[simp] theorem wg_updWave (s : State) (w : WaveId) (f : Wave → Wave) (n i : Nat) : (s.updWave w f).wg n i = s.wg n i := by
  unfold State.updWave; split <;> simp

@[simp] theorem wave_setWg (s : State) (n i : Nat) (g : Option Workgroup) (w : WaveId) : (s.setWg n i g).wave w = s.wave w := by
  unfold State.setWg State.wave
  by_cases h : w.core = n
  · subst h; simp
  · simp [core_updCore, h]

@[simp] theorem wave_updWg (s : State) (n i : Nat) (f : Workgroup → Workgroup) (w : WaveId) : (s.updWg n i f).wave w = s.wave w := by
  unfold State.updWg; split <;> simp

/-- A core's parts other than its waves, after a wave is set. -/
theorem core_setWave (s : State) (w : WaveId) (v : Option Wave) (n : Nat) :
    (s.setWave w v).core n = if n = w.core then { s.core w.core with waves := sset none (s.core w.core).waves (waveKey w) v } else s.core n :=
  core_updCore s w.core n _

/-- A core after a wave is changed is the core with other waves. -/
theorem core_updWave (s : State) (w : WaveId) (f : Wave → Wave) (n : Nat) :
    ∃ ws, (s.updWave w f).core n = { s.core n with waves := ws } ∧ (n ≠ w.core → ws = (s.core n).waves) := by
  unfold State.updWave
  split
  · exact ⟨_, rfl, fun _ => rfl⟩
  · rw [core_setWave]
    by_cases h : n = w.core
    · subst h; exact ⟨_, if_pos rfl, fun h => absurd rfl h⟩
    · exact ⟨_, by rw [if_neg h], fun _ => rfl⟩

/-! ### Partitions and functions -/

/-- A partition after one is changed. -/
theorem part_updPart (s : State) (n m : Nat) (f : Part → Part) : (s.updPart n f).part m = if m = n then f (s.part n) else s.part m :=
  sget_sset _ _ _ _ _

/-- A function after one is changed. -/
theorem func_updFunc (s : State) (n m : Nat) (f : Func → Func) : (s.updFunc n f).func m = if m = n then f (s.func n) else s.func m :=
  sget_sset _ _ _ _ _

@[simp] theorem part_updCore (s : State) (n m : Nat) (f : Core → Core) : (s.updCore n f).part m = s.part m := rfl
@[simp] theorem func_updCore (s : State) (n m : Nat) (f : Core → Core) : (s.updCore n f).func m = s.func m := rfl
@[simp] theorem part_updFunc (s : State) (n m : Nat) (f : Func → Func) : (s.updFunc n f).part m = s.part m := rfl
@[simp] theorem func_updPart (s : State) (n m : Nat) (f : Part → Part) : (s.updPart n f).func m = s.func m := rfl

/-! ### Registers -/

/-- A vector register lane after one is written. -/
theorem vget_vset (w : Wave) (r l q j : Nat) (x : Word) (hl : l < 32) (hj : j < 32) :
    (w.vset r l x).vget q j = if q = r ∧ j = l then x else w.vget q j := by
  have : q * 32 + j = r * 32 + l ↔ q = r ∧ j = l := by omega
  simp [Wave.vset, Wave.vget, sget_sset, this]

/-- A scalar register after one is written. -/
theorem sreg_sregSet (w : Wave) (r q : Nat) (x : Word) : (w.sregSet r x).sreg q = if q = r then x else w.sreg q :=
  sget_sset _ _ _ _ _

/-- A mask register after one is written; `k0` is never. -/
theorem kget_kset (w : Wave) (k q : Nat) (x : Mask) : (w.kset k x).kget q = if q = k ∧ k ≠ 0 then x else w.kget q := by
  unfold Wave.kset
  by_cases h0 : k = 0
  · simp [h0]
  · by_cases hq : q = 0
    · have : q ≠ k := fun h => h0 (h ▸ hq)
      simp [h0, Wave.kget, hq, Ne.symm h0]
    · simp [h0, Wave.kget, hq, sget_sset]

/-- The PC of a lane after one is set. -/
theorem pcOf_pcSet (w : Wave) (l j : Nat) (p : Word) : (w.pcSet l p).pcOf j = if j = l then p else w.pcOf j :=
  sget_sset _ _ _ _ _

/-- The PC of a lane after those of some lanes are set. -/
theorem pcOf_pcSets (w : Wave) (ls : List Nat) (f : Nat → Word) (j : Nat) :
    (w.pcSets ls f).pcOf j = if j ∈ ls then f j else w.pcOf j := by
  unfold Wave.pcSets
  induction ls generalizing w with
  | nil => simp
  | cons l ls ih =>
    rw [List.foldl_cons, ih, pcOf_pcSet]
    by_cases h1 : j ∈ ls <;> by_cases h2 : j = l <;> simp [h1, h2]

/-- Setting PCs leaves everything else of a wave: the wave with other PCs. -/
theorem pcSets_eq (w : Wave) (ls : List Nat) (f : Nat → Word) : ∃ p, w.pcSets ls f = { w with pcs := p } := by
  unfold Wave.pcSets
  induction ls generalizing w with
  | nil => exact ⟨w.pcs, rfl⟩
  | cons l ls ih => obtain ⟨p, h⟩ := ih (w.pcSet l (f l)); exact ⟨p, h⟩

/-! ### Masks of lanes -/

/-- The lanes of a mask. -/
@[simp] theorem mem_lanesOf (m : Mask) (l : Nat) : l ∈ lanesOf m ↔ l < 32 ∧ m.getLsbD l = true := by
  simp [lanesOf, lanes]

/-- The bits of the mask of a list of lanes, over a start. -/
theorem getLsbD_foldl_or (ls : List Nat) (m : Mask) (j : Nat) (hj : j < 32) :
    (ls.foldl (fun (m : Mask) l => m ||| (1#32 <<< l)) m).getLsbD j = (m.getLsbD j || decide (j ∈ ls)) := by
  induction ls generalizing m with
  | nil => simp
  | cons l ls ih =>
    rw [List.foldl_cons, ih]
    by_cases h : j = l
    · subst h; simp [hj]
    · have : ¬ (l ≤ j ∧ j - l = 0) := by omega
      by_cases h2 : l ≤ j
      · have h3 : j - l ≠ 0 := by omega
        simp [hj, h, h3]
      · have h4 : j < l := by omega
        simp [hj, h, h4]

/-- The bits of the mask of a list of lanes. -/
theorem getLsbD_maskOf (ls : List Nat) (j : Nat) (hj : j < 32) : (maskOf ls).getLsbD j = decide (j ∈ ls) := by
  simp [maskOf, getLsbD_foldl_or ls 0#32 j hj]

/-! ### Memory at the home -/

/-- Two addresses of one form are both of this package or both not. -/
theorem isLocal_of_canon_eq {s : State} {p q : Nat} (h : s.canon q = s.canon p) : s.isLocal q = s.isLocal p := by
  have key : ∀ x y : Nat, s.isLocal x = true → s.isLocal y = false → s.canon x ≠ s.canon y := by
    intro x y hx hy e
    have hy' : ¬ paPkg y = 0 := by
      intro h0; simp [State.isLocal, h0] at hy
    simp only [State.canon, hx, hy, if_true, Bool.false_eq_true, if_false] at e
    apply hy'
    unfold paPkg
    omega
  cases hp : s.isLocal p <;> cases hq : s.isLocal q
  · rfl
  · exact absurd h (key q p hq hp)
  · exact absurd h.symm (key p q hp hq)
  · rfl

/-- A byte at its home after one is written. -/
theorem homeByte_setHome (s : State) (p q : Nat) (b : Byte) :
    (s.setHome p b).homeByte q = if s.canon q = s.canon p then b else s.homeByte q := by
  have hl : ∀ x, (s.setHome p b).isLocal x = s.isLocal x := fun x => by simp [State.isLocal]
  have hc : ∀ x, (s.setHome p b).canon x = s.canon x := fun x => by simp [State.canon, hl]
  unfold State.homeByte
  rw [hl, hc]
  by_cases h : s.canon q = s.canon p
  · have e := isLocal_of_canon_eq h
    cases hp : s.isLocal p with
    | true => simp [State.setHome, hp, e, h]
    | false =>
      have : q = p := by simpa [State.canon, hp, e] using h
      simp [State.setHome, hp, this, optD]
  · cases hp : s.isLocal p with
    | true => cases hq : s.isLocal q <;> simp [State.setHome, hp, sget_sset, h]
    | false =>
      cases hq : s.isLocal q with
      | true => simp [State.setHome, hp, hq, h]
      | false =>
        have : q ≠ p := fun e => h (by rw [e])
        simp [State.setHome, hp, sget_sset, this, h]

/-- A byte written at its home keeps memory in canonical form. -/
theorem wf_setHome {s : State} (p : Nat) (b : Byte) (h : Memory.wf s.mem = true) : Memory.wf (s.setHome p b).mem = true := by
  unfold State.setHome
  split
  · exact sok_sset 0#8 _ _ h
  · exact h

/-- So do bytes written one after the other. -/
theorem wf_setHomeBytes {s : State} (p : Nat) (bs : List Byte) (h : Memory.wf s.mem = true) :
    Memory.wf (s.setHomeBytes p bs).mem = true := by
  induction bs generalizing s p with
  | nil => exact h
  | cons b bs ih => exact ih (p + 1) (wf_setHome p b h)

/-- And the bytes of a list of addresses. -/
theorem wf_setHomes {s : State} (bs : List (Nat × Byte)) (h : Memory.wf s.mem = true) :
    Memory.wf (bs.foldl (fun (s : State) b => s.setHome b.1 b.2) s).mem = true := by
  induction bs generalizing s with
  | nil => exact h
  | cons b bs ih => exact ih (wf_setHome b.1 b.2 h)

end Sys2Proof.Laws
end

