-- ==== Sys2Proof/Laws/Frames.lean ====
section
/-!
SUPPORT. What the end of a word's issue leaves unchanged: retirement, the held set's evaluation, the marker.
-/

namespace Sys2Proof.Laws
open Sys2Proof.Machine Sys2Proof.Claims

/-- The registers of a wave that a program reads: vector, scalar and mask registers, PCs, sticky flags and exit bits. -/
def regsOf (w : Wave) : Sparse Word × Sparse Word × Sparse Mask × Sparse Word × Flags × Mask := (w.v, w.s, w.k, w.pcs, w.fflags, w.exited)

/-- `t` is `s` but for waves of one core, none of which but that of `id` has other registers. -/
structure WavesOnly (s t : State) (id : WaveId) : Prop where
  rest : { t with cores := s.cores } = s
  other : ∀ n, n ≠ id.core → t.core n = s.core n
  own : ∃ ws, t.core id.core = { s.core id.core with waves := ws }
  regs : ∀ j, j.core = id.core → waveKey j ≠ waveKey id → (t.wave j).map regsOf = (s.wave j).map regsOf

/-- A state is itself but for nothing. -/
theorem WavesOnly.refl (s : State) (id : WaveId) : WavesOnly s s id :=
  ⟨rfl, fun _ _ => rfl, ⟨(s.core id.core).waves, rfl⟩, fun _ _ _ => rfl⟩

/-- One change of waves after another. -/
theorem WavesOnly.trans {s t u : State} {id : WaveId} (h : WavesOnly s t id) (k : WavesOnly t u id) : WavesOnly s u id := by
  obtain ⟨ws, h3⟩ := h.own
  obtain ⟨vs, k3⟩ := k.own
  refine ⟨?_, fun n hn => (k.other n hn).trans (h.other n hn), ⟨vs, by rw [k3, h3]⟩,
    fun j hj hk => (k.regs j hj hk).trans (h.regs j hj hk)⟩
  have e : { u with cores := s.cores } = { ({ u with cores := t.cores } : State) with cores := s.cores } := rfl
  rw [e, k.rest]
  exact h.rest

/-- Setting the wave itself. -/
theorem WavesOnly.setWave (s : State) (id : WaveId) (v : Option Wave) : WavesOnly s (s.setWave id v) id := by
  refine ⟨rfl, fun n hn => ?_, ⟨sset none (s.core id.core).waves (waveKey id) v, ?_⟩, fun j hj hk => ?_⟩
  · rw [core_setWave, if_neg hn]
  · rw [core_setWave, if_pos rfl]
  · rw [wave_setWave, if_neg (fun h => hk h.2)]

/-- A wave set and then changed. -/
theorem wave_updWave_setWave (s : State) (id : WaveId) (v : Wave) (f : Wave → Wave) :
    ((s.setWave id (some v)).updWave id f).wave id = some (f v) := by simp

/-- Changing the wave itself. -/
theorem WavesOnly.updWave (s : State) (id : WaveId) (f : Wave → Wave) : WavesOnly s (s.updWave id f) id := by
  unfold State.updWave
  split
  · exact .refl s id
  · exact .setWave s id _

/-- Changing a wave of the core without touching its registers. -/
theorem WavesOnly.updQuiet (s : State) (id j : WaveId) (f : Wave → Wave) (hj : j.core = id.core) (hf : ∀ w, regsOf (f w) = regsOf w) :
    WavesOnly s (s.updWave j f) id := by
  have h := WavesOnly.updWave s j f
  obtain ⟨ws, h3⟩ := h.own
  refine ⟨h.rest, fun n hn => h.other n (by rw [hj]; exact hn), ⟨ws, by rw [← hj]; exact h3⟩, fun i hi _ => ?_⟩
  rw [wave_updWave]
  split
  · next e =>
    have : s.wave i = s.wave j := by simp [State.wave, e.1, e.2]
    rw [this]
    cases s.wave j with
    | none => rfl
    | some w => simp [hf]
  · rfl

/-- The wave itself after a quiet change of another or of it. -/
theorem wave_updQuiet (s : State) (id j : WaveId) (f : Wave → Wave) {w : Wave} (hw : s.wave id = some w)
    (P : Wave → Prop) (hp : P w) (hf : ∀ w, P w → P (f w)) : ∃ v, (s.updWave j f).wave id = some v ∧ P v := by
  rw [wave_updWave]
  split
  · next e =>
    have : s.wave j = s.wave id := by simp [State.wave, e.1, e.2]
    rw [this, hw]
    exact ⟨f w, rfl, hf w hp⟩
  · exact ⟨w, hw, hp⟩

/-- A wave that `schedWaves` lists is one of the core. -/
theorem core_of_mem_schedWaves {s : State} {core sched : Nat} {e : WaveId × Wave} (h : e ∈ s.schedWaves core sched) : e.1.core = core := by
  unfold State.schedWaves Core.waveList at h
  simp only [List.mem_filter, List.mem_filterMap, Option.map_eq_some_iff] at h
  obtain ⟨⟨p, _, w, _, rfl⟩, _⟩ := h
  rfl

/-- The least of a list is one of it. -/
theorem leastBy_mem {f : Wave → Nat} {l : List (WaveId × Wave)} {x : WaveId × Wave} (h : leastBy f l = some x) : x ∈ l := by
  unfold leastBy at h
  have key : ∀ (l : List (WaveId × Wave)) (acc : Option (WaveId × Wave)), (∀ y, acc = some y → y ∈ l ∨ acc = some y) →
      ∀ x, l.foldl (fun (acc : Option (WaveId × Wave)) e => match acc with
        | none => some e
        | some b => if f e.2 < f b.2 then some e else acc) acc = some x → x ∈ l ∨ acc = some x := by
    intro l
    induction l with
    | nil => intro acc _ x hx; exact .inr hx
    | cons a l ih =>
      intro acc _ x hx
      rcases ih _ (fun y hy => .inr hy) x hx with h1 | h1
      · exact .inl (List.mem_cons_of_mem _ h1)
      · cases acc with
        | none => simp at h1; subst h1; exact .inl List.mem_cons_self
        | some b =>
          simp only at h1
          split at h1
          · simp at h1; subst h1; exact .inl List.mem_cons_self
          · exact .inr h1
  rcases key l none (by simp) x h with h1 | h1
  · exact h1
  · cases h1

/-- Filling active slots changes no register of any wave. -/
theorem WavesOnly.rebalance (s : State) (id : WaveId) (sched : Nat) : WavesOnly s (s.rebalance id.core sched) id := by
  unfold State.rebalance
  dsimp only
  split
  · exact .refl s id
  · next p _ hp =>
    have hpc : p.core = id.core := core_of_mem_schedWaves (List.mem_of_mem_filter (leastBy_mem hp))
    split
    · exact .updQuiet s id p _ hpc (fun _ => rfl)
    · split
      · exact .refl s id
      · next q _ hq =>
        have hqc : q.core = id.core :=
          core_of_mem_schedWaves (List.mem_of_mem_filter (List.mem_of_mem_filter (leastBy_mem hq)))
        exact (WavesOnly.updQuiet s id q _ hqc (by intro w; rfl)).trans (.updQuiet _ id p _ hpc (by intro w; rfl))

/-- A property of a wave that its place in the active set does not touch survives the filling of active slots. -/
theorem wave_rebalance (s : State) (id : WaveId) (sched : Nat) {w : Wave} (hw : s.wave id = some w) (P : Wave → Prop) (hp : P w)
    (hf : ∀ (w : Wave) (n : Nat), P w → P (w.enter n) ∧ P (w.depart n)) :
    ∃ v, (s.rebalance id.core sched).wave id = some v ∧ P v := by
  unfold State.rebalance
  dsimp only
  split
  · exact ⟨w, hw, hp⟩
  · next p _ _ =>
    split
    · exact wave_updQuiet s id p _ hw P hp (fun w h => (hf w _ h).1)
    · split
      · exact ⟨w, hw, hp⟩
      · next q _ _ =>
        obtain ⟨v, hv, hpv⟩ := wave_updQuiet s id q (fun w => w.depart s.clk) hw P hp (fun w h => (hf w _ h).2)
        exact wave_updQuiet _ id p _ hv P hpv (fun w h => (hf w _ h).1)

/-- An exchange at a marker changes no register of any wave. -/
theorem WavesOnly.exchange (s : State) (id : WaveId) : WavesOnly s (s.exchange id) id := by
  unfold State.exchange
  split
  · exact .refl s id
  · split
    · exact .refl s id
    · split
      · exact .updWave s id _
      · split
        · exact (WavesOnly.updWave s id _).trans (.updQuiet _ id _ _ rfl (fun _ => rfl))
        · exact .updWave s id _

/-- A property of a wave that its place in the active set does not touch survives an exchange. -/
theorem wave_exchange (s : State) (id : WaveId) {w : Wave} (hw : s.wave id = some w) (P : Wave → Prop) (hp : P w)
    (hf : ∀ (w : Wave) (n : Nat), P w → P (w.enter n) ∧ P (w.depart n) ∧ P { w with yields := none }) :
    ∃ v, (s.exchange id).wave id = some v ∧ P v := by
  unfold State.exchange
  rw [hw]
  dsimp only
  split
  · exact ⟨w, hw, hp⟩
  · split
    · exact wave_updQuiet s id id _ hw P hp (fun w h => (hf w 0 h).2.2)
    · split
      · obtain ⟨v, hv, hpv⟩ := wave_updQuiet s id id (fun w => w.depart s.clk) hw P hp (fun w h => (hf w _ h).2.1)
        exact wave_updQuiet _ id _ _ hv P hpv (fun w h => (hf w _ h).1)
      · exact wave_updQuiet s id id _ hw P hp (fun w h => (hf w 0 h).2.2)

/-- What a wave keeps through its marker: its registers, handler state, held set and accesses, and the faults it holds. -/
def keptOf (w : Wave) := (regsOf w, w.wg, w.xpc, w.xmask, w.fmask, (w.xcode, w.xinfo, w.inHandler, w.held, w.flights, w.resp), w.deferred, w.record)

/-- The marker of a wave with no deferred fault, in code that marks no register dead, changes no register. -/
theorem settle_frame (s : State) (id : WaveId) {w : Wave} (hw : s.wave id = some w) (hd : w.deferred = none)
    (hl : ∀ g, s.wg id.core w.wg = some g → g.live = []) :
    WavesOnly s (s.settle id) id ∧ ∃ v, (s.settle id).wave id = some v ∧ keptOf v = keptOf w := by
  have stay : WavesOnly s s id ∧ ∃ v, s.wave id = some v ∧ keptOf v = keptOf w := ⟨.refl s id, w, hw, rfl⟩
  have one : ∀ v : Wave, keptOf v = keptOf w →
      WavesOnly s (s.setWave id (some v)) id ∧ ∃ u, (s.setWave id (some v)).wave id = some u ∧ keptOf u = keptOf w :=
    fun v h => ⟨.setWave s id _, v, wave_setWave_same .., h⟩
  unfold State.settle
  rw [hw]
  dsimp only
  split
  · exact stay
  · split
    · exact stay
    · next g hg =>
      split
      · next h1 _ => rw [hd] at h1; cases h1
      · split
        · exact one _ rfl
        · split
          · refine ⟨(WavesOnly.setWave s id _).trans (.rebalance _ id _), ?_⟩
            exact wave_rebalance _ id _ (wave_setWave_same s id _) (fun v => keptOf v = keptOf w) rfl (fun _ _ h => ⟨h, h⟩)
          · split
            · exact one _ rfl
            · split
              · unfold State.endWindow State.dropDead
                rw [hl g hg]
                dsimp only [List.find?]
                exact ⟨((WavesOnly.setWave s id _).trans (.updWave _ id _)).trans (.exchange _ id),
                  wave_exchange _ id (wave_updWave_setWave ..) (fun v => keptOf v = keptOf w) rfl (fun _ _ h => ⟨h, h, h⟩)⟩
              · exact one _ rfl

/-- What the evaluation of the held set leaves of a wave: all but its PCs, its held set and the timeout mask. -/
def restOf (w : Wave) := (w.v, w.s, w.fflags, w.exited, w.wg, (w.xpc, w.xmask, w.fmask, w.xcode, w.xinfo, w.inHandler), w.deferred, w.flights, w.record)

/-- Releasing the held lanes leaves the rest. -/
theorem release_frame (w : Wave) (h : HeldSet) (b : Bool) :
    restOf (w.release h b) = restOf w ∧ ∀ k, k ≠ h.aux → (w.release h b).kget k = w.kget k := by
  unfold Wave.release
  obtain ⟨p, hp⟩ := pcSets_eq { w with held := none } (lanesOf h.mask) (fun _ => h.pc + 1#32)
  simp only [hp]
  split
  · exact ⟨rfl, fun _ _ => rfl⟩
  · refine ⟨by simp [restOf], fun k hk => ?_⟩
    rw [kget_kset, if_neg (fun e => hk e.1)]
    rfl

/-- Evaluating the held set leaves the rest, and every mask but the timeout mask. -/
theorem heldEval_frame (w : Wave) (now : Nat) :
    restOf (w.heldEval now) = restOf w ∧ ∀ k, (∀ h, w.held = some h → k ≠ h.aux) → (w.heldEval now).kget k = w.kget k := by
  unfold Wave.heldEval
  split
  · exact ⟨rfl, fun _ _ => rfl⟩
  · next h hh =>
    have r : ∀ b, restOf (w.release h b) = restOf w ∧ ∀ k, (∀ h, w.held = some h → k ≠ h.aux) → (w.release h b).kget k = w.kget k :=
      fun b => ⟨(release_frame w h b).1, fun k hk => (release_frame w h b).2 k (hk h hh)⟩
    split
    · exact r false
    · split
      · exact r true
      · exact ⟨rfl, fun _ _ => rfl⟩

/-- The same at the wave of a state. -/
theorem heldCheck_frame (s : State) (id : WaveId) {w : Wave} (hw : s.wave id = some w) :
    WavesOnly s (s.heldCheck id) id ∧ ∃ v, (s.heldCheck id).wave id = some v ∧ restOf v = restOf w ∧
      ∀ k, (∀ h, w.held = some h → k ≠ h.aux) → v.kget k = w.kget k := by
  have stay : WavesOnly s s id ∧ ∃ v, s.wave id = some v ∧ restOf v = restOf w ∧
      ∀ k, (∀ h, w.held = some h → k ≠ h.aux) → v.kget k = w.kget k := ⟨.refl s id, w, hw, rfl, fun _ _ => rfl⟩
  unfold State.heldCheck
  rw [hw]
  dsimp only
  split
  · exact stay
  · split
    · exact stay
    · exact ⟨.setWave s id _, _, wave_setWave_same .., heldEval_frame w _⟩

/-- `t` is `s` but for the waves of one core, its register lines and its counters. -/
structure CoreOnly (s t : State) (id : WaveId) : Prop where
  rest : { t with cores := s.cores } = s
  other : ∀ n, n ≠ id.core → t.core n = s.core n
  own : ∃ ws p r a l, t.core id.core = { s.core id.core with waves := ws, perf := p, row := r, respAt := a, rf := l }
  regs : ∀ j, j.core = id.core → waveKey j ≠ waveKey id → (t.wave j).map regsOf = (s.wave j).map regsOf

/-- A change of waves is one. -/
theorem WavesOnly.core {s t : State} {id : WaveId} (h : WavesOnly s t id) : CoreOnly s t id := by
  obtain ⟨ws, h3⟩ := h.own
  exact ⟨h.rest, h.other, ⟨ws, _, _, _, _, h3⟩, h.regs⟩

/-- One after another. -/
theorem CoreOnly.trans {s t u : State} {id : WaveId} (h : CoreOnly s t id) (k : CoreOnly t u id) : CoreOnly s u id := by
  obtain ⟨ws, p, r, a, l, h3⟩ := h.own
  obtain ⟨vs, q, o, b, m, k3⟩ := k.own
  refine ⟨?_, fun n hn => (k.other n hn).trans (h.other n hn), ⟨vs, q, o, b, m, by rw [k3, h3]⟩,
    fun j hj hk => (k.regs j hj hk).trans (h.regs j hj hk)⟩
  have e : ({ u with cores := s.cores } : State) = { ({ u with cores := t.cores } : State) with cores := s.cores } := rfl
  rw [e, k.rest]
  exact h.rest

/-- A change of a core that touches none of its waves and none of its workgroups. -/
theorem quiet_updCore (s : State) (id : WaveId) (f : Core → Core)
    (hf : ∀ k, ∃ p r a l, f k = { k with perf := p, row := r, respAt := a, rf := l }) :
    CoreOnly s (s.updCore id.core f) id ∧ (∀ j, (s.updCore id.core f).wave j = s.wave j) ∧
      (∀ n i, (s.updCore id.core f).wg n i = s.wg n i) := by
  obtain ⟨p, r, a, l, h⟩ := hf (s.core id.core)
  have hc : ∀ n, (s.updCore id.core f).core n =
      if n = id.core then { s.core id.core with perf := p, row := r, respAt := a, rf := l } else s.core n := fun n => by
    rw [core_updCore, h]
  have hw : ∀ j, (s.updCore id.core f).wave j = s.wave j := by
    intro j
    simp only [State.wave, hc]
    split
    · next e => rw [e]
    · rfl
  refine ⟨⟨rfl, fun n hn => by rw [hc, if_neg hn], ⟨_, _, _, _, _, by rw [hc, if_pos rfl]⟩, fun j _ _ => by rw [hw]⟩, hw, ?_⟩
  intro n i
  simp only [State.wg, hc]
  split
  · next e => rw [e]
  · rfl

/-- Counting an issued word changes counters only. -/
theorem countIssue_frame (s : State) (id : WaveId) :
    CoreOnly s (s.countIssue id) id ∧ (∀ j, (s.countIssue id).wave j = s.wave j) ∧ (∀ n i, (s.countIssue id).wg n i = s.wg n i) :=
  quiet_updCore s id _ (fun _ => ⟨_, _, _, _, rfl⟩)

/-- What retirement leaves: where no fault is deferred and the code marks no register dead, the wave keeps its registers but for its PCs
and the timeout mask of a released set, and nothing changes outside its core. -/
theorem retire_frame (s : State) (sh : Shape) (c : Ctx) (moved : Bool) {w : Wave} (hw : s.wave c.id = some w) (hd : w.deferred = none)
    (hl : ∀ g, s.wg c.id.core w.wg = some g → g.live = []) :
    CoreOnly s (s.retire sh c moved) c.id ∧ ∃ v, (s.retire sh c moved).wave c.id = some v ∧ restOf v = restOf w ∧
      ∀ k, (∀ h, w.held = some h → k ≠ h.aux) → v.kget k = w.kget k := by
  unfold State.retire
  dsimp only
  obtain ⟨p, hp⟩ := pcSets_eq w (lanesOf c.active) (fun _ => c.pc + 1#32)
  generalize hf : (fun (w : Wave) => Wave.issued { (if moved then w else w.pcSets (lanesOf c.active) (fun _ => c.pc + 1#32)) with
    lastMarked := c.wave.lastMarked, pend := (if moved then w else w.pcSets (lanesOf c.active) (fun _ => c.pc + 1#32)).live s.clk ++ shapeEntries sh s.clk } c.pc c.active c.m s.clk) = f
  have h1 : (s.updWave c.id f).wave c.id = some (f w) := by rw [wave_updWave_same, hw]; rfl
  have h1f : restOf (f w) = restOf w ∧ (f w).k = w.k ∧ (f w).held = w.held ∧ (f w).deferred = w.deferred ∧ (f w).wg = w.wg := by
    subst hf
    cases moved with
    | true => exact ⟨rfl, rfl, rfl, rfl, rfl⟩
    | false => simp only [hp, Bool.false_eq_true, if_false]; exact ⟨rfl, rfl, rfl, rfl, rfl⟩
  generalize hm : (fun (k : Core) => k.markLines c.id s.clk (((sh.ops.filter (fun o => o.rd)).flatMap Opn.regs).filter (fun r => decide (r < 0x100)))
    (((sh.ops.filter (fun o => o.wr)).flatMap Opn.regs).filter (fun r => decide (r < 0x100)))) = m
  obtain ⟨c1, w1, g1⟩ := quiet_updCore (s.updWave c.id f) c.id m (fun k => by subst hm; exact ⟨_, _, _, _, rfl⟩)
  obtain ⟨c2, w2, g2⟩ := countIssue_frame ((s.updWave c.id f).updCore c.id.core m) c.id
  obtain ⟨c3, v3, hv3, hr3, hk3⟩ := heldCheck_frame (((s.updWave c.id f).updCore c.id.core m).countIssue c.id) c.id
    (by rw [w2, w1]; exact h1)
  have hd3 : v3.deferred = none := by
    have := congrArg (fun x => x.2.2.2.2.2.2.1) hr3
    simp only [restOf] at this
    rw [this, h1f.2.2.2.1, hd]
  have hg3 : v3.wg = w.wg := by
    have := congrArg (fun x => x.2.2.2.2.1) hr3
    simp only [restOf] at this
    rw [this, h1f.2.2.2.2]
  obtain ⟨c4, v4, hv4, hr4⟩ := settle_frame _ c.id hv3 hd3 (by
    intro g hg
    apply hl g
    obtain ⟨ws, he⟩ := c3.own
    rw [State.wg, he, hg3] at hg
    have : ((((s.updWave c.id f).updCore c.id.core m).countIssue c.id).wg c.id.core w.wg) = some g := hg
    rw [g2, g1, wg_updWave] at this
    exact this)
  refine ⟨(WavesOnly.updWave s c.id f).core.trans (c1.trans (c2.trans (c3.core.trans c4.core))), v4, hv4, ?_, ?_⟩
  · rw [← h1f.1, ← hr3]
    simp only [keptOf, regsOf, Prod.mk.injEq] at hr4
    simp only [restOf, Prod.mk.injEq]
    simp [hr4]
  · intro k hk
    have e4 : v4.k = v3.k := by
      simp only [keptOf, regsOf, Prod.mk.injEq] at hr4
      exact hr4.1.2.2.1
    have : v4.kget k = v3.kget k := by simp [Wave.kget, e4]
    rw [this, hk3 k (by rw [h1f.2.2.1]; exact hk)]
    simp [Wave.kget, h1f.2.1]

end Sys2Proof.Laws
end

