-- ==== Sys2Proof/Laws/Fetch.lean ====
section
/-!
SUPPORT. What translation, fetching and the checks of a word change: caches, counters and the A bit of a leaf, and nothing of any wave,
workgroup, local space, partition or function.
-/

namespace Sys2Proof.Laws
open Sys2Proof.Machine Sys2Proof.Claims

/-- `t` is `s` but for the memory hierarchy: memory, the shared cache, held writes, ports, and of every core its counters, its TLB, its
instruction caches, its L1 and its pending reads. -/
structure FetchOnly (s t : State) : Prop where
  rest : { t with
    cores := s.cores, mem := s.mem, ext := s.ext, poison := s.poison, l2 := s.l2, ports := s.ports, owners := s.owners
    heldNum := s.heldNum, heldWrites := s.heldWrites } = s
  own : ∀ n, ∃ p q i d c e l m, t.core n = { s.core n with
    perf := p, tlb := q, icache := i, decoded := d, codes := c, decodedAt := e, l1 := l, misses := m }

/-- Nothing changed. -/
theorem FetchOnly.refl (s : State) : FetchOnly s s := ⟨rfl, fun _ => ⟨_, _, _, _, _, _, _, _, rfl⟩⟩

/-- One after another. -/
theorem FetchOnly.trans {s t u : State} (h : FetchOnly s t) (k : FetchOnly t u) : FetchOnly s u := by
  refine ⟨?_, fun n => ?_⟩
  · have e : ({ u with
        cores := s.cores, mem := s.mem, ext := s.ext, poison := s.poison, l2 := s.l2, ports := s.ports, owners := s.owners
        heldNum := s.heldNum, heldWrites := s.heldWrites } : State) = { ({ u with
        cores := t.cores, mem := t.mem, ext := t.ext, poison := t.poison, l2 := t.l2, ports := t.ports, owners := t.owners
        heldNum := t.heldNum, heldWrites := t.heldWrites } : State) with
        cores := s.cores, mem := s.mem, ext := s.ext, poison := s.poison, l2 := s.l2, ports := s.ports, owners := s.owners
        heldNum := s.heldNum, heldWrites := s.heldWrites } := rfl
    rw [e, k.rest]
    exact h.rest
  · obtain ⟨p, q, i, d, c, e, l, m, h1⟩ := h.own n
    obtain ⟨p', q', i', d', c', e', l', m', k1⟩ := k.own n
    exact ⟨p', q', i', d', c', e', l', m', by rw [k1, h1]⟩

/-- A change of those parts of a core. -/
theorem FetchOnly.upd (s : State) (core : Nat) (f : Core → Core) (hf : ∀ k, ∃ p q i d c e l m, f k = { k with
    perf := p, tlb := q, icache := i, decoded := d, codes := c, decodedAt := e, l1 := l, misses := m }) :
    FetchOnly s (s.updCore core f) := by
  refine ⟨rfl, fun n => ?_⟩
  rw [core_updCore]
  split
  · next h => subst h; exact hf _
  · exact ⟨_, _, _, _, _, _, _, _, rfl⟩

/-- A change of the memory hierarchy outside the cores. -/
theorem FetchOnly.of_cores {s t : State} (h : { t with
    mem := s.mem, ext := s.ext, poison := s.poison, l2 := s.l2, ports := s.ports, owners := s.owners
    heldNum := s.heldNum, heldWrites := s.heldWrites } = s) : FetchOnly s t := by
  have hc : t.cores = s.cores := by rw [← h]
  refine ⟨?_, fun n => ?_⟩
  · rw [← hc]
    rw [← h]
  · have : t.core n = s.core n := by unfold State.core; rw [hc]
    rw [this]
    exact ⟨_, _, _, _, _, _, _, _, rfl⟩

/-- A fold of such changes. -/
theorem FetchOnly.foldl {α : Type} (l : List α) (f : State → α → State) (hf : ∀ u x, FetchOnly u (f u x)) (s : State) :
    FetchOnly s (l.foldl f s) := by
  induction l generalizing s with
  | nil => exact .refl s
  | cons x l ih => exact (hf s x).trans (ih _)

/-- Waves read as before. -/
theorem FetchOnly.wave {s t : State} (h : FetchOnly s t) (j : WaveId) : t.wave j = s.wave j := by
  obtain ⟨_, _, _, _, _, _, _, _, h1⟩ := h.own j.core
  unfold State.wave
  rw [h1]

/-- So do workgroups. -/
theorem FetchOnly.wg {s t : State} (h : FetchOnly s t) (n i : Nat) : t.wg n i = s.wg n i := by
  obtain ⟨_, _, _, _, _, _, _, _, h1⟩ := h.own n
  unfold State.wg
  rw [h1]

/-- And the local spaces. -/
theorem FetchOnly.space {s t : State} (h : FetchOnly s t) (n : Nat) (x : Space) : (t.core n).space x = (s.core n).space x := by
  obtain ⟨_, _, _, _, _, _, _, _, h1⟩ := h.own n
  rw [h1]
  cases x <;> rfl

/-- A use of a home line. -/
theorem homeUse_frame (s : State) (vf pa : Nat) (dirty last : Bool) : FetchOnly s (s.homeUse vf pa dirty last) := by
  unfold State.homeUse State.l2Use
  split
  · exact .refl s
  · split
    · exact .refl s
    · exact .of_cores rfl

/-- A byte written at its home. -/
theorem setHome_frame (s : State) (pa : Nat) (b : Byte) : FetchOnly s (s.setHome pa b) := by
  unfold State.setHome
  split <;> exact .of_cores rfl

/-- Dropping the clean bytes of a word changes an L1 only. -/
theorem dropClean_eq (c : Core) (w : Nat) : ∃ l, c.dropClean w = { c with l1 := l } := ⟨_, rfl⟩

/-- A word taken from its owner. -/
theorem takeWord_frame (s : State) (party : Party) (bytes : List (Nat × Byte)) (w : Nat) : FetchOnly s (s.takeWord party bytes w) := by
  unfold State.takeWord
  dsimp only
  refine FetchOnly.trans (t := match sget none s.owners w with
    | some c => if party = Party.core c then s else s.updCore c (fun k => (k.dropClean w).patchMisses bytes)
    | none => s) ?_ (.of_cores rfl)
  split
  · split
    · exact .refl s
    · exact .upd s _ _ (fun _ => ⟨_, _, _, _, _, _, _, _, rfl⟩)
  · exact .refl s

/-- A registration of an engine. -/
theorem commit_frame (s : State) (bytes : List (Nat × Byte)) : FetchOnly s (s.commit .engine bytes) := by
  unfold State.commit
  dsimp only
  refine FetchOnly.trans ?_ (.foldl _ _ (fun u w => takeWord_frame u _ _ w) _)
  have h1 := FetchOnly.foldl bytes (fun (s : State) b => s.setHome b.1 b.2) (fun u b => setHome_frame u b.1 b.2) s
  generalize bytes.foldl (fun (s : State) b => s.setHome b.1 b.2) s = u at h1 ⊢
  generalize List.foldl _ u.poison _ = p
  have h2 := h1.trans (.trans (t := { u with poison := p }) (.of_cores rfl)
    (.foldl (dedup (bytes.map (fun b => b.1 / 64))) (fun (s : State) x => s.homeUse 97 (64 * x) true false) (fun u x => homeUse_frame u _ _ _ _) _))
  split
  · unfold State.sendFlit
    split
    · exact h2
    · exact h2.trans (.of_cores rfl)
  · exact h2

/-- A write of the device that belongs to no context. -/
theorem engineWrite_frame (s : State) (pa : Nat) (bs : List Byte) : FetchOnly s (s.engineWrite 0 pa bs) := by
  unfold State.engineWrite State.register
  split
  · exact .refl s
  · split
    · exact .of_cores rfl
    · unfold State.commitFor State.duetOf
      exact (FetchOnly.foldl _ (fun (s : State) x => s.homeUse _ (64 * x) true false) (fun u x => homeUse_frame u _ _ _ _) s).trans
        (commit_frame _ _)

/-- The A and D bits of a leaf. -/
theorem touchLeaf_frame (s : State) (vf va : Nat) (write : Bool) : FetchOnly s (s.touchLeaf vf va write) := by
  unfold State.touchLeaf
  generalize s.rootOf vf = table
  generalize [3, 2, 1, 0] = ls
  induction ls generalizing table with
  | nil => exact .refl s
  | cons level rest ih =>
    unfold State.touchLeaf.go
    dsimp only
    generalize (if write = true then 0xC0#64 else 0x40#64 : Dword) = bits
    split
    · exact .refl s
    · split
      · exact .refl s
      · split
        · split
          · exact .refl s
          · exact engineWrite_frame s _ _
        · exact ih _

/-- The same through the TLB. -/
theorem touch_frame (s : State) (core vf va : Nat) (write : Bool) : FetchOnly s (s.touch core vf va write) := by
  unfold State.touch
  split
  · exact .refl s
  · dsimp only
    generalize (if write = true then 0xC0#64 else 0x40#64 : Dword) = bits
    split
    · exact .refl s
    · exact (touchLeaf_frame s vf va write).trans (.upd _ _ _ (fun _ => ⟨_, _, _, _, _, _, _, _, rfl⟩))

/-- Translating an address. -/
theorem translate_frame (s : State) (core vf part : Nat) (device walk : Bool) (va : Nat) (k : AccKind) :
    FetchOnly s (s.translate core vf part device walk va k).2 := by
  have use : ∀ (u : State) (t : TlbEntry), FetchOnly s u → FetchOnly s
      (match u.leafCheck vf part device t.leaf (t.pa + (va - t.va)) k with
        | some (c, d) => (TransRes.bad c d, u)
        | none => (TransRes.ok (t.pa + (va - t.va)) t.leaf, u)).2 := by
    intro u t hu
    split <;> exact hu
  unfold State.translate
  dsimp only
  split
  · exact use _ _ (.refl s)
  · have h1 := FetchOnly.upd s core (fun c => { c with perf := sset 0 c.perf 5 (sget 0 c.perf 5 + 1) }) (fun k => ⟨_, _, _, _, _, _, _, _, rfl⟩)
    split
    · split
      · refine use _ _ (h1.trans (.upd _ core _ (fun k => ⟨_, _, _, _, _, _, _, _, rfl⟩)))
      · repeat' split
        all_goals exact h1
      · exact h1
    · exact h1

/-- A word kept in the instruction caches. -/
theorem keepCode_eq (k : Core) (a : Nat) (w : Dword) : ∃ i d c e, k.keepCode a w =
    { k with icache := i, decoded := d, codes := c, decodedAt := e } := by
  unfold Core.keepCode
  by_cases h1 : (sget none k.icache a).isSome = true <;> by_cases h2 : (sget none k.decoded a).isSome = true <;> simp only [h1, h2, if_true, if_false, Bool.false_eq_true] <;>
    exact ⟨_, _, _, _, rfl⟩

/-- Fetching a word. -/
theorem fetchAt_frame (s : State) (core vf part : Nat) (g : BitVec 128) (pc : Word) : FetchOnly s (s.fetchAt core vf part g pc).2 := by
  have keep : ∀ (u : State) (a : Nat) (w : Dword), FetchOnly u (u.updCore core (fun c => c.keepCode a w)) := fun u a w =>
    .upd u core _ (fun k => by
      obtain ⟨i, d, c, e, h⟩ := keepCode_eq k a w
      exact ⟨_, _, i, d, c, e, _, _, h⟩)
  unfold State.fetchAt
  split
  · exact .refl s
  · next va _ =>
    have h := translate_frame s core vf part false true va .fetch
    split
    · next pa _ t ht =>
      rw [ht] at h
      have h := h.trans (touch_frame t core vf va false)
      dsimp only
      split
      · exact h
      · exact h.trans (keep _ _ _)
      · split
        · exact h
        · exact h.trans (keep _ _ _)
    · next ht => rw [ht] at h; exact h
    · rename_i ht
      rw [ht] at h
      exact h

/-- The look at the word before a window. -/
theorem windowCause_frame (s : State) (c : Ctx) (sh : Shape) : FetchOnly s (s.windowCause c sh).2 := by
  unfold State.windowCause
  dsimp only
  split
  · exact .refl s
  · split
    · exact .refl s
    · split
      · exact .refl s
      · unfold State.fetchWord
        have h := fetchAt_frame s c.id.core c.wg.vf c.wg.part (optD c.wave.codeSeg (sget 0#128 c.wave.segs 15)) (c.pc - 1#32)
        split
        · next h1 => rw [h1] at h; exact h
        · next h1 => rw [h1] at h; exact h

/-- The checks of a word. -/
theorem checks_frame (s : State) (c : Ctx) (sh : Shape) (needs : Option Bool) : FetchOnly s (s.checks c sh needs).2 := by
  unfold State.checks
  have h := windowCause_frame s c sh
  split
  · exact .refl s
  · split
    · next h1 => rw [h1] at h; exact h
    · next h1 =>
      rw [h1] at h
      dsimp only at h ⊢
      split
      · exact h
      · split
        · exact h
        · split <;> exact h

/-- The state after the checks of R180. -/
theorem checked_frame (i : Instr) (s : State) (c : Ctx) : FetchOnly s (checked i s c) := checks_frame ..

end Sys2Proof.Laws
end

