-- ==== Sys2Proof/Laws/Writes.lean ====
section
/-!
SUPPORT. Register writes: what a list of writes leaves of a wave, and where the results of a word go.
-/

namespace Sys2Proof.Laws
open Sys2Proof.Machine

/-- A wave without its registers and flags. -/
def bareOf (w : Wave) : Wave := { w with v := [], s := [], k := [], fflags := 0#4 }

/-- A write of a register leaves everything else of a wave. -/
@[simp] theorem bareOf_regSet (w : Wave) (r l : Nat) (x : Word) : bareOf (w.regSet r l x) = bareOf w := by
  unfold Wave.regSet
  split
  · rfl
  · split
    · rfl
    · unfold Wave.kset; split <;> rfl

/-- So do writes one after the other. -/
@[simp] theorem bareOf_regWrites (w : Wave) (ws : List RegWrite) : bareOf (w.regWrites ws) = bareOf w := by
  unfold Wave.regWrites
  induction ws generalizing w with
  | nil => rfl
  | cons x ws ih => rw [List.foldl_cons, ih, bareOf_regSet]

/-- Writes of registers leave the sticky flags. -/
@[simp] theorem fflags_regWrites (w : Wave) (ws : List RegWrite) : (w.regWrites ws).fflags = w.fflags := by
  unfold Wave.regWrites
  induction ws generalizing w with
  | nil => rfl
  | cons x ws ih => rw [List.foldl_cons, ih, regSet_fflags]

/-- A vector register lane that no write names. -/
theorem vget_regWrites (w : Wave) (ws : List RegWrite) {r l : Nat} (hl : l < 32) (hs : ∀ x ∈ ws, x.lane < 32)
    (hn : ∀ x ∈ ws, ¬ (x.reg = r ∧ x.lane = l)) : (w.regWrites ws).vget r l = w.vget r l := by
  unfold Wave.regWrites
  induction ws generalizing w with
  | nil => rfl
  | cons x ws ih =>
    rw [List.foldl_cons, ih _ (fun y hy => hs y (.tail _ hy)) (fun y hy => hn y (.tail _ hy))]
    unfold Wave.regSet
    split
    · rw [vget_vset _ _ _ _ _ _ (hs x List.mem_cons_self) hl, if_neg]
      intro e
      exact hn x List.mem_cons_self ⟨e.1.symm, e.2.symm⟩
    · split
      · rfl
      · simp [Wave.vget]

/-- A scalar register that no write names. -/
theorem sreg_regWrites (w : Wave) (ws : List RegWrite) {r : Nat} (hn : ∀ x ∈ ws, x.reg ≠ 0x100 + r) :
    (w.regWrites ws).sreg r = w.sreg r := by
  unfold Wave.regWrites
  induction ws generalizing w with
  | nil => rfl
  | cons x ws ih =>
    rw [List.foldl_cons, ih _ (fun y hy => hn y (.tail _ hy))]
    unfold Wave.regSet
    split
    · rfl
    · split
      · rw [sreg_sregSet, if_neg]
        have := hn x List.mem_cons_self
        omega
      · simp [Wave.sreg]

/-- Mask registers where no write names one. -/
theorem kget_regWrites (w : Wave) (ws : List RegWrite) (k : Nat) (hn : ∀ x ∈ ws, x.reg < 0x180) : (w.regWrites ws).kget k = w.kget k := by
  unfold Wave.regWrites
  induction ws generalizing w with
  | nil => rfl
  | cons x ws ih =>
    rw [List.foldl_cons, ih _ (fun y hy => hn y (.tail _ hy))]
    have := hn x List.mem_cons_self
    unfold Wave.regSet
    split
    · rfl
    · rfl

/-- The results of a word go to effective lanes of the registers from `d` on, or to lane 0 of a scalar destination. -/
theorem mem_results {c : Ctx} {d n : Nat} {f : Nat → List Word} (hf : ∀ l, (f l).length ≤ n) {x : RegWrite} (hx : x ∈ c.results d f) :
    d ≤ x.reg ∧ x.reg < d + n ∧ x.lane < 32 ∧ (d < 0x100 → c.eff.getLsbD x.lane = true) := by
  have key : ∀ (t : Nat) (ws : List Word), x ∈ ((List.range ws.length).zip ws).map (fun p => (⟨d + p.1, t, p.2⟩ : RegWrite)) →
      d ≤ x.reg ∧ x.reg < d + ws.length ∧ x.lane = t := by
    intro t ws h
    obtain ⟨p, hp, rfl⟩ := List.mem_map.1 h
    have := (List.of_mem_zip hp).1
    simp at this
    exact ⟨by simp, by simpa using this, rfl⟩
  unfold Ctx.results at hx
  split at hx
  · next hd =>
    obtain ⟨l, hl, hm⟩ := List.mem_flatMap.1 hx
    obtain ⟨h1, h2, h3⟩ := key l (f l) hm
    have hl' : l < 32 ∧ c.eff.getLsbD l = true := by simpa [Ctx.lanes] using hl
    exact ⟨h1, Nat.lt_of_lt_of_le h2 (Nat.add_le_add_left (hf l) d), h3 ▸ hl'.1, fun _ => h3 ▸ hl'.2⟩
  · next hd =>
    split at hx
    · cases hx
    · obtain ⟨h1, h2, h3⟩ := key 0 _ hx
      exact ⟨h1, Nat.lt_of_lt_of_le h2 (Nat.add_le_add_left (hf _) d), by omega, fun h => absurd h hd⟩

/-- The bits of a mask with the lanes of another replaced by a test. -/
theorem getLsbD_maskWith (old m : Mask) (f : Nat → Bool) (j : Nat) (hj : j < 32) :
    (maskWith old m f).getLsbD j = if m.getLsbD j then f j else old.getLsbD j := by
  unfold maskWith
  rw [BitVec.getLsbD_or, getLsbD_maskOf _ _ hj, BitVec.getLsbD_and, BitVec.getLsbD_not]
  have e : decide (j ∈ (lanesOf m).filter f) = (m.getLsbD j && f j) := by
    rw [Bool.eq_iff_iff, decide_eq_true_iff, List.mem_filter, mem_lanesOf, Bool.and_eq_true]
    exact ⟨fun h => ⟨h.1.2, h.2⟩, fun h => ⟨⟨hj, h.1⟩, h.2⟩⟩
  rw [e]
  cases m.getLsbD j <;> simp [hj]

end Sys2Proof.Laws
end

