-- ==== Sys2Proof/Laws/Word.lean ====
section
/-!
SUPPORT. The frame of a word that issues, changes its own wave and retires.
-/

namespace Sys2Proof.Laws
open Sys2Proof.Machine Sys2Proof.Claims

/-- What `ctxFor` holds: the wave that was asked for, and its workgroup. -/
theorem ctxFor_wave {s : State} {id : WaveId} {w : Dword} {p : BitVec 4} {m : Bool} {c : Ctx} (h : s.ctxFor id w p m = some c) :
    c.id = id ∧ s.wave id = some c.wave ∧ s.wg id.core c.wave.wg = some c.wg := by
  unfold State.ctxFor at h
  split at h
  · cases h
  · next w hw =>
    split at h
    · next hg =>
      injection h with h
      subst h
      exact ⟨rfl, hw, hg⟩
    · cases h

/-- A word that issues and changes its own wave by `g`, which leaves all but registers and flags, where no fault is deferred and the code
marks no register dead: the next state keeps everything else of what the checks leave. -/
theorem word_frame {i : Instr} {s : State} {c : Ctx} {g : Wave → Wave} {m : Bool} (hi : Issues i s c) (hd : c.wave.deferred = none)
    (hl : c.wg.live = []) (hb : bareOf (g c.wave) = bareOf c.wave) :
    CoreOnly (checked i s c) (((checked i s c).updWave c.id g).retire i.shape c m) c.id ∧
    ∃ v, (((checked i s c).updWave c.id g).retire i.shape c m).wave c.id = some v ∧ restOf v = restOf (g c.wave) ∧
      ∀ k, (∀ h, c.wave.held = some h → k ≠ h.aux) → v.kget k = (g c.wave).kget k := by
  obtain ⟨h1, h2, h3⟩ := ctxFor_wave hi.ctx
  have hk := checked_frame i s c
  have hw : (checked i s c).wave c.id = some c.wave := by rw [hk.wave, h1, h2]
  have hw1 : ((checked i s c).updWave c.id g).wave c.id = some (g c.wave) := by rw [wave_updWave_same, hw]; rfl
  have hdef : (g c.wave).deferred = none := 
    (congrArg (fun w : Wave => w.deferred) hb : (bareOf (g c.wave)).deferred = (bareOf c.wave).deferred).trans hd
  have hwg : (g c.wave).wg = c.wave.wg := (congrArg (fun w : Wave => w.wg) hb : (bareOf (g c.wave)).wg = (bareOf c.wave).wg)
  have hheld : (g c.wave).held = c.wave.held :=
    (congrArg (fun w : Wave => w.held) hb : (bareOf (g c.wave)).held = (bareOf c.wave).held)
  obtain ⟨hc, v, hv, hr, hkk⟩ := retire_frame _ i.shape c m hw1 hdef (by
    intro gg hgg
    rw [hwg, wg_updWave, hk.wg, h1, h3] at hgg
    injection hgg with hgg
    rw [← hgg]; exact hl)
  exact ⟨(WavesOnly.updWave _ c.id g).core.trans hc, v, hv, hr, by rw [hheld] at hkk; exact hkk⟩

end Sys2Proof.Laws
end

