-- ==== Sys2Proof/Tests/Witness.lean ====
section
/-!
SUPPORT. Witnesses of the hypotheses of the statements about words: for each statement a list of instructions that issue
in the probe state, and states in which the further hypotheses hold.
-/

set_option Elab.async false
namespace Sys2Proof.Tests
open Sys2Proof.Machine Sys2Proof.Claims

/-! ### Words that issue -/

/-- The probe: one wave of one workgroup resident, about to run the word of `i`. -/
def probe (i : Instr) : State := State.reset.withFetchWord 64 (optD (encode i) 0#64).toNat

/-- The wave of the probe. -/
def w0 : WaveId := ⟨0, 0, 0⟩

/-- The probe with its wave changed. -/
def probeWith (i : Instr) (f : Wave → Wave) : State := (probe i).updWave w0 f

/-- `i` issues in `s` for a wave that is no responder, and `p` holds of what it issues with and of the state after the checks. -/
def clause (i : Instr) (s : State) (p : Ctx → State → Bool) : Bool :=
  match s.ctxFor s.cur (optD (encode i) 0#64) i.shape.pred i.shape.m with
  | none => false
  | some c => c.wave.resp.isNone && (s.checks c i.shape (wordNeeds i c.wave)).1.isNone &&
    (!i.shape.mustMark || (decide (c.wave.live (checked i s c).clk = []) && decide (c.wave.conds = []))) && p c (checked i s c)

/-- `i` is well formed and issues in the probe with a lane effective, no access in flight, no fault waiting for a marker and no register
marked dead. -/
def issuing (i : Instr) : Bool := wellFormed i && clause i (probe i) (fun c _ => decide (c.eff ≠ 0#32) &&
  decide (c.wave.flights = []) && decide (c.wave.deferred = none) && decide (c.wg.live = []))

/-- What `clause` tests: the word issues. -/
theorem clause_sound {i : Instr} {s : State} {p : Ctx → State → Bool} (h : clause i s p = true) :
    ∃ c, Issues i s c ∧ c.wave.resp = none ∧ p c (checked i s c) = true := by
  unfold clause at h
  split at h
  · cases h
  · next c hc =>
    simp only [Bool.and_eq_true, Bool.or_eq_true, Bool.not_eq_true', Option.isNone_iff_eq_none, decide_eq_true_eq] at h
    obtain ⟨⟨⟨h1, h2⟩, h3⟩, h4⟩ := h
    exact ⟨c, ⟨hc, by simp [h1], h2, by rcases h3 with h3 | h3 <;> simp [h3]⟩, h1, h4⟩

/-- What `issuing` tests meets the hypotheses that the statements about words share. -/
theorem issuing_sound {i : Instr} (h : issuing i = true) : ∃ c, Issues i (probe i) c ∧ c.eff ≠ 0#32 ∧
    (∀ p, OnPath i (probe i) c p) ∧ c.wave.flights = [] ∧ c.wave.blocked = false ∧ c.wave.resp = none ∧ c.wave.deferred = none ∧
    c.wg.live = [] := by
  simp only [issuing, Bool.and_eq_true] at h
  obtain ⟨c, hi, h1, h⟩ := clause_sound h.2
  simp only [Bool.and_eq_true, decide_eq_true_eq] at h
  obtain ⟨⟨⟨h4, h5⟩, h6⟩, h7⟩ := h
  exact ⟨c, hi, h4, fun p => ⟨hi, by simp [Wave.fencedTo, h5]⟩, h5, by simp [Wave.blocked, h5], h1, h6, h7⟩

/-- Words of `ShiftsAndBitwiseWords` that issue. -/
theorem witness_ShiftsAndBitwiseWords : [
  Instr.shl ⟨false, 0x0#4, 0x000#9, 0x000#9, 0x000#9, 0x000#9, 0x0000#14⟩,
  .shr ⟨false, 0x0#4, 0x000#9, 0x000#9, 0x000#9, 0x000#9, 0x0000#14⟩,
  .sar ⟨false, 0x0#4, 0x000#9, 0x000#9, 0x000#9, 0x000#9, 0x0000#14⟩,
  .rot ⟨false, 0x0#4, 0x000#9, 0x000#9, 0x000#9, 0x000#9, 0x0000#14⟩,
  .brev ⟨false, 0x0#4, 0x000#9, 0x000#9, 0x000#9, 0x000#9, 0x0000#14⟩,
  .popc ⟨false, 0x0#4, 0x000#9, 0x000#9, 0x000#9, 0x000#9, 0x0000#14⟩,
  .clz ⟨false, 0x0#4, 0x000#9, 0x000#9, 0x000#9, 0x000#9, 0x0000#14⟩,
  .ctz ⟨false, 0x0#4, 0x000#9, 0x000#9, 0x000#9, 0x000#9, 0x0000#14⟩,
  .andW ⟨false, 0x0#4, 0x000#9, 0x000#9, 0x000#9, 0x000#9, 0x1000#14⟩,
  .orW ⟨false, 0x0#4, 0x000#9, 0x000#9, 0x000#9, 0x000#9, 0x1000#14⟩,
  .xorW ⟨false, 0x0#4, 0x000#9, 0x000#9, 0x000#9, 0x000#9, 0x1000#14⟩,
  .andn ⟨false, 0x0#4, 0x000#9, 0x000#9, 0x000#9, 0x000#9, 0x1000#14⟩,
  .notW ⟨false, 0x0#4, 0x000#9, 0x000#9, 0x000#9, 0x000#9, 0x1000#14⟩,
  .mov ⟨false, 0x0#4, 0x000#9, 0x000#9, 0x000#9, 0x000#9, 0x1000#14⟩,
  .sel ⟨false, 0x0#4, 0x000#9, 0x000#9, 0x000#9, 0x000#9, 0x1000#14⟩,
  .lfn ⟨false, 0x0#4, 0x000#9, 0x000#9, 0x000#9, 0x000#9, 0x0000#14⟩,
  .wext ⟨false, 0x0#4, 0x000#9, 0x000#9, 0x000#9, 0x000#9, 0x1000#14⟩,
  .bfe ⟨false, 0x0#4, 0x000#9, 0x000#9, 0x000#9, 0x000#9, 0x1000#14⟩,
  .bfi ⟨false, 0x0#4, 0x000#9, 0x000#9, 0x000#9, 0x000#9, 0x1000#14⟩,
  .bsel ⟨false, 0x0#4, 0x000#9, 0x000#9, 0x000#9, 0x000#9, 0x1000#14⟩].all issuing = true := by
  decide +kernel

/-- Words of `IntegerArithmetic` that issue. -/
theorem witness_IntegerArithmetic : [
  Instr.iadd ⟨false, 0x0#4, 0x000#9, 0x000#9, 0x000#9, 0x000#9, 0x0000#14⟩,
  .isub ⟨false, 0x0#4, 0x000#9, 0x000#9, 0x000#9, 0x000#9, 0x0000#14⟩,
  .imul ⟨false, 0x0#4, 0x000#9, 0x000#9, 0x000#9, 0x000#9, 0x0000#14⟩,
  .imulh ⟨false, 0x0#4, 0x000#9, 0x000#9, 0x000#9, 0x000#9, 0x0000#14⟩,
  .imad ⟨false, 0x0#4, 0x000#9, 0x000#9, 0x000#9, 0x000#9, 0x0000#14⟩,
  .iabs ⟨false, 0x0#4, 0x000#9, 0x000#9, 0x000#9, 0x000#9, 0x0400#14⟩,
  .imin ⟨false, 0x0#4, 0x000#9, 0x000#9, 0x000#9, 0x000#9, 0x0000#14⟩,
  .imax ⟨false, 0x0#4, 0x000#9, 0x000#9, 0x000#9, 0x000#9, 0x0000#14⟩,
  .idiv ⟨false, 0x0#4, 0x000#9, 0x000#9, 0x000#9, 0x000#9, 0x0000#14⟩,
  .dot4 ⟨false, 0x0#4, 0x000#9, 0x000#9, 0x000#9, 0x000#9, 0x0000#14⟩,
  .isad ⟨false, 0x0#4, 0x000#9, 0x000#9, 0x000#9, 0x000#9, 0x0000#14⟩].all issuing = true := by
  decide +kernel

/-- Words of `ImmediateWords` that issue. -/
theorem witness_ImmediateWords : [
  Instr.iaddi ⟨false, 0x000#9, 0x000#9, 0x0#4, 0x00000005#32⟩,
  .imuli ⟨false, 0x000#9, 0x000#9, 0x0#4, 0x00000005#32⟩,
  .andi ⟨false, 0x000#9, 0x000#9, 0x0#4, 0x00000005#32⟩,
  .ori ⟨false, 0x000#9, 0x000#9, 0x0#4, 0x00000005#32⟩,
  .xori ⟨false, 0x000#9, 0x000#9, 0x0#4, 0x00000005#32⟩,
  .shli ⟨false, 0x000#9, 0x000#9, 0x0#4, 0x00000005#32⟩,
  .shri ⟨false, 0x000#9, 0x000#9, 0x0#4, 0x00000005#32⟩,
  .sari ⟨false, 0x000#9, 0x000#9, 0x0#4, 0x00000005#32⟩,
  .movi ⟨false, 0x000#9, 0x000#9, 0x0#4, 0x00000005#32⟩,
  .movhi ⟨false, 0x000#9, 0x000#9, 0x0#4, 0x00000005#32⟩].all issuing = true := by
  decide +kernel

/-- Words of `WideArithmetic` that issue. -/
theorem witness_WideArithmetic : [
  Instr.add64 ⟨false, 0x0#4, 0x000#9, 0x000#9, 0x000#9, 0x000#9, 0x1800#14⟩,
  .sub64 ⟨false, 0x0#4, 0x000#9, 0x000#9, 0x000#9, 0x000#9, 0x1800#14⟩,
  .mul64 ⟨false, 0x0#4, 0x000#9, 0x000#9, 0x000#9, 0x000#9, 0x1800#14⟩,
  .shl64 ⟨false, 0x0#4, 0x000#9, 0x000#9, 0x000#9, 0x000#9, 0x1c00#14⟩,
  .shr64 ⟨false, 0x0#4, 0x000#9, 0x000#9, 0x000#9, 0x000#9, 0x1800#14⟩,
  .lea ⟨false, 0x0#4, 0x000#9, 0x000#9, 0x000#9, 0x000#9, 0x1c00#14⟩,
  .sel64 ⟨false, 0x0#4, 0x000#9, 0x000#9, 0x000#9, 0x000#9, 0x1c00#14⟩,
  .iadd ⟨false, 0x0#4, 0x8#9, 0xA#9, 0xC#9, 0x2#9, 0x1003#14⟩,
  .iadd ⟨false, 0x0#4, 0x8#9, 0xA#9, 0xC#9, 0x2#9, 0x1001#14⟩,
  .isub ⟨false, 0x0#4, 0x8#9, 0xA#9, 0xC#9, 0x2#9, 0x1002#14⟩].all issuing = true := by
  decide +kernel

/-- Words of `IntegerComparisons` that issue. -/
theorem witness_IntegerComparisons : [
  Instr.icmp ⟨false, 0x0#4, 0x004#9, 0x000#9, 0x000#9, 0x000#9, 0x0000#14⟩,
  .cmp64 ⟨false, 0x0#4, 0x004#9, 0x000#9, 0x000#9, 0x000#9, 0x1800#14⟩,
  .icmpi ⟨false, 0x004#9, 0x000#9, 0x0#4, 0x00000005#32⟩].all issuing = true := by
  decide +kernel

/-- Words of `SpecialAndLaneMoves` that issue. -/
theorem witness_SpecialAndLaneMoves : [
  Instr.movSr ⟨false, 0x0#4, 0x000#9, 0x000#9, 0x000#9, 0x000#9, 0x1000#14⟩,
  .movSs ⟨false, 0x0#4, 0x000#9, 0x000#9, 0x000#9, 0x000#9, 0x10c0#14⟩,
  .laneRd ⟨false, 0x0#4, 0x104#9, 0x000#9, 0x000#9, 0x000#9, 0x1000#14⟩,
  .laneWr ⟨false, 0x0#4, 0x000#9, 0x000#9, 0x000#9, 0x000#9, 0x1000#14⟩].all issuing = true := by
  decide +kernel

/-- Words of `MaskWords` that issue. -/
theorem witness_MaskWords : [
  Instr.kop ⟨false, 0x0#4, 0x004#9, 0x000#9, 0x000#9, 0x000#9, 0x1000#14⟩,
  .kmov ⟨false, 0x0#4, 0x004#9, 0x000#9, 0x000#9, 0x000#9, 0x1000#14⟩,
  .kpop ⟨false, 0x0#4, 0x104#9, 0x000#9, 0x000#9, 0x000#9, 0x1000#14⟩,
  .kffs ⟨false, 0x0#4, 0x104#9, 0x000#9, 0x000#9, 0x000#9, 0x1000#14⟩].all issuing = true := by
  decide +kernel

/-- Words of `FloatArithmetic` that issue. -/
theorem witness_FloatArithmetic : [
  Instr.fadd ⟨false, 0x0#4, 0x000#9, 0x000#9, 0x000#9, 0x000#9, 0x2000#14⟩,
  .fsub ⟨false, 0x0#4, 0x000#9, 0x000#9, 0x000#9, 0x000#9, 0x2000#14⟩,
  .fmul ⟨false, 0x0#4, 0x000#9, 0x000#9, 0x000#9, 0x000#9, 0x2000#14⟩,
  .fma ⟨false, 0x0#4, 0x000#9, 0x000#9, 0x000#9, 0x000#9, 0x2000#14⟩,
  .fmin ⟨false, 0x0#4, 0x000#9, 0x000#9, 0x000#9, 0x000#9, 0x2000#14⟩,
  .fmax ⟨false, 0x0#4, 0x000#9, 0x000#9, 0x000#9, 0x000#9, 0x2000#14⟩,
  .fcmp ⟨false, 0x0#4, 0x004#9, 0x000#9, 0x000#9, 0x000#9, 0x2000#14⟩,
  .fclass ⟨false, 0x0#4, 0x004#9, 0x000#9, 0x000#9, 0x000#9, 0x2000#14⟩,
  .fround ⟨false, 0x0#4, 0x000#9, 0x000#9, 0x000#9, 0x000#9, 0x2000#14⟩,
  .ffract ⟨false, 0x0#4, 0x000#9, 0x000#9, 0x000#9, 0x000#9, 0x2800#14⟩,
  .fldexp ⟨false, 0x0#4, 0x000#9, 0x000#9, 0x000#9, 0x000#9, 0x2000#14⟩,
  .hadd2 ⟨false, 0x0#4, 0x000#9, 0x000#9, 0x000#9, 0x000#9, 0x2000#14⟩,
  .hmul2 ⟨false, 0x0#4, 0x000#9, 0x000#9, 0x000#9, 0x000#9, 0x2000#14⟩,
  .hfma2 ⟨false, 0x0#4, 0x000#9, 0x000#9, 0x000#9, 0x000#9, 0x2000#14⟩,
  .hmax2 ⟨false, 0x0#4, 0x000#9, 0x000#9, 0x000#9, 0x000#9, 0x2000#14⟩,
  .fdot2 ⟨false, 0x0#4, 0x000#9, 0x000#9, 0x000#9, 0x000#9, 0x2000#14⟩].all issuing = true := by
  decide +kernel

/-- Words of `ApproximatingWords` that issue. -/
theorem witness_ApproximatingWords : [
  Instr.frcp ⟨false, 0x0#4, 0x000#9, 0x000#9, 0x000#9, 0x000#9, 0x2800#14⟩,
  .frsq ⟨false, 0x0#4, 0x000#9, 0x000#9, 0x000#9, 0x000#9, 0x2800#14⟩,
  .fsqrt ⟨false, 0x0#4, 0x000#9, 0x000#9, 0x000#9, 0x000#9, 0x2800#14⟩,
  .fexp2 ⟨false, 0x0#4, 0x000#9, 0x000#9, 0x000#9, 0x000#9, 0x2800#14⟩,
  .flog2 ⟨false, 0x0#4, 0x000#9, 0x000#9, 0x000#9, 0x000#9, 0x2800#14⟩,
  .fsin ⟨false, 0x0#4, 0x000#9, 0x000#9, 0x000#9, 0x000#9, 0x2800#14⟩,
  .fcos ⟨false, 0x0#4, 0x000#9, 0x000#9, 0x000#9, 0x000#9, 0x2800#14⟩,
  .fexs ⟨false, 0x0#4, 0x000#9, 0x000#9, 0x000#9, 0x000#9, 0x2800#14⟩,
  .ftanh ⟨false, 0x0#4, 0x000#9, 0x000#9, 0x000#9, 0x000#9, 0x2800#14⟩].all issuing = true := by
  decide +kernel

/-- Words of `ConversionsAndQ4` that issue. -/
theorem witness_ConversionsAndQ4 : [
  Instr.cvt ⟨false, 0x0#4, 0x000#9, 0x000#9, 0x000#9, 0x000#9, 0x0000#14⟩,
  .cvtPk8 ⟨false, 0x0#4, 0x000#9, 0x000#9, 0x000#9, 0x000#9, 0x2c00#14⟩,
  .cvtEx8 ⟨false, 0x0#4, 0x000#9, 0x000#9, 0x000#9, 0x000#9, 0x2c00#14⟩,
  .q4Scale ⟨false, 0x0#4, 0x000#9, 0x000#9, 0x000#9, 0x000#9, 0x2c00#14⟩,
  .q4Enc ⟨false, 0x0#4, 0x000#9, 0x000#9, 0x000#9, 0x000#9, 0x3400#14⟩,
  .q4Dec ⟨false, 0x0#4, 0x000#9, 0x000#9, 0x000#9, 0x000#9, 0x3400#14⟩,
  .nibPack ⟨false, 0x0#4, 0x000#9, 0x000#9, 0x000#9, 0x000#9, 0x3400#14⟩,
  .nibUnpk ⟨false, 0x0#4, 0x000#9, 0x000#9, 0x000#9, 0x000#9, 0x3400#14⟩].all issuing = true := by
  decide +kernel

/-- Words of `VotesAndExchanges` that issue. -/
theorem witness_VotesAndExchanges : [
  Instr.vote ⟨false, 0x0#4, 0x104#9, 0x000#9, 0x000#9, 0x000#9, 0x1000#14⟩,
  .matchL ⟨false, 0x0#4, 0x000#9, 0x000#9, 0x000#9, 0x000#9, 0x1000#14⟩,
  .xlane ⟨false, 0x0#4, 0x000#9, 0x000#9, 0x000#9, 0x000#9, 0x1000#14⟩,
  .elect ⟨false, 0x0#4, 0x004#9, 0x000#9, 0x000#9, 0x000#9, 0x1000#14⟩,
  .uchk ⟨false, 0x0#4, 0x104#9, 0x000#9, 0x000#9, 0x000#9, 0x1000#14⟩].all issuing = true := by
  decide +kernel

/-- Words of `ReductionsAndScans` that issue. -/
theorem witness_ReductionsAndScans : [
  Instr.red ⟨false, 0x0#4, 0x000#9, 0x000#9, 0x000#9, 0x000#9, 0x1000#14⟩,
  .scan ⟨false, 0x0#4, 0x000#9, 0x000#9, 0x000#9, 0x000#9, 0x1000#14⟩].all issuing = true := by
  decide +kernel

/-- Words of `ControlTransfers` that issue. -/
theorem witness_ControlTransfers : [
  Instr.nop ⟨false, 0x0#4, 0x00#5, 0x000#9, 0x0#4, 0x00000000#32⟩,
  .exit ⟨true, 0x0#4, 0x00#5, 0x000#9, 0x0#4, 0x00000000#32⟩,
  .jmp ⟨true, 0x0#4, 0x00#5, 0x000#9, 0x0#4, 0x00000000#32⟩,
  .brv ⟨true, 0x0#4, 0x00#5, 0x000#9, 0x0#4, 0x00000000#32⟩,
  .bru ⟨true, 0x0#4, 0x00#5, 0x000#9, 0x0#4, 0x00000000#32⟩,
  .jmpi ⟨true, 0x0#4, 0x00#5, 0x000#9, 0x0#4, 0x00000000#32⟩,
  .call ⟨true, 0x0#4, 0x00#5, 0x000#9, 0x0#4, 0x00000000#32⟩,
  .ret ⟨true, 0x0#4, 0x00#5, 0x000#9, 0x0#4, 0x00000000#32⟩,
  .loop ⟨true, 0x0#4, 0x00#5, 0x104#9, 0x0#4, 0x00000000#32⟩].all issuing = true := by
  decide +kernel

/-- Words of `HoldingLanes` that issue. -/
theorem witness_HoldingLanes : [
  Instr.rwait ⟨true, 0x0#4, 0x00#5, 0x000#9, 0x0#4, 0x00000000#32⟩].all issuing = true := by
  decide +kernel

/-- Words of `SchedulingAndBarrierWords` that issue. -/
theorem witness_SchedulingAndBarrierWords : [
  Instr.yield ⟨false, 0x0#4, 0x00#5, 0x000#9, 0x0#4, 0x00000000#32⟩,
  .priPass ⟨false, 0x0#4, 0x00#5, 0x000#9, 0x0#4, 0x00000000#32⟩,
  .sleep ⟨true, 0x0#4, 0x00#5, 0x000#9, 0x0#4, 0x00000000#32⟩,
  .snap ⟨false, 0x0#4, 0x00#5, 0x000#9, 0x0#4, 0x00000000#32⟩,
  .barFull ⟨true, 0x0#4, 0x00#5, 0x000#9, 0x0#4, 0x00000000#32⟩,
  .barArrive ⟨false, 0x0#4, 0x01#5, 0x000#9, 0x0#4, 0x00000000#32⟩,
  .barWait ⟨true, 0x0#4, 0x02#5, 0x000#9, 0x0#4, 0x00000000#32⟩,
  .barEnsFull ⟨true, 0x0#4, 0x00#5, 0x000#9, 0x0#4, 0x00000000#32⟩,
  .barEnsArrive ⟨false, 0x0#4, 0x01#5, 0x000#9, 0x0#4, 0x00000000#32⟩,
  .barEnsWait ⟨true, 0x0#4, 0x02#5, 0x000#9, 0x0#4, 0x00000000#32⟩].all issuing = true := by
  decide +kernel

/-- Words of `TrapWords` that issue. -/
theorem witness_TrapWords : [
  Instr.trap ⟨true, 0x0#4, 0x00#5, 0x000#9, 0x0#4, 0x00000000#32⟩,
  .brk ⟨true, 0x0#4, 0x00#5, 0x000#9, 0x0#4, 0x00000000#32⟩].all issuing = true := by
  decide +kernel

/-- Words of `LocalAndPrivateWords` that issue. -/
theorem witness_LocalAndPrivateWords : [
  Instr.ldSp ⟨false, 0x000#9, 0x04#8, 0x0#4, 0x0#4, 0x00#5, 0x000000#24⟩,
  .stSp ⟨false, 0x000#9, 0x04#8, 0x0#4, 0x0#4, 0x00#5, 0x000000#24⟩,
  .ldA ⟨false, 0x000#9, 0x04#8, 0x0#4, 0x0#4, 0x00#5, 0x000000#24⟩,
  .stA ⟨false, 0x000#9, 0x04#8, 0x0#4, 0x0#4, 0x00#5, 0x000000#24⟩,
  .ldC ⟨false, 0x000#9, 0x04#8, 0x0#4, 0x0#4, 0x00#5, 0x000000#24⟩,
  .stC ⟨false, 0x000#9, 0x04#8, 0x0#4, 0x0#4, 0x00#5, 0x000000#24⟩,
  .ldRsp ⟨false, 0x000#9, 0x04#8, 0x0#4, 0x0#4, 0x00#5, 0x000000#24⟩,
  .stRsp ⟨false, 0x000#9, 0x04#8, 0x0#4, 0x0#4, 0x00#5, 0x000000#24⟩,
  .ldP ⟨false, 0x000#9, 0x04#8, 0x0#4, 0x0#4, 0x00#5, 0x000000#24⟩,
  .stP ⟨false, 0x000#9, 0x04#8, 0x0#4, 0x0#4, 0x00#5, 0x000000#24⟩,
  .atomSp ⟨false, 0x000#9, 0x04#8, 0x0#4, 0x0#4, 0x08#5, 0x000000#24⟩].all issuing = true := by
  decide +kernel

/-- Words of `GlobalWords` that issue. -/
theorem witness_GlobalWords : [
  Instr.dqLd ⟨false, 0x000#9, 0x04#8, 0x0#4, 0x0#4, 0x00#5, 0x000000#24⟩,
  .stG ⟨false, 0x000#9, 0x04#8, 0x0#4, 0x0#4, 0x00#5, 0x000000#24⟩,
  .pref ⟨false, 0x000#9, 0x04#8, 0x0#4, 0x0#4, 0x00#5, 0x000000#24⟩,
  .ldK ⟨false, 0x104#9, 0x84#8, 0x0#4, 0x0#4, 0x00#5, 0x000000#24⟩,
  .atom ⟨false, 0x000#9, 0x04#8, 0x0#4, 0x0#4, 0x08#5, 0x000000#24⟩,
  .atomCas ⟨false, 0x000#9, 0x04#8, 0x0#4, 0x0#4, 0x08#5, 0x000000#24⟩,
  .redG ⟨false, 0x000#9, 0x04#8, 0x0#4, 0x0#4, 0x08#5, 0x000000#24⟩].all issuing = true := by
  decide +kernel

/-- Words of `SynchronisationWords` that issue. -/
theorem witness_SynchronisationWords : [
  Instr.calli ⟨true, 0x0#4, 0x00#5, 0x000#9, 0x0#4, 0x00000004#32⟩,
  .fence ⟨false, 0x0#4, 0x000#9, 0x000#9, 0x000#9, 0x000#9, 0x1000#14⟩,
  .xfence ⟨false, 0x0#4, 0x000#9, 0x000#9, 0x000#9, 0x000#9, 0x1010#14⟩,
  .xfenceCh ⟨false, 0x0#4, 0x000#9, 0x104#9, 0x104#9, 0x000#9, 0x1011#14⟩,
  .acq ⟨false, 0x104#9, 0x84#8, 0x0#4, 0x0#4, 0x0c#5, 0x000000#24⟩,
  .acqTry ⟨false, 0x104#9, 0x84#8, 0x0#4, 0x0#4, 0x0c#5, 0x000000#24⟩,
  .rel ⟨false, 0x000#9, 0x84#8, 0x0#4, 0x0#4, 0x0c#5, 0x000000#24⟩,
  .bind ⟨false, 0x104#9, 0x84#8, 0x0#4, 0x0#4, 0x0c#5, 0x000000#24⟩,
  .unbind ⟨false, 0x104#9, 0x84#8, 0x0#4, 0x0#4, 0x0c#5, 0x000000#24⟩].all issuing = true := by
  decide +kernel

/-- Words of `QueueWords` that issue. -/
theorem witness_QueueWords : [
  Instr.dqPop ⟨false, 0x0#4, 0x000#9, 0x104#9, 0x000#9, 0x000#9, 0x1000#14⟩,
  .dqCfg ⟨false, 0x0#4, 0x000#9, 0x104#9, 0x104#9, 0x000#9, 0x1000#14⟩,
  .dqLvl ⟨false, 0x0#4, 0x104#9, 0x104#9, 0x000#9, 0x000#9, 0x1000#14⟩].all issuing = true := by
  decide +kernel

/-- Words of `CopyAndChainWords` that issue. -/
theorem witness_CopyAndChainWords : [
  Instr.xcopy ⟨false, 0x104#9, 0x84#8, 0x0#4, 0x0#4, 0x00#5, 0x000000#24⟩,
  .cpSeal ⟨false, 0x0#4, 0x000#9, 0x000#9, 0x000#9, 0x000#9, 0x1000#14⟩,
  .cpWait ⟨false, 0x0#4, 0x000#9, 0x104#9, 0x000#9, 0x000#9, 0x1000#14⟩,
  .cpWp ⟨false, 0x0#4, 0x104#9, 0x104#9, 0x000#9, 0x000#9, 0x1000#14⟩,
  .cpWpw ⟨false, 0x0#4, 0x000#9, 0x104#9, 0x104#9, 0x000#9, 0x1000#14⟩,
  .chainAdd ⟨false, 0x000#9, 0x84#8, 0x0#4, 0x0#4, 0x00#5, 0x000000#24⟩,
  .chainSeq ⟨false, 0x0#4, 0x104#9, 0x104#9, 0x000#9, 0x000#9, 0x1000#14⟩,
  .chainWait ⟨false, 0x0#4, 0x000#9, 0x104#9, 0x104#9, 0x000#9, 0x1000#14⟩,
  .gather ⟨false, 0x104#9, 0x04#8, 0x0#4, 0x0#4, 0x00#5, 0x000000#24⟩,
  .kvtrim ⟨false, 0x104#9, 0x84#8, 0x0#4, 0x0#4, 0x00#5, 0x000000#24⟩].all issuing = true := by
  decide +kernel

/-- Words of `MatrixWords` that issue. -/
theorem witness_MatrixWords : [
  Instr.mres ⟨false, 0x0#4, 0x104#9, 0x104#9, 0x000#9, 0x000#9, 0x0000#14⟩,
  .mfree ⟨false, 0x0#4, 0x000#9, 0x104#9, 0x000#9, 0x000#9, 0x0000#14⟩,
  .mmaQ ⟨false, 0x0#4, 0x104#9, 0x000#9, 0x000#9, 0x000#9, 0x0000#14⟩,
  .mma ⟨false, 0x0#4, 0x104#9, 0x104#9, 0x104#9, 0x104#9, 0x0000#14⟩,
  .mqk ⟨false, 0x0#4, 0x104#9, 0x000#9, 0x000#9, 0x000#9, 0x0000#14⟩,
  .msv ⟨false, 0x0#4, 0x104#9, 0x000#9, 0x000#9, 0x000#9, 0x0000#14⟩,
  .mwait ⟨false, 0x0#4, 0x000#9, 0x104#9, 0x000#9, 0x000#9, 0x0000#14⟩,
  .mwaitAll ⟨false, 0x0#4, 0x000#9, 0x000#9, 0x000#9, 0x000#9, 0x0001#14⟩,
  .smpLd ⟨false, 0x0#4, 0x104#9, 0x104#9, 0x104#9, 0x000#9, 0x0000#14⟩,
  .mrow ⟨false, 0x0#4, 0x104#9, 0x104#9, 0x104#9, 0x000#9, 0x0001#14⟩,
  .mscale ⟨false, 0x0#4, 0x104#9, 0x104#9, 0x000#9, 0x000#9, 0x0000#14⟩,
  .mtrans ⟨false, 0x0#4, 0x104#9, 0x104#9, 0x104#9, 0x000#9, 0x0000#14⟩,
  .mzero ⟨false, 0x0#4, 0x104#9, 0x104#9, 0x000#9, 0x000#9, 0x0000#14⟩].all issuing = true := by
  decide +kernel

/-- Words of `LadderWords` that issue. -/
theorem witness_LadderWords : [
  Instr.ladInit ⟨false, 0x0#4, 0x104#9, 0x104#9, 0x000#9, 0x000#9, 0x0000#14⟩,
  .ladPush ⟨false, 0x0#4, 0x104#9, 0x104#9, 0x104#9, 0x000#9, 0x0000#14⟩,
  .ladBlend ⟨false, 0x0#4, 0x104#9, 0x104#9, 0x104#9, 0x000#9, 0x0000#14⟩,
  .ladRungLd ⟨false, 0x0#4, 0x000#9, 0x104#9, 0x104#9, 0x000#9, 0x1000#14⟩,
  .ladRungSt ⟨false, 0x0#4, 0x000#9, 0x104#9, 0x104#9, 0x000#9, 0x1010#14⟩,
  .ladRungCnt ⟨false, 0x0#4, 0x104#9, 0x104#9, 0x000#9, 0x000#9, 0x1020#14⟩].all issuing = true := by
  decide +kernel

/-- Words of `AssumptionWords` that issue. -/
theorem witness_AssumptionWords : [
  Instr.asmNew ⟨false, 0x0#4, 0x104#9, 0x104#9, 0x000#9, 0x000#9, 0x1000#14⟩,
  .asmArm ⟨false, 0x0#4, 0x104#9, 0x104#9, 0x000#9, 0x000#9, 0x1000#14⟩,
  .asmDep ⟨false, 0x0#4, 0x104#9, 0x104#9, 0x000#9, 0x000#9, 0x1000#14⟩,
  .asmTestObj ⟨false, 0x0#4, 0x104#9, 0x104#9, 0x000#9, 0x000#9, 0x1000#14⟩,
  .asmTestReg ⟨false, 0x0#4, 0x104#9, 0x104#9, 0x000#9, 0x000#9, 0x1010#14⟩,
  .asmDropObj ⟨false, 0x0#4, 0x104#9, 0x104#9, 0x000#9, 0x000#9, 0x1000#14⟩,
  .asmDropReg ⟨false, 0x0#4, 0x104#9, 0x104#9, 0x000#9, 0x000#9, 0x1010#14⟩,
  .asmInfoPc ⟨false, 0x0#4, 0x000#9, 0x000#9, 0x000#9, 0x000#9, 0x1000#14⟩,
  .asmInfoRec ⟨false, 0x0#4, 0x000#9, 0x000#9, 0x000#9, 0x000#9, 0x1010#14⟩,
  .asmInfoClr ⟨false, 0x0#4, 0x000#9, 0x000#9, 0x000#9, 0x000#9, 0x1020#14⟩].all issuing = true := by
  decide +kernel

/-- Words of `DirectoryAndCensusWords` that issue. -/
theorem witness_DirectoryAndCensusWords : [
  Instr.dirIns ⟨false, 0x0#4, 0x104#9, 0x104#9, 0x000#9, 0x000#9, 0x1000#14⟩,
  .dirDel ⟨false, 0x0#4, 0x104#9, 0x104#9, 0x000#9, 0x000#9, 0x1010#14⟩,
  .dirMov ⟨false, 0x0#4, 0x104#9, 0x104#9, 0x104#9, 0x104#9, 0x1020#14⟩,
  .dirLook ⟨false, 0x0#4, 0x104#9, 0x104#9, 0x000#9, 0x000#9, 0x1030#14⟩,
  .sol ⟨false, 0x0#4, 0x104#9, 0x104#9, 0x104#9, 0x000#9, 0x1030#14⟩,
  .cnsWait ⟨false, 0x0#4, 0x000#9, 0x104#9, 0x000#9, 0x000#9, 0x1000#14⟩,
  .cnsRd ⟨false, 0x0#4, 0x104#9, 0x104#9, 0x000#9, 0x000#9, 0x1010#14⟩].all issuing = true := by
  decide +kernel

/-- Words of `SystemWords` that issue. -/
theorem witness_SystemWords : [
  Instr.rdsr ⟨false, 0x0#4, 0x104#9, 0x000#9, 0x000#9, 0x000#9, 0x1000#14⟩,
  .wrsr ⟨false, 0x0#4, 0x000#9, 0x104#9, 0x000#9, 0x000#9, 0x1000#14⟩,
  .segBind ⟨false, 0x0#4, 0x000#9, 0x104#9, 0x000#9, 0x000#9, 0x1000#14⟩,
  .ptok ⟨false, 0x0#4, 0x000#9, 0x000#9, 0x000#9, 0x000#9, 0x1000#14⟩,
  .perf ⟨false, 0x0#4, 0x104#9, 0x000#9, 0x000#9, 0x000#9, 0x1000#14⟩,
  .clk ⟨false, 0x0#4, 0x104#9, 0x000#9, 0x000#9, 0x000#9, 0x1000#14⟩,
  .clkWave ⟨false, 0x0#4, 0x104#9, 0x000#9, 0x000#9, 0x000#9, 0x1010#14⟩,
  .halt ⟨true, 0x0#4, 0x000#9, 0x000#9, 0x000#9, 0x000#9, 0x1000#14⟩,
  .tlbInvPage ⟨false, 0x0#4, 0x104#9, 0x000#9, 0x000#9, 0x000#9, 0x1000#14⟩,
  .tlbInvVf ⟨false, 0x0#4, 0x104#9, 0x000#9, 0x000#9, 0x000#9, 0x1010#14⟩,
  .tlbInvPart ⟨false, 0x0#4, 0x104#9, 0x000#9, 0x000#9, 0x000#9, 0x1020#14⟩,
  .ctxSv ⟨false, 0x0#4, 0x104#9, 0x104#9, 0x000#9, 0x000#9, 0x1000#14⟩,
  .ctxLd ⟨false, 0x0#4, 0x104#9, 0x104#9, 0x000#9, 0x000#9, 0x1000#14⟩].all issuing = true := by
  decide +kernel

/-- Paired words with every half-op as half A that issue. -/
theorem witness_PairedWords : ([.nop, .mov, .iadd, .isub, .and, .or, .xor, .imin, .imax, .shl, .shr, .sar, .fadd, .fmul, .fmin, .fmax, .iaddi, .andi, .shli, .shri, .movi, .fneg, .fabs, .not] : List HalfOp).all (fun op =>
    issuing (pairInstr false op (if op = .nop then ⟨0, 0, 0⟩ else ⟨4#8, if op = .movi then 0 else 9#8, 0#8⟩) ⟨.mov, ⟨5#8, 6#8, 0#8⟩⟩)) = true := by
  decide +kernel


end Sys2Proof.Tests
end

