-- ==== Sys2Proof/Tests/Clauses.lean ====
section
/-!
SUPPORT. Witnesses of the further hypotheses of the statements about words: for each clause a state and operands that meet
them, at the ends of their ranges where a clause has a range.
-/

set_option Elab.async false
namespace Sys2Proof.Tests
open Sys2Proof.Machine Sys2Proof.Claims

/-- A register word: D, A, B, C and MOD. -/
def rWord (d a b c : BitVec 9) (mod : BitVec 14) : RWord := ⟨false, 0#4, d, a, b, c, mod⟩

/-- A memory word in segment 1: D, BASE, MOPT and IMM. -/
def mWord (d : BitVec 9) (base : BitVec 8) (mopt : BitVec 5) (imm : BitVec 24) : MWord := ⟨false, d, base, 1#4, 0#4, mopt, imm⟩

/-- A control word with a marker: MINOR, A and OFFSET. -/
def bWord (minor : BitVec 5) (a : BitVec 9) (offset : BitVec 32) : BWord := ⟨true, 0#4, minor, a, 0#4, offset⟩

/-- The operand field of a small constant (R168). -/
def const (n : BitVec 9) : BitVec 9 := 0x1A0#9 + n

/-- The probe with its workgroup changed. -/
def probeWg (i : Instr) (f : Workgroup → Workgroup) : State := (probe i).updWg 0 0 f

/-- The checks and translations of a word's lanes are ready. -/
def isReady : Access → Bool
  | .ready _ _ => true
  | _ => false

/-- They raise a fault. -/
def isRaise : Access → Bool
  | .raise _ _ _ => true
  | _ => false

/-- They wait. -/
def isHold : Access → Bool
  | .hold _ => true
  | _ => false

/-- A scalar register and the next three of the wave set. -/
def withS (n : Nat) (xs : List Word) (v : Wave) : Wave :=
  v.regWrites ((List.range xs.length).map (fun i => ⟨0x100 + n + i, 0, xs.getD i 0#32⟩))

/-- A vector register set to one value in every lane. -/
def withV (n : Nat) (x : Word) (v : Wave) : Wave := v.regWrites ((List.range 32).map (fun l => ⟨n, l, x⟩))

/-! ### Control words -/

/-- A jump to the last word within the limit of `g15`, and one to the first beyond it. -/
theorem clauses_ControlTransfers :
    clause (.jmp (bWord 0 0 511)) (probe (.jmp (bWord 0 0 511))) (fun c _ => !pastLimit c (c.pc + 511#32)) = true ∧
    clause (.jmp (bWord 0 0 512)) (probe (.jmp (bWord 0 0 512))) (fun c _ => pastLimit c (c.pc + 512#32)) = true ∧
    clause (.jmpi (bWord 0 4 0)) (probeWith (.jmpi (bWord 0 4 0)) (fun v => v.vset 4 5 512#32)) (fun c _ =>
      pastLimit c (c.opnd 4 5) && (List.range 5).all (fun j => !pastLimit c (c.opnd 4 j))) = true := by
  decide +kernel

/-- `rwait` with no lane effective, with no lane held, with lanes held at its own PC, and with lanes held at another. -/
theorem clauses_HoldingLanes :
    let i := Instr.rwait ⟨true, 1#4, 0#5, const 3, 0#4, 4#32⟩
    let j := Instr.rwait (bWord 0 (const 3) 4)
    let held := fun (pc : Word) (v : Wave) => { v with held := some ⟨pc, 8#32, 100, 0xF0#32, 2⟩ }
    clause i (probe i) (fun c _ => decide (c.eff = 0#32)) = true ∧
    clause j (probe j) (fun c _ => decide (c.eff ≠ 0#32) && decide (c.wave.held = none)) = true ∧
    clause j (probeWith j (held 0#32)) (fun c _ => decide (c.eff ≠ 0#32) && c.wave.held.any (fun h => decide (h.pc = c.pc))) = true ∧
    clause j (probeWith j (held 1#32)) (fun c _ => decide (c.eff ≠ 0#32) && c.wave.held.any (fun h => decide (h.pc ≠ c.pc))) = true := by
  decide +kernel

/-- A workgroup whose wave 0 has arrived at slot 15 of barriers in generation 2, as the generation `g`, in an ensemble of `n`. -/
def arrivedAt (n : Nat) (g : Word) (x : Workgroup) : Workgroup := { x with
  ensSize := n
  barriers := sset Barrier.fresh x.barriers 15 ⟨2#32, sset none [] 0 (some g)⟩ }

/-- Barrier words: a slot that is not declared, one outside an ensemble, a second arrival, a first one, a wait for a generation that is still
open and for one that is over, and a wait without an arrival. -/
theorem clauses_SchedulingAndBarrierWords :
    let full := fun (n : BitVec 9) => Instr.barFull (bWord 0 (const n) 0)
    let wait := Instr.barWait (bWord 2 (const 15) 0)
    let ens := Instr.barEnsFull (bWord 0 (const 15) 0)
    let old := fun (c : Ctx) (t : State) => sget none (slotOf t c false 15).arrivals (seatOf c false)
    clause (full 16) (probe (full 16)) (fun c _ => decide (c.wg.bars ≤ 16)) = true ∧
    clause ens (probe ens) (fun c _ => decide (c.wg.ensSize ≤ 1)) = true ∧
    clause ens (probeWg ens (arrivedAt 2 0)) (fun c t => decide (15 < c.wg.bars) && decide (1 < c.wg.ensSize) &&
      decide (sget none (slotOf t c true 15).arrivals (seatOf c true) ≠ some (slotOf t c true 15).gen)) = true ∧
    clause (full 15) (probeWg (full 15) (arrivedAt 1 2)) (fun c t => decide (15 < c.wg.bars) && decide (old c t = some 2#32)) = true ∧
    clause (full 15) (probeWg (full 15) (arrivedAt 1 1)) (fun c t => decide (15 < c.wg.bars) &&
      decide (old c t ≠ some (slotOf t c false 15).gen)) = true ∧
    clause wait (probeWg wait (arrivedAt 1 2)) (fun c t => decide (old c t = some (slotOf t c false 15).gen)) = true ∧
    clause wait (probeWg wait (arrivedAt 1 1)) (fun c t => decide (old c t = some 1#32) && decide ((slotOf t c false 15).gen = 2#32)) = true ∧
    clause wait (probe wait) (fun c t => decide (old c t = none)) = true := by
  decide +kernel

/-- The probe with a handler installed at word 0x100. -/
def withHandler (i : Instr) : State := { probe i with trapbase := sset 0xFFFFFFFF#32 [] (ctxOf 96 0) 0x100#32 }

/-- `brk` with and without a debugger; the handler's entry with save areas that can be written; its return. -/
theorem clauses_TrapWords :
    let brk := Instr.brk (bWord 0 0 7)
    let tret := Instr.tret (bWord 0 0 0)
    let inside := (probeWith tret (fun v => { v with inHandler := true }))
    clause brk (probe brk) (fun c t => decide (c.eff ≠ 0#32) && !(t.func c.wg.vf).debugAttached) = true ∧
    clause brk ((probe brk).updFunc 96 (fun f => { f with debugAttached := true })) (fun c t => decide (c.eff ≠ 0#32) &&
      (t.func c.wg.vf).debugAttached) = true ∧
    clause tret inside (fun c t => decide (c.eff ≠ 0#32) && ((t.trapReturn c).wave c.id).any (fun v => decide (v.deferred = none)) &&
      (List.range 32).all (fun l => (List.range 4).all (fun j => match t.recordRead c.core c.wg.vf c.wg.part
          (privAddr c.wave.record c.wg.vregs (4 * j) l) 4 with
        | .ok bs => decide (bs = [0#8, 0#8, 0#8, 0#8])
        | .error _ => false))) = true := by
  decide +kernel

/-- A fault with the handler installed whose save areas can be written, and one without a handler and one in it. -/
theorem clauses_HandlerEntry :
    let i := Instr.trap (bWord 0 (const 5) 0)
    let f : FaultInfo := ⟨0x20, 0, 0#32, 0xFFFFFFFF#32, 0xFFFFFFFF#32, 5#64, true⟩
    let ready := fun (s : State) => ((s.wave w0).any (fun w => decide (w.resp = none) && !w.inHandler && (s.wg 0 w.wg).any (fun g =>
      decide (sget 0xFFFFFFFF#32 s.trapbase g.ctx ≠ 0xFFFFFFFF#32) &&
      (match s.writeSaveAreas w0 { w with faultPending := none, conds := [], parked := none } g f with
        | .ok _ => true
        | .error _ => false))))
    let kills := fun (s : State) => ((s.wave w0).any (fun w => decide (w.resp = none) && (s.wg 0 w.wg).any (fun g =>
      decide (g.ensSize ≤ 1) && decide (g.contained = none) && (w.inHandler || decide (sget 0xFFFFFFFF#32 s.trapbase g.ctx = 0xFFFFFFFF#32)))))
    ready (withHandler i) = true ∧ kills (probe i) = true ∧
    kills ((withHandler i).updWave w0 (fun v => { v with inHandler := true })) = true := by
  decide +kernel

/-! ### Local and private words -/

/-- Local accesses at the end of a space and one byte past it, behind a synchronisation word and in front of one; a remote one of an
ensemble member; a private one that is ready; and the scratchpad atomic. -/
theorem clauses_LocalAndPrivateWords :
    let ld := fun (imm : BitVec 24) => Instr.ldSp ⟨false, 4#9, 8#8, 0#4, 0#4, 8#5, imm⟩
    let rem := Instr.ldRsp ⟨false, 4#9, 8#8, 0#4, 0#4, 8#5, 0x200000#24⟩
    let ldp := Instr.ldP ⟨false, 4#9, 8#8, 0#4, 0#4, 8#5, 0#24⟩
    let add := fun (imm : BitVec 24) => Instr.atomSp ⟨false, 4#9, 8#8, 0#4, 0#4, 8#5, imm⟩
    let checks := fun (c : Ctx) (n : Int) => c.allLanes false (c.lanes.map (fun l => (l, localAccess c.wg .sp 4 (localOffset c (mWord 4 8 8 0) n l) none)))
    let ok := fun (x : Except (Raise × Mask) (List (Nat × List Nat))) => match x with
      | .ok _ => true
      | .error _ => false
    let blocked := fun (v : Wave) => { v with flights := [⟨0, 0#32, 0#32, 0#32, .fence 0, 0#8⟩] }
    clause (ld 0xF7FC) (probe (ld 0xF7FC)) (fun c _ => ok (checks c 0xF7FC) && !c.wave.blocked && !c.wave.fencedTo 0) = true ∧
    clause (ld 0xF800) (probe (ld 0xF800)) (fun c _ => !ok (checks c 0xF800)) = true ∧
    clause (ld 0) (probeWith (ld 0) blocked) (fun c _ => ok (checks c 0) && c.wave.blocked && !c.wave.fencedTo 0) = true ∧
    clause rem (probeWg rem (fun g => { g with ensSize := 2, ensRank := 1 })) (fun c t => decide (1 < c.wg.ensSize) &&
      decide (1 < c.wg.ensSize) && (t.ensemble 0 0).any (fun e => (t.wg e.1 e.2).any (fun g => decide (g.ensRank = 1) &&
        c.lanes.all (fun l => decide (localOffset c (mWord 4 8 8 0) 0 l + 4 ≤ g.usable .sp))))) = true ∧
    clause rem (probe rem) (fun c _ => decide (c.wg.ensSize ≤ 1)) = true ∧
    clause ldp (probe ldp) (fun c t =>
      isReady (t.access c true false .load
        ((accessing c false).flatMap (fun l => privateAddrs c 4 (localOffset c (mWord 4 8 8 0) 0 l) l)))) = true ∧
    clause (add 0) (probe (add 0)) (fun c _ => ok (checks c 0)) = true ∧
    clause (add 2) (probe (add 2)) (fun c _ => !ok (checks c 2)) = true := by
  decide +kernel


/-! ### Global words and cells -/

/-- The lanes' accesses of a global word in the probe. -/
def accessOf (c : Ctx) (t : State) (w : MWord) (imm : Int) (once : Bool) (size : Nat) (k : AccKind) : Access :=
  t.access c false once k (globalAddrs c w imm once size k)

/-- Stores and loads at the last word of the segment (ready), past it (a fault), on a page without a translation in the TLB (a wait); an atomic,
a reduction and a queue load with the queue configured; a linkage word; a store to a cached page with no access in flight. -/
theorem clauses_GlobalWords :
    let st := fun (imm : BitVec 24) => Instr.stG (mWord 4 4 8 imm)
    let ldk := Instr.ldK (mWord 0x104 0x84 8 0x10)
    let atom := Instr.atom (mWord 4 4 8 0x30010)
    let red := Instr.redG (mWord 4 4 8 0x10)
    let dq := Instr.dqLd (mWord 3 4 8 0x10)
    let lnk := Instr.lnkLd ⟨false, 0x104#9, 0x84#8, 14#4, 0#4, 0xC#5, 0x10#24⟩
    let deep := fun (g : Workgroup) => { g with queues := sset DQueue.empty g.queues 3 { DQueue.empty with depth := 16 } }
    clause (st 4092) (probe (st 4092)) (fun c t => isReady (accessOf c t (mWord 4 4 8 4092) 4092 false 4 .store) && decide (c.wave.flights = []) &&
      (match accessOf c t (mWord 4 4 8 4092) 4092 false 4 .store with
        | .ready accs _ => accs.all (fun a => !a.2)
        | _ => false)) = true ∧
    clause (st 4093) (probe (st 4093)) (fun c t => isRaise (accessOf c t (mWord 4 4 8 4093) 4093 false 4 .store)) = true ∧
    clause (st 64) (probeWith (st 64) (fun v => { v with segs := sset 0#128 v.segs 1 (BitVec.ofNat 128 (15 * 2 ^ 124 + 4096 * 2 ^ 60 + 2 ^ 40)) }))
      (fun c t => isHold (accessOf c t (mWord 4 4 8 64) 64 false 4 .store)) = true ∧
    clause ldk (probe ldk) (fun c t => isReady (accessOf c t (mWord 0x104 0x84 8 0x10) 0x10 true 4 .load)) = true ∧
    clause atom (probeWg atom deep) (fun c t => isReady (accessOf c t (mWord 4 4 8 0x10) 0x10 false 4 .atomic) && decide ((t.queue 0 0 3).depth ≠ 0)) = true ∧
    clause red (probe red) (fun c t => isReady (accessOf c t (mWord 4 4 8 0x10) 0x10 false 4 .atomic)) = true ∧
    clause dq (probeWg dq deep) (fun c t => isReady (accessOf c t (mWord 4 4 8 0x10) 0x10 false 4 .load) && decide ((t.queue 0 0 3).depth ≠ 0)) = true ∧
    clause lnk (probeWith lnk (fun v => { v with segs := sset 0#128 v.segs 14 probeSeg })) (fun c t =>
      isReady (t.access c false true .observe ([(0, Except.ok 0x10), (0, Except.ok 0)] : List (Nat × Except Raise Nat))) &&
      !c.wave.blocked && !t.cellPoisoned 0 0 0) = true := by
  decide +kernel

/-- Words of paths 0, 1, 3 and 4 behind an unfinished `xfence` to their path. -/
theorem clauses_FencedWordsWait :
    let fenced := fun (q : Nat) (v : Wave) => { v with flights := [⟨0, 0#32, 0#32, 0#32, .xfence 2 q [(0, 0)] none, 0#8⟩] }
    let holds := fun (i : Instr) (q : Nat) => clause i (probeWith i (fenced q)) (fun c _ => c.wave.fencedTo q)
    holds (.stG (mWord 4 4 8 0)) 0 = true ∧ holds (.ldSp ⟨false, 4#9, 8#8, 0#4, 0#4, 8#5, 0#24⟩) 0 = true ∧
    holds (.xcopy (mWord 0x104 0x84 0 0)) 1 = true ∧ holds (.gather (mWord 0x104 4 0 0)) 3 = true ∧
    holds (.chainAdd (mWord 0 0x84 0 0)) 4 = true := by
  decide +kernel

/-- A cell at address 8 of the segment is ready for `acq`, `acq.try`, `rel`, `bind` and `unbind`; a region of one word, and the largest that
the segment holds; `calli` with its table in `g14`; the fences. -/
theorem clauses_SynchronisationWords :
    let cell := fun (c : Ctx) (t : State) (w : MWord) => isReady (accessOf c t w 8 true 8 .sync)
    let acq := mWord 0x104 0x84 0xC 8
    let masked := mWord 0x104 0x84 0xC 0x200008
    let rel := mWord 0 0x84 0xC 8
    let region := fun (i : Instr) (off len : Word) => clause i (probeWith i (withS 4 [off, 0, len, 0])) (fun c t => cell c t acq &&
      decide (((c.sreg acq.d 1 ++ c.sreg acq.d 0 : Dword).toInt + (c.sreg acq.d 3 ++ c.sreg acq.d 2 : Dword).toNat ≤ segLimit (sget 0#128 c.wave.segs 1))))
    let calli := Instr.calli (bWord 0 4 2)
    let fen := Instr.fence (rWord 0 0 0 0 0x1030)
    let xf := Instr.xfence (rWord 0 0 0 0 0x1010)
    let ch := fun (n : BitVec 9) => Instr.xfenceCh (rWord 0 (const n) (const 0) 0 0x1011)
    clause (.acq acq) (probe (.acq acq)) (fun c t => cell c t acq && !c.wave.blocked && !t.cellPoisoned 0 0 8) = true ∧
    clause (.acq masked) (probe (.acq masked)) (fun c t => cell c t masked) = true ∧
    clause (.acqTry acq) (probe (.acqTry acq)) (fun c t => cell c t acq) = true ∧
    clause (.rel rel) (probe (.rel rel)) (fun c t => cell c t rel) = true ∧
    region (.bind acq) 4092 4 = true ∧ region (.bind acq) 0 4096 = true ∧ region (.unbind acq) 64 64 = true ∧
    clause calli (probeWith calli (fun v => { v with segs := sset 0#128 v.segs 14 probeSeg })) (fun c t =>
      isReady (t.access c false true .load [(0, segCheck (sget 0#128 c.wave.segs 14) 16 8 8 .load)])) = true ∧
    clause fen (probe fen) (fun c _ => decide (c.eff ≠ 0#32)) = true ∧ clause xf (probe xf) (fun c _ => decide (c.eff ≠ 0#32)) = true ∧
    clause (ch 7) (probe (ch 7)) (fun c _ => decide ((c.opnd (const 7) 0).toNat < 8)) = true := by
  decide +kernel

/-- Queue words: a pop of a queue that does not exist, one that claims a push its D takes and one that its D does not, one of an empty queue;
a depth of 64 and of 65, a depth that the area does not hold, and one while entries stand. -/
theorem clauses_QueueWords :
    let pop := fun (d : BitVec 9) (q : BitVec 9) => Instr.dqPop (rWord d (const q) 0 0 0x1000)
    let big := Instr.dqPop (rWord 4 0x104 0 0 0x1000)
    let cfg := fun (n : BitVec 9) => Instr.dqCfg (rWord 0 (const 3) n 0 0x1000)
    let entry : QEntry := ⟨0, 0, 4, false, true, false, [], none⟩
    let full := fun (g : Workgroup) => { g with queues := sset DQueue.empty g.queues 3 ⟨16, [entry], 1, []⟩ }
    let free := fun (c : Ctx) (t : State) => (t.queue c.id.core c.wave.wg 3).entries.find? (fun e => !e.claimed)
    clause (pop 4 3) (probeWg (pop 4 3) full) (fun c t => (free c t).any (fun e => popFits c.wg.vregs 4 e.size e.scalar &&
      decide (hazard (c.wave.live t.clk) [] (regsFrom 4 (popRegs e.size e.scalar)) = none) && decide (0 < pushCount e.size e.scalar))) = true ∧
    clause (pop 0x104 3) (probeWg (pop 0x104 3) full) (fun c t => (free c t).any (fun e => !popFits c.wg.vregs 0x104 e.size e.scalar)) = true ∧
    clause (pop 4 3) (probe (pop 4 3)) (fun c t => (free c t).isNone && decide (hazard (c.wave.live t.clk) [] (popCould c.wg.vregs 4) = none)) = true ∧
    clause big (probeWith big (withS 4 [16])) (fun c _ => decide (16 ≤ (c.opnd 0x104 (lowLane c.eff)).toNat)) = true ∧
    clause (cfg (const 16)) (probe (cfg (const 16))) (fun c t => decide (128 * 16 ≤ c.wg.queueArea) &&
      (List.range 16).all (fun i => decide ((t.queue 0 0 i).entries = []))) = true ∧
    clause (cfg 0x104) (probeWith (cfg 0x104) (withS 4 [64])) (fun c _ => decide (c.wg.queueArea < 128 * 64)) = true ∧
    clause (cfg 0x104) (probeWith (cfg 0x104) (withS 4 [65])) (fun c _ => decide (64 < (c.opnd 0x104 (lowLane c.eff)).toNat)) = true ∧
    clause (cfg (const 16)) (probeWg (cfg (const 16)) full) (fun _ t => decide ((t.queue 0 0 3).entries ≠ [])) = true := by
  decide +kernel

/-! ### Copies, matrix words and ladders -/

/-- Copies: a seal of a batch that is complete, of one that is not, and of the 65th; channel 7 and channel 8; chain 63 and chain 64; a gather of
32 rows of 64 B, with its slot at the end of the A-buffer; a chain that is not registered. -/
theorem clauses_CopyAndChainWords :
    let sealW := Instr.cpSeal (rWord 0 0 0 0 0x1000)
    let open' := fun (n : Nat) (v : Wave) => { v with openBatch := [0], batches := List.replicate n [0] }
    let live := fun (s : State) => s.updWg 0 0 (fun g => { g with channels := sset Channel.fresh [] 0 ⟨0, [⟨0, 0, 0#32, 0, 0, 0, 64, none⟩]⟩ })
    let wp := fun (n : BitVec 9) => Instr.cpWp (rWord 0x104 (const n) 0 0 0x1000)
    let seq := Instr.chainSeq (rWord 0x104 0x105 0 0 0x1000)
    let gather := mWord 0x104 4 0 0xA0000
    let add := mWord 0 0x84 0 64
    clause sealW (probe sealW) (fun c t => decide (c.eff ≠ 0#32) && !c.wave.openBatch.any (fun i => t.memberLive 0 i)) = true ∧
    clause sealW (live (probeWith sealW (open' 63))) (fun c t => c.wave.openBatch.any (fun i => t.memberLive 0 i) && decide (c.wave.batches.length < 64)) = true ∧
    clause sealW (live (probeWith sealW (open' 64))) (fun c t => c.wave.openBatch.any (fun i => t.memberLive 0 i) && decide (64 ≤ c.wave.batches.length)) = true ∧
    clause (wp 7) (probe (wp 7)) (fun c _ => decide (one c (const 7) = 7)) = true ∧ clause (wp 8) (probe (wp 8)) (fun c _ => decide (one c (const 8) = 8)) = true ∧
    clause seq (probeWith seq (withS 5 [63])) (fun c _ => decide (one c 0x105 < 64)) = true ∧
    clause seq (probeWith seq (withS 5 [64])) (fun c _ => decide (64 ≤ one c 0x105)) = true ∧
    clause (.gather gather) (probeWith (.gather gather) (withS 4 [0xF800, 64])) (fun c t =>
      let rows := c.lanes.flatMap (fun l => match segCheck (sget 0#128 c.wave.segs 1) (c.goff gather 0 l) 64 1 .load with
        | .error r => [(l, (Except.error r : Except Raise Nat))]
        | .ok va => (rowPieces va 64).map (fun p => (l, (Except.ok p : Except Raise Nat))))
      decide ((c.wave.sreg gather.immHi).toNat = 64) && decide ((c.sreg gather.d 0).toNat + 32 * 64 = c.wg.ab.len) &&
        isReady (t.access c false false .load rows)) = true ∧
    clause (.chainAdd add) (probe (.chainAdd add)) (fun c t => isReady (accessOf c t add 64 true 64 .store) &&
      (t.chainOf c.wg.part c.wg.vf 0).isNone) = true := by
  decide +kernel

/-- A record of 32 rows of 64 B of bf16 at the start of the W-buffer. -/
def record : BitVec 128 := BitVec.ofNat 128 (2048 * 2 ^ 64 + 64 * 2 ^ 16 + 0x9 * 2 ^ 12)

/-- Handle 0 bound to that record. -/
def bound (g : Workgroup) : Workgroup := { g with handles := sset none [] 0 (some ⟨record, false⟩) }

/-- Matrix words: a product whose quarters pass, one without a handle; tiles at the end of the C-buffer; a transpose; reservations that are bound,
refused, and without a free handle; a freed one; waits with and without a kept failure; a program slot. -/
theorem clauses_MatrixWords :
    let mma := rWord 0x104 8 9 12 0
    let mrow := fun (a b : BitVec 9) => Instr.mrow (rWord 0x104 a b 0 0x0001)
    let mtrans := Instr.mtrans (rWord 0x104 0x105 0x106 0 0)
    let mzero := Instr.mzero (rWord 0x104 0x105 0 0 0)
    let mres := Instr.mres (rWord 0x104 0x108 0 0 0)
    let mfree := Instr.mfree (rWord 0 (const 0) 0 0 0)
    let mwait := Instr.mwait (rWord 0 (const 3) 0 0 0)
    let smp := Instr.smpLd (rWord 0x104 (const 7) 0x105 0 0)
    let words := [0#32, 0#32, 0#32, 0x00409000#32, 2048#32]
    let ok := fun (x : Except Raise QuarterOp) => match x with
      | .ok _ => true
      | .error _ => false
    let fits := fun (c : Ctx) (t : State) => t.recordFail c (c.sreg 0x108#9 3 ++ c.sreg 0x108#9 2 ++ c.sreg 0x108#9 1 ++ c.sreg 0x108#9 0)
    let rec4 := withS 8 [0x00409000, 0, 2048, 0]
    words.length = 5 ∧
    clause (.mmaQ mma) (probeWg (.mmaQ mma) bound) (fun c t => decide (quarters c = [0, 1, 2, 3]) && (quarters c).all (fun q => ok (t.quarterOp c mma 0 q)) &&
      !c.wave.fencedTo 2) = true ∧
    clause (.mmaQ mma) (probe (.mmaQ mma)) (fun c t => (quarters c).any (fun q => !ok (t.quarterOp c mma 0 q))) = true ∧
    clause (mrow 0x105 0x106) (probeWith (mrow 0x105 0x106) (withS 5 [0xF000, 0xFF00])) (fun c _ => decide (one c 0x105 + 4096 = c.wg.cb.len) &&
      decide (one c 0x106 + 128 ≤ c.wg.cb.len)) = true ∧
    clause mtrans ((probeWg mtrans bound)) (fun c _ => (c.handle 0).any (fun r => !recRemote r && decide (recFmt r = 9) &&
      decide (recBlk r = 0) && recSpan r 0 32 0 64)) = true ∧
    clause mzero (probeWith mzero (withS 5 [0xF000])) (fun c _ => decide (one c 0x105 % 512 = 0) && decide (one c 0x105 + 4096 = c.wg.cb.len)) = true ∧
    clause mres (probeWith mres rec4) (fun c t => (fits c t).isNone && decide (0 < c.wg.tokensDeclared) && decide (sget none c.wg.handles 0 = none)) = true ∧
    clause mres (probe mres) (fun c t => (fits c t).isSome) = true ∧
    clause mres ((probeWith mres rec4).updWg 0 0 (fun g => { g with tokensDeclared := 0 })) (fun c t => (fits c t).isNone && decide (c.wg.tokensDeclared = 0)) = true ∧
    clause mfree (probeWg mfree bound) (fun c _ => (c.handle 0).isSome) = true ∧ clause mfree (probe mfree) (fun c _ => (c.handle 0).isNone) = true ∧
    clause mwait (probe mwait) (fun c t => decide (c.wave.ladderFail = none) && decide ((t.core 0).cmds = [])) = true ∧
    clause mwait (probeWith mwait (fun v => { v with ladderFail := some (3, 1) })) (fun c _ => decide (c.wave.ladderFail = some (one c (const 3), 1))) = true ∧
    clause smp (probeWith smp (withS 5 [480])) (fun c t => decide ((sget SmpSlot.empty (t.core 0).smp 7).state = .free) && decide ((t.core 0).cmds = []) &&
      decide ((c.sreg 0x105 0).toNat = 480) && segValid (sget 0#128 c.wave.segs 15) && decide (8 * 480 + 256 ≤ segLimit (sget 0#128 c.wave.segs 15))) = true := by
  decide +kernel

/-- Ladder words: a block and a tile at the end of the C-buffer, a block one step past it; rung 15 and a rung past it, with aligned offsets. -/
theorem clauses_LadderWords :
    let push := Instr.ladPush (rWord 0x104 0x105 0x106 0 0)
    let rung := Instr.ladRungLd (rWord 4 0x105 0x106 8 0x1000)
    clause push (probeWith push (withS 5 [0xFF80, 0xFC00])) (fun c _ => decide (c.eff ≠ 0#32) && decide (ladderFail c.wg (one c 0x105) (some (one c 0x106)) = none)) = true ∧
    clause push (probeWith push (withS 5 [0x10000, 0xFC00])) (fun c _ => (ladderFail c.wg (one c 0x105) (some (one c 0x106))).isSome) = true ∧
    clause rung (probeWith rung (withS 5 [0xFF80, 15])) (fun c _ => decide (ladderFail c.wg (one c 0x105) none = none) && decide (one c 0x106 ≤ 15) &&
      c.lanes.all (fun l => decide ((c.opnd 8 l).toNat % 4 = 0)) && !c.wave.fencedTo 0) = true ∧
    clause rung (probeWith rung (withS 5 [0xFF80, 16])) (fun c _ => decide (ladderFail c.wg (one c 0x105) none = none) && decide (15 < one c 0x106)) = true ∧
    clause rung (probeWith rung (withS 5 [1, 16])) (fun c _ => (ladderFail c.wg (one c 0x105) none).isSome) = true := by
  decide +kernel

/-! ### Assumptions, the census and system words -/

/-- A descriptor at address 128 of the segment; object 511 and object 512; a private area of 32 bytes and a smaller one. -/
theorem clauses_AssumptionWords :
    let new := Instr.asmNew (rWord 0x104 0x106 0 0 0x1010)
    let dep := Instr.asmDep (rWord 0x104 0x106 0 0 0x1010)
    let test := Instr.asmTestObj (rWord 0x104 0x106 0 0 0x1000)
    let arm := Instr.asmArm (rWord 0x104 (const 3) 0 0 0x1000)
    let info := Instr.asmInfoPc (rWord 4 0 0 0 0x1000)
    let ready := fun (c : Ctx) (t : State) (size : Nat) => isReady (t.access c false true .load
      [(lowLane c.eff, segCheck (sget 0#128 c.wave.segs 1) (c.sreg 0x106#9 1 ++ c.sreg 0x106#9 0 : Dword).toInt size size .load)])
    clause new (probeWith new (withS 6 [128, 0])) (fun c t => decide (c.eff ≠ 0#32) && !c.wave.fencedTo 0 && ready c t 128 && !t.poisoned 128 && !t.poisoned 192) = true ∧
    clause dep (probeWith dep (withS 6 [4064, 0])) (fun c t => decide (32 ≤ c.wg.privBytes) && ready c t 32) = true ∧
    clause test (probeWith test (withS 6 [511])) (fun c _ => decide (one c 0x106 = 511)) = true ∧
    clause test (probeWith test (withS 6 [512])) (fun c _ => decide (511 < one c 0x106)) = true ∧
    clause arm (probe arm) (fun c t => match t.watchPlan c.wg.part ((t.part c.wg.part).object 3) with
      | .error _ => false
      | .ok _ => true) = true ∧
    clause info (probe info) (fun c t => decide (32 ≤ c.wg.privBytes) && !c.wave.blocked && isReady (t.access c true false .load (c.lanes.flatMap (fun l =>
      [20, 16].map (fun o => (l, (Except.ok (privAddr c.wave.record c.wg.vregs o l) : Except Raise Nat))))))) = true ∧
    clause info (probeWg info (fun g => { g with privBytes := 31 })) (fun c _ => decide (c.wg.privBytes < 32)) = true := by
  decide +kernel

/-- The probe with entry 255 of its directory a tile of the wave's workgroup with the key 5 in the state `st`. -/
def withTile (i : Instr) (st : DirState) : State :=
  (probe i).updDir 0 255 (fun _ => ⟨5, ctxOf 96 0, false, 0, 64, st, 0, 0⟩)

/-- Directory words: an insertion of 64 B at the end of the scratchpad, into a full directory; a deletion of an entry in each state; a look for
a key that stands and for one that does not; a move to another member; a solicit; results 3, complete and not. -/
theorem clauses_DirectoryAndCensusWords :
    let ins := Instr.dirIns (rWord 0x104 0x108 0 0 0x1000)
    let del := Instr.dirDel (rWord 0x104 0x106 0 0 0x1010)
    let look := Instr.dirLook (rWord 0x104 0x106 0 0 0x1030)
    let mov := Instr.dirMov (rWord 0x104 0x106 (const 1) (const 0) 0x1020)
    let sol := Instr.sol (rWord 0x104 0x108 (const 7) (const 0) 0x1035)
    let rd := Instr.cnsRd (rWord 0x10A (const 3) 0 0 0x1010)
    let at255 := withS 6 [255]
    let insOk := fun (c : Ctx) => decide ((c.sreg 0x108#9 1).toNat < 2 ^ 25) && decide ((c.sreg 0x108#9 2).toNat + (c.sreg 0x108#9 3).toNat = c.wg.usable .sp)
    clause ins (probeWith ins (withS 8 [5, 0, 0xF7C0, 64])) (fun c t => decide (c.eff ≠ 0#32) && insOk c && decide (((t.core 0).dir 0).state = .free)) = true ∧
    clause ins (((probeWith ins (withS 8 [5, 0, 0xF7C0, 64]))).updCore 0 (fun k => { k with
        dirs := (List.range 256).map (fun e => (e, ⟨e, 0, false, 0, 64, .valid, 0, 0⟩)) })) (fun c t => insOk c &&
      (List.range 256).all (fun e => decide (((t.core 0).dir e).state ≠ .free))) = true ∧
    clause del ((withTile del .valid).updWave w0 at255) (fun c t => decide (one c 0x106 = 255) && decide (((t.core 0).dir 255).state = .valid)) = true ∧
    clause del ((withTile del .moving).updWave w0 at255) (fun c t => decide (((t.core 0).dir (one c 0x106)).state = .moving)) = true ∧
    clause del (probeWith del at255) (fun c t => decide (((t.core 0).dir (one c 0x106)).state = .free)) = true ∧
    clause look ((withTile look .valid).updWave w0 (withS 6 [5, 0xFFFF])) (fun c _ => decide ((c.sreg 0x106#9 1).toNat < 2 ^ 16)) = true ∧
    clause look ((withTile look .valid).updWave w0 (withS 6 [5, 0])) (fun c t => decide (((t.core 0).dir 255).key = (c.sreg 0x106#9 0).toNat)) = true ∧
    clause mov (((withTile mov .valid).updWave w0 at255).updWg 0 0 (fun g => { g with ensSize := 2 })) (fun c t => decide (one c (const 1) < c.wg.ensSize) &&
      decide (one c (const 1) ≠ c.wg.ensRank) && decide (((t.core 0).dir 255).state = .valid) &&
      (t.ensemble 0 0).all (fun x => (t.wg x.1 x.2).all (fun g => decide (g.ensRank ≠ 1)))) = true ∧
    clause mov ((((withTile mov .valid).updWave w0 at255).updWg 0 0 (fun g => { g with ensSize := 2 })).updCore 0 (fun k => { k with
        wgs := sset none k.wgs 1 ((sget none k.wgs 0).map (fun g => { g with ensSize := 2, ensRank := 1 })) })) (fun c t =>
      decide (((t.core 0).dir 255).state = .valid) && decide ((t.ensemble 0 c.wave.wg).find? (fun x => match t.wg x.1 x.2 with
        | some g => decide (g.ensRank = 1)
        | none => false) = some (0, 1)) && (t.wg 0 1).isSome) = true ∧
    clause sol (probeWith sol (withS 8 [5, 0xFFFF, 0, 0xFFFF])) (fun c _ => decide (8 * (c.opnd (const 7) 0).toNat + 8 ≤ segLimit (sget 0#128 c.wave.segs 15)) &&
      decide ((c.sreg 0x108#9 1).toNat < 2 ^ 16) && decide ((c.sreg 0x108#9 3).toNat < 2 ^ 16) && !(c.wave.census.getD 0 CensusSlot.empty).busy) = true ∧
    clause rd (probeWith rd (fun v => { v with census := v.census.set 3 { CensusSlot.empty with busy := true, complete := true } })) (fun c _ =>
      (c.wave.census.getD (one c (const 3)) CensusSlot.empty).complete) = true ∧
    clause rd (probe rd) (fun c _ => !(c.wave.census.getD (one c (const 3)) CensusSlot.empty).complete) = true := by
  decide +kernel

/-- A responder issues `resp.end`. -/
theorem clause_respEnd :
    let i := Instr.respEnd ⟨true, 0#4, 0#9, 0#9, 0#9, 0#9, 0x1000#14⟩
    let s := (probeWith i (fun v => { v with resp := some ⟨0, 0, 0, 255, 0, 0⟩, exempt := true }))
    (s.ctxFor s.cur (optD (encode i) 0#64) i.shape.pred i.shape.m).any (fun c => (s.checks c i.shape (wordNeeds i c.wave)).1.isNone &&
      responderWord c.word && c.wave.resp.any (fun r => decide (r.issued < 256)) && decide (c.eff ≠ 0#32) &&
      decide (c.wave.live (checked i s c).clk = []) && decide (c.wave.conds = [])) = true := by
  decide +kernel

/-- System words: no access unfinished before `wrsr`; a binding at the end of the address space, and of `g15` with 16 GiB; a wave that has issued
before; contexts that are saved, that are not, and that are not eligible. -/
theorem clauses_SystemWords :
    let wrsr := Instr.wrsr (rWord 0 0x106 0 0 0x1000)
    let bind := fun (minor : BitVec 14) => Instr.segBind (rWord 0 0x108 0 0 (0x1000 + 16 * minor))
    let clkw := Instr.clkWave (rWord 0x104 0 0 0 0x1010)
    let sv := Instr.ctxSv (rWord 0x104 0x106 0 0 0x1000)
    let ld := Instr.ctxLd (rWord 0x104 0x106 0 0 0x1000)
    let g := fun (c : Ctx) => (c.sreg 0x108#9 3 ++ c.sreg 0x108#9 2 ++ c.sreg 0x108#9 1 ++ c.sreg 0x108#9 0 : BitVec 128)
    clause wrsr (probe wrsr) (fun c _ => decide (c.eff ≠ 0#32) && c.wave.flights.all (fun f => !f.op.unperformed)) = true ∧
    clause (bind 2) (probeWith (bind 2) (withS 8 [0xFFFFF000, 0x0FFFFFFF, 0x100, 0xF0000000])) (fun c _ => decide (bitsN (g c) 123 120 = 0) &&
      segValid (g c) && decide (segBase (g c) + segLimit (g c) ≤ 2 ^ 60)) = true ∧
    clause (bind 15) (probeWith (bind 15) (withS 8 [0, 0, 0x40000000, 0xF0000000])) (fun c _ => decide (bitsN (g c) 123 120 = 0) && segValid (g c) &&
      decide (segLimit (g c) ≤ 2 ^ 34)) = true ∧
    clause clkw (probeWith clkw (fun v => { v with firstIssue := some 0 })) (fun c _ => c.wave.firstIssue.isSome) = true ∧
    clause sv (probe sv) (fun c t => ((t.core 0).wgs.find? (fun e => match e.2 with
      | some x => x.records.contains (c.sreg 0x106#9 1 ++ c.sreg 0x106#9 0 : Dword).toNat
      | none => false)).isNone) = true ∧
    clause sv (probeWith sv (withS 6 [0x10000, 0])) (fun c t => ((t.core 0).wgs.find? (fun e => match e.2 with
      | some x => x.records.contains (c.sreg 0x106#9 1 ++ c.sreg 0x106#9 0 : Dword).toNat
      | none => false)).any (fun e => !t.eligible 0 e.1)) = true ∧
    clause ld (probe ld) (fun c t => ((t.part c.wg.part).saved.find? (fun x => x.live)).isNone) = true := by
  decide +kernel

/-- A privileged word in a context of a virtual function. -/
theorem clauses_PrivilegedWordsTrap :
    let i := Instr.tlbInvVf (rWord 0x104 0 0 0 0x1010)
    let s := ((probe i).updWg 0 0 (fun g => { g with vf := 3 })).updFunc 3 (fun f => { f with feat := 0xFFFFFFFF#128 })
    i.shape.priv = true ∧ i.shape.illegal = none ∧ (s.ctxFor s.cur (optD (encode i) 0#64) i.shape.pred i.shape.m).any (fun c =>
      decide (c.wave.resp = none) && decide (s.missingFeature c.wg.vf i.shape = none) && decide (wordNeeds i c.wave ≠ some false) &&
      decide (c.wg.vf ≠ 96)) = true := by
  decide +kernel

end Sys2Proof.Tests
end

