-- ==== Sys2Proof/Tests/Steps.lean ====
section
/-!
SUPPORT. Witnesses of the hypotheses of the statements about steps that no wave issues: for each clause a small state that meets
them.
-/

set_option Elab.async false
namespace Sys2Proof.Tests
open Sys2Proof.Machine Sys2Proof.Claims

/-- One wave, about to run a `nop`. -/
def base : State := probe (.nop ⟨false, 0#4, 0#5, 0#9, 0#4, 0#32⟩)

/-- `base` with a page table at 1 MiB: page 0 mapped with every permission, a GROW page at 64 KiB, nothing from 128 KiB on; a page pool at
2 MiB with the limit `quota` and one free frame. -/
def mapped (quota : Nat) : State :=
  let entry := fun (s : State) (a x : Nat) => s.setHomeBytes a (bytesOfNat x 8)
  let s := base.updQcb 96 0 (fun b => { b with hyp := BitVec.ofNat 1024 (0x100000 * 2 ^ 768 + 0x200000 * 2 ^ 704 + 2 ^ 486) })
  let s := entry (entry (entry s 0x100000 (0x110000 + 1)) 0x110000 (0x120000 + 1)) 0x120000 (0x130000 + 1)
  let s := entry s 0x130000 0xDF
  let s := (List.range 16).foldl (fun s i => entry s (0x130080 + 8 * i) 0x91E) s
  let s := s.setHomeBytes 0x200000 (bytesOfNat (0x200040 * 2 ^ 448 + 2 ^ 416 + quota * 2 ^ 384) 64)
  entry s 0x200040 0x300000

/-- `s` with the wave changed. -/
def wave (s : State) (f : Wave → Wave) : State := s.updWave w0 f

/-- A test of the wave. -/
def ofWave (s : State) (p : Wave → Bool) : Bool := (s.wave w0).any p

/-- `base` with the access `op` in flight under the tag 7. -/
def inFlight (op : FlightOp) : State := wave base (fun v => { v with flights := [⟨7, 0#32, 0xFFFFFFFF#32, 0xFFFFFFFF#32, op, 0#8⟩] })

/-- The access under the tag 7 of the wave in `s` is `op`, and `p` holds. -/
def flies (s : State) (op : FlightOp) (p : Wave → Flight → Bool) : Bool :=
  (s.wave w0).any (fun w => (w.flight 7).any (fun f => decide (f.op = op) && p w f))

/-- A cell's request under the tag 7 reaches its home. -/
def reaches (s : State) (cell : Nat) (op : FlightOp) : Bool := flies s op (fun w f => s.canPerform w f &&
  (let t := (s.performAll w0 (some 7)).yieldWords 0 [cell / 4, cell / 4 + 1]
   !t.wordHeld (cell / 4) && !t.wordHeld (cell / 4 + 1)))

/-! ### Waves and what returns to them -/

/-- A held set whose deadline has passed and one before its deadline, a wave to prefill, a wake that is met and one that is not, a fault to
deliver with and without results in flight and with a refused walk, and a word that is no instruction. -/
theorem witness_WaveSteps :
    let held := fun (d : Nat) => wave base (fun v => { v with held := some ⟨0#32, 0#32, d, 1#32, 1⟩ })
    let park := fun (n : Nat) => wave base (fun v => { v with parked := some ⟨0x0B, 0, n⟩ })
    let fault := fun (n : Nat) => wave base (fun v => { v with
      faultPending := some ⟨0x0A, 0, 0#32, 1#32, 1#32, 0#64, false⟩
      pend := [⟨4, false, n, 0⟩] })
    let walk := fun (s : State) (h : WalkHold) => wave s (fun v => { v with walk := some h })
    ofWave (held 0) (fun w => w.held.any (fun h => decide (h.deadline ≤ (held 0).pclk 0))) = true ∧
    ofWave (held 1) (fun w => w.held.any (fun h => decide ((held 1).pclk ((held 1).partOfWave w0) < h.deadline))) = true ∧
    ofWave base (fun w => w.active && w.lastMarked && !w.atMarker && !w.stopped && decide (w.faultPending = none)) = true ∧
    ofWave (wave base (fun v => { v with parked := some ⟨0x0D, 0, 0⟩ })) (fun w => w.parked.any (fun k => decide (k.kind = 0x0D)) && w.lastMarked &&
      !w.atMarker && !w.stopped && decide (w.faultPending = none)) = true ∧
    ofWave (park 0) (fun w => w.parked.any (fun k => (park 0).wakeMet w0 w k)) = true ∧
    ofWave (park 1) (fun w => w.parked.any (fun k => !(park 1).wakeMet w0 w k)) = true ∧
    ofWave (fault 1) (fun w => w.faultPending.isSome && decide (w.live 0 ≠ [])) = true ∧
    ofWave (fault 0) (fun w => w.faultPending.isSome && decide (w.live 0 = []) && decide (w.walk = none)) = true ∧
    ofWave (walk (fault 0) ⟨0x10000, true, false, true, 0, false⟩) (fun w => w.faultPending.isSome && w.walk.any (fun h => h.refused)) = true ∧
    decode (BitVec.ofNat 64 (0x14 * 2 ^ 54)) = .reject 0x01 1 := by
  decide +kernel

/-- A walk that has lasted 64 cycles and one of 63; one that finds a page and one that finds none; a demand map that the pool grants, and one that
its limit refuses. -/
theorem witness_TranslationSteps :
    let walk := fun (s : State) (h : WalkHold) => wave s (fun v => { v with walk := some h })
    let at' := fun (n : Nat) => { walk base ⟨0, false, false, false, 0, false⟩ with clk := n }
    let granted := fun (s : State) => match s.walk 96 0x10000 with
      | .grow a => some (s.demandMap 96 0x10000 a 0)
      | _ => none
    ofWave (at' 64) (fun w => decide (w.parked = none) && w.walk.any (fun h => decide (h.start + 64 ≤ (at' 64).clk) && !h.done && !h.demand && !h.refused)) = true ∧
    ofWave (at' 63) (fun w => decide (w.parked = none) && !w.stopPending && decide (w.divert = none) && w.walk.any (fun h => decide ((at' 63).clk < h.start + 64))) = true ∧
    ((mapped 1).walk 96 0 = .page ⟨96, 0, 4096, 0, 0xDF#64⟩) ∧ (mapped 1).walk 96 0x20000 = .bad 0x0D 4 ∧
    ((mapped 1).core 0).tlbFind 97 0 = none ∧
    (∀ va ∈ [0, 0x10000, 0x20000],
      let u := (walk (mapped 1) ⟨va, false, false, false, 0, false⟩).startWalk 0 96 va
      (sget [] u.walks 0).find? (fun x => x.serves 96 (va / 4096) (u.level0 96 va)) = some ⟨96, va / 4096, u.level0 96 va, [0]⟩ ∧
        ((u.core 0).waveList 0).length = 1) ∧
    ofWave (walk (mapped 1) ⟨0x10000, true, true, false, 0, false⟩) (fun w => w.walk.any (fun h => h.demand && !h.refused)) = true ∧
    (granted (mapped 1)).any (fun r => r.1 && (match r.2.walk 96 0x10000 with
      | .page _ => true
      | _ => false)) = true ∧
    (granted { mapped 1 with watches := [⟨0, 3, 0, 0x130080, 128, true⟩] }).any (fun r => r.1 && (match r.2.walk 96 0x10000 with
      | .page _ => false
      | _ => true)) = true ∧
    (granted (mapped 0)).any (fun r => !r.1 && decide (r.2.clk = 0)) = true := by
  decide +kernel

/-- The accesses of `AccessReturns`, each with what its clause asks. -/
theorem witness_AccessReturns :
    let acc : LaneAcc := ⟨3, 16, 16⟩
    let load := FlightOp.load [acc] 4 false 4 0 false 0xFF#8
    let bad := { inFlight load with poison := sset false [] 0 true }
    let call := FlightOp.callRead acc 4 0xFFFFFFFF#32 0xFFFFFFFF#32
    let fill := FlightOp.fill 3 0 [acc] 4 false false 0 0xFF#8
    let pop := FlightOp.pop 3 0 1 4
    let queue := fun (x : Option Nat) => (inFlight pop).updQueue 0 0 3 (fun d => { d with entries := [⟨0, 0, 4, false, true, true, [], x⟩] })
    let gather := FlightOp.gather 0 0 64 [acc, ⟨4, 80, 80⟩]
    let last := FlightOp.gather 0 0 64 [acc]
    let badRow := { inFlight last with poison := sset false [] 0 true }
    let image := FlightOp.smpImage 0 0 0x104
    flies (inFlight load) load (fun w f => (inFlight load).canPerform w f && decide ((((inFlight load).performAll w0 (some 7)).readLoad w0
      [acc] 4 false 4 0 false 0xFF#8).2.1 = [])) = true ∧
    flies bad load (fun w f => bad.canPerform w f && decide (((bad.performAll w0 (some 7)).readLoad w0
      [acc] 4 false 4 0 false 0xFF#8).2.1 ≠ [])) = true ∧
    flies (inFlight call) call (fun w f => (inFlight call).canPerform w f) = true ∧
    (∀ write, flies (inFlight (.remote write 0 0 [(0, 0)] 4 false 4 [])) (.remote write 0 0 [(0, 0)] 4 false 4 [])
      (fun w _ => !w.blockedBefore 7) = true) ∧
    flies (inFlight fill) fill (fun w f => (inFlight fill).canPerform w f) = true ∧
    flies (inFlight (.result [⟨4, 0, 1#32⟩])) (.result [⟨4, 0, 1#32⟩]) (fun _ _ => true) = true ∧
    flies (queue none) pop (fun w _ => ((queue none).queue 0 w.wg 3).entries.all (fun e => e.filled && decide (e.group = 0) && e.poison.isNone)) = true ∧
    flies (queue (some 64)) pop (fun w _ => decide (((queue (some 64)).queue 0 w.wg 3).entries.findSome? (fun e => e.poison) = some 64)) = true ∧
    flies (inFlight (.trim 0x104 2)) (.trim 0x104 2) (fun _ _ => decide (((inFlight (.trim 0x104 2)).part 0).trims = [])) = true ∧
    flies (inFlight gather) gather (fun _ _ => decide ((inFlight gather).rowPoison 64 [acc] = none)) = true ∧
    flies (inFlight last) last (fun _ _ => decide ((inFlight last).rowPoison 64 [acc] = none)) = true ∧
    flies badRow last (fun _ _ => decide (badRow.rowPoison 64 [acc] = some acc)) = true ∧
    flies (inFlight image) image (fun w _ => ((inFlight image).wg 0 w.wg).any (fun g => (List.range 32).all (fun i =>
      match (inFlight image).imageDword w0 g (sget 0#128 w.segs 15) i with
      | .ok _ => true
      | .error _ => false))) = true := by
  decide +kernel

/-- A trim whose frame an earlier access of the wave still uses. -/
theorem witness_TrimWaits :
    let op := FlightOp.trim 0x104 2
    let s := (wave base (fun v => { v with flights := [⟨7, 0#32, 0xFFFFFFFF#32, 0xFFFFFFFF#32, op, 0#8⟩,
      ⟨8, 0#32, 0xFFFFFFFF#32, 0xFFFFFFFF#32, .load [⟨3, 16, 16⟩] 4 false 4 0 false 0xFF#8, 0#8⟩] })).updPart 0 (fun p => { p with
        trims := [⟨0, 0x10000, 65536, 0x100, 8, 0x200000, 96, 1⟩] })
    flies s op (fun _ _ => ((s.trimDrops 0).part 0).trims.any (fun x => decide (x.vf = 96) && !(s.trimDrops 0).trimQuiet x)) = true := by
  decide +kernel

/-! ### Copies, cells and atomics -/

/-- A workgroup with one unit to copy on channel 0 in the direction `dir`, from or to `va`. -/
def copying (s : State) (dir va : Nat) (sent : Option Nat) : State := s.updWg 0 0 (fun g => { g with
  channels := sset Channel.fresh [] 0 ⟨0#32, [⟨0, 0, 0#32, dir, va, 0, 64, sent⟩]⟩ })

/-- Units whose source or target is mapped, poisoned, an unmapped GROW page and not mapped at all; one whose write is held and one that waits; a
frame that is quiet and one that is not. -/
theorem witness_CopySteps :
    let s := mapped 1
    let bytes := byteList 0 (List.replicate 64 0#8)
    let watched := { s with watches := [⟨0, 3, 0, 0, 8, false⟩] }.updPart 0 (fun p => { p with
      objects := sset AsmObject.empty [] 3 ⟨.armed, 1, 96, .fix, 1, [], [0], [0#64], false⟩ })
    let ok := fun (x : TransRes) => match x with
      | .ok _ _ => true
      | _ => false
    let grows := fun (x : TransRes) => match x with
      | .grow _ => true
      | _ => false
    let hard := fun (s : State) => s.updCore 0 (fun c => { c with preempt := some 0 })
    let frame := fun (s : State) (x : TrimFrame) (p : State → TrimFrame → Bool) =>
      let u := (s.updPart 0 (fun q => { q with trims := [x] })).trimDrops 0
      (u.part 0).trims.any (fun y => p u y)
    let count := fun (u : State) (x : TrimFrame) => u.poolField x.pool 351 288 + 4 * ((u.part 0).rel x.frame / 65536)
    let busy := inFlight (.load [⟨3, 16, 16⟩] 4 false 4 0 false 0xFF#8)
    ((copying s 0 0 none).wg 0 0).any (fun g => decide ((sget Channel.fresh g.channels 0).todo = [⟨0, 0, 0#32, 0, 0, 0, 64, none⟩])) = true ∧
    ok (s.engineTranslate 96 0 0 .load) = true ∧ ok (s.engineTranslate 96 0 0 .store) = true ∧ s.poisoned 0 = false ∧
    { s with poison := sset false [] 0 true }.poisoned 0 = true ∧
    grows (s.engineTranslate 96 0 0x10000 .load) = true ∧ grows (s.engineTranslate 96 0 0x10000 .store) = true ∧
    s.engineTranslate 96 0 0x20000 .load = .bad 0x0D 4 ∧ s.mustHold bytes = false ∧ watched.mustHold bytes = true ∧
    (((copying s 3 0 (some 0)).wg 0 0).any (fun g => (sget Channel.fresh g.channels 0).todo.all (fun p => decide (p.sent = some 0)))) = true ∧
    ((copying s 0 0 none).wg 0 0).any (fun g => s.channelRuns 0 g ⟨0, 0, 0#32, 0, 0, 0, 64, none⟩ &&
      !(hard s).channelRuns 0 g ⟨0, 0, 0#32, 0, 0, 0, 64, none⟩) = true ∧
    (s.touchLeaf 96 0 true).mustHold bytes = false ∧ (watched.touchLeaf 96 0 true).mustHold bytes = true ∧
    (frame busy ⟨0, 0x10000, 65536, 0x100, 8, 0x200000, 96, 1⟩ (fun u x => !u.trimQuiet x)) = true ∧
    (∀ stage ∈ [1, 2], frame s ⟨0x300000, 0x10000, 65536, 0x100, 8, 0x200000, 96, stage⟩ (fun u x => u.trimQuiet x && !u.trimHeld x (count u x))) = true ∧
    (frame s ⟨0x300000, 0x10000, 65536, 0x100, 8, 0, 96, 1⟩ (fun u x => u.trimQuiet x)) = true ∧
    (frame { s with heldWrites := [⟨0, 0, [(0x200000, 1#8)], .engine, 1, 0, [], none, false, false⟩] } ⟨0x300000, 0x10000, 65536, 0x100, 8, 0x200000, 96, 1⟩
      (fun u x => u.trimQuiet x && u.trimHeld x (count u x))) = true := by
  decide +kernel

/-- A cell at 8 whose word is `x`, with the home's record `h`, and the request `op` before it. -/
def cellState (x : Nat) (h : CellHome) (op : FlightOp) : State :=
  { (inFlight op).setHomeBytes 8 (bytesOfNat x 8) with cells := sset CellHome.fresh [] 8 h }

/-- What a clause of `CellSteps` asks of a cell's home. -/
def atCell (x : Nat) (h : CellHome) (op : FlightOp) (p : State → Wave → Bool) : Bool :=
  let s := cellState x h op
  reaches s 8 op && ofWave s (fun w => p (atHome s w0 7 8) w)

/-- Acquires of a free cell, a held one, one's own, a POISONED one, and one whose bits 47:32 are not zero; bindings that enter, that leave, that
have no place and that are not there; a linkage read of a POISONED cell and of a malformed one; a release by the holder and by another. -/
theorem witness_CellSteps :
    let acq := fun (attempt : Bool) => FlightOp.acquire 8 8 attempt 0x104 0 0 0#32 0
    let bind := fun (remove : Bool) => FlightOp.bindRegion 8 8 64 96 0x40 remove
    let link := FlightOp.linkage 8 8 16 0x104
    let rel := FlightOp.release 8 8
    let me := base.identOf w0 (((base.wave w0).getD Wave.fresh))
    let mine : CellHome := ⟨some me, some w0, [], [], none⟩
    let freed : CellHome := { mine with update := some 7 }
    let h := 1 + 64 * 96
    let word := fun (s : State) => s.cellWord 8
    atCell 5 CellHome.fresh (acq false) (fun t w => decide (word t = (0, 0, 5)) && (t.ctxOfIdent (t.identOf w0 w)).isSome) = true ∧
    atCell (h * 2 ^ 48) ⟨some 1, none, [], [], none⟩ (acq false) (fun t w => decide ((word t).1 = h) && !t.holds 8 (t.identOf w0 w)) = true ∧
    atCell (h * 2 ^ 48) ⟨some 1, none, [], [], none⟩ (acq true) (fun t w => decide ((word t).1 = h) && !t.holds 8 (t.identOf w0 w)) = true ∧
    atCell 5 freed (acq false) (fun t _ => t.updating 8 7) = true ∧ atCell (h * 2 ^ 48) freed rel (fun t _ => t.updating 8 7 && t.performedBefore w0 7) = true ∧
    atCell (h * 2 ^ 48) mine (acq false) (fun t w => t.holds 8 (t.identOf w0 w)) = true ∧
    atCell (0xFFFF * 2 ^ 48) CellHome.fresh (acq false) (fun t _ => decide ((word t).1 = 0xFFFF) && decide ((word t).2.1 = 0)) = true ∧
    atCell (2 ^ 32) CellHome.fresh (acq false) (fun t _ => decide ((word t).2.1 = 1)) = true ∧
    atCell (h * 2 ^ 48) mine (bind false) (fun t w => t.holds 8 (t.identOf w0 w) && decide (t.boundCells 8 < 64)) = true ∧
    atCell (h * 2 ^ 48) { mine with bindings := List.replicate 8 (64, 96, 0) } (bind false) (fun t w => t.holds 8 (t.identOf w0 w)) = true ∧
    atCell (h * 2 ^ 48) { mine with bindings := [(64, 96, 0x40)] } (bind true) (fun t w => t.holds 8 (t.identOf w0 w) &&
      decide ((64, 96, 0x40) ∈ (sget CellHome.fresh t.cells 8).bindings)) = true ∧
    atCell (h * 2 ^ 48) mine (bind true) (fun t w => t.holds 8 (t.identOf w0 w) && decide ((64, 96, 0x40) ∉ (sget CellHome.fresh t.cells 8).bindings)) = true ∧
    atCell 0 CellHome.fresh (bind false) (fun t w => !t.holds 8 (t.identOf w0 w)) = true ∧
    atCell (0xFFFF * 2 ^ 48) CellHome.fresh link (fun t _ => decide ((word t).1 = 0xFFFF)) = true ∧
    atCell (2 ^ 32) CellHome.fresh link (fun t _ => decide ((word t).2.1 = 1)) = true ∧
    atCell (h * 2 ^ 48 + 9) mine rel (fun t w => let u := t.writeBack 0 (fun k => inRuns (t.boundRuns 8) (4 * k) 4)
      t.performedBefore w0 7 && !t.updating 8 7 && u.published 0 (fun k => inRuns (t.boundRuns 8) (4 * k) 4) && u.holds 8 (u.identOf w0 w) && decide ((u.cellWord 8).2.1 = 0)) = true ∧
    atCell 0 CellHome.fresh rel (fun t w => let u := t.writeBack 0 (fun k => inRuns (t.boundRuns 8) (4 * k) 4)
      t.performedBefore w0 7 && !t.updating 8 7 && u.published 0 (fun k => inRuns (t.boundRuns 8) (4 * k) 4) && !u.holds 8 (u.identOf w0 w)) = true := by
  decide +kernel

/-- Acquires answered with each status, by `acq` with and without a status mask and by `acq.try`. -/
theorem witness_AnswersAndRegistrations :
    (∀ attempt, ∀ mask ∈ [0, 3], ∀ st ∈ [0, 1, 2, 3], flies (inFlight (.acquire 8 8 attempt 0x104 mask 2 5#32 st))
      (.acquire 8 8 attempt 0x104 mask 2 5#32 st) (fun _ _ => true) = true) ∧
    (let s := { base.updCore 0 (fun k => { k with l1 := sset L1Word.absent [] 4 ⟨1#32, 0xF#4, 0xF#4, true, false, 0, 0, 1, 0⟩ }) with clk := 65536 }
     (sget L1Word.absent (s.core 0).l1 4).dirty ≠ 0#4 ∧ (sget L1Word.absent (s.core 0).l1 4).priv = 0 ∧ (sget L1Word.absent (s.core 0).l1 4).written + 65536 ≤ s.clk) := by
  decide +kernel

/-- An atomic with a lane to do, at a word that no write holds, that one holds, and that is poisoned; and one with no lane left. -/
theorem witness_AtomicSteps :
    let lane : AtomLane := ⟨⟨3, 16, 16⟩, 5, 0⟩
    let op := fun (todo : List AtomLane) => FlightOp.atomic 0 0 4 todo 3 0 []
    let s := inFlight (op [lane])
    let held := { s with heldWrites := [⟨0, 0, [(16, 1#8)], .engine, 1, 0, [], none, false, false⟩] }
    let ready := fun (s : State) (todo : List AtomLane) => flies s (op todo) (fun w f => s.canPerform w f && !s.pushHeld 0 w.wg 3 7)
    let t := fun (s : State) => (s.performAll w0 (some 7)).yieldWords 0 [4]
    ready s [lane] = true ∧ ready (inFlight (op [])) [] = true ∧ ready held [lane] = true ∧
    accWords (s.canon 16) 4 = [4] ∧ (t s).wordHeld 4 = false ∧ (t s).poisoned 16 = false ∧ (t held).wordHeld 4 = true ∧
    (t { s with poison := sset false [] 0 true }).poisoned 16 = true ∧ ((t s).wg 0 0).isSome = true := by
  decide +kernel

end Sys2Proof.Tests
end

