-- ==== Sys2Proof/Tests/Engines.lean ====
section
/-!
SUPPORT. Witnesses of the hypotheses of the statements about the engines, the registry, the census, pre-emption and dispatch.
-/

set_option Elab.async false
namespace Sys2Proof.Tests
open Sys2Proof.Machine Sys2Proof.Claims

/-! ### Matrix unit and ladders -/

/-- A command of the wave that has not started. -/
def command (op : CmdOp) : Cmd := ⟨0, w0, 0, 0#16, 0, 0, op, 8, 0, false, [], [], 0#4, none, []⟩

/-- `base` with one command admitted. -/
def admitted (k : Cmd) : State := base.updCore 0 (fun c => { c with cmds := [k], cmdNum := 1 })

/-- The command is the next of core 0. -/
def isNext (k : Cmd) : Bool :=
  let s := admitted k
  decide ((s.core 0).cmds.find? (fun x => (s.core 0).startable x && !x.op.ladder && (match x.op, s.wg 0 x.wg with
    | .product .., some h => decide (0 < s.freeTokens 0 x.wg h)
    | _, some _ => true
    | _, none => false)) = some k) && (s.wg 0 k.wg).isSome

/-- Each kind of command is the next one of a core; one has started; a shadow check is in progress with no ring, and with one whose
threshold it passes. -/
theorem witness_MatrixSteps :
    let q : QuarterOp := ⟨0, 0#32, 0#32, record, record, 0, 0#32, 0#32, 0#32⟩
    let busy := base.updCore 0 (fun c => { c with shadow := ⟨5, some (1, 0, 0, 0#32, 0, 0), 2⟩ })
    isNext (command (.zero false 0)) = true ∧ isNext (command (.zero true 0)) = true ∧ isNext (command (.scale 0 [1#32])) = true ∧
    isNext (command (.rowStats 1 0 4096)) = true ∧ isNext (command (.rowStats 2 0 4096)) = true ∧
    isNext (command (.transpose true 0 0#32 record)) = true ∧ isNext (command (.product 0 true [q])) = true ∧
    isNext (command (.product 1 false [q])) = true ∧ isNext (command (.product 3 false [q])) = true ∧
    ((admitted { command (.zero false 0) with started := true }).core 0).cmds.find? (fun x => decide (x.num = 0) && x.started) =
      some { command (.zero false 0) with started := true } ∧
    (busy.core 0).shadow.busy = some (1, 0, 0, 0#32, 0, 0) ∧ busy.partOfSector (sectorOf 0) = some 0 ∧ (busy.part 0).telebase = 0#64 ∧
    (let t := ((base.setHomeBytes 0x80 (bytesOfNat (0x3F800000 * 2 ^ 288) 64)).updPart 0 (fun p => { p with telebase := 0x80#64 })).telemetry 0 0#256
     bitsN (BitVec.ofNat 512 (t.homeNat (t.part 0).telebase.toNat 64)) 319 288 = 0x3F800000 ∧ (f32.fcmp 4 0x40000000 0x3F800000).1 = true) := by
  decide +kernel

/-- A ladder command with the descriptor `d` at block 0. -/
def laddered (k : Cmd) (d : Nat) : State := (admitted k).updCore 0 (fun c => c.setSpaceBytes .cb 0 (bytesOfNat d 64))

/-- Ladder commands with a descriptor in order and without one. -/
theorem witness_LadderSteps :
    let good := 0x1000 * 2 ^ 480 + 0x3F800000 * 2 ^ 416 + 2 * 2 ^ 412 + 2 ^ 408
    let at' := fun (op : CmdOp) (d : Nat) (init : Bool) (tile : Option Nat) (p : Option Nat → Bool) =>
      let s := laddered (command op) d
      decide ((s.core 0).cmds.find? (fun x => s.ladderReady 0 x) = some (command op)) &&
        (s.wg 0 0).any (fun g => p ((s.ladder 0 g 0).fail (g.usable .cb) init tile))
    at' (.ladInit 0) good true none (fun r => r.isNone) = true ∧ at' (.ladInit 0) 1 true none (fun r => r.isSome) = true ∧
    at' (.ladPush 0 0x8000) good false (some 0x8000) (fun r => r.isNone) = true ∧
    at' (.ladPush 0 0x8000) 0 false (some 0x8000) (fun r => decide (r = some 1)) = true ∧
    at' (.ladBlend true 0 0x8000) good false (some 0x8000) (fun r => r.isNone) = true := by
  decide +kernel

/-! ### The registry -/

/-- An object of the probe's context. -/
def object (st : ObjState) (busy : Bool) : AsmObject := ⟨st, ctxOf 96 0, 96, .fix, 1, 0x100#64 :: List.replicate 14 0#64, [0x100], [0#64], busy⟩

/-- The operation `op` in flight with object 3 as `o` and region 5 as `r`. -/
def registry (op : AsmOp) (o : AsmObject) (r : Region) : State :=
  let s := mapped 1
  let s := s.updWave w0 (fun v => { v with flights := [⟨7, 0#32, 0xFFFFFFFF#32, 0xFFFFFFFF#32, .registry op 0x104, 0#8⟩] })
  s.updPart 0 (fun p => { p with
    objects := sset AsmObject.empty [] 3 o
    regions := sset Region.empty [] 5 r })

/-- The operation stands in its place in the registry's order in `s`, and `p` holds of the state. -/
def ordered (s : State) (op : AsmOp) (p : State → Bool) : Bool :=
  flies s (.registry op 0x104) (fun w _ =>
    let u := if w.blockedBefore 7 then s else s.performAll w0 (some 7)
    (s.wg 0 w.wg).isSome && p u && (u.wave w0).any (fun v => (v.flights.takeWhile (fun (e : Flight) => decide (e.tag ≠ 7))).all (fun e => !e.op.unperformed)))

/-- The same with object 3 as `o` and region 5 as `r`. -/
def inOrder (op : AsmOp) (o : AsmObject) (r : Region) (p : State → Bool) : Bool := ordered (registry op o r) op p

/-- A region of the probe's context over object 3. -/
def region (st : RegionState) (hs : List Nat) : Region := ⟨st, 1#32, ctxOf 96 0, 0, 0x200, 4#32, 8#32, 16#32, hs, 0⟩

/-- A descriptor of a `fix` object in memory and one of no kind; arms in each state, with a plan, without room and with a value that differs; tests and
drops of objects and regions; a region descriptor. -/
theorem witness_RegistrySteps :
    let free := AsmObject.empty
    let none' := Region.empty
    let fix := fun (s : State) => s.setHomeBytes 0x80 (bytesOfNat (3 * 2 ^ 60 + 2 ^ 56 + 0x100 * 2 ^ 64) 128)
    let header := fun (s : State) => (BitVec.ofNat 64 (natOfBytes ((s.readBytes 0 0 false 0#8 0x80 128).take 8)) : Dword)
    let plan := fun (s : State) => s.watchPlan 0 ((s.part 0).object 3)
    let planned := fun (s : State) => match plan s with
      | .ok x => decide (x = ([0x100], [], [])) && s.watchRoom 0 x.1 x.2.1
      | .error _ => false
    let dep := 4 * 2 ^ 224 + 8 * 2 ^ 192 + 16 * 2 ^ 160 + 0x8003 * 2 ^ 96
    inOrder (.newObject 0x80 0x80) free none' (fun u => !u.poisoned 0x80 && !u.poisoned 0xC0 && decide (objKind (bitsN (header (fix u)) 63 60) = some .fix) &&
      AsmObject.valid ⟨.disarmed, 0, 96, .fix, 1, 0x100#64 :: List.replicate 14 0#64, [], [], false⟩ (header (fix u)) &&
      decide (((u.part 0).object 0).state = .free)) = true ∧
    inOrder (.newObject 0x80 0x80) free none' (fun u => decide (objKind (bitsN (header u) 63 60) = none)) = true ∧
    ordered { registry (.newObject 0x80 0x80) free none' with poison := sset false [] 2 true } (.newObject 0x80 0x80) (fun u => u.poisoned 0x80) = true ∧
    ordered (fix (registry (.newObject 0x80 0x80) free none')) (.newObject 0x80 0x80) (fun u => !(u.part 0).objects.any (fun e => decide (511 < e.1)) &&
      decide (objKind (bitsN (header u) 63 60) = some .fix)) = true ∧
    ordered ((registry (.newObject 0x80 0x80) free none').updPart 0 (fun p => { p with
      objects := (List.range 512).map (fun i => (i, object .disarmed false)) })) (.newObject 0x80 0x80) (fun u =>
        (List.range 512).all (fun h => decide (((u.part 0).object h).state ≠ .free))) = true ∧
    ordered ((registry (.newObject 0x80 0x80) free none').setHomeBytes 0x80 (bytesOfNat (3 * 2 ^ 60 + 2 ^ 56 + 1) 128)) (.newObject 0x80 0x80) (fun u =>
      decide (objKind (bitsN (header u) 63 60) = some .fix) &&
        !AsmObject.valid ⟨.disarmed, ctxOf 96 0, 96, .fix, 1, List.replicate 15 0#64, [], [], false⟩ (header u)) = true ∧
    inOrder (.depend 0x200 0x200 0) { object .armed false with owner := 0 } none' (fun u => depValid (BitVec.ofNat 256 dep) &&
      decide ((depHandles (BitVec.ofNat 256 dep)).find? (fun h => !(u.part 0).owns (ctxOf 96 0) h) = some 3)) = true ∧
    ordered { registry (.depend 0x200 0x200 0) (object .armed false) none' with poison := sset false [] 8 true } (.depend 0x200 0x200 0) (fun u => u.poisoned 0x200) = true ∧
    inOrder (.arm 3) { object .disarmed false with dwords := 0x40000#64 :: List.replicate 14 0#64 } none' (fun u => match plan u with
      | .error (.fault _) => true
      | _ => false) = true ∧
    ordered ((registry (.arm 3) (object .disarmed false) none').setHomeBytes 0x130000 (bytesOfNat (2 ^ 56 + 0xDF) 8)) (.arm 3) (fun u => match plan u with
      | .error (.noWatch _) => true
      | _ => false) = true ∧
    ordered { registry (.arm 3) (object .disarmed false) none' with watches := List.replicate 512 ⟨0, 4, 0, 0x100, 8, false⟩ } (.arm 3) (fun u => match plan u with
      | .ok x => !u.watchRoom 0 x.1 x.2.1
      | .error _ => false) = true ∧
    inOrder (.arm 3) free none' (fun u => decide (((u.part 0).object 3).state = .free)) = true ∧
    inOrder (.arm 3) (object .armed false) none' (fun u => decide (((u.part 0).object 3).state = .armed)) = true ∧
    inOrder (.arm 3) (object .broken true) none' (fun u => ((u.part 0).object 3).inFlight) = true ∧
    inOrder (.arm 3) (object .disarmed false) none' (fun u => planned u && decide (u.homeNat 0x100 8 = 0)) = true ∧
    inOrder (.arm 3) { object .disarmed false with values := [1#64] } none' (fun u => planned u &&
      !({ (u.part 0).object 3 with values := [1#64] }.holds [u.homeNat 0x100 8])) = true ∧
    inOrder (.test false 3) (object .broken true) none' (fun u => (u.part 0).owns (ctxOf 96 0) 3) = true ∧
    inOrder (.test true 5) (object .armed false) (region .active [3]) (fun u => decide (((u.part 0).region 5).state = .active)) = true ∧
    inOrder (.drop false 3) (object .armed false) (region .active [3]) (fun u => decide ((u.part 0).regionsOf 3 ≠ [])) = true ∧
    inOrder (.drop false 3) (object .armed true) none' (fun u => decide ((u.part 0).regionsOf 3 = [])) = true ∧
    inOrder (.drop false 3) (object .armed false) none' (fun u => decide ((u.part 0).regionsOf 3 = [])) = true ∧
    inOrder (.drop true 5) (object .armed false) (region .revoked [3]) (fun u => decide (((u.part 0).region 5).owner = ctxOf 96 0)) = true ∧
    inOrder (.depend 0x200 0x200 0) (object .armed false) none' (fun u => !u.poisoned 0x200 && depValid (BitVec.ofNat 256 dep) &&
      (depHandles (BitVec.ofNat 256 dep)).all (fun h => (u.part 0).owns (ctxOf 96 0) h && decide (((u.part 0).object h).state = .armed))) = true ∧
    inOrder (.depend 0x200 0x200 0) (object .disarmed false) none' (fun u =>
      (depHandles (BitVec.ofNat 256 dep)).any (fun h => decide (((u.part 0).object h).state ≠ .armed))) = true ∧
    inOrder (.depend 0x200 0x200 0) (object .armed false) none' (fun u => !depValid (BitVec.ofNat 256 (natOfBytes (u.readBytes 0 0 false 0#8 0x200 32)))) = true := by
  decide +kernel

/-- A held write of the bytes `bs` with object 3 watching the word at 0x100. -/
def heldState (bs : List (Nat × Byte)) (discard : Bool) : State :=
  { base with
    heldWrites := [⟨0, 0, bs, .engine, 1, 0, [3], none, false, discard⟩]
    watches := [⟨0, 3, 0, 0x100, 8, false⟩] }.updPart 0 (fun p => { p with objects := sset AsmObject.empty [] 3 (object .armed false) })

/-- Held writes that break an object and that do not, one of a killed writer; slots free and all busy; REVOKE to apply and applied; all cores
acknowledged; a write released; a slot that no read needs. -/
theorem witness_RevocationSteps :
    let decided := fun (s : State) => s.heldWrites.all (fun h => h.revoke.isNone && !s.heldBehind h && !s.heldInFlight h)
    let breaks := heldState [(0x100, 1#8)] false
    let keeps := heldState [(0x100, 0#8)] false
    let all := breaks.updPart 0 (fun p => { p with revs := (List.range 8).map (fun i => (i, { Revocation.empty with busy := true })) })
    let slot := fun (r : Revocation) => breaks.updPart 0 (fun p => { p with
      sectors := 1#12
      revs := sset Revocation.empty [] 2 r })
    let cores := List.range 64
    decided breaks = true ∧ breaks.heldWrites.all (fun h => decide (breaks.broken h = [(0, 3)])) = true ∧
    decided keeps = true ∧ keeps.heldWrites.all (fun h => decide (keeps.broken h = []) && decide (keeps.heldObjects h = [(0, 3)])) = true ∧
    decided (heldState [(0x100, 0#8)] true) = true ∧ (breaks.part 0).revWaiting = [] ∧ (revocation breaks 0 0).busy = false ∧
    (∀ r ∈ List.range 8, (revocation all 0 r).busy = true) ∧
    (let s := slot ⟨true, 0, [3], [], [], false, false, 0⟩
     (revocation s 0 2).applied.contains 63 = false ∧ (s.part 0).cores.contains 63 = true ∧ ((s.part 0).cores.any (fun n => !s.coreAcks 0 (revocation s 0 2) n)) = true) ∧
    (let s := slot ⟨true, 0, [3], [], cores, false, false, 0⟩
     (revocation s 0 2).applied.contains 0 = true ∧ ((s.part 0).cores.all (fun n => s.coreAcks 0 (revocation s 0 2) n)) = true) ∧
    (let s := slot ⟨true, 0, [3], [], cores, true, false, 0⟩
     (revocation s 0 2).combined = true ∧ (s.heldWrite 0).isSome = true) ∧
    (let s := slot ⟨true, 0, [3], [], cores, true, true, 0⟩
     (revocation s 0 2).released = true ∧ ((s.part 0).cores.all (fun n => ((s.core n).waveList n).all (fun e => e.2.flights.all (fun f => !f.op.reads)))) = true ∧
      (s.part 0).saved = []) := by
  decide +kernel

/-! ### The census -/

/-- `base` with messages in the root's inbox and log and with requests. -/
def rooted (inbox log : List RootMsg) (reqs : List SolicitReq) : State :=
  base.updPart 0 (fun p => { p with rootInbox := inbox, rootLog := log, solicits := reqs })

/-- Messages to order; requests with a free place; the next message of a core a solicit with room, without room, and a commit; a move to check, with
and without room; a copied move; nodes whose children have answered, and not; a complete census. -/
theorem witness_CensusSteps :
    let place : Place := { Place.empty with busy := true, asker := w0, record := 0x10000, ctx := ctxOf 96 0, vf := 96, key := 5, mask := 0xFFFF, width := 1 }
    let s := rooted [.insert 0 3 w0 7] [] [⟨w0, place⟩]
    let t := rooted [] [.solicit 4] []
    let full := t.updCore 0 (fun c => { c with spawns := (List.range 9).map (fun i => ⟨0, i, 0, DirEntry.empty⟩) })
    let commit := rooted [] [.insert 0 3 w0 7] []
    let reply : Reply := ⟨[1#32], 1, 0, 0⟩
    let answered := base.updPart 0 (fun p => { p with places := sset Place.empty [] 4 { place with
      replies := ssetList none (sset none [] (nodeKey 4 0) (some reply)) 0 (List.replicate 8 (some reply)) } })
    let move := fun (phase o : Nat) => FlightOp.dirMove 255 0 0 0 o 0 phase 0x104
    let moving := fun (op : FlightOp) => (inFlight op).updDir 0 255 (fun _ => ⟨5, ctxOf 96 0, false, 0, 64, .moving, 0, 0⟩)
    let usable := (base.wg 0 0).any (fun g => decide (g.usable .sp = 0xF800))
    (s.part 0).rootInbox.drop 0 = [.insert 0 3 w0 7] ∧ (s.part 0).rootInbox.drop 1 = [] ∧ (s.part 0).solicits.drop (1 - 1) = [⟨w0, place⟩] ∧
    (sget Place.empty (s.part 0).places 0).busy = false ∧
    t.rootNext 0 = some (0, 0, .solicit 4) ∧ (dedup ((t.core 0).spawns.map (fun x => x.place))).length < 9 ∧
    full.rootNext 0 = some (0, 0, .solicit 4) ∧ 9 ≤ (dedup ((full.core 0).spawns.map (fun x => x.place))).length ∧
    commit.rootNext 0 = some (0, 0, .insert 0 3 w0 7) ∧
    (∀ e ∈ List.range 256, ((t.core 0).dir e).matches place = false) ∧
    usable = true ∧ flies (moving (move 1 0xF7C0)) (move 1 0xF7C0) (fun _ _ => (((moving (move 1 0xF7C0)).core 0).freeDir).isSome) = true ∧
    flies (moving (move 1 0xF800)) (move 1 0xF800) (fun _ _ => true) = true ∧ flies (moving (move 2 0)) (move 2 0) (fun _ _ => true) = true ∧
    (answered.place 0 4).busy = true ∧ ((answered.part 0).children 1 0).map (fun k => sget none (answered.place 0 4).replies k) = List.replicate 8 (some reply) ∧
    sget none (answered.place 0 4).replies (nodeKey 1 0) = none ∧ sget none (answered.place 0 4).replies (nodeKey 4 0) = some reply ∧
    (answered.part 0).saved = [] ∧ sget none (base.place 0 4).replies (nodeKey 4 0) = none ∧
    (let w := { (base.wave w0).getD Wave.fresh with census := [{ CensusSlot.empty with busy := true, id := 9#32 }] }
     w.census[0]? = some { CensusSlot.empty with busy := true, id := 9#32 }) := by
  decide +kernel

/-! ### Pre-emption and dispatch -/

/-- `base` in a slice of the physical function that ends at 100, with grace as given, at the cycle `n`. -/
def sliced (grace : Option Nat) (n : Nat) : State :=
  { base.updPart 0 (fun p => { p with slice := some (96, 100), grace := grace }) with clk := n }

/-- An eligible workgroup and one that is not; a core to pre-empt whose wave is at a precise point, and not; slices before and at their end, with and without
another tenant; the end of the grace period; no slice; a core past its bound and one with a workgroup
contained; waves to displace at a marker and within a window, and one that yields; dirty lines and blocks, and none; an arrival at a saved workgroup. -/
theorem witness_PreemptionSteps :
    let parked := fun (s : State) => wave s (fun v => { v with parked := some ⟨0x0B, 0, 1000⟩ })
    let hard := fun (s : State) => s.updCore 0 (fun c => { c with preempt := some 0 })
    let two := fun (s : State) => (s.updPart 0 (fun p => { p with tenants := [96, 3] })).updQcb 3 0 (fun b => { b with
      hyp := BitVec.ofNat 1024 (2 ^ 486), half := BitVec.ofNat 512 (2 ^ 480) })
    let nine := fun (marked : Bool) => { base.updCore 0 (fun c => { c with waves := (List.range 9).map (fun i =>
      (i, some { (base.wave w0).getD Wave.fresh with
        active := decide (i < 8)
        lastMarked := marked })) }) with clk := 512 }
    let yields := (nine true).updWave ⟨0, 0, 2⟩ (fun w => { w with yields := some 8 })
    let late := { hard base with clk := 8193 }
    let contained := (hard base).updWg 0 0 (fun g => { g with contained := some 1 })
    let ended := fun (s : State) => (s.coresOf 0 96).foldl (fun (s : State) n => s.updCore n (fun c => { c with preempt := some s.clk })) s
    let picks := fun (s : State) => let act := (s.schedWaves 0 0).filter (fun e => e.2.active)
      (leastBy (fun w => w.readySince) ((s.schedWaves 0 0).filter (fun e => !e.2.active && e.2.wantsActive && decide (e.2.readySince + 512 ≤ s.clk) &&
        !act.any (fun a => decide (a.2.yields = some e.1.slot))))).isSome &&
      (leastBy (fun w => w.activeSince) (act.filter (fun e => e.2.parked.isNone && e.2.yields.isNone))).isSome &&
      decide (8 ≤ act.length) && act.all (fun e => decide (e.2.parked = none))
    let dirty := base.updCore 0 (fun c => { c with rf := sset RfLine.absent [] 4 ⟨true, true, 0⟩ })
    (let s := parked (sliced (some 200) 0)
     (s.part 0).grace ≠ none ∧ (s.part 0).slice.map (fun x => x.1) = some 96 ∧ s.eligible 0 0 = true) ∧ base.eligible 0 0 = false ∧
    (((hard base).core 0).waveList 0).all (fun e => e.2.precise) = true ∧ (hard base).busyWg 0 0 = false ∧ (hard base).ensCommands 0 = false ∧
    (hard base).clk ≤ 0 + 8192 ∧ (late.core 0).preempt = some 0 ∧ 0 + 8192 < late.clk ∧
    (contained.core 0).wgs.any (fun e => e.2.any (fun g => decide (g.contained ≠ none))) = true ∧
    ofWave (wave (hard base) (fun v => { v with lastMarked := false })) (fun w => !w.precise) = true ∧
    (sliced none 99).clk < 100 ∧ 100 ≤ (sliced none 100).clk ∧ (sliced none 100).nextTenant 0 96 = none ∧ (two (sliced none 100)).nextTenant 0 96 = some 3 ∧
    (ended (two (sliced (some 200) 200))).nextTenant 0 96 = some 3 ∧ (sliced (some 200) 199).coresOf 0 96 ≠ [] ∧
    (base.part 0).slice = none ∧ (base.part 0).tslice ≠ 0#32 ∧ (base.part 0).tenants.find? (fun t => base.hasWork 0 t) = some 96 ∧
    picks (nine true) = true ∧ picks (nine false) = true ∧
    ((yields.wave ⟨0, 0, 2⟩).any (fun v => decide (v.yields = some 8) && v.active) && (yields.wave ⟨0, 0, 8⟩).any (fun w => !w.active && w.wantsActive)) = true ∧
    (base.part 0).tslice ≠ 0#32 ∧ (dirty.core 0).dirtySet ≤ 262144 ∧ (dirty.core 0).rf.find? (fun e => e.2.dirty) = some (4, ⟨true, true, 0⟩) ∧
    (sget none (dirty.core 0).waves (4 / 256)).isSome = true ∧ (sget none (dirty.core 0).wgs 0).isSome = true ∧
    (base.core 0).rf.all (fun e => !e.2.dirty) = true ∧ (base.core 0).dirtyBlocks = [] ∧ (base.core 0).l1 = [] ∧
    ((base.updCore 0 (fun c => { c with dirtyBlocks := [(3, true)] })).core 0).dirtyBlocks = [(3, true)] ∧
    ((base.updPart 0 (fun p => { p with tslice := 0#32 })).part 0).tslice = 0#32 ∧
    (base.part 0).saved.drop 0 = [] := by
  decide +kernel

/-- A launch of one workgroup of one wave. -/
def launch : Launch := ⟨[], 0, 4, 0, 0, 0, 0, 0, 64, 32, 0, 1, 5#32, 0, 1, 1, 1, 0#32, [], ⟨[], [], []⟩⟩

/-- `base` without work, a queue with 16 records of two pages from 16 MiB, and a grid with blocks at placers. -/
def withGrid (g : Grid) (tcbs : List (Nat × List Tcb)) : State :=
  ((base.updCore 0 (fun c => { c with waves := [], wgs := [] })).updQcb 96 0 (fun b => { b with
    hyp := BitVec.ofNat 1024 (0x1000000 * 2 ^ 576 + 2 * 2 ^ 560 + 16 * 2 ^ 544 + 2 ^ 486)
    dispatching := some 2 })).updPart 0 (fun p => { p with
      grids := sset none [] 2 (some g)
      tcbs := tcbs })

/-- A grid with an index to place; a placer with a block and a core for it, and without; a placer that can steal; grids that run, that are complete, that are
contained, with and without a cell to signal. -/
theorem witness_DispatchSteps :
    let grid := fun (next placed : Nat) (contained : Option Nat) => (⟨true, 96, 0, 0, 0, launch, next, placed, 0, contained, none⟩ : Grid)
    let fresh := withGrid (grid 0 0 none) []
    let block : Tcb := ⟨0#512, 2, 0, 0⟩
    let placed := withGrid (grid 1 1 none) [(0, [block])]
    let blocked := placed.updCore 0 (fun c => { c with preempt := some 0 })
    let stuck := (List.range 8).foldl (fun (s : State) n => s.updCore n (fun c => { c with preempt := some 0 })) placed
    let done := withGrid (grid 1 0 none) []
    fresh.pickGrid 0 = some (2, grid 0 0 none) ∧ (fresh.freeRecords 96 0 0 1).isSome = true ∧ fresh.clusterTakes 0 0 launch = true ∧
    done.pickGrid 0 = none ∧ placed.partOfSector 0 = some 0 ∧ (placed.part 0).sortTcbs [block] = [block] ∧ (placed.part 0).serves 96 = true ∧
    1 ≤ (placed.roomy 0 launch.need).length ∧ (blocked.roomy 0 launch.need).length = 7 ∧ (stuck.roomy 0 launch.need).length < 1 ∧
    placed.placerReady 0 1 = false ∧ (placed.part 0).duet = none ∧ (placed.part 0).shipped [block] = [block] ∧
    sget none (placed.part 0).grids 2 = some (grid 1 1 none) ∧ sget none (done.part 0).grids 2 = some (grid 1 0 none) ∧
    (done.part 0).cores.filter (fun c => (done.core c).l1.any (fun e => decide (e.2.ctx = ctxOf 96 0) &&
      (decide (e.2.dirty ≠ 0#4) || e.2.unacked))) = [] ∧
    (done.heldAt 8 4 = false ∧ { done with heldWrites := [⟨0, 0, [(8, 1#8)], .engine, 1, 0, [3], none, false, false⟩] }.heldAt 8 4 = true) ∧
    (placed.freeRecords 96 0 0 1).isSome = true ∧
    (match (mapped 1).signal 0 96 8 0 5 with
      | .done t => !t.heldAt 8 4
      | _ => false) = true ∧
    (match { mapped 1 with watches := [⟨0, 3, 0, 8, 8, false⟩] }.signal 0 96 8 0 5 with
      | .done t => t.heldAt 8 4
      | _ => false) = true ∧
    (match { mapped 1 with heldWrites := [⟨0, 0, [(8, 1#8)], .engine, 1, 0, [3], none, false, false⟩] }.signal 0 96 8 0 5 with
      | .wait => true
      | _ => false) = true ∧
    (match ((mapped 1).setHomeBytes 8 (bytesOfNat 0xFFFF000000000000 8)).signal 0 96 8 0 5 with
      | .bad _ _ => true
      | _ => false) = true := by
  decide +kernel

end Sys2Proof.Tests
end

