-- ==== Sys2Proof/Tests/Outside.lean ====
section
/-!
SUPPORT. Witnesses of the hypotheses of the statements about packets, chains, containment, errors, the host, links, addresses, decoding and
whole steps.
-/

set_option Elab.async false
namespace Sys2Proof.Tests
open Sys2Proof.Machine Sys2Proof.Claims

/-! ### Packets and chains -/

/-- A machine without work with the bytes `bs` below 1 MiB, a page table there that maps the first 64 GiB of the physical function with every
permission, and a ring of 16 packets at address 0, of which one is written and not taken. -/
def flat (bs : List (Nat × Byte)) : State := { State.reset with
  powered := true
  mem := bs ++ [(0x100000, 1#8), (0x100002, 0x11#8), (0x110000, 0xDF#8)]
  parts := [(0, { Part.reset with
    sectors := 1#12
    tenantSlots := 1#16
    tenants := [96] })]
  funcs := [(96, { Func.reset with
    feat := 0xFFFFFFFF#128
    queues := [(0, { Qcb.reset with
      hyp := BitVec.ofNat 1024 (0x100000 * 2 ^ 768 + 2 * 2 ^ 560 + 4 * 2 ^ 507 + 2 ^ 486)
      half := BitVec.ofNat 512 (2 ^ 480) })] })] }

/-- The dispatcher takes the packet of the bytes `bs`, whose type is `type`, and `q` holds of it. -/
def takes (bs : List (Nat × Byte)) (type : Nat) (q : State → BitVec 1024 → Bool) : Bool :=
  let s := flat bs
  decide (s.partOfVf 96 = some 0) && decide (s.pickQueue 0 = some (96, 0)) && (match s.readPacket 0 96 0 with
    | .ok x => headerOk x && decide (bitsN x 7 0 = type) && q s x
    | .error _ => false)

/-- Packets of each type that are in order, and that are not. -/
theorem witness_PacketSteps :
    let done := fun (x : SignalRes) => match x with
      | .done _ => true
      | _ => false
    takes [(0, 1)] 1 (fun _ p => decide (bitsN p 1023 32 = 0)) = true ∧ takes [(0, 1), (4, 1)] 1 (fun _ p => decide (bitsN p 1023 32 ≠ 0)) = true ∧
    takes [(0, 3), (5, 8), (16, 1)] 3 (fun s p => decide (bitsN p 1023 130 = 0) && decide (bitsN p 129 128 = 1) &&
      done (s.signal 0 96 (bitsN p 95 32) 1 0)) = true ∧
    takes [(0, 3), (5, 8), (16, 2)] 3 (fun _ p => decide (1 < bitsN p 129 128)) = true ∧
    takes [(0, 4), (5, 8)] 4 (fun s p => decide ((s.qcb 96 0).state ≠ 2) && wrapGe (s.cellWord 0x800).2.2 (bitsN p 127 96)) = true ∧
    takes [(0, 4), (5, 8), (12, 1)] 4 (fun s p => (match s.cellAt 0 96 (bitsN p 95 32) with
      | .ok pa => decide (pa = 0x800)
      | .error _ => false) && !wrapGe (s.cellWord 0x800).2.2 (bitsN p 127 96)) = true := by
  try dsimp only
  (repeat' apply And.intro) <;> decide +kernel

/-- Whether the LAUNCH packet `x`, whose template and bindings can be read, fails. -/
def launchFails (s : State) (x : BitVec 1024) : Option Bool :=
  match s.readVa 96 0 0x400 256, s.readTemplate 0 96 0 with
  | .ok bs, .ok ts =>
    let gs := (bindings bs).set 0 (setBits ((bindings bs).headD 0#128) 59 0 (bitsN x 255 192))
    some (s.launchFail 96 0 x (launchOf x (ssetList 0#128 [] 0 gs) ⟨[], [], []⟩) gs (bindings ts)).isSome
  | _, _ => none

/-- A LAUNCH that passes its checks, one with no wave, one whose `g15` is not executable, ones whose bindings or template cannot be read, and one whose
bindings are not aligned; a ring that is over its size. -/
theorem witness_Launches :
    takes [(0, 2), (8, 1), (12, 1), (14, 1), (17, 4), (44, 1), (45, 6), (46, 4), (0xFF, 0x90), (0x4FF, 0x90)] 2 (fun s x => launchFails s x == some false &&
      decide (bitsN x 191 128 % 16 = 0) && !s.duetDiffers 96 0) = true ∧
    takes [(0, 2), (8, 1), (12, 1), (14, 1), (17, 4), (45, 6), (46, 4), (0xFF, 0x90), (0x4FF, 0x90)] 2 (fun s x => launchFails s x == some true) = true ∧
    takes [(0, 2), (8, 1), (12, 1), (14, 1), (17, 4), (44, 1), (45, 6), (46, 4)] 2 (fun s x => launchFails s x == some true) = true ∧
    takes [(0, 2), (20, 16)] 2 (fun s x => (match s.readVa 96 0 (bitsN x 191 128) 256 with
      | .ok _ => false
      | .error _ => true)) = true ∧
    takes [(0, 2), (17, 4)] 2 (fun s x => (match s.readVa 96 0 (bitsN x 191 128) 256,
        (s.updQcb 96 0 (fun b => { b with hyp := setBits b.hyp 703 640 (2 ^ 36) })).readTemplate 0 96 0 with
      | .ok _, .error _ => true
      | _, _ => false)) = true ∧
    takes [(0, 2), (16, 1), (17, 4)] 2 (fun _ x => decide (bitsN x 191 128 % 16 ≠ 0)) = true ∧
    (let s := (flat []).updQcb 96 0 (fun b => { b with half := setBits b.half 511 480 17 })
     2 ^ bitsN (s.qcb 96 0).hyp 511 507 < ((s.qcb 96 0).write + 2 ^ 32 - (s.qcb 96 0).read) % 2 ^ 32 ∧ (s.qcb 96 0).state ≠ 4) := by
  (repeat' apply And.intro) <;> decide +kernel

/-- A MAP of a granted page of 64 GiB and of a reserved size; an UNMAP of a mapped page; accesses that have drained. -/
theorem witness_Maps :
    takes [(0, 5), (8, 16), (12, 1), (20, 16), (24, 6)] 5 (fun s p =>
      let s := s.updFunc 96 (fun f => { f with grants := [(2 ^ 36, 2 ^ 36)] })
      s.firmware && decide (bitsN p 1023 203 = 0) && decide (bitsN p 194 192 = 6) && decide (bitsN p 197 196 ≠ 3) && decide (bitsN p 95 32 = 2 ^ 36) &&
        (s.func 96).granted (bitsN p 191 128) (pageShape 6).1 && (s.leafAt 96 (2 ^ 36) 2).any (fun a => (s.readPte a).any (fun e => !e.getLsbD 0))) = true ∧
    takes [(0, 5), (8, 16), (12, 1), (20, 16), (24, 7)] 5 (fun _ p => decide (bitsN p 194 192 = 7)) = true ∧
    takes [(0, 5), (8, 16), (12, 1), (20, 16), (24, 6)] 5 (fun s p => !(s.func 96).granted (bitsN p 191 128) (pageShape 6).1) = true ∧
    takes [(0, 5), (8, 0), (12, 1), (20, 16), (24, 6)] 5 (fun s _ => (s.leafAt 96 0 2).any (fun a => (s.readPte a).any (fun e => e.getLsbD 0))) = true ∧
    takes [(0, 6), (12, 1), (24, 6)] 6 (fun s p => s.firmware && decide ((s.qcb 96 0).drain = []) && decide (bitsN p 1023 196 = 0) &&
      decide (bitsN p 191 128 = 0) && decide (bitsN p 194 192 = 6) && decide (bitsN p 95 32 % (pageShape 6).1 = 0) && (s.leafAt 96 0 2).isSome) = true ∧
    takes [(0, 6), (12, 1), (24, 22)] 6 (fun _ p => decide (bitsN p 1023 196 ≠ 0)) = true ∧ base.rangeQuiet 0 4096 = true := by
  dsimp only
  (repeat' apply And.intro) <;> decide +kernel

/-- A SIGNAL and an UNMAP that have been taken and wait for the release of what they wrote: still held, and released. -/
theorem witness_Drains :
    let waits := fun (type : Nat) => (flat []).updQcb 96 0 (fun b => { b with
      started := [⟨0, BitVec.ofNat 1024 type, none, false, false⟩]
      drain := [(8, 4)] })
    let held := fun (s : State) => { s with heldWrites := [⟨0, 0, [(8, 1#8)], .engine, 1, 0, [3], none, false, false⟩] }
    (∀ type ∈ [3, 6], (((waits type).qcb 96 0).started.map (fun x => bitsN x.bits 7 0) = [type] ∧ (waits type).partOfVf 96 = some 0 ∧
      (waits type).heldAt 8 4 = false ∧ (held (waits type)).heldAt 8 4 = true)) ∧
    ((waits 6).trimDrops 0).unmapQuiet 0 96 [(8, 4)] = true ∧
    (((waits 6).updPart 0 (fun p => { p with trims := [⟨0, 0, 4096, 8, 4, 0, 96, 0⟩] })).unmapQuiet 0 96 [(8, 4)]) = false := by
  decide +kernel

/-- Chain 5 with its descriptor at 0x600 and one entry, of the bytes `e` from 0x700 on, with `offset` bytes of it done; `waiting` for the
release of its last write. -/
def chained (e : List (Nat × Byte)) (offset : Nat) (waiting : Bool) : State :=
  (flat ([(0x62C, 1#8), (0x636, 0xA0#8), (0x637, 8#8), (0x639, 7#8)] ++ e)).updPart 0 (fun p => { p with
    chains := [⟨5, 0, 96, ctxOf 96 0, 0x600, false, offset, waiting⟩] })

/-- The chain works on its entry, whose operation is `opc`, and `q` holds of the state with its leaves accessed. -/
def worksIn (s : State) (opc : Nat) (q : State → BitVec 512 → Bool) : Bool :=
  (s.chain 0 5).any (fun x => !x.stopped && !s.seqHeld 0 x && (match s.chainDesc 0 x with
    | .ok d => decide (bitsN d 351 320 = 0) && decide (bitsN d 383 352 = 1) && (match s.readVa x.vf 0 (bitsN d 511 448) 64 with
      | .ok bs => entryOk (BitVec.ofNat 512 (natOfBytes bs)) && decide (natOfBytes bs % 256 = opc) &&
        q ((s.touchLeaf x.vf x.desc false).touchLeaf x.vf (bitsN d 511 448) false) (BitVec.ofNat 512 (natOfBytes bs))
      | .error _ => false)
    | .error _ => false))

/-- The same of a chain that does not wait. -/
def works (e : List (Nat × Byte)) (offset opc : Nat) (q : State → BitVec 512 → Bool) : Bool := worksIn (chained e offset false) opc q

/-- Entries of each operation; the last unit of a copy and the step after it; a source and a destination that are not mapped; a unit and a signal that a
watch holds; entries that wait for a release that has and has not come. -/
theorem witness_ChainSteps :
    let data : List (Nat × Byte) := [(0x709, 8), (0x710, 0x40), (0x711, 8), (0x718, 64)]
    let unit := fun (s : State) (va : Nat) => match s.engineUnit 0 96 va with
      | .ok _ => true
      | .error _ => false
    let held := fun (s : State) => { s with heldWrites := [⟨0, 0, [(0x840, 1#8)], .engine, 1, 0, [3], none, false, false⟩] }
    let stores := fun (s : State) (va : Nat) => match s.engineTranslate 96 0 va .store with
      | .ok pa _ => decide (pa = va)
      | _ => false
    works ((0x700, 1) :: data) 0 1 (fun s e => decide (0 < bitsN e 255 192) && unit s 0x800 && stores (s.touchLeaf 96 0x800 false) 0x840) = true ∧
    works ((0x700, 1) :: data) 64 1 (fun _ e => decide (bitsN e 255 192 ≤ 64)) = true ∧
    worksIn (chained ((0x700, 1) :: data) 0 true) 1 (fun s _ => stores s 0x840 && !s.heldAt 0x840 64) = true ∧
    worksIn (held (chained ((0x700, 1) :: data) 0 true)) 1 (fun s _ => stores s 0x840 && s.heldAt 0x840 64) = true ∧
    works [(0x700, 1), (0x70C, 16), (0x718, 64)] 0 1 (fun s e => decide (bitsN e 127 64 = 2 ^ 36) && !unit s (2 ^ 36)) = true ∧
    works ((0x700, 2) :: (0x701, 5) :: data) 0 2 (fun s _ => unit s 0x800 && unit (s.touchLeaf 96 0x800 false) 0x840) = true ∧
    works [(0x700, 2), (0x701, 5), (0x70C, 16), (0x711, 8), (0x718, 64)] 0 2 (fun s _ => !unit s (2 ^ 36)) = true ∧
    works [(0x700, 2), (0x701, 5), (0x709, 8), (0x714, 16), (0x718, 64)] 0 2 (fun s _ => unit s 0x800 && !unit (s.touchLeaf 96 0x800 false) (2 ^ 36)) = true ∧
    works ((0x700, 3) :: (0x701, 10) :: data) 0 3 (fun s _ => decide (s.groups = [])) = true ∧
    worksIn { chained ((0x700, 3) :: (0x701, 10) :: data) 0 false with groups := [(0, [0, 7])] } 3 (fun t _ =>
      t.hasFeat 96 9 && [0, 7].contains t.package && (match t.engineUnits 0 96 0x800 1 with
        | .ok bs => decide (bs.length = 64)
        | .error _ => false)) = true ∧
    works [(0x700, 4), (0x720, 0x80), (0x721, 8), (0x728, 9)] 0 4 (fun s e => decide (bitsN e 351 320 = 9) && (match s.signal 0 96 0x880 0 9 with
      | .done t => !t.heldAt (s.cellOf 0 96 0x880) 4
      | _ => false)) = true ∧
    worksIn { chained [(0x700, 4), (0x720, 0x80), (0x721, 8), (0x728, 9)] 0 false with watches := [⟨0, 3, 0, 0x880, 8, false⟩] } 4 (fun s _ =>
      (match s.signal 0 96 0x880 0 9 with
        | .done t => t.heldAt (s.cellOf 0 96 0x880) 4
        | _ => false)) = true ∧
    works [(0x700, 4), (0x724, 16)] 0 4 (fun s e => decide (bitsN e 319 256 = 2 ^ 36) && (match s.signal 0 96 (2 ^ 36) 0 0 with
      | .bad _ _ => true
      | _ => false)) = true ∧
    works [(0x700, 5), (0x720, 0x80), (0x721, 8)] 0 5 (fun s _ => match s.cellAt 0 96 0x880 with
      | .ok _ => true
      | .error _ => false) = true ∧
    works [(0x700, 5), (0x724, 16)] 0 5 (fun s _ => match s.cellAt 0 96 (2 ^ 36) with
      | .ok _ => false
      | .error _ => true) = true ∧
    stores (chained [] 0 false) 0x628 = true := by
  try dsimp only
  (repeat' apply And.intro) <;> decide +kernel

/-! ### Containment, errors, the host -/

/-- A contained workgroup whose wave is at a precise point and one whose is not; a record to post; a context to kill; a saved workgroup to restore; partitions that
serve and that are contained; the second and the third missed heartbeat; a failover. -/
theorem witness_ContainmentSteps :
    let contained := (base.updPart 0 (fun p => { p with sectors := 1#12 })).updWg 0 0 (fun g => { g with contained := some 0#512 })
    let posting := { base with postings := [⟨96, 0#512⟩] }
    let saved : Option Saved := (base.wg 0 0).map (fun g => ⟨true, g, [], [], [], [], [], [], []⟩)
    let restorable := (base.updCore 0 (fun c => { c with wgs := [], waves := [] })).updPart 0 (fun p => { p with saved := saved.toList })
    let stopped := base.updPart 0 (fun p => { p with health := .contained 0x10 })
    let calm := fun (s : State) => ((s.wavesOf 0 0).foldl (fun (s : State) e => s.updWave e.1 (fun w => { w with
      slice := none
      ladderFail := none })) s).cancelMoves 0 0 0
    let quiet := fun (s : State) (p : State → Workgroup → Bool) => (s.wg 0 0).any (fun g => g.contained.isSome && (s.wavesOf 0 0).all (fun e => e.2.precise) && p (calm s) g)
    let tile := contained.updDir 0 255 (fun _ => ⟨5, ctxOf 96 0, false, 0, 64, .valid, 0, 0⟩)
    let other := base.updPart 0 (fun p => { p with slice := some (3, 5) })
    quiet contained (fun t g => !t.containBusy 0 0 g && !t.tileBusy 0 0 && decide ((t.core 0).dirs = [])) = true ∧
    quiet tile (fun t g => !t.containBusy 0 0 g && (t.core 0).dirs.any (fun d => decide (d.2.wg = 0) && decide (d.2.state ≠ .free))) = true ∧
    quiet (contained.updWg 0 0 (fun g => { g with channels := sset Channel.fresh [] 0 ⟨0#32, [⟨0, 0, 0#32, 0, 0, 0, 64, none⟩]⟩ }))
      (fun t g => t.containBusy 0 0 g) = true ∧ (other.part 0).slice = some (3, 5) ∧ (restorable.core 0).preempt = none ∧
    ((wave contained (fun v => { v with lastMarked := false })).wavesOf 0 0).any (fun e => !e.2.precise) = true ∧
    ((base.wg 0 0).any (fun g => decide (g.contained = none))) = true ∧
    posting.postings = [⟨96, 0#512⟩] ∧ posting.complexUp = true ∧ posting.partOfVf 96 = some 0 ∧ posting.partOfVf 3 = none ∧
    base.partOfVf (ctxVf (ctxOf 96 0)) = some 0 ∧
    (saved.any (fun x => match restorable.restore 0 x 0 with
      | .done _ => decide ((restorable.part 0).slice = none) && (restorable.part 0).cores.contains 0
      | _ => false)) = true ∧
    (base.part 0).health = .serving ∧ (base.part 0).sectors ≠ 0#12 ∧ (stopped.part 0).health = .contained 0x10 ∧ stopped.firmware = true ∧
    (stopped.part 0).sectors &&& stopped.failedSectors = 0#12 ∧ base.packageContained = false ∧ { base with missed := 1 }.missed < 2 ∧
    2 ≤ { base with missed := 2 }.missed ∧ base.activeB = false ∧ base.complexB.ok = true := by
  try dsimp only
  (repeat' apply And.intro) <;> decide +kernel

/-- Frozen quotas and an interval that ends; readings at and below the limits of the temperatures. -/
theorem witness_ErrorSteps :
    let frozen := base.updPart 0 (fun p => { p with frozen := true })
    let t := fun (xs : List (BitVec 16)) (i : Nat) => (xs.getD i 0#16).toInt
    (frozen.part 0).frozen = true ∧ (base.part 0).frozen = false ∧ (base.part 0).tenants.length ≠ 0 ∧
    (base.part 0).sectors.getLsbD (383 / 32) = true ∧ base.partOfSector (base.canon (2 ^ 44 - 1) / 64 * 64 / Config.sectorBytes) = none ∧
    800 ≤ t [800#16] 0 ∧ t [800#16] 1 < 880 ∧ t [759#16] 0 < 760 ∧ 760 ≤ t [0#16, 0#16, 0#16, 0#16, 760#16] 4 ∧
    ([1, 2] : List Nat) ≠ [] := by
  try dsimp only
  (repeat' apply And.intro) <;> decide +kernel

/-- A timer that has run; triggers; a session of the debug function; waves to stop, that are stopped, and responders; a link to no partition. -/
theorem witness_HostSteps :
    let timed := { base.updPart 0 (fun p => { p with timer := 100 }) with clk := 100 }
    let session := (base.updFunc 97 (fun f => { f with spdm := { f.spdm with sessions := [4] } })).updFunc 96 (fun f => { f with debugAuth := some 4 })
    let attached := base.updFunc 96 (fun f => { f with debugAttached := true })
    let halted := wave attached (fun v => { v with stopped := true })
    (timed.part 0).timer ≠ 0 ∧ (timed.part 0).timerFrom + (timed.part 0).timer ≤ timed.clk ∧ (base.part 0).timer = 0 ∧
    (base.part (bitsN (0x00050000#32 : Word) 3 0)).sectors ≠ 0#12 ∧ bitsN (0x0005000F#32 : Word) 3 0 = 15 ∧
    (session.func 96).debugAuth = some 4 ∧ 4 ∈ (session.func 97).spdm.sessions ∧ (session.part 0).duet = none ∧
    (attached.func 96).debugAttached = true ∧ ofWave attached (fun w => decide (w.resp = none) && !w.stopped && decide (w.exited ≠ 0xFFFFFFFF#32)) = true ∧
    ofWave halted (fun w => w.stopped) = true ∧ base.firmware = true ∧ 0xFF8 % 8 = 0 ∧ 0x44F8 < 0x4500 := by
  try dsimp only
  (repeat' apply And.intro) <;> decide +kernel

/-- A request that the firmware serves. -/
theorem served (r : MailReq) (opcode : Nat) (h : r.vf = 96 ∧ r.target ≤ 96 ∧ ∃ x, Request r x ∧ x.2.1 = opcode ∧
    Nat.land r.arg.toNat x.2.2.2.1 = r.arg.toNat ∧ x.2.2.2.2 r.payload.length = true) : Served base r opcode := by
  obtain ⟨h1, h2, x, h3, h4, h5, h6⟩ := h
  refine ⟨by omega, by decide +kernel, ?_, x, h3, h4, fun _ => h1, h5, h6⟩
  simp [subject, h1, h2]

/-- The mailbox of the physical function after a request with the low half `v` of its header was written and submitted. -/
def submitted (v : Dword) : State := (base.registerWrite 96 0 v).registerWrite 96 0x2000 1#64

/-- No request submitted; FAULT_READ with TAG 7; an OPCODE that no row has; a LENGTH that is no multiple of 8. -/
theorem clauses_Submitted :
    let m := fun (v : Dword) => ((submitted v).func 96).mailbox
    let good := 0x0005000000076000#64
    (base.func 96).mailbox.busy = false ∧ (m good).busy = true ∧ (m good).taken 96 = ⟨96, 96, 0#64, 7#16, []⟩ ∧
    bitsN (m good).header 63 48 = 5 ∧ bitsN (m good).header 47 32 = 0 ∧ (m 0x0006000000076000#64).copy ≠ [] ∧
    bitsN (m 0x0020000000076000#64).header 63 48 = 32 ∧ bitsN (m 0x0005000400076000#64).header 47 32 = 4 ∧
    (submitted good).firmware = true := by
  decide +kernel

/-- Each request of R404 is served, with a payload of a length it admits. -/
theorem witness_MailboxRequests : ∀ p ∈ [(0x0001, 16), (0x0002, 0), (0x0003, 0), (0x0004, 0), (0x0005, 0), (0x0006, 0), (0x0007, 0), (0x0008, 0), (0x0009, 0), (0x000A, 0),
    (0x000B, 0), (0x000C, 0), (0x000D, 64), (0x000E, 0), (0x000F, 0), (0x0010, 0), (0x0011, 0), (0x0100, 128), (0x0101, 0), (0x0102, 16), (0x0103, 16), (0x0104, 8),
    (0x0105, 8), (0x0106, 8), (0x0107, 8), (0x0108, 144), (0x0109, 8), (0x010A, 4080), (0x010B, 0), (0x010C, 0), (0x010D, 0)],
    Served base ⟨96, 96, 0#64, 0#16, List.replicate p.2 0#8⟩ p.1 := by
  simp only [List.forall_mem_cons, List.not_mem_nil, false_implies, implies_true, and_true]
  exact ⟨served _ _ ⟨rfl, by decide, _, List.mem_of_getElem? (i := 0) rfl, rfl, by decide, by decide +kernel⟩,
    served _ _ ⟨rfl, by decide, _, List.mem_of_getElem? (i := 1) rfl, rfl, by decide, by decide +kernel⟩,
    served _ _ ⟨rfl, by decide, _, List.mem_of_getElem? (i := 2) rfl, rfl, by decide, by decide +kernel⟩,
    served _ _ ⟨rfl, by decide, _, List.mem_of_getElem? (i := 3) rfl, rfl, by decide, by decide +kernel⟩,
    served _ _ ⟨rfl, by decide, _, List.mem_of_getElem? (i := 4) rfl, rfl, by decide, by decide +kernel⟩,
    served _ _ ⟨rfl, by decide, _, List.mem_of_getElem? (i := 5) rfl, rfl, by decide, by decide +kernel⟩,
    served _ _ ⟨rfl, by decide, _, List.mem_of_getElem? (i := 6) rfl, rfl, by decide, by decide +kernel⟩,
    served _ _ ⟨rfl, by decide, _, List.mem_of_getElem? (i := 7) rfl, rfl, by decide, by decide +kernel⟩,
    served _ _ ⟨rfl, by decide, _, List.mem_of_getElem? (i := 8) rfl, rfl, by decide, by decide +kernel⟩,
    served _ _ ⟨rfl, by decide, _, List.mem_of_getElem? (i := 9) rfl, rfl, by decide, by decide +kernel⟩,
    served _ _ ⟨rfl, by decide, _, List.mem_of_getElem? (i := 10) rfl, rfl, by decide, by decide +kernel⟩,
    served _ _ ⟨rfl, by decide, _, List.mem_of_getElem? (i := 11) rfl, rfl, by decide, by decide +kernel⟩,
    served _ _ ⟨rfl, by decide, _, List.mem_of_getElem? (i := 12) rfl, rfl, by decide, by decide +kernel⟩,
    served _ _ ⟨rfl, by decide, _, List.mem_of_getElem? (i := 13) rfl, rfl, by decide, by decide +kernel⟩,
    served _ _ ⟨rfl, by decide, _, List.mem_of_getElem? (i := 14) rfl, rfl, by decide, by decide +kernel⟩,
    served _ _ ⟨rfl, by decide, _, List.mem_of_getElem? (i := 15) rfl, rfl, by decide, by decide +kernel⟩,
    served _ _ ⟨rfl, by decide, _, List.mem_of_getElem? (i := 16) rfl, rfl, by decide, by decide +kernel⟩,
    served _ _ ⟨rfl, by decide, _, List.mem_of_getElem? (i := 17) rfl, rfl, by decide, by decide +kernel⟩,
    served _ _ ⟨rfl, by decide, _, List.mem_of_getElem? (i := 18) rfl, rfl, by decide, by decide +kernel⟩,
    served _ _ ⟨rfl, by decide, _, List.mem_of_getElem? (i := 19) rfl, rfl, by decide, by decide +kernel⟩,
    served _ _ ⟨rfl, by decide, _, List.mem_of_getElem? (i := 20) rfl, rfl, by decide, by decide +kernel⟩,
    served _ _ ⟨rfl, by decide, _, List.mem_of_getElem? (i := 21) rfl, rfl, by decide, by decide +kernel⟩,
    served _ _ ⟨rfl, by decide, _, List.mem_of_getElem? (i := 22) rfl, rfl, by decide, by decide +kernel⟩,
    served _ _ ⟨rfl, by decide, _, List.mem_of_getElem? (i := 23) rfl, rfl, by decide, by decide +kernel⟩,
    served _ _ ⟨rfl, by decide, _, List.mem_of_getElem? (i := 24) rfl, rfl, by decide, by decide +kernel⟩,
    served _ _ ⟨rfl, by decide, _, List.mem_of_getElem? (i := 25) rfl, rfl, by decide, by decide +kernel⟩,
    served _ _ ⟨rfl, by decide, _, List.mem_of_getElem? (i := 26) rfl, rfl, by decide, by decide +kernel⟩,
    served _ _ ⟨rfl, by decide, _, List.mem_of_getElem? (i := 27) rfl, rfl, by decide, by decide +kernel⟩,
    served _ _ ⟨rfl, by decide, _, List.mem_of_getElem? (i := 28) rfl, rfl, by decide, by decide +kernel⟩,
    served _ _ ⟨rfl, by decide, _, List.mem_of_getElem? (i := 29) rfl, rfl, by decide, by decide +kernel⟩,
    served _ _ ⟨rfl, by decide, _, List.mem_of_getElem? (i := 30) rfl, rfl, by decide, by decide +kernel⟩⟩

/-- States in which the requests act: queues in each state, records, events and quota events that wait, chains, a session, grants, groups, a partition without work. -/
theorem witness_RequestStates :
    let queue := fun (st : Nat) => base.updQcb 96 0 (fun b => { b with
      hyp := BitVec.ofNat 1024 (2 ^ 486)
      half := BitVec.ofNat 512 (st * 2 ^ 381) })
    let event : QuotaEvent := ⟨0x10000, 0, 0, 0, 96, false, 0, false, false⟩
    let empty := (base.updCore 0 (fun c => { c with wgs := [], waves := [] }))
    let hyp := BitVec.ofNat 1024 (2 ^ 560 + 4 * 2 ^ 507 + 96 * 2 ^ 497)
    (∀ st ∈ [0, 1, 2, 3, 4], ((queue st).qcb 96 0).hyp ≠ 0#1024 ∧ ((queue st).qcb 96 0).state = st) ∧
    base.holdsWork 96 = true ∧ empty.holdsWork 96 = false ∧ empty.ctxWork (ctxOf 96 0) = false ∧ base.offered 96 = 0#128 ∧
    ([event].find? (fun e => !e.read)) = some event ∧ (mapped 0).mapRefused ((mapped 0).poolOf 96) = some 0 ∧
    ((chained [] 0 false).chainAt 96 0x600).isSome = true ∧ hypOk hyp 96 0 = true ∧ hypOk (hyp + 1) 96 0 = false ∧
    base.partOfVf 3 = none ∧ (base.part 0).tenants.length < 16 ∧ 96 ∈ (base.part 0).tenants ∧
    (∀ i ∈ List.range 12, empty.sectorWork i = false) ∧ empty.partWork 0 = false ∧ rising [0, 143] = true ∧ rising [5, 5] = false ∧
    (∀ i ∈ List.range 12, (0xFFF#12).getLsbD i = true → empty.sectorWork i = false ∧ empty.partOfSector i = some 0) ∧ 0xFFF#12 &&& empty.failedSectors = 0#12 ∧
    (let d : Duet := ⟨7, 0, [], [], []⟩
     let joined := empty.updPart 0 (fun p => { p with duet := some d })
     joined.partWork 0 = false ∧ (joined.part 0).duet = some d) ∧
    (let up := { empty with
       ports := sset Port.reset (sset Port.reset [] 16 { Port.reset with enabled := true }) 17 { Port.reset with enabled := true }
       funcs := [(96, { Func.reset with feat := 0xFFFFFFFF#128 })] }
     up.portLive 16 = true ∧ up.portLive 17 = true ∧ (up.part 0).duet = none ∧ (up.part 0).tenants = [96] ∧ up.hasFeat 96 10 = true ∧
       (up.func 96).debugAttached = false ∧ 7 ≠ up.package) ∧
    (mapped 0).partOfSector ((mapped 0).canon ((mapped 0).poolOf 96) / Config.sectorBytes) ≠ none ∧
    (base.part 0).snap = none ∧ base.isLocal 0 = true ∧ base.canon 0 + 12 * Config.sectorBytes ≤ 12 * Config.sectorBytes := by
  try dsimp only
  (repeat' apply And.intro) <;> decide +kernel

/-- Ports that are live and that are not, with flits to resend, before and after the timeout; duets before and at the end of a window, in step and two windows
behind; slots that a source waits for, occupied and reserved, by a crossbar and by a bridge. -/
theorem witness_LinkSteps :
    let port := fun (p : Port) => { base with ports := sset Port.reset [] 3 p }
    let live := port { Port.reset with enabled := true, up := true, expect := 5, unacked := [(1, 0), (2, 0)] }
    let duet := fun (d : Duet) (n : Nat) => { base.updPart 0 (fun p => { p with duet := some d }) with clk := n }
    let d : Duet := ⟨7, 0, [], [(0, [])], [0#256]⟩
    let behind : Duet := ⟨7, 2, [], [(0, [])], []⟩
    let msg : RingMsg := ⟨0, 3, 1, 0, []⟩
    let waits := fun (source : Nat) (m : Option RingMsg) (reserved : Option Nat) => { base with
      clk := 64
      fabric := [⟨.source 3 1 source, 0, msg⟩]
      rings := sset RingSlot.empty [] (slotKey 3 1 (slotAt 1 (if 3 < source then 3 else source) 64)) ⟨some 0, m, reserved⟩ }
    let slot := fun (s : State) (stop : Nat) => sget RingSlot.empty s.rings (slotKey 3 1 (slotAt 1 stop s.clk))
    let others := fun (s : State) (stop : Nat) => (List.range 8).all (fun i => match (sget RingSlot.empty s.rings (slotKey 3 1 i)).reserved with
      | some x => decide ((if 3 < x then 3 else x) ≠ stop)
      | none => true)
    live.portLive 3 = true ∧ base.portLive 3 = false ∧ (sget Port.reset live.ports 3).unacked ≠ [] ∧ live.clk < 0 + 512 ∧ 0 + 512 ≤ { live with clk := 512 }.clk ∧
    (sget Port.reset base.ports 3).enabled = false ∧ (List.range 18).all (fun m => decide (m = 3) || !live.portLive m) = true ∧
    ((duet d 2048).part 0).duet = some d ∧ (duet d 2047).clk < (d.window + 1) * 2048 ∧ (d.window + 1) * 2048 ≤ (duet d 2048).clk ∧ d.window < 0 + 2 ∧
    0 + 2 ≤ behind.window ∧
    (∀ source ∈ [0, 5], ∀ stop ∈ [if 3 < source then 3 else source], ((waits source (some msg) none).waitingAt 3 1 source 0).isSome = true ∧
      slot (waits source (some msg) none) stop = ⟨some 0, some msg, none⟩ ∧ others (waits source (some msg) none) stop = true ∧
      slot (waits source none (some source)) stop = ⟨some 0, none, some source⟩) ∧
    slot (waits 0 none (some 5)) 0 = ⟨some 0, none, some 5⟩ ∧ base.carried (.store [(0, 1#8)] false) = true ∧
    base.carried (.store [(2 ^ 44, 1#8)] false) = false ∧ base.isRemote (2 ^ 44) = true := by
  try dsimp only
  (repeat' apply And.intro) <;> decide +kernel

/-- A digest that agrees and one that does not. -/
theorem witness_Digests (b : List (Nat × Byte)) : windowDigest b = windowDigest b ∧ windowDigest b ≠ windowDigest b ^^^ 1#256 := by
  refine ⟨rfl, fun h => ?_⟩
  have := congrArg (fun x : BitVec 256 => x.getLsbD 0) h
  simp at this

/-! ### Addresses, decoding, whole steps -/

/-- The segment of the probe at its ends: below 0, past the limit, the last access within it; without the permission; not aligned. Local accesses at
the end of an allocation. Lanes that pass and that fail. A tile of 32 rows at its ends. -/
theorem witness_AddressChecks :
    let g := probeSeg
    let readOnly := setBits probeSeg 125 125 0
    segCheck g (-1) 4 4 .load = .error ⟨0x0A, 0, 2 ^ 64 - 1⟩ ∧ segCheck g 4093 4 4 .load = .error ⟨0x0A, 0, 4093⟩ ∧
    segCheck g 4092 4 4 .load = .ok 4092 ∧ segCheck g 0 4 4 .store = .ok 0 ∧ segCheck 0#128 0 4 4 .load = .error ⟨0x0A, 0, 0⟩ ∧
    segCheck readOnly 0 4 4 .store = .error ⟨0x0E, 5, 0⟩ ∧ segCheck readOnly 2 4 4 .store = .error ⟨0x0E, 5, 2⟩ ∧
    segCheck g 4091 4 4 .load = .error ⟨0x0C, 0, 4091⟩ ∧
    localCheck 64 1 60 4 = none ∧ localCheck 64 1 61 4 = some ⟨0x0B, 0, 61 + 2 ^ 60⟩ ∧ localCheck 64 1 58 4 = some ⟨0x0C, 0, 58 + 2 ^ 60⟩ ∧
    localCheck 64 1 0 4 = none ∧ (4 * skewWord 0 0 = 0) ∧ 4 * skewWord 0 (128 * 31 + 127) + 3 < 4096 := by
  try dsimp only
  (repeat' apply And.intro) <;> decide +kernel

/-- Reserved major opcodes at the ends of their ranges, and reserved half-ops, decode to no instruction. -/
theorem witness_DecodedWordsEncode :
    (∀ op ∈ [0x14, 0x1F, 0x4B, 0x4F, 0x79, 0x7F, 0x88, 0x8F, 0x97, 0x9F, 0xBB, 0xBC, 0xBE, 0xBF, 0xCB, 0xCF, 0xDC, 0xDF, 0xE6, 0xE7, 0xFA, 0xFF],
      decode (BitVec.ofNat 64 (op * 2 ^ 54)) = .reject 0x01 1) ∧
    decode (BitVec.ofNat 64 (2 ^ 62 + 0x18 * 2 ^ 55)) = .reject 0x01 2 ∧ decode (BitVec.ofNat 64 (2 ^ 62 + 0x18 * 2 ^ 24)) = .reject 0x01 2 ∧
    (∀ op ∈ [0x13, 0x20, 0x4A, 0x50, 0x78, 0x80, 0x87, 0x90, 0x96, 0xA0, 0xBD, 0xCA, 0xD0, 0xDB, 0xE0, 0xE5, 0xE8, 0xF9],
      decode (BitVec.ofNat 64 (op * 2 ^ 54)) ≠ .reject 0x01 1) := by
  try dsimp only
  (repeat' apply And.intro) <;> decide +kernel

/-- A step with an offered step, one that fetches a word, one that fetches no instruction, one whose fetch fails, one that fills register lines first, and the end
of a cycle; each answers a next state. A fetch that misses, one that hits the decoded words, one that hits the instruction cache, and one of a POISONED sector. -/
theorem witness_StepRunsDecoded :
    let i := Instr.mov (rWord 4 5 0 0 0x1000)
    let s := probe i
    let bad := State.reset.withFetchWord 64 (0x14 * 2 ^ 54)
    let lost := s.updWg 0 0 (fun g => { g with segs := [] })
    let empty := wave s (fun v => { v with prefilled := false })
    let at' := fun (s : State) => ({ s with cur := w0, issued := s.issued ++ [4 * w0.core + w0.sched] }).windowStart w0
    let fetched := fun (s : State) (p : Except Raise Dword → Bool) => !(at' s).needsPrefill w0 && p ((at' s).fetchHead w0).1
    let next := fun (x : Host.Outcome State Fault Refusal) => match x with
      | .next _ => true
      | _ => false
    let fetch := fun (s : State) (p : State → Nat → Bool) => (s.wave w0).any (fun w => (s.wg 0 w.wg).any (fun g => w.headRun.any (fun h =>
      w.codeSeg.isNone && (match segCheck (sget 0#128 w.segs 15) (8 * h.1.toNat) 8 8 .fetch with
        | .ok va => match s.translate 0 g.vf g.part false true va .fetch with
          | (.ok pa _, u) => p (u.touch 0 g.vf va false) pa
          | _ => false
        | .error _ => false))))
    let miss := fun (v : State) (pa : Nat) => decide (sget none (v.core 0).decoded (v.canon pa / 8) = none) && decide (sget none (v.core 0).icache (v.canon pa / 8) = none)
    let holding := fun (f : Nat → Core → Core) => match s.fetchHead w0 with
      | (.ok _, u) => u.updCore 0 (fun c => f ((c.icache.map (fun e => e.1)).headD 0) { c with decoded := [], icache := [] })
      | _ => s
    s.agenda = [] ∧ s.nextWave = some w0 ∧ fetched s (fun x => match x with
      | .ok x => decide (decode x = .instr i)
      | _ => false) = true ∧
    fetched bad (fun x => match x with
      | .ok x => decide (decode x = .reject 0x01 1)
      | _ => false) = true ∧
    fetched lost (fun x => match x with
      | .ok _ => false
      | .error _ => true) = true ∧
    (at' empty).needsPrefill w0 = true ∧
    next (step s) = true ∧ next (step bad) = true ∧ next (step lost) = true ∧ next (step empty) = true ∧ next (step { s with agenda := [.heartbeat true] }) = true ∧
    State.reset.nextWave = none ∧ next (step State.reset) = true ∧ Memory.wf s.mem = true ∧
    fetch (s.updCore 0 (fun c => { c with decoded := [], icache := [] })) (fun v pa => miss v pa && !v.poisoned pa) = true ∧
    fetch { s.updCore 0 (fun c => { c with decoded := [], icache := [] }) with poison := (List.range 64).map (fun n => (n, true)) } (fun v pa => miss v pa && v.poisoned pa) = true ∧
    fetch (holding (fun a c => { c with decoded := [(a, some 1#64)] })) (fun v pa => decide (sget none (v.core 0).decoded (v.canon pa / 8) = some 1#64)) = true ∧
    fetch (holding (fun a c => { c with icache := [(a, some 1#64)] })) (fun v pa => decide (sget none (v.core 0).decoded (v.canon pa / 8) = none) &&
      decide (sget none (v.core 0).icache (v.canon pa / 8) = some 1#64)) = true := by
  try dsimp only
  (repeat' apply And.intro) <;> decide +kernel

/-- Words of registers and stores run: their next states are the ones the frames speak of. -/
theorem witness_Frames :
    let next := fun (i : Instr) => match exec i (probe i) with
      | .next _ => true
      | _ => false
    next (.iadd (rWord 4 5 6 0 0x1400)) = true ∧ next (.fadd (rWord 4 5 6 0 0x2800)) = true ∧ next (.icmp (rWord 4 5 6 0 0x1400)) = true ∧
    next (.iaddi ⟨false, 4#9, 5#9, 0#4, 7#32⟩) = true ∧ next (.hiaddi false ⟨4#8, 9#8, 0xFF#8⟩ ⟨.not, ⟨5#8, 6#8, 0#8⟩⟩) = true ∧
    next (.stSp ⟨false, 4#9, 8#8, 0#4, 0#4, 8#5, 0#24⟩) = true ∧ next (.stG (mWord 4 4 8 0x40)) = true ∧
    (let w := mWord 4 4 8 0x40
     let stores := fun (s : State) (p : State → LaneAcc × Bool → Bool) => clause (.stG w) s (fun c t => !c.wave.blocked && decide (c.wave.flights = []) &&
       decide (c.wave.deferred = none) && decide (c.wg.live = []) && (match t.access c false (onceFor w) .store (globalAddrs c w w.imm.toInt (onceFor w) 4 .store) with
         | .ready accs u => accs.all (fun a => decide (a.2 = false) && p u a)
         | _ => false))
     stores (probe (.stG w)) (fun _ _ => true) = true ∧
     stores ((probe (.stG w)).updCore 0 (fun c => { c with lines := (List.range 16).map (fun n => (n, some 0)) }))
       (fun u a => decide (sget none (u.core 0).lines (u.canon a.1.pa / 512) ≠ none)) = true) := by
  try dsimp only
  (repeat' apply And.intro) <;> decide +kernel

end Sys2Proof.Tests
end

