-- ==== Sys2Proof/Tests/Slice0.lean ====
section
/-!
SUPPORT. Tests: words written out from the encoding tables of chapter 6 decode to the instructions they stand for; a term that breaks each
static check is refused; results worked in the manual or by hand from its pseudocode.
-/

set_option Elab.async false
namespace Sys2Proof.Tests
open Sys2Proof.Machine Sys2Proof.Claims

/-! ### Decoding (R161, R163, R165, R171, R173, R178): the code of the map in bits 61:54, each field at its place -/

/-- Opcodes 0x00 to 0x13: control transfers, waits and barriers. -/
theorem test_decode_00 : ∀ p ∈ [
  (0x800C000000000000#64, Instr.nop ⟨true, 0x3#4, 0x0#5, 0x0#9, 0x0#4, 0x0#32⟩),
  (0x804C000000000000#64, .exit ⟨true, 0x3#4, 0x0#5, 0x0#9, 0x0#4, 0x0#32⟩),
  (0x808C0000FFFFFFF6#64, .jmp ⟨true, 0x3#4, 0x0#5, 0x0#9, 0x0#4, 0xFFFFFFF6#32⟩),
  (0x80CC0000FFFFFFF6#64, .brv ⟨true, 0x3#4, 0x0#5, 0x0#9, 0x0#4, 0xFFFFFFF6#32⟩),
  (0x810C0030FFFFFFF6#64, .bru ⟨true, 0x3#4, 0x0#5, 0x3#9, 0x0#4, 0xFFFFFFF6#32⟩),
  (0x814C024000000000#64, .jmpi ⟨true, 0x3#4, 0x0#5, 0x24#9, 0x0#4, 0x0#32⟩),
  (0x818C0240FFFFFFF6#64, .call ⟨true, 0x3#4, 0x0#5, 0x24#9, 0x0#4, 0xFFFFFFF6#32⟩),
  (0x81CC0240FFFFFFF6#64, .calli ⟨true, 0x3#4, 0x0#5, 0x24#9, 0x0#4, 0xFFFFFFF6#32⟩),
  (0x820C024000000000#64, .ret ⟨true, 0x3#4, 0x0#5, 0x24#9, 0x0#4, 0x0#32⟩),
  (0x824C0242FFFFFFF6#64, .rwait ⟨true, 0x3#4, 0x0#5, 0x24#9, 0x2#4, 0xFFFFFFF6#32⟩),
  (0x828C1240FFFFFFF6#64, .loop ⟨true, 0x3#4, 0x0#5, 0x124#9, 0x0#4, 0xFFFFFFF6#32⟩),
  (0x02CC000000000000#64, .yield ⟨false, 0x3#4, 0x0#5, 0x0#9, 0x0#4, 0x0#32⟩),
  (0x830C024000000000#64, .priPass ⟨true, 0x3#4, 0x0#5, 0x24#9, 0x0#4, 0x0#32⟩),
  (0x834C024000000000#64, .sleep ⟨true, 0x3#4, 0x0#5, 0x24#9, 0x0#4, 0x0#32⟩),
  (0x838C024000000000#64, .trap ⟨true, 0x3#4, 0x0#5, 0x24#9, 0x0#4, 0x0#32⟩),
  (0x83CC000000000000#64, .tret ⟨true, 0x3#4, 0x0#5, 0x0#9, 0x0#4, 0x0#32⟩),
  (0x840C024000000000#64, .barFull ⟨true, 0x3#4, 0x0#5, 0x24#9, 0x0#4, 0x0#32⟩),
  (0x840C224000000000#64, .barArrive ⟨true, 0x3#4, 0x1#5, 0x24#9, 0x0#4, 0x0#32⟩),
  (0x840C424000000000#64, .barWait ⟨true, 0x3#4, 0x2#5, 0x24#9, 0x0#4, 0x0#32⟩),
  (0x844C024000000000#64, .barEnsFull ⟨true, 0x3#4, 0x0#5, 0x24#9, 0x0#4, 0x0#32⟩),
  (0x844C224000000000#64, .barEnsArrive ⟨true, 0x3#4, 0x1#5, 0x24#9, 0x0#4, 0x0#32⟩),
  (0x844C424000000000#64, .barEnsWait ⟨true, 0x3#4, 0x2#5, 0x24#9, 0x0#4, 0x0#32⟩),
  (0x848C0000FFFFFFF6#64, .brk ⟨true, 0x3#4, 0x0#5, 0x0#9, 0x0#4, 0xFFFFFFF6#32⟩),
  (0x84CC024000000000#64, .snap ⟨true, 0x3#4, 0x0#5, 0x24#9, 0x0#4, 0x0#32⟩)], decode p.1 = .instr p.2 := by
  decide +kernel

/-- Opcodes 0x20 to 0x3F: integer, logic and bit-field words. -/
theorem test_decode_20 : ∀ p ∈ [
  (0x880402494000C000#64, Instr.iadd ⟨true, 0x3#4, 0x20#9, 0x24#9, 0x128#9, 0x0#9, 0x0#14⟩),
  (0x884402494000C000#64, .isub ⟨true, 0x3#4, 0x20#9, 0x24#9, 0x128#9, 0x0#9, 0x0#14⟩),
  (0x888402494000C000#64, .imul ⟨true, 0x3#4, 0x20#9, 0x24#9, 0x128#9, 0x0#9, 0x0#14⟩),
  (0x88C402494000C000#64, .imulh ⟨true, 0x3#4, 0x20#9, 0x24#9, 0x128#9, 0x0#9, 0x0#14⟩),
  (0x8904024940C0C000#64, .imad ⟨true, 0x3#4, 0x20#9, 0x24#9, 0x128#9, 0x30#9, 0x0#14⟩),
  (0x894402400000C400#64, .iabs ⟨true, 0x3#4, 0x20#9, 0x24#9, 0x0#9, 0x0#9, 0x400#14⟩),
  (0x898402494000C000#64, .imin ⟨true, 0x3#4, 0x20#9, 0x24#9, 0x128#9, 0x0#9, 0x0#14⟩),
  (0x89C402494000C000#64, .imax ⟨true, 0x3#4, 0x20#9, 0x24#9, 0x128#9, 0x0#9, 0x0#14⟩),
  (0x8A0402494000C000#64, .shl ⟨true, 0x3#4, 0x20#9, 0x24#9, 0x128#9, 0x0#9, 0x0#14⟩),
  (0x8A4402494000C000#64, .shr ⟨true, 0x3#4, 0x20#9, 0x24#9, 0x128#9, 0x0#9, 0x0#14⟩),
  (0x8A8402494000C000#64, .sar ⟨true, 0x3#4, 0x20#9, 0x24#9, 0x128#9, 0x0#9, 0x0#14⟩),
  (0x8AC402494000C000#64, .rot ⟨true, 0x3#4, 0x20#9, 0x24#9, 0x128#9, 0x0#9, 0x0#14⟩),
  (0x8B04024940C0D000#64, .wext ⟨true, 0x3#4, 0x20#9, 0x24#9, 0x128#9, 0x30#9, 0x1000#14⟩),
  (0x8B44024940C0C000#64, .lfn ⟨true, 0x3#4, 0x20#9, 0x24#9, 0x128#9, 0x30#9, 0x0#14⟩),
  (0x8B8402494000D000#64, .andW ⟨true, 0x3#4, 0x20#9, 0x24#9, 0x128#9, 0x0#9, 0x1000#14⟩),
  (0x8BC402494000D000#64, .orW ⟨true, 0x3#4, 0x20#9, 0x24#9, 0x128#9, 0x0#9, 0x1000#14⟩),
  (0x8C0402494000D000#64, .xorW ⟨true, 0x3#4, 0x20#9, 0x24#9, 0x128#9, 0x0#9, 0x1000#14⟩),
  (0x8C4402494000D000#64, .andn ⟨true, 0x3#4, 0x20#9, 0x24#9, 0x128#9, 0x0#9, 0x1000#14⟩),
  (0x8C8402400000D000#64, .notW ⟨true, 0x3#4, 0x20#9, 0x24#9, 0x0#9, 0x0#9, 0x1000#14⟩),
  (0x8CC4024940C0D000#64, .bfe ⟨true, 0x3#4, 0x20#9, 0x24#9, 0x128#9, 0x30#9, 0x1000#14⟩),
  (0x8D04024940C0D000#64, .bfi ⟨true, 0x3#4, 0x20#9, 0x24#9, 0x128#9, 0x30#9, 0x1000#14⟩),
  (0x8D4402400000C000#64, .popc ⟨true, 0x3#4, 0x20#9, 0x24#9, 0x0#9, 0x0#9, 0x0#14⟩),
  (0x8D8402400000C000#64, .clz ⟨true, 0x3#4, 0x20#9, 0x24#9, 0x0#9, 0x0#9, 0x0#14⟩),
  (0x8DC402400000C000#64, .ctz ⟨true, 0x3#4, 0x20#9, 0x24#9, 0x0#9, 0x0#9, 0x0#14⟩),
  (0x8E0402400000C000#64, .brev ⟨true, 0x3#4, 0x20#9, 0x24#9, 0x0#9, 0x0#9, 0x0#14⟩),
  (0x8E44024940C0D000#64, .bsel ⟨true, 0x3#4, 0x20#9, 0x24#9, 0x128#9, 0x30#9, 0x1000#14⟩),
  (0x8E8082494000C000#64, .icmp ⟨true, 0x3#4, 0x4#9, 0x24#9, 0x128#9, 0x0#9, 0x0#14⟩),
  (0x8EC40249400CD000#64, .sel ⟨true, 0x3#4, 0x20#9, 0x24#9, 0x128#9, 0x3#9, 0x1000#14⟩),
  (0x8F0402400000D000#64, .mov ⟨true, 0x3#4, 0x20#9, 0x24#9, 0x0#9, 0x0#9, 0x1000#14⟩),
  (0x8F44024940C0C000#64, .dot4 ⟨true, 0x3#4, 0x20#9, 0x24#9, 0x128#9, 0x30#9, 0x0#14⟩),
  (0x8F84024940C0C000#64, .isad ⟨true, 0x3#4, 0x20#9, 0x24#9, 0x128#9, 0x30#9, 0x0#14⟩),
  (0x8FC402494000C000#64, .idiv ⟨true, 0x3#4, 0x20#9, 0x24#9, 0x128#9, 0x0#9, 0x0#14⟩)], decode p.1 = .instr p.2 := by
  decide +kernel

/-- Opcodes 0x40 to 0x4A: words with an immediate. -/
theorem test_decode_40 : ∀ p ∈ [
  (0x9004024389ABCDEF#64, Instr.iaddi ⟨true, 0x20#9, 0x24#9, 0x3#4, 0x89ABCDEF#32⟩),
  (0x9044024389ABCDEF#64, .imuli ⟨true, 0x20#9, 0x24#9, 0x3#4, 0x89ABCDEF#32⟩),
  (0x9084024389ABCDEF#64, .andi ⟨true, 0x20#9, 0x24#9, 0x3#4, 0x89ABCDEF#32⟩),
  (0x90C4024389ABCDEF#64, .ori ⟨true, 0x20#9, 0x24#9, 0x3#4, 0x89ABCDEF#32⟩),
  (0x9104024389ABCDEF#64, .xori ⟨true, 0x20#9, 0x24#9, 0x3#4, 0x89ABCDEF#32⟩),
  (0x9144024300000011#64, .shli ⟨true, 0x20#9, 0x24#9, 0x3#4, 0x11#32⟩),
  (0x9184024300000011#64, .shri ⟨true, 0x20#9, 0x24#9, 0x3#4, 0x11#32⟩),
  (0x91C4024300000011#64, .sari ⟨true, 0x20#9, 0x24#9, 0x3#4, 0x11#32⟩),
  (0x9204000389ABCDEF#64, .movi ⟨true, 0x20#9, 0x0#9, 0x3#4, 0x89ABCDEF#32⟩),
  (0x9244024389ABCDEF#64, .movhi ⟨true, 0x20#9, 0x24#9, 0x3#4, 0x89ABCDEF#32⟩),
  (0x9280624300000011#64, .icmpi ⟨true, 0x3#9, 0x24#9, 0x3#4, 0x11#32⟩)], decode p.1 = .instr p.2 := by
  decide +kernel

/-- Opcodes 0x50 to 0x5F: register pairs, special registers, lanes and masks. -/
theorem test_decode_50 : ∀ p ∈ [
  (0x940402494000D800#64, Instr.add64 ⟨true, 0x3#4, 0x20#9, 0x24#9, 0x128#9, 0x0#9, 0x1800#14⟩),
  (0x944402494000D800#64, .sub64 ⟨true, 0x3#4, 0x20#9, 0x24#9, 0x128#9, 0x0#9, 0x1800#14⟩),
  (0x948402494000D800#64, .mul64 ⟨true, 0x3#4, 0x20#9, 0x24#9, 0x128#9, 0x0#9, 0x1800#14⟩),
  (0x94C402494000DC00#64, .shl64 ⟨true, 0x3#4, 0x20#9, 0x24#9, 0x128#9, 0x0#9, 0x1C00#14⟩),
  (0x950402494000D800#64, .shr64 ⟨true, 0x3#4, 0x20#9, 0x24#9, 0x128#9, 0x0#9, 0x1800#14⟩),
  (0x954402494000DC00#64, .lea ⟨true, 0x3#4, 0x20#9, 0x24#9, 0x128#9, 0x0#9, 0x1C00#14⟩),
  (0x958082494000D800#64, .cmp64 ⟨true, 0x3#4, 0x4#9, 0x24#9, 0x128#9, 0x0#9, 0x1800#14⟩),
  (0x95C40249400CDC00#64, .sel64 ⟨true, 0x3#4, 0x20#9, 0x24#9, 0x128#9, 0x3#9, 0x1C00#14⟩),
  (0x960400000000D000#64, .movSr ⟨true, 0x3#4, 0x20#9, 0x0#9, 0x0#9, 0x0#9, 0x1000#14⟩),
  (0x964002400000D0C0#64, .movSs ⟨true, 0x3#4, 0x0#9, 0x24#9, 0x0#9, 0x0#9, 0x10C0#14⟩),
  (0x96A402494000D000#64, .laneRd ⟨true, 0x3#4, 0x120#9, 0x24#9, 0x128#9, 0x0#9, 0x1000#14⟩),
  (0x96C402494000D000#64, .laneWr ⟨true, 0x3#4, 0x20#9, 0x24#9, 0x128#9, 0x0#9, 0x1000#14⟩),
  (0x970080401000D000#64, .kop ⟨true, 0x3#4, 0x4#9, 0x4#9, 0x2#9, 0x0#9, 0x1000#14⟩),
  (0x974080400000D000#64, .kmov ⟨true, 0x3#4, 0x4#9, 0x4#9, 0x0#9, 0x0#9, 0x1000#14⟩),
  (0x97A400400000D000#64, .kpop ⟨true, 0x3#4, 0x120#9, 0x4#9, 0x0#9, 0x0#9, 0x1000#14⟩),
  (0x97E400400000D000#64, .kffs ⟨true, 0x3#4, 0x120#9, 0x4#9, 0x0#9, 0x0#9, 0x1000#14⟩)], decode p.1 = .instr p.2 := by
  decide +kernel

/-- Opcodes 0x60 to 0x78: floating point. -/
theorem test_decode_60 : ∀ p ∈ [
  (0x980402494000E000#64, Instr.fadd ⟨true, 0x3#4, 0x20#9, 0x24#9, 0x128#9, 0x0#9, 0x2000#14⟩),
  (0x984402494000E000#64, .fsub ⟨true, 0x3#4, 0x20#9, 0x24#9, 0x128#9, 0x0#9, 0x2000#14⟩),
  (0x988402494000E000#64, .fmul ⟨true, 0x3#4, 0x20#9, 0x24#9, 0x128#9, 0x0#9, 0x2000#14⟩),
  (0x98C4024940C0E000#64, .fma ⟨true, 0x3#4, 0x20#9, 0x24#9, 0x128#9, 0x30#9, 0x2000#14⟩),
  (0x990402494000E000#64, .fmin ⟨true, 0x3#4, 0x20#9, 0x24#9, 0x128#9, 0x0#9, 0x2000#14⟩),
  (0x994402494000E000#64, .fmax ⟨true, 0x3#4, 0x20#9, 0x24#9, 0x128#9, 0x0#9, 0x2000#14⟩),
  (0x998082494000E000#64, .fcmp ⟨true, 0x3#4, 0x4#9, 0x24#9, 0x128#9, 0x0#9, 0x2000#14⟩),
  (0x99C082494000E000#64, .fclass ⟨true, 0x3#4, 0x4#9, 0x24#9, 0x128#9, 0x0#9, 0x2000#14⟩),
  (0x9A0402400000E800#64, .frcp ⟨true, 0x3#4, 0x20#9, 0x24#9, 0x0#9, 0x0#9, 0x2800#14⟩),
  (0x9A4402400000E800#64, .frsq ⟨true, 0x3#4, 0x20#9, 0x24#9, 0x0#9, 0x0#9, 0x2800#14⟩),
  (0x9A8402400000E800#64, .fsqrt ⟨true, 0x3#4, 0x20#9, 0x24#9, 0x0#9, 0x0#9, 0x2800#14⟩),
  (0x9AC402400000E800#64, .fexp2 ⟨true, 0x3#4, 0x20#9, 0x24#9, 0x0#9, 0x0#9, 0x2800#14⟩),
  (0x9B0402400000E800#64, .flog2 ⟨true, 0x3#4, 0x20#9, 0x24#9, 0x0#9, 0x0#9, 0x2800#14⟩),
  (0x9B4402400000E800#64, .fsin ⟨true, 0x3#4, 0x20#9, 0x24#9, 0x0#9, 0x0#9, 0x2800#14⟩),
  (0x9B8402400000E800#64, .fcos ⟨true, 0x3#4, 0x20#9, 0x24#9, 0x0#9, 0x0#9, 0x2800#14⟩),
  (0x9BC402400000E000#64, .fround ⟨true, 0x3#4, 0x20#9, 0x24#9, 0x0#9, 0x0#9, 0x2000#14⟩),
  (0x9C0402400000E800#64, .ffract ⟨true, 0x3#4, 0x20#9, 0x24#9, 0x0#9, 0x0#9, 0x2800#14⟩),
  (0x9C4402494000E000#64, .fldexp ⟨true, 0x3#4, 0x20#9, 0x24#9, 0x128#9, 0x0#9, 0x2000#14⟩),
  (0x9C84024940C0E800#64, .fexs ⟨true, 0x3#4, 0x20#9, 0x24#9, 0x128#9, 0x30#9, 0x2800#14⟩),
  (0x9CC402400000E800#64, .ftanh ⟨true, 0x3#4, 0x20#9, 0x24#9, 0x0#9, 0x0#9, 0x2800#14⟩),
  (0x9D0402494000E000#64, .hadd2 ⟨true, 0x3#4, 0x20#9, 0x24#9, 0x128#9, 0x0#9, 0x2000#14⟩),
  (0x9D4402494000E000#64, .hmul2 ⟨true, 0x3#4, 0x20#9, 0x24#9, 0x128#9, 0x0#9, 0x2000#14⟩),
  (0x9D84024940C0E000#64, .hfma2 ⟨true, 0x3#4, 0x20#9, 0x24#9, 0x128#9, 0x30#9, 0x2000#14⟩),
  (0x9DC402494000E000#64, .hmax2 ⟨true, 0x3#4, 0x20#9, 0x24#9, 0x128#9, 0x0#9, 0x2000#14⟩),
  (0x9E04024940C0E000#64, .fdot2 ⟨true, 0x3#4, 0x20#9, 0x24#9, 0x128#9, 0x30#9, 0x2000#14⟩)], decode p.1 = .instr p.2 := by
  decide +kernel

/-- Opcodes 0x80 to 0x96: conversions, q4 and wave-wide words. -/
theorem test_decode_80 : ∀ p ∈ [
  (0xA00402400000C000#64, Instr.cvt ⟨true, 0x3#4, 0x20#9, 0x24#9, 0x0#9, 0x0#9, 0x0#14⟩),
  (0xA04402494000EC00#64, .cvtPk8 ⟨true, 0x3#4, 0x20#9, 0x24#9, 0x128#9, 0x0#9, 0x2C00#14⟩),
  (0xA08402400000EC00#64, .cvtEx8 ⟨true, 0x3#4, 0x20#9, 0x24#9, 0x0#9, 0x0#9, 0x2C00#14⟩),
  (0xA0C402400000EC00#64, .q4Scale ⟨true, 0x3#4, 0x20#9, 0x24#9, 0x0#9, 0x0#9, 0x2C00#14⟩),
  (0xA10402494000F400#64, .q4Enc ⟨true, 0x3#4, 0x20#9, 0x24#9, 0x128#9, 0x0#9, 0x3400#14⟩),
  (0xA14402494000F400#64, .q4Dec ⟨true, 0x3#4, 0x20#9, 0x24#9, 0x128#9, 0x0#9, 0x3400#14⟩),
  (0xA18402400000F400#64, .nibPack ⟨true, 0x3#4, 0x20#9, 0x24#9, 0x0#9, 0x0#9, 0x3400#14⟩),
  (0xA1C402494000F400#64, .nibUnpk ⟨true, 0x3#4, 0x20#9, 0x24#9, 0x128#9, 0x0#9, 0x3400#14⟩),
  (0xA42402400000D000#64, .vote ⟨true, 0x3#4, 0x120#9, 0x24#9, 0x0#9, 0x0#9, 0x1000#14⟩),
  (0xA44402400000D000#64, .matchL ⟨true, 0x3#4, 0x20#9, 0x24#9, 0x0#9, 0x0#9, 0x1000#14⟩),
  (0xA48402494000D000#64, .xlane ⟨true, 0x3#4, 0x20#9, 0x24#9, 0x128#9, 0x0#9, 0x1000#14⟩),
  (0xA4C402400000D000#64, .red ⟨true, 0x3#4, 0x20#9, 0x24#9, 0x0#9, 0x0#9, 0x1000#14⟩),
  (0xA50402400000D000#64, .scan ⟨true, 0x3#4, 0x20#9, 0x24#9, 0x0#9, 0x0#9, 0x1000#14⟩),
  (0xA54080000000D000#64, .elect ⟨true, 0x3#4, 0x4#9, 0x0#9, 0x0#9, 0x0#9, 0x1000#14⟩),
  (0xA5A402400000D000#64, .uchk ⟨true, 0x3#4, 0x120#9, 0x24#9, 0x0#9, 0x0#9, 0x1000#14⟩)], decode p.1 = .instr p.2 := by
  decide +kernel

/-- Opcodes 0xA0 to 0xBF: memory, queues, copies and chains. -/
theorem test_decode_A0 : ∀ p ∈ [
  (0xA80410A06DFFFFF8#64, Instr.ldSp ⟨true, 0x20#9, 0x85#8, 0x0#4, 0x3#4, 0xD#5, 0xFFFFF8#24⟩),
  (0xA84410A06DFFFFF8#64, .stSp ⟨true, 0x20#9, 0x85#8, 0x0#4, 0x3#4, 0xD#5, 0xFFFFF8#24⟩),
  (0xA88410A06CFFFFF8#64, .ldA ⟨true, 0x20#9, 0x85#8, 0x0#4, 0x3#4, 0xC#5, 0xFFFFF8#24⟩),
  (0xA8C410A06CFFFFF8#64, .stA ⟨true, 0x20#9, 0x85#8, 0x0#4, 0x3#4, 0xC#5, 0xFFFFF8#24⟩),
  (0xA90410A06CFFFFF8#64, .ldC ⟨true, 0x20#9, 0x85#8, 0x0#4, 0x3#4, 0xC#5, 0xFFFFF8#24⟩),
  (0xA94410A06CFFFFF8#64, .stC ⟨true, 0x20#9, 0x85#8, 0x0#4, 0x3#4, 0xC#5, 0xFFFFF8#24⟩),
  (0xA98410A06CFFFFF8#64, .ldRsp ⟨true, 0x20#9, 0x85#8, 0x0#4, 0x3#4, 0xC#5, 0xFFFFF8#24⟩),
  (0xA9C410A06CFFFFF8#64, .stRsp ⟨true, 0x20#9, 0x85#8, 0x0#4, 0x3#4, 0xC#5, 0xFFFFF8#24⟩),
  (0xAA0070A66DFFFFF8#64, .dqLd ⟨true, 0x3#9, 0x85#8, 0x3#4, 0x3#4, 0xD#5, 0xFFFFF8#24⟩),
  (0xAA4412400000D000#64, .dqPop ⟨true, 0x3#4, 0x20#9, 0x124#9, 0x0#9, 0x0#9, 0x1000#14⟩),
  (0xAA8410A66DFFFFF8#64, .stG ⟨true, 0x20#9, 0x85#8, 0x3#4, 0x3#4, 0xD#5, 0xFFFFF8#24⟩),
  (0xAAC410A06CFFFFF8#64, .ldP ⟨true, 0x20#9, 0x85#8, 0x0#4, 0x3#4, 0xC#5, 0xFFFFF8#24⟩),
  (0xAB0410A06CFFFFF8#64, .stP ⟨true, 0x20#9, 0x85#8, 0x0#4, 0x3#4, 0xC#5, 0xFFFFF8#24⟩),
  (0xAB4012494000D000#64, .dqCfg ⟨true, 0x3#4, 0x0#9, 0x124#9, 0x128#9, 0x0#9, 0x1000#14⟩),
  (0xABA412400000D000#64, .dqLvl ⟨true, 0x3#4, 0x120#9, 0x124#9, 0x0#9, 0x0#9, 0x1000#14⟩),
  (0xABC010A66DFFFFF8#64, .pref ⟨true, 0x0#9, 0x85#8, 0x3#4, 0x3#4, 0xD#5, 0xFFFFF8#24⟩),
  (0xAC2410A66DFFFFF8#64, .ldK ⟨true, 0x120#9, 0x85#8, 0x3#4, 0x3#4, 0xD#5, 0xFFFFF8#24⟩),
  (0xAC6410BC6C123450#64, .lnkLd ⟨true, 0x120#9, 0x85#8, 0xE#4, 0x3#4, 0xC#5, 0x123450#24⟩),
  (0xACA410A66DFFFFF8#64, .xcopy ⟨true, 0x120#9, 0x85#8, 0x3#4, 0x3#4, 0xD#5, 0xFFFFF8#24⟩),
  (0xACC000000000D000#64, .cpSeal ⟨true, 0x3#4, 0x0#9, 0x0#9, 0x0#9, 0x0#9, 0x1000#14⟩),
  (0xAD0012400000D000#64, .cpWait ⟨true, 0x3#4, 0x0#9, 0x124#9, 0x0#9, 0x0#9, 0x1000#14⟩),
  (0xAD6412400000D000#64, .cpWp ⟨true, 0x3#4, 0x120#9, 0x124#9, 0x0#9, 0x0#9, 0x1000#14⟩),
  (0xAD8012494000D000#64, .cpWpw ⟨true, 0x3#4, 0x0#9, 0x124#9, 0x128#9, 0x0#9, 0x1000#14⟩),
  (0xADC410A660FFFFF8#64, .chainAdd ⟨true, 0x20#9, 0x85#8, 0x3#4, 0x3#4, 0x0#5, 0xFFFFF8#24⟩),
  (0xAE2412400000D000#64, .chainSeq ⟨true, 0x3#4, 0x120#9, 0x124#9, 0x0#9, 0x0#9, 0x1000#14⟩),
  (0xAE4012494000D000#64, .chainWait ⟨true, 0x3#4, 0x0#9, 0x124#9, 0x128#9, 0x0#9, 0x1000#14⟩),
  (0xAEA410A661FFFFF8#64, .gather ⟨true, 0x120#9, 0x85#8, 0x3#4, 0x3#4, 0x1#5, 0xFFFFF8#24⟩),
  (0xAF6410A66D000040#64, .kvtrim ⟨true, 0x120#9, 0x85#8, 0x3#4, 0x3#4, 0xD#5, 0x40#24⟩)], decode p.1 = .instr p.2 := by
  decide +kernel

/-- Opcodes 0xC0 to 0xCF: atomics, cells and fences. -/
theorem test_decode_C0 : ∀ p ∈ [
  (0xB00410A66D123450#64, Instr.atom ⟨true, 0x20#9, 0x85#8, 0x3#4, 0x3#4, 0xD#5, 0x123450#24⟩),
  (0xB04410A66D000040#64, .atomCas ⟨true, 0x20#9, 0x85#8, 0x3#4, 0x3#4, 0xD#5, 0x40#24⟩),
  (0xB08410A66D123450#64, .redG ⟨true, 0x20#9, 0x85#8, 0x3#4, 0x3#4, 0xD#5, 0x123450#24⟩),
  (0xB0C410A06C123450#64, .atomSp ⟨true, 0x20#9, 0x85#8, 0x0#4, 0x3#4, 0xC#5, 0x123450#24⟩),
  (0xB12410A66CFFFFF8#64, .acq ⟨true, 0x120#9, 0x85#8, 0x3#4, 0x3#4, 0xC#5, 0xFFFFF8#24⟩),
  (0xB14010A66CFFFFF8#64, .rel ⟨true, 0x0#9, 0x85#8, 0x3#4, 0x3#4, 0xC#5, 0xFFFFF8#24⟩),
  (0xB1A410A66CFFFFF8#64, .bind ⟨true, 0x120#9, 0x85#8, 0x3#4, 0x3#4, 0xC#5, 0xFFFFF8#24⟩),
  (0xB1E410A66CFFFFF8#64, .unbind ⟨true, 0x120#9, 0x85#8, 0x3#4, 0x3#4, 0xC#5, 0xFFFFF8#24⟩),
  (0xB200000000001000#64, .fence ⟨true, 0x0#4, 0x0#9, 0x0#9, 0x0#9, 0x0#9, 0x1000#14⟩),
  (0xB24000000000D010#64, .xfence ⟨true, 0x3#4, 0x0#9, 0x0#9, 0x0#9, 0x0#9, 0x1010#14⟩),
  (0xB24012494000D011#64, .xfenceCh ⟨true, 0x3#4, 0x0#9, 0x124#9, 0x128#9, 0x0#9, 0x1011#14⟩),
  (0xB2A410A66C123450#64, .acqTry ⟨true, 0x120#9, 0x85#8, 0x3#4, 0x3#4, 0xC#5, 0x123450#24⟩)], decode p.1 = .instr p.2 := by
  decide +kernel

/-- Opcodes 0xD0 to 0xDF: matrix words. -/
theorem test_decode_D0 : ∀ p ∈ [
  (0xB42412400000C000#64, Instr.mres ⟨true, 0x3#4, 0x120#9, 0x124#9, 0x0#9, 0x0#9, 0x0#14⟩),
  (0xB44012400000C000#64, .mfree ⟨true, 0x3#4, 0x0#9, 0x124#9, 0x0#9, 0x0#9, 0x0#14⟩),
  (0xB4A4024940C0C000#64, .mmaQ ⟨true, 0x3#4, 0x120#9, 0x24#9, 0x128#9, 0x30#9, 0x0#14⟩),
  (0xB4E4124944C0C000#64, .mma ⟨true, 0x3#4, 0x120#9, 0x124#9, 0x128#9, 0x130#9, 0x0#14⟩),
  (0xB524024940C0C000#64, .mqk ⟨true, 0x3#4, 0x120#9, 0x24#9, 0x128#9, 0x30#9, 0x0#14⟩),
  (0xB564024940C0C000#64, .msv ⟨true, 0x3#4, 0x120#9, 0x24#9, 0x128#9, 0x30#9, 0x0#14⟩),
  (0xB58012400000C000#64, .mwait ⟨true, 0x3#4, 0x0#9, 0x124#9, 0x0#9, 0x0#9, 0x0#14⟩),
  (0xB58000000000C001#64, .mwaitAll ⟨true, 0x3#4, 0x0#9, 0x0#9, 0x0#9, 0x0#9, 0x1#14⟩),
  (0xB5E412494000C000#64, .smpLd ⟨true, 0x3#4, 0x120#9, 0x124#9, 0x128#9, 0x0#9, 0x0#14⟩),
  (0xB62412494000C001#64, .mrow ⟨true, 0x3#4, 0x120#9, 0x124#9, 0x128#9, 0x0#9, 0x1#14⟩),
  (0xB66412414000C000#64, .mscale ⟨true, 0x3#4, 0x120#9, 0x124#9, 0x28#9, 0x0#9, 0x0#14⟩),
  (0xB6A412494000C000#64, .mtrans ⟨true, 0x3#4, 0x120#9, 0x124#9, 0x128#9, 0x0#9, 0x0#14⟩),
  (0xB6E412400000C000#64, .mzero ⟨true, 0x3#4, 0x120#9, 0x124#9, 0x0#9, 0x0#9, 0x0#14⟩)], decode p.1 = .instr p.2 := by
  decide +kernel

/-- Opcodes 0xE0 to 0xEF: assumptions, ladder, directory and census. -/
theorem test_decode_E0 : ∀ p ∈ [
  (0xB82412400000D000#64, Instr.asmNew ⟨true, 0x3#4, 0x120#9, 0x124#9, 0x0#9, 0x0#9, 0x1000#14⟩),
  (0xB86412400000D000#64, .asmArm ⟨true, 0x3#4, 0x120#9, 0x124#9, 0x0#9, 0x0#9, 0x1000#14⟩),
  (0xB8A412400000D000#64, .asmDep ⟨true, 0x3#4, 0x120#9, 0x124#9, 0x0#9, 0x0#9, 0x1000#14⟩),
  (0xB8E412400000D000#64, .asmTestObj ⟨true, 0x3#4, 0x120#9, 0x124#9, 0x0#9, 0x0#9, 0x1000#14⟩),
  (0xB8E412400000D010#64, .asmTestReg ⟨true, 0x3#4, 0x120#9, 0x124#9, 0x0#9, 0x0#9, 0x1010#14⟩),
  (0xB92412400000D000#64, .asmDropObj ⟨true, 0x3#4, 0x120#9, 0x124#9, 0x0#9, 0x0#9, 0x1000#14⟩),
  (0xB92412400000D010#64, .asmDropReg ⟨true, 0x3#4, 0x120#9, 0x124#9, 0x0#9, 0x0#9, 0x1010#14⟩),
  (0xB94400000000D000#64, .asmInfoPc ⟨true, 0x3#4, 0x20#9, 0x0#9, 0x0#9, 0x0#9, 0x1000#14⟩),
  (0xB94400000000D010#64, .asmInfoRec ⟨true, 0x3#4, 0x20#9, 0x0#9, 0x0#9, 0x0#9, 0x1010#14⟩),
  (0xB94000000000D020#64, .asmInfoClr ⟨true, 0x3#4, 0x0#9, 0x0#9, 0x0#9, 0x0#9, 0x1020#14⟩),
  (0xBA2412400000C000#64, .ladInit ⟨true, 0x3#4, 0x120#9, 0x124#9, 0x0#9, 0x0#9, 0x0#14⟩),
  (0xBA6412494000C000#64, .ladPush ⟨true, 0x3#4, 0x120#9, 0x124#9, 0x128#9, 0x0#9, 0x0#14⟩),
  (0xBAA412494000C000#64, .ladBlend ⟨true, 0x3#4, 0x120#9, 0x124#9, 0x128#9, 0x0#9, 0x0#14⟩),
  (0xBAC4124940C0D000#64, .ladRungLd ⟨true, 0x3#4, 0x20#9, 0x124#9, 0x128#9, 0x30#9, 0x1000#14⟩),
  (0xBAC4124940C0D010#64, .ladRungSt ⟨true, 0x3#4, 0x20#9, 0x124#9, 0x128#9, 0x30#9, 0x1010#14⟩),
  (0xBAE412400000D020#64, .ladRungCnt ⟨true, 0x3#4, 0x120#9, 0x124#9, 0x0#9, 0x0#9, 0x1020#14⟩),
  (0xBB2412400000D000#64, .dirIns ⟨true, 0x3#4, 0x120#9, 0x124#9, 0x0#9, 0x0#9, 0x1000#14⟩),
  (0xBB2412400000D010#64, .dirDel ⟨true, 0x3#4, 0x120#9, 0x124#9, 0x0#9, 0x0#9, 0x1010#14⟩),
  (0xBB24124944C0D020#64, .dirMov ⟨true, 0x3#4, 0x120#9, 0x124#9, 0x128#9, 0x130#9, 0x1020#14⟩),
  (0xBB2412400000D030#64, .dirLook ⟨true, 0x3#4, 0x120#9, 0x124#9, 0x0#9, 0x0#9, 0x1030#14⟩),
  (0xBB64124940C0D030#64, .sol ⟨true, 0x3#4, 0x120#9, 0x124#9, 0x128#9, 0x30#9, 0x1030#14⟩),
  (0xBB8012400000D000#64, .cnsWait ⟨true, 0x3#4, 0x0#9, 0x124#9, 0x0#9, 0x0#9, 0x1000#14⟩),
  (0xBBA412400000D010#64, .cnsRd ⟨true, 0x3#4, 0x120#9, 0x124#9, 0x0#9, 0x0#9, 0x1010#14⟩),
  (0xBBC0000000001000#64, .respEnd ⟨true, 0x0#4, 0x0#9, 0x0#9, 0x0#9, 0x0#9, 0x1000#14⟩)], decode p.1 = .instr p.2 := by
  decide +kernel

/-- Opcodes 0xF0 to 0xFF: system words. -/
theorem test_decode_F0 : ∀ p ∈ [
  (0xBC2400000000D000#64, Instr.rdsr ⟨true, 0x3#4, 0x120#9, 0x0#9, 0x0#9, 0x0#9, 0x1000#14⟩),
  (0xBC4012400000D000#64, .wrsr ⟨true, 0x3#4, 0x0#9, 0x124#9, 0x0#9, 0x0#9, 0x1000#14⟩),
  (0xBC8012400000D000#64, .segBind ⟨true, 0x3#4, 0x0#9, 0x124#9, 0x0#9, 0x0#9, 0x1000#14⟩),
  (0xBCE402400000D000#64, .ptok ⟨true, 0x3#4, 0x120#9, 0x24#9, 0x0#9, 0x0#9, 0x1000#14⟩),
  (0xBD2400000000D000#64, .perf ⟨true, 0x3#4, 0x120#9, 0x0#9, 0x0#9, 0x0#9, 0x1000#14⟩),
  (0xBD6400000000D000#64, .clk ⟨true, 0x3#4, 0x120#9, 0x0#9, 0x0#9, 0x0#9, 0x1000#14⟩),
  (0xBD6400000000D010#64, .clkWave ⟨true, 0x3#4, 0x120#9, 0x0#9, 0x0#9, 0x0#9, 0x1010#14⟩),
  (0xBD8000000000D000#64, .halt ⟨true, 0x3#4, 0x0#9, 0x0#9, 0x0#9, 0x0#9, 0x1000#14⟩),
  (0xBDE402400000D000#64, .tlbInvPage ⟨true, 0x3#4, 0x120#9, 0x24#9, 0x0#9, 0x0#9, 0x1000#14⟩),
  (0xBDE400000000D010#64, .tlbInvVf ⟨true, 0x3#4, 0x120#9, 0x0#9, 0x0#9, 0x0#9, 0x1010#14⟩),
  (0xBDE400000000D020#64, .tlbInvPart ⟨true, 0x3#4, 0x120#9, 0x0#9, 0x0#9, 0x0#9, 0x1020#14⟩),
  (0xBE2412400000D000#64, .ctxSv ⟨true, 0x3#4, 0x120#9, 0x124#9, 0x0#9, 0x0#9, 0x1000#14⟩),
  (0xBE6412400000D000#64, .ctxLd ⟨true, 0x3#4, 0x120#9, 0x124#9, 0x0#9, 0x0#9, 0x1000#14⟩)], decode p.1 = .instr p.2 := by
  decide +kernel

/-- Every half-op of R173 as half A, beside `hnot v8, v7`. -/
theorem test_decode_half : ∀ p ∈ [
  (0x4000000017080700#64, Instr.hnop false ⟨0x00#8, 0x00#8, 0x00#8⟩ ⟨.not, ⟨0x08#8, 0x07#8, 0x00#8⟩⟩),
  (0x4082830017080700#64, .hmov false ⟨0x05#8, 0x06#8, 0x00#8⟩ ⟨.not, ⟨0x08#8, 0x07#8, 0x00#8⟩⟩),
  (0x4102830017080700#64, .hiadd false ⟨0x05#8, 0x06#8, 0x00#8⟩ ⟨.not, ⟨0x08#8, 0x07#8, 0x00#8⟩⟩),
  (0x4182830017080700#64, .hisub false ⟨0x05#8, 0x06#8, 0x00#8⟩ ⟨.not, ⟨0x08#8, 0x07#8, 0x00#8⟩⟩),
  (0x4202830017080700#64, .hand false ⟨0x05#8, 0x06#8, 0x00#8⟩ ⟨.not, ⟨0x08#8, 0x07#8, 0x00#8⟩⟩),
  (0x4282830017080700#64, .hor false ⟨0x05#8, 0x06#8, 0x00#8⟩ ⟨.not, ⟨0x08#8, 0x07#8, 0x00#8⟩⟩),
  (0x4302830017080700#64, .hxor false ⟨0x05#8, 0x06#8, 0x00#8⟩ ⟨.not, ⟨0x08#8, 0x07#8, 0x00#8⟩⟩),
  (0x4382830017080700#64, .himin false ⟨0x05#8, 0x06#8, 0x00#8⟩ ⟨.not, ⟨0x08#8, 0x07#8, 0x00#8⟩⟩),
  (0x4402830017080700#64, .himax false ⟨0x05#8, 0x06#8, 0x00#8⟩ ⟨.not, ⟨0x08#8, 0x07#8, 0x00#8⟩⟩),
  (0x4482830017080700#64, .hshl false ⟨0x05#8, 0x06#8, 0x00#8⟩ ⟨.not, ⟨0x08#8, 0x07#8, 0x00#8⟩⟩),
  (0x4502830017080700#64, .hshr false ⟨0x05#8, 0x06#8, 0x00#8⟩ ⟨.not, ⟨0x08#8, 0x07#8, 0x00#8⟩⟩),
  (0x4582830017080700#64, .hsar false ⟨0x05#8, 0x06#8, 0x00#8⟩ ⟨.not, ⟨0x08#8, 0x07#8, 0x00#8⟩⟩),
  (0x4602830017080700#64, .hfadd false ⟨0x05#8, 0x06#8, 0x00#8⟩ ⟨.not, ⟨0x08#8, 0x07#8, 0x00#8⟩⟩),
  (0x4682830017080700#64, .hfmul false ⟨0x05#8, 0x06#8, 0x00#8⟩ ⟨.not, ⟨0x08#8, 0x07#8, 0x00#8⟩⟩),
  (0x4702830017080700#64, .hfmin false ⟨0x05#8, 0x06#8, 0x00#8⟩ ⟨.not, ⟨0x08#8, 0x07#8, 0x00#8⟩⟩),
  (0x4782830017080700#64, .hfmax false ⟨0x05#8, 0x06#8, 0x00#8⟩ ⟨.not, ⟨0x08#8, 0x07#8, 0x00#8⟩⟩),
  (0x4802837897080700#64, .hiaddi false ⟨0x05#8, 0x06#8, 0xF1#8⟩ ⟨.not, ⟨0x08#8, 0x07#8, 0x00#8⟩⟩),
  (0x4882837897080700#64, .handi false ⟨0x05#8, 0x06#8, 0xF1#8⟩ ⟨.not, ⟨0x08#8, 0x07#8, 0x00#8⟩⟩),
  (0x4902837897080700#64, .hshli false ⟨0x05#8, 0x06#8, 0xF1#8⟩ ⟨.not, ⟨0x08#8, 0x07#8, 0x00#8⟩⟩),
  (0x4982837897080700#64, .hshri false ⟨0x05#8, 0x06#8, 0xF1#8⟩ ⟨.not, ⟨0x08#8, 0x07#8, 0x00#8⟩⟩),
  (0x4A02807897080700#64, .hmovi false ⟨0x05#8, 0x00#8, 0xF1#8⟩ ⟨.not, ⟨0x08#8, 0x07#8, 0x00#8⟩⟩),
  (0x4A82830017080700#64, .hfneg false ⟨0x05#8, 0x06#8, 0x00#8⟩ ⟨.not, ⟨0x08#8, 0x07#8, 0x00#8⟩⟩),
  (0x4B02830017080700#64, .hfabs false ⟨0x05#8, 0x06#8, 0x00#8⟩ ⟨.not, ⟨0x08#8, 0x07#8, 0x00#8⟩⟩),
  (0x4B82830017080700#64, .hnot false ⟨0x05#8, 0x06#8, 0x00#8⟩ ⟨.not, ⟨0x08#8, 0x07#8, 0x00#8⟩⟩)], decode p.1 = .instr p.2 := by
  decide +kernel

/-! ### Static checks (R179, R180, R446) -/

/-- A reserved major code (R178) and a reserved half-op (R173) are ILLEGAL_OPCODE, DETAIL 1 and 2. -/
theorem test_reserved_codes : decode 0x3980000000001000#64 = .reject 1 1 ∧ decode 0x4C02830000000000#64 = .reject 1 2 := by decide +kernel

/-- An unlisted MINOR: `idiv` with 2, `icmp` with condition 6 (R195) (DETAIL 3). -/
theorem test_refused_minor : [Instr.idiv ⟨false, 0x0#4, 0x4#9, 0x5#9, 0x6#9, 0x0#9, 0x1420#14⟩, Instr.icmp ⟨false, 0x0#4, 0x1#9, 0x5#9, 0x6#9, 0x0#9, 0x1460#14⟩].all (fun i => !wellFormed i) = true := by decide +kernel

/-- An unlisted TYPE: `iabs.n32`, `iadd.f32`, `q4.enc.i32` (DETAIL 4). -/
theorem test_refused_type : [Instr.iabs ⟨false, 0x0#4, 0x4#9, 0x5#9, 0x0#9, 0x0#9, 0x1000#14⟩, Instr.iadd ⟨false, 0x0#4, 0x4#9, 0x5#9, 0x6#9, 0x0#9, 0x2800#14⟩, Instr.q4Enc ⟨false, 0x0#4, 0x4#9, 0x5#9, 0x6#9, 0x0#9, 0x1400#14⟩].all (fun i => !wellFormed i) = true := by decide +kernel

/-- Pairs that break R172: one bank for both destinations, a bank read three times. -/
theorem test_refused_pair : [Instr.hiadd false ⟨4#8, 8#8, 0#8⟩ ⟨.fadd, ⟨8#8, 12#8, 0#8⟩⟩, Instr.hiadd false ⟨4#8, 8#8, 0#8⟩ ⟨.iadd, ⟨5#8, 12#8, 0#8⟩⟩].all (fun i => !wellFormed i) = true := by decide +kernel

/-- A field of a half that its form marks zero (R173). -/
theorem test_refused_half_field : [Instr.hmov false ⟨4#8, 9#8, 1#8⟩ ⟨.nop, ⟨0#8, 0#8, 0#8⟩⟩, Instr.hmovi false ⟨4#8, 9#8, 1#8⟩ ⟨.nop, ⟨0#8, 0#8, 0#8⟩⟩].all (fun i => !wellFormed i) = true := by decide +kernel

/-- A reserved operand code, a register in an odd place of a pair, a constant as destination (R166, R168). -/
theorem test_refused_register : [Instr.iadd ⟨false, 0x0#4, 0x4#9, 0x1C0#9, 0x6#9, 0x0#9, 0x1400#14⟩, Instr.add64 ⟨false, 0x0#4, 0x5#9, 0x8#9, 0xA#9, 0x0#9, 0x1C00#14⟩, Instr.iadd ⟨false, 0x0#4, 0x181#9, 0x5#9, 0x6#9, 0x0#9, 0x1400#14⟩].all (fun i => !wellFormed i) = true := by decide +kernel

/-- A field that the entry leaves unused: C of `iadd` without a carry, FLAGS bit 3 of `fadd` (R211), `k0` under `.cc` (R190). -/
theorem test_refused_unused : [Instr.iadd ⟨false, 0x0#4, 0x4#9, 0x5#9, 0x6#9, 0x7#9, 0x1400#14⟩, Instr.fadd ⟨false, 0x0#4, 0x4#9, 0x5#9, 0x6#9, 0x0#9, 0x2808#14⟩, Instr.iadd ⟨false, 0x0#4, 0x4#9, 0x5#9, 0x6#9, 0x0#9, 0x1001#14⟩].all (fun i => !wellFormed i) = true := by decide +kernel

/-- The predicate 1000 (R179). -/
theorem test_refused_predicate : [Instr.iadd ⟨false, 0x8#4, 0x4#9, 0x5#9, 0x6#9, 0x0#9, 0x1400#14⟩].all (fun i => !wellFormed i) = true := by decide +kernel

/-- A shift immediate with bits above 4 and a condition 10 of `icmpi` (R200). -/
theorem test_refused_immediate : [Instr.shli ⟨false, 4#9, 5#9, 0#4, 0x20#32⟩, Instr.icmpi ⟨false, 1#9, 5#9, 0#4, 0xA0000000#32⟩].all (fun i => !wellFormed i) = true := by decide +kernel

/-- A scalar pair index above 63, a SEG for a local word, the reserved size, a sign-extending store, the reserved mode of a scratchpad word (R163, R164). -/
theorem test_refused_memory : [Instr.stG ⟨false, 20#9, 0xC0#8, 1#4, 0#4, 0x08#5, 0#24⟩, Instr.ldSp ⟨false, 20#9, 3#8, 1#4, 0#4, 0x08#5, 0#24⟩, Instr.ldP ⟨false, 20#9, 3#8, 0#4, 0#4, 0x1C#5, 0#24⟩, Instr.stSp ⟨false, 20#9, 3#8, 0#4, 0#4, 0x14#5, 0#24⟩, Instr.ldSp ⟨false, 20#9, 3#8, 0#4, 0#4, 0x0A#5, 0#24⟩].all (fun i => !wellFormed i) = true := by decide +kernel

/-- AUX of a word that does not read it and an unlisted MINOR of `bar` (R165, R237). -/
theorem test_refused_aux : [Instr.jmp ⟨false, 0#4, 0#5, 0#9, 1#4, 0#32⟩, Instr.barFull ⟨false, 0#4, 3#5, 0x183#9, 0#4, 0#32⟩].all (fun i => !wellFormed i) = true := by decide +kernel

/-! ### Results, one step each -/

/-- The wave of the probe one step after it runs `word`, with registers (code of R445, lane, value) set before. -/
def ranOf (word : Dword) (regs : List (Nat × Nat × Word)) : Option Wave :=
  match step ((State.reset.withFetchWord 64 word.toNat).updWave w0 (fun w => regs.foldl (fun w r => w.regSet r.1 r.2.1 r.2.2) w)) with
  | .next t => t.wave w0
  | _ => none

/-- A register of that wave: its code and lane. -/
def ran (word : Dword) (regs : List (Nat × Nat × Word)) (reg lane : Nat) : Option Word := (ranOf word regs).map (fun w => w.regGet reg lane)

/-- R189, R190: `iadd.n8` wraps and extends by zero; `iadd.sat.i8` clamps; carry in and out of `iadd.ci.cc.n32` (0xFFFFFFFF + 0 + 1 = 0 carry 1). -/
theorem test_iadd :
    ran 0x0800805030000000#64 [(5, 0, 0x000000FF#32), (6, 0, 0x00000002#32)] 4 0 = some 0x00000001#32 ∧
    ran 0x0800805030000404#64 [(5, 0, 0x0000007F#32), (6, 0, 0x00000001#32)] 4 0 = some 0x0000007F#32 ∧
    ran 0x0800805030081003#64 [(5, 0, 0xFFFFFFFF#32), (514, 0, 0x00000001#32)] 4 0 = some 0x00000000#32 ∧
    ran 0x0800805030081003#64 [(5, 0, 0xFFFFFFFF#32), (514, 0, 0x00000001#32)] 514 0 = some 0x00000001#32 := by decide +kernel

/-- R189: `isub.i16` of −32,768 and 1 wraps to 32,767. -/
theorem test_isub :
    ran 0x0840805030000C00#64 [(5, 0, 0x00008000#32), (6, 0, 0x00000001#32)] 4 0 = some 0x00007FFF#32 := by decide +kernel

/-- R189: `imulh.i32` −2 × 3 gives −1, `imulh.n32` 2³¹ × 4 gives 2; `imad.n32` 3 × 5 + 7. -/
theorem test_imul :
    ran 0x08C0805030001400#64 [(5, 0, 0xFFFFFFFE#32), (6, 0, 0x00000003#32)] 4 0 = some 0xFFFFFFFF#32 ∧
    ran 0x08C0805030001000#64 [(5, 0, 0x80000000#32), (6, 0, 0x00000004#32)] 4 0 = some 0x00000002#32 ∧
    ran 0x09008050301C1000#64 [(5, 0, 0x00000003#32), (6, 0, 0x00000005#32), (7, 0, 0x00000007#32)] 4 0 = some 0x00000016#32 := by decide +kernel

/-- R209: the most negative value is itself, or the maximum with `.sat`. -/
theorem test_iabs :
    ran 0x0940805000001400#64 [(5, 0, 0x80000000#32)] 4 0 = some 0x80000000#32 ∧
    ran 0x0940805000001404#64 [(5, 0, 0x80000000#32)] 4 0 = some 0x7FFFFFFF#32 := by decide +kernel

/-- R189: a count of 32 empties `shl`, a count of 9 fills `sar.i8` with the sign, bits 31:8 of a count are ignored. -/
theorem test_shift_counts :
    ran 0x0A00805030001000#64 [(5, 0, 0x00000001#32), (6, 0, 0x00000020#32)] 4 0 = some 0x00000000#32 ∧
    ran 0x0A80805030000400#64 [(5, 0, 0x00000080#32), (6, 0, 0x00000009#32)] 4 0 = some 0xFFFFFFFF#32 ∧
    ran 0x0A40805030001000#64 [(5, 0, 0x80000000#32), (6, 0, 0x0000011F#32)] 4 0 = some 0x00000001#32 := by decide +kernel

/-- R189: 0x81 in eight bits by one place, left 0x03 and right 0xC0. -/
theorem test_rot :
    ran 0x0AC0805030000000#64 [(5, 0, 0x00000081#32), (6, 0, 0x00000001#32)] 4 0 = some 0x00000003#32 ∧
    ran 0x0AC0805030000010#64 [(5, 0, 0x00000081#32), (6, 0, 0x00000001#32)] 4 0 = some 0x000000C0#32 := by decide +kernel

/-- R189: `clz.n8` and `ctz.n16` of zero give the width; `brev.n8` of 1 is 0x80; `popc.n16` sees 16 bits. -/
theorem test_counts :
    ran 0x0D80805000000000#64 [] 4 0 = some 0x00000008#32 ∧
    ran 0x0DC0805000000800#64 [] 4 0 = some 0x00000010#32 ∧
    ran 0x0E00805000000000#64 [(5, 0, 0x00000001#32)] 4 0 = some 0x00000080#32 ∧
    ran 0x0D40805000000800#64 [(5, 0, 0xFFFF0101#32)] 4 0 = some 0x00000002#32 := by decide +kernel

/-- R194: −7 ÷ 2 is −3 remainder −1; by zero −1; −2³¹ ÷ −1 stays, or clamps with `.sat`. -/
theorem test_idiv :
    ran 0x0FC0805030001400#64 [(5, 0, 0xFFFFFFF9#32), (6, 0, 0x00000002#32)] 4 0 = some 0xFFFFFFFD#32 ∧
    ran 0x0FC0805030001410#64 [(5, 0, 0xFFFFFFF9#32), (6, 0, 0x00000002#32)] 4 0 = some 0xFFFFFFFF#32 ∧
    ran 0x0FC0805030001400#64 [(5, 0, 0x00000009#32)] 4 0 = some 0xFFFFFFFF#32 ∧
    ran 0x0FC0805030001404#64 [(5, 0, 0x80000000#32), (6, 0, 0xFFFFFFFF#32)] 4 0 = some 0x7FFFFFFF#32 := by decide +kernel

/-- R191: `wext.s` with 32 gives the high word and with 63 its sign; the circular form continues from bit 0. -/
theorem test_wext :
    ran 0x0B008050301C1020#64 [(5, 0, 0x11111111#32), (6, 0, 0x80000001#32), (7, 0, 0x00000020#32)] 4 0 = some 0x80000001#32 ∧
    ran 0x0B008050301C1020#64 [(5, 0, 0x11111111#32), (6, 0, 0x80000001#32), (7, 0, 0x0000003F#32)] 4 0 = some 0xFFFFFFFF#32 ∧
    ran 0x0B008050301C1000#64 [(5, 0, 0x00000005#32), (6, 0, 0x80000000#32), (7, 0, 0x0000003F#32)] 4 0 = some 0x0000000B#32 := by decide +kernel

/-- R192: `lfn.or.and` is the majority, `lfn.fa.fb` takes a where c is 1. -/
theorem test_lfn :
    ran 0x0B408050301C3A00#64 [(5, 0, 0x00000003#32), (6, 0, 0x00000005#32), (7, 0, 0x00000009#32)] 4 0 = some 0x00000001#32 ∧
    ran 0x0B408050301C2B00#64 [(5, 0, 0xF0F0F0F0#32), (6, 0, 0x12345678#32), (7, 0, 0xFFFF0000#32)] 4 0 = some 0xF0F05678#32 := by decide +kernel

/-- R196: a signed field, a field past bit 31, an inserted field, a position of 32. -/
theorem test_bit_fields :
    ran 0x0CC08050301C1400#64 [(5, 0, 0x00000F00#32), (6, 0, 0x00000008#32), (7, 0, 0x00000004#32)] 4 0 = some 0xFFFFFFFF#32 ∧
    ran 0x0CC08050301C1000#64 [(5, 0, 0xF0000000#32), (6, 0, 0x0000001C#32), (7, 0, 0x00000008#32)] 4 0 = some 0x0000000F#32 ∧
    ran 0x0D008050301C1000#64 [(5, 0, 0x00000000#32), (6, 0, 0x000000FF#32), (7, 0, 0x00000804#32)] 4 0 = some 0x00000FF0#32 ∧
    ran 0x0D008050301C1000#64 [(5, 0, 0x00001234#32), (6, 0, 0x000000FF#32), (7, 0, 0x00000820#32)] 4 0 = some 0x00001234#32 := by decide +kernel

/-- The four controls that R197 works. -/
theorem test_bsel :
    ran 0x0E408050301C1000#64 [(5, 0, 0x8899AABB#32), (6, 0, 0x11223344#32), (7, 0, 0x00000053#32)] 4 0 = some 0xBBAA9988#32 ∧
    ran 0x0E408050301C1000#64 [(5, 0, 0x8899AABB#32), (6, 0, 0x11223344#32), (7, 0, 0x000E0002#32)] 4 0 = some 0xFFFFFF99#32 ∧
    ran 0x0E408050301C1000#64 [(5, 0, 0x8899AABB#32), (6, 0, 0x11223344#32), (7, 0, 0x0000E003#32)] 4 0 = some 0x00000088#32 ∧
    ran 0x0E408050301C1000#64 [(5, 0, 0x8899AABB#32), (6, 0, 0x11223344#32), (7, 0, 0x0000C02C#32)] 4 0 = some 0x00003344#32 := by decide +kernel

/-- R198: `dot4.su` reads a signed and b unsigned; `isad.i8` of −1 and 1 is 2. -/
theorem test_sums :
    ran 0x0F408050301C0410#64 [(5, 0, 0x000000FF#32), (6, 0, 0x000000FF#32), (7, 0, 0x00000001#32)] 4 0 = some 0xFFFFFF02#32 ∧
    ran 0x0F808050301C0400#64 [(5, 0, 0x000000FF#32), (6, 0, 0x00000001#32), (7, 0, 0x0000000A#32)] 4 0 = some 0x0000000C#32 := by decide +kernel

/-- R195, R200: `icmp.lt.i32` and `icmp.lt.n32` of −1 and 1 in lane 0 and of zeros elsewhere; `icmpi.geu`. -/
theorem test_compare :
    ran 0x0E80205030001420#64 [(5, 0, 0xFFFFFFFF#32), (6, 0, 0x00000001#32)] 513 0 = some 0x00000001#32 ∧
    ran 0x0E80205030001020#64 [(5, 0, 0xFFFFFFFF#32), (6, 0, 0x00000001#32)] 513 0 = some 0x00000000#32 ∧
    ran 0x1280205090000002#64 [(5, 0, 0x00000002#32)] 513 0 = some 0x00000001#32 := by decide +kernel

/-- R199: `shli`, `sari` and `movhi`. -/
theorem test_immediates :
    ran 0x1140805000000004#64 [(5, 0, 0x0000000F#32)] 4 0 = some 0x000000F0#32 ∧
    ran 0x11C080500000001F#64 [(5, 0, 0x80000000#32)] 4 0 = some 0xFFFFFFFF#32 ∧
    ran 0x1240805012345678#64 [(5, 0, 0x00000007#32)] 5 0 = some 0x12345678#32 ∧
    ran 0x1240805012345678#64 [(5, 0, 0x00000007#32)] 4 0 = some 0x00000007#32 := by decide +kernel

/-- R201, R202: a carry into the high word; `lea` by a negative index; `shl64` by 64; `cmp64.lt.i64`. -/
theorem test_pairs :
    ran 0x1400808050001C00#64 [(8, 0, 0xFFFFFFFF#32), (10, 0, 0x00000001#32)] 5 0 = some 0x00000001#32 ∧
    ran 0x15408080A0001C20#64 [(8, 0, 0x00000000#32), (9, 0, 0x00000001#32), (20, 0, 0xFFFFFFFF#32)] 4 0 = some 0xFFFFFFFC#32 ∧
    ran 0x14C08080A0001C00#64 [(8, 0, 0x00000001#32), (20, 0, 0x00000040#32)] 5 0 = some 0x00000000#32 ∧
    ran 0x1580208050001C20#64 [(9, 0, 0xFFFFFFFF#32)] 513 0 = some 0x00000001#32 := by decide +kernel

/-- R206: `kop.andn`, `kpop`, `kffs.hi`, and `kffs` of an empty mask is 32 (R209). -/
theorem test_masks :
    ran 0x1700202018001030#64 [(514, 0, 0x00000F0F#32), (515, 0, 0x000000FF#32)] 513 0 = some 0x00000F00#32 ∧
    ran 0x17A0802000001000#64 [(514, 0, 0x00000F0F#32)] 260 0 = some 0x00000008#32 ∧
    ran 0x17E0802000001010#64 [(514, 0, 0x00000F0F#32)] 260 0 = some 0x0000000B#32 ∧
    ran 0x17E0802000001000#64 [] 260 0 = some 0x00000020#32 := by decide +kernel

/-- R205, R203: `lane.rd` of lane 7, `lane.wr` of lane 37 mod 32, `mov.sr %lane`. -/
theorem test_lanes :
    ran 0x16A0805830001000#64 [(5, 7, 0x00000ABC#32), (262, 0, 0x00000007#32)] 260 0 = some 0x00000ABC#32 ∧
    ran 0x16C0905830001000#64 [(261, 0, 0x00000ABC#32), (262, 0, 0x00000025#32)] 4 5 = some 0x00000ABC#32 ∧
    ran 0x1600800000001000#64 [] 4 9 = some 0x00000009#32 := by decide +kernel

/-- R207: both halves read before either writes; the immediate of `hiaddi` is signed. -/
theorem test_halves :
    ran 0x4102830001060500#64 [(5, 0, 0x00000003#32), (6, 0, 0x00000004#32)] 5 0 = some 0x00000007#32 ∧
    ran 0x4102830001060500#64 [(5, 0, 0x00000003#32), (6, 0, 0x00000004#32)] 6 0 = some 0x00000003#32 ∧
    ran 0x480404FF80000000#64 [(9, 0, 0x00000005#32)] 8 0 = some 0x00000004#32 ∧
    ran 0x4904049000000000#64 [(9, 0, 0x00000005#32)] 8 0 = some 0x00000000#32 := by decide +kernel

/-- IEEE 754: 1 + 2⁻²⁴ ties to even, rounds up in `.ru` (mode 2); +∞ − ∞ is the canonical NaN (R214). -/
theorem test_fadd :
    ran 0x1800805030002800#64 [(5, 0, 0x3F800000#32), (6, 0, 0x33800000#32)] 4 0 = some 0x3F800000#32 ∧
    ran 0x1800805030002802#64 [(5, 0, 0x3F800000#32), (6, 0, 0x33800000#32)] 4 0 = some 0x3F800001#32 ∧
    ran 0x1840805030002800#64 [(5, 0, 0x7F800000#32), (6, 0, 0x7F800000#32)] 4 0 = some 0x7FC00000#32 := by decide +kernel

/-- R214: one rounding: (1 + 2⁻¹²)² − (1 + 2⁻¹¹) is 2⁻²⁴. -/
theorem test_fma :
    ran 0x18C08050301C2800#64 [(5, 0, 0x3F800800#32), (6, 0, 0x3F800800#32), (7, 0, 0xBF801000#32)] 4 0 = some 0x33800000#32 := by decide +kernel

/-- R141, R215: the smaller of ±0 is −0; −0 has class bit 5. -/
theorem test_fmin_fclass :
    ran 0x1900805030002800#64 [(5, 0, 0x00000000#32), (6, 0, 0x80000000#32)] 4 0 = some 0x80000000#32 ∧
    ran 0x19C0205030002800#64 [(5, 0, 0x80000000#32), (6, 0, 0x00000020#32)] 513 0 = some 0x00000001#32 := by decide +kernel

/-- R214: −0.4 rounds to −0; `ffract` of −2⁻²⁶ clamps to the largest value below 1. -/
theorem test_fround :
    ran 0x1BC0805000002800#64 [(5, 0, 0xBECCCCCD#32)] 4 0 = some 0x80000000#32 ∧
    ran 0x1C00805000002800#64 [(5, 0, 0xB2800000#32)] 4 0 = some 0x3F7FFFFF#32 := by decide +kernel

/-- R219: 500.0 to e4m3 is 0x7F with OF, or 0x7E with `.sat`; NaN to i32 is 0; −1.5 to n32 is 0. -/
theorem test_cvt :
    ran 0x2000805000002CA0#64 [(5, 0, 0x43FA0000#32)] 4 0 = some 0x0000007F#32 ∧
    (ranOf 0x2000805000002CA0#64 [(5, 0, 0x43FA0000#32)]).map (fun w => w.fflags) = some 0x2#4 ∧
    ran 0x2000805000002CA4#64 [(5, 0, 0x43FA0000#32)] 4 0 = some 0x0000007E#32 ∧
    ran 0x20008050000014A0#64 [(5, 0, 0x7FC00000#32)] 4 0 = some 0x00000000#32 ∧
    ran 0x20008050000010A0#64 [(5, 0, 0xBFC00000#32)] 4 0 = some 0x00000000#32 := by decide +kernel

/-- R218: `hadd2.f16` of (2, 1) and (1, 1); `fdot2.f16` 1 × 2 + 1 × 1 + 1. -/
theorem test_packed :
    ran 0x1D00805030002000#64 [(5, 0, 0x40003C00#32), (6, 0, 0x3C003C00#32)] 4 0 = some 0x42004000#32 ∧
    ran 0x1E008050301C2000#64 [(5, 0, 0x3C003C00#32), (6, 0, 0x3C004000#32), (7, 0, 0x3F800000#32)] 4 0 = some 0x40800000#32 := by decide +kernel

/-- R147, R223, R224: 0.5 in the type `.int` at scale 2⁰ (byte 0x20) ties to the even code 0 and sets IZ (bit 3); code 0xF of `.int` is −1; a NaN scale. -/
theorem test_q4 :
    (ranOf 0x2100805030003400#64 [(5, 0, 0x3F000000#32), (6, 0, 0x00000020#32)]).map (fun w => w.fflags) = some 0x8#4 ∧
    ran 0x2100805030003400#64 [(5, 0, 0x3F000000#32), (6, 0, 0x00000020#32)] 4 0 = some 0x00000000#32 ∧
    ran 0x2140805030003400#64 [(5, 0, 0x0000000F#32), (6, 0, 0x00000020#32)] 4 0 = some 0xBF800000#32 ∧
    ran 0x2140805030003400#64 [(5, 0, 0x00000003#32), (6, 0, 0x0000003F#32)] 4 0 = some 0x7FC00000#32 := by decide +kernel

/-- R247, R248, R249, R251: a ballot, the sets of equal lanes, lane 31 takes lane 0 under `.rot` by 1, `elect.s`. -/
theorem test_wave_wide :
    ran 0x2420805000001020#64 [(5, 0, 0x00000009#32), (5, 4, 0x00000009#32)] 260 0 = some 0x00000011#32 ∧
    ran 0x2440805000001000#64 [(5, 0, 0x00000009#32), (5, 4, 0x00000009#32)] 4 0 = some 0x00000011#32 ∧
    ran 0x2480805830001010#64 [(5, 0, 0x00000009#32), (262, 0, 0x00000001#32)] 4 31 = some 0x00000009#32 ∧
    ran 0x2560800000001010#64 [] 260 0 = some 0x00000000#32 := by decide +kernel

/-- R250: `red.add` of 1 in lane 0 and 2 in lane 5; `scan.add.excl` gives lane 0 the identity and lane 5 the sum below it. -/
theorem test_red_scan :
    ran 0x24E0805000001000#64 [(5, 0, 0x00000001#32), (5, 5, 0x00000002#32)] 260 0 = some 0x00000003#32 ∧
    ran 0x2500805000001080#64 [(5, 0, 0x00000001#32), (5, 5, 0x00000002#32)] 4 0 = some 0x00000000#32 ∧
    ran 0x2500805000001080#64 [(5, 0, 0x00000001#32), (5, 5, 0x00000002#32)] 4 5 = some 0x00000001#32 := by decide +kernel

end Sys2Proof.Tests
end

section
/-!
PROOF. Reductions and scans (spec 05 R151, R152; 09 R250): the model's lists of lanes, combined level by level, against the
recursive tree and the steps of the statement.
-/

namespace Sys2Proof.Laws
open Sys2Proof.Machine Sys2Proof.Claims

/-! ### Results with flags -/

/-- The lanes of a mask that is not empty begin with its lowest lane. -/
theorem lanesOf_eq_cons {m : Mask} (h : m ≠ 0#32) : ∃ ls, lanesOf m = lowLane m :: ls := by
  cases hl : lanesOf m with
  | cons l ls => exact ⟨ls, by rw [lowLane, hl]; rfl⟩
  | nil =>
    refine absurd (BitVec.eq_of_getLsbD_eq fun l hlt => ?_) h
    have hn : l ∉ lanesOf m := by simp [hl]
    simpa [hlt] using hn

/-- An empty mask has no lanes. -/
theorem lanesOf_zero : lanesOf 0#32 = [] := by simp [lanesOf]

/-- A word that computes results with flags writes those results and ORs the flags of the lanes it computes (R154, R169). -/
theorem calc_eq_done (c : Ctx) (s : State) (d : BitVec 9) (f : Nat → List Word × Flags) :
    c.calc s d f = .done (s.updWave c.id (fun v => (v.regWrites (c.results d.toNat (fun l => (f l).1))).orFlags
      (orAll ((c.calcLanes d.toNat).map (fun l => (f l).2))))) := by
  unfold Ctx.calc Ctx.put Ctx.results Ctx.calcLanes
  by_cases hd : d.toNat < 0x100
  · simp [hd, List.flatMap_map, Function.comp_def]
  · by_cases he : c.eff = 0#32
    · simp [hd, he, Ctx.lanes, lanesOf_zero]
    · obtain ⟨ls, hls⟩ := lanesOf_eq_cons he
      simp [hd, he, Ctx.lanes, hls]

/-- A word with an effective lane computes for one. -/
theorem calcLanes_ne_nil {c : Ctx} (d : Nat) (h : c.eff ≠ 0#32) : c.calcLanes d ≠ [] := by
  obtain ⟨ls, hls⟩ := lanesOf_eq_cons h
  unfold Ctx.calcLanes Ctx.lanes
  split <;> simp [hls]

/-! ### Flags of lists -/

/-- The flags of a list begin with those of its head. -/
@[simp] theorem orAll_cons (a : Flags) (fs : List Flags) : orAll (a :: fs) = a ||| orAll fs := by
  have hfold : ∀ (fs : List Flags) (a : Flags), fs.foldl (fun a b => a ||| b) a = a ||| orAll fs := by
    intro fs
    induction fs with
    | nil => simp [orAll]
    | cons b fs ih =>
      intro a
      rw [orAll, List.foldl_cons, List.foldl_cons, ih, ih (0#4 ||| b), BitVec.zero_or, BitVec.or_assoc]
  rw [orAll, List.foldl_cons, BitVec.zero_or, hfold]

/-- The flags of an empty list. -/
@[simp] theorem orAll_nil : orAll [] = 0#4 := rfl

/-- The flags of two lists. -/
theorem orAll_append (fs gs : List Flags) : orAll (fs ++ gs) = orAll fs ||| orAll gs := by
  induction fs with
  | nil => simp
  | cons a fs ih => simp [ih, BitVec.or_assoc]

/-- Equal flags at every lane of a list that is not empty. -/
theorem orAll_map_const {α : Type} {ls : List α} (h : ls ≠ []) (a : Flags) : orAll (ls.map (fun _ => a)) = a := by
  induction ls with
  | nil => exact absurd rfl h
  | cons l ls ih =>
    cases ls with
    | nil => simp
    | cons k ls => rw [List.map_cons, orAll_cons, ih (by simp), BitVec.or_self]

/-! ### Values of nodes and inputs -/

/-- The integer of a pattern under a type (R189). -/
theorem tyVal_eq_val (t : Nat) (x : Word) : tyVal t x = val t x := by
  unfold tyVal val intVal sInt pat
  have hw : 0 < tyWidth t := by unfold tyWidth; split_ifs <;> decide
  obtain ⟨n, hn⟩ : ∃ n, tyWidth t = n + 1 := ⟨tyWidth t - 1, by omega⟩
  simp only [hn, BitVec.toInt_eq_toNat_cond, BitVec.toNat_setWidth, Nat.add_sub_cancel]
  have hp : 2 ^ (n + 1) = 2 * 2 ^ n := by rw [Nat.pow_succ, Nat.mul_comm]
  split_ifs <;> omega

/-- The rounding mode of a word (R143). -/
theorem roundMode_eq (w : RWord) : roundMode w = w.flags.toNat % 4 := by
  simp [roundMode]

/-- The sum of integers at a node: modulo 2^32, or kept in the range of the 32-bit type under `.sat` (R250). -/
theorem wdI_sum_eq_fit32 (w : RWord) (r : Int) :
    wdI (if saturates w then satInt 32 (tySigned w.ty) r else r) = fit32 (w.flags.getLsbD 2) (tySigned w.ty) r := by
  unfold wdI fit32 satInt intMin intMax
  cases tySigned w.ty <;> rfl

/-- A node of `red` and `scan` is one combination of the statement. -/
theorem redNode_eq_combineTwo (w : RWord) (op : Nat) : redNode w op = combineTwo w op := by
  funext x y
  unfold redNode
  simp only [tyVal_eq_val, roundMode_eq, wdI_sum_eq_fit32]
  match op with
  | 0 | 1 | 2 | 3 | 4 => rfl
  | _ + 5 => rfl

/-- A lane outside the effective mask brings the identity (R41). -/
theorem brought_eq (c : Ctx) (w : RWord) (op l : Nat) :
    brought c w op l = if c.eff.getLsbD l then c.opnd w.a l else redIdentity op w.ty := rfl

/-- With no effective lane every lane brings it. -/
theorem brought_of_empty (c : Ctx) (w : RWord) (op l : Nat) : brought { c with eff := 0#32 } w op l = redIdentity op w.ty := by
  simp [brought_eq]

/-- The inputs of `red` and `scan` are what the lanes bring. -/
theorem redInputs_eq (c : Ctx) (w : RWord) (op : Nat) : c.redInputs w op = lanes.map (brought c w op) := rfl

/-! ### The tree of R151 -/

/-- The combination of lanes `2 i` and `2 i + 1`. -/
def pairAt (f : Word → Word → Word × Flags) (x : Nat → Word) (i : Nat) : Word × Flags := f (x (2 * i)) (x (2 * i + 1))

/-- One level over the lanes from `2 l` on combines them pair by pair. -/
theorem redLevel_map_range' (f : Word → Word → Word × Flags) (x : Nat → Word) (m l : Nat) :
    redLevel f ((List.range' (2 * l) (2 * m)).map x) = (List.range' l m).map (pairAt f x) := by
  induction m generalizing l with
  | zero => rfl
  | succ m ih =>
    have hsplit : List.range' (2 * l) (2 * (m + 1)) = 2 * l :: (2 * l + 1) :: List.range' (2 * (l + 1)) (2 * m) := rfl
    rw [hsplit, List.map_cons, List.map_cons, redLevel, ih, List.range'_succ, List.map_cons, pairAt]

/-- A tree with one level more is the tree over the pairs, whose events are added. -/
theorem tree_succ_eq_tree_pairs (f : Word → Word → Word × Flags) (x : Nat → Word) (n l : Nat) :
    tree f x (n + 1) (2 * l) = ((tree f (fun i => (pairAt f x i).1) n l).1,
      (tree f (fun i => (pairAt f x i).1) n l).2 ||| orAll ((List.range' l (2 ^ n)).map (fun i => (pairAt f x i).2))) := by
  induction n generalizing l with
  | zero => simp [tree, pairAt]
  | succ n ih =>
    have hmid : 2 * l + 2 ^ (n + 1) = 2 * (l + 2 ^ n) := by rw [Nat.pow_succ]; omega
    have hrange : List.range' l (2 ^ (n + 1)) = List.range' l (2 ^ n) ++ List.range' (l + 2 ^ n) (2 ^ n) := by
      rw [List.range'_append_1, Nat.pow_succ, Nat.mul_two]
    rw [tree, hmid, ih, ih, hrange, List.map_append, orAll_append, tree]
    simp only [Prod.mk.injEq, true_and]
    ac_rfl

/-- The levels of the model's tree over `2 ^ n` lanes give the tree of the statement. -/
theorem redTree_eq_tree (f : Word → Word → Word × Flags) (x : Nat → Word) (n : Nat) :
    redTree f n ((List.range' 0 (2 ^ n)).map x) = tree f x n 0 := by
  induction n generalizing x with
  | zero => rfl
  | succ n ih =>
    have hlevel := redLevel_map_range' f x (2 ^ n) 0
    have hpairs := tree_succ_eq_tree_pairs f x n 0
    rw [Nat.mul_zero] at hlevel hpairs
    rw [redTree, Nat.pow_succ', hlevel, hpairs, ← ih, List.map_map, List.map_map]
    rfl

/-! ### The steps of R152 -/

/-- Lane `l` of a list over the 32 lanes. -/
theorem getD_map_lanes {α : Type} (g : Nat → α) (z : α) {l : Nat} (hl : l < 32) : (lanes.map g).getD l z = g l := by
  simp [lanes, hl]

/-- The step of R152 at distance `d` on the values of the lanes. -/
def scanStep (f : Word → Word → Word × Flags) (d : Nat) (x : Nat → Word) (l : Nat) : Word × Flags :=
  if d ≤ l then f (x (l - d)) (x l) else (x l, 0#4)

/-- The model's step at distance `d` on the list of the lanes' values and the events so far: the function `scanSteps` folds. -/
def scanRound (f : Word → Word → Word × Flags) (act : Mask) (acc : List Word × Flags) (d : Nat) : List Word × Flags :=
  let us := lanes.map (scanStep f d (fun l => acc.1.getD l 0#32))
  (us.map (fun p => p.1), acc.2 ||| orAll ((lanesOf act).map (fun l => (us.getD l (0#32, 0#4)).2)))

/-- The model's step on lanes that hold `x`. -/
theorem scanRound_map_lanes (f : Word → Word → Word × Flags) (act : Mask) (x : Nat → Word) (e : Flags) (d : Nat) :
    scanRound f act (lanes.map x, e) d =
      (lanes.map (fun l => (scanStep f d x l).1), e ||| orAll ((lanesOf act).map (fun l => (scanStep f d x l).2))) := by
  have hvalues : lanes.map (scanStep f d (fun l => (lanes.map x).getD l 0#32)) = lanes.map (scanStep f d x) := by
    refine List.map_congr_left fun l hl => ?_
    have hlt : l < 32 := by simpa [lanes] using hl
    simp only [scanStep, getD_map_lanes x 0#32 hlt, getD_map_lanes x 0#32 (Nat.lt_of_le_of_lt (Nat.sub_le l d) hlt)]
  have hevents : (lanesOf act).map (fun l => ((lanes.map (scanStep f d x)).getD l (0#32, 0#4)).2) =
      (lanesOf act).map (fun l => (scanStep f d x l).2) :=
    List.map_congr_left fun l hl => by rw [getD_map_lanes _ _ ((mem_lanesOf act l).1 hl).1]
  rw [scanRound, hvalues, hevents, List.map_map]
  rfl

/-- The steps of the model on the list of the lanes are those of the statement, with the events of the lanes of a mask. -/
theorem scanSteps_eq_scanned (f : Word → Word → Word × Flags) (act : Mask) (x : Nat → Word) :
    scanSteps f act (lanes.map x) = (lanes.map (scanned f act [1, 2, 4, 8, 16] x).1, (scanned f act [1, 2, 4, 8, 16] x).2) := by
  have hfold : ∀ (ds : List Nat) (x : Nat → Word) (e : Flags),
      ds.foldl (scanRound f act) (lanes.map x, e) = (lanes.map (scanned f act ds x).1, e ||| (scanned f act ds x).2) := by
    intro ds
    induction ds with
    | nil => simp [scanned]
    | cons d ds ih =>
      intro x e
      rw [List.foldl_cons, scanRound_map_lanes, ih, BitVec.or_assoc]
      rfl
  have hrun := hfold [1, 2, 4, 8, 16] x 0#4
  rw [BitVec.zero_or] at hrun
  exact hrun

/-- The lane below in an exclusive scan, whose lane 0 takes the identity (R152). -/
theorem getD_cons_map_lanes (g : Nat → Word) (z : Word) {l : Nat} (hl : l < 32) :
    (z :: lanes.map g).getD l 0#32 = if l = 0 then z else g (l - 1) := by
  cases l with
  | zero => rfl
  | succ l => rw [List.getD_cons_succ, getD_map_lanes g _ (by omega)]; rfl

/-! ### The two words -/

/-- `red` combines what the lanes bring over the tree of R151. -/
theorem redTree_redInputs (c : Ctx) (w : RWord) (op : Nat) :
    redTree (redNode w op) 5 (c.redInputs w op) = tree (combineTwo w op) (brought c w op) 5 0 := by
  rw [redNode_eq_combineTwo, redInputs_eq]
  exact redTree_eq_tree (combineTwo w op) (brought c w op) 5

/-- `scan` takes what the lanes bring through the steps of R152. -/
theorem scanSteps_redInputs (c : Ctx) (w : RWord) (op : Nat) (act : Mask) :
    scanSteps (redNode w op) act (c.redInputs w op) =
      (lanes.map (scanned (combineTwo w op) act [1, 2, 4, 8, 16] (brought c w op)).1,
        (scanned (combineTwo w op) act [1, 2, 4, 8, 16] (brought c w op)).2) := by
  rw [redNode_eq_combineTwo, redInputs_eq, scanSteps_eq_scanned]

/-- Lane `l` receives its prefix `g l`, or in an exclusive scan the prefix of the lane below and at lane 0 the identity (R152). -/
theorem getD_scan_out (c : Ctx) (w : RWord) (op : Nat) (g : Nat → Word) {l : Nat} (hl : l ∈ c.lanes) :
    (if 8 ≤ w.minor then redIdentity op w.ty :: lanes.map g else lanes.map g).getD l 0#32 =
      if 8 ≤ w.minor then (if l = 0 then brought { c with eff := 0#32 } w op 0 else g (l - 1)) else g l := by
  have hlt : l < 32 := ((mem_lanesOf c.eff l).1 hl).1
  rw [brought_of_empty]
  split
  · exact getD_cons_map_lanes g _ hlt
  · exact getD_map_lanes g _ hlt

/-- Settles O14: the model's levels and steps over lists of lanes are the tree and the steps of the statement. -/
theorem reductionsAndScans : Obligations.ReductionsAndScans := by
  unfold Obligations.ReductionsAndScans
  refine fun w => ⟨fun s c hi => issueWord_done hi ?red, fun s c hi => issueWord_done hi ?scan⟩
  case red =>
    dsimp only
    rw [redTree_redInputs]
    split
    · rfl
    · next he => rw [calc_eq_done, orAll_map_const (calcLanes_ne_nil _ he)]
  case scan =>
    dsimp only
    rw [scanSteps_redInputs]
    split
    · rfl
    · rw [Ctx.put, List.map_congr_left fun l hl => congrArg (RegWrite.mk w.d.toNat l) (getD_scan_out c w _ _ hl)]

end Sys2Proof.Laws
end

section
/-!
PROOF. What the integer words share (spec 07 R188, R189, R193): the form of their issue, and the integers and patterns of a type.
-/

namespace Sys2Proof.Laws
open Sys2Proof.Machine Sys2Proof.Claims

/-! ### The form that the words share -/

/-- No flags added leave a wave as it is. -/
@[simp] theorem orFlags_zero (w : Wave) : w.orFlags 0#4 = w := by simp [Wave.orFlags]

/-- A word that puts one result a lane writes those results and nothing else. -/
theorem put32_eq_done (c : Ctx) (s : State) (d : BitVec 9) (f : Nat → Word) :
    c.put32 s d f = .done (s.updWave c.id (fun v => v.regWrites (c.results d.toNat (fun l => [f l])))) := by
  simp [Ctx.put32, Ctx.put]

/-- A word whose body puts one result a lane writes it wherever it issues. -/
theorem writes_of_put32 {i : Instr} {d : BitVec 9} {f : Ctx → Nat → Word}
    (hexec : ∀ s, exec i s = issueWord i s (fun c s => c.put32 s d (f c))) : Writes i d (fun _ c l => [f c l]) := fun s c hi => by
  rw [Completes, hexec]
  exact issueWord_done hi (put32_eq_done c _ d (f c))

/-- An untyped word computes `g` where the model's function is `g` (R193). -/
theorem words_of_untyped {i : Instr} {w : RWord} {f g : Word → Word → Word → Word}
    (hexec : ∀ s, exec i s = issueWord i s (fun c s => c.untyped s w f)) (hfg : ∀ a b d, f a b d = g a b d) : Words i w g := by
  obtain rfl : f = g := by funext a b d; exact hfg a b d
  exact writes_of_put32 hexec

/-! ### The integers of a type (R189) -/

/-- The signed integer of a bit vector's pattern. -/
theorem sInt_toNat {n : Nat} (x : BitVec n) : sInt n x.toNat = x.toInt := by
  unfold sInt
  rw [BitVec.toInt_eq_toNat_cond, Nat.mod_eq_of_lt x.isLt]
  cases n with
  | zero => simp [BitVec.of_length_zero]
  | succ n =>
    have hp : 2 ^ (n + 1) = 2 * 2 ^ n := by rw [Nat.pow_succ, Nat.mul_comm]
    simp only [Nat.add_sub_cancel, hp]
    split_ifs <;> omega

/-- The integer of a bit vector's pattern, signed or not. -/
theorem intVal_toNat {n : Nat} (sg : Bool) (x : BitVec n) : intVal n sg x.toNat = if sg then x.toInt else (x.toNat : Int) := by
  rw [intVal, sInt_toNat, Nat.mod_eq_of_lt x.isLt]

/-- The pattern of an integer modulo `2 ^ n`. -/
theorem wrapInt_eq_toNat (n : Nat) (r : Int) : wrapInt n r = (BitVec.ofInt n r).toNat := (BitVec.toNat_ofInt r).symm

/-- The word of a pattern's integer is the pattern extended. -/
theorem wdI_intVal {n : Nat} (sg : Bool) (x : BitVec n) :
    wdI (intVal n sg x.toNat) = if sg then x.signExtend 32 else x.setWidth 32 := by
  rw [wdI, intVal_toNat]
  split
  · rfl
  · rw [BitVec.ofInt_natCast, BitVec.ofNat_toNat]

/-- The model's extension of an integer is that of its pattern. -/
theorem tyExt_eq_out (t : Nat) (r : Int) : tyExt t r = out t (BitVec.ofInt (tyWidth t) r) := by
  rw [tyExt, wrapInt_eq_toNat, wdI_intVal, out]

/-- The model's saturation and extension give the result of a word. -/
theorem tyExt_sat_eq_result (w : RWord) (r : Int) :
    tyExt w.ty (if w.flags.getLsbD 2 then satInt (tyWidth w.ty) (tySigned w.ty) r else r) = result w r := tyExt_eq_out _ _

/-- A typed word computes `g` where the model's function is `g`. -/
theorem typed_of_exec {i : Instr} {w : RWord} {f g : Int → Int → Int → Int}
    (hexec : ∀ s, exec i s = issueWord i s (fun c s => c.typed s w f)) (hfg : ∀ a b d, f a b d = g a b d) : Typed i w g := by
  obtain rfl : f = g := by funext a b d; exact hfg a b d
  have h := writes_of_put32 hexec
  simp only [tyVal_eq_val, tyExt_sat_eq_result] at h
  exact h

/-- The pattern of a type in a register. -/
theorem toNat_pat (t : Nat) (x : Word) : (pat t x).toNat = x.toNat % 2 ^ tyWidth t := BitVec.toNat_setWidth _ _

/-- A word on patterns computes `g` where the model's integer is that of `g`. -/
theorem pattern_of_exec {i : Instr} {w : RWord} {f : Nat → Nat → Nat → Int} {g : BitVec (tyWidth w.ty) → Nat → BitVec (tyWidth w.ty)}
    (hexec : ∀ s, exec i s = issueWord i s (fun c s => c.pattern s w f))
    (hfg : ∀ x n, BitVec.ofInt _ (f (tyWidth w.ty) x.toNat n) = g x n) : Pattern i w g := by
  have h := writes_of_put32 hexec
  simp only [tyExt_eq_out, ← toNat_pat, hfg] at h
  exact h

end Sys2Proof.Laws
end

section
/-!
PROOF. Typed integer arithmetic, division and the sums of products (spec 07 R189, R194, R198).
-/

namespace Sys2Proof.Laws
open Sys2Proof.Machine Sys2Proof.Claims

/-! ### Typed arithmetic -/

/-- Without `.ci` and `.cc` the sum and the difference are typed (R189, R190). -/
theorem addSub_eq_typed (c : Ctx) (s : State) {w : RWord} (sub : Bool) (hcc : w.flags.getLsbD 0 = false) (hci : w.flags.getLsbD 1 = false) :
    c.addSub s w sub = c.typed s w (fun a b _ => if sub then a - b else a + b) := by
  simp only [Ctx.addSub, hcc, hci, Bool.or_self, Bool.false_eq_true, if_false]

/-- `iadd` and `isub` without carry forms. -/
theorem typed_addSub {w : RWord} {i : Instr} {sub : Bool} (hexec : ∀ s, exec i s = issueWord i s (fun c s => c.addSub s w sub))
    (hcc : w.flags.getLsbD 0 = false) (hci : w.flags.getLsbD 1 = false) : Typed i w (fun a b _ => if sub then a - b else a + b) := by
  simp only [addSub_eq_typed _ _ sub hcc hci] at hexec
  exact typed_of_exec hexec (fun _ _ _ => rfl)

/-- The absolute value by the sign. -/
theorem natAbs_eq_ite (a : Int) : (a.natAbs : Int) = if a < 0 then -a else a := by split <;> omega

/-- Quotient and remainder of `idiv`, a zero divisor included (R194). -/
theorem divVal_eq (n : Nat) (sg : Bool) (a b : Int) : divVal n sg a b =
    if b = 0 then ((if sg then -1 else (2 ^ n : Nat) - 1, a) : Int × Int) else (a.tdiv b, a.tmod b) := by
  rw [divVal, Int.tmod_def, Int.mul_comm b]

/-- The typed words compute the integers of R189 and R194. -/
theorem typedArithmetic_holds : Claims.typedArithmetic := fun w =>
  ⟨fun hcc hci => ⟨typed_addSub (sub := false) (fun _ => rfl) hcc hci, typed_addSub (sub := true) (fun _ => rfl) hcc hci⟩,
    typed_of_exec (fun _ => rfl) fun _ _ _ => rfl,
    typed_of_exec (fun _ => rfl) fun _ _ _ => rfl,
    typed_of_exec (fun _ => rfl) fun _ _ _ => rfl,
    typed_of_exec (fun _ => rfl) fun a _ _ => natAbs_eq_ite a,
    typed_of_exec (fun _ => rfl) fun a b _ => min_def a b,
    typed_of_exec (fun _ => rfl) fun a b _ => max_def a b,
    typed_of_exec (fun _ => rfl) fun a b _ => by
      rw [divVal_eq]
      split_ifs <;> rfl⟩

/-! ### Sums of products and differences (R198) -/

/-- A sum brought into 32 bits, saturated where the word says so. -/
theorem wdI_sat_eq_fit32 (sat sg : Bool) (r : Int) : wdI (if sat then satInt 32 sg r else r) = fit32 sat sg r := by
  cases sg <;> rfl

/-- A byte of a word as an integer. -/
theorem intVal_byte (sg : Bool) (x : Word) (i : Nat) : intVal 8 sg (x.toNat / 256 ^ i) =
    if sg then (x.extractLsb' (8 * i) 8).toInt else ((x.extractLsb' (8 * i) 8).toNat : Int) := by
  have hbyte : (x.extractLsb' (8 * i) 8).toNat = x.toNat / 256 ^ i % 2 ^ 8 := by
    rw [BitVec.extractLsb'_toNat, Nat.shiftRight_eq_div_pow, Nat.pow_mul]
  rw [← intVal_toNat, hbyte, intVal, intVal, sInt, sInt, Nat.mod_mod]

/-- The sum of `dot4`. -/
theorem dot4Val_eq_dot4Of (sa sb sat : Bool) (a b d : Word) : dot4Val sa sb sat a b d = dot4Of sa sb sat a b d := by
  have hrange : List.range 4 = [0, 1, 2, 3] := rfl
  simp only [dot4Val, dot4Of, acc32, wdI_sat_eq_fit32, intVal_byte, hrange, List.foldl_cons, List.foldl_nil, zero_add, add_assoc]

/-- The sums of R198. -/
theorem dotAndDifferenceSums_holds : Claims.dotAndDifferenceSums := fun w =>
  ⟨words_of_untyped (fun _ => rfl) fun a b d => by
      rw [dot4Val_eq_dot4Of, Bool.decide_and]
      rfl,
    words_of_untyped (fun _ => rfl) fun a b d => by
      simp only [wdI_sat_eq_fit32, tyVal_eq_val, natAbs_eq_ite]
      rfl⟩

/-- Settles O2: the typed words are the form of R189 with the integers of the statement, and the sums of R198 are those of the
bytes taken one by one. -/
theorem integerArithmetic : Obligations.IntegerArithmetic := ⟨typedArithmetic_holds, dotAndDifferenceSums_holds⟩

end Sys2Proof.Laws
end

section
/-!
PROOF. Shifts, rotations and bit counts (spec 07 R189): the model's arithmetic on patterns against operations on bit vectors.
-/

namespace Sys2Proof.Laws
open Sys2Proof.Machine Sys2Proof.Claims

/-! ### Shifts and rotations (R189) -/

/-- `shl`. -/
theorem ofInt_shlVal {n : Nat} (x : BitVec n) (k : Nat) : BitVec.ofInt n (shlVal n x.toNat k) = x <<< k := by
  unfold shlVal
  split
  · next h => simp [BitVec.shiftLeft_eq_zero h]
  · rw [BitVec.ofInt_natCast]
    exact BitVec.eq_of_toNat_eq (by rw [BitVec.toNat_ofNat, BitVec.toNat_shiftLeft, Nat.shiftLeft_eq])

/-- `shr`: a count of the width or more leaves nothing. -/
theorem ofInt_shrVal {n : Nat} (x : BitVec n) (k : Nat) : BitVec.ofInt n (shrVal n x.toNat k) = x >>> k := by
  have hv : shrVal n x.toNat k = (x >>> k).toNat := by
    rw [BitVec.toNat_ushiftRight, Nat.shiftRight_eq_div_pow, shrVal]
    split
    · next h => exact (Nat.div_eq_of_lt (Nat.lt_of_lt_of_le x.isLt (Nat.pow_le_pow_right (by decide) h))).symm
    · rfl
  rw [hv, BitVec.ofInt_natCast, BitVec.ofNat_toNat, BitVec.setWidth_eq]

/-- `sar`: a count of the width or more leaves the sign. -/
theorem ofInt_sarVal {n : Nat} (x : BitVec n) (k : Nat) : BitVec.ofInt n (sarVal n x.toNat k) = x.sshiftRight k := by
  have hv : sarVal n x.toNat k = x.toInt / (2 ^ k : Nat) := by
    unfold sarVal
    rw [sInt_toNat]
    split
    · next h =>
      have hlt := BitVec.two_mul_toInt_lt (x := x)
      have hle := BitVec.le_two_mul_toInt (x := x)
      have hpow : (2 : Int) ^ n ≤ (2 ^ k : Nat) := by exact_mod_cast Nat.pow_le_pow_right (by decide : 0 < 2) h
      dsimp only
      split
      · next hneg => rw [Int.ediv_eq_neg_one_of_neg_of_le hneg (by omega)]
      · next hpos => exact (Int.ediv_eq_zero_of_lt (by omega) (by omega)).symm
    · rfl
  rw [hv, ← Int.shiftRight_eq_div_pow]
  rfl

/-- The two parts of a rotation by `m` have no bit in common. -/
theorem shiftLeft_and_ushiftRight_sub {n : Nat} (x : BitVec n) (m : Nat) : x <<< m &&& x >>> (n - m) = 0#n := by
  refine BitVec.eq_of_getLsbD_eq fun i hi => ?_
  rw [BitVec.getLsbD_and, BitVec.getLsbD_shiftLeft, BitVec.getLsbD_ushiftRight, BitVec.getLsbD_zero]
  by_cases h : i < m
  · simp [h]
  · rw [BitVec.getLsbD_of_ge x (n - m + i) (by omega), Bool.and_false]

/-- `rot` to the left: the two parts of the rotation add up. -/
theorem ofInt_rotVal {n : Nat} (x : BitVec n) (k : Nat) : BitVec.ofInt n (rotVal n x.toNat k) = x.rotateLeft k := by
  have hhigh : BitVec.ofNat n (x.toNat * 2 ^ (k % n) % 2 ^ n) = x <<< (k % n) :=
    BitVec.eq_of_toNat_eq (by rw [BitVec.toNat_ofNat, Nat.mod_mod, BitVec.toNat_shiftLeft, Nat.shiftLeft_eq])
  have hlow : BitVec.ofNat n (x.toNat / 2 ^ (n - k % n)) = x >>> (n - k % n) := by
    rw [← Nat.shiftRight_eq_div_pow, ← BitVec.toNat_ushiftRight, BitVec.ofNat_toNat, BitVec.setWidth_eq]
  rw [rotVal, BitVec.ofInt_natCast, BitVec.ofNat_add, hhigh, hlow,
    BitVec.add_eq_or_of_and_eq_zero _ _ (shiftLeft_and_ushiftRight_sub x _), BitVec.rotateLeft_def]

/-- A rotation to the right is one to the left by the rest of the width. -/
theorem rotateLeft_sub_mod {n : Nat} (x : BitVec n) (k : Nat) : x.rotateLeft (n - k % n) = x.rotateRight k := by
  rw [BitVec.rotateLeft_def, BitVec.rotateRight_def]
  cases n with
  | zero => exact BitVec.of_length_zero.trans BitVec.of_length_zero.symm
  | succ n =>
    by_cases h : k % (n + 1) = 0
    · simp [h, BitVec.ushiftRight_eq_zero]
    · have hlt := Nat.mod_lt k n.succ_pos
      rw [Nat.mod_eq_of_lt (a := n + 1 - k % (n + 1)) (by omega), Nat.sub_sub_self hlt.le, BitVec.or_comm]

/-! ### Bit counts (R189) -/

/-- The set bits among the lowest `n`, counted upwards and counted downwards. -/
theorem popVal_eq_cpopNatRec {w : Nat} (x : BitVec w) (n : Nat) : popVal n x.toNat = x.cpopNatRec n 0 := by
  unfold popVal
  induction n with
  | zero => rfl
  | succ n ih =>
    rw [List.range_succ, List.foldl_append, ih, BitVec.cpopNatRec_succ, BitVec.cpopNatRec_eq (acc := _ + _), Nat.zero_add]
    simp [BitVec.testBit_toNat, Bool.toNat, Bool.cond_eq_ite]

/-- `popc`. -/
theorem ofInt_popVal {n : Nat} (x : BitVec n) : BitVec.ofInt n (popVal n x.toNat) = x.cpop := by
  rw [BitVec.ofInt_natCast, popVal_eq_cpopNatRec, BitVec.cpop]

/-- How many of the bits from `n` down are zero before the first that is set. -/
theorem clzAuxRec_eq_takeWhile {w : Nat} (x : BitVec w) {n : Nat} (hn : n < w) : x.clzAuxRec n =
    BitVec.ofNat w (w - 1 - n + ((List.range (n + 1)).takeWhile (fun i => !x.toNat.testBit (n - i))).length) := by
  induction n with
  | zero =>
    rw [BitVec.clzAuxRec_zero, Nat.zero_add, List.range_one, List.takeWhile_cons, BitVec.testBit_toNat]
    cases x.getLsbD 0 with
    | true => rfl
    | false => exact congrArg (BitVec.ofNat w) (show w = w - 1 - 0 + 1 by omega)
  | succ n ih =>
    rw [BitVec.clzAuxRec_succ, List.range_succ_eq_map, List.takeWhile_cons, BitVec.testBit_toNat, Nat.sub_zero]
    cases x.getLsbD (n + 1) with
    | true => rfl
    | false =>
      rw [if_neg Bool.false_ne_true, ih (by omega), Bool.not_false, if_pos rfl, List.length_cons, List.takeWhile_map, List.length_map]
      congr 1
      have hcount : (fun i => !x.toNat.testBit (n + 1 - i)) ∘ Nat.succ = fun i => !x.toNat.testBit (n - i) := by
        funext i
        simp
      rw [hcount]
      omega

/-- `clz`. -/
theorem ofInt_clzVal {n : Nat} (x : BitVec n) : BitVec.ofInt n (clzVal n x.toNat) = x.clz := by
  cases n with
  | zero => exact BitVec.of_length_zero.trans BitVec.of_length_zero.symm
  | succ n => rw [BitVec.ofInt_natCast, BitVec.clz, clzAuxRec_eq_takeWhile x (by omega), Nat.sub_self, Nat.zero_add]; rfl

/-- The trailing zeros of a pattern are the leading zeros of the pattern reversed. -/
theorem ctzVal_eq_clzVal_reverse {n : Nat} (x : BitVec n) : ctzVal n x.toNat = clzVal n x.reverse.toNat := by
  have hbits : (List.range n).map (fun i => !x.toNat.testBit i) = (List.range n).map (fun i => !x.reverse.toNat.testBit (n - 1 - i)) := by
    refine List.map_congr_left fun i hi => ?_
    have hlt := List.mem_range.1 hi
    rw [BitVec.testBit_toNat, BitVec.testBit_toNat, ← BitVec.getMsbD_reverse, BitVec.getMsbD_eq_getLsbD, decide_eq_true hlt, Bool.true_and]
  have hlen := congrArg (fun l => (l.takeWhile id).length) hbits
  simpa [List.takeWhile_map, ctzVal, clzVal] using hlen

/-- `ctz`. -/
theorem ofInt_ctzVal {n : Nat} (x : BitVec n) : BitVec.ofInt n (ctzVal n x.toNat) = x.ctz := by
  rw [ctzVal_eq_clzVal_reverse, ofInt_clzVal, BitVec.ctz_eq_reverse_clz]

/-! ### Sums of bits -/

/-- A word equals one given bit by bit where the bits agree. -/
theorem eq_ofBits {x : Word} {f : Nat → Bool} (h : ∀ i, i < 32 → x.getLsbD i = f i) : x = Claims.ofBits f := by
  refine BitVec.eq_of_getLsbD_eq fun i hi => ?_
  rw [Claims.ofBits, BitVec.getLsbD_ofFnLE, dif_pos hi, h i hi]

/-- A sum over the lowest numbers as the model folds it. -/
theorem foldl_add_eq_sum (f : Nat → Nat) (n : Nat) : (List.range n).foldl (fun a i => a + f i) 0 = ∑ i ∈ Finset.range n, f i := by
  induction n with
  | zero => rfl
  | succ n ih => rw [List.range_succ, List.foldl_append, ih, Finset.sum_range_succ]; rfl

/-- Bits summed at their weights. -/
theorem sum_weights_eq_ofBits (f : Nat → Bool) (n : Nat) :
    ∑ i ∈ Finset.range n, (if f i then 2 ^ i else 0) = Nat.ofBits (fun i : Fin n => f i) := by
  induction n generalizing f with
  | zero => rfl
  | succ n ih =>
    have hweights : ∀ i, (if f (i + 1) then 2 ^ (i + 1) else 0) = 2 * (if f (i + 1) then 2 ^ i else 0) := fun i => by
      split <;> simp [Nat.pow_succ']
    rw [Finset.sum_range_succ', Nat.ofBits_succ]
    simp only [hweights, ← Finset.mul_sum, ih (fun i => f (i + 1)), pow_zero]
    have hlow : (if f 0 then 1 else 0) = (f 0).toNat := by cases f 0 <;> rfl
    rw [hlow]
    rfl

/-- A word summed from bits at their weights. -/
theorem wd_foldl_weights (f : Nat → Bool) :
    wd ((List.range 32).foldl (fun a i => a + (if f i then 2 ^ i else 0)) 0) = Claims.ofBits f := by
  rw [foldl_add_eq_sum, sum_weights_eq_ofBits]
  refine BitVec.eq_of_toNat_eq ?_
  rw [wd, BitVec.toNat_ofNat, Claims.ofBits, BitVec.toNat_ofFnLE, Nat.mod_eq_of_lt (Nat.ofBits_lt_two_pow _)]

/-- `brev`: the weights of the bits are turned round. -/
theorem ofInt_brevVal {n : Nat} (x : BitVec n) : BitVec.ofInt n (brevVal n x.toNat) = x.reverse := by
  have hsum : brevVal n x.toNat = Nat.ofBits (fun i : Fin n => x.toNat.testBit (n - 1 - i)) := by
    rw [brevVal, foldl_add_eq_sum, ← Finset.sum_range_reflect, ← sum_weights_eq_ofBits (fun i => x.toNat.testBit (n - 1 - i))]
    refine Finset.sum_congr rfl fun i hi => ?_
    rw [Nat.sub_sub_self (Nat.le_sub_one_of_lt (Finset.mem_range.1 hi))]
  rw [BitVec.ofInt_natCast, hsum]
  refine BitVec.eq_of_getLsbD_eq fun i hi => ?_
  rw [BitVec.getLsbD_reverse, BitVec.getMsbD_eq_getLsbD, BitVec.getLsbD_ofNat, Nat.testBit_ofBits_lt _ _ hi, BitVec.testBit_toNat]

/-- Shifts and bit counts give the patterns of R189. -/
theorem shiftsAndCounts_holds : Claims.shiftsAndCounts := fun w =>
  ⟨pattern_of_exec (fun _ => rfl) ofInt_shlVal,
    pattern_of_exec (fun _ => rfl) ofInt_shrVal,
    pattern_of_exec (fun _ => rfl) ofInt_sarVal,
    pattern_of_exec (fun _ => rfl) fun x n => by
      split
      · exact ofInt_rotVal x n
      · rw [ofInt_rotVal, rotateLeft_sub_mod],
    pattern_of_exec (fun _ => rfl) fun x _ => ofInt_brevVal x,
    pattern_of_exec (fun _ => rfl) fun x _ => ofInt_popVal x,
    pattern_of_exec (fun _ => rfl) fun x _ => ofInt_clzVal x,
    pattern_of_exec (fun _ => rfl) fun x _ => ofInt_ctzVal x⟩

end Sys2Proof.Laws
end

section
/-!
PROOF. The bitwise words (spec 07 R191 to R193, R196, R197), bit by bit.
-/

namespace Sys2Proof.Laws
open Sys2Proof.Machine Sys2Proof.Claims

/-! ### `lfn` and `wext` (R191, R192) -/

/-- A bit of a code of `lfn`. -/
theorem testBit_code (mod : BitVec 14) (p : Nat) {j : Nat} (hj : j < 4) :
    (mod.extractLsb' p 4).toNat.testBit j = mod.getLsbD (p + j) := by
  rw [BitVec.testBit_toNat, BitVec.getLsbD_extractLsb', decide_eq_true hj, Bool.true_and]

/-- The index of a code of `lfn` from two bits. -/
theorem codeIndex_eq (x y : Bool) : (if x then 1 else 0) + (if y then 2 else 0) = x.toNat + 2 * y.toNat := by
  cases x <;> cases y <;> rfl

/-- `lfn`: its codes stand in MOD from bits 10 and 6, and bits of a and b form the index. -/
theorem lfnVal_eq_lfnOf (mod : BitVec 14) (a b d : Word) :
    lfnVal (mod.extractLsb' 10 4).toNat (mod.extractLsb' 6 4).toNat a b d = lfnOf mod a b d := by
  have hbit : ∀ i, (if d.getLsbD i then (mod.extractLsb' 10 4).toNat else (mod.extractLsb' 6 4).toNat).testBit
      ((a.getLsbD i).toNat + 2 * (b.getLsbD i).toNat) =
      mod.getLsbD ((if d.getLsbD i then 10 else 6) + (a.getLsbD i).toNat + 2 * (b.getLsbD i).toNat) := fun i => by
    have ha := (a.getLsbD i).toNat_lt
    have hb := (b.getLsbD i).toNat_lt
    split
    all_goals rw [testBit_code mod _ (by omega), Nat.add_assoc]
  simp only [lfnVal, lfnOf, codeIndex_eq, hbit, wd_foldl_weights]

/-- Two words as one number. -/
theorem pair64_eq_toNat (a b : Word) : pair64 a b = (b ++ a : Dword).toNat := by
  rw [BitVec.toNat_append, ← Nat.shiftLeft_add_eq_or_of_lt a.isLt, Nat.shiftLeft_eq, pair64, Nat.add_comm, Nat.mul_comm]

/-- A word of the low bits of a number. -/
theorem wd_eq_setWidth (m : Nat) : wd m = (BitVec.ofNat 64 m).setWidth 32 := (BitVec.setWidth_ofNat_of_le (by decide) m).symm

/-- The window that goes round is a rotation. -/
theorem window_eq_rotVal (x : Dword) {n : Nat} (hn : n < 64) :
    x.toNat / 2 ^ n + x.toNat % 2 ^ n * 2 ^ (64 - n) = rotVal 64 x.toNat (64 - n % 64) := by
  rw [rotVal, Nat.mod_eq_of_lt hn]
  by_cases h : n = 0
  · subst h
    simp [Nat.mod_one, Nat.div_eq_of_lt x.isLt, Nat.mod_eq_of_lt x.isLt]
  · have hpow : 2 ^ 64 = 2 ^ n * 2 ^ (64 - n) := by rw [← Nat.pow_add, Nat.add_sub_cancel' hn.le]
    rw [Nat.mod_eq_of_lt (a := 64 - n) (by omega), Nat.sub_sub_self hn.le, hpow, Nat.mul_mod_mul_right, Nat.add_comm]

/-- `wext`: the window of the two words. -/
theorem wextVal_eq_wextOf (minor : Nat) (a b d : Word) :
    wd (wextVal minor (pair64 a b) (d.toNat % 64)) = wextOf minor a b d := by
  have hlt : d.toNat % 64 < 64 := Nat.mod_lt _ (by decide)
  rw [wd_eq_setWidth, pair64_eq_toNat, wextOf]
  generalize (b ++ a : Dword) = x
  generalize d.toNat % 64 = n at *
  congr 1
  unfold wextVal
  split_ifs
  · rw [window_eq_rotVal x hlt, ← BitVec.ofInt_natCast, ofInt_rotVal, rotateLeft_sub_mod]
  · rw [← Nat.shiftRight_eq_div_pow, ← BitVec.toNat_ushiftRight, BitVec.ofNat_toNat, BitVec.setWidth_eq]
  · rw [sInt_toNat, wrapInt_eq_toNat, BitVec.ofNat_toNat, BitVec.setWidth_eq, ← Int.shiftRight_eq_div_pow]
    rfl

/-! ### Fields (R196) -/

/-- The operand of `bfe` with its field moved to bit 0, the sign behind it. -/
def bfeSource (sg : Bool) (a : Word) (p : Nat) : Word := if sg then a.sshiftRight p else a >>> p

/-- The bits of it. -/
theorem getLsbD_bfeSource (sg : Bool) (a : Word) (p : Nat) {i : Nat} (hi : i < 32) :
    (bfeSource sg a p).getLsbD i = if p + i < 32 then a.getLsbD (p + i) else sg && a.getLsbD 31 := by
  cases sg with
  | true =>
    simp only [bfeSource, if_true, BitVec.getLsbD_sshiftRight, Nat.not_le.2 hi, decide_false, Bool.not_false, Bool.true_and,
      BitVec.msb_eq_getLsbD_last]
  | false =>
    simp only [bfeSource, Bool.false_eq_true, if_false, BitVec.getLsbD_ushiftRight, Bool.false_and]
    split
    · rfl
    · exact BitVec.getLsbD_of_ge _ _ (by omega)

/-- The field that `bfe` takes, as a number. -/
theorem field_eq_toNat (sg : Bool) (a : Word) (p : Nat) {n : Nat} (hn : n ≤ 32) :
    (if sg then a.toInt else (a.toNat : Int)) / (2 ^ p : Nat) % (2 ^ n : Nat) = (((bfeSource sg a p).setWidth n).toNat : Int) := by
  cases sg with
  | true =>
    rw [if_pos rfl, bfeSource, if_pos rfl, ← BitVec.signExtend_eq_setWidth_of_le _ hn, BitVec.signExtend, BitVec.toInt_sshiftRight,
      Int.shiftRight_eq_div_pow, BitVec.toNat_ofInt, Int.toNat_of_nonneg (Int.emod_nonneg _ (by positivity))]
  | false =>
    rw [if_neg Bool.false_ne_true, bfeSource, if_neg Bool.false_ne_true, BitVec.toNat_setWidth, BitVec.toNat_ushiftRight,
      Nat.shiftRight_eq_div_pow]
    rfl

/-- Bits of a pattern extended to a word. -/
theorem getLsbD_extend {n : Nat} (sg : Bool) (z : BitVec n) {i : Nat} (hi : i < 32) :
    (if sg then z.signExtend 32 else z.setWidth 32).getLsbD i = if i < n then z.getLsbD i else sg && z.msb := by
  cases sg with
  | true => simp only [if_true, BitVec.getLsbD_signExtend, hi, decide_true, Bool.true_and]
  | false =>
    rw [if_neg Bool.false_ne_true, BitVec.getLsbD_setWidth, decide_eq_true hi, Bool.true_and, Bool.false_and]
    split
    · rfl
    · exact BitVec.getLsbD_of_ge _ _ (by omega)

/-- The integer of a field, an empty one being 0. -/
theorem fieldVal_eq_intVal {n : Nat} (sg : Bool) (z : BitVec n) :
    (if n = 0 then 0 else if sg ∧ ((2 ^ (n - 1) : Nat) : Int) ≤ (z.toNat : Int) then (z.toNat : Int) - (2 ^ n : Nat) else z.toNat) =
      intVal n sg z.toNat := by
  cases n with
  | zero => cases sg <;> simp [BitVec.of_length_zero, intVal, sInt]
  | succ n =>
    cases sg with
    | false => simp [intVal, Nat.mod_eq_of_lt z.isLt]
    | true => simp only [intVal, sInt, if_true, true_and, Nat.mod_eq_of_lt z.isLt, Nat.succ_ne_zero, if_false, Nat.cast_le]

/-- `bfe` extends its field. -/
theorem bfeVal_eq_extend (sg : Bool) (a b d : Word) : bfeVal sg a b d =
    if sg then ((bfeSource sg a (b.toNat % 256)).setWidth (min (d.toNat % 256) 32)).signExtend 32
    else ((bfeSource sg a (b.toNat % 256)).setWidth (min (d.toNat % 256) 32)).setWidth 32 := by
  rw [← wdI_intVal, ← fieldVal_eq_intVal, ← field_eq_toNat sg a _ (Nat.min_le_right _ 32)]
  rfl

/-- `bfe`: the field's bits, and above it its sign. -/
theorem bfeVal_eq_bfeOf (sg : Bool) (a b d : Word) : bfeVal sg a b d = bfeOf sg a b d := by
  unfold bfeOf
  refine eq_ofBits fun i hi => ?_
  have hn := Nat.min_le_right (d.toNat % 256) 32
  rw [bfeVal_eq_extend, getLsbD_extend sg _ hi, BitVec.msb_eq_getLsbD_last]
  generalize min (d.toNat % 256) 32 = n at *
  generalize b.toNat % 256 = p
  simp only [BitVec.getLsbD_setWidth]
  by_cases h0 : n = 0
  · simp [h0]
  · have hlast : n - 1 < n := by omega
    rw [Nat.add_sub_assoc (by omega), getLsbD_bfeSource sg a p (by omega : n - 1 < 32), getLsbD_bfeSource sg a p hi]
    simp only [h0, hlast, ne_eq, not_false_eq_true, decide_true, Bool.true_and]
    split <;> simp [*]

/-- The mask of `bfi`'s field. -/
theorem getLsbD_fieldMask (p n : Nat) {i : Nat} (hi : i < 32) :
    (wd ((2 ^ n - 1) * 2 ^ p)).getLsbD i = decide (p ≤ i ∧ i < p + n) := by
  rw [wd, BitVec.getLsbD_ofNat, decide_eq_true hi, Bool.true_and, Nat.testBit_mul_two_pow, Nat.testBit_two_pow_sub_one, ← Bool.decide_and]
  exact decide_eq_decide.2 (by omega)

/-- `bfi`: the low bits of b in the field, the bits of a outside it. -/
theorem bfiVal_eq_bfiOf (a b d : Word) : bfiVal a b d = bfiOf a b d := by
  unfold bfiVal bfiOf
  refine eq_ofBits fun i hi => ?_
  rw [BitVec.getLsbD_or, BitVec.getLsbD_and, BitVec.getLsbD_and, BitVec.getLsbD_not, getLsbD_fieldMask _ _ hi]
  split
  · next h =>
    rw [decide_eq_true h, wd, BitVec.getLsbD_ofNat, Nat.testBit_mul_two_pow, BitVec.testBit_toNat]
    simp [hi, h.1]
  · next h =>
    rw [decide_eq_false h]
    simp [hi]

/-! ### `bsel` (R197) -/

/-- The weight of byte `i`. -/
theorem byteWeight_eq (i : Nat) : 256 ^ i = 2 ^ (8 * i) := (Nat.pow_mul 2 8 i).symm

/-- The byte of b:a that result byte `i` of `bsel` selects, or 0. -/
def bselByte (x ctl i : Nat) : Nat := if ctl.testBit (12 + i) then 0 else x / 256 ^ (ctl / 8 ^ i % 8) % 256

/-- Result byte `i` of `bsel` behind the bytes formed so far: the byte selected, or the sign of the byte before it. -/
def bselNext (x ctl acc i : Nat) : Nat :=
  if 0 < i ∧ ctl.testBit (16 + i) then (if acc.testBit (8 * i - 1) then 255 else 0) else bselByte x ctl i

/-- One byte more of `bsel`: the function that `bselVal` folds. -/
def bselStep (x ctl acc i : Nat) : Nat := acc + bselNext x ctl acc i * 256 ^ i

/-- Bit `j` of result byte `i` of `bsel`. -/
def bselBit (x ctl : Nat) : Nat → Nat → Bool
  | 0, j => (bselByte x ctl 0).testBit j
  | i + 1, j => if ctl.testBit (16 + (i + 1)) then bselBit x ctl i 7 else (bselByte x ctl (i + 1)).testBit j

/-- A byte of `bsel` is a byte. -/
theorem bselNext_lt (x ctl acc i : Nat) : bselNext x ctl acc i < 2 ^ 8 := by
  have hbyte : bselByte x ctl i < 2 ^ 8 := by unfold bselByte; split <;> omega
  unfold bselNext
  split_ifs <;> omega

/-- The bits of a byte of `bsel`, where the byte before it has those of `bselBit`. -/
theorem testBit_bselNext (x ctl acc i : Nat) {j : Nat} (hj : j < 8) (hacc : 0 < i → acc.testBit (8 * i - 1) = bselBit x ctl (i - 1) 7) :
    (bselNext x ctl acc i).testBit j = bselBit x ctl i j := by
  have hfill : ∀ t : Bool, (if t then 255 else 0).testBit j = t := fun t => by
    cases t with
    | false => exact Nat.zero_testBit j
    | true => exact (Nat.testBit_two_pow_sub_one 8 j).trans (decide_eq_true hj)
  cases i with
  | zero => rfl
  | succ i =>
    rw [bselNext, hacc i.succ_pos, bselBit]
    simp only [Nat.succ_pos, true_and]
    split
    · exact hfill _
    · rfl

/-- The bytes formed so far hold the bits of `bselBit`. -/
theorem testBit_foldl_bselStep (x ctl n k : Nat) : ((List.range n).foldl (bselStep x ctl) 0).testBit k =
    (decide (k < 8 * n) && bselBit x ctl (k / 8) (k % 8)) := by
  induction n generalizing k with
  | zero => simp
  | succ n ih =>
    rw [List.range_succ, List.foldl_append, List.foldl_cons, List.foldl_nil]
    generalize (List.range n).foldl (bselStep x ctl) 0 = acc at *
    have hacc : acc < 2 ^ (8 * n) := Nat.lt_pow_two_of_testBit _ fun i hi => by rw [ih, decide_eq_false (by omega), Bool.false_and]
    rw [bselStep, byteWeight_eq, Nat.add_comm, Nat.mul_comm,
      Nat.testBit_two_pow_mul_add _ hacc]
    by_cases hlow : k < 8 * n
    · rw [if_pos hlow, ih, decide_eq_true hlow, decide_eq_true (by omega)]
    rw [if_neg hlow]
    by_cases hbyte : k < 8 * (n + 1)
    · have htop : 0 < n → acc.testBit (8 * n - 1) = bselBit x ctl (n - 1) 7 := fun hn => by
        rw [ih, decide_eq_true (by omega), Bool.true_and, show (8 * n - 1) / 8 = n - 1 by omega, show (8 * n - 1) % 8 = 7 by omega]
      rw [testBit_bselNext x ctl acc n (by omega) htop, decide_eq_true hbyte, Bool.true_and, show k / 8 = n by omega,
        show k % 8 = k - 8 * n by omega]
    · rw [decide_eq_false hbyte, Bool.false_and]
      exact Nat.testBit_lt_two_pow (Nat.lt_of_lt_of_le (bselNext_lt x ctl acc n) (Nat.pow_le_pow_right (by decide) (by omega)))

/-- A bit of the byte selected. -/
theorem testBit_bselByte (a b d : Word) (i : Nat) {j : Nat} (hj : j < 8) : (bselByte (pair64 a b) d.toNat i).testBit j =
    (!d.getLsbD (12 + i) && (b ++ a : Dword).getLsbD (8 * (d.toNat / 8 ^ i % 8) + j)) := by
  rw [bselByte, BitVec.testBit_toNat]
  cases d.getLsbD (12 + i) with
  | true => rw [if_pos rfl, Nat.zero_testBit]; rfl
  | false =>
    rw [if_neg Bool.false_ne_true, byteWeight_eq, Nat.testBit_mod_two_pow (j := 8), Nat.testBit_div_two_pow,
      pair64_eq_toNat, BitVec.testBit_toNat, decide_eq_true hj, Nat.add_comm j]
    rfl

/-- `bsel`: each byte the one selected, 0, or the sign of the byte before it. -/
theorem bselVal_eq_bselOf (a b d : Word) : bselVal a b d = bselOf a b d := by
  have hval : bselVal a b d = wd ((List.range 4).foldl (bselStep (pair64 a b) d.toNat) 0) := rfl
  unfold bselOf
  refine eq_ofBits fun k hk => ?_
  rw [hval, wd, BitVec.getLsbD_ofNat, testBit_foldl_bselStep, decide_eq_true hk, Bool.true_and, Bool.true_and]
  have hj : k % 8 < 8 := Nat.mod_lt _ (by decide)
  generalize k % 8 = j at *
  obtain h | h | h | h : k / 8 = 0 ∨ k / 8 = 1 ∨ k / 8 = 2 ∨ k / 8 = 3 := by omega
  all_goals
    rw [h]
    simp only [bselBit, testBit_bselByte a b d _ hj, testBit_bselByte a b d _ (show 7 < 8 by decide), BitVec.testBit_toNat]

/-- The bitwise words compute their bits (R192, R193, R196, R197). -/
theorem bitwiseWords_holds : Claims.bitwiseWords := fun w =>
  ⟨words_of_untyped (fun _ => rfl) fun a b _ => eq_ofBits fun i _ => BitVec.getLsbD_and,
    words_of_untyped (fun _ => rfl) fun a b _ => eq_ofBits fun i _ => BitVec.getLsbD_or,
    words_of_untyped (fun _ => rfl) fun a b _ => eq_ofBits fun i _ => BitVec.getLsbD_xor,
    words_of_untyped (fun _ => rfl) fun a b _ => eq_ofBits fun i hi => by simp [hi],
    words_of_untyped (fun _ => rfl) fun a _ _ => eq_ofBits fun i hi => by simp [hi],
    words_of_untyped (fun _ => rfl) fun _ _ _ => rfl,
    writes_of_put32 fun _ => rfl,
    words_of_untyped (fun _ => rfl) (lfnVal_eq_lfnOf w.mod),
    words_of_untyped (fun _ => rfl) (wextVal_eq_wextOf w.minor),
    words_of_untyped (fun _ => rfl) (bfeVal_eq_bfeOf (w.ty == 5)),
    words_of_untyped (fun _ => rfl) bfiVal_eq_bfiOf,
    words_of_untyped (fun _ => rfl) bselVal_eq_bselOf⟩

/-- Settles O1: the model's sums and quotients of patterns are the shifts and counts of bit vectors, and its fields and bytes have
the bits of the statement. -/
theorem shiftsAndBitwiseWords : Obligations.ShiftsAndBitwiseWords := ⟨shiftsAndCounts_holds, bitwiseWords_holds⟩

end Sys2Proof.Laws
end

section
/-!
PROOF. Votes, matches, lane exchanges, elections and the uniformity check (spec 09 R246 to R249, R251): the model's lists of lanes
and numbers against the masks and bit vectors of the statement.
-/

namespace Sys2Proof.Laws
open Sys2Proof.Machine Sys2Proof.Claims

/-! ### Results written once for the wave -/

/-- A word that puts one result in a scalar register writes it once, if a lane is effective (R169). -/
theorem putScalar_eq_done (c : Ctx) (s : State) (d : BitVec 9) (x : Word) :
    c.putScalar s d [x] = .done (if c.eff = 0#32 then s else s.updWave c.id (fun v => v.regSet d.toNat 0 x)) := by
  unfold Ctx.putScalar
  split
  · rfl
  · simp [Ctx.put, Wave.regWrites]

/-- A word whose body puts one scalar result writes what equals it wherever a lane is effective. -/
theorem writesScalar_of_putScalar {i : Instr} {d : BitVec 9} {body : Ctx → State → Res} {f g : Ctx → Word}
    (hexec : ∀ s, exec i s = issueWord i s body) (hbody : ∀ c s, body c s = c.putScalar s d [g c])
    (hfg : ∀ c, c.eff ≠ 0#32 → g c = f c) : WritesScalar i d f := fun s c hi => by
  rw [Completes, hexec]
  refine issueWord_done hi ?_
  rw [hbody, putScalar_eq_done]
  split
  · rfl
  · next he => rw [hfg c he]

/-- A word whose body puts a whole mask writes what equals it wherever a lane is effective (R206). -/
theorem writesWhole_of_putWhole {i : Instr} {d : BitVec 9} {body : Ctx → State → Res} {f g : Ctx → Mask}
    (hexec : ∀ s, exec i s = issueWord i s body) (hbody : ∀ c s, body c s = c.putWhole s d (g c))
    (hfg : ∀ c, c.eff ≠ 0#32 → g c = f c) : WritesWhole i d f := fun s c hi => by
  rw [Completes, hexec]
  refine issueWord_done hi ?_
  rw [hbody, Ctx.putWhole]
  split
  · rfl
  · next he => rw [hfg c he]

/-! ### Masks of chosen lanes -/

/-- The test of unequal words, as the model decides it. -/
theorem bne_eq_decide_ne (x y : Word) : (x != y) = decide (x ≠ y) := by
  rw [bne, beq_eq_decide, decide_not]

/-- The mask of the effective lanes that pass a test. -/
theorem maskOf_filter_lanes (c : Ctx) (p : Nat → Bool) :
    maskOf (c.lanes.filter p) = ofBits (fun l => c.eff.getLsbD l && p l) := by
  refine eq_ofBits fun l hl => ?_
  rw [getLsbD_maskOf _ _ hl]
  simp [Ctx.lanes, hl]

/-- No effective lane passes a test exactly where the mask of those that do is empty. -/
theorem filter_lanes_eq_nil_iff (c : Ctx) (p : Nat → Bool) :
    c.lanes.filter p = [] ↔ ofBits (fun l => c.eff.getLsbD l && p l) = 0#32 := by
  rw [← maskOf_filter_lanes]
  refine ⟨fun h => by rw [h]; rfl, fun h => List.eq_nil_iff_forall_not_mem.2 fun l hl => ?_⟩
  have hlt : l < 32 := ((mem_lanesOf c.eff l).1 (List.mem_of_mem_filter hl)).1
  have hbit := getLsbD_maskOf (c.lanes.filter p) l hlt
  rw [h, decide_eq_true hl] at hbit
  simp at hbit

/-! ### The lowest lane -/

/-- The lowest lane of a mask that is not empty is set, and no lane below it is. -/
theorem lowLane_lowest {m : Mask} (h : m ≠ 0#32) :
    lowLane m < 32 ∧ m.getLsbD (lowLane m) = true ∧ ∀ j < lowLane m, m.getLsbD j = false := by
  obtain ⟨ls, hls⟩ := lanesOf_eq_cons h
  have hmem : lowLane m ∈ lanesOf m := by simp [hls]
  obtain ⟨hlt, hset⟩ := (mem_lanesOf m _).1 hmem
  have hsorted : (lanesOf m).Pairwise (· < ·) := List.pairwise_lt_range.filter _
  rw [hls, List.pairwise_cons] at hsorted
  refine ⟨hlt, hset, fun j hj => Bool.eq_false_iff.2 fun hbit => ?_⟩
  have hjmem : j ∈ lanesOf m := (mem_lanesOf m j).2 ⟨by omega, hbit⟩
  rw [hls, List.mem_cons] at hjmem
  rcases hjmem with heq | htail
  · omega
  · have := hsorted.1 j htail
    omega

/-- The lowest lane of a mask that is not empty is the number of its trailing zeros. -/
theorem lowLane_eq_ctz {m : Mask} (h : m ≠ 0#32) : lowLane m = m.ctz.toNat := by
  obtain ⟨-, hset, hbelow⟩ := lowLane_lowest h
  rcases Nat.lt_trichotomy (lowLane m) m.ctz.toNat with hlt | heq | hgt
  · simp [BitVec.getLsbD_false_of_lt_ctz hlt] at hset
  · exact heq
  · simpa [hbelow _ hgt] using BitVec.getLsbD_true_ctz_of_ne_zero h

/-- `elect.s`: the lowest lane as a word (R251). -/
theorem wd_lowLane {m : Mask} (h : m ≠ 0#32) : wd (lowLane m) = m.ctz := by
  rw [lowLane_eq_ctz h, wd, BitVec.ofNat_toNat, BitVec.setWidth_eq]

/-- `elect`: the mask of the lowest lane alone (R251). -/
theorem wd_two_pow_lowLane {m : Mask} (h : m ≠ 0#32) : wd (2 ^ lowLane m) = m &&& -m := by
  obtain ⟨-, hset, hbelow⟩ := lowLane_lowest h
  refine BitVec.eq_of_getLsbD_eq fun j hj => ?_
  rw [wd, BitVec.getLsbD_ofNat, Nat.testBit_two_pow, BitVec.getLsbD_and, BitVec.getLsbD_neg]
  rcases Nat.lt_trichotomy j (lowLane m) with hlt | rfl | hgt
  · simp [hbelow j hlt, Nat.ne_of_gt hlt]
  · have hnone : ¬ ∃ i < lowLane m, m.getLsbD i = true := fun ⟨i, hi, hbit⟩ => by simp [hbelow i hi] at hbit
    simp [hset, hnone, hj]
  · have hsome : ∃ i < j, m.getLsbD i = true := ⟨lowLane m, hgt, hset⟩
    simp [hsome, hj, Nat.ne_of_lt hgt]

/-! ### `vote` (R247) -/

/-- Whether a lane votes: its operand is not zero, or its bit of the mask register is set. -/
def votes (w : RWord) (c : Ctx) (l : Nat) : Bool :=
  if w.minor % 8 < 4 then c.opnd w.a l != 0#32 else (c.wave.kget w.a.toNat).getLsbD l

/-- The ballot. -/
def ballot (w : RWord) (c : Ctx) : Mask := ofBits (fun l => c.eff.getLsbD l && votes w c l)

/-- The ballot, or the value that the form of the word derives from it: any, all, the mask, the count. -/
def verdict (w : RWord) (c : Ctx) : Word :=
  match w.minor % 4 with
  | 0 => if ballot w c = 0#32 then 0#32 else 1#32
  | 1 => if ballot w c = c.eff then 1#32 else 0#32
  | 2 => ballot w c
  | _ => (ballot w c).cpop

/-- The model's value of a ballot, as `execVote` forms it. -/
def voteValue (w : RWord) (c : Ctx) (b : Mask) : Word :=
  match w.minor % 4 with
  | 0 => if b ≠ 0#32 then 1#32 else 0#32
  | 1 => if b = c.eff then 1#32 else 0#32
  | 2 => b
  | _ => wd (popVal 32 b.toNat)

/-- The number of lanes of a mask as a word. -/
theorem wd_popVal (m : Mask) : wd (popVal 32 m.toNat) = m.cpop := by
  rw [← ofInt_popVal, BitVec.ofInt_natCast, wd]

/-- The model's value of the ballot is the verdict. -/
theorem voteValue_ballot (w : RWord) (c : Ctx) : voteValue w c (ballot w c) = verdict w c := by
  unfold voteValue verdict
  split
  · exact ite_not _ _ _
  · rfl
  · rfl
  · exact wd_popVal _

/-- The ballot is the mask of the lanes that the model counts. -/
theorem ballot_eq_maskOf (w : RWord) (c : Ctx) : ballot w c = maskOf (c.lanes.filter (fun l =>
    if w.minor % 8 < 4 then decide (c.opnd w.a l ≠ 0#32) else (c.wave.kget w.a.toNat).getLsbD l)) := by
  rw [ballot, ← maskOf_filter_lanes]
  refine congrArg maskOf (List.filter_congr fun l _ => ?_)
  unfold votes
  split
  · exact bne_eq_decide_ne _ _
  · rfl

/-- The issue of `vote`: the verdict, put in a mask or in a scalar register. -/
theorem exec_vote (w : RWord) (s : State) : exec (.vote w) s = issueWord (.vote w) s (fun c s =>
    if 8 ≤ w.minor then c.putWhole s w.d (verdict w c) else c.putScalar s w.d [verdict w c]) := by
  simp only [← voteValue_ballot, ballot_eq_maskOf]
  rfl

/-! ### `match` (R248) -/

/-- A 64-bit operand is the number of its pair. -/
theorem opnd64_eq_pairOf (c : Ctx) (f : BitVec 9) (l : Nat) : c.opnd64 f l = (pairOf c f l).toNat := by
  unfold Ctx.opnd64 pairOf
  split
  · exact wrapInt_eq_toNat 64 _
  · exact pair64_eq_toNat _ _

/-- The number that the model compares for a lane. -/
def matchKey (w : RWord) (c : Ctx) (l : Nat) : Nat := if w.ty = 6 then c.opnd64 w.a l else (c.opnd w.a l).toNat

/-- Whether lane `j` holds the pattern of lane `l`. -/
def sameValue (w : RWord) (c : Ctx) (l j : Nat) : Bool :=
  if w.ty = 6 then pairOf c w.a j == pairOf c w.a l else c.opnd w.a j == c.opnd w.a l

/-- Two lanes hold one pattern exactly where their numbers are equal: the match is bit for bit. -/
theorem decide_matchKey_eq (w : RWord) (c : Ctx) (l j : Nat) : decide (matchKey w c j = matchKey w c l) = sameValue w c l j := by
  unfold matchKey sameValue
  split
  · simp only [opnd64_eq_pairOf, beq_eq_decide, BitVec.toNat_inj]
  · simp only [beq_eq_decide, BitVec.toNat_inj]

/-- The set that lane `l` receives: the effective lanes whose pattern is its own. -/
theorem maskOf_filter_matchKey (w : RWord) (c : Ctx) (l : Nat) :
    maskOf (((c.lanes.map (fun j => (j, matchKey w c j))).filter (fun p => decide (p.2 = matchKey w c l))).map (fun p => p.1)) =
      ofBits (fun j => c.eff.getLsbD j && sameValue w c l j) := by
  rw [List.filter_map, List.map_map, ← maskOf_filter_lanes]
  simp only [Function.comp_def, decide_matchKey_eq, List.map_id']

/-- The issue of `match`: each lane receives its set. -/
theorem exec_matchL (w : RWord) (s : State) : exec (.matchL w) s = issueWord (.matchL w) s (fun c s =>
    c.put32 s w.d (fun l => ofBits (fun j => c.eff.getLsbD j && sameValue w c l j))) := by
  simp only [← maskOf_filter_matchKey]
  rfl

/-! ### `xlane` (R249) -/

/-- The model's source lane is that of R249. -/
theorem xlaneSrc_eq_sourceLane (mode n l b : Nat) : xlaneSrc mode n l b = sourceLane mode n l b := by
  have hbase : l - l % n = n * (l / n) := by
    have := Nat.mod_add_div l n
    omega
  unfold xlaneSrc sourceLane
  dsimp only
  rw [hbase]
  congr 1
  match mode with
  | 0 => rfl
  | 1 => exact (Nat.add_mod _ _ _).symm
  | 2 => rfl
  | _ + 3 => rfl

/-- The issue of `xlane`: each lane receives its source lane's value, or 0 of a source that is not effective (R41). -/
theorem exec_xlane (w : RWord) (s : State) : exec (.xlane w) s = issueWord (.xlane w) s (fun c s =>
    c.put32 s w.d (fun l =>
      let j := sourceLane (w.minor % 4) (32 / 2 ^ (w.minor / 4 % 8)) l (c.opnd w.b l).toNat
      if c.eff.getLsbD j then c.opnd w.a j else 0#32)) := by
  simp only [← xlaneSrc_eq_sourceLane]
  rfl

/-! ### `uchk` (R251) -/

/-- Whether a lane's value is another than that of the lowest effective lane. -/
def differs (c : Ctx) (f : BitVec 9) (l : Nat) : Bool := c.opnd f l != c.opnd f c.eff.ctz.toNat

/-- The lanes that the model compares with the operand's value at the lowest lane. -/
theorem filter_ne_uni (c : Ctx) (f : BitVec 9) :
    c.lanes.filter (fun l => decide (c.opnd f l ≠ c.uni f)) = c.lanes.filter (differs c f) := by
  by_cases he : c.eff = 0#32
  · simp [Ctx.lanes, he, lanesOf_zero]
  · refine List.filter_congr fun l _ => ?_
    rw [Ctx.uni, lowLane_eq_ctz he, differs, bne_eq_decide_ne]

/-- No lane differs exactly where all lanes hold the value of the lowest. -/
theorem filter_differs_eq_nil_iff (c : Ctx) (f : BitVec 9) :
    c.lanes.filter (differs c f) = [] ↔ c.lanes.all (fun l => c.opnd f l == c.opnd f c.eff.ctz.toNat) = true := by
  simp [differs]

/-- The issue of `uchk`: an answer in a scalar register, or NONUNIFORM for the lanes that differ. -/
theorem exec_uchk (w : RWord) (s : State) : exec (.uchk w) s = issueWord (.uchk w) s (fun c s =>
    if w.minor = 0 then c.putScalar s w.d [if c.lanes.filter (differs c w.a) = [] then 1#32 else 0#32]
    else if c.lanes.filter (differs c w.a) = [] then .done s
    else .raise ⟨0x09, 0, 512 + w.a.toNat⟩ (maskOf (c.lanes.filter (differs c w.a))) s) := by
  simp only [← filter_ne_uni, Nat.add_comm 512]
  rw [← Nat.mod_eq_of_lt w.a.isLt]
  rfl

/-- `uchk.trap` goes on where no lane differs and raises NONUNIFORM for those that do. -/
theorem uchkTrap_issues {w : RWord} (hm : w.minor ≠ 0) {s : State} {c : Ctx} (hi : Issues (.uchk w) s c) :
    let other := ofBits (fun l => c.eff.getLsbD l && differs c w.a l)
    (other = 0#32 → Completes (.uchk w) s c (checked (.uchk w) s c)) ∧
    (other ≠ 0#32 → Raises (.uchk w) s c ⟨0x09, 0, 512 + w.a.toNat⟩ other) := by
  intro other
  have hother : other = maskOf (c.lanes.filter (differs c w.a)) := (maskOf_filter_lanes c _).symm
  refine ⟨fun h => ?_, fun h => ?_⟩
  · rw [Completes, exec_uchk]
    exact issueWord_done hi (by rw [if_neg hm, if_pos ((filter_lanes_eq_nil_iff c _).2 h)])
  · rw [Raises, exec_uchk]
    exact issueWord_raise hi (by rw [if_neg hm, if_neg (mt (filter_lanes_eq_nil_iff c _).1 h), hother])

/-- Settles O13: the masks of the model's lists of lanes are the ballots and sets of the statement, and its lowest lane is the
trailing zeros of the effective mask. -/
theorem votesAndExchanges : Obligations.VotesAndExchanges := by
  unfold Obligations.VotesAndExchanges
  refine fun w => ⟨fun h => ?voteScalar, fun h => ?voteWhole, writes_of_put32 (exec_matchL w), writes_of_put32 (exec_xlane w),
    fun h => ?electWhole, fun h => ?electScalar, fun h => ?uchkScalar, fun h s c hi => uchkTrap_issues h hi⟩
  case voteScalar =>
    exact writesScalar_of_putScalar (g := verdict w) (exec_vote w) (fun _ _ => if_neg (Nat.not_le.2 h)) (fun _ _ => rfl)
  case voteWhole =>
    exact writesWhole_of_putWhole (g := verdict w) (exec_vote w) (fun _ _ => if_pos h) (fun _ _ => rfl)
  case electWhole =>
    exact writesWhole_of_putWhole (fun _ => rfl) (fun _ _ => if_pos h) (fun _ he => wd_two_pow_lowLane he)
  case electScalar =>
    exact writesScalar_of_putScalar (fun _ => rfl) (fun _ _ => if_neg h) (fun _ he => wd_lowLane he)
  case uchkScalar =>
    exact writesScalar_of_putScalar (exec_uchk w) (fun _ _ => if_pos h)
      (fun c _ => if_congr (filter_differs_eq_nil_iff c w.a) rfl rfl)

end Sys2Proof.Laws
end

section
/-!
PROOF. The encoder and the decoder (spec 06 R159 to R179): a decoded word is the one encoding of a well-formed instruction, and a
well-formed instruction whose word belongs to another row.
-/

namespace Sys2Proof.Laws
open Sys2Proof.Machine Sys2Proof.Claims

/-! ### Fields of a word (R159, R161, R171) -/

/-- A field as a number. -/
theorem toNat_fld (x : Dword) (lo n : Nat) : (fld x lo n).toNat = x.toNat / 2 ^ lo % 2 ^ n := BitVec.toNat_ofNat _ _

/-- The marker as a number. -/
theorem bitNat_mBit (x : Dword) : bitNat (mBit x) = x.toNat / 2 ^ 63 % 2 := by
  have h : (fld x 63 1).toNat = x.toNat / 2 ^ 63 % 2 := toNat_fld x 63 1
  unfold mBit bitNat
  by_cases hb : fld x 63 1 = 1#1
  · rw [hb] at h
    simpa [hb] using h
  · have h0 : (fld x 63 1).toNat ≠ 1 := fun h1 => hb (BitVec.eq_of_toNat_eq h1)
    simp [hb]
    omega

/-- Bit 62 clear, as a number. -/
theorem bit62_eq_zero {x : Dword} (h : fld x 62 1 ≠ 1#1) : x.toNat / 2 ^ 62 % 2 = 0 := by
  have h1 : (fld x 62 1).toNat = x.toNat / 2 ^ 62 % 2 := toNat_fld x 62 1
  have h0 : (fld x 62 1).toNat ≠ 1 := fun h1 => h (BitVec.eq_of_toNat_eq h1)
  omega

/-- An R-format word is the encoding of its fields. -/
theorem enc_rWordOfBits {x : Dword} (hp : x.toNat / 2 ^ 62 % 2 = 0) : (RWord.ofBits x).enc (fld x 54 8).toNat = x := by
  refine BitVec.eq_of_toNat_eq ?_
  have hx := x.isLt
  simp only [RWord.enc, RWord.ofBits, bitNat_mBit, toNat_fld, BitVec.toNat_ofNat]
  omega

/-- An I-format word is the encoding of its fields. -/
theorem enc_iWordOfBits {x : Dword} (hp : x.toNat / 2 ^ 62 % 2 = 0) : (IWord.ofBits x).enc (fld x 54 8).toNat = x := by
  refine BitVec.eq_of_toNat_eq ?_
  have hx := x.isLt
  simp only [IWord.enc, IWord.ofBits, bitNat_mBit, toNat_fld, BitVec.toNat_ofNat]
  omega

/-- An M-format word is the encoding of its fields. -/
theorem enc_mWordOfBits {x : Dword} (hp : x.toNat / 2 ^ 62 % 2 = 0) : (MWord.ofBits x).enc (fld x 54 8).toNat = x := by
  refine BitVec.eq_of_toNat_eq ?_
  have hx := x.isLt
  simp only [MWord.enc, MWord.ofBits, bitNat_mBit, toNat_fld, BitVec.toNat_ofNat]
  omega

/-- A B-format word is the encoding of its fields. -/
theorem enc_bWordOfBits {x : Dword} (hp : x.toNat / 2 ^ 62 % 2 = 0) : (BWord.ofBits x).enc (fld x 54 8).toNat = x := by
  refine BitVec.eq_of_toNat_eq ?_
  have hx := x.isLt
  simp only [BWord.enc, BWord.ofBits, bitNat_mBit, toNat_fld, BitVec.toNat_ofNat]
  omega

/-! ### Half-ops (R173) -/

/-- The code of each half-op is its place in the code order. -/
theorem code_getElem_halfOps : ∀ k : Fin halfOps.length, (halfOps[k.val]).code = k.val := by decide

/-- A half-op decoded from a code has that code. -/
theorem code_of_ofCode {n : Nat} {op : HalfOp} (h : HalfOp.ofCode n = some op) : op.code = n := by
  obtain ⟨hn, rfl⟩ := List.getElem?_eq_some_iff.1 h
  exact code_getElem_halfOps ⟨n, hn⟩

/-- The codes from 0x18 on are of no half-op. -/
theorem ofCode_eq_none {n : Nat} (h : 0x18 ≤ n) : HalfOp.ofCode n = none := List.getElem?_eq_none h

/-- A paired word is the encoding of its halves. -/
theorem encPair_ofBits {x : Dword} (hp : fld x 62 1 = 1#1) {p q : HalfOp} (ha : p.code = (fld x 55 7).toNat)
    (hb : q.code = (fld x 24 7).toNat) : encPair (mBit x) p (HalfFields.ofBits x 31) ⟨q, HalfFields.ofBits x 0⟩ = x := by
  refine BitVec.eq_of_toNat_eq ?_
  have hx := x.isLt
  have hbit : x.toNat / 2 ^ 62 % 2 = 1 := by
    have h1 : (fld x 62 1).toNat = x.toNat / 2 ^ 62 % 2 := toNat_fld x 62 1
    rw [hp] at h1
    exact h1.symm
  simp only [encPair, halfNat, HalfFields.ofBits, bitNat_mBit, ha, hb, toNat_fld, BitVec.toNat_ofNat]
  omega

/-- The encoding of a paired word. -/
theorem encode_pairInstr (m : Bool) (op : HalfOp) (a : HalfFields) (b : Half) : encode (pairInstr m op a b) = some (encPair m op a b) := by
  cases op <;> rfl

/-! ### The rows of the opcode map (R178) -/

/-- A value found in a table stands in it. -/
theorem mem_of_lookup {β : Type} {t : List (Nat × β)} {n : Nat} {f : β} (h : t.lookup n = some f) : (n, f) ∈ t := by
  induction t with
  | nil => cases h
  | cons e t ih =>
    obtain ⟨k, g⟩ := e
    rw [List.lookup_cons] at h
    split at h
    · next hk =>
      cases h
      simp [eq_of_beq hk]
    · exact List.mem_cons_of_mem _ (ih h)

/-- A choice between two instructions of one word. -/
theorem encode_ite {p : Prop} [Decidable p] {i j : Instr} {x : Option Dword} (hi : encode i = x) (hj : encode j = x) :
    encode (if p then i else j) = x := by
  split
  · exact hi
  · exact hj

/-- Every row of a table is encoded with its own code by `enc`. -/
def RowsEncode {W : Type} (enc : Nat → W → Dword) (t : List (Nat × (W → Instr))) : Prop :=
  ∀ p ∈ t, ∀ w : W, encode (p.2 w) = some (enc p.1 w)

/-- Two tables one after the other. -/
theorem RowsEncode.append {W : Type} {enc : Nat → W → Dword} {t u : List (Nat × (W → Instr))} (ht : RowsEncode enc t)
    (hu : RowsEncode enc u) : RowsEncode enc (t ++ u) := List.forall_mem_append.2 ⟨ht, hu⟩

/-- The R-format rows, part 1. -/
theorem encode_rTable1 : RowsEncode RWord.enc rTable1 := by
  simp only [RowsEncode, rTable1, List.forall_mem_cons]
  exact ⟨
    fun _ => rfl, fun _ => rfl, fun _ => rfl, fun _ => rfl, fun _ => rfl, fun _ => rfl, fun _ => rfl, fun _ => rfl, fun _ => rfl,
    fun _ => rfl, fun _ => rfl, fun _ => rfl, fun _ => rfl, fun _ => rfl, fun _ => rfl, fun _ => rfl, fun _ => rfl, fun _ => rfl,
    fun _ => rfl, fun _ => rfl, fun _ => rfl, fun _ => rfl, fun _ => rfl, fun _ => rfl,
    List.forall_mem_nil _⟩

/-- The R-format rows, part 2. -/
theorem encode_rTable2 : RowsEncode RWord.enc rTable2 := by
  simp only [RowsEncode, rTable2, List.forall_mem_cons]
  exact ⟨
    fun _ => rfl, fun _ => rfl, fun _ => rfl, fun _ => rfl, fun _ => rfl, fun _ => rfl, fun _ => rfl, fun _ => rfl, fun _ => rfl,
    fun _ => rfl, fun _ => rfl, fun _ => rfl, fun _ => rfl, fun _ => rfl, fun _ => rfl, fun _ => rfl, fun _ => rfl, fun _ => rfl,
    fun _ => rfl, fun _ => rfl, fun _ => rfl, fun _ => rfl, fun _ => rfl, fun _ => rfl,
    List.forall_mem_nil _⟩

/-- The R-format rows, part 3. -/
theorem encode_rTable3 : RowsEncode RWord.enc rTable3 := by
  simp only [RowsEncode, rTable3, List.forall_mem_cons]
  exact ⟨
    fun _ => rfl, fun _ => rfl, fun _ => rfl, fun _ => rfl, fun _ => rfl, fun _ => rfl, fun _ => rfl, fun _ => rfl, fun _ => rfl,
    fun _ => rfl, fun _ => rfl, fun _ => rfl, fun _ => rfl, fun _ => rfl, fun _ => rfl, fun _ => rfl, fun _ => rfl, fun _ => rfl,
    fun _ => rfl, fun _ => rfl, fun _ => rfl, fun _ => rfl, fun _ => rfl, fun _ => rfl,
    List.forall_mem_nil _⟩

/-- The R-format rows, part 4. -/
theorem encode_rTable4 : RowsEncode RWord.enc rTable4 := by
  simp only [RowsEncode, rTable4, List.forall_mem_cons]
  exact ⟨
    fun _ => rfl, fun _ => rfl, fun _ => rfl, fun _ => rfl, fun _ => rfl, fun _ => rfl, fun _ => rfl, fun _ => rfl, fun _ => rfl,
    fun _ => rfl, fun _ => rfl, fun _ => rfl, fun _ => rfl, fun _ => rfl, fun _ => rfl, fun _ => rfl, fun _ => rfl, fun _ => rfl,
    fun _ => rfl, fun _ => rfl, fun _ => rfl, fun _ => rfl, fun _ => rfl, fun _ => rfl,
    List.forall_mem_nil _⟩

/-- The R-format rows, part 5. -/
theorem encode_rTable5 : RowsEncode RWord.enc rTable5 := by
  simp only [RowsEncode, rTable5, List.forall_mem_cons]
  exact ⟨
    fun _ => rfl, fun _ => rfl, fun _ => encode_ite rfl rfl, fun _ => rfl, fun _ => rfl, fun _ => rfl, fun _ => rfl,
    fun _ => rfl, fun _ => rfl, fun _ => encode_ite rfl rfl, fun _ => rfl, fun _ => rfl, fun _ => rfl, fun _ => rfl,
    fun _ => rfl, fun _ => rfl, fun _ => rfl, fun _ => rfl, fun _ => encode_ite rfl rfl, fun _ => encode_ite rfl rfl,
    fun _ => encode_ite rfl (encode_ite rfl rfl), fun _ => rfl, fun _ => rfl, fun _ => rfl,
    List.forall_mem_nil _⟩

/-- The R-format rows, part 6. -/
theorem encode_rTable6 : RowsEncode RWord.enc rTable6 := by
  simp only [RowsEncode, rTable6, List.forall_mem_cons]
  exact ⟨
    fun _ => encode_ite rfl (encode_ite rfl rfl), fun _ => encode_ite rfl (encode_ite rfl (encode_ite rfl rfl)), fun _ => rfl,
    fun _ => encode_ite rfl rfl, fun _ => rfl, fun _ => rfl, fun _ => rfl, fun _ => rfl, fun _ => rfl, fun _ => rfl,
    fun _ => encode_ite rfl rfl, fun _ => rfl, fun _ => encode_ite rfl (encode_ite rfl rfl), fun _ => rfl, fun _ => rfl,
    List.forall_mem_nil _⟩

/-- Every R-format row is encoded with its own code. -/
theorem encode_rTable : RowsEncode RWord.enc rTable :=
  ((((encode_rTable1.append encode_rTable2).append encode_rTable3).append encode_rTable4).append encode_rTable5).append encode_rTable6

/-- The I-format rows. -/
theorem encode_iTable : RowsEncode IWord.enc iTable := by
  simp only [RowsEncode, iTable, List.forall_mem_cons]
  exact ⟨
    fun _ => rfl, fun _ => rfl, fun _ => rfl, fun _ => rfl, fun _ => rfl, fun _ => rfl, fun _ => rfl, fun _ => rfl, fun _ => rfl,
    fun _ => rfl, fun _ => rfl,
    List.forall_mem_nil _⟩

/-- The M-format rows, part 1. -/
theorem encode_mTable1 : RowsEncode MWord.enc mTable1 := by
  simp only [RowsEncode, mTable1, List.forall_mem_cons]
  exact ⟨
    fun _ => rfl, fun _ => rfl, fun _ => rfl, fun _ => rfl, fun _ => rfl, fun _ => rfl, fun _ => rfl, fun _ => rfl, fun _ => rfl,
    fun _ => rfl, fun _ => rfl, fun _ => rfl, fun _ => rfl, fun _ => rfl, fun _ => rfl, fun _ => rfl, fun _ => rfl, fun _ => rfl,
    fun _ => rfl, fun _ => rfl, fun _ => rfl, fun _ => rfl, fun _ => rfl, fun _ => rfl,
    List.forall_mem_nil _⟩

/-- The M-format rows, part 2. -/
theorem encode_mTable2 : RowsEncode MWord.enc mTable2 := by
  simp only [RowsEncode, mTable2, List.forall_mem_cons]
  exact ⟨
    fun _ => rfl, fun _ => rfl, fun _ => rfl, fun _ => rfl,
    List.forall_mem_nil _⟩

/-- Every M-format row is encoded with its own code. -/
theorem encode_mTable : RowsEncode MWord.enc mTable := encode_mTable1.append encode_mTable2

/-- The B-format rows. -/
theorem encode_bTable : RowsEncode BWord.enc bTable := by
  simp only [RowsEncode, bTable, List.forall_mem_cons]
  exact ⟨
    fun _ => rfl, fun _ => rfl, fun _ => rfl, fun _ => rfl, fun _ => rfl, fun _ => rfl, fun _ => rfl, fun _ => rfl, fun _ => rfl,
    fun _ => rfl, fun _ => rfl, fun _ => rfl, fun _ => rfl, fun _ => rfl, fun _ => rfl, fun _ => rfl,
    fun _ => encode_ite rfl (encode_ite rfl rfl), fun _ => encode_ite rfl (encode_ite rfl rfl), fun _ => rfl, fun _ => rfl,
    List.forall_mem_nil _⟩

/-! ### Decoding -/

/-- What the decoder reads of a word is encoded by it. -/
theorem encode_of_rawInstr {x : Dword} {i : Instr} (h : rawInstr x = .instr i) : encode i = some x := by
  unfold rawInstr at h
  split at h
  · next hp =>
    unfold rawPair at h
    split at h
    · next p q ha hb =>
      cases h
      rw [encode_pairInstr, encPair_ofBits hp (code_of_ofCode ha) (code_of_ofCode hb)]
    · cases h
  · next hp =>
    have h62 := bit62_eq_zero hp
    unfold rawMajor at h
    dsimp only at h
    split at h
    · next f hf => cases h; exact (encode_rTable _ (mem_of_lookup hf) _).trans (congrArg some (enc_rWordOfBits h62))
    split at h
    · next f hf => cases h; exact (encode_iTable _ (mem_of_lookup hf) _).trans (congrArg some (enc_iWordOfBits h62))
    split at h
    · next f hf => cases h; exact (encode_mTable _ (mem_of_lookup hf) _).trans (congrArg some (enc_mWordOfBits h62))
    split at h
    · next f hf => cases h; exact (encode_bTable _ (mem_of_lookup hf) _).trans (congrArg some (enc_bWordOfBits h62))
    · cases h

/-- A word that decodes to an instruction reads as it, and no static check refuses it. -/
theorem decode_eq_instr {x : Dword} {i : Instr} (h : decode x = .instr i) : rawInstr x = .instr i ∧ WellFormed i := by
  unfold decode at h
  split at h
  · cases h
  · next j hj =>
    split at h
    · cases h
    · next hs => cases h; exact ⟨hj, hs⟩

/-- Bit 62 of a word. -/
theorem fld_62_eq_one_iff (x : Dword) : fld x 62 1 = 1#1 ↔ x.getLsbD 62 = true := by
  rw [← BitVec.testBit_toNat, Nat.testBit_eq_decide_div_mod_eq, decide_eq_true_iff]
  have h1 : (fld x 62 1).toNat = x.toNat / 2 ^ 62 % 2 := toNat_fld x 62 1
  rw [← h1]
  exact ⟨fun h => by rw [h]; rfl, fun h => BitVec.eq_of_toNat_eq h⟩

/-- The major opcodes of no row (R178). -/
def reservedMajors : List Nat := (List.range 0xC).map (0x14 + ·) ++ (List.range 5).map (0x4B + ·) ++
    (List.range 7).map (0x79 + ·) ++ (List.range 8).map (0x88 + ·) ++ (List.range 9).map (0x97 + ·) ++ [0xBB, 0xBC, 0xBE, 0xBF] ++
    (List.range 5).map (0xCB + ·) ++ [0xDC, 0xDD, 0xDE, 0xDF, 0xE6, 0xE7] ++ (List.range 6).map (0xFA + ·)

/-- No table has a row for them. -/
theorem lookup_reservedMajors : ∀ n ∈ reservedMajors, (rTable.lookup n).isNone ∧ (iTable.lookup n).isNone ∧
    (mTable.lookup n).isNone ∧ (bTable.lookup n).isNone := by
  decide

/-- A word with a major opcode of no row is rejected with DETAIL 1. -/
theorem decode_reservedMajor {x : Dword} (hp : x.getLsbD 62 = false) (hop : bitsN x 61 54 ∈ reservedMajors) : decode x = .reject 0x01 1 := by
  have hfld : (fld x 54 8).toNat = bitsN x 61 54 := toNat_fld x 54 8
  obtain ⟨hr, hi, hm, hb⟩ := lookup_reservedMajors _ hop
  rw [Option.isNone_iff_eq_none] at hr hi hm hb
  have h62 : ¬ fld x 62 1 = 1#1 := by rw [fld_62_eq_one_iff, hp]; exact Bool.false_ne_true
  simp only [decode, rawInstr, rawMajor, if_neg h62, hfld, hr, hi, hm, hb]

/-- A word with a reserved half-op is rejected with DETAIL 2. -/
theorem decode_reservedHalf {x : Dword} (hp : x.getLsbD 62 = true) (hop : 0x18 ≤ bitsN x 61 55 ∨ 0x18 ≤ bitsN x 30 24) :
    decode x = .reject 0x01 2 := by
  have ha : (fld x 55 7).toNat = bitsN x 61 55 := toNat_fld x 55 7
  have hb : (fld x 24 7).toNat = bitsN x 30 24 := toNat_fld x 24 7
  have hraw : rawPair x = .reserved 2 := by
    unfold rawPair
    rw [ha, hb]
    rcases hop with h | h
    · rw [ofCode_eq_none h]
    · rw [ofCode_eq_none h]
      split
      · next hq => cases hq
      · rfl
  simp only [decode, rawInstr, if_pos ((fld_62_eq_one_iff x).2 hp), hraw]

/-- Settles O57: the fields of a word, put together again, are the word, and each row of the tables is encoded with its own code. -/
theorem decodedWordsEncode : Obligations.DecodedWordsEncode := by
  unfold Obligations.DecodedWordsEncode
  exact ⟨fun x i h => ⟨encode_of_rawInstr (decode_eq_instr h).1, (decode_eq_instr h).2⟩, fun x => decode_reservedMajor,
    fun x => decode_reservedHalf⟩

/-- The channel form of `xfence` with FLAGS bit 0 clear, which its shape admits, of path copy against path 0. -/
def xfenceChNoFlag : RWord := ⟨false, 0#4, 0#9, 0x100#9, 0x100#9, 0#9, 0x1010#14⟩

/-- Refutes O56: the shape of the channel form of `xfence` does not ask for FLAGS bit 0, which alone tells it from `xfence` (R279);
with the bit clear its word is read as an `xfence` with operands in A and B, and refused. -/
theorem not_encodedWordsDecode : ¬ Obligations.EncodedWordsDecode := by
  unfold Obligations.EncodedWordsDecode
  intro h
  have hwf : WellFormed (.xfenceCh xfenceChNoFlag) := by unfold WellFormed; decide
  have hd := h (.xfenceCh xfenceChNoFlag) _ rfl hwf
  exact absurd hd (by decide)

end Sys2Proof.Laws
end

section
/-!
PROOF. Immediate words, carry chains, register pairs, integer comparisons, special registers and masks (spec 07 R190, R195, R199 to
R206): the model's numbers against bit vectors.
-/

namespace Sys2Proof.Laws
open Sys2Proof.Machine Sys2Proof.Claims

/-! ### The wave of a word that issues -/

/-- After its checks the wave of a word that issues is the one its context holds. -/
theorem checked_wave {i : Instr} {s : State} {c : Ctx} (hi : Issues i s c) : (checked i s c).wave c.id = some c.wave := by
  obtain ⟨hid, hw, -⟩ := ctxFor_wave hi.ctx
  rw [(checked_frame i s c).wave, hid, hw]

/-- Changes of a wave that agree on it are one change. -/
theorem updWave_congr {s : State} {id : WaveId} {w : Wave} {f g : Wave → Wave} (hw : s.wave id = some w) (hfg : f w = g w) :
    s.updWave id f = s.updWave id g := by
  simp only [State.updWave, hw, hfg]

/-- A word whose body sets lanes of a mask sets them wherever it issues. -/
theorem writesMask_of_putMask {i : Instr} {d : BitVec 9} {f : Ctx → Nat → Bool}
    (hexec : ∀ s, exec i s = issueWord i s (fun c s => c.putMask s d (f c))) : WritesMask i d f := fun s c hi => by
  refine ⟨maskWith (c.wave.kget d.toNat) c.eff (f c), fun l hl => getLsbD_maskWith _ _ _ l hl, ?_⟩
  rw [Completes, hexec]
  exact issueWord_done hi (congrArg Res.done (updWave_congr (checked_wave hi) rfl))

/-! ### Immediate words (R199) -/

/-- An immediate word computes `g` where the model's function is `g`. -/
theorem immediate_of_exec {i : Instr} {w : IWord} {f g : Word → Word → Word}
    (hexec : ∀ s, exec i s = issueWord i s (fun c s => c.immediate s w f)) (hfg : ∀ a b, f a b = g a b) : Immediate i w g := by
  obtain rfl : f = g := by funext a b; exact hfg a b
  exact writes_of_put32 hexec

/-- A word that puts a list of results and no flags writes it wherever it issues. -/
theorem writes_of_put {i : Instr} {d : BitVec 9} {f : State → Ctx → Nat → List Word}
    (hexec : ∀ s, exec i s = issueWord i s (fun c s => c.put s (c.results d.toNat (f s c)) 0#4)) : Writes i d f := fun s c hi => by
  rw [Completes, hexec]
  exact issueWord_done hi (by simp only [Ctx.put, orFlags_zero])

/-- The word of a 32-bit pattern. -/
theorem wd_eq_ofInt (n : Nat) : wd n = BitVec.ofInt 32 n := (BitVec.ofInt_natCast ..).symm

/-- Settles O3: the shifts of the model are those of bit vectors, and the other words are the same operation. -/
theorem immediateWords : Obligations.ImmediateWords := by
  unfold Obligations.ImmediateWords
  exact fun w => ⟨immediate_of_exec (fun _ => rfl) fun _ _ => rfl,
    immediate_of_exec (fun _ => rfl) fun _ _ => rfl,
    immediate_of_exec (fun _ => rfl) fun _ _ => rfl,
    immediate_of_exec (fun _ => rfl) fun _ _ => rfl,
    immediate_of_exec (fun _ => rfl) fun _ _ => rfl,
    immediate_of_exec (fun _ => rfl) fun a i => by rw [wd_eq_ofInt, ofInt_shlVal],
    immediate_of_exec (fun _ => rfl) fun a i => by rw [wd_eq_ofInt, ofInt_shrVal],
    immediate_of_exec (fun _ => rfl) fun a i => ofInt_sarVal a _,
    immediate_of_exec (fun _ => rfl) fun _ _ => rfl,
    writes_of_put fun _ => rfl⟩

/-! ### Carry chains (R190) -/

/-- The sum or difference with a carry, as a word. -/
theorem wdI_addSub (sub ci : Bool) (a b : Word) :
    wdI (if sub then (a.toNat : Int) - b.toNat - (if ci then 1 else 0 : Nat) else (a.toNat : Int) + b.toNat + (if ci then 1 else 0 : Nat)) =
      if sub then a - b - (if ci then 1#32 else 0#32) else a + b + (if ci then 1#32 else 0#32) := by
  have hk : BitVec.ofInt 32 ((if ci then 1 else 0 : Nat) : Int) = if ci then 1#32 else 0#32 := by cases ci <;> rfl
  have hnat : ∀ x : Word, BitVec.ofInt 32 (x.toNat : Int) = x := fun x => by rw [BitVec.ofInt_natCast, BitVec.ofNat_toNat, BitVec.setWidth_eq]
  unfold wdI
  cases sub with
  | true => simp only [if_true, Int.sub_eq_add_neg, BitVec.ofInt_add, BitVec.ofInt_neg, hnat, hk, BitVec.sub_eq_add_neg]
  | false => simp only [Bool.false_eq_true, if_false, BitVec.ofInt_add, hnat, hk]

/-- The carry or borrow of a lane. -/
theorem carry_eq (sub ci : Bool) (a b : Word) :
    (if sub then subBorrow a.toNat b.toNat (if ci then 1 else 0) else addCarry 32 a.toNat b.toNat (if ci then 1 else 0)) =
      if sub then decide (a.toNat < b.toNat + ci.toNat) else decide (2 ^ 32 ≤ a.toNat + b.toNat + ci.toNat) := by
  cases ci <;> rfl

/-- The body of a carry form. -/
theorem addSub_carry (c : Ctx) (s : State) {w : RWord} (sub : Bool) (h : w.flags.getLsbD 0 = true ∨ w.flags.getLsbD 1 = true) :
    let ci := fun (l : Nat) => w.flags.getLsbD 1 && (c.wave.kget w.c.toNat).getLsbD l
    c.addSub s w sub = .done (s.updWave c.id (fun v =>
      let v := v.regWrites (c.results w.d.toNat (fun l => [if sub then c.opnd w.a l - c.opnd w.b l - (if ci l then 1#32 else 0#32)
        else c.opnd w.a l + c.opnd w.b l + (if ci l then 1#32 else 0#32)]))
      if w.flags.getLsbD 0 then v.kset w.c.toNat (maskWith (c.wave.kget w.c.toNat) c.eff (fun l =>
        if sub then decide ((c.opnd w.a l).toNat < (c.opnd w.b l).toNat + (ci l).toNat)
        else decide (2 ^ 32 ≤ (c.opnd w.a l).toNat + (c.opnd w.b l).toNat + (ci l).toNat))) else v)) := by
  have hor : (w.flags.getLsbD 1 || w.flags.getLsbD 0) = true := by
    rcases h with h | h <;> simp [h]
  simp only [Ctx.addSub, hor, if_true, wdI_addSub, carry_eq]

/-- The issue of `iadd` or `isub`. -/
theorem exec_addSub (w : RWord) (sub : Bool) (s : State) : exec (if sub then .isub w else .iadd w) s =
    issueWord (if sub then .isub w else .iadd w) s (fun c s => c.addSub s w sub) := by
  cases sub <;> rfl

/-- The carry chains of R190. -/
theorem carryChains_holds : Claims.carryChains := fun w sub s c hf hi => by
  refine ⟨_, fun l hl => getLsbD_maskWith _ _ _ l hl, ?_⟩
  rw [Completes, exec_addSub]
  exact issueWord_done hi (addSub_carry c _ sub hf)

/-! ### Register pairs (R201, R202) -/

/-- The two words of a number are the halves of its 64-bit pattern. -/
theorem words64_eq_halves (n : Nat) : words64 n = halves (BitVec.ofNat 64 n) := by
  have hhigh : wd (n / 2 ^ 32) = (BitVec.ofNat 64 n >>> 32).setWidth 32 := by
    refine BitVec.eq_of_toNat_eq ?_
    simp only [wd, BitVec.toNat_ofNat, BitVec.toNat_setWidth, BitVec.toNat_ushiftRight, Nat.shiftRight_eq_div_pow]
    omega
  rw [words64, halves, hhigh, wd_eq_setWidth]

/-- The two words of an integer modulo 2^64. -/
theorem words64_wrapInt (r : Int) : words64 (wrapInt 64 r) = halves (BitVec.ofInt 64 r) := by
  rw [words64_eq_halves, wrapInt_eq_toNat, BitVec.ofNat_toNat, BitVec.setWidth_eq]

/-- The two words of a pattern. -/
theorem words64_toNat (x : Dword) : words64 x.toNat = halves x := by
  rw [words64_eq_halves, BitVec.ofNat_toNat, BitVec.setWidth_eq]

/-- A word that puts one 64-bit result a lane writes its halves wherever it issues. -/
theorem writes_of_put64 {i : Instr} {d : BitVec 9} {f : State → Ctx → Nat → Nat} {g : State → Ctx → Nat → List Word}
    (hexec : ∀ s, exec i s = issueWord i s (fun c s => c.put64 s d (f s c))) (hfg : ∀ s c l, words64 (f s c l) = g s c l) :
    Writes i d g := by
  obtain rfl : (fun s c l => words64 (f s c l)) = g := by funext s c l; exact hfg s c l
  exact writes_of_put hexec

/-- A pair operand read by the word's type. -/
theorem pairVal_eq_pairInt (c : Ctx) (w : RWord) (f : BitVec 9) (l : Nat) : c.pairVal w f l = pairInt w (pairOf c f l) := by
  rw [Ctx.pairVal, opnd64_eq_pairOf, intVal_toNat]
  rfl

/-- The saturation of a 64-bit sum. -/
theorem satInt_eq_clamp64 (w : RWord) (r : Int) :
    (if w.flags.getLsbD 2 then satInt 64 (tySigned w.ty) r else r) = clamp64 w r := by
  unfold clamp64 satInt intMin intMax
  cases tySigned w.ty <;> rfl

/-- The pattern of the integer of a pair. -/
theorem ofInt_pairInt (w : RWord) (x : Dword) : BitVec.ofInt 64 (pairInt w x) = x := by
  unfold pairInt
  split
  · exact BitVec.ofInt_toInt
  · rw [BitVec.ofInt_natCast, BitVec.ofNat_toNat, BitVec.setWidth_eq]

/-- `mul64`: the low half is the product of the patterns. -/
theorem ofInt_mul_pairInt (w : RWord) (x y : Dword) : BitVec.ofInt 64 (pairInt w x * pairInt w y) = x * y := by
  rw [BitVec.ofInt_mul, ofInt_pairInt, ofInt_pairInt]

/-- `lea`: the base and the offset, extended and scaled. -/
theorem ofInt_lea (x : Dword) (b : Word) (uns : Prop) [Decidable uns] (n : Nat) :
    BitVec.ofInt 64 ((x.toNat : Int) + (if uns then (b.toNat : Int) else b.toInt) * (2 ^ n : Nat)) =
      x + ((if uns then b.setWidth 64 else b.signExtend 64) <<< n) := by
  have hb : BitVec.ofInt 64 (if uns then (b.toNat : Int) else b.toInt) = if uns then b.setWidth 64 else b.signExtend 64 := by
    split
    · rw [BitVec.ofInt_natCast, BitVec.ofNat_toNat]
    · rfl
  have hpow : BitVec.twoPow 64 n = BitVec.ofNat 64 (2 ^ n) := BitVec.eq_of_toNat_eq (by rw [BitVec.toNat_twoPow, BitVec.toNat_ofNat])
  rw [BitVec.ofInt_add, BitVec.ofInt_mul, hb, BitVec.ofInt_natCast, BitVec.ofInt_natCast, BitVec.ofNat_toNat, BitVec.setWidth_eq,
    BitVec.shiftLeft_eq_mul_twoPow, hpow]

/-- The 64-bit words of R201 and R202. -/
theorem pairArithmetic_holds : Claims.pairArithmetic := fun w => by
  refine ⟨writes_of_put64 (fun _ => rfl) fun _ c l => ?add, writes_of_put64 (fun _ => rfl) fun _ c l => ?sub,
    writes_of_put64 (fun _ => rfl) fun _ c l => ?mul, writes_of_put64 (fun _ => rfl) fun _ c l => ?shl,
    writes_of_put64 (fun _ => rfl) fun _ c l => ?shr, writes_of_put64 (fun _ => rfl) fun _ c l => ?lea,
    writes_of_put64 (fun _ => rfl) fun _ c l => ?sel⟩
  case add => rw [words64_wrapInt, satInt_eq_clamp64, pairVal_eq_pairInt, pairVal_eq_pairInt]
  case sub => rw [words64_wrapInt, satInt_eq_clamp64, pairVal_eq_pairInt, pairVal_eq_pairInt]
  case mul =>
    dsimp only
    rw [words64_wrapInt, pairVal_eq_pairInt, pairVal_eq_pairInt]
    split
    · rw [ofInt_mul_pairInt]
    · rfl
  case shl => rw [words64_eq_halves, opnd64_eq_pairOf, ← BitVec.ofInt_natCast, ofInt_shlVal]
  case shr =>
    dsimp only
    rw [opnd64_eq_pairOf]
    split
    · rw [words64_wrapInt, ofInt_sarVal]
    · rw [words64_eq_halves, ← BitVec.ofInt_natCast, ofInt_shrVal]
  case lea => 
    dsimp only
    rw [words64_wrapInt, opnd64_eq_pairOf, ofInt_lea]
  case sel =>
    split
    · rw [opnd64_eq_pairOf, words64_toNat]
    · rw [opnd64_eq_pairOf, words64_toNat]

/-- Settles O4: the carry chains and the pairs, on the integers of their patterns. -/
theorem wideArithmetic : Obligations.WideArithmetic := ⟨carryChains_holds, pairArithmetic_holds⟩

/-! ### Comparisons (R195, R200) -/

/-- The model's comparison is that of the condition code. -/
theorem intCond_eq_holds (n : Nat) (x y : Int) : intCond n x y = holds n x y := by
  match n with
  | 0 | 1 | 2 | 3 | 4 => rfl
  | _ + 5 => rfl

/-- The model's combination with the mask in C. -/
theorem combined_eq_combine (c : Ctx) (w : RWord) (l : Nat) (t : Bool) : c.combined w l t = combine c w l t := by
  unfold Ctx.combined combine
  match w.minor / 16 with
  | 0 | 1 | 2 => rfl
  | _ + 3 => rfl

/-- Settles O5: the conditions and combinations of the model are those of the codes. -/
theorem integerComparisons : Obligations.IntegerComparisons := by
  unfold Obligations.IntegerComparisons
  simp only [← combined_eq_combine, ← intCond_eq_holds, ← tyVal_eq_val, ← pairVal_eq_pairInt]
  exact ⟨fun w => ⟨writesMask_of_putMask fun _ => rfl, writesMask_of_putMask fun _ => rfl⟩, fun w => writesMask_of_putMask fun _ => rfl⟩

/-! ### Special registers and single lanes (R203 to R205) -/

/-- A special register as a lane reads it. -/
theorem special_eq_specialOf (s : State) (c : Ctx) (n lane : Nat) : s.special c n lane = specialOf s c n lane := rfl

/-- `mov.sr`: one word, or the pair of a special register that is wide. -/
theorem movSr_writes (w : RWord) : Writes (.movSr w) w.d (fun s c l =>
    if w.minor = 0x0B ∨ w.minor = 0x14 then halves (BitVec.ofNat 64 (specialOf s c w.minor l))
    else [BitVec.ofNat 32 (specialOf s c w.minor l)]) := by
  refine writes_of_put fun s => congrArg (issueWord (.movSr w) s) ?_
  funext c t
  split
  · simp only [Ctx.put64, words64_eq_halves, special_eq_specialOf]
  · rfl

/-- Settles O6: reads and writes of special registers, of the sticky flags and of single lanes. -/
theorem specialAndLaneMoves : Obligations.SpecialAndLaneMoves := by
  unfold Obligations.SpecialAndLaneMoves
  refine fun w => ⟨movSr_writes w, fun s c hi => ?flags,
    writesScalar_of_putScalar (fun _ => rfl) (fun _ _ => rfl) fun _ _ => rfl, fun s c hi => issueWord_done hi rfl⟩
  case flags =>
    refine issueWord_done hi ?_
    simp only [Ctx.uni, ← BitVec.setWidth_eq_extractLsb' (show 4 ≤ 32 by decide)]

/-! ### Masks (R206) -/

/-- The masks of `kop`, bit by bit. -/
theorem kop_value (m : Nat) (x y : Mask) : (match m with
    | 0 => x &&& y
    | 1 => x ||| y
    | 2 => x ^^^ y
    | 3 => x &&& ~~~y
    | _ => ~~~x) = ofBits (fun l =>
    let a := x.getLsbD l
    let b := y.getLsbD l
    match m with
    | 0 => a && b
    | 1 => a || b
    | 2 => a ^^ b
    | 3 => a && !b
    | _ => !a) := by
  refine eq_ofBits fun l hl => ?_
  match m with
  | 0 | 1 | 2 | 3 => simp [hl]
  | _ + 4 => simp [hl]

/-- Leading zeros counted from the top of a word. -/
theorem wd_kffs (x : Mask) : wd (if x.toNat = 0 then 32 else 31 - clzVal 32 x.toNat) = if x = 0#32 then 32#32 else 31#32 - x.clz := by
  have hz : x.toNat = 0 ↔ x = 0#32 := by rw [← BitVec.toNat_inj]; rfl
  by_cases h : x = 0#32
  · simp [h, wd]
  · have hclz : BitVec.ofNat 32 (clzVal 32 x.toNat) = x.clz := by rw [← BitVec.ofInt_natCast, ofInt_clzVal]
    have hlt : x.clz.toNat < 32 := BitVec.clz_lt_iff_ne_zero.2 h
    have hle : clzVal 32 x.toNat ≤ 32 := (List.takeWhile_sublist _).length_le.trans_eq List.length_range
    rw [if_neg (mt hz.1 h), if_neg h, ← hclz, wd]
    rw [← hclz, BitVec.toNat_ofNat] at hlt
    refine BitVec.eq_of_toNat_eq ?_
    simp only [BitVec.toNat_ofNat, BitVec.toNat_sub]
    omega

/-- Settles O7: bit by bit, and by the bit counts. -/
theorem maskWords : Obligations.MaskWords := by
  unfold Obligations.MaskWords
  refine fun w => ⟨writesWhole_of_putWhole (fun _ => rfl) (fun _ _ => rfl) fun c _ => kop_value w.minor _ _,
    fun h => ?whole, fun h => ?value, fun h => ?scalar, fun h => ?active,
    writesScalar_of_putScalar (fun _ => rfl) (fun _ _ => rfl) fun c _ => wd_popVal _,
    writesScalar_of_putScalar (fun _ => rfl) (fun _ _ => rfl) fun c _ => ?ffs⟩
  case whole => exact writesWhole_of_putWhole (fun _ => rfl) (fun c s => by rw [h]; rfl) fun c _ => rfl
  case value => exact writesWhole_of_putWhole (fun _ => rfl) (fun c s => by rw [h]; rfl) fun c _ => rfl
  case scalar => exact writesScalar_of_putScalar (fun _ => rfl) (fun c s => by rw [h]; rfl) fun c _ => rfl
  case active =>
    obtain ⟨n, hn⟩ := Nat.exists_eq_add_of_le' h
    exact writesWhole_of_putWhole (fun _ => rfl) (fun c s => by rw [hn]; rfl) fun c _ => rfl
  case ffs =>
    split
    · rw [wd_eq_ofInt, ofInt_ctzVal]
    · exact wd_kffs _

end Sys2Proof.Laws
end

section
/-!
PROOF. Floating words, approximating words, conversions and paired words (spec 06 R171 to R173; 07 R207; 08 R212 to R225): results
with flags, from the elements of operands to the bit vectors of the statements.
-/

namespace Sys2Proof.Laws
open Sys2Proof.Machine Sys2Proof.Claims

/-! ### Words that compute results with flags (R154, R212, R218) -/

/-- A word whose body computes results with flags writes what equals them wherever it issues. -/
theorem writesFlags_of_calc {i : Instr} {d : BitVec 9} {f g : Ctx → Nat → List Word × Flags}
    (hexec : ∀ s, exec i s = issueWord i s (fun c s => c.calc s d (f c))) (hfg : ∀ c l, f c l = g c l) : WritesFlags i d g := by
  obtain rfl : f = g := by funext c l; exact hfg c l
  intro s c hi
  rw [Completes, hexec]
  exact issueWord_done hi (calc_eq_done c _ d (f c))

/-- A floating word computes `g` where the model's function is `g`. -/
theorem floats_of_float {i : Instr} {w : RWord} {f g : Fmt → Nat → Nat → Nat → Nat × Flags}
    (hexec : ∀ s, exec i s = issueWord i s (fun c s => c.float s w f))
    (hfg : ∀ a x y z, f a x y z = g a x y z) : Floats i w g := by
  obtain rfl : f = g := by funext a x y z; exact hfg a x y z
  exact writesFlags_of_calc hexec fun _ _ => rfl

/-- An element of a packed operand (R138). -/
theorem elem_eq_extract (x : Word) (e : Nat) : elem x.toNat e = (x.extractLsb' (16 * e) 16).toNat := by
  rw [elem, BitVec.extractLsb'_toNat, Nat.shiftRight_eq_div_pow]

/-- A packed word computes `g` on each element where the model's function is `g`. -/
theorem packed_of_packed {i : Instr} {w : RWord} {f g : Fmt → Nat → Nat → Nat → Nat × Flags}
    (hexec : ∀ s, exec i s = issueWord i s (fun c s => c.packed s w f))
    (hfg : ∀ a x y z, f a x y z = g a x y z) : Packed i w g := by
  obtain rfl : f = g := by funext a x y z; exact hfg a x y z
  refine writesFlags_of_calc hexec fun c l => ?_
  simp only [elem_eq_extract, wd, Nat.mul_comm _ 65536, Nat.add_comm]

/-- The signed integer of a number's pattern. -/
theorem sInt_eq_toInt (n x : Nat) : sInt n x = (BitVec.ofNat n x).toInt := by
  rw [← sInt_toNat, BitVec.toNat_ofNat, sInt, sInt, Nat.mod_mod]

/-! ### Floating words (R214, R215, R218) -/

/-- `fdot2`: the exact sum of two products and an f32, unless a term is a NaN (R218). -/
theorem fdot2_eq (f : Fmt) (mode : Nat) (sat : Bool) (x y z : Word) :
    let p := fun (e : Nat) => (f.val (x.extractLsb' (16 * e) 16).toNat).mul (f.val (y.extractLsb' (16 * e) 16).toNat)
    fdot2 f mode sat x.toNat y.toNat z.toNat = f32.ofVal mode sat
      (if (p 0).isNan || (p 1).isNan || (f32.val z.toNat).isNan then .nan ((p 0).isSnan || (p 1).isSnan || (f32.val z.toNat).isSnan)
        else ((p 0).add mode (p 1)).add mode (f32.val z.toNat)) := by
  simp only [fdot2, elem_eq_extract, List.any_cons, List.any_nil, Bool.or_false, Bool.or_assoc]

/-- The lanes whose comparison holds, as the model collects them. -/
theorem getLsbD_fcmpMask (c : Ctx) (r : Nat → Bool × Flags) (t : Nat → Bool → Bool) {l : Nat} (hl : l < 32) (he : c.eff.getLsbD l = true) :
    (maskOf (((c.lanes.map (fun l => (l, r l))).filter (fun x => t x.1 x.2.1)).map (fun x => x.1))).getLsbD l = t l (r l).1 := by
  have hset : ((c.lanes.map (fun l => (l, r l))).filter (fun x => t x.1 x.2.1)).map (fun x => x.1) = c.lanes.filter (fun l => t l (r l).1) := by
    rw [List.filter_map, List.map_map]
    exact List.map_id' _
  rw [hset, getLsbD_maskOf _ _ hl]
  simp [Ctx.lanes, hl, he]

/-- `fcmp` sets the lanes' bits and adds the flags of every effective lane (R215). -/
theorem fcmp_issues (w : RWord) (s : State) (c : Ctx) (hi : Issues (.fcmp w) s c) : ∃ m : Mask,
    let r := fun (l : Nat) => (fmtOf w.ty).fcmp (w.minor % 8) (c.opnd w.a l).toNat (c.opnd w.b l).toNat
    (∀ l, l < 32 → m.getLsbD l = if c.eff.getLsbD l then combine c w l (r l).1 else (c.wave.kget w.d.toNat).getLsbD l) ∧
    Completes (.fcmp w) s c ((checked (.fcmp w) s c).updWave c.id (fun v =>
      (v.kset w.d.toNat m).orFlags (orAll (c.lanes.map (fun l => (r l).2))))) := by
  let r := fun (l : Nat) => (fmtOf w.ty).fcmp (w.minor % 8) (c.opnd w.a l).toNat (c.opnd w.b l).toNat
  refine ⟨maskWith (c.wave.kget w.d.toNat) c.eff (fun l =>
    (maskOf (((c.lanes.map (fun l => (l, r l))).filter (fun x => c.combined w x.1 x.2.1)).map (fun x => x.1))).getLsbD l), ?_, ?_⟩
  · intro l hl
    rw [getLsbD_maskWith _ _ _ l hl]
    split
    · next he => rw [getLsbD_fcmpMask c r _ hl he, combined_eq_combine]
    · rfl
  · refine issueWord_done hi (congrArg Res.done (updWave_congr (checked_wave hi) ?_))
    rw [List.map_map]
    rfl

/-- Settles O8: each word is its operation in the word's mode, on the elements of packed operands. -/
theorem floatArithmetic : Obligations.FloatArithmetic := by
  unfold Obligations.FloatArithmetic
  intro w
  simp only [← roundMode_eq]
  exact ⟨floats_of_float (fun _ => rfl) fun _ _ _ _ => rfl,
    floats_of_float (fun _ => rfl) fun _ _ _ _ => rfl,
    floats_of_float (fun _ => rfl) fun _ _ _ _ => rfl,
    floats_of_float (fun _ => rfl) fun _ _ _ _ => rfl,
    floats_of_float (fun _ => rfl) fun _ _ _ _ => rfl,
    floats_of_float (fun _ => rfl) fun _ _ _ _ => rfl,
    floats_of_float (fun _ => rfl) fun _ _ _ _ => rfl,
    floats_of_float (fun _ => rfl) fun _ _ _ _ => rfl,
    floats_of_float (fun _ => rfl) fun _ _ y _ => by rw [sInt_eq_toInt]; rfl,
    packed_of_packed (fun _ => rfl) fun _ _ _ _ => rfl,
    packed_of_packed (fun _ => rfl) fun _ _ _ _ => rfl,
    packed_of_packed (fun _ => rfl) fun _ _ _ _ => rfl,
    packed_of_packed (fun _ => rfl) fun _ _ _ _ => rfl,
    writesFlags_of_calc (fun _ => rfl) fun _ _ => by dsimp only; rw [fdot2_eq]; rfl,
    fcmp_issues w,
    writesMask_of_putMask fun _ => rfl⟩

/-! ### Approximating words (R216, R217) -/

/-- A NaN operand gives the canonical NaN, with NV for a signalling one (R140). -/
theorem fapprox_nan (fn : ApproxFn) {x : Word} (h : (f32.val x.toNat).isNan = true) :
    fapprox fn x = (0x7FC00000, if (f32.val x.toNat).isSnan then 1#4 else 0#4) := by
  unfold fapprox
  cases hv : f32.val x.toNat with
  | nan s => rfl
  | inf n => rw [hv] at h; cases h
  | fin n m e => rw [hv] at h; cases h

/-- Settles O10: the words write the values of their functions, whose special operands give the fixed results. -/
theorem approximatingWords : Obligations.ApproximatingWords := by
  unfold Obligations.ApproximatingWords
  simp only [← roundMode_eq]
  refine ⟨fun w => ⟨floats_of_float (fun _ => rfl) fun _ _ _ _ => rfl,
    floats_of_float (fun _ => rfl) fun _ _ _ _ => rfl,
    floats_of_float (fun _ => rfl) fun _ _ _ _ => rfl,
    floats_of_float (fun _ => rfl) fun _ _ _ _ => rfl,
    floats_of_float (fun _ => rfl) fun _ _ _ _ => rfl,
    floats_of_float (fun _ => rfl) fun _ _ _ _ => rfl,
    floats_of_float (fun _ => rfl) fun _ _ _ _ => rfl,
    floats_of_float (fun _ => rfl) fun _ _ _ _ => rfl,
    floats_of_float (fun _ => rfl) fun _ _ _ _ => rfl⟩, fun fn x => fapprox_nan fn, rfl, rfl, rfl, rfl, rfl, rfl, rfl, rfl⟩

/-! ### Conversions (R219, R220) -/

/-- The word of a number's pattern in an integer type. -/
theorem wdI_intVal_eq_out (t n : Nat) : wdI (intVal (tyWidth t) (tySigned t) n) = out t (BitVec.ofNat _ n) := by
  have hmod : intVal (tyWidth t) (tySigned t) n = intVal (tyWidth t) (tySigned t) (BitVec.ofNat (tyWidth t) n).toNat := by
    simp only [intVal, sInt, BitVec.toNat_ofNat, Nat.mod_mod]
  rw [hmod, wdI_intVal, out]

/-- Two patterns one above the other, as a number. -/
theorem toNat_append_eq_add {m n : Nat} (x : BitVec m) (y : BitVec n) : (x ++ y).toNat = x.toNat * 2 ^ n + y.toNat := by
  rw [BitVec.toNat_append, ← Nat.shiftLeft_add_eq_or_of_lt y.isLt, Nat.shiftLeft_eq]

/-- `cvt.pk8`: two bytes in the low or the high half of a word, the other half kept. -/
theorem setBits_bytes (d : Word) (m x y : Nat) :
    setBits (setBits d (16 * (m % 2) + 7) (16 * (m % 2)) x) (16 * (m % 2) + 15) (16 * (m % 2) + 8) y =
      if m % 2 = 0 then d.extractLsb' 16 16 ++ (BitVec.ofNat 8 y ++ BitVec.ofNat 8 x : BitVec 16)
      else (BitVec.ofNat 8 y ++ BitVec.ofNat 8 x : BitVec 16) ++ d.extractLsb' 0 16 := by
  have hd := d.isLt
  refine BitVec.eq_of_toNat_eq ?_
  obtain h | h : m % 2 = 0 ∨ m % 2 = 1 := by omega
  · simp only [h, if_true, setBits, bitsN, toNat_append_eq_add, BitVec.toNat_ofNat, BitVec.extractLsb'_toNat, Nat.shiftRight_eq_div_pow]
    omega
  · simp only [h, Nat.one_ne_zero, if_false, setBits, bitsN, toNat_append_eq_add, BitVec.toNat_ofNat, BitVec.extractLsb'_toNat,
      Nat.shiftRight_eq_div_pow]
    omega

/-- A byte of a word. -/
theorem byte_eq_extract (x : Word) (k : Nat) : x.toNat / 256 ^ k % 256 = (x.extractLsb' (8 * k) 8).toNat := by
  rw [BitVec.extractLsb'_toNat, Nat.shiftRight_eq_div_pow, byteWeight_eq]

/-- The scale of a word's `.scl` operand. -/
theorem sclOf_eq (p : Prop) [Decidable p] (x : Word) : sclOf (decide p) x = if p then fp8Scale (x.toNat % 256) else some 0 := by
  unfold sclOf
  by_cases h : p <;> simp [h]

/-! ### Nibbles and block scales (R222 to R224) -/

/-- A number summed from nibbles has their bits. -/
theorem testBit_foldl_nibbles (f : Nat → Nat) (hf : ∀ i, f i < 16) (n k : Nat) :
    ((List.range n).foldl (fun acc i => acc + f i * 16 ^ i) 0).testBit k = (decide (k < 4 * n) && (f (k / 4)).testBit (k % 4)) := by
  induction n generalizing k with
  | zero => simp
  | succ n ih =>
    rw [List.range_succ, List.foldl_append, List.foldl_cons, List.foldl_nil]
    generalize (List.range n).foldl (fun acc i => acc + f i * 16 ^ i) 0 = acc at *
    have hacc : acc < 2 ^ (4 * n) := Nat.lt_pow_two_of_testBit _ fun i hi => by rw [ih, decide_eq_false (by omega), Bool.false_and]
    have hpow : 16 ^ n = 2 ^ (4 * n) := (Nat.pow_mul 2 4 n).symm
    rw [hpow, Nat.add_comm, Nat.mul_comm, Nat.testBit_two_pow_mul_add _ hacc]
    by_cases hlow : k < 4 * n
    · rw [if_pos hlow, ih, decide_eq_true hlow, decide_eq_true (by omega)]
    rw [if_neg hlow]
    by_cases hnib : k < 4 * (n + 1)
    · rw [decide_eq_true hnib, Bool.true_and, show k / 4 = n by omega, show k % 4 = k - 4 * n by omega]
    · rw [decide_eq_false hnib, Bool.false_and]
      exact Nat.testBit_lt_two_pow (Nat.lt_of_lt_of_le (hf n) (Nat.pow_le_pow_right (show 0 < 2 by decide) (show 4 ≤ k - 4 * n by omega)))

/-- `nib.pack`: the nibbles of a quarter's effective lanes (R224). -/
theorem wd_nibbles (c : Ctx) (a : BitVec 9) (q : Nat) :
    wd ((List.range 8).foldl (fun acc i =>
      acc + (if c.eff.getLsbD (8 * q + i) then (c.opnd a (8 * q + i)).toNat % 16 else 0) * 16 ^ i) 0) =
    ofBits (fun i => c.eff.getLsbD (8 * q + i / 4) && (c.opnd a (8 * q + i / 4)).getLsbD (i % 4)) := by
  refine eq_ofBits fun k hk => ?_
  have hlt : ∀ i, (if c.eff.getLsbD (8 * q + i) then (c.opnd a (8 * q + i)).toNat % 16 else 0) < 16 := fun i => by split <;> omega
  rw [wd, BitVec.getLsbD_ofNat, testBit_foldl_nibbles _ hlt, decide_eq_true hk, Bool.true_and, Bool.true_and]
  split
  · next h => rw [h, Bool.true_and, Nat.testBit_mod_two_pow (j := 4), decide_eq_true (Nat.mod_lt _ (by decide)), Bool.true_and, BitVec.testBit_toNat]
  · next h => rw [Bool.eq_false_iff.2 h, Bool.false_and, Nat.zero_testBit]

/-- `nib.unpk`: a nibble extended by its sign or by zeros (R224). -/
theorem nibble_eq_extend (p : Prop) [Decidable p] (x : Word) (k : Nat) :
    (if p ∧ 8 ≤ x.toNat / 16 ^ k % 16 then wdI (((x.toNat / 16 ^ k % 16 : Nat) : Int) - 16) else wd (x.toNat / 16 ^ k % 16)) =
      if p then (x.extractLsb' (4 * k) 4).signExtend 32 else (x.extractLsb' (4 * k) 4).setWidth 32 := by
  have hn : x.toNat / 16 ^ k % 16 = (x.extractLsb' (4 * k) 4).toNat := by
    rw [BitVec.extractLsb'_toNat, Nat.shiftRight_eq_div_pow, Nat.pow_mul]
  rw [hn]
  generalize x.extractLsb' (4 * k) 4 = y
  by_cases hp : p
  · revert y
    simp only [hp, true_and, if_true]
    decide
  · simp [hp, wd]

/-- The blocks of lanes that share a scale: the two halves, or all lanes. -/
def scaleBlocks (c : Ctx) (half : Bool) : List (List Nat) :=
  (if half then [c.lanes.filter (fun l => l < 16), c.lanes.filter (fun l => 16 ≤ l)] else [c.lanes]).filter (fun b => !b.isEmpty)

/-- A sorted list is what lies below a bound and then the rest. -/
theorem filter_lt_append_filter_le {ls : List Nat} (n : Nat) (h : ls.Pairwise (· < ·)) :
    ls.filter (fun l => l < n) ++ ls.filter (fun l => n ≤ l) = ls := by
  induction ls with
  | nil => rfl
  | cons a ls ih =>
    obtain ⟨ha, hls⟩ := List.pairwise_cons.1 h
    by_cases hn : a < n
    · rw [List.filter_cons_of_pos (by simpa using hn), List.filter_cons_of_neg (by simpa using hn), List.cons_append, ih hls]
    · have hall : ∀ l ∈ a :: ls, n ≤ l := by
        rintro l (_ | ⟨_, hl⟩)
        · omega
        · have := ha l hl
          omega
      rw [List.filter_eq_nil_iff.2 (fun l hl => by simpa using hall l hl), List.filter_eq_self.2 (fun l hl => by simpa using hall l hl),
        List.nil_append]

/-- The lanes of a word are those below 16 and then the others. -/
theorem lanes_eq_append (c : Ctx) : c.lanes.filter (fun l => l < 16) ++ c.lanes.filter (fun l => 16 ≤ l) = c.lanes :=
  filter_lt_append_filter_le 16 (List.pairwise_lt_range.filter _)

/-- The blocks make up the lanes. -/
theorem flatten_scaleBlocks (c : Ctx) (half : Bool) : (scaleBlocks c half).flatten = c.lanes := by
  unfold scaleBlocks
  rw [List.flatten_filter_not_isEmpty]
  cases half with
  | true => simp only [if_true, List.flatten_cons, List.flatten_nil, List.append_nil, lanes_eq_append]
  | false => simp

/-- The lanes of a block are the effective lanes of its half. -/
theorem eq_filter_of_mem_scaleBlocks {c : Ctx} {half : Bool} {b : List Nat} {l : Nat} (hb : b ∈ scaleBlocks c half) (hl : l ∈ b) :
    c.lanes.filter (fun j => decide ((if half then j / 16 else 0) = if half then l / 16 else 0)) = b := by
  have hmem : b ∈ if half then [c.lanes.filter (fun l => l < 16), c.lanes.filter (fun l => 16 ≤ l)] else [c.lanes] :=
    List.mem_of_mem_filter hb
  have hlt : ∀ j ∈ c.lanes, j < 32 := fun j hj => ((mem_lanesOf _ _).1 hj).1
  cases half with
  | false =>
    obtain rfl : b = c.lanes := by simpa using hmem
    simp
  | true =>
    simp only [if_true, List.mem_cons, List.not_mem_nil, or_false] at hmem ⊢
    rcases hmem with rfl | rfl
    · obtain ⟨-, hl⟩ := List.mem_filter.1 hl
      rw [decide_eq_true_iff] at hl
      exact List.filter_congr fun j hj => decide_eq_decide.2 (by have := hlt j hj; omega)
    · obtain ⟨hl32, hl⟩ := List.mem_filter.1 hl
      rw [decide_eq_true_iff] at hl
      exact List.filter_congr fun j hj => decide_eq_decide.2 (by have := hlt j hj; have := hlt l hl32; omega)

/-- Results given block by block are results given lane by lane, where every lane of a block gives the block's. -/
theorem blocks_eq_lanes {bs : List (List Nat)} {r : Nat → Nat × Flags} {g : List Nat → Nat × Flags} (f : Nat → Nat → RegWrite)
    (hne : ∀ b ∈ bs, b ≠ []) (hr : ∀ b ∈ bs, ∀ l ∈ b, r l = g b) :
    bs.flatMap (fun b => b.map (fun l => f l (g b).1)) = bs.flatten.map (fun l => f l (r l).1) ∧
      orAll (bs.map (fun b => (g b).2)) = orAll (bs.flatten.map (fun l => (r l).2)) := by
  induction bs with
  | nil => exact ⟨rfl, rfl⟩
  | cons b bs ih =>
    obtain ⟨hwrites, hflags⟩ := ih (fun b hb => hne b (.tail _ hb)) (fun b hb => hr b (.tail _ hb))
    have hb := hr b List.mem_cons_self
    have hbw : b.map (fun l => f l (g b).1) = b.map (fun l => f l (r l).1) := List.map_congr_left fun l hl => by rw [hb l hl]
    have hbf : orAll (b.map (fun l => (r l).2)) = (g b).2 := by
      rw [List.map_congr_left fun l hl => by rw [hb l hl], orAll_map_const (hne b List.mem_cons_self)]
    exact ⟨by rw [List.flatMap_cons, hwrites, List.flatten_cons, List.map_append, hbw],
      by rw [List.map_cons, orAll_cons, hflags, List.flatten_cons, List.map_append, orAll_append, hbf]⟩

/-- `q4.scale`: every lane receives the scale of the lanes of its block (R222). -/
theorem q4Scale_issues (w : RWord) (s : State) (c : Ctx) (hi : Issues (.q4Scale w) s c) :
    let part := fun (l : Nat) => if 4 ≤ w.minor then l / 16 else 0
    let peers := fun (l : Nat) => (c.lanes.filter (fun j => part j = part l)).map (fun j => (c.opnd w.a j).toNat)
    let r := fun (l : Nat) => blockScale (maxMag w.ty (w.minor % 4)) (peers l)
    Completes (.q4Scale w) s c ((checked (.q4Scale w) s c).updWave c.id (fun v =>
      (v.regWrites (c.lanes.map (fun l => ⟨w.d.toNat, l, BitVec.ofNat 32 (64 * (w.minor % 4) + (r l).1)⟩))).orFlags
        (orAll (c.lanes.map (fun l => (r l).2))))) := by
  intro part peers r
  obtain ⟨hwrites, hflags⟩ := blocks_eq_lanes (bs := scaleBlocks c (decide (4 ≤ w.minor))) (r := r)
    (g := fun b => blockScale (maxMag w.ty (w.minor % 4)) (b.map (fun l => (c.opnd w.a l).toNat)))
    (fun l k => ⟨w.d.toNat, l, wd (64 * (w.minor % 4) + k)⟩) (fun b hb => by simpa using List.of_mem_filter hb)
    (fun b hb l hl => by
      have hblock := eq_filter_of_mem_scaleBlocks hb hl
      simp only [decide_eq_true_eq] at hblock
      simp only [r, peers, part, hblock])
  rw [flatten_scaleBlocks] at hwrites hflags
  refine issueWord_done hi ?_
  dsimp only [Ctx.put]
  rw [List.flatMap_map, List.map_map]
  exact congrArg₂ (fun ws fl => Res.done ((checked (.q4Scale w) s c).updWave c.id (fun v => (v.regWrites ws).orFlags fl))) hwrites hflags

/-- Settles O11: the model's bytes and nibbles are those of bit vectors, and its blocks give each lane the scale of its block. -/
theorem conversionsAndQ4 : Obligations.ConversionsAndQ4 := by
  unfold Obligations.ConversionsAndQ4
  intro w
  simp only [← roundMode_eq]
  refine ⟨writesFlags_of_calc (fun _ => rfl) fun c l => ?cvt, writesFlags_of_calc (fun _ => rfl) fun c l => ?pk8,
    writesFlags_of_calc (fun _ => rfl) fun c l => ?ex8, writesFlags_of_calc (fun _ => rfl) fun _ _ => rfl,
    writesFlags_of_calc (fun _ => rfl) fun _ _ => rfl, ?pack, ?unpack, q4Scale_issues w⟩
  case cvt => simp only [opnd64_eq_pairOf, words64_eq_halves, wdI_intVal_eq_out, wd]; rfl
  case pk8 => simp only [sclOf_eq, setBits_bytes]; rfl
  case ex8 => 
    simp only [sclOf_eq, byte_eq_extract, wd]
    rfl
  case pack => 
    have h := writes_of_put32 (i := .nibPack w) (d := w.d) (fun _ => rfl)
    simp only [wd_nibbles] at h
    exact h
  case unpack =>
    have h := writes_of_put32 (i := .nibUnpk w) (d := w.d) (fun _ => rfl)
    simp only [nibble_eq_extend] at h
    exact h

/-! ### Paired words (R171 to R173, R207, R225) -/

/-- The sign operations keep a NaN canonical. -/
theorem floatSign_eq (f : Word → Word) (x : Word) : floatSign f x =
    if (f32.val x.toNat).isNan then (0x7FC00000#32, if (f32.val x.toNat).isSnan then 1#4 else 0#4) else (f x, 0#4) := by
  unfold floatSign
  cases f32.val x.toNat with
  | nan s => rfl
  | inf n => rfl
  | fin n m e => rfl

/-- The lesser of two signed words. -/
theorem imin_eq (d a : Word) : (if d.toInt ≤ a.toInt then d else a) = if a.slt d then a else d := by
  rw [← ite_not]
  simp only [BitVec.slt_iff_toInt_lt, not_le]

/-- The greater of two signed words. -/
theorem imax_eq (d a : Word) : (if d.toInt ≤ a.toInt then a else d) = if d.slt a then a else d := by
  simp only [BitVec.slt_iff_toInt_lt]
  by_cases h : d.toInt = a.toInt
  · simp [BitVec.toInt_inj.1 h]
  · exact if_congr (by omega) rfl rfl

/-- A half-op makes what the statement says of its operands. -/
theorem halfVal_eq_pairedValue (op : HalfOp) (imm : BitVec 8) (d a : Word) : halfVal op imm d a = pairedValue op imm d a := by
  cases op with
  | imin => exact congrArg (·, 0#4) (imin_eq d a)
  | imax => exact congrArg (·, 0#4) (imax_eq d a)
  | shl | shli => exact congrArg (·, 0#4) (by rw [wd_eq_ofInt, ofInt_shlVal])
  | shr | shri => exact congrArg (·, 0#4) (by rw [wd_eq_ofInt, ofInt_shrVal])
  | sar => exact congrArg (·, 0#4) (ofInt_sarVal d _)
  | fneg => exact floatSign_eq (fun x => x ^^^ 0x80000000#32) a
  | fabs => exact floatSign_eq (fun x => x &&& 0x7FFFFFFF#32) a
  | nop | mov | iadd | isub | and | or | xor | fadd | fmul | fmin | fmax | iaddi | andi | movi | not => rfl

/-- The writes and flags of a half. -/
theorem half_eq_halfWrites (c : Ctx) (h : Half) : c.half h = halfWrites c h.op h.f := by
  unfold Ctx.half halfWrites
  simp only [halfVal_eq_pairedValue, List.map_map]
  rfl

/-- The issue of a paired word: both halves read at issue, then half A and half B write. -/
theorem exec_pairInstr (m : Bool) (op : HalfOp) (a : HalfFields) (b : Half) (s : State) :
    exec (pairInstr m op a b) s = issueWord (pairInstr m op a b) s (fun c s => c.pair s ⟨op, a⟩ b) := by
  cases op <;> rfl

/-- Settles O12: each half writes its values of the registers as they stood at issue. -/
theorem pairedWords : Obligations.PairedWords := by
  unfold Obligations.PairedWords
  intro m op a b s c hi
  rw [Completes, exec_pairInstr]
  exact issueWord_done hi (by rw [Ctx.pair, half_eq_halfWrites, half_eq_halfWrites]; rfl)

end Sys2Proof.Laws
end

section
/-!
PROOF. Control words: transfers, `exit`, `rwait`, scheduling, barriers (spec 09 R228 to R238, R245).
-/

namespace Sys2Proof.Laws
open Sys2Proof.Machine Sys2Proof.Claims

/-! ### A wave set twice -/

/-- A write over an entry that is no default leaves what the second write alone leaves. -/
theorem sset_sset_same {β : Type} [DecidableEq β] (d : β) (m : Sparse β) (k : Nat) {x : β} (y : β) (hx : x ≠ d) :
    sset d (sset d m k x) k y = sset d m k y := by
  induction m with
  | nil => by_cases hy : y = d <;> simp [sset, sdel, hx, hy]
  | cons e m ih =>
    obtain ⟨j, u⟩ := e
    rcases Nat.lt_trichotomy k j with h | rfl | h
    · have h1 : ¬ k = j := by omega
      have h2 : ¬ j = k := by omega
      by_cases hy : y = d <;> simp [sset, sdel, h, h1, h2, hx, hy]
    · by_cases hy : y = d <;> simp [sset, sdel, hx, hy]
    · have h1 : ¬ k = j := by omega
      have h2 : ¬ k < j := by omega
      simp only [sset, h1, h2, if_false, ih]

/-- A core that a wave stands in is not idle. -/
theorem setWave_core_ne_idle (s : State) (id : WaveId) (x : Wave) :
    ({ s.core id.core with waves := sset none (s.core id.core).waves (waveKey id) (some x) } : Core) ≠ Core.idle := by
  intro h
  have hw := congrArg (fun c : Core => sget none c.waves (waveKey id)) h
  simp only [sget_sset_same] at hw
  cases hw

/-- A wave set twice is the second one. -/
theorem setWave_setWave (s : State) (id : WaveId) (x : Wave) (y : Option Wave) :
    (s.setWave id (some x)).setWave id y = s.setWave id y := by
  unfold State.setWave
  have hcore : (s.updCore id.core (fun c => { c with waves := sset none c.waves (waveKey id) (some x) })).core id.core =
      { s.core id.core with waves := sset none (s.core id.core).waves (waveKey id) (some x) } := core_updCore_same _ _ _
  conv_lhs => rw [State.updCore, hcore]
  simp only [sset_sset_same none _ _ _ (Option.some_ne_none x), State.setCore, State.updCore]
  rw [sset_sset_same _ _ _ _ (setWave_core_ne_idle s id x)]

/-- Setting a wave after changing it. -/
theorem setWave_updWave (s : State) (id : WaveId) (f : Wave → Wave) (y : Option Wave) {w : Wave} (hw : s.wave id = some w) :
    (s.updWave id f).setWave id y = s.setWave id y := by
  simp only [State.updWave, hw, setWave_setWave]

/-- The wave that is there, changed. -/
theorem updWave_eq_setWave {s : State} {id : WaveId} {w : Wave} (hw : s.wave id = some w) (f : Wave → Wave) :
    s.updWave id f = s.setWave id (some (f w)) := by
  simp only [State.updWave, hw]

/-! ### Transfers (R229, R231, R234) -/

/-- The model's transfer: SEG_LIMIT where an effective lane that takes it has its target past the limit, else the PCs. -/
theorem transfers_of_transfer {i : Instr} {take : Ctx → Nat → Bool} {target : Ctx → Nat → Word} {extra : Ctx → Wave → Wave}
    (hexec : ∀ s, exec i s = issueWord i s (fun c s => c.transfer s (take c) (target c) (extra c))) : Transfers i take target extra := by
  intro s c hi past
  have hpast : ∀ l, l < 32 → (l ∈ c.lanes.filter (fun l => take c l && c.beyond (target c l)) ↔ past l = true) := fun l hl => by
    simp only [Ctx.lanes, List.mem_filter, mem_lanesOf, Bool.and_eq_true, past, hl, true_and, and_assoc]
    rfl
  refine ⟨fun hnone => ?_, fun l hl hl' hlow => ?_⟩
  · have hbad : c.lanes.filter (fun l => take c l && c.beyond (target c l)) = [] := List.eq_nil_iff_forall_not_mem.2 fun l hmem => by
      have hlt : l < 32 := ((mem_lanesOf _ _).1 (List.mem_of_mem_filter hmem)).1
      have := (hpast l hlt).1 hmem
      simp [hnone l hlt] at this
    rw [CompletesMoved, hexec]
    exact issueWord_moved hi (by rw [Ctx.transfer, hbad])
  · obtain ⟨j, ls, hbad⟩ : ∃ j ls, c.lanes.filter (fun l => take c l && c.beyond (target c l)) = j :: ls :=
      List.exists_cons_of_ne_nil (List.ne_nil_of_mem ((hpast l hl).2 hl'))
    have hjmem : j ∈ c.lanes.filter (fun l => take c l && c.beyond (target c l)) := by simp [hbad]
    have hjlt : j < 32 := ((mem_lanesOf _ _).1 (List.mem_of_mem_filter hjmem)).1
    have hsorted : (c.lanes.filter (fun l => take c l && c.beyond (target c l))).Pairwise (· < ·) :=
      (List.pairwise_lt_range.filter _).filter _
    have hlmem := (hpast l hl).2 hl'
    rw [hbad, List.pairwise_cons] at hsorted
    rw [hbad, List.mem_cons] at hlmem
    have hj : j = l := by
      rcases hlmem with rfl | htail
      · rfl
      · have := (hpast j hjlt).1 hjmem
        simp [hlow j (hsorted.1 l htail)] at this
    subst hj
    rw [Raises, hexec]
    refine issueWord_raise hi ?_
    have hmask : maskOf (c.lanes.filter (fun l => take c l && c.beyond (target c l))) = ofBits past := by
      rw [maskOf_filter_lanes]
      simp only [past, Bool.and_assoc]
      rfl
    rw [← hmask, Ctx.transfer, hbad]
    rfl

/-- A condition of `brv`, as the model decides it. -/
theorem brvTake_eq (w : BWord) (c : Ctx) (l : Nat) : (if w.minor = 0#5 then true
    else if w.minor = 1#5 then decide (c.opnd w.a l ≠ 0#32) else decide (c.opnd w.a l = 0#32)) =
      (w.minor == 0#5 || (if w.minor = 1#5 then c.opnd w.a l != 0#32 else c.opnd w.a l == 0#32)) := by
  rw [bne_eq_decide_ne, beq_eq_decide, beq_eq_decide]
  by_cases h : w.minor = 0#5 <;> simp [h]

/-- A condition of `bru`, as the model decides it. -/
theorem bruTake_eq (w : BWord) (c : Ctx) : c.bruTake w = (match w.minor.toNat with
    | 0 => c.wave.kget w.a.toNat &&& c.eff != 0#32
    | 1 => c.wave.kget w.a.toNat &&& c.eff == c.eff
    | 2 => c.wave.kget w.a.toNat &&& c.eff == 0#32
    | 3 => c.opnd w.a (lowLane c.eff) != 0#32
    | _ => c.opnd w.a (lowLane c.eff) == 0#32) := by
  simp only [bne_eq_decide_ne, beq_eq_decide]
  rfl

/-- The scalar register that a field names. -/
theorem sreg_zero (c : Ctx) (f : BitVec 9) : c.sreg f 0 = c.wave.sreg (f.toNat - 0x100) := by rw [Ctx.sreg, Nat.add_zero]

/-- The transfers of R229, R231 and R234. -/
theorem transferWords_holds : Claims.transferWords := fun w => by
  have hbrv : Transfers (.brv w) (fun c l => if w.minor = 0#5 then true
    else if w.minor = 1#5 then decide (c.opnd w.a l ≠ 0#32) else decide (c.opnd w.a l = 0#32)) (fun c _ => c.pc + w.offset)
    (fun _ v => v) := transfers_of_transfer fun _ => rfl
  have hbru : Transfers (.bru w) (fun c _ => c.bruTake w) (fun c _ => c.pc + w.offset) (fun _ v => v) := transfers_of_transfer fun _ => rfl
  have hloop : Transfers (.loop w) (fun c _ => decide (c.sreg w.a 0 - 1#32 ≠ 0#32)) (fun c _ => c.pc + w.offset)
    (fun c v => if c.eff = 0#32 then v else v.sregSet (w.a.toNat - 0x100) (c.sreg w.a 0 - 1#32)) := transfers_of_transfer fun _ => rfl
  simp only [sreg_zero] at hloop
  simp only [brvTake_eq] at hbrv
  simp only [bruTake_eq] at hbru
  exact ⟨transfers_of_transfer fun _ => rfl, hbrv, hbru, transfers_of_transfer fun _ => rfl, transfers_of_transfer fun _ => rfl,
    transfers_of_transfer fun _ => rfl, by simpa only [bne_eq_decide_ne] using hloop⟩

/-! ### `exit` (R230) -/

/-- A wave after `f`, with lanes exited. -/
def leaving (f : Wave → Wave) (m : Mask) (v : Wave) : Wave := { f v with exited := v.exited ||| m }

/-- Lanes of a resident wave exit; with the last of them the wave ends. -/
theorem exitLanes_eq {s : State} {id : WaveId} {w v : Wave} {g : Workgroup} {m : Mask} (hw : s.wave id = some w)
    (hv : { w with exited := w.exited ||| m } = v) (hg : s.wg id.core v.wg = some g) :
    s.exitLanes id m = if v.exited = 0xFFFFFFFF#32 then (s.setWave id (some v)).waveEnd id v g else s.setWave id (some v) := by
  subst hv
  simp only [State.exitLanes, hw, wg_setWave, hg]

/-- Lanes that exit after the others have moved on. -/
theorem exitLanes_updWave {s : State} {id : WaveId} {w : Wave} {g : Workgroup} (hw : s.wave id = some w)
    (hg : s.wg id.core w.wg = some g) (f : Wave → Wave) (m : Mask) (hexit : (f w).exited = w.exited) (hwg : (f w).wg = w.wg) :
    (s.updWave id f).exitLanes id m =
      if w.exited ||| m = 0xFFFFFFFF#32 then (s.updWave id (leaving f m)).waveEnd id (leaving f m w) g else s.updWave id (leaving f m) := by
  have hset : (s.updWave id f).setWave id (some (leaving f m w)) = s.updWave id (leaving f m) := by
    rw [setWave_updWave s id f _ hw, updWave_eq_setWave hw]
  rw [← hset]
  exact exitLanes_eq (w := f w) (v := leaving f m w) (m := m) (by rw [wave_updWave_same, hw]; rfl) (by rw [leaving, hexit])
    (by rw [wg_updWave, show (leaving f m w).wg = w.wg from hwg, hg])

/-- `nop` and `exit`. -/
theorem nopAndExit_holds : Claims.nopAndExit := fun w s c => by
  refine ⟨fun hi => issueWord_done hi rfl, fun hi => issueWord_moved hi ?_⟩
  obtain ⟨hid, -, hg⟩ := ctxFor_wave hi.ctx
  have hwg : (checked (.exit w) s c).wg c.id.core c.wave.wg = some c.wg := by rw [(checked_frame _ s c).wg, hid, hg]
  obtain ⟨p, hp⟩ := pcSets_eq c.wave (lanesOf (c.active &&& ~~~c.eff)) (fun _ => c.pc + 1#32)
  exact congrArg Res.moved (exitLanes_updWave (checked_wave hi) hwg (fun v => v.pcSets (lanesOf (c.active &&& ~~~c.eff))
    (fun _ => c.pc + 1#32)) c.eff (by rw [hp]) (by rw [hp]))

/-- Settles O15: the lanes past the limit are those the model collects, and `exit` sets its wave once. -/
theorem controlTransfers : Obligations.ControlTransfers := ⟨transferWords_holds, nopAndExit_holds⟩

/-! ### `rwait` (R233) -/

/-- The timeout mask of `rwait`: `k0` is never written. -/
theorem ite_kset (v : Wave) (k : Nat) (m : Mask) : (if k = 0 then v else v.kset k m) = v.kset k m := by
  unfold Wave.kset
  split <;> rfl

/-- Where a word's body changes its own wave by `f`, which agrees on that wave with `g`, it completes with `g`. -/
theorem completesMoved_of_updWave {i : Instr} {s : State} {c : Ctx} {body : Ctx → State → Res} {f g : Wave → Wave} (hi : Issues i s c)
    (hexec : exec i s = issueWord i s body) (hbody : body c (checked i s c) = .moved ((checked i s c).updWave c.id f))
    (hfg : f c.wave = g c.wave) : CompletesMoved i s c ((checked i s c).updWave c.id g) := by
  rw [CompletesMoved, hexec]
  exact issueWord_moved hi (hbody.trans (congrArg Res.moved (updWave_congr (checked_wave hi) hfg)))

/-- Settles O16: the cases of the held set, on the wave that issues. -/
theorem holdingLanes : Obligations.HoldingLanes := by
  unfold Obligations.HoldingLanes
  intro w s c hi k on t becomes
  obtain ⟨p, hp⟩ : ∃ p, on c.wave = { c.wave with pcs := p } := pcSets_eq ..
  have hheld : (on c.wave).held = c.wave.held := by rw [hp]
  have hold : ∀ g : Wave → Wave, c.hold w (t.pclk c.wg.part) c.wave = g (on c.wave) → becomes g := fun g hg =>
    completesMoved_of_updWave (body := fun c s => .moved (s.updWave c.id (c.hold w (s.pclk c.wg.part))))
      (f := c.hold w (t.pclk c.wg.part)) (g := fun v => g (on v)) hi rfl rfl hg
  have hcases : c.eff ≠ 0#32 → c.hold w (t.pclk c.wg.part) c.wave = match (on c.wave).held with
      | none => { on c.wave with held := some ⟨c.pc, c.relative w, t.pclk c.wg.part + (c.uni w.a).toNat, c.eff, k⟩ }
      | some h => if h.pc = c.pc then { on c.wave with held := some { h with mask := h.mask ||| c.eff } }
        else ((on c.wave).pcSets c.lanes (fun _ => c.pc + 1#32)).kset k (((on c.wave).pcSets c.lanes (fun _ => c.pc + 1#32)).kget k ||| c.eff) :=
    fun he => by simp only [Ctx.hold, he, if_false, ite_kset]; rfl
  rw [hheld] at hcases
  refine ⟨fun he => hold id ?_, fun he hn => ?_, fun he h hh hpc => ?_, fun he h hh hpc => ?_⟩
  · simp only [Ctx.hold, he, if_true, id]
    exact congrArg (fun m => c.wave.pcSets (lanesOf (c.active &&& ~~~m)) (fun _ => c.pc + 1#32)) he.symm
  · exact hold (fun v => { v with held := some ⟨c.pc, c.relative w, t.pclk c.wg.part + (c.uni w.a).toNat, c.eff, k⟩ })
      (by rw [hcases he, hn])
  · exact hold (fun v => { v with held := some { h with mask := h.mask ||| c.eff } }) (by rw [hcases he, hh]; exact if_pos hpc)
  · exact hold (fun v => (v.pcSets c.lanes (fun _ => c.pc + 1#32)).kset k ((v.pcSets c.lanes (fun _ => c.pc + 1#32)).kget k ||| c.eff))
      (by rw [hcases he, hh]; exact if_neg hpc)

/-! ### Scheduling words (R235, R236, R245) -/

/-- The low half of a word. -/
theorem mod_65536_eq_extract (x : Word) : x.toNat % 65536 = (x.extractLsb' 0 16).toNat := by
  rw [BitVec.extractLsb'_toNat, Nat.shiftRight_zero]

/-- The scheduling words of R235, R236 and R245. -/
theorem schedulingWords_holds : Claims.schedulingWords := fun w s c => by
  refine ⟨fun hi => issueWord_done hi rfl, fun hi => issueWord_done hi ?pass, fun hi => issueWord_done hi rfl, fun hi => issueWord_done hi ?snap⟩
  case pass =>
    dsimp only [Ctx.uni, Ctx.core]
    rw [← List.head?_filter]
    generalize List.filter _ _ = heirs
    split
    · rfl
    · cases heirs <;> rfl
  case snap => rw [← mod_65536_eq_extract]; rfl

/-! ### Barriers (R237, R238) -/

/-- The slot's record as the model reads it. -/
theorem barrier_eq_slotOf (s : State) (c : Ctx) (ens : Bool) (n : Nat) : s.barrier c ens n = slotOf s c ens n := by
  unfold State.barrier slotOf ensKey
  rw [Nat.mul_comm]

/-- The wave's place among the arrivals as the model forms it. -/
theorem seat_eq_seatOf (c : Ctx) (ens : Bool) : (if ens then c.wg.ensRank * 32 + c.wave.index else c.wave.index) = seatOf c ens := by
  unfold seatOf
  rw [Nat.mul_comm]

/-- The `%xinfo` of a SYNC at a barrier. -/
theorem barInfo_eq (ens : Bool) (n : Nat) : barInfo ens n = n + 2 ^ 63 + (if ens then 2 ^ 62 else 0) := by
  unfold barInfo
  omega

section
variable {c : Ctx} (s : State) {w : BWord} {ens arrive : Bool} (waits : Bool) {n : Nat} (he : c.eff ≠ 0#32) (hn : (c.uni w.a).toNat = n)
include he hn

/-- A barrier word on a slot that is not declared. -/
theorem barrier_undeclared (h : c.wg.bars ≤ n ∨ (ens = true ∧ c.wg.ensSize ≤ 1)) :
    c.barrier s w ens arrive waits = .raise ⟨0x03, 8, c.word.toNat⟩ c.eff s := by
  simp only [Ctx.barrier, he, if_false, hn, h, if_true, Ctx.valueFault]

variable (hslot : ¬ (c.wg.bars ≤ n ∨ (ens = true ∧ c.wg.ensSize ≤ 1)))
include hslot

/-- Arriving twice for a generation, or waiting without an arrival. -/
theorem barrier_sync (h : if arrive then sget none (slotOf s c ens n).arrivals (seatOf c ens) = some (slotOf s c ens n).gen
      else sget none (slotOf s c ens n).arrivals (seatOf c ens) = none) :
    c.barrier s w ens arrive waits = .raise ⟨0x17, 0, n + 2 ^ 63 + (if ens then 2 ^ 62 else 0)⟩ c.eff s := by
  cases arrive with
  | true =>
    simp only [if_true] at h
    simp only [Ctx.barrier, he, if_false, hn, hslot, barrier_eq_slotOf, seat_eq_seatOf, h, and_self, if_true, barInfo_eq]
  | false =>
    simp only [Bool.false_eq_true, if_false] at h
    simp only [Ctx.barrier, he, if_false, hn, hslot, barrier_eq_slotOf, seat_eq_seatOf, h, Bool.false_eq_true, false_and, and_self, if_true,
      barInfo_eq]

/-- An arrival, recorded for the slot's generation; a word that also waits parks its wave. -/
theorem barrier_arrives (h : sget none (slotOf s c ens n).arrivals (seatOf c ens) ≠ some (slotOf s c ens n).gen) :
    let b := slotOf s c ens n
    let mark := s.setBarrier c ens n { b with arrivals := sset none b.arrivals (seatOf c ens) (some b.gen) }
    let parked := (mark.record c ⟨if ens then 0x02 else 0x01, n, (b.gen + 1#32).toNat⟩).arrive c ens n
    c.barrier s w ens true waits = .done (if waits then (parked.launch c (.barWait ens n b.gen) []).waitTry c.id parked.tags
      else mark.arrive c ens n) := by
  cases waits <;>
  simp only [Ctx.barrier, he, if_false, hn, hslot, barrier_eq_slotOf, seat_eq_seatOf, h, and_false, Bool.true_eq_false, false_and,
    if_true, decide_true, Bool.and_true, Bool.false_eq_true]

/-- A wait for the generation after the wave's arrival, whose record goes where that generation is over. -/
theorem barrier_waits {a : Word} (h : sget none (slotOf s c ens n).arrivals (seatOf c ens) = some a) :
    let b := slotOf s c ens n
    let parked := s.record c ⟨if ens then 0x02 else 0x01, n, (a + 1#32).toNat⟩
    c.barrier s w ens false waits = .done (if waits then
        (if a = b.gen then (parked.launch c (.barWait ens n a) []).waitTry c.id parked.tags
          else (if ens then s.acquireAll c.core else s).setBarrier c ens n { b with arrivals := sset none b.arrivals (seatOf c ens) none })
      else s) := by
  by_cases ha : a = (slotOf s c ens n).gen <;> cases waits <;>
  simp only [Ctx.barrier, he, if_false, hn, hslot, barrier_eq_slotOf, seat_eq_seatOf, h, reduceCtorEq, and_false, Bool.false_eq_true,
    false_and, if_true, optD, ha, decide_true, decide_false, Bool.and_true, Bool.and_false]

end

/-- A barrier word is what the model's barrier makes of it. -/
theorem barrierWord_of_barrier {i : Instr} {w : BWord} {ens arrive waits : Bool}
    (hexec : ∀ s, exec i s = issueWord i s (fun c s => c.barrier s w ens arrive waits)) : BarrierWord i w ens arrive waits := by
  intro s c hi he n t b old mark park arrives holds
  have hdone : ∀ u, c.barrier t w ens arrive waits = .done u → Completes i s c u := fun u hu => by
    rw [Completes, hexec]
    exact issueWord_done hi hu
  have hraise : ∀ r, c.barrier t w ens arrive waits = .raise r c.eff t → Raises i s c r c.eff := fun r hu => by
    rw [Raises, hexec]
    exact issueWord_raise hi hu
  refine ⟨fun h => hraise _ (barrier_undeclared t waits he rfl h), fun hbars hens => ?_⟩
  have hslot : ¬ (c.wg.bars ≤ n ∨ (ens = true ∧ c.wg.ensSize ≤ 1)) := by
    rintro (h | ⟨h1, h2⟩)
    · omega
    · have := hens h1
      omega
  refine ⟨fun h => hraise _ (barrier_sync t waits he rfl hslot h), fun harr hold => ?_, fun harr a ha => ?_⟩
  · subst harr
    exact hdone _ (barrier_arrives t waits he rfl hslot hold)
  · subst harr
    refine hdone _ ((barrier_waits t waits he rfl hslot ha).trans (congrArg Res.done ?_))
    cases waits with
    | false => rfl
    | true =>
      by_cases hab : a = (slotOf t c ens n).gen
      · exact (if_pos hab).trans (Eq.trans (by subst hab; rfl) (if_pos hab).symm)
      · exact (if_neg hab).trans (if_neg hab).symm

/-- Whether a generation is at or past another in the wrapping order. -/
theorem wrapGe_iff (x y : Word) : wrapGe x.toNat y.toNat = true ↔ (x - y).toNat < 2 ^ 31 := by
  have hx := x.isLt
  have hy := y.isLt
  rw [wrapGe, decide_eq_true_iff, BitVec.toNat_sub, Nat.mod_eq_of_lt hy]
  omega

/-- An arrival in flight, in its place among the accesses of its wave. -/
theorem arriveTry_eq {s : State} {id : WaveId} {tag slot : Nat} {w : Wave} {f : Flight} {ens : Bool} (hw : s.wave id = some w)
    (hf : w.flight tag = some f) (hop : f.op = .arrive ens slot) :
    let t := s.performAll id (some tag)
    let u := if ens then t.writeBack id.core (fun _ => true) else t
    s.arriveTry id tag = if !t.performedBefore id tag then t
      else if ens && !u.published id.core (fun _ => true) then u
      else if ens then (u.finish id tag).ensBarCheck id.core w.wg slot else (u.finish id tag).barCheck id.core w.wg slot := by
  simp only [State.arriveTry, hw, hf, hop]

/-- A wait in flight. -/
theorem waitTry_eq {s : State} {id : WaveId} {tag slot : Nat} {gen : Word} {w : Wave} {f : Flight} {g : Workgroup} {ens : Bool}
    (hw : s.wave id = some w) (hf : w.flight tag = some f) (hg : s.wg id.core w.wg = some g) (hop : f.op = .barWait ens slot gen) :
    let now := (if ens then sget Barrier.fresh (s.part g.part).ensBarriers (32 * g.ensId + slot) else sget Barrier.fresh g.barriers slot).gen
    s.waitTry id tag = if wrapGe now.toNat (gen + 1#32).toNat = false ∨ w.blockedBefore tag = true then s
      else (if ens then s.acquireAll id.core else s).finish id tag := by
  simp only [State.waitTry, hw, hf, hg, hop, ensKey, Nat.mul_comm 32]
  cases ens with
  | false => exact if_congr (by simp only [Bool.or_eq_true, decide_eq_true_eq, Bool.false_eq_true, if_false]) rfl rfl
  | true => exact if_congr (by simp only [Bool.or_eq_true, decide_eq_true_eq, if_true]) rfl rfl

/-- The order of arrivals and waits among a wave's accesses (R123). -/
theorem barrierOrder_holds : BarrierOrder := fun s id tag slot w f g ens hw hf hg => by
  refine ⟨fun hop => ?_, fun gen hop => ?_⟩
  · intro t u
    have hnot : t.performedBefore id tag = true → ¬ (!t.performedBefore id tag) = true := fun hp => by
      rw [hp]
      decide
    refine ⟨fun hp => (arriveTry_eq hw hf hop).trans (if_pos ?_), fun hp he hpub => ?_, fun hp hpub => ?_⟩
    · rw [show t.performedBefore id tag = false from hp]
      rfl
    · refine (arriveTry_eq hw hf hop).trans ((if_neg (hnot hp)).trans (if_pos ?_))
      exact Bool.and_eq_true_iff.2 ⟨he, (congrArg Bool.not hpub).trans rfl⟩
    · refine (arriveTry_eq hw hf hop).trans ((if_neg (hnot hp)).trans (if_neg ?_))
      cases ens with
      | true =>
        rw [show u.published id.core (fun _ => true) = true from hpub rfl]
        decide
      | false => exact Bool.false_ne_true
  · intro now
    refine ⟨fun hge => (waitTry_eq hw hf hg hop).trans (if_pos (.inl (Bool.eq_false_iff.2 fun h => Nat.not_lt.2 hge ((wrapGe_iff _ _).1 h)))),
      fun hlt hb => (waitTry_eq hw hf hg hop).trans (if_neg ?_)⟩
    rintro (h | h)
    · exact Bool.false_ne_true (h.symm.trans ((wrapGe_iff _ _).2 hlt))
    · exact Bool.false_ne_true (hb.symm.trans h)

/-- When a workgroup's slot completes (R237). -/
theorem barrierCompletes_holds : BarrierCompletes := fun s core wg slot g hg => by
  intro b there complete
  have hcheck : ((List.range g.waves).all (fun n => g.exitedWaves.getLsbD n ||
      (decide (sget none b.arrivals n = some b.gen) && !(s.arriving core wg false slot).contains n)) &&
        (List.range g.waves).any (fun n => !g.exitedWaves.getLsbD n && decide (sget none b.arrivals n = some b.gen))) = true ↔ complete := by
    simp only [Bool.and_eq_true, List.all_eq_true, List.any_eq_true, List.mem_range, Bool.or_eq_true, decide_eq_true_eq, Bool.not_eq_true',
      List.contains_eq_mem, decide_eq_false_iff_not]
    rfl
  constructor
  · intro h
    simp only [State.barCheck, hg]
    exact ⟨_, if_pos (hcheck.2 h)⟩
  · intro h
    simp only [State.barCheck, hg]
    exact if_neg (mt hcheck.1 h)

/-- A barrier word with no effective lane does nothing. -/
theorem completes_of_barrier_empty {i : Instr} {w : BWord} {ens arrive waits : Bool} {s : State} {c : Ctx}
    (hexec : exec i s = issueWord i s (fun c s => c.barrier s w ens arrive waits)) (hi : Issues i s c) (he : c.eff = 0#32) :
    Completes i s c (checked i s c) := by
  rw [Completes, hexec]
  exact issueWord_done hi (by simp only [Ctx.barrier, he, if_true])

/-- The barrier words of R237 and R238. -/
theorem barrierWords_holds : Claims.barrierWords := fun w => by
  refine ⟨barrierWord_of_barrier fun _ => rfl, barrierWord_of_barrier fun _ => rfl, barrierWord_of_barrier fun _ => rfl,
    barrierWord_of_barrier fun _ => rfl, barrierWord_of_barrier fun _ => rfl, barrierWord_of_barrier fun _ => rfl, ?_,
    barrierOrder_holds, barrierCompletes_holds⟩
  intro i hmem s c hi he
  simp only [List.mem_cons, List.not_mem_nil, or_false] at hmem
  rcases hmem with rfl | rfl | rfl | rfl | rfl | rfl
  all_goals exact completes_of_barrier_empty rfl hi he

/-- Settles O17: the scheduling words as they stand, and the barriers by the cases of a slot's record. -/
theorem schedulingAndBarrierWords : Obligations.SchedulingAndBarrierWords := ⟨schedulingWords_holds, barrierWords_holds⟩

end Sys2Proof.Laws
end

section
/-!
PROOF. The words of the handler: `trap` and `brk` raise past themselves, `tret` rebuilds the wave from its save areas, and a fault
enters the handler or kills.
-/

namespace Sys2Proof.Laws
open Sys2Proof.Machine Sys2Proof.Claims

/-! ### The words -/

/-- A word whose body settles the next state itself. -/
theorem issueWord_stay {i : Instr} {s u : State} {c : Ctx} {body : Ctx → State → Res} (h : Issues i s c)
    (hb : body c (checked i s c) = .stay u) : issueWord i s body = .next u := by
  rw [issueWord_of_issues h, hb]

/-- The checks report nothing to the debug function. -/
theorem checked_debugReports (i : Instr) (s : State) (c : Ctx) : (checked i s c).debugReports = s.debugReports :=
  (congrArg State.debugReports (checked_frame i s c).rest :)

/-- `tret` with effective lanes and no fault deferred leaves its handler and evaluates the held set. -/
theorem tret_leaves {w : BWord} {s : State} {c : Ctx} {v : Wave} (hi : Issues (.tret w) s c) (he : c.eff ≠ 0#32)
    (hv : ((checked (.tret w) s c).trapReturn c).wave c.id = some v) (hd : v.deferred = none) :
    exec (.tret w) s = .next (((((checked (.tret w) s c).trapReturn c).updWave c.id
      (fun x => { x with lastIssue := (checked (.tret w) s c).clk })).countIssue c.id).heldCheck c.id) := by
  have hw : ((((checked (.tret w) s c).trapReturn c).updWave c.id
      (fun x => { x with lastIssue := (checked (.tret w) s c).clk })).countIssue c.id).wave c.id =
      some { v with lastIssue := (checked (.tret w) s c).clk } := by
    rw [(countIssue_frame _ _).2.1, wave_updWave_same, hv]
    rfl
  refine issueWord_stay hi ?_
  simp only [if_neg he, hw, hd]

/-- The words that enter and leave the handler. -/
theorem trapWordsIssue_holds : Claims.trapWordsIssue := fun w s c => by
  refine ⟨fun hi he => issueWord_stay hi (if_neg he), fun hi he hb => issueWord_stay hi ?_, fun hi he hb => ?_,
    fun hi he v hv hd => tret_leaves hi he hv hd, fun i hmem hi he => ?_⟩
  · exact (if_neg he).trans (if_neg (by rw [hb]; exact Bool.false_ne_true))
  · have hr : ((checked (.brk w) s c).updWave c.id (fun v => { v with stopPending := true })).debugReports = s.debugReports :=
      (updWave_debugReports _ _ _).trans (checked_debugReports _ s c)
    refine issueWord_done hi ((if_neg he).trans ((if_pos hb).trans ?_))
    rw [State.debugReport, hr]
  · simp only [List.mem_cons, List.not_mem_nil, or_false] at hmem
    rcases hmem with rfl | rfl | rfl
    all_goals exact issueWord_done hi (if_pos he)

/-! ### Leaving the handler -/

/-- A number of `n` bytes, read back from its bytes. -/
theorem natOfBytes_bytesOfNat (x n : Nat) : natOfBytes (bytesOfNat x n) = x % 256 ^ n := by
  induction n generalizing x with
  | zero => simp [natOfBytes, bytesOfNat, Nat.mod_one]
  | succ n ih =>
    have hb : bytesOfNat x (n + 1) = BitVec.ofNat 8 x :: bytesOfNat (x / 256) n := by
      simp [bytesOfNat, List.range_succ_eq_map, Nat.pow_succ', Nat.div_div_eq_div_mul, Function.comp_def]
    rw [hb, natOfBytes, List.foldr_cons, ← natOfBytes, ih, BitVec.toNat_ofNat]
    exact ((congrArg (x % ·) Nat.pow_succ').trans Nat.mod_mul).symm

/-- A collection of results that all succeed. -/
theorem foldr_ok {α β ε : Type} {step : α → Except ε (List β) → Except ε (List β)} {g : α → β} {ls : List α}
    (h : ∀ x ∈ ls, ∀ ys, step x (.ok ys) = .ok (g x :: ys)) : ls.foldr step (.ok []) = .ok (ls.map g) := by
  induction ls with
  | nil => rfl
  | cons x ls ih =>
    rw [List.foldr_cons, ih fun y hy => h y (List.mem_cons_of_mem x hy), h x List.mem_cons_self]
    rfl

/-- The lanes of a wave. -/
theorem mem_lanes {l : Nat} : l ∈ lanes ↔ l < 32 := List.mem_range

/-- A table after entries are written one after the other. -/
theorem sget_foldl_sset {β : Type} [DecidableEq β] (d : β) (ls : List Nat) (f : Nat → β) (m : Sparse β) (j : Nat) :
    sget d (ls.foldl (fun m l => sset d m l (f l)) m) j = if j ∈ ls then f j else sget d m j := by
  induction ls generalizing m with
  | nil => simp
  | cons l ls ih =>
    rw [List.foldl_cons, ih, sget_sset]
    by_cases h1 : j ∈ ls <;> by_cases h2 : j = l <;> simp [h1, h2]

/-- The words of a lane's save area. -/
def areaWords (a : BitVec 128) : List Nat := (List.range 4).map (fun j => (a.extractLsb' (32 * j) 32).toNat)

/-- A word of a save area, among those of all lanes. -/
theorem getD_areaWords (a : Nat → BitVec 128) {l j : Nat} (hl : l < 32) (hj : j < 4) :
    (((lanes.map (fun l => areaWords (a l))).getD l []).getD j 0) = ((a l).extractLsb' (32 * j) 32).toNat := by
  simp only [lanes, areaWords, List.getD_eq_getElem?_getD, List.getElem?_map, List.getElem?_range hl, List.getElem?_range hj,
    Option.map_some, Option.getD_some]

/-- The lanes that have exited by their save areas. -/
def exitedBy (a : Nat → BitVec 128) : Mask := maskOf (lanes.filter (fun l => (a l).getLsbD 31))

/-- The wave that has left its handler, by its save areas. -/
def leftHandler (c : Ctx) (a : Nat → BitVec 128) : Wave :=
  { c.wave with
    pcs := lanes.foldl (fun m l => sset 0#32 m l (((a l).extractLsb' 0 31).setWidth 32)) []
    exited := exitedBy a
    inHandler := false
    held := none
    lastMarked := true
    exempt := true
    windowLen := 0
    prefilled := false
    segs := c.wg.segs
    codeSeg := none
    divert := some 0 }

/-- The bits that the first two words of a save area hold. -/
theorem testBit_areaWords (a : Nat → BitVec 128) {l j n : Nat} (hl : l < 32) (hj : j < 4) (hn : n < 32) :
    (((lanes.map (fun l => areaWords (a l))).getD l []).getD j 0).testBit n = (a l).getLsbD (32 * j + n) := by
  rw [getD_areaWords a hl hj, BitVec.testBit_toNat, BitVec.getLsbD_extractLsb', decide_eq_true hn, Bool.true_and]

/-- The PC that a save area holds. -/
theorem wd_areaWords (a : Nat → BitVec 128) {l : Nat} (hl : l < 32) :
    wd ((((lanes.map (fun l => areaWords (a l))).getD l []).getD 0 0) % 2 ^ 31) = ((a l).extractLsb' 0 31).setWidth 32 := by
  rw [getD_areaWords a hl (by decide)]
  apply BitVec.eq_of_toNat_eq
  simp only [wd, BitVec.toNat_ofNat, BitVec.toNat_setWidth, BitVec.extractLsb'_toNat, Nat.shiftRight_zero]
  omega

/-- The wave is out of its handler, with the exit bits of the save areas; the handler registers keep their values. -/
theorem leftHandler_keeps (c : Ctx) (a : Nat → BitVec 128) :
    (leftHandler c a).inHandler = false ∧ (leftHandler c a).exited = exitedBy a ∧
      (leftHandler c a).xpc = c.wave.xpc ∧ (leftHandler c a).xmask = c.wave.xmask ∧ (leftHandler c a).fmask = c.wave.fmask ∧
      (leftHandler c a).xcode = c.wave.xcode ∧ (leftHandler c a).xinfo = c.wave.xinfo := by
  simp only [leftHandler, and_self]

/-- A lane stands where its save area says. -/
theorem leftHandler_pcOf (c : Ctx) (a : Nat → BitVec 128) {l : Nat} (hl : l < 32) :
    (leftHandler c a).pcOf l = ((a l).extractLsb' 0 31).setWidth 32 := by
  simp only [leftHandler, Wave.pcOf]
  exact (sget_foldl_sset 0#32 lanes _ [] l).trans (if_pos (mem_lanes.2 hl))

/-- A lane exits by its save area. -/
theorem getLsbD_exitedBy (a : Nat → BitVec 128) {l : Nat} (hl : l < 32) : (exitedBy a).getLsbD l = (a l).getLsbD 31 := by
  rw [exitedBy, getLsbD_maskOf _ _ hl, Bool.eq_iff_iff, decide_eq_true_iff, List.mem_filter]
  exact and_iff_right (mem_lanes.2 hl)

/-- The lanes that have exited, read from the words of the save areas. -/
theorem maskOf_areaWords (a : Nat → BitVec 128) :
    maskOf (lanes.filter (fun l => (((lanes.map (fun l => areaWords (a l))).getD l []).getD 0 0).testBit 31)) = exitedBy a :=
  congrArg maskOf (List.filter_congr fun _ hl => testBit_areaWords a (mem_lanes.1 hl) (by decide) (by decide))

section
variable {s : State} {c : Ctx} {a : Nat → BitVec 128}

/-- Return from the handler where every lane's save area reads and some lane has not exited: no lane is held again where no area names
one. -/
theorem trapReturn_of_read (hread : ∀ l j, l < 32 → j < 4 →
      s.recordRead c.core c.wg.vf c.wg.part (privAddr c.wave.record c.wg.vregs (4 * j) l) 4 =
      .ok (bytesOfNat ((a l).extractLsb' (32 * j) 32).toNat 4)) (hlive : exitedBy a ≠ 0xFFFFFFFF#32) :
    ∃ (t : State) (v : Wave), s.trapReturn c = t.setWave c.id (some v) ∧ { v with held := none } = leftHandler c a ∧
      ((∀ l, l < 32 → (a l).getLsbD 31 = false → (a l).getLsbD 32 = false) → v.held = none) := by
  have hback : ∀ l j, natOfBytes (bytesOfNat ((a l).extractLsb' (32 * j) 32).toNat 4) = ((a l).extractLsb' (32 * j) 32).toNat :=
    fun l j => (natOfBytes_bytesOfNat _ 4).trans (Nat.mod_eq_of_lt (BitVec.isLt _))
  unfold State.trapReturn
  dsimp only
  rw [foldr_ok (g := fun l => areaWords (a l)) (fun l hl ys => by
    rw [foldr_ok (g := fun j => ((a l).extractLsb' (32 * j) 32).toNat) (fun j hj ys => by
      simp only [hread l j (mem_lanes.1 hl) (List.mem_range.1 hj), hback l j])]
    rfl)]
  dsimp only
  rw [maskOf_areaWords,
    List.foldl_ext _ _ _ fun m l hl => congrArg (sset 0#32 m l) (wd_areaWords a (mem_lanes.1 hl)), if_neg hlive]
  split
  · exact ⟨_, _, rfl, by dsimp only [leftHandler], fun _ => rfl⟩
  · next l tl hheld =>
    have hl : l ∈ l :: tl := List.mem_cons_self
    rw [← hheld, List.mem_filter] at hl
    have hsome : ¬ ∀ l, l < 32 → (a l).getLsbD 31 = false → (a l).getLsbD 32 = false := fun hno => by
      have hlt := mem_lanes.1 hl.1
      have hb := Bool.and_eq_true_iff.1 hl.2
      rw [testBit_areaWords a hlt (by decide) (by decide), getLsbD_exitedBy a hlt] at hb
      have := hno l hlt (by simpa using hb.2)
      exact Bool.false_ne_true (this.symm.trans hb.1)
    split
    · split
      all_goals exact ⟨_, _, rfl, by dsimp only [leftHandler], fun hno => absurd hno hsome⟩
    · exact ⟨_, _, rfl, by dsimp only [leftHandler], fun _ => rfl⟩

end

/-- What leaving the handler restores. -/
theorem handlerLeft_holds : Claims.handlerLeft := by
  intro s c a hread hlive
  obtain ⟨n, hn, hlive⟩ := hlive
  have hsome : exitedBy a ≠ 0xFFFFFFFF#32 := fun h => by
    have hb := getLsbD_exitedBy a hn
    rw [h, hlive, show (0xFFFFFFFF#32 : Mask) = BitVec.allOnes 32 from rfl, BitVec.getLsbD_allOnes, decide_eq_true hn] at hb
    exact Bool.false_ne_true hb.symm
  obtain ⟨t, v, heq, hv, hheld⟩ := trapReturn_of_read hread hsome
  have field : ∀ {α : Type} (f : Wave → α), f { v with held := none } = f (leftHandler c a) := fun f => congrArg f hv
  obtain ⟨hin, hexited, hxpc, hxmask, hfmask, hxcode, hxinfo⟩ := leftHandler_keeps c a
  refine ⟨v, by rw [heq, wave_setWave_same], (field (·.inHandler)).trans hin, fun l hl => ⟨?_, ?_⟩, hheld, (field (·.xpc)).trans hxpc,
    (field (·.xmask)).trans hxmask, (field (·.fmask)).trans hfmask, (field (·.xcode)).trans hxcode, (field (·.xinfo)).trans hxinfo⟩
  · exact (field (·.pcOf l)).trans (leftHandler_pcOf c a hl)
  · exact (congrArg (·.getLsbD l) ((field (·.exited)).trans hexited)).trans (getLsbD_exitedBy a hl)

/-- Settles O18: the words by their bodies, the return by what every save area reads as. -/
theorem trapWords : Obligations.TrapWords := ⟨trapWordsIssue_holds, handlerLeft_holds⟩

/-! ### Entering the handler -/

/-- Setting a wave changes no byte at its home. -/
@[simp] theorem homeByte_setWave (s : State) (id : WaveId) (v : Option Wave) (pa : Nat) :
    (s.setWave id v).homeByte pa = s.homeByte pa := rfl

/-- A wave as a fault finds it: out of its waits, the lanes of the mask at the faulting word unless the fault is taken after it. -/
def atFault (w : Wave) (f : FaultInfo) : Wave :=
  let w := { w.dropWaits with faultPending := none, conds := [], parked := none }
  if f.after then w else w.pcSets (lanesOf f.xmask) (fun _ => f.pc)

/-- What such a wave keeps. -/
theorem atFault_keeps (w : Wave) (f : FaultInfo) :
    (atFault w f).inHandler = w.inHandler ∧ (atFault w f).xcode = w.xcode ∧ (atFault w f).v = w.v ∧ (atFault w f).s = w.s ∧
      (atFault w f).k = w.k ∧ (atFault w f).fflags = w.fflags := by
  obtain ⟨p, hp⟩ := pcSets_eq { w.dropWaits with faultPending := none, conds := [], parked := none } (lanesOf f.xmask) (fun _ => f.pc)
  simp only [atFault, hp]
  cases f.after <;> exact ⟨rfl, rfl, rfl, rfl, rfl, rfl⟩

/-- Delivery of a fault at a wave that is no responder's: in a handler, or with none installed, it kills; else it enters the handler. -/
theorem deliver_eq {s : State} {id : WaveId} {w : Wave} {g : Workgroup} (f : FaultInfo) (hw : s.wave id = some w) (hr : w.resp = none)
    (hg : s.wg id.core w.wg = some g) :
    s.deliver id f = if w.inHandler then s.kill id 1 0x18 w.xcode.toNat 0 f
      else if sget 0xFFFFFFFF#32 s.trapbase g.ctx = 0xFFFFFFFF#32 then s.kill id 0 f.code 0 f.detail f
      else s.enterHandler id (atFault w f) g (sget 0xFFFFFFFF#32 s.trapbase g.ctx) f := by
  obtain ⟨hin, hcode, -⟩ := atFault_keeps w f
  rw [← hin, ← hcode]
  simp only [State.deliver, hw, hr, hg, Option.isSome_none, Bool.false_eq_true, if_false]
  rfl

/-- The wave that has entered its handler at `base` (R239). -/
def entered (w : Wave) (g : Workgroup) (base : Word) (f : FaultInfo) : Wave :=
  { w with
    xpc := f.pc
    xmask := f.xmask
    fmask := f.fmask
    xcode := wd f.code
    xinfo := f.xinfo
    held := none
    inHandler := true
    faultPending := none
    pcs := (List.range 32).foldl (fun m l => sset 0#32 m l base) []
    exited := 0#32
    lastMarked := true
    exempt := false
    windowLen := 0
    prefilled := false
    atMarker := false
    walk := none
    parked := none
    stopped := w.stopPending
    stopPending := false
    codeSeg := none
    segs := g.segs }

section
variable (w : Wave) (g : Workgroup) (base : Word) (f : FaultInfo)

/-- What the handler finds in its registers and state. -/
theorem entered_fault : (entered w g base f).xpc = f.pc ∧ (entered w g base f).xmask = f.xmask ∧ (entered w g base f).fmask = f.fmask ∧
    (entered w g base f).xcode = BitVec.ofNat 32 f.code ∧ (entered w g base f).xinfo = f.xinfo ∧ (entered w g base f).held = none ∧
    (entered w g base f).inHandler = true ∧ (entered w g base f).exited = 0#32 := by
  simp only [entered, wd, and_self]

/-- What it finds as the program left it. -/
theorem entered_keeps : (entered w g base f).v = w.v ∧ (entered w g base f).s = w.s ∧ (entered w g base f).k = w.k ∧
    (entered w g base f).fflags = w.fflags := by
  simp only [entered, and_self]

/-- Every lane stands at the handler's first word. -/
theorem entered_pcOf {l : Nat} (hl : l < 32) : (entered w g base f).pcOf l = base := by
  simp only [entered, Wave.pcOf]
  exact (sget_foldl_sset 0#32 _ (fun _ => base) [] l).trans (if_pos (List.mem_range.2 hl))

/-- Entry to the handler where every save area is written. -/
theorem enterHandler_ok {s t : State} {id : WaveId} (h : s.writeSaveAreas id w g f = .ok t) :
    s.enterHandler id w g base f = t.setWave id (some (entered w g base f)) := by
  delta State.enterHandler
  rw [h]
  dsimp only [entered]

end

/-- A wave whose fault enters the handler. -/
theorem handlerEntered_holds : Claims.handlerEntered := by
  intro s t id f w g hw hr hg hin hbase hsave
  have hout : ¬ w.inHandler = true := hin ▸ Bool.false_ne_true
  have hsave : s.writeSaveAreas id (atFault w f) g f = .ok t := hsave
  have hentry := (deliver_eq f hw hr hg).trans (((if_neg hout).trans (if_neg hbase)).trans
    (enterHandler_ok (atFault w f) g (sget 0xFFFFFFFF#32 s.trapbase g.ctx) f hsave))
  obtain ⟨-, -, hv, hs, hk, hflags⟩ := atFault_keeps w f
  obtain ⟨hv', hs', hk', hflags'⟩ := entered_keeps (atFault w f) g (sget 0xFFFFFFFF#32 s.trapbase g.ctx) f
  obtain ⟨hxpc, hxmask, hfmask, hxcode, hxinfo, hheld, hhandler, hexited⟩ :=
    entered_fault (atFault w f) g (sget 0xFFFFFFFF#32 s.trapbase g.ctx) f
  rw [hentry]
  exact ⟨_, wave_setWave_same .., hxpc, hxmask, hfmask, hxcode, hxinfo, hheld, hhandler, hexited, fun l hl => entered_pcOf _ _ _ _ hl,
    hv'.trans hv, hs'.trans hs, hk'.trans hk, hflags'.trans hflags, fun _ => homeByte_setWave ..⟩

/-! ### The save area -/

/-- What a save area holds of a held set: its PC and what is left of its deadline. -/
def heldWord (s : State) (part : Nat) (w : Wave) : Nat :=
  match w.held with
  | some h => (min (2 ^ 32 - 1) (h.deadline - s.pclk part)) * 2 ^ 32 + h.pc.toNat
  | none => 0

/-- A held set takes 64 bits. -/
theorem heldWord_lt (s : State) (part : Nat) (w : Wave) : heldWord s part w < 2 ^ 64 := by
  unfold heldWord
  split
  · next h _ =>
    have := h.pc.isLt
    omega
  · decide

/-- A bit at its place in a number. -/
theorem ite_two_pow (b : Bool) (n : Nat) : (if b then 2 ^ n else 0) = b.toNat * 2 ^ n := by
  cases b <;> simp

/-- A save area as a number, by its fields. -/
theorem toNat_saveArea (s : State) (part : Nat) (w : Wave) (f : FaultInfo) (l : Nat) :
    (saveArea s part w f l).toNat = heldWord s part w * 2 ^ 64 + (f.fmask.getLsbD l).toNat * 2 ^ 34 + (f.xmask.getLsbD l).toNat * 2 ^ 33 +
      (w.heldMask.getLsbD l).toNat * 2 ^ 32 + (w.exited.getLsbD l).toNat * 2 ^ 31 + (w.pcOf l).toNat % 2 ^ 31 := by
  have h1 := Bool.toNat_lt (f.fmask.getLsbD l)
  have h2 := Bool.toNat_lt (f.xmask.getLsbD l)
  have h3 := Bool.toNat_lt (w.heldMask.getLsbD l)
  have h4 := Bool.toNat_lt (w.exited.getLsbD l)
  simp only [saveArea, heldWord, ite_two_pow, BitVec.toNat_ofNat]
  cases w.held with
  | none =>
    dsimp only
    omega
  | some h =>
    have hpc := h.pc.isLt
    dsimp only
    omega

/-- The bits of a lane's save area. -/
theorem trapSaveArea_holds : Claims.trapSaveArea := by
  intro s part w f l x
  have hx : x.toNat = _ := toNat_saveArea s part w f l
  have hlt := heldWord_lt s part w
  have h1 := Bool.toNat_lt (f.fmask.getLsbD l)
  have h2 := Bool.toNat_lt (f.xmask.getLsbD l)
  have h3 := Bool.toNat_lt (w.heldMask.getLsbD l)
  have h4 := Bool.toNat_lt (w.exited.getLsbD l)
  have hbit : ∀ (n : Nat) (b : Bool), x.toNat / 2 ^ n % 2 = b.toNat → x.getLsbD n = b := fun n b h => by
    rw [← BitVec.testBit_toNat, Nat.testBit_eq_decide_div_mod_eq, h]
    cases b <;> rfl
  refine ⟨?_, hbit 31 _ ?_, hbit 32 _ ?_, hbit 33 _ ?_, hbit 34 _ ?_, ?_, fun hn => ?_, fun h hs => ?_⟩
  · simp only [bitsN]; omega
  · omega
  · omega
  · omega
  · omega
  · simp only [bitsN]; omega
  · have : heldWord s part w = 0 := by rw [heldWord, hn]
    simp only [bitsN]; omega
  · have : heldWord s part w = (min (2 ^ 32 - 1) (h.deadline - s.pclk part)) * 2 ^ 32 + h.pc.toNat := by rw [heldWord, hs]
    have := h.pc.isLt
    simp only [bitsN]; omega

/-! ### Faults that kill -/

/-- Containment of a workgroup that is no ensemble and not contained yet. -/
theorem wg_contain {s : State} {core i : Nat} {g : Workgroup} (r : FaultRecord) (hg : s.wg core i = some g) (hens : g.ensSize ≤ 1)
    (hnot : g.contained = none) : (s.contain core i r).wg core i = some { g with contained := some r.bits } := by
  have hone : s.ensemble core i = [(core, i)] := by simp only [State.ensemble, hg, if_pos hens]
  rw [State.contain, hone, List.foldl_cons, List.foldl_nil]
  simp only [State.updWg, hg, wg_setWg, and_self, if_true, hnot, Option.isSome_none, Bool.false_eq_true, if_false]

/-- The code, kind and first code of a record. -/
theorem bitsN_record (r : FaultRecord) :
    bitsN r.bits 511 504 = r.code % 256 ∧ bitsN r.bits 503 500 = r.kind % 16 ∧ bitsN r.bits 496 489 = r.first % 256 := by
  simp only [bitsN, FaultRecord.bits, BitVec.toNat_ofNat]
  refine ⟨?_, ?_, ?_⟩ <;> omega

/-- A fault that kills its wave contains the workgroup with a record of its kind and codes. -/
theorem kill_contains {s : State} {id : WaveId} {w : Wave} {g : Workgroup} (kind code first detail : Nat) (f : FaultInfo)
    (hw : s.wave id = some w) (hg : s.wg id.core w.wg = some g) (hens : g.ensSize ≤ 1) (hnot : g.contained = none) :
    ∃ h r, (s.kill id kind code first detail f).wg id.core w.wg = some h ∧ h.contained = some r ∧ bitsN r 511 504 = code % 256 ∧
      bitsN r 503 500 = kind % 16 ∧ bitsN r 496 489 = first % 256 := by
  simp only [State.kill, hw, hg]
  obtain ⟨h1, h2, h3⟩ := bitsN_record _
  exact ⟨_, _, wg_contain _ ((wg_updWave ..).trans hg) hens hnot, rfl, h1, h2, h3⟩

/-- A fault without a handler, or in the handler. -/
theorem faultsThatKill_holds : Claims.faultsThatKill := by
  intro s id f w g hw hr hg hens hnot hcase
  rw [deliver_eq f hw hr hg]
  cases hin : w.inHandler with
  | true => exact kill_contains 1 0x18 w.xcode.toNat 0 f hw hg hens hnot
  | false =>
    have hbase := hcase.resolve_left (by rw [hin]; exact Bool.false_ne_true)
    rw [if_neg Bool.false_ne_true, if_pos hbase]
    exact kill_contains 0 f.code 0 f.detail f hw hg hens hnot

/-- Settles O19: entry, save areas and kills by the cases of delivery. -/
theorem handlerEntry : Obligations.HandlerEntry := ⟨handlerEntered_holds, trapSaveArea_holds, faultsThatKill_holds⟩

end Sys2Proof.Laws
end

section
/-!
PROOF. One step: what it runs, which wave is next, and what a fetch finds; and the state that reset leaves.
-/

namespace Sys2Proof.Laws
open Sys2Proof.Machine Sys2Proof.Claims

/-! ### The next wave -/

/-- The ordinary wave a scheduler selects is one of those offered. -/
theorem pickOrdinary_mem {s : State} {core sched : Nat} {ws : List (WaveId × Wave)} {id : WaveId}
    (h : s.pickOrdinary core sched ws = some id) : ∃ w, (id, w) ∈ ws := by
  have least : ∀ (l : List (WaveId × Wave)), (∀ e ∈ l, e ∈ ws) → (leastBy (fun w => w.lastIssue) l).map (·.1) = some id →
      ∃ w, (id, w) ∈ ws := fun l hl h => by
    obtain ⟨e, he, rfl⟩ := Option.map_eq_some_iff.1 h
    exact ⟨e.2, hl e (leastBy_mem he)⟩
  unfold State.pickOrdinary at h
  dsimp only at h
  split at h
  · next e he =>
    split at h
    · cases h
      exact ⟨e.2, List.mem_of_find?_eq_some he⟩
    · exact least _ (fun e he => (List.mem_filter.1 he).1) h
  · exact least _ (fun e he => he) h

/-- The wave a scheduler selects is one of that scheduler's. -/
theorem pick_place {s : State} {core sched : Nat} {id : WaveId} (h : s.pick core sched = some id) :
    id.core = core ∧ id.sched = sched := by
  have place : ∀ w, (id, w) ∈ ((s.core core).waveList core).filter (fun e => decide (e.1.sched = sched) && s.ready e.1 e.2) →
      id.core = core ∧ id.sched = sched := fun w hm => by
    obtain ⟨hlist, hsel⟩ := List.mem_filter.1 hm
    obtain ⟨p, -, hp⟩ := List.mem_filterMap.1 hlist
    obtain ⟨v, -, hv⟩ := Option.map_eq_some_iff.1 hp
    have hid := congrArg Prod.fst hv
    exact ⟨(congrArg WaveId.core hid).symm, of_decide_eq_true (Bool.and_eq_true_iff.1 hsel).1⟩
  have ord : ∀ (p : WaveId × Wave → Bool), s.pickOrdinary core sched ((((s.core core).waveList core).filter
      (fun e => decide (e.1.sched = sched) && s.ready e.1 e.2)).filter p) = some id → id.core = core ∧ id.sched = sched := fun p h => by
    obtain ⟨w, hw⟩ := pickOrdinary_mem h
    exact place w (List.mem_filter.1 hw).1
  unfold State.pick at h
  dsimp only at h
  split at h
  · next r hr =>
    split at h
    · exact ord _ h
    · cases h
      exact place r.2 (List.mem_of_find?_eq_some hr)
  · exact ord _ h

/-- The next wave is one of a scheduler that has not had its turn. -/
theorem nextWave_not_issued {s : State} {id : WaveId} (h : s.nextWave = some id) : 4 * id.core + id.sched ∉ s.issued := by
  have turn : ∀ x ∈ s.schedOrder, s.pick (x / 4) (x % 4) = some id → 4 * id.core + id.sched ∉ s.issued := fun x hx hp => by
    obtain ⟨hc, hs⟩ := pick_place hp
    have hx' : x ∉ s.issued := by simpa using (List.mem_filter.1 hx).2
    rw [hc, hs, Nat.div_add_mod]
    exact hx'
  unfold State.nextWave at h
  split at h
  · next i hi =>
    cases h
    obtain ⟨x, hx, hp⟩ := List.exists_of_findSome?_eq_some hi
    refine turn x hx ?_
    split at hp
    · next j hj =>
      split at hp
      · cases hp
      · cases hp
        exact hj
    · cases hp
  · obtain ⟨x, hx, hp⟩ := List.exists_of_findSome?_eq_some h
    exact turn x hx hp

/-! ### The fetch -/

/-- The bytes of a word are those of its number. -/
theorem bytesOfWord_eq (x : Dword) : bytesOfWord x = bytesOfNat x.toNat 8 := by
  refine List.map_congr_left fun i _ => BitVec.eq_of_toNat_eq ?_
  simp only [fld, BitVec.toNat_ofNat, Nat.pow_mul]

/-- A word whose home holds its bytes. -/
theorem homeNat_of_bytes {s : State} {pa : Nat} {x : Dword} (h : s.homeBytes pa 8 = bytesOfWord x) : BitVec.ofNat 64 (s.homeNat pa 8) = x := by
  rw [State.homeNat, h, bytesOfWord_eq, natOfBytes_bytesOfNat, Nat.mod_eq_of_lt (show x.toNat < 256 ^ 8 from x.isLt), BitVec.ofNat_toNat, BitVec.setWidth_eq]

/-- The fetch of a wave that translates. -/
theorem fetchHead_ok {s u : State} {id : WaveId} {w : Wave} {g : Workgroup} {pc : Word} {active : Mask} {va pa : Nat} {leaf : Dword}
    (hw : s.wave id = some w) (hrun : w.headRun = some (pc, active)) (hg : s.wg id.core w.wg = some g) (hcode : w.codeSeg = none)
    (hseg : segCheck (sget 0#128 w.segs 15) (8 * pc.toNat) 8 8 .fetch = .ok va)
    (ht : s.translate id.core g.vf g.part false true va .fetch = (.ok pa leaf, u)) :
    s.fetchHead id =
      let v := u.touch id.core g.vf va false
      let a := v.canon pa / 8
      match sget none (v.core id.core).decoded a, sget none (v.core id.core).icache a with
      | some w, _ => (.ok w, v)
      | none, some w => (.ok w, v.updCore id.core (fun c => c.keepCode a w))
      | none, none =>
        if v.poisoned pa then (.error ⟨0x10, 2, va⟩, v)
        else (.ok (BitVec.ofNat 64 (v.homeNat pa 8)), v.updCore id.core (fun c => c.keepCode a (BitVec.ofNat 64 (v.homeNat pa 8)))) := by
  simp only [State.fetchHead, hw, hrun, hg, State.fetchWord, State.fetchAt, hcode, optD, hseg, ht] <;> rfl

/-- Settles O58: the cases of a step, the schedulers' turns, and the caches that a fetch looks through. -/
theorem stepRunsDecoded : Obligations.StepRunsDecoded := by
  refine ⟨fun s i rest h => ?_, fun s id ha hn => ?_, fun s ha hn => ?_, fun s id h => nextWave_not_issued h,
    fun s u id w g pc active va pa leaf x hw hrun hg hcode hseg ht => ?_⟩
  · rw [step, h]
  · have hstep : step s = issueNext s id := by rw [step, ha, hn]
    refine ⟨fun hp => ?_, fun x u i hp hf hd => ?_, fun x u a b hp hf hd => ?_, fun r u hp hf => ?_⟩
    · exact hstep.trans (if_pos hp)
    all_goals simp only [hstep, issueNext, hp, hf, Bool.false_eq_true, if_false]
    all_goals rw [hd]
  · rw [step, ha, hn]
  · rw [fetchHead_ok hw hrun hg hcode hseg ht]
    refine ⟨fun y hd => ?_, fun y hd hc => ?_, fun hd hc hp => ?_, fun hd hc hp hb => ?_⟩
    · simp only [hd]
    · simp only [hd, hc]
    · simp only [hd, hc, hp, if_true]
    · simp only [hd, hc, hp, Bool.false_eq_true, if_false, homeNat_of_bytes hb]

/-! ### Reset -/

/-- Settles O60: every field of the state that reset leaves. -/
theorem resetValues : Obligations.ResetValues := by
  unfold Obligations.ResetValues
  refine ⟨rfl, fun pa h => ?_, fun _ => rfl, fun _ => ⟨rfl, rfl, rfl, rfl, rfl, rfl, rfl⟩, fun _ => ⟨rfl, rfl, rfl, rfl, rfl⟩, fun _ => rfl,
    fun _ _ => rfl, rfl, rfl, rfl, fun _ _ => rfl⟩
  rw [State.homeByte, if_pos h]
  rfl

end Sys2Proof.Laws
end

section
/-!
PROOF. The checks of addresses, the skewed tile, and what memory reads after it is written.
-/

namespace Sys2Proof.Laws
open Sys2Proof.Machine Sys2Proof.Claims

/-! ### Checks -/

/-- The checks of a global address, in their order. -/
theorem segCheck_cases (g : BitVec 128) (off : Int) (size align : Nat) (k : AccKind) :
    let past := g.getLsbD 127 = false ∨ off < 0 ∨ (bitsN g 119 60 : Int) < off + size
    let va := bitsN g 59 0 + off.toNat
    (past → segCheck g off size align k = .error ⟨0x0A, 0, (((bitsN g 59 0 : Int) + off) % (2 ^ 64 : Nat)).toNat⟩) ∧
    (¬ past → segPermits g k = false → segCheck g off size align k = .error ⟨0x0E, 5, va⟩) ∧
    (¬ past → segPermits g k = true → va % align ≠ 0 → segCheck g off size align k = .error ⟨0x0C, 0, va⟩) ∧
    (¬ past → segPermits g k = true → va % align = 0 → segCheck g off size align k = .ok va) := by
  have hyes : ∀ b : Bool, b = true → ¬ b = false := fun b h h' => Bool.false_ne_true (h'.symm.trans h)
  refine ⟨fun h => if_pos h, fun h hp => (if_neg h).trans (if_pos hp), fun h hp ha => ?_, fun h hp ha => ?_⟩
  · exact (if_neg h).trans ((if_neg (hyes _ hp)).trans (if_pos ha))
  · exact (if_neg h).trans ((if_neg (hyes _ hp)).trans (if_neg (not_not.2 ha)))

/-- The fault of a lane that fails. -/
def failure {α : Type} (x : Nat × Except Raise α) : Option (Nat × Raise) :=
  match x.2 with
  | .error r => some (x.1, r)
  | .ok _ => none

/-- Which lanes fail, and how. -/
theorem mem_failures {α : Type} {rs : List (Nat × Except Raise α)} {j : Nat} {q : Raise} :
    (j, q) ∈ rs.filterMap failure ↔ (j, .error q) ∈ rs := by
  rw [List.mem_filterMap]
  constructor
  · rintro ⟨⟨i, x⟩, hm, hx⟩
    cases x with
    | ok v => cases hx
    | error r =>
      cases hx
      exact hm
  · exact fun hm => ⟨_, hm, rfl⟩

/-- Lanes that all have a value have no failure. -/
theorem failures_of_ok (good : List (Nat × Nat)) :
    (good.map (fun x => ((x.1, .ok x.2) : Nat × Except Raise Nat))).filterMap failure = [] := by
  induction good with
  | nil => rfl
  | cons x good ih => exact ih

/-- The first failing lane decides the fault, and every failing lane stands in its mask. -/
theorem allLanes_of_failures {α : Type} {c : Ctx} {rs : List (Nat × Except Raise α)} {l : Nat} {r : Raise} {bad : List (Nat × Raise)}
    (h : rs.filterMap failure = (l, r) :: bad) :
    c.allLanes false rs = .error (r, maskOf (((l, r) :: bad).map (fun x => x.1))) := by
  unfold Ctx.allLanes
  dsimp only
  split
  · next l' r' bad' hbad =>
    rw [hbad]
    cases h.symm.trans hbad
    rfl
  · next hbad => cases h.symm.trans hbad

/-- Lanes that all have a value. -/
theorem allLanes_ok (c : Ctx) (good : List (Nat × Nat)) : c.allLanes false (good.map (fun x => (x.1, .ok x.2))) = .ok good := by
  simp [Ctx.allLanes, List.filterMap_map]

/-- The fault of lanes of which some fail, after some that do not. -/
theorem allLanes_error (c : Ctx) (good : List (Nat × Nat)) (l : Nat) (r : Raise) (rest : List (Nat × Except Raise Nat)) :
    ∃ m : Mask, c.allLanes false (good.map (fun x => (x.1, .ok x.2)) ++ (l, .error r) :: rest) = .error (r, m) ∧
      ∀ j, j < 32 → (m.getLsbD j = true ↔ j = l ∨ ∃ q, (j, .error q) ∈ rest) := by
  have hbad : (good.map (fun x => ((x.1, .ok x.2) : Nat × Except Raise Nat)) ++ (l, .error r) :: rest).filterMap failure =
      (l, r) :: rest.filterMap failure := by
    rw [List.filterMap_append, failures_of_ok]
    rfl
  refine ⟨_, allLanes_of_failures hbad, fun j hj => ?_⟩
  rw [getLsbD_maskOf _ _ hj, decide_eq_true_iff, List.map_cons, List.mem_cons, List.mem_map]
  refine or_congr_right ⟨?_, fun ⟨q, hq⟩ => ⟨(j, q), mem_failures.2 hq, rfl⟩⟩
  rintro ⟨⟨i, q⟩, hm, rfl⟩
  exact ⟨q, mem_failures.1 hm⟩

/-! ### The skewed tile -/

/-- The places of a skewed tile. -/
theorem skewWord_injective {base rows o p : Nat} (hb : base % 4 = 0) (ho : base ≤ o) (ho' : o < base + 128 * rows) (hp : base ≤ p) :
    base ≤ 4 * skewWord base o + o % 4 ∧ 4 * skewWord base o + o % 4 < base + 128 * rows ∧
      (4 * skewWord base o + o % 4 = 4 * skewWord base p + p % 4 → o = p) := by
  unfold skewWord
  dsimp only
  refine ⟨by omega, by omega, fun h => by omega⟩

/-- The bank of a word of a column is its row's turn further. -/
theorem skewWord_bank (base row : Nat) {col : Nat} (hc : col < 32) :
    skewWord base (base + 128 * row + 4 * col) % 32 = (base / 4 + col + row) % 32 := by
  unfold skewWord
  dsimp only
  omega

/-- A column of 32 rows meets 32 banks. -/
theorem banks_nodup (a : Nat) : ((List.range 32).map (fun row => (a + row) % 32)).Nodup :=
  List.Nodup.map_on (fun x hx y hy h => by
    have := List.mem_range.1 hx
    have := List.mem_range.1 hy
    omega) List.nodup_range

/-- Settles O53: the checks by their order, the tile by arithmetic on rows and columns. -/
theorem addressChecks : Obligations.AddressChecks := by
  refine ⟨fun g off size align k => ?_, fun usable code o size => ⟨fun h => if_pos h, fun h ha => ?_, fun h ha => ?_⟩,
    fun c good l r rest => ⟨allLanes_ok c good, allLanes_error c good l r rest⟩,
    fun base rows o p hb ho ho' hp _ => skewWord_injective hb ho ho' hp, fun base col hc => ⟨fun row => skewWord_bank base row hc, ?_⟩⟩
  · cases k <;> exact segCheck_cases g off size align _
  · exact (if_neg (by omega)).trans (if_pos ha)
  · exact (if_neg (by omega)).trans (if_neg (not_not.2 ha))
  · rw [funext fun row => skewWord_bank base row hc]
    exact banks_nodup _

end Sys2Proof.Laws
end

section
/-!
SUPPORT. What a line that leaves an L1 changes: the memory hierarchy, and nothing of any wave, workgroup or local space.
-/

namespace Sys2Proof.Laws
open Sys2Proof.Machine Sys2Proof.Claims

/-- `t` is `s` but for what registrations change: memory, the shared cache, held writes, owners, ports and messages, duets, and of every
core its L1 and its pending reads. -/
structure HomeOnly (s t : State) : Prop where
  rest : { t with
    cores := s.cores, mem := s.mem, ext := s.ext, poison := s.poison, l2 := s.l2, ports := s.ports, owners := s.owners
    heldNum := s.heldNum, heldWrites := s.heldWrites, fabric := s.fabric, parts := s.parts } = s
  own : ∀ n, ∃ l m r u, t.core n = { s.core n with l1 := l, misses := m, lines := r, uses := u }
  duet : ∀ n, ∃ d, t.part n = { s.part n with duet := d }

namespace HomeOnly

/-- Nothing changed. -/
theorem refl (s : State) : HomeOnly s s := ⟨rfl, fun _ => ⟨_, _, _, _, rfl⟩, fun _ => ⟨_, rfl⟩⟩

/-- One after another. -/
theorem trans {s t u : State} (h : HomeOnly s t) (k : HomeOnly t u) : HomeOnly s u := by
  refine ⟨?_, fun n => ?_, fun n => ?_⟩
  · have e : ({ u with
        cores := s.cores, mem := s.mem, ext := s.ext, poison := s.poison, l2 := s.l2, ports := s.ports, owners := s.owners
        heldNum := s.heldNum, heldWrites := s.heldWrites, fabric := s.fabric, parts := s.parts } : State) = { ({ u with
        cores := t.cores, mem := t.mem, ext := t.ext, poison := t.poison, l2 := t.l2, ports := t.ports, owners := t.owners
        heldNum := t.heldNum, heldWrites := t.heldWrites, fabric := t.fabric, parts := t.parts } : State) with
        cores := s.cores, mem := s.mem, ext := s.ext, poison := s.poison, l2 := s.l2, ports := s.ports, owners := s.owners
        heldNum := s.heldNum, heldWrites := s.heldWrites, fabric := s.fabric, parts := s.parts } := rfl
    rw [e, k.rest]
    exact h.rest
  · obtain ⟨l, m, r, u', h1⟩ := h.own n
    obtain ⟨l', m', r', v', k1⟩ := k.own n
    exact ⟨l', m', r', v', by rw [k1, h1]⟩
  · obtain ⟨d, h1⟩ := h.duet n
    obtain ⟨d', k1⟩ := k.duet n
    exact ⟨d', by rw [k1, h1]⟩

/-- A change of a core's L1. -/
theorem upd (s : State) (core : Nat) (f : Core → Core) (hf : ∀ k, ∃ l m r u, f k = { k with l1 := l, misses := m, lines := r, uses := u }) :
    HomeOnly s (s.updCore core f) := by
  refine ⟨rfl, fun n => ?_, fun _ => ⟨_, rfl⟩⟩
  rw [core_updCore]
  split
  · next h => subst h; exact hf _
  · exact ⟨_, _, _, _, rfl⟩

/-- A change of the memory hierarchy outside the cores and partitions. -/
theorem of_eq {s t : State} (h : { t with
    mem := s.mem, ext := s.ext, poison := s.poison, l2 := s.l2, ports := s.ports, owners := s.owners
    heldNum := s.heldNum, heldWrites := s.heldWrites, fabric := s.fabric } = s) : HomeOnly s t := by
  have hc : t.cores = s.cores := by rw [← h]
  have hp : t.parts = s.parts := by rw [← h]
  refine ⟨?_, fun n => ?_, fun n => ?_⟩
  · rw [← hc, ← hp]
    rw [← h]
  · rw [show t.core n = s.core n by unfold State.core; rw [hc]]
    exact ⟨_, _, _, _, rfl⟩
  · rw [show t.part n = s.part n by unfold State.part; rw [hp]]
    exact ⟨_, rfl⟩

/-- A fold of such changes. -/
theorem foldl {α : Type} (l : List α) (f : State → α → State) (hf : ∀ u x, HomeOnly u (f u x)) (s : State) : HomeOnly s (l.foldl f s) := by
  induction l generalizing s with
  | nil => exact .refl s
  | cons x l ih => exact (hf s x).trans (ih _)

section
variable {s t : State} (h : HomeOnly s t)
include h

/-- Waves read as before. -/
theorem wave (j : WaveId) : t.wave j = s.wave j := by
  obtain ⟨_, _, _, _, h1⟩ := h.own j.core
  unfold State.wave
  rw [h1]

/-- So do workgroups. -/
theorem wg (n i : Nat) : t.wg n i = s.wg n i := by
  obtain ⟨_, _, _, _, h1⟩ := h.own n
  unfold State.wg
  rw [h1]

/-- And the local spaces. -/
theorem space (n : Nat) (x : Space) : (t.core n).space x = (s.core n).space x := by
  obtain ⟨_, _, _, _, h1⟩ := h.own n
  rw [h1]
  cases x <;> rfl

/-- The package is the same, and so every address has its form. -/
theorem package : t.package = s.package := (congrArg State.package h.rest :)

/-- The clock is the same. -/
theorem clk : t.clk = s.clk := (congrArg State.clk h.rest :)

/-- Addresses are local as before. -/
theorem isLocal (pa : Nat) : t.isLocal pa = s.isLocal pa := by simp only [State.isLocal, h.package]

/-- Addresses keep their form. -/
theorem canon (pa : Nat) : t.canon pa = s.canon pa := by simp only [State.canon, h.isLocal]

end

/-- A use of a home line. -/
theorem homeUse (s : State) (vf pa : Nat) (dirty last : Bool) : HomeOnly s (s.homeUse vf pa dirty last) := by
  unfold State.homeUse State.l2Use
  split
  · exact .refl s
  · split
    · exact .refl s
    · exact .of_eq rfl

/-- A byte written at its home. -/
theorem setHome (s : State) (pa : Nat) (b : Byte) : HomeOnly s (s.setHome pa b) := by
  unfold State.setHome
  split <;> exact .of_eq rfl

/-- A flit. -/
theorem sendFlit (s : State) : HomeOnly s s.sendFlit := by
  unfold State.sendFlit
  split
  · exact .refl s
  · exact .of_eq rfl

/-- A message between sectors. -/
theorem ringSend (s : State) (sector part die stop pa : Nat) (payload : List Byte) : HomeOnly s (s.ringSend sector part die stop pa payload) :=
  .of_eq rfl

/-- A line's message. -/
theorem sendLine (s : State) (sector pa : Nat) (payload : List Byte) : HomeOnly s (s.sendLine sector pa payload) := by
  unfold State.sendLine
  split
  · exact .refl s
  · split
    · split
      · split
        · exact .refl s
        · exact ringSend ..
      · exact .refl s
    · dsimp only
      split
      · exact (ringSend ..).trans (sendFlit _)
      · exact ringSend ..

/-- A change of a guest copy. -/
theorem updGuest (s : State) (sector pa : Nat) (f : GuestSector → GuestSector) : HomeOnly s (s.updGuest sector pa f) := by
  unfold State.updGuest
  split
  · exact .of_eq rfl
  · exact .refl s

/-- A word taken from its owner. -/
theorem takeWord (s : State) (party : Party) (bytes : List (Nat × Byte)) (w : Nat) : HomeOnly s (s.takeWord party bytes w) := by
  unfold State.takeWord
  dsimp only
  refine trans (t := match sget none s.owners w with
    | some c => if party = Party.core c then s else s.updCore c (fun k => (k.dropClean w).patchMisses bytes)
    | none => s) ?_ (.of_eq rfl)
  split
  · split
    · exact .refl s
    · exact .upd s _ _ (fun _ => ⟨_, _, _, _, rfl⟩)
  · exact .refl s

/-- A registration. -/
theorem commit (s : State) (party : Party) (bytes : List (Nat × Byte)) : HomeOnly s (s.commit party bytes) := by
  unfold State.commit
  dsimp only
  refine trans ?_ (.foldl _ _ (fun u w => takeWord u _ _ w) _)
  have h1 := foldl bytes (fun (s : State) b => s.setHome b.1 b.2) (fun u b => setHome u b.1 b.2) s
  generalize bytes.foldl (fun (s : State) b => s.setHome b.1 b.2) s = u at h1 ⊢
  generalize List.foldl _ u.poison _ = p
  have h2 := h1.trans (trans (t := { u with poison := p }) (.of_eq rfl)
    (.foldl (dedup (bytes.map (fun b => b.1 / 64))) (fun (s : State) x => s.homeUse 97 (64 * x) true false) (fun u x => homeUse u _ _ _ _) _))
  split
  · split
    · exact h2.trans (sendFlit _)
    · exact h2
  · exact h2.trans ((upd _ _ _ (fun _ => ⟨_, _, _, _, rfl⟩)).trans
      (.foldl _ _ (fun u x => (sendLine u _ _ _).trans (updGuest _ _ _ _)) _))

/-- A duet changed. -/
theorem updDuet (s : State) (n : Nat) (f : Part → Part) (hf : ∀ p, ∃ d, f p = { p with duet := d }) : HomeOnly s (s.updPart n f) := by
  refine ⟨rfl, fun _ => ⟨_, _, _, _, rfl⟩, fun m => ?_⟩
  rw [part_updPart]
  split
  · next h => subst h; exact hf _
  · exact ⟨_, rfl⟩

/-- A registration of a context. -/
theorem commitFor (s : State) (party : Party) (ctx : Nat) (bytes : List (Nat × Byte)) : HomeOnly s (s.commitFor party ctx bytes) := by
  unfold State.commitFor
  dsimp only
  have h1 := foldl (dedup (bytes.map (fun b => b.1 / 64)))
    (fun (s : State) x => s.homeUse (if ctx = 0 then 97 else ctxVf ctx) (64 * x) true false) (fun u x => homeUse u _ _ _ _) s
  split
  · exact h1.trans (commit ..)
  · exact h1.trans ((updDuet _ _ _ (fun _ => ⟨_, rfl⟩)).trans (commit ..))

/-- A registration that may wait. -/
theorem register (s : State) (party : Party) (ctx : Nat) (bytes : List (Nat × Byte)) : HomeOnly s (s.register party ctx bytes) := by
  unfold State.register
  split
  · exact .refl s
  · split
    · exact .of_eq rfl
    · exact commitFor ..

/-- A word that leaves an L1. -/
theorem leaveL1 (s : State) (core word : Nat) : HomeOnly s (s.leaveL1 core word) := by
  unfold State.leaveL1
  dsimp only
  split
  · exact .refl s
  · split
    · exact (upd _ _ _ (fun _ => ⟨_, _, _, _, rfl⟩)).trans (.foldl _ _ (fun u (b : Nat × Byte) => setHome u b.1 b.2) _)
    · exact ((upd _ _ _ (fun _ => ⟨_, _, _, _, rfl⟩)).trans (.foldl _ _ (fun u x => updGuest u _ _ _) _)).trans (register ..)

/-- Clean words dropped one after the other change an L1 only. -/
theorem dropCleans_eq (ws : List Nat) (c : Core) : ∃ l, ws.foldl (fun (c : Core) w => c.dropClean w) c = { c with l1 := l } := by
  induction ws generalizing c with
  | nil => exact ⟨_, rfl⟩
  | cons w ws ih =>
    obtain ⟨l, h⟩ := dropClean_eq c w
    obtain ⟨l', h'⟩ := ih (c.dropClean w)
    exact ⟨l', by rw [List.foldl_cons, h', h]⟩

/-- A line that leaves an L1. -/
theorem evictLine (s : State) (core line : Nat) : HomeOnly s (s.evictLine core line) := by
  unfold State.evictLine
  refine (foldl _ (fun (s : State) w => s.leaveL1 core w) (fun u w => leaveL1 u core w) s).trans (upd _ _ _ (fun k => ?_))
  dsimp only
  obtain ⟨l, h⟩ := dropCleans_eq (((s.core core).l1.filter (fun e => decide (e.1 / 128 = line))).map (·.1)) k
  exact ⟨l, _, _, _, by rw [h]⟩

/-- A line used. -/
theorem useLine (s : State) (core line : Nat) (strm : Bool) : HomeOnly s (s.useLine core line strm) := by
  unfold State.useLine
  dsimp only
  split
  · split
    · exact .refl s
    · exact upd _ _ _ (fun _ => ⟨_, _, _, _, rfl⟩)
  · split
    · exact (evictLine ..).trans (upd _ _ _ (fun _ => ⟨_, _, _, _, rfl⟩))
    · exact upd _ _ _ (fun _ => ⟨_, _, _, _, rfl⟩)

/-- A byte stored into an L1. -/
theorem storeByte (s : State) (core ctx priv pa : Nat) (b : Byte) : HomeOnly s (s.storeByte core ctx priv pa b) :=
  (useLine ..).trans (upd _ _ _ (fun _ => ⟨_, _, _, _, rfl⟩))

end HomeOnly

end Sys2Proof.Laws
end

section
/-!
PROOF. Memory values: reading what was written, at the written place only.
-/

namespace Sys2Proof.Laws
open Sys2Proof.Machine Sys2Proof.Claims

/-! ### Bytes at their home -/

/-- Addresses of one package's memory have different forms. -/
theorem canon_add_ne (s : State) {pa i : Nat} (hi : 0 < i) (hp : pa % 2 ^ 44 + i < 2 ^ 44) : s.canon (pa + i) ≠ s.canon pa := by
  have hpkg : paPkg (pa + i) = paPkg pa := by
    unfold paPkg
    omega
  have hl : s.isLocal (pa + i) = s.isLocal pa := by simp only [State.isLocal, hpkg]
  unfold State.canon
  rw [hl]
  split <;> omega

/-- Bytes written above an address leave the byte at it. -/
theorem homeByte_setHomeBytes_below (s : State) (pa : Nat) (bs : List Byte) {k : Nat} (hk : 0 < k) (hp : pa % 2 ^ 44 + k + bs.length ≤ 2 ^ 44) :
    (s.setHomeBytes (pa + k) bs).homeByte pa = s.homeByte pa := by
  induction bs generalizing s k with
  | nil => rfl
  | cons b bs ih =>
    rw [List.length_cons] at hp
    rw [State.setHomeBytes, Nat.add_assoc, ih _ (by omega) (by omega), homeByte_setHome, if_neg (Ne.symm (canon_add_ne s hk (by omega)))]

/-- Bytes written at their home read back. -/
theorem homeBytes_setHomeBytes (s : State) (pa : Nat) (bs : List Byte) (hp : pa % 2 ^ 44 + bs.length ≤ 2 ^ 44) :
    (s.setHomeBytes pa bs).homeBytes pa bs.length = bs := by
  induction bs generalizing s pa with
  | nil => rfl
  | cons b bs ih =>
    rw [List.length_cons] at hp
    have hrest : ((s.setHome pa b).setHomeBytes (pa + 1) bs).homeBytes (pa + 1) bs.length = bs := by
      cases bs with
      | nil => rfl
      | cons b' bs' =>
        rw [List.length_cons] at hp
        exact ih _ _ (by rw [List.length_cons]; omega)
    have hfirst : ((s.setHome pa b).setHomeBytes (pa + 1) bs).homeByte pa = b := by
      rw [homeByte_setHomeBytes_below _ _ _ Nat.one_pos (by omega), homeByte_setHome, if_pos rfl]
    rw [State.setHomeBytes, List.length_cons, State.homeBytes, List.range_succ_eq_map, List.map_cons, List.map_map]
    refine congrArg₂ List.cons hfirst (Eq.trans (List.map_congr_left fun i _ => ?_) hrest)
    exact congrArg (State.homeByte _) (show pa + (i + 1) = pa + 1 + i by omega)

/-! ### Bytes of a local space -/

/-- A table after consecutive entries are written. -/
theorem sget_ssetList {β : Type} [DecidableEq β] (d : β) (m : Sparse β) (a b : Nat) (vs : List β) :
    sget d (ssetList d m a vs) b = if a ≤ b ∧ b < a + vs.length then vs.getD (b - a) d else sget d m b := by
  induction vs generalizing m a with
  | nil =>
    rw [if_neg (by simp only [List.length_nil]; omega)]
    rfl
  | cons v vs ih =>
    rw [ssetList, ih, List.length_cons]
    obtain h | rfl | h := Nat.lt_trichotomy b a
    · rw [if_neg (by omega), if_neg (by omega), sget_sset_other _ _ _ (by omega)]
    · rw [if_neg (by omega), if_pos (by omega), sget_sset_same, Nat.sub_self, List.getD_cons_zero]
    · obtain ⟨n, rfl⟩ : ∃ n, b = a + 1 + n := ⟨b - (a + 1), by omega⟩
      rw [show a + 1 + n - a = n + 1 by omega, List.getD_cons_succ, Nat.add_sub_cancel_left, sget_sset_other _ _ _ (by omega)]
      exact if_congr (by omega) rfl rfl

/-- A byte of a local space after some are written. -/
theorem sget_setSpaceBytes (k : Core) (x y : Space) (a b : Nat) (bs : List Byte) : sget 0#8 ((k.setSpaceBytes x a bs).space y) b =
    if y = x ∧ a ≤ b ∧ b < a + bs.length then bs.getD (b - a) 0#8 else sget 0#8 (k.space y) b := by
  have hsame : ((k.setSpaceBytes x a bs).space y) = if y = x then ssetList 0#8 (k.space x) a bs else k.space y := by
    cases x <;> cases y <;> rfl
  rw [hsame]
  by_cases h : y = x
  · rw [if_pos h, sget_ssetList, h]
    exact if_congr (by simp only [true_and]) rfl rfl
  · rw [if_neg h, if_neg (fun hx => h hx.1)]

/-! ### Bytes of an L1 -/

/-- A byte put into a word, read from it. -/
theorem extract_setBits_byte (d : Word) (b : Byte) {i j : Nat} (hi : i < 4) (hj : j < 4) :
    (setBits d (8 * i + 7) (8 * i) b.toNat).extractLsb' (8 * j) 8 = if j = i then b else d.extractLsb' (8 * j) 8 := by
  have hd := d.isLt
  have hb := b.isLt
  apply BitVec.eq_of_toNat_eq
  rw [apply_ite BitVec.toNat]
  simp only [setBits, bitsN, BitVec.extractLsb'_toNat, BitVec.toNat_ofNat, Nat.shiftRight_eq_div_pow]
  obtain rfl | rfl | rfl | rfl : i = 0 ∨ i = 1 ∨ i = 2 ∨ i = 3 := by omega
  all_goals
    obtain rfl | rfl | rfl | rfl : j = 0 ∨ j = 1 ∨ j = 2 ∨ j = 3 := by omega
    all_goals
      norm_num
      omega

/-- The core of a store once its byte is in the L1. -/
theorem core_storeByte_same (s : State) (core ctx priv pa : Nat) (b : Byte) :
    let a := s.canon pa
    let c := (s.useLine core (a / 512) false).core core
    let w := sget L1Word.absent c.l1 (a / 4)
    (s.storeByte core ctx priv pa b).core core = { c with l1 := sset L1Word.absent c.l1 (a / 4) { w with
      data := setBits w.data (8 * (a % 4) + 7) (8 * (a % 4)) b.toNat
      present := w.present ||| (1#4 <<< (a % 4))
      dirty := w.dirty ||| (1#4 <<< (a % 4))
      written := if w.dirty = 0#4 then (s.useLine core (a / 512) false).clk else w.written
      ctx := ctx
      priv := priv } } := by
  rw [State.storeByte]
  exact (core_updCore ..).trans ((if_pos rfl).trans (by rw [(HomeOnly.useLine s core _ false).clk]))

/-- A bit of a word's byte mask once one is set. -/
theorem getLsbD_or_shift (m : BitVec 4) {i j : Nat} (hi : i < 4) (hj : j < 4) :
    (m ||| (1#4 <<< i)).getLsbD j = (m.getLsbD j || decide (j = i)) := by
  have hone : ∀ i < 4, ∀ j < 4, (1#4 <<< i).getLsbD j = decide (j = i) := by decide
  rw [BitVec.getLsbD_or, hone i hi j hj]

/-- A byte stored into a core's L1, as the core reads it. -/
theorem readByte_storeByte_same (s : State) (core ctx priv pa part : Nat) {q : Nat} (nl1 : Bool) (m : BitVec 8) (b : Byte)
    (hq : s.canon q = s.canon pa) : (s.storeByte core ctx priv pa b).readByte core part nl1 m q = b := by
  have hlt : s.canon pa % 4 < 4 := Nat.mod_lt _ (by decide)
  have hcore := core_storeByte_same s core ctx priv pa b
  dsimp only at hcore
  rw [State.readByte]
  simp only [(HomeOnly.storeByte s core ctx priv pa b).canon, hq, hcore, sget_sset_same, getLsbD_or_shift _ hlt hlt, decide_true,
    Bool.or_true, Bool.true_or, if_true, extract_setBits_byte _ _ hlt hlt]

/-- A byte stored into a resident line leaves every other byte that any core reads. -/
theorem readByte_storeByte_other (s : State) (core ctx priv pa n part : Nat) {q : Nat} (nl1 : Bool) (m : BitVec 8) (b : Byte)
    (hline : sget none (s.core core).lines (s.canon pa / 512) ≠ none) (hq : ¬ (n = core ∧ s.canon q = s.canon pa)) :
    (s.storeByte core ctx priv pa b).readByte n part nl1 m q = s.readByte n part nl1 m q := by
  obtain ⟨u, hu⟩ := Option.ne_none_iff_exists'.1 hline
  have huse : s.useLine core (s.canon pa / 512) false = s.updCore core (fun c => { c with
      lines := sset none c.lines (s.canon pa / 512) (some (c.uses + 1))
      uses := c.uses + 1 }) := by
    simp only [State.useLine, hu, Bool.false_eq_true, if_false]
  have hslice : (s.storeByte core ctx priv pa b).sliceByte n part m (s.canon q) = s.sliceByte n part m (s.canon q) := by
    rw [State.storeByte, huse]
    rfl
  rw [State.readByte, State.readByte, (HomeOnly.storeByte s core ctx priv pa b).canon, hslice]
  by_cases hn : n = core
  · subst hn
    have hne : s.canon q ≠ s.canon pa := fun h => hq ⟨rfl, h⟩
    have hcore := core_storeByte_same s n ctx priv pa b
    have hsame : (s.useLine n (s.canon pa / 512) false).core n = { s.core n with
        lines := sset none (s.core n).lines (s.canon pa / 512) (some ((s.core n).uses + 1))
        uses := (s.core n).uses + 1 } := by
      rw [huse]
      exact (core_updCore ..).trans (if_pos rfl)
    dsimp only at hcore
    rw [hsame] at hcore
    rw [hcore]
    by_cases hw : s.canon q / 4 = s.canon pa / 4
    · have hi : s.canon q % 4 < 4 := Nat.mod_lt _ (by decide)
      have hj : s.canon pa % 4 < 4 := Nat.mod_lt _ (by decide)
      have hij : ¬ s.canon q % 4 = s.canon pa % 4 := by omega
      simp only [hw, sget_sset_same, getLsbD_or_shift _ hj hi, hij, decide_false, Bool.or_false, extract_setBits_byte _ _ hj hi, if_false]
      rfl
    · simp only [sget_sset_other _ _ _ hw]
      rfl
  · have hcore : (s.storeByte core ctx priv pa b).core n = s.core n := by
      rw [State.storeByte, huse]
      exact (core_updCore ..).trans ((if_neg hn).trans ((core_updCore ..).trans (if_neg hn)))
    rw [hcore]

/-! ### Loaded values and atomics -/

/-- A word from a pattern read as signed. -/
theorem wdI_sInt {n : Nat} (x : BitVec n) : wdI (sInt n x.toNat) = x.signExtend 32 := by
  rw [sInt_toNat]
  rfl

/-- The words a byte or a halfword takes (R164). -/
theorem loadWords_small {n : Nat} (size : Nat) (x : BitVec n) {bs : List Byte} (hs : size < 4) (hn : 8 * size = n)
    (hx : natOfBytes bs = x.toNat) : loadWords size false bs = [x.setWidth 32] ∧ loadWords size true bs = [x.signExtend 32] := by
  constructor
  · rw [loadWords, if_pos hs, hx, if_neg Bool.false_ne_true, wd, BitVec.ofNat_toNat]
  · rw [loadWords, if_pos hs, hx, hn, if_pos rfl, wdI_sInt]

/-- The new value of an integer atomic is its operation on patterns (R272). -/
theorem atomNew_integer (size : Nat) (x y : BitVec (8 * size)) :
    let new := fun (op : Nat) => atomNew op size x.toNat y.toNat
    new 0 = (x + y).toNat ∧ new 1 = (if x.sle y then x else y).toNat ∧ new 2 = (if x.sle y then y else x).toNat ∧
    new 3 = (if x.ule y then x else y).toNat ∧ new 4 = (if x.ule y then y else x).toNat ∧ new 5 = (x &&& y).toNat ∧
    new 6 = (x ||| y).toNat ∧ new 7 = (x ^^^ y).toNat ∧ new 8 = y.toNat := by
  refine ⟨rfl, ?_, ?_, ?_, ?_, rfl, rfl, rfl, rfl⟩
  · simp only [atomNew, sInt_toNat, apply_ite BitVec.toNat, BitVec.sle_iff_toInt_le]
  · simp only [atomNew, sInt_toNat, apply_ite BitVec.toNat, BitVec.sle_iff_toInt_le]
  · simp only [atomNew, apply_ite BitVec.toNat, BitVec.ule_iff_toNat_le]
    exact min_def ..
  · simp only [atomNew, apply_ite BitVec.toNat, BitVec.ule_iff_toNat_le]
    exact max_def ..

/-! ### Places -/

/-- A partition that owns a sector lists it. -/
theorem sectorList_ne_nil {p : Part} (hp : p.sectors ≠ 0#12) : p.sectorList ≠ [] := fun h => by
  refine hp (BitVec.eq_of_getLsbD_eq fun i hi => ?_)
  rw [BitVec.getLsbD_zero]
  have := List.filter_eq_nil_iff.1 h i (List.mem_range.2 hi)
  simpa using this

/-- Places in a list without repeats are told apart by what stands there. -/
theorem eq_of_getD_eq {l : List Nat} (hl : l.Nodup) {i j : Nat} (hi : i < l.length) (hj : j < l.length) (h : l.getD i 0 = l.getD j 0) :
    i = j := by
  rw [List.getD_eq_getElem _ _ hi, List.getD_eq_getElem _ _ hj] at h
  exact (List.Nodup.getElem_inj_iff hl).1 h

/-- Slices of a list of sectors are told apart by their package slice numbers. -/
theorem slice_injective {l : List Nat} (hl : l.Nodup) {g h : Nat} (hg : g < 32 * l.length) (hh : h < 32 * l.length)
    (e : 32 * l.getD (g / 32) 0 + g % 32 = 32 * l.getD (h / 32) 0 + h % 32) : g = h := by
  have hidx := eq_of_getD_eq hl (i := g / 32) (j := h / 32) (by omega) (by omega) (by omega)
  omega

/-- Two lines of one row of slices and one home are one line (R99). -/
theorem line_of_homeSlice {p : Part} {a b : Nat} (hp : p.sectors ≠ 0#12) (hh : p.homeSlice a = p.homeSlice b)
    (hq : p.rel a / 512 / (32 * p.sectorList.length) = p.rel b / 512 / (32 * p.sectorList.length)) : p.rel a / 512 = p.rel b / 512 := by
  have hlen := List.length_pos_of_ne_nil (sectorList_ne_nil hp)
  have hn : 32 * p.sectorList.length ≠ 0 := by omega
  unfold Part.homeSlice at hh
  simp only [if_neg hn, ← hq] at hh
  generalize Nat.xor (p.rel a / 512 / (32 * p.sectorList.length) % 2 ^ 12)
    (p.rel a / 512 / (32 * p.sectorList.length) / 2 ^ 12 % 2 ^ 12) = turn at hh
  have hslot : ∀ x : Nat, x % (32 * p.sectorList.length) < 32 * p.sectorList.length := fun x => Nat.mod_lt _ (by omega)
  have hmod := slice_injective (List.nodup_range.filter _) (hslot _) (hslot _) hh
  have hrem : p.rel a / 512 % (32 * p.sectorList.length) = p.rel b / 512 % (32 * p.sectorList.length) := by
    have := Nat.ModEq.add_right_cancel' turn hmod
    rwa [Nat.ModEq, Nat.mod_mod, Nat.mod_mod] at this
  rw [← Nat.div_add_mod (p.rel a / 512) (32 * p.sectorList.length), hq, hrem, Nat.div_add_mod]

/-- Private bytes of different offsets or lanes have different places (R95). -/
theorem privAddr_injective {record vregs o p l j : Nat} (hl : l < 32) (hj : j < 32)
    (h : privAddr record vregs o l = privAddr record vregs p j) : o = p ∧ l = j := by
  unfold privAddr at h
  omega

/-- Settles O54: each place by its form of address. -/
theorem memoryValues : Obligations.MemoryValues := by
  refine ⟨fun s pa q b => homeByte_setHome s pa q b, fun s pa bs hp => homeBytes_setHomeBytes s pa bs hp,
    fun k x y a b bs => sget_setSpaceBytes k x y a b bs,
    fun s core ctx priv pa n part q nl1 m b => ⟨fun hn hq => ?_, fun hline hq => readByte_storeByte_other s core ctx priv pa n part nl1 m b hline hq⟩,
    fun bs => ⟨fun b hb => ?_, fun b0 b1 hb => ?_, fun size signed hs => if_neg (Nat.not_lt.2 hs)⟩,
    fun size _ x y => atomNew_integer size x y, fun _ _ => ⟨rfl, rfl, rfl⟩, fun p a b hp hh => line_of_homeSlice hp hh,
    fun record vregs o p l j hl hj => privAddr_injective hl hj⟩
  · subst hn
    exact readByte_storeByte_same s n ctx priv pa part nl1 m b hq
  · subst hb
    exact loadWords_small 1 b (by decide) rfl (by simp [natOfBytes])
  · subst hb
    refine loadWords_small 2 (b1 ++ b0) (by decide) rfl ?_
    rw [toNat_append_eq_add]
    simp only [natOfBytes, List.foldr_cons, List.foldr_nil]
    omega

end Sys2Proof.Laws
end

section
/-!
PROOF. Privileged words outside the physical function raise before anything else of the word happens.
-/

namespace Sys2Proof.Laws
open Sys2Proof.Machine Sys2Proof.Claims

/-- Every privileged form is a word that a wave issues. -/
theorem body_of_privileged {i : Instr} (h : i.shape.priv = true) : ∃ body, ∀ s, exec i s = issueWord i s body := by
  cases i with
  | rdsr w => exact ⟨_, fun _ => rfl⟩
  | wrsr w => exact ⟨_, fun _ => rfl⟩
  | segBind w => exact ⟨_, fun _ => rfl⟩
  | halt w => exact ⟨_, fun _ => rfl⟩
  | tlbInvPage w => exact ⟨_, fun _ => rfl⟩
  | tlbInvVf w => exact ⟨_, fun _ => rfl⟩
  | tlbInvPart w => exact ⟨_, fun _ => rfl⟩
  | ctxSv w => exact ⟨_, fun _ => rfl⟩
  | ctxLd w => exact ⟨_, fun _ => rfl⟩
  | fence w =>
    have hnot : (Instr.fence w).shape.priv = false := by
      simp only [Instr.shape, fenceShape]
      split <;> rfl
    rw [hnot] at h
    cases h
  | _ => exact absurd h Bool.false_ne_true

/-- A word that fails a check of R180 raises it for its effective lanes, whatever its body. -/
theorem issueWord_of_decodeChecks {i : Instr} {s : State} {c : Ctx} {r : Raise} {body : Ctx → State → Res}
    (hc : s.ctxFor s.cur (optD (encode i) 0#64) i.shape.pred i.shape.m = some c) (hr : c.wave.resp = none)
    (hd : s.decodeChecks c i.shape (wordNeeds i c.wave) = some r) : issueWord i s body = .next (s.raiseAt c r c.eff) := by
  simp only [issueWord, hc, State.issue, hr, State.issueBody, State.checks, hd]

/-- The word that a context holds is the one it was made for. -/
theorem ctxFor_word {s : State} {id : WaveId} {x : Dword} {p : BitVec 4} {m : Bool} {c : Ctx} (h : s.ctxFor id x p m = some c) :
    c.word = x := by
  unfold State.ctxFor at h
  split at h
  · cases h
  · split at h
    · injection h with h
      subst h
      rfl
    · cases h

/-- Settles O31: the check of privilege comes before the execution, and no earlier one fails. -/
theorem privilegedWordsTrap : Obligations.PrivilegedWordsTrap := by
  intro i s c hp hc hr hill hfeat hneeds hvf
  obtain ⟨body, hexec⟩ := body_of_privileged hp
  rw [hexec s]
  refine issueWord_of_decodeChecks hc hr ?_
  have hpriv : (i.shape.priv && !c.priv) = true := by
    rw [hp, Ctx.priv, decide_eq_false hvf]
    rfl
  simp only [State.decodeChecks, hill, if_neg hneeds, hfeat, if_pos hpriv, ctxFor_word hc]

end Sys2Proof.Laws
end

section
/-!
PROOF. A word of a path that an unfinished `xfence` holds waits with no effect.
-/

namespace Sys2Proof.Laws
open Sys2Proof.Machine Sys2Proof.Claims

/-- The checks name no other wave. -/
theorem checked_cur (i : Instr) (s : State) (c : Ctx) : (checked i s c).cur = s.cur :=
  (congrArg State.cur (checked_frame i s c).rest :)

/-- A word whose body is on a fenced path stalls. -/
theorem stalls_of_onPath {i : Instr} {s : State} {c : Ctx} {p : Nat} {body : Ctx → State → Res}
    (hexec : exec i s = issueWord i s body) (hbody : ∃ rest, body c (checked i s c) = c.onPath p (checked i s c) rest) (hi : Issues i s c)
    (hf : c.wave.fencedTo p = true) : exec i s = .next ((checked i s c).stall s.cur) := by
  obtain ⟨rest, hbody⟩ := hbody
  rw [hexec, ← checked_cur i s c]
  exact issueWord_stay hi (hbody.trans (if_pos hf))

/-- `bind` and `unbind` ask their path first. -/
theorem binding_onPath (c : Ctx) (s : State) (w : MWord) (remove : Bool) : ∃ rest, c.binding s w remove = c.onPath 0 s rest := by
  unfold Ctx.binding Ctx.cellWord
  exact ⟨_, rfl⟩

/-- Settles O22: each word's body asks its path first. -/
theorem fencedWordsWait : Obligations.FencedWordsWait := by
  intro w b i p hmem s c hi hf
  simp only [List.mem_cons, List.not_mem_nil, or_false, Prod.mk.injEq] at hmem
  rcases hmem with ⟨rfl, rfl⟩ | ⟨rfl, rfl⟩ | ⟨rfl, rfl⟩ | ⟨rfl, rfl⟩ | ⟨rfl, rfl⟩ | ⟨rfl, rfl⟩ | ⟨rfl, rfl⟩ | ⟨rfl, rfl⟩ | ⟨rfl, rfl⟩ |
    ⟨rfl, rfl⟩ | ⟨rfl, rfl⟩ | ⟨rfl, rfl⟩ | ⟨rfl, rfl⟩ | ⟨rfl, rfl⟩ | ⟨rfl, rfl⟩ | ⟨rfl, rfl⟩ | ⟨rfl, rfl⟩ | ⟨rfl, rfl⟩ | ⟨rfl, rfl⟩ |
    ⟨rfl, rfl⟩ | ⟨rfl, rfl⟩ | ⟨rfl, rfl⟩ | ⟨rfl, rfl⟩ | ⟨rfl, rfl⟩ | ⟨rfl, rfl⟩ | ⟨rfl, rfl⟩ | ⟨rfl, rfl⟩ | ⟨rfl, rfl⟩ | ⟨rfl, rfl⟩
  pick_goal 23
  · exact stalls_of_onPath rfl (binding_onPath c _ w false) hi hf
  pick_goal 23
  · exact stalls_of_onPath rfl (binding_onPath c _ w true) hi hf
  all_goals exact stalls_of_onPath rfl ⟨_, rfl⟩ hi hf

end Sys2Proof.Laws
end

section
/-!
SUPPORT. What the checks of a word change in memory: at most the A bit of the leaf that maps the word before a window (R103, R180).
-/

namespace Sys2Proof.Laws
open Sys2Proof.Machine Sys2Proof.Claims

/-! ### Memory that stays -/

/-- Memory reads the same. -/
structure SameHome (s t : State) : Prop where
  mem : t.mem = s.mem
  ext : t.ext = s.ext
  package : t.package = s.package

namespace SameHome

/-- Nothing changed. -/
theorem refl (s : State) : SameHome s s := ⟨rfl, rfl, rfl⟩

/-- One after another. -/
theorem trans {s t u : State} (h : SameHome s t) (k : SameHome t u) : SameHome s u :=
  ⟨k.mem.trans h.mem, k.ext.trans h.ext, k.package.trans h.package⟩

/-- A step that keeps memory, after a change of something else. -/
theorem after {s u : State} (t : State) (k : SameHome t u) (h : t.mem = s.mem) (h' : t.ext = s.ext) (h'' : t.package = s.package) :
    SameHome s u := trans ⟨h, h', h''⟩ k

/-- A fold of such changes. -/
theorem foldl {α : Type} (l : List α) (f : State → α → State) (hf : ∀ u x, SameHome u (f u x)) (s : State) : SameHome s (l.foldl f s) := by
  induction l generalizing s with
  | nil => exact .refl s
  | cons x l ih => exact (hf s x).trans (ih _)

/-- Every byte at its home. -/
theorem homeByte {s t : State} (h : SameHome s t) (pa : Nat) : t.homeByte pa = s.homeByte pa := by
  simp only [State.homeByte, State.canon, State.isLocal, h.mem, h.ext, h.package]
  rfl

/-- Addresses keep their form. -/
theorem canon {s t : State} (h : SameHome s t) (pa : Nat) : t.canon pa = s.canon pa := by
  simp only [State.canon, State.isLocal, h.package]
  rfl

/-- A use of a home line. -/
theorem homeUse (s : State) (vf pa : Nat) (dirty last : Bool) : SameHome s (s.homeUse vf pa dirty last) := by
  unfold State.homeUse State.l2Use
  split
  · exact .refl s
  · split
    · exact .refl s
    · exact ⟨rfl, rfl, rfl⟩

/-- A flit. -/
theorem sendFlit (s : State) : SameHome s s.sendFlit := by
  unfold State.sendFlit
  split
  · exact .refl s
  · exact ⟨rfl, rfl, rfl⟩

/-- A line's message. -/
theorem sendLine (s : State) (sector pa : Nat) (payload : List Byte) : SameHome s (s.sendLine sector pa payload) := by
  unfold State.sendLine
  split
  · exact .refl s
  · split
    · split
      · split
        · exact .refl s
        · exact ⟨rfl, rfl, rfl⟩
      · exact .refl s
    · dsimp only
      split
      · exact after _ (sendFlit _) rfl rfl rfl
      · exact ⟨rfl, rfl, rfl⟩

/-- A change of a guest copy. -/
theorem updGuest (s : State) (sector pa : Nat) (f : GuestSector → GuestSector) : SameHome s (s.updGuest sector pa f) := by
  unfold State.updGuest
  split
  · exact ⟨rfl, rfl, rfl⟩
  · exact .refl s

/-- A word taken from its owner. -/
theorem takeWord (s : State) (party : Party) (bytes : List (Nat × Byte)) (w : Nat) : SameHome s (s.takeWord party bytes w) := by
  unfold State.takeWord
  split
  · split <;> exact ⟨rfl, rfl, rfl⟩
  · exact ⟨rfl, rfl, rfl⟩

end SameHome

/-- A registration writes its bytes at their homes, and memory reads the same otherwise. -/
theorem commit_sameHome (s : State) (party : Party) (bytes : List (Nat × Byte)) :
    SameHome (bytes.foldl (fun (s : State) b => s.setHome b.1 b.2) s) (s.commit party bytes) := by
  unfold State.commit
  dsimp only
  refine SameHome.trans ?_ (.foldl _ _ (fun u w => .takeWord u _ _ w) _)
  generalize bytes.foldl (fun (s : State) b => s.setHome b.1 b.2) s = u
  generalize List.foldl _ u.poison _ = p
  have h2 : SameHome u _ := SameHome.trans (t := { u with poison := p }) ⟨rfl, rfl, rfl⟩
    (.foldl (dedup (bytes.map (fun b => b.1 / 64))) (fun (s : State) x => s.homeUse 97 (64 * x) true false) (fun u x => .homeUse u _ _ _ _) _)
  split
  · split
    · exact h2.trans (.sendFlit _)
    · exact h2
  · exact h2.trans (.after _ (.foldl _ _ (fun u x => (SameHome.sendLine u _ _ _).trans (.updGuest _ _ _ _)) _) rfl rfl rfl)

/-- A byte at its home after some are written is as it was, or the last written to its place. -/
theorem homeByte_setHomes (s : State) (bytes : List (Nat × Byte)) (q : Nat) :
    (bytes.foldl (fun (s : State) b => s.setHome b.1 b.2) s).homeByte q = s.homeByte q ∨
      ∃ b ∈ bytes, s.canon b.1 = s.canon q ∧ (bytes.foldl (fun (s : State) b => s.setHome b.1 b.2) s).homeByte q = b.2 := by
  induction bytes generalizing s with
  | nil => exact .inl rfl
  | cons b bytes ih =>
    have hc := (HomeOnly.setHome s b.1 b.2).canon
    rcases ih (s.setHome b.1 b.2) with h | ⟨x, hx, hxq, h⟩
    · rw [List.foldl_cons, h, homeByte_setHome]
      by_cases hq : s.canon q = s.canon b.1
      · exact .inr ⟨b, List.mem_cons_self, hq.symm, if_pos hq⟩
      · exact .inl (if_neg hq)
    · exact .inr ⟨x, List.mem_cons_of_mem b hx, by rw [hc, hc] at hxq; exact hxq, h⟩

/-- A registration changes memory at the places of its bytes only, and there to one of them. -/
theorem homeByte_commit (s : State) (party : Party) (bytes : List (Nat × Byte)) (q : Nat) :
    (s.commit party bytes).homeByte q = s.homeByte q ∨ ∃ b ∈ bytes, s.canon b.1 = s.canon q ∧ (s.commit party bytes).homeByte q = b.2 := by
  rw [(commit_sameHome s party bytes).homeByte]
  exact homeByte_setHomes s bytes q

/-- Addresses of one form hold one byte. -/
theorem homeByte_congr {s : State} {p q : Nat} (h : s.canon p = s.canon q) : s.homeByte p = s.homeByte q := by
  have hl := isLocal_of_canon_eq h
  unfold State.homeByte
  rw [hl, h]
  cases hq : s.isLocal q with
  | true => rfl
  | false =>
    have hp : p = q := by simpa [State.canon, hl, hq] using h
    rw [hp]

/-- Memory reads as it was but at the places of some bytes, and there as one of them. -/
def Written (s t : State) (bytes : List (Nat × Byte)) : Prop :=
  ∀ q, t.homeByte q = s.homeByte q ∨ ∃ b ∈ bytes, s.canon b.1 = s.canon q ∧ t.homeByte q = b.2

/-- Nothing written. -/
theorem SameHome.written {s t : State} (h : SameHome s t) (bytes : List (Nat × Byte)) : Written s t bytes :=
  fun q => .inl (h.homeByte q)

/-- After a change that keeps memory, of some of the bytes. -/
theorem Written.after {s t u : State} {part bytes : List (Nat × Byte)} (h : SameHome s t) (k : Written t u part)
    (hsub : ∀ b ∈ part, b ∈ bytes) : Written s u bytes := fun q => by
  rcases k q with e | ⟨b, hb, hq, e⟩
  · exact .inl (e.trans (h.homeByte q))
  · exact .inr ⟨b, hsub b hb, by rwa [h.canon, h.canon] at hq, e⟩

/-- A registration of a context writes some of its bytes. -/
theorem commitFor_written (s : State) (party : Party) (ctx : Nat) (bytes : List (Nat × Byte)) :
    Written s (s.commitFor party ctx bytes) bytes := by
  unfold State.commitFor
  dsimp only
  have hhome : SameHome s _ := .foldl (dedup (bytes.map (fun b => b.1 / 64)))
    (fun (s : State) x => s.homeUse (if ctx = 0 then 97 else ctxVf ctx) (64 * x) true false) (fun u x => .homeUse u _ _ _ _) s
  split
  · exact .after hhome (homeByte_commit _ party bytes) (fun _ hb => hb)
  · exact .after (hhome.trans (t := List.foldl _ _ _) ⟨rfl, rfl, rfl⟩) (homeByte_commit _ party _) (fun _ hb => (List.mem_filter.1 hb).1)

/-- A registration that may wait writes some of its bytes. -/
theorem register_written (s : State) (party : Party) (ctx : Nat) (bytes : List (Nat × Byte)) :
    Written s (s.register party ctx bytes) bytes := by
  unfold State.register
  split
  · exact (SameHome.refl s).written _
  · split
    · exact SameHome.written ⟨rfl, rfl, rfl⟩ _
    · exact commitFor_written s party ctx bytes

/-! ### The A bit of a leaf -/

/-- The bytes of a list of values, by their places. -/
theorem mem_byteList {pa : Nat} {bs : List Byte} {b : Nat × Byte} (h : b ∈ byteList pa bs) :
    ∃ i, i < bs.length ∧ b = (pa + i, bs.getD i 0#8) := by
  obtain ⟨p, hp, rfl⟩ := List.mem_map.1 h
  obtain ⟨i, hi, he⟩ := List.mem_iff_getElem.1 hp
  rw [List.getElem_zip, List.getElem_range] at he
  rw [List.length_zip, List.length_range, Nat.min_self] at hi
  exact ⟨i, hi, by rw [← he, List.getD_eq_getElem _ _ hi]⟩

/-- Bytes read from their number are those bytes. -/
theorem bytesOfNat_natOfBytes (bs : List Byte) : bytesOfNat (natOfBytes bs) bs.length = bs := by
  induction bs with
  | nil => rfl
  | cons b bs ih =>
    have hb : bytesOfNat (natOfBytes (b :: bs)) (bs.length + 1) =
        BitVec.ofNat 8 (natOfBytes (b :: bs)) :: bytesOfNat (natOfBytes (b :: bs) / 256) bs.length := by
      simp [bytesOfNat, List.range_succ_eq_map, Nat.pow_succ', Nat.div_div_eq_div_mul, Function.comp_def]
    have hlt := b.isLt
    have hnat : natOfBytes (b :: bs) = b.toNat + 256 * natOfBytes bs := rfl
    rw [List.length_cons, hb, hnat]
    refine congrArg₂ List.cons (BitVec.eq_of_toNat_eq ?_) ?_
    · rw [BitVec.toNat_ofNat]
      omega
    · rw [show (b.toNat + 256 * natOfBytes bs) / 256 = natOfBytes bs by omega, ih]

/-- A byte of a word, by its number. -/
theorem byte_of_dword (x : Dword) (i : Nat) : BitVec.ofNat 8 (x.toNat / 256 ^ i) = x.extractLsb' (8 * i) 8 := by
  apply BitVec.eq_of_toNat_eq
  rw [BitVec.extractLsb'_toNat, BitVec.toNat_ofNat, Nat.shiftRight_eq_div_pow, Nat.pow_mul]

/-- A byte of a word that memory holds. -/
theorem byte_of_homeNat (s : State) (a : Nat) {i : Nat} (hi : i < 8) :
    (BitVec.ofNat 64 (s.homeNat a 8)).extractLsb' (8 * i) 8 = s.homeByte (a + i) := by
  have hbytes : bytesOfNat (s.homeNat a 8) 8 = s.homeBytes a 8 := by
    have := bytesOfNat_natOfBytes (s.homeBytes a 8)
    rwa [show (s.homeBytes a 8).length = 8 by simp [State.homeBytes]] at this
  have hlt : s.homeNat a 8 < 2 ^ 64 := by
    have := natOfBytes_bytesOfNat (s.homeNat a 8) 8
    rw [hbytes] at this
    exact (show s.homeNat a 8 = _ from this).trans_lt (Nat.mod_lt _ (by decide))
  have hget := congrArg (fun l => l[i]?) hbytes
  simp only [bytesOfNat, State.homeBytes, List.getElem?_map, List.getElem?_range hi, Option.map_some, Option.some.injEq] at hget
  rw [← hget, ← byte_of_dword, BitVec.toNat_ofNat, Nat.mod_eq_of_lt hlt]

/-- The bytes of a word with its A bit set. -/
theorem byte_or_access (e : Dword) {i : Nat} (hi : i < 8) : BitVec.ofNat 8 ((e ||| 0x40#64).toNat / 256 ^ i) =
    e.extractLsb' (8 * i) 8 ∨ BitVec.ofNat 8 ((e ||| 0x40#64).toNat / 256 ^ i) = e.extractLsb' (8 * i) 8 ||| 0x40#8 := by
  rw [byte_of_dword, BitVec.extractLsb'_or]
  obtain rfl | h : i = 0 ∨ 0 < i := by omega
  · exact .inr rfl
  · left
    have hzero : ∀ i < 8, 0 < i → (0x40#64).extractLsb' (8 * i) 8 = 0#8 := by decide
    rw [hzero i hi h, BitVec.or_zero]

/-- Memory is as it was but for bytes that have gained the A bit. -/
def Accessed (s t : State) : Prop := ∀ pa, t.homeByte pa = s.homeByte pa ∨ t.homeByte pa = s.homeByte pa ||| 0x40#8

/-- Nothing changed. -/
theorem SameHome.accessed {s t : State} (h : SameHome s t) : Accessed s t := fun pa => .inl (h.homeByte pa)

/-- A byte near an aligned address has the form of the address' own form. -/
theorem canon_canon_add (s : State) {a i : Nat} (ha : a % 8 = 0) (hi : i < 8) : s.canon (s.canon a + i) = s.canon (a + i) := by
  have hpkg : paPkg (a + i) = paPkg a := by
    unfold paPkg
    omega
  have hl : s.isLocal (a + i) = s.isLocal a := by simp only [State.isLocal, hpkg]
  cases h : s.isLocal a with
  | false =>
    rw [show s.canon a = a by rw [State.canon, h]; rfl]
  | true =>
    have hc : s.canon a = a % 2 ^ 44 := by rw [State.canon, h]; rfl
    have hzero : paPkg (a % 2 ^ 44 + i) = 0 := by
      unfold paPkg
      omega
    have hl' : s.isLocal (a % 2 ^ 44 + i) = true := by rw [State.isLocal, hzero]; rfl
    rw [hc, State.canon, State.canon, hl', hl, h, if_pos rfl, if_pos rfl]
    omega

/-- An entry of a table of translations whose A bit is set by the device. -/
theorem engineWrite_accessed {s : State} {a : Nat} {e : Dword} (ha : a % 8 = 0) (he : s.readPte a = some e) :
    Accessed s (s.engineWrite 0 a (bytesOfNat (e ||| 0x40#64).toNat 8)) := by
  have hword : e = BitVec.ofNat 64 (s.homeNat a 8) := by
    unfold State.readPte at he
    split at he
    · cases he
    · exact (Option.some.inj he).symm
  intro pa
  rcases register_written s .engine 0 (byteList (s.canon a) (bytesOfNat (e ||| 0x40#64).toNat 8)) pa with h | ⟨b, hb, hq, h⟩
  · exact .inl h
  · obtain ⟨i, hi, rfl⟩ := mem_byteList hb
    have hi : i < 8 := by simpa [bytesOfNat] using hi
    have hold : e.extractLsb' (8 * i) 8 = s.homeByte pa := by
      rw [hword, byte_of_homeNat s a hi]
      exact homeByte_congr (by rwa [canon_canon_add s ha hi] at hq)
    have hnew : (bytesOfNat (e ||| 0x40#64).toNat 8).getD i 0#8 = BitVec.ofNat 8 ((e ||| 0x40#64).toNat / 256 ^ i) := by
      simp only [bytesOfNat, List.getD_eq_getElem?_getD, List.getElem?_map, List.getElem?_range hi, Option.map_some, Option.getD_some]
    have hor := byte_or_access e hi
    rw [← hnew, hold] at hor
    exact hor.imp (fun e => Eq.trans h e) (fun e => Eq.trans h e)

/-- The A bit that a fetch sets in a leaf, in a table at an aligned address. -/
theorem touchLeaf_go_accessed (s : State) (va : Nat) (levels : List Nat) {table : Nat} (ht : table % 8 = 0) :
    Accessed s (State.touchLeaf.go s va false table levels) := by
  induction levels generalizing table with
  | nil => exact (SameHome.refl s).accessed
  | cons level rest ih =>
    unfold State.touchLeaf.go
    dsimp only
    split
    · exact (SameHome.refl s).accessed
    · next e he =>
      split
      · exact (SameHome.refl s).accessed
      · split
        · simp only [Bool.false_eq_true, if_false]
          split
          · exact (SameHome.refl s).accessed
          · exact engineWrite_accessed (by omega) he
        · exact ih (by rw [ptePa]; omega)

/-- The A bit that a fetch sets. -/
theorem touch_accessed (s : State) (core vf va : Nat) (hroot : s.rootOf vf % 8 = 0) : Accessed s (s.touch core vf va false) := by
  unfold State.touch
  split
  · exact (SameHome.refl s).accessed
  · simp only [Bool.false_eq_true, if_false]
    split
    · exact (SameHome.refl s).accessed
    · exact touchLeaf_go_accessed s va _ hroot

/-- A translation keeps memory. -/
theorem translate_sameHome (s : State) (core vf part : Nat) (device walk : Bool) (va : Nat) (k : AccKind) :
    SameHome s (s.translate core vf part device walk va k).2 := by
  unfold State.translate
  dsimp only
  repeat' split
  all_goals exact ⟨rfl, rfl, rfl⟩

/-- A fetch sets at most the A bit of its leaf. -/
theorem fetchAt_accessed (s : State) (core vf part : Nat) (g : BitVec 128) (pc : Word) (hroot : s.rootOf vf % 8 = 0) :
    Accessed s (s.fetchAt core vf part g pc).2 := by
  unfold State.fetchAt
  split
  · exact (SameHome.refl s).accessed
  · next va _ =>
    have h := translate_sameHome s core vf part false true va .fetch
    have hf := (translate_frame s core vf part false true va .fetch).rest
    generalize s.translate core vf part false true va .fetch = x at h hf
    obtain ⟨r, t⟩ := x
    have hroot' : t.rootOf vf % 8 = 0 := by
      have : t.funcs = s.funcs := (congrArg State.funcs hf :)
      simpa only [State.rootOf, State.func, this] using hroot
    have htouch : ∀ pa, (t.touch core vf va false).homeByte pa = s.homeByte pa ∨
        (t.touch core vf va false).homeByte pa = s.homeByte pa ||| 0x40#8 := fun pa => by
      rw [← h.homeByte pa]
      exact touch_accessed t core vf va hroot' pa
    split
    · next ht =>
      cases ht
      dsimp only
      split
      · exact htouch
      · exact htouch
      · split
        · exact htouch
        · exact htouch
    · next ht =>
      cases ht
      exact h.accessed
    · next ht =>
      cases ht
      exact h.accessed

/-- The checks of a word set at most an A bit. -/
theorem checked_accessed (i : Instr) (s : State) (c : Ctx) (hroot : s.rootOf c.wg.vf % 8 = 0) : Accessed s (checked i s c) := by
  have hwin : Accessed s (s.windowCause c i.shape).2 := by
    unfold State.windowCause
    dsimp only
    split
    · exact (SameHome.refl s).accessed
    · split
      · exact (SameHome.refl s).accessed
      · split
        · exact (SameHome.refl s).accessed
        · unfold State.fetchWord
          have h := fetchAt_accessed s c.id.core c.wg.vf c.wg.part (optD c.wave.codeSeg (sget 0#128 c.wave.segs 15)) (c.pc - 1#32) hroot
          split
          · next h1 => rw [h1] at h; exact h
          · next h1 => rw [h1] at h; exact h
  unfold checked State.checks
  split
  · exact (SameHome.refl s).accessed
  · split
    · next h1 => rw [h1] at hwin; exact hwin
    · next h1 =>
      rw [h1] at hwin
      dsimp only at hwin ⊢
      split
      · exact hwin
      · split
        · exact hwin
        · split <;> exact hwin

/-- What the checks of a word change. -/
theorem checksKeep (i : Instr) (s : State) (c : Ctx) : ChecksKeep i s c := by
  have h := checked_frame i s c
  have field : ∀ {α : Type} (f : State → α), f { checked i s c with
      cores := s.cores, mem := s.mem, ext := s.ext, poison := s.poison, l2 := s.l2, ports := s.ports, owners := s.owners
      heldNum := s.heldNum, heldWrites := s.heldWrites } = f s := fun f => congrArg f h.rest
  exact ⟨h.wave, h.wg, h.space, field (·.parts), field (·.funcs), field (·.trapbase), field (·.watches), field (·.clk),
    checked_accessed i s c⟩

end Sys2Proof.Laws
end

section
/-!
PROOF. What register words leave unchanged: each writes its wave's registers, and no other part of anything.
-/

namespace Sys2Proof.Laws
open Sys2Proof.Machine Sys2Proof.Claims

/-! ### Register writes -/

/-- Mask registers where every write names a code of a vector register, a scalar register or no register. -/
theorem kget_regWrites_le (w : Wave) (ws : List RegWrite) (k : Nat) (hn : ∀ x ∈ ws, x.reg ≤ 0x200) : (w.regWrites ws).kget k = w.kget k := by
  unfold Wave.regWrites
  induction ws generalizing w with
  | nil => rfl
  | cons x ws ih =>
    rw [List.foldl_cons, ih _ (fun y hy => hn y (.tail _ hy))]
    have hx := hn x List.mem_cons_self
    unfold Wave.regSet
    split
    · rfl
    · split
      · rfl
      · rw [show x.reg - 0x200 = 0 by omega]
        rfl

/-- Scalar registers where every write names a vector register. -/
theorem s_regWrites (w : Wave) (ws : List RegWrite) (hn : ∀ x ∈ ws, x.reg < 0x100) : (w.regWrites ws).s = w.s := by
  unfold Wave.regWrites
  induction ws generalizing w with
  | nil => rfl
  | cons x ws ih =>
    rw [List.foldl_cons, ih _ (fun y hy => hn y (.tail _ hy)), Wave.regSet, if_pos (hn x List.mem_cons_self)]
    rfl

/-- Vector registers where no write names one. -/
theorem v_regWrites (w : Wave) (ws : List RegWrite) (hn : ∀ x ∈ ws, 0x100 ≤ x.reg) : (w.regWrites ws).v = w.v := by
  unfold Wave.regWrites
  induction ws generalizing w with
  | nil => rfl
  | cons x ws ih =>
    rw [List.foldl_cons, ih _ (fun y hy => hn y (.tail _ hy)), Wave.regSet, if_neg (Nat.not_lt.2 (hn x List.mem_cons_self))]
    split
    · rfl
    · exact kset_v ..

/-- `v` is the wave of `c` but for registers: its `n` from code `d` on, of which a vector register only in effective lanes, the mask
register `k` and the flags. -/
structure RegistersOnly (c : Ctx) (d n : Nat) (k : Option Nat) (v : Wave) : Prop where
  bare : bareOf v = bareOf c.wave
  vec : ∀ r l, l < 32 → (r < d ∨ d + n ≤ r ∨ c.eff.getLsbD l = false) → v.vget r l = c.wave.vget r l
  sca : ∀ r, 0x100 + r < d ∨ d + n ≤ 0x100 + r → v.sreg r = c.wave.sreg r
  mask : ∀ q, some q ≠ k → v.kget q = c.wave.kget q

namespace RegistersOnly

/-- The wave itself. -/
theorem refl (c : Ctx) (d n : Nat) (k : Option Nat) : RegistersOnly c d n k c.wave :=
  ⟨rfl, fun _ _ _ _ => rfl, fun _ _ => rfl, fun _ _ => rfl⟩

/-- Writes of some registers. -/
theorem writes {c : Ctx} {d n : Nat} {ws : List RegWrite} (hd : d + n ≤ 0x201) (hws : ∀ x ∈ ws, d ≤ x.reg ∧ x.reg < d + n ∧ x.lane < 32 ∧
    (d < 0x100 → c.eff.getLsbD x.lane = true)) : RegistersOnly c d n none (c.wave.regWrites ws) := by
  refine ⟨bareOf_regWrites .., fun r l hl hr => ?_, fun r hr => ?_, fun q _ => ?_⟩
  · by_cases hvec : d < 0x100
    · refine vget_regWrites _ _ hl (fun x hx => (hws x hx).2.2.1) fun x hx e => ?_
      obtain ⟨h1, h2, -, h4⟩ := hws x hx
      rcases hr with h | h | h
      · omega
      · omega
      · rw [← e.2, h4 hvec] at h
        cases h
    · rw [Wave.vget, v_regWrites _ _ fun x hx => (Nat.not_lt.1 hvec).trans (hws x hx).1]
      rfl
  · refine sreg_regWrites _ _ fun x hx e => ?_
    obtain ⟨h1, h2, -, -⟩ := hws x hx
    omega
  · refine kget_regWrites_le _ _ _ fun x hx => ?_
    obtain ⟨h1, h2, -, -⟩ := hws x hx
    omega

/-- A mask register written. -/
theorem kset {c : Ctx} {d n k : Nat} {v : Wave} (h : RegistersOnly c d n none v) (x : Mask) : RegistersOnly c d n (some k) (v.kset k x) := by
  refine ⟨Eq.trans ?_ h.bare, fun r l hl hr => Eq.trans ?_ (h.vec r l hl hr), fun r hr => Eq.trans ?_ (h.sca r hr), fun q hq => ?_⟩
  · unfold Wave.kset
    split <;> rfl
  · rw [Wave.vget, kset_v]
    rfl
  · rw [Wave.sreg, kset_s]
    rfl
  · rw [kget_kset, if_neg fun e => hq (congrArg some e.1)]
    exact h.mask q (by simp)

/-- A mask register that may change. -/
theorem weaken {c : Ctx} {d n k : Nat} {v : Wave} (h : RegistersOnly c d n none v) : RegistersOnly c d n (some k) v :=
  ⟨h.bare, h.vec, h.sca, fun q _ => h.mask q (by simp)⟩

/-- Flags added. -/
theorem orFlags {c : Ctx} {d n : Nat} {k : Option Nat} {v : Wave} (h : RegistersOnly c d n k v) (f : Flags) :
    RegistersOnly c d n k (v.orFlags f) := ⟨h.bare, h.vec, h.sca, h.mask⟩

end RegistersOnly

/-! ### Words -/

/-- A word that issues retires having changed its wave only, to one of which `P` holds. -/
def Effects (i : Instr) (s : State) (c : Ctx) (P : Wave → Prop) : Prop := ∃ u w, exec i s = .next (u.retire i.shape c false) ∧
  WavesOnly (checked i s c) u c.id ∧ u.wave c.id = some w ∧ (∀ n j, u.wg n j = (checked i s c).wg n j) ∧ P w

section
variable {i : Instr} {s : State} {c : Ctx} {body : Ctx → State → Res} {P : Wave → Prop}

/-- A word that changes its wave by a function. -/
theorem effects_of_updWave {g : Wave → Wave} (hi : Issues i s c) (hexec : exec i s = issueWord i s body)
    (hb : body c (checked i s c) = .done ((checked i s c).updWave c.id g)) (hP : P (g c.wave)) : Effects i s c P := by
  refine ⟨_, g c.wave, hexec.trans (issueWord_done hi hb), .updWave _ _ _, ?_, wg_updWave _ _ _, hP⟩
  rw [wave_updWave_same, checked_wave hi]
  rfl

/-- A word that changes nothing. -/
theorem effects_of_done (hi : Issues i s c) (hexec : exec i s = issueWord i s body)
    (hb : body c (checked i s c) = .done (checked i s c)) (hP : P c.wave) : Effects i s c P :=
  ⟨_, c.wave, hexec.trans (issueWord_done hi hb), .refl _ _, checked_wave hi, fun _ _ => rfl, hP⟩

end

/-- What a wave's core keeps is all that lies outside its registers. -/
theorem CoreOnly.within {s t : State} {id : WaveId} (h : CoreOnly s t id) : Within s t id := by
  obtain ⟨ws, p, r, a, l, h3⟩ := h.own
  have field : ∀ {α : Type} (f : State → α), f { t with cores := s.cores } = f s := fun f => congrArg f h.rest
  refine ⟨field (·.mem), field (·.ext), field (·.parts), field (·.funcs), field (·.trapbase), field (·.watches), h.other, fun g => ?_,
    fun x => ?_, by rw [h3], h.regs⟩
  · unfold State.wg
    rw [h3]
  · rw [h3]
    cases x <;> rfl

/-- The frame of a word that writes registers only. -/
theorem frame_of_effects {i : Instr} {f : Ctx → Wave → Prop} {P : Ctx → Wave → Prop}
    (h : ∀ s c, Issues i s c → Effects i s c (fun w => bareOf w = bareOf c.wave ∧ P c w))
    (hf : ∀ c v w, P c w → restOf v = restOf w → (∀ k, (∀ h, c.wave.held = some h → k ≠ h.aux) → v.kget k = w.kget k) →
      bareOf w = bareOf c.wave → f c v) : Frame i f := by
  intro s c t hi hd hl ht
  refine ⟨checksKeep i s c, ?_⟩
  obtain ⟨u, w, hexec, hu, hw, hwg, hb, hP⟩ := h s c hi
  obtain ⟨h1, h2, h3⟩ := ctxFor_wave hi.ctx
  have field : ∀ {α : Type} (g : Wave → α), g (bareOf w) = g (bareOf c.wave) := fun g => congrArg g hb
  have hwwg : w.wg = c.wave.wg := field (·.wg)
  have hwheld : w.held = c.wave.held := field (·.held)
  have hlive : ∀ g, u.wg c.id.core w.wg = some g → g.live = [] := fun g hg => by
    rw [hwwg, hwg, (checked_frame i s c).wg, h1, h3] at hg
    cases hg
    exact hl
  obtain ⟨hc, v, hv, hr, hk⟩ := retire_frame u i.shape c false hw ((field (·.deferred)).trans hd) hlive
  cases hexec.symm.trans ht
  exact ⟨v, hv, (hu.core.trans hc).within, hf c v w hP hr (fun k hh => hk k (by rwa [hwheld])) hb⟩

/-- The frame of a word that writes some registers and a mask register. -/
theorem frame_of_registersOnly {i : Instr} {d n : Nat} {k : Option Nat} {F : Flags → Flags → Prop}
    (h : ∀ s c, Issues i s c → Effects i s c (fun w => RegistersOnly c d n k w ∧ F c.wave.fflags w.fflags)) :
    Frame i (fun c v => Keeps c.wave v c.eff d n ∧ KeepsMasks c.wave v k ∧ F c.wave.fflags v.fflags) := by
  refine frame_of_effects (P := fun c w => RegistersOnly c d n k w ∧ F c.wave.fflags w.fflags) (fun s c hi => ?_) ?_
  · obtain ⟨u, w, hexec, hu, hw, hwg, hP⟩ := h s c hi
    exact ⟨u, w, hexec, hu, hw, hwg, hP.1.bare, hP⟩
  · intro c v w hP hr hk hb
    obtain ⟨hreg, hF⟩ := hP
    simp only [restOf, Prod.mk.injEq] at hr
    obtain ⟨hv, hs, hff, hex, -, ⟨hxpc, hxm, hfm, hxc, hxi, hin⟩, -, -, -⟩ := hr
    have field : ∀ {α : Type} (g : Wave → α), g (bareOf w) = g (bareOf c.wave) := fun g => congrArg g hb
    refine ⟨⟨fun r l hl hr => ?_, fun r hr => ?_, hex.trans (field (·.exited)), hxpc.trans (field (·.xpc)), hxm.trans (field (·.xmask)),
      hfm.trans (field (·.fmask)), hxc.trans (field (·.xcode)), hxi.trans (field (·.xinfo)), hin.trans (field (·.inHandler))⟩,
      fun q hq hh => (hk q hh).trans (hreg.mask q hq), by rw [hff]; exact hF⟩
    · rw [Wave.vget, hv]
      exact hreg.vec r l hl hr
    · rw [Wave.sreg, hs]
      exact hreg.sca r hr

/-- Where the results of a word go. -/
theorem results_mem {c : Ctx} {d n : Nat} {f : Nat → List Word} (hf : ∀ l, (f l).length ≤ n) : ∀ x ∈ c.results d f,
    d ≤ x.reg ∧ x.reg < d + n ∧ x.lane < 32 ∧ (d < 0x100 → c.eff.getLsbD x.lane = true) := fun _ hx => mem_results hf hx

/-- The frame of a word that writes the same number of words for each lane. -/
theorem frame_of_results {i : Instr} {d : BitVec 9} {n : Nat} {body : Ctx → State → Res} (f : State → Ctx → Nat → List Word) (hn : n ≤ 2)
    (hf : ∀ s c l, (f s c l).length ≤ n) (hexec : ∀ s, exec i s = issueWord i s body)
    (hb : ∀ s c, body c s = c.put s (c.results d.toNat (f s c)) 0#4) :
    Frame i (fun c v => Keeps c.wave v c.eff d.toNat n ∧ KeepsMasks c.wave v none ∧ v.fflags = c.wave.fflags) := by
  refine frame_of_registersOnly (F := fun x y => y = x) fun s c hi => ?_
  have hd := d.isLt
  refine effects_of_updWave hi (hexec s) (hb _ c) ⟨(RegistersOnly.writes (by omega) (results_mem (hf _ c))).orFlags _, ?_⟩
  rw [orFlags_zero, fflags_regWrites]

/-- The frame of a word that puts one result a lane. -/
theorem frame_of_put32 {i : Instr} {d : BitVec 9} (f : State → Ctx → Nat → Word)
    (hexec : ∀ s, exec i s = issueWord i s (fun c s => c.put32 s d (f s c))) :
    Frame i (fun c v => Keeps c.wave v c.eff d.toNat 1 ∧ KeepsMasks c.wave v none ∧ v.fflags = c.wave.fflags) :=
  frame_of_results (fun s c l => [f s c l]) (by decide) (fun _ _ _ => Nat.le_refl 1) hexec fun _ _ => rfl

/-- The frame of a word that puts one pair a lane. -/
theorem frame_of_put64 {i : Instr} {d : BitVec 9} (f : State → Ctx → Nat → Nat)
    (hexec : ∀ s, exec i s = issueWord i s (fun c s => c.put64 s d (f s c))) :
    Frame i (fun c v => Keeps c.wave v c.eff d.toNat 2 ∧ KeepsMasks c.wave v none ∧ v.fflags = c.wave.fflags) :=
  frame_of_results (fun s c l => words64 (f s c l)) (by decide) (fun _ _ _ => Nat.le_refl 2) hexec fun _ _ => rfl

/-- Flags added keep those that were set. -/
theorem orFlags_keeps {w : Wave} {x : Flags} (h : w.fflags = x) (f : Flags) : (w.orFlags f).fflags &&& x = x := by
  subst h
  rw [Wave.orFlags]
  ext i hi
  simp only [BitVec.getElem_and, BitVec.getElem_or]
  cases w.fflags[i] <;> simp

/-- The words written lie in the `n` registers from code `d` on, a vector register's in effective lanes. -/
def PutsAt (c : Ctx) (d n : Nat) (ws : List RegWrite) : Prop :=
  ∀ x ∈ ws, d ≤ x.reg ∧ x.reg < d + n ∧ x.lane < 32 ∧ (d < 0x100 → c.eff.getLsbD x.lane = true)

/-- The frame of a word that does nothing or puts registers and flags. -/
theorem frame_of_put {i : Instr} {d : BitVec 9} {n : Nat} {body : Ctx → State → Res} (hn : n ≤ 2) (hexec : ∀ s, exec i s = issueWord i s body)
    (hb : ∀ c s, body c s = .done s ∨ ∃ ws fl, body c s = c.put s ws fl ∧ PutsAt c d.toNat n ws) :
    Frame i (fun c v => Keeps c.wave v c.eff d.toNat n ∧ KeepsMasks c.wave v none ∧ v.fflags &&& c.wave.fflags = c.wave.fflags) :=
  frame_of_registersOnly (F := fun x y => y &&& x = x) fun s c hi => by
    have hd := d.isLt
    rcases hb c (checked i s c) with h | ⟨ws, fl, h, hws⟩
    · exact effects_of_done hi (hexec s) h ⟨.refl .., BitVec.and_self⟩
    · exact effects_of_updWave hi (hexec s) h
        ⟨(RegistersOnly.writes (by omega) hws).orFlags _, orFlags_keeps (fflags_regWrites ..) _⟩

/-- What a word whose results carry flags writes (R212). -/
theorem calc_puts (c : Ctx) (s : State) (d : BitVec 9) {n : Nat} {f : Nat → List Word × Flags} (hf : ∀ l, (f l).1.length ≤ n) :
    ∃ ws fl, c.calc s d f = c.put s ws fl ∧ PutsAt c d.toNat n ws := by
  refine ⟨_, _, rfl, fun x hx => ?_⟩
  obtain ⟨r, hr, hx⟩ := List.mem_flatMap.1 hx
  obtain ⟨l, hl, rfl⟩ := List.mem_map.1 hr
  obtain ⟨p, hp, rfl⟩ := List.mem_map.1 hx
  have hp : p.1 < (f l).1.length := List.mem_range.1 (List.of_mem_zip hp).1
  have hlen := hf l
  refine ⟨by dsimp only; omega, by dsimp only; omega, ?_⟩
  by_cases hv : d.toNat < 0x100
  · simp only [Ctx.calcLanes, hv, if_true, Ctx.lanes, mem_lanesOf] at hl ⊢
    exact ⟨hl.1, fun _ => hl.2⟩
  · simp only [hv, if_false]
    exact ⟨by decide, fun h => h.elim⟩

/-- The frame of a word whose results carry flags (R212). -/
theorem frame_of_calc {i : Instr} {d : BitVec 9} {n : Nat} (f : Ctx → Nat → List Word × Flags) (hn : n ≤ 2)
    (hf : ∀ c l, (f c l).1.length ≤ n) (hexec : ∀ s, exec i s = issueWord i s (fun c s => c.calc s d (f c))) :
    Frame i (fun c v => Keeps c.wave v c.eff d.toNat n ∧ KeepsMasks c.wave v none ∧ v.fflags &&& c.wave.fflags = c.wave.fflags) :=
  frame_of_put hn hexec fun c s => .inr (calc_puts c s d (hf c))

/-- The frame of a comparison. -/
theorem frame_of_putMask {i : Instr} {d : BitVec 9} (f : Ctx → Nat → Bool)
    (hexec : ∀ s, exec i s = issueWord i s (fun c s => c.putMask s d (f c))) :
    Frame i (fun c v => Keeps c.wave v c.eff 0 0 ∧ KeepsMasks c.wave v (some d.toNat) ∧ v.fflags = c.wave.fflags) :=
  frame_of_registersOnly (F := fun x y => y = x) fun s c hi =>
    effects_of_updWave hi (hexec s) rfl ⟨(RegistersOnly.refl c 0 0 none).kset _, kset_fflags ..⟩

/-- The frame of a word that writes a whole mask. -/
theorem frame_of_putWhole {i : Instr} {d : BitVec 9} (f : Ctx → Mask)
    (hexec : ∀ s, exec i s = issueWord i s (fun c s => c.putWhole s d (f c))) :
    Frame i (fun c v => Keeps c.wave v c.eff 0 0 ∧ KeepsMasks c.wave v (some d.toNat) ∧ v.fflags = c.wave.fflags) :=
  frame_of_registersOnly (F := fun x y => y = x) fun s c hi => by
    by_cases he : c.eff = 0#32
    · exact effects_of_done hi (hexec s) (by rw [Ctx.putWhole, if_pos he]) ⟨.refl .., rfl⟩
    · exact effects_of_updWave hi (hexec s) (by rw [Ctx.putWhole, if_neg he]) ⟨(RegistersOnly.refl c 0 0 none).kset _, kset_fflags ..⟩

/-- A word that fails a static check does not issue (R180). -/
theorem staticFail_of_issues {i : Instr} {s : State} {c : Ctx} (hi : Issues i s c) : i.shape.staticFail = none := by
  have h := hi.passes
  unfold State.checks at h
  split at h
  · cases h
  · next hd =>
    by_contra hne
    obtain ⟨x, hx⟩ := Option.ne_none_iff_exists'.1 hne
    unfold State.decodeChecks at hd
    simp only [hx] at hd
    repeat' split at hd
    all_goals cases hd

/-- An operand that must be a scalar register and is well formed is one (R168). -/
theorem scalar_of_not_bad {d : BitVec 9} (h : (dst d clsS).bad = none) : 0x100 ≤ d.toNat := by
  by_contra hlt
  have hv : isV d.toNat = true := decide_eq_true (Nat.lt_of_not_le hlt)
  have hb : (dst d clsS).bad = some 2 := by
    have h1 : ¬ 0x1C0 ≤ (dst d clsS).field := fun h => hlt (Nat.le_trans (by decide) h)
    have h2 : isV (dst d clsS).field = true := hv
    simp only [Opn.bad, if_neg h1, h2, if_true]
    rfl
  rw [hb] at h
  cases h

/-- A word that issues has a scalar destination where its shape asks for one. -/
theorem scalar_of_issues {i : Instr} {s : State} {c : Ctx} {d : BitVec 9} {os : List Opn} (hi : Issues i s c)
    (hops : i.shape.ops = dst d clsS :: os) : 0x100 ≤ d.toNat := by
  have h := staticFail_of_issues hi
  unfold Shape.staticFail at h
  refine scalar_of_not_bad (Option.eq_none_iff_forall_ne_some.2 fun x hx => ?_)
  have hfirst : firstBad i.shape.ops = some x := by rw [hops, firstBad, hx]
  simp only [hfirst] at h
  repeat' split at h
  all_goals cases h

/-- The frame of a word that writes one scalar register. -/
theorem frame_of_putScalar {i : Instr} {d : BitVec 9} {os : List Opn} (f : Ctx → Word) (hops : i.shape.ops = dst d clsS :: os)
    (hexec : ∀ s, exec i s = issueWord i s (fun c s => c.putScalar s d [f c])) :
    Frame i (fun c v => Keeps c.wave v c.eff d.toNat 1 ∧ KeepsMasks c.wave v none ∧ v.fflags = c.wave.fflags) :=
  frame_of_registersOnly (F := fun x y => y = x) fun s c hi => by
    have hd := d.isLt
    have hs := scalar_of_issues hi hops
    by_cases he : c.eff = 0#32
    · exact effects_of_done hi (hexec s) (by rw [putScalar_eq_done, if_pos he]) ⟨.refl .., rfl⟩
    · refine effects_of_updWave hi (hexec s) (by rw [putScalar_eq_done, if_neg he]) ⟨?_, ?_⟩
      · exact RegistersOnly.writes (ws := [⟨d.toNat, 0, f c⟩]) (by omega) fun x hx => by
          rw [List.mem_singleton.1 hx]
          exact ⟨Nat.le_refl _, Nat.lt_succ_self _, Nat.zero_lt_succ 31, fun h => absurd h (Nat.not_lt.2 hs)⟩
      · exact fflags_regWrites c.wave [⟨d.toNat, 0, f c⟩]

/-- The frame of `lane.wr`: an effective lane of its register. -/
theorem frame_laneWr (w : RWord) :
    Frame (.laneWr w) (fun c v => Keeps c.wave v c.eff w.d.toNat 1 ∧ KeepsMasks c.wave v none ∧ v.fflags = c.wave.fflags) :=
  frame_of_registersOnly (F := fun x y => y = x) fun s c hi => by
    by_cases he : c.eff.getLsbD ((c.uni w.b).toNat % 32) = true
    · refine effects_of_updWave hi rfl (congrArg Res.done (if_pos he)) ⟨⟨rfl, fun r l hl hr => ?_, fun _ _ => rfl, fun _ _ => rfl⟩, rfl⟩
      rw [vget_vset _ _ _ _ _ _ (Nat.mod_lt _ (by decide)) hl, if_neg]
      rintro ⟨rfl, rfl⟩
      rcases hr with h | h | h
      · exact Nat.lt_irrefl _ h
      · omega
      · exact Bool.false_ne_true (h.symm.trans he)
    · exact effects_of_done hi rfl (congrArg Res.done (if_neg he)) ⟨.refl .., rfl⟩

/-- A sum or difference with the carry of the mask in C under `.ci` (R190). -/
def carried (c : Ctx) (w : RWord) (sub : Bool) (l : Nat) : Word :=
  let b := if (w.flags.getLsbD 1 && (c.wave.kget w.c.toNat).getLsbD l) = true then 1#32 else 0#32
  if sub then c.opnd w.a l - c.opnd w.b l - b else c.opnd w.a l + c.opnd w.b l + b

/-- `iadd` and `isub` without `.cc` write one register. -/
theorem addSub_writes (c : Ctx) (s : State) {w : RWord} (sub : Bool) (h : w.flags.getLsbD 0 = false) : ∃ f : Nat → Word,
    c.addSub s w sub = .done (s.updWave c.id (fun v => v.regWrites (c.results w.d.toNat (fun l => [f l])))) := by
  cases hci : w.flags.getLsbD 1 with
  | true =>
    refine ⟨carried c w sub, (addSub_carry c s sub (.inr hci)).trans ?_⟩
    simp only [h, Bool.false_eq_true, if_false, carried]
  | false =>
    have htyped : c.addSub s w sub = c.typed s w (fun a b _ => if sub then a - b else a + b) := by
      simp only [Ctx.addSub, h, hci, Bool.or_self, Bool.false_eq_true, if_false]
    exact ⟨_, htyped.trans (put32_eq_done ..)⟩

/-- The frame of `iadd` and `isub` without `.cc`. -/
theorem frame_addSub_plain (w : RWord) (sub : Bool) (h : w.flags.getLsbD 0 = false) : Frame (if sub then .isub w else .iadd w) (fun c v =>
    Keeps c.wave v c.eff w.d.toNat 1 ∧ KeepsMasks c.wave v none ∧ v.fflags = c.wave.fflags) :=
  frame_of_registersOnly (F := fun x y => y = x) fun s c hi => by
    have hd := w.d.isLt
    obtain ⟨f, hf⟩ := addSub_writes c (checked (if sub then .isub w else .iadd w) s c) sub h
    exact effects_of_updWave hi (exec_addSub w sub s) hf
      ⟨.writes (by omega) (results_mem fun _ => Nat.le_refl 1), fflags_regWrites ..⟩

/-- The frame of `iadd` and `isub`: with `.cc` the mask in C takes the carries. -/
theorem frame_addSub (w : RWord) (sub : Bool) : Frame (if sub then .isub w else .iadd w) (fun c v =>
    Keeps c.wave v c.eff w.d.toNat 1 ∧ KeepsMasks c.wave v (some w.c.toNat) ∧ v.fflags = c.wave.fflags) :=
  frame_of_registersOnly (F := fun x y => y = x) fun s c hi => by
    have hd := w.d.isLt
    have hws : ∀ f : Nat → Word, RegistersOnly c w.d.toNat 1 none (c.wave.regWrites (c.results w.d.toNat (fun l => [f l]))) := fun f =>
      .writes (by omega) (results_mem fun _ => Nat.le_refl 1)
    cases h : w.flags.getLsbD 0 with
    | true =>
      refine effects_of_updWave hi (exec_addSub w sub s) (addSub_carry c _ sub (.inl h)) ?_
      simp only [h, if_true]
      exact ⟨(hws _).kset _, (kset_fflags ..).trans (fflags_regWrites ..)⟩
    | false =>
      obtain ⟨f, hf⟩ := addSub_writes c (checked (if sub then .isub w else .iadd w) s c) sub h
      exact effects_of_updWave hi (exec_addSub w sub s) hf ⟨(hws f).weaken, fflags_regWrites ..⟩

/-- The frame of `fcmp`. -/
theorem frame_fcmp (w : RWord) : Frame (.fcmp w) (fun c v =>
    Keeps c.wave v c.eff 0 0 ∧ KeepsMasks c.wave v (some w.d.toNat) ∧ v.fflags &&& c.wave.fflags = c.wave.fflags) :=
  frame_of_registersOnly (F := fun x y => y &&& x = x) fun _ c hi =>
    effects_of_updWave hi rfl rfl ⟨((RegistersOnly.refl c 0 0 none).kset _).orFlags _, orFlags_keeps (kset_fflags ..) _⟩

/-- The frame of `mov.ss`, which writes the sticky flags. -/
theorem frame_movSs (w : RWord) : Frame (.movSs w) (fun c v => Keeps c.wave v c.eff 0 0 ∧ KeepsMasks c.wave v none) := by
  have h := frame_of_registersOnly (i := .movSs w) (d := 0) (n := 0) (k := none) (F := fun _ _ => True) fun _ c hi => by
    by_cases he : c.eff = 0#32
    · exact effects_of_done hi rfl (congrArg Res.done (if_pos he)) ⟨.refl .., trivial⟩
    · exact effects_of_updWave hi rfl (congrArg Res.done (if_neg he)) ⟨⟨rfl, fun _ _ _ _ => rfl, fun _ _ => rfl, fun _ _ => rfl⟩, trivial⟩
  intro s c t hi hd hl ht
  obtain ⟨hk, v, hv, hw, hreg, hmask, -⟩ := h s c t hi hd hl ht
  exact ⟨hk, v, hv, hw, hreg, hmask⟩

/-- The frame of `mov.sr`, which writes a register or a pair. -/
theorem frame_movSr (w : RWord) : Frame (.movSr w) (fun c v =>
    Keeps c.wave v c.eff w.d.toNat 2 ∧ KeepsMasks c.wave v none ∧ v.fflags = c.wave.fflags) :=
  frame_of_results (fun s c l => if w.minor = 0x0B ∨ w.minor = 0x14 then words64 (s.special c w.minor l) else [wd (s.special c w.minor l)])
    (by decide) (fun _ _ _ => by split <;> simp [words64]) (fun _ => rfl) fun s c => by
      by_cases h : w.minor = 0x0B ∨ w.minor = 0x14
      · simp only [if_pos h]
        rfl
      · simp only [if_neg h]
        rfl

/-- Writes of one register in lanes of the effective mask. -/
theorem within_lane {c : Ctx} {d : Nat} {ws : List RegWrite} (h : ∀ x ∈ ws, x.reg = d ∧ x.lane ∈ c.lanes) : PutsAt c d 1 ws := fun x hx => by
  obtain ⟨hr, hl⟩ := h x hx
  obtain ⟨hlt, he⟩ := (mem_lanesOf _ _).1 hl
  exact ⟨Nat.le_of_eq hr.symm, by omega, hlt, fun _ => he⟩

/-- The frame of `red`, whose one value goes to every effective lane. -/
theorem frame_red (w : RWord) : Frame (.red w) (fun c v =>
    Keeps c.wave v c.eff w.d.toNat 1 ∧ KeepsMasks c.wave v none ∧ v.fflags &&& c.wave.fflags = c.wave.fflags) :=
  frame_of_put (by decide) (fun _ => rfl) fun c s => by
    by_cases he : c.eff = 0#32
    · exact .inl (if_pos he)
    · obtain ⟨ws, fl, h, hws⟩ := calc_puts c s w.d (n := 1) (f := fun _ =>
        let r := redTree (redNode w w.minor) 5 (c.redInputs w w.minor)
        ([r.1], r.2)) fun _ => Nat.le_refl 1
      exact .inr ⟨ws, fl, (if_neg he).trans h, hws⟩

/-- The frame of `scan`. -/
theorem frame_scan (w : RWord) : Frame (.scan w) (fun c v =>
    Keeps c.wave v c.eff w.d.toNat 1 ∧ KeepsMasks c.wave v none ∧ v.fflags &&& c.wave.fflags = c.wave.fflags) :=
  frame_of_put (by decide) (fun _ => rfl) fun c s => by
    by_cases he : c.eff = 0#32
    · exact .inl (if_pos he)
    · exact .inr ⟨_, _, if_neg he, within_lane fun x hx => by
        obtain ⟨l, hl, rfl⟩ := List.mem_map.1 hx
        exact ⟨rfl, hl⟩⟩

/-- The frame of `q4.scale`. -/
theorem frame_q4Scale (w : RWord) : Frame (.q4Scale w) (fun c v =>
    Keeps c.wave v c.eff w.d.toNat 1 ∧ KeepsMasks c.wave v none ∧ v.fflags &&& c.wave.fflags = c.wave.fflags) :=
  frame_of_put (by decide) (fun _ => rfl) fun c s => .inr ⟨_, _, rfl, within_lane fun x hx => by
    obtain ⟨r, hr, hx⟩ := List.mem_flatMap.1 hx
    obtain ⟨b, hb, rfl⟩ := List.mem_map.1 hr
    obtain ⟨l, hl, rfl⟩ := List.mem_map.1 hx
    have hb := List.mem_of_mem_filter hb
    refine ⟨rfl, ?_⟩
    split at hb
    · simp only [List.mem_cons, List.not_mem_nil, or_false] at hb
      rcases hb with rfl | rfl <;> exact List.mem_of_mem_filter hl
    · rw [List.mem_singleton.1 hb] at hl
      exact hl⟩

/-- What a half of a paired word writes. -/
theorem half_mem {c : Ctx} {h : Half} {x : RegWrite} (hx : x ∈ (c.half h).1) : x.reg < 0x100 ∧ x.lane < 32 ∧ x.reg = h.f.d.toNat := by
  unfold Ctx.half at hx
  split at hx
  · cases hx
  · obtain ⟨r, hr, rfl⟩ := List.mem_map.1 hx
    obtain ⟨l, hl, rfl⟩ := List.mem_map.1 hr
    exact ⟨h.f.d.isLt, ((mem_lanesOf _ _).1 hl).1, rfl⟩

/-- The frame of a paired word. -/
theorem frame_pair (m : Bool) (op : HalfOp) (a : HalfFields) (b : Half) : Frame (pairInstr m op a b) (fun c v =>
    KeepsMasks c.wave v none ∧ v.fflags &&& c.wave.fflags = c.wave.fflags ∧ v.s = c.wave.s ∧ v.exited = c.wave.exited ∧
    ∀ r l, l < 32 → r ≠ a.d.toNat → r ≠ b.f.d.toNat → v.vget r l = c.wave.vget r l) :=
  frame_of_effects (P := fun c w => ∃ ws fl, w = (c.wave.regWrites ws).orFlags fl ∧
      ∀ x ∈ ws, x.reg < 0x100 ∧ x.lane < 32 ∧ (x.reg = a.d.toNat ∨ x.reg = b.f.d.toNat))
    (fun s c hi => effects_of_updWave hi (exec_pairInstr ..) rfl ⟨bareOf_regWrites .., _, _, rfl, fun x hx => by
      rcases List.mem_append.1 hx with hx | hx
      · obtain ⟨h1, h2, h3⟩ := half_mem hx
        exact ⟨h1, h2, .inl h3⟩
      · obtain ⟨h1, h2, h3⟩ := half_mem hx
        exact ⟨h1, h2, .inr h3⟩⟩)
    fun c v w hP hr hk hb => by
      obtain ⟨ws, fl, rfl, hws⟩ := hP
      simp only [restOf, Prod.mk.injEq] at hr
      obtain ⟨hv, hs, hff, hex, -⟩ := hr
      have hexited := congrArg Wave.exited hb
      refine ⟨fun q _ hh => (hk q hh).trans (kget_regWrites_le _ _ _ fun x hx => ?_), ?_, hs.trans (s_regWrites _ _ fun x hx => (hws x hx).1),
        hex.trans hexited, fun r l hl ha hb => ?_⟩
      · exact Nat.le_of_lt (Nat.lt_of_lt_of_le (hws x hx).1 (by decide))
      · rw [hff]
        exact orFlags_keeps (fflags_regWrites ..) _
      · rw [Wave.vget, hv]
        refine vget_regWrites _ _ hl (fun x hx => (hws x hx).2.1) fun x hx e => ?_
        rcases (hws x hx).2.2 with h | h
        · exact ha (e.1.symm.trans h)
        · exact hb (e.1.symm.trans h)

/-- The frame of a conversion, which writes a register or a pair by the width of its type. -/
theorem frame_cvt (w : RWord) : Frame (.cvt w) (fun c v => Keeps c.wave v c.eff w.d.toNat (if tyWidth w.ty = 64 then 2 else 1) ∧
    KeepsMasks c.wave v none ∧ v.fflags &&& c.wave.fflags = c.wave.fflags) :=
  frame_of_calc _ (by split <;> decide) (fun c l => by
    dsimp only
    repeat' split
    all_goals simp [words64]) fun _ => rfl

/-- The frames of the words of three register operands. -/
theorem frames_rWord (w : RWord) :
    (∀ i ∈ [Instr.iadd w, .isub w], w.flags.getLsbD 0 = false →
      Frame i (fun c v => Keeps c.wave v c.eff w.d.toNat 1 ∧ KeepsMasks c.wave v none ∧ v.fflags = c.wave.fflags)) ∧
    (∀ i ∈ [Instr.iadd w, .isub w],
      Frame i (fun c v => Keeps c.wave v c.eff w.d.toNat 1 ∧ KeepsMasks c.wave v (some w.c.toNat) ∧ v.fflags = c.wave.fflags)) ∧
    (∀ i ∈ [Instr.imul w, .imulh w, .imad w, .iabs w, .imin w, .imax w, .shl w, .shr w, .sar w, .rot w, .wext w, .lfn w, .andW w, .orW w,
        .xorW w, .andn w, .notW w, .bfe w, .bfi w, .popc w, .clz w, .ctz w, .brev w, .bsel w, .sel w, .mov w, .dot4 w, .isad w, .idiv w,
        .laneRd w, .laneWr w, .kpop w, .kffs w, .nibPack w, .nibUnpk w, .matchL w, .xlane w],
      Frame i (fun c v => Keeps c.wave v c.eff w.d.toNat 1 ∧ KeepsMasks c.wave v none ∧ v.fflags = c.wave.fflags)) := by
  refine ⟨fun i hmem h => ?_, fun i hmem => ?_, fun i hmem => ?_⟩
  · simp only [List.mem_cons, List.not_mem_nil, or_false] at hmem
    rcases hmem with rfl | rfl
    · exact frame_addSub_plain w false h
    · exact frame_addSub_plain w true h
  · simp only [List.mem_cons, List.not_mem_nil, or_false] at hmem
    rcases hmem with rfl | rfl
    · exact frame_addSub w false
    · exact frame_addSub w true
  · simp only [List.mem_cons, List.not_mem_nil, or_false] at hmem
    rcases hmem with rfl | rfl | rfl | rfl | rfl | rfl | rfl | rfl | rfl | rfl | rfl | rfl | rfl | rfl | rfl | rfl | rfl | rfl | rfl |
      rfl | rfl | rfl | rfl | rfl | rfl | rfl | rfl | rfl | rfl | rfl | rfl | rfl | rfl | rfl | rfl | rfl | rfl
    pick_goal 30
    · exact frame_of_putScalar _ rfl fun _ => rfl
    pick_goal 30
    · exact frame_laneWr w
    pick_goal 30
    · exact frame_of_putScalar _ rfl fun _ => rfl
    pick_goal 30
    · exact frame_of_putScalar _ rfl fun _ => rfl
    all_goals exact frame_of_put32 _ fun _ => rfl

/-- The frames of the words whose results are pairs. -/
theorem frames_pairs (w : RWord) : ∀ i ∈ [Instr.add64 w, .sub64 w, .mul64 w, .shl64 w, .shr64 w, .lea w, .sel64 w, .movSr w],
    Frame i (fun c v => Keeps c.wave v c.eff w.d.toNat 2 ∧ KeepsMasks c.wave v none ∧ v.fflags = c.wave.fflags) := by
  intro i hmem
  simp only [List.mem_cons, List.not_mem_nil, or_false] at hmem
  rcases hmem with rfl | rfl | rfl | rfl | rfl | rfl | rfl | rfl
  pick_goal 8
  · exact frame_movSr w
  all_goals exact frame_of_put64 _ fun _ => rfl

/-- The frames of the floating-point, conversion and cross-lane words. -/
theorem frames_float (w : RWord) : ∀ i ∈ [Instr.fadd w, .fsub w, .fmul w, .fma w, .fmin w, .fmax w, .frcp w, .frsq w, .fsqrt w, .fexp2 w,
      .flog2 w, .fsin w, .fcos w, .fround w, .ffract w, .fldexp w, .fexs w, .ftanh w, .hadd2 w, .hmul2 w, .hfma2 w, .hmax2 w, .fdot2 w,
      .cvtPk8 w, .cvtEx8 w, .q4Enc w, .q4Dec w, .q4Scale w, .red w, .scan w],
    Frame i (fun c v => Keeps c.wave v c.eff w.d.toNat 1 ∧ KeepsMasks c.wave v none ∧ v.fflags &&& c.wave.fflags = c.wave.fflags) := by
  intro i hmem
  simp only [List.mem_cons, List.not_mem_nil, or_false] at hmem
  rcases hmem with rfl | rfl | rfl | rfl | rfl | rfl | rfl | rfl | rfl | rfl | rfl | rfl | rfl | rfl | rfl | rfl | rfl | rfl | rfl |
    rfl | rfl | rfl | rfl | rfl | rfl | rfl | rfl | rfl | rfl | rfl
  pick_goal 28
  · exact frame_q4Scale w
  pick_goal 28
  · exact frame_red w
  pick_goal 28
  · exact frame_scan w
  all_goals exact frame_of_calc _ (by decide) (by exact fun _ _ => Nat.le_refl 1) fun _ => rfl

/-- The frames of the words that write a mask and no flag. -/
theorem frames_masks (w : RWord) : ∀ i ∈ [Instr.icmp w, .cmp64 w, .fclass w, .kop w],
    Frame i (fun c v => Keeps c.wave v c.eff 0 0 ∧ KeepsMasks c.wave v (some w.d.toNat) ∧ v.fflags = c.wave.fflags) := by
  intro i hmem
  simp only [List.mem_cons, List.not_mem_nil, or_false] at hmem
  rcases hmem with rfl | rfl | rfl | rfl
  · exact frame_of_putMask _ fun _ => rfl
  · exact frame_of_putMask _ fun _ => rfl
  · exact frame_of_putMask _ fun _ => rfl
  · exact frame_of_putWhole _ fun _ => rfl

/-- The frames of the words with an immediate. -/
theorem frames_iWord (w : IWord) :
    (∀ i ∈ [Instr.iaddi w, .imuli w, .andi w, .ori w, .xori w, .shli w, .shri w, .sari w, .movi w],
      Frame i (fun c v => Keeps c.wave v c.eff w.d.toNat 1 ∧ KeepsMasks c.wave v none ∧ v.fflags = c.wave.fflags)) ∧
    Frame (.movhi w) (fun c v => Keeps c.wave v c.eff w.d.toNat 2 ∧ KeepsMasks c.wave v none ∧ v.fflags = c.wave.fflags) ∧
    Frame (.icmpi w) (fun c v => Keeps c.wave v c.eff 0 0 ∧ KeepsMasks c.wave v (some w.d.toNat) ∧ v.fflags = c.wave.fflags) := by
  refine ⟨fun i hmem => ?_, frame_of_results (fun _ c l => [c.opnd w.a l, w.imm]) (by decide) (fun _ _ _ => Nat.le_refl 2) (fun _ => rfl)
    fun _ _ => rfl, frame_of_putMask _ fun _ => rfl⟩
  simp only [List.mem_cons, List.not_mem_nil, or_false] at hmem
  rcases hmem with rfl | rfl | rfl | rfl | rfl | rfl | rfl | rfl | rfl
  all_goals exact frame_of_put32 _ fun _ => rfl

/-- Settles O51: a register word changes its wave only, there its destination and, for floating words, the flags it adds. -/
theorem registerWordFrames : Obligations.RegisterWordFrames := by
  unfold Obligations.RegisterWordFrames
  refine ⟨fun w => ?_, frames_iWord, frame_pair⟩
  obtain ⟨hplain, hcarry, h32⟩ := frames_rWord w
  exact ⟨hplain, hcarry, h32, frames_pairs w, frames_float w, frame_cvt w, frames_masks w, frame_fcmp w, frame_movSs w⟩

end Sys2Proof.Laws
end


section
/-!
PROOF. What the bodies of memory words share: the path they take, the addresses and immediates of M-format words (R126, R163, R262, R263).
-/

namespace Sys2Proof.Laws
open Sys2Proof.Machine Sys2Proof.Claims

/-- A word whose path no `xfence` holds acts. -/
theorem onPath_free {c : Ctx} {path : Nat} (h : c.wave.fencedTo path = false) (s : State) (body : State → Res) :
    c.onPath path s body = body s := if_neg (by rw [h]; exact Bool.false_ne_true)

/-- The low bits of an immediate as a signed number (R262). -/
theorem immLow_eq_toInt (w : MWord) (n : Nat) : immLow w n = (w.imm.extractLsb' 0 n).toInt := by
  rw [immLow, sInt_eq_toInt]
  congr 1

/-- The 64-bit offset of a lane (R74). -/
theorem goff_eq (c : Ctx) (w : MWord) (imm : Int) (l : Nat) :
    c.goff w imm l = (c.wave.opnd (w.gbase.field + 1) l ++ c.wave.opnd w.gbase.field l : Dword).toInt + imm := by
  rw [Ctx.goff, pair64_eq_toNat, sInt_toNat]

/-- The addresses of a word's lanes, aligned to their size. -/
theorem gaddrs_eq (c : Ctx) (w : MWord) (imm : Int) (one : Bool) (size : Nat) (k : AccKind) :
    c.gaddrs w imm one size size k = globalAddrs c w imm one size k := by
  simp only [Ctx.gaddrs, globalAddrs, goff_eq]
  rfl

/-- A lane's local offset (R263). -/
theorem loff_eq (c : Ctx) (w : MWord) (imm : Int) (l : Nat) : c.loff w imm l = localOffset c w imm l := by
  rw [Ctx.loff, localOffset, wrapInt_eq_toNat, BitVec.ofInt_add, BitVec.ofInt_natCast, BitVec.ofNat_toNat, BitVec.setWidth_eq]

/-- What the checks of a word's lanes answer is what the word does. -/
theorem issueWord_access {i : Instr} {s : State} {c : Ctx} {body : Ctx → State → Res} {a : Access}
    {f : List (LaneAcc × Bool) → State → Res} {P : List (LaneAcc × Bool) → State → Prop} (hi : Issues i s c)
    (hexec : exec i s = issueWord i s body) (hb : body c (checked i s c) = a.then f)
    (hP : ∀ accs u, a = .ready accs u → P accs u) : Accesses i s c a P := by
  cases a with
  | ready accs u => exact hP accs u rfl
  | raise r m u => exact hexec.trans (issueWord_raise hi hb)
  | hold u => exact hexec.trans (issueWord_stay hi hb)

end Sys2Proof.Laws
end


section
/-!
PROOF. Words on sync cells, their bindings, the fences and `calli` (R232, R275 to R279).
-/

namespace Sys2Proof.Laws
open Sys2Proof.Machine Sys2Proof.Claims

/-- A word on a cell whose address is checked and translated (R275). -/
theorem cellWord_ready {c : Ctx} {s u : State} {w : MWord} {imm : Int} {regs : List Nat} {a : LaneAcc} {d : Bool}
    {rest : List (LaneAcc × Bool)} (hp : c.wave.fencedTo 0 = false)
    (ha : s.access c false true .sync (globalAddrs c w imm true 8 .sync) = .ready ((a, d) :: rest) u) (f : LaneAcc → State → Res) :
    c.cellWord s w imm regs f = f a u := by
  rw [Ctx.cellWord, onPath_free hp, gaddrs_eq, ha]
  rfl

/-- The region of a binding that passes its checks (R277). -/
theorem binding_ready {c : Ctx} {s u : State} {w : MWord} {a : LaneAcc} {d : Bool} {rest : List (LaneAcc × Bool)} (remove : Bool)
    (hp : c.wave.fencedTo 0 = false)
    (ha : s.access c false true .sync (globalAddrs c w w.imm.toInt true 8 .sync) = .ready ((a, d) :: rest) u) :
    let off := (c.sreg w.d 1 ++ c.sreg w.d 0 : Dword).toInt
    let len := (c.sreg w.d 3 ++ c.sreg w.d 2 : Dword).toNat
    let g := sget 0#128 c.wave.segs w.seg.toNat
    segValid g = true → 0 ≤ off → off + len ≤ segLimit g → (segBase g + off.toNat) % 4 = 0 → len % 4 = 0 → 0 < len → len ≤ 2 ^ 40 →
    c.binding s w remove = .done (u.launch c (.bindRegion a.pa a.va len c.wg.vf (segBase g + off.toNat) remove) []) := by
  intro off len g hv h0 hl halign hlen hpos hmax
  refine (cellWord_ready hp ha _).trans ?_
  have hoff : sInt 64 (pair64 (c.sreg w.d 0) (c.sreg w.d 1)) = off := by rw [pair64_eq_toNat, sInt_toNat]
  have hlen' : pair64 (c.sreg w.d 2) (c.sreg w.d 3) = len := pair64_eq_toNat ..
  have hin : ¬ (segValid g = false ∨ off < 0 ∨ (segLimit g : Int) < off + len) := by
    rw [hv]
    rintro (h | h | h)
    · cases h
    · omega
    · omega
  simp only [hoff, hlen', Ctx.seg]
  refine (if_neg hin).trans ((if_neg ?_).trans (if_neg ?_))
  · rintro (h | h)
    · exact h halign
    · exact h hlen
  · omega

/-- Settles O23: a word whose address is ready leaves as the access that the statement gives. -/
theorem synchronisationWords : Obligations.SynchronisationWords := by
  unfold Obligations.SynchronisationWords
  refine ⟨fun w s c a d rest u => ?_, fun w s c e d rest u hon ha => ?_, fun w s c he => ⟨fun hon => ?_, fun hon => ?_, fun hon hch => ?_⟩⟩
  · refine ⟨fun hon hfree => ?_, fun hon => ?_, fun hon => ?_, fun remove hon => ?_⟩
    · obtain ⟨⟨hi, hp⟩, ha⟩ := hon
      rw [← immLow_eq_toInt] at ha
      refine issueWord_done hi ((cellWord_ready hp ha _).trans (if_neg ?_))
      rintro ⟨hk, hpoison⟩
      simp only [Ctx.poisonedCell, Bool.and_eq_true, Bool.not_eq_true'] at hpoison
      exact Bool.false_ne_true ((hfree hk hpoison.1).symm.trans hpoison.2)
    · obtain ⟨⟨hi, hp⟩, ha⟩ := hon
      rw [← immLow_eq_toInt] at ha
      exact issueWord_done hi (cellWord_ready hp ha _)
    · obtain ⟨⟨hi, hp⟩, ha⟩ := hon
      exact issueWord_done hi (cellWord_ready hp ha _)
    · intro off len g hv h0 hl halign hlen hpos hmax
      obtain ⟨⟨hi, hp⟩, ha⟩ := hon
      have hbody := binding_ready remove hp ha hv h0 hl halign hlen hpos hmax
      cases remove with
      | false => exact issueWord_done hi hbody
      | true => exact issueWord_done hi hbody
  · obtain ⟨hi, hp⟩ := hon
    refine issueWord_moved hi ((onPath_free hp _ _).trans ?_)
    exact congrArg (Access.then · _) ha
  · obtain ⟨hi, hp⟩ := hon
    exact issueWord_done hi ((onPath_free hp _ _).trans (congrArg Res.done (if_neg he)))
  · obtain ⟨hi, hp⟩ := hon
    exact issueWord_done hi ((onPath_free hp _ _).trans (if_neg he))
  · obtain ⟨hi, hp⟩ := hon
    refine issueWord_done hi ((if_neg ?_).trans ((onPath_free hp _ _).trans (if_neg he)))
    exact fun h => Nat.not_lt.2 h.2 hch

end Sys2Proof.Laws
end


section
/-!
PROOF. Local, remote and private loads and stores, and the scratchpad atomic (R79 to R97, R263, R264, R270, R274).
-/

namespace Sys2Proof.Laws
open Sys2Proof.Machine Sys2Proof.Claims

/-! ### What a word stores and where -/

/-- The bytes of a number have the length asked for. -/
theorem length_bytesOfNat (x n : Nat) : (bytesOfNat x n).length = n := by simp [bytesOfNat]

/-- A word stores as many bytes of a lane as its size says. -/
theorem length_storeData (c : Ctx) (d : BitVec 9) (size lane : Nat) : (c.storeData d size lane).length = size := by
  have hsum : ((List.range ((size + 3) / 4)).map (fun i =>
      (bytesOfNat (c.wave.opnd (d.toNat + i) lane).toNat 4).length)).sum = (size + 3) / 4 * 4 := by
    simp only [length_bytesOfNat, List.map_const', List.sum_replicate, List.length_range, smul_eq_mul]
  rw [Ctx.storeData, List.length_take, List.length_flatMap, hsum]
  omega

/-- A list by its positions. -/
theorem map_range_zip {α β : Type} (bs : List α) (d : α) (f : Nat → α → β) :
    ((List.range bs.length).zip bs).map (fun b => f b.1 b.2) = (List.range bs.length).map (fun i => f i (bs.getD i d)) := by
  refine List.ext_getElem (by simp) fun i h1 h2 => ?_
  have hi : i < bs.length := by simpa using h1
  simp [hi]

/-- Lanes that all pass keep their values. -/
theorem allLanes_map_ok {α : Type} (c : Ctx) (one : Bool) (ls : List Nat) (f : Nat → α) :
    c.allLanes one (ls.map (fun l => (l, .ok (f l)))) = .ok (ls.map (fun l => (l, f l))) := by
  have hbad : (ls.map (fun l => ((l, .ok (f l)) : Nat × Except Raise α))).filterMap failure = [] := by
    rw [List.filterMap_map]
    exact List.filterMap_eq_nil_iff.2 fun _ _ => rfl
  unfold Ctx.allLanes
  dsimp only
  split
  · next h => exact absurd (h.symm.trans hbad) (List.cons_ne_nil _ _)
  · rw [List.filterMap_map]
    exact congrArg Except.ok (List.filterMap_eq_map ▸ rfl)

/-! ### Local words -/

/-- The immediate of a local word: all of IMM24, or the 21 bits beside the number of a skewed tile. -/
theorem local_imm (w : MWord) (b : Bool) : (if b then immLow w 21 else immAll w) = if b then (w.imm.extractLsb' 0 21).toInt else w.imm.toInt := by
  rw [immLow_eq_toInt]
  rfl

/-- The stored bytes of a lane at the places of its pieces. -/
theorem stored_bytes (c : Ctx) (d : BitVec 9) (size lane : Nat) (ps : List Nat) :
    ((List.range (c.storeData d size lane).length).zip (c.storeData d size lane)).map (fun b => (ps.getD (b.1 / 4) 0 + b.1 % 4, b.2)) =
      ((List.range size).map (fun b => ps.getD (b / 4) 0 + b % 4)).zip (c.storeData d size lane) := by
  rw [length_storeData, List.zip_map_left]
  rfl

/-- A local load or store checks its lanes, then reads or writes their pieces (R263). -/
theorem localWord_of_exec {i : Instr} {w : MWord} {space : Space} {store : Bool}
    (hexec : ∀ s, exec i s = issueWord i s (fun c s => c.localWord s w space store)) : LocalWord i w space store := by
  intro s c hon t size skew imm place checks
  obtain ⟨hi, hp⟩ := hon
  refine ⟨fun r m h => (hexec s).trans (issueWord_raise hi ((onPath_free hp _ _).trans ?_)),
    fun ps h => (hexec s).trans (issueWord_done hi ((onPath_free hp _ _).trans ?_))⟩
  all_goals
    dsimp only
    simp only [local_imm, loff_eq, stored_bytes]
    split
  · next h' =>
    cases h'.symm.trans h
    rfl
  · next h' => cases h'.symm.trans h
  · next h' => cases h'.symm.trans h
  · next h' =>
    cases h'.symm.trans h
    cases store <;> cases hb : c.wave.blocked <;> rfl

/-! ### Remote words -/

/-- The offset of a lane passes the local checks (R81). -/
theorem localCheck_passes {usable code o size : Nat} (h : o + size ≤ usable) (ha : o % size = 0) : localCheck usable code o size = none := by
  rw [localCheck, if_neg (Nat.not_lt.2 h), if_neg (by rw [ha]; exact fun h => h rfl)]

/-- A remote scratchpad access leaves for its target (R83, R264). -/
theorem remoteWord_of_exec {i : Instr} {w : MWord} {store : Bool}
    (hexec : ∀ s, exec i s = issueWord i s (fun c s => c.remoteWord s w store)) : RemoteWord i w store := by
  intro s c hon he t size rank
  obtain ⟨hi, hp⟩ := hon
  refine ⟨fun h => ?_, fun h1 h2 core n g htarget => ?_⟩
  · exact (hexec s).trans (issueWord_raise hi ((onPath_free hp _ _).trans ((if_neg he).trans (if_pos h))))
  · intro off hin
    refine (hexec s).trans (issueWord_done hi ((onPath_free hp _ _).trans ((if_neg he).trans ((if_neg ?_).trans ?_))))
    · rintro (h | h)
      · exact Nat.not_lt.2 h h1
      · exact Nat.not_lt.2 h h2
    · simp only [loff_eq, immLow_eq_toInt]
      generalize hfound : List.findSome? _ _ = found
      cases hfound.symm.trans htarget
      generalize hall : c.allLanes _ _ = all
      have hok : all = .ok ((accessing c (onceFor w)).map (fun l => (l, off l))) :=
        hall.symm.trans ((congrArg (c.allLanes _) (List.map_congr_left fun l hl => by
          rw [localCheck_passes (hin l hl).1 (hin l hl).2])).trans (allLanes_map_ok ..))
      subst hok
      simp only [List.flatMap_map]
      rfl

/-! ### Private words -/

/-- A private load or store checks and translates every lane's words before it acts (R97, R183, R270). -/
theorem privateWord_of_exec {i : Instr} {w : MWord} {store : Bool}
    (hexec : ∀ s, exec i s = issueWord i s (fun c s => c.privateWord s w store)) : PrivateWord i w store := by
  intro s c hon size lanes vas
  obtain ⟨hi, hp⟩ := hon
  have hvas : (c.accLanes (onceFor w)).flatMap (fun l => c.privAccess size (c.loff w (immAll w) l) l) = vas := by
    simp only [loff_eq]
    rfl
  rw [← hvas]
  refine issueWord_access hi (hexec s) (onPath_free hp _ _) fun accs u ha => ⟨fun h => ?_, fun h => ?_⟩
  · subst h
    exact (hexec s).trans (issueWord_done hi ((onPath_free hp _ _).trans (congrArg (Access.then · _) ha)))
  · subst h
    intro data
    refine (hexec s).trans (issueWord_done hi ((onPath_free hp _ _).trans ((congrArg (Access.then · _) ha).trans ?_)))
    have hdata : c.privBytes u w size lanes (plainAccs accs) = data := List.flatMap_congr fun l _ => by
      dsimp only
      refine (map_range_zip (c.storeData w.d size l) 0#8 fun b x => (u.canon ((((plainAccs accs).filter (fun a =>
        decide (a.lane = l))).map (fun a => a.pa)).getD (b / 4) 0) + b % 4, x)).trans ?_
      rw [length_storeData]
    rw [← hdata]
    rfl

/-! ### The words -/

/-- Settles O20: a local, remote or private word checks its lanes and then reads, writes or leaves as the statement gives. -/
theorem localAndPrivateWords : Obligations.LocalAndPrivateWords := by
  unfold Obligations.LocalAndPrivateWords
  intro w
  refine ⟨localWord_of_exec fun _ => rfl, localWord_of_exec fun _ => rfl, localWord_of_exec fun _ => rfl, localWord_of_exec fun _ => rfl,
    localWord_of_exec fun _ => rfl, localWord_of_exec fun _ => rfl, remoteWord_of_exec fun _ => rfl, remoteWord_of_exec fun _ => rfl,
    privateWord_of_exec fun _ => rfl, privateWord_of_exec fun _ => rfl, fun s c hon => ?_⟩
  intro t size op regs value checks
  obtain ⟨hi, hp⟩ := hon
  have hchecks : c.allLanes (onceFor w) ((c.accLanes (onceFor w)).map (fun l =>
      (l, localAccess c.wg .sp size (c.loff w (immLow w 20) l) none))) = checks := by
    simp only [loff_eq, immLow_eq_toInt]
    rfl
  refine ⟨fun r m h => issueWord_raise hi ((onPath_free hp _ _).trans ?_), fun ps h => ?_⟩
  · dsimp only
    rw [hchecks.trans h]
  · intro todo u
    refine issueWord_done hi ((onPath_free hp _ _).trans ?_)
    dsimp only
    rw [hchecks.trans h]
    cases hb : c.wave.blocked <;> rfl

end Sys2Proof.Laws
end


section
/-!
PROOF. Global loads, stores, prefetches, linkage words, queue loads and atomics (R74, R232, R266, R269 to R273).
-/

namespace Sys2Proof.Laws
open Sys2Proof.Machine Sys2Proof.Claims

/-- A global store writes the bytes of its lanes, those of uncached pages apart (R269). -/
theorem stG_accesses {w : MWord} {s : State} {c : Ctx} (hon : OnPath (.stG w) s c 0) :
    let size := sizeBytes w.size
    Accesses (.stG w) s c ((checked (.stG w) s c).access c false (onceFor w) .store (globalAddrs c w w.imm.toInt (onceFor w) size .store))
      (fun accs u =>
        let bytes := fun (uncached : Bool) => (accs.filter (fun a => a.2 == uncached)).flatMap (fun a =>
          byteList a.1.pa (c.storeData w.d size a.1.lane))
        Completes (.stG w) s c ((u.storeOrQueue c false (bytes false)).storeOrQueue c true (bytes true))) := by
  intro size
  obtain ⟨hi, hp⟩ := hon
  rw [← gaddrs_eq]
  refine issueWord_access hi rfl (onPath_free hp _ _) fun accs u ha => ?_
  refine issueWord_done hi ((onPath_free hp _ _).trans ((congrArg (Access.then · _) ha).trans ?_))
  simp only [Access.then, Ctx.storeList, List.flatMap_map]
  rfl

/-- A scalar load leaves as one load for the wave (R270). -/
theorem ldK_accesses {w : MWord} {s : State} {c : Ctx} (hon : OnPath (.ldK w) s c 0) :
    let size := sizeBytes w.size
    Accesses (.ldK w) s c ((checked (.ldK w) s c).access c false true .load (globalAddrs c w w.imm.toInt true size .load)) (fun accs u =>
      Completes (.ldK w) s c (u.launch c (.load (plainAccs accs) size (signedSize w) w.d.toNat w.mode false
        (u.appliedMask c.id.core c.wg.part)) (regsFrom w.d.toNat (sizeRegs size)))) := by
  intro size
  obtain ⟨hi, hp⟩ := hon
  rw [← gaddrs_eq]
  refine issueWord_access hi rfl (onPath_free hp _ _) fun accs u ha => ?_
  exact issueWord_done hi ((onPath_free hp _ _).trans (congrArg (Access.then · _) ha))

/-- A prefetch leaves with the lanes that pass their checks and translate (R270). -/
theorem pref_completes {w : MWord} {s : State} {c : Ctx} (hon : OnPath (.pref w) s c 0) :
    let size := sizeBytes w.size
    let p := (checked (.pref w) s c).prefetchAccs c (globalAddrs c w w.imm.toInt w.sbase size .load)
    Completes (.pref w) s c (if p.1 = [] then p.2 else (p.2.launch c (.prefetch p.1 size w.mode) []).drain c.id) := by
  intro size p
  obtain ⟨hi, hp⟩ := hon
  have hp' : (checked (.pref w) s c).prefetchAccs c (c.gaddrs w (immAll w) w.sbase size size .load) = p := by rw [gaddrs_eq]; rfl
  refine issueWord_done hi ((onPath_free hp _ _).trans ?_)
  dsimp only
  rw [hp']
  by_cases h : p.1 = []
  · rw [if_pos h, if_pos h]
  · rw [if_neg h, if_neg h]

/-- A queue load leaves as a fill and pushes (R266). -/
theorem dqLd_completes {w : MWord} {s u : State} {c : Ctx} {accs : List (LaneAcc × Bool)} (hon : OnPath (.dqLd w) s c 0)
    (he : c.eff ≠ 0#32)
    (ha : (checked (.dqLd w) s c).access c false w.sbase .load (globalAddrs c w w.imm.toInt w.sbase (sizeBytes w.size) .load) =
      .ready accs u) (hd : (u.queue c.id.core c.wave.wg (w.d.toNat % 16)).depth ≠ 0) :
    Completes (.dqLd w) s c ((u.launch c (.fill (w.d.toNat % 16) 0 (plainAccs accs) (sizeBytes w.size) (signedSize w) w.sbase w.mode
      (u.appliedMask c.id.core c.wg.part)) []).push c (w.d.toNat % 16) u.tags (sizeBytes w.size) w.sbase) := by
  obtain ⟨hi, hp⟩ := hon
  rw [← gaddrs_eq] at ha
  exact issueWord_done hi ((onPath_free hp _ _).trans ((if_neg he).trans ((congrArg (Access.then · _) ha).trans (if_neg hd))))

/-- A linkage load leaves with the observing acquire of its table's cell (R271). -/
theorem lnkLd_completes {w : MWord} {s u : State} {c : Ctx} {entry cell : LaneAcc} {b d : Bool} {rest : List (LaneAcc × Bool)}
    (hon : OnPath (.lnkLd w) s c 0)
    (ha : (checked (.lnkLd w) s c).access c false true .observe (globalAddrs c w w.imm.toInt true 8 .observe ++
      (accessing c true).map (fun l => (l, segCheck (sget 0#128 c.wave.segs w.seg.toNat) 0 8 8 .observe))) =
      .ready ((entry, b) :: (cell, d) :: rest) u)
    (hfree : c.wave.blocked = false → u.cellPoisoned c.id.core c.wg.part cell.pa = false) :
    Completes (.lnkLd w) s c (u.launch c (.linkage cell.pa cell.va entry.pa w.d.toNat) (regsFrom w.d.toNat 2)) := by
  obtain ⟨hi, hp⟩ := hon
  rw [← gaddrs_eq] at ha
  refine issueWord_done hi ((onPath_free hp _ _).trans ((congrArg (Access.then · _) ha).trans (if_neg fun h => ?_)))
  simp only [Ctx.poisonedCell, Bool.and_eq_true, Bool.not_eq_true'] at h
  exact Bool.false_ne_true ((hfree h.1).symm.trans h.2)

/-- A global atomic leaves with its lanes' operands, and pushes but for a reduction (R273). -/
theorem atomic_accesses {i : Instr} {w : MWord} {kind : Nat} {s : State} {c : Ctx}
    (hexec : exec i s = issueWord i s (fun c s => c.atomic s w kind)) (hon : OnPath i s c 0) (he : c.eff ≠ 0#32) :
    let size := sizeBytes w.size
    let one := onceFor w
    let imm := if kind = 2 then (w.imm.extractLsb' 0 20).toInt else (w.imm.extractLsb' 0 16).toInt
    let q := (w.imm.extractLsb' 16 4).toNat
    Accesses i s c ((checked i s c).access c false one .atomic (globalAddrs c w imm one size .atomic)) (fun accs u =>
      (kind ≠ 2 → (u.queue c.id.core c.wave.wg q).depth ≠ 0) →
      let todo := (plainAccs accs).map (fun a => (⟨a, c.atomValue w.d size 0 a.lane,
        if kind = 1 then c.atomValue w.d size 1 a.lane else 0⟩ : AtomLane))
      let t := u.launch c (.atomic kind (w.imm.extractLsb' 20 4).toNat size todo q 0 []) []
      Completes i s c (if kind = 2 then t else t.push c q u.tags size one)) := by
  intro size one imm q
  obtain ⟨hi, hp⟩ := hon
  have himm : (if kind = 2 then immLow w 20 else immLow w 16) = imm := by rw [immLow_eq_toInt, immLow_eq_toInt]
  rw [← gaddrs_eq, ← himm]
  refine issueWord_access hi hexec ((onPath_free hp _ _).trans (if_neg he)) fun accs u ha hd => ?_
  intro todo t
  refine hexec.trans (issueWord_done hi ((onPath_free hp _ _).trans ((if_neg he).trans ((congrArg (Access.then · _) ha).trans
    (if_neg fun h => hd h.1 h.2)))))

/-- Settles O21: a global word whose lanes pass their checks leaves, stores or pushes as the statement gives. -/
theorem globalWords : Obligations.GlobalWords := by
  unfold Obligations.GlobalWords
  intro w
  refine ⟨fun s c hon => stG_accesses hon, fun s c hon => ldK_accesses hon, fun s c hon => pref_completes hon,
    fun s c hon he accs u ha => ?_, fun s c hon entry cell b d rest u ha hfree => lnkLd_completes hon ha hfree, fun kind hk => ?_⟩
  · intro q hd
    exact dqLd_completes hon he ha hd
  · simp only [List.mem_cons, List.not_mem_nil, or_false] at hk
    rcases hk with rfl | rfl | rfl
    · exact fun s c hon he => atomic_accesses rfl hon he
    · exact fun s c hon he => atomic_accesses rfl hon he
    · exact fun s c hon he => atomic_accesses rfl hon he

end Sys2Proof.Laws
end


section
/-!
PROOF. Queue pops, configuration and level (R267, R268).
-/

namespace Sys2Proof.Laws
open Sys2Proof.Machine Sys2Proof.Claims

/-- A word on a queue whose number is above 15 raises (R267). -/
theorem queueNo_none {c : Ctx} {f : BitVec 9} (h : 16 ≤ (c.opnd f (lowLane c.eff)).toNat) : c.queueNo f = none :=
  if_neg (Nat.not_lt.2 h)

/-- A number up to 15 names its queue. -/
theorem queueNo_some {c : Ctx} {f : BitVec 9} (h : (c.opnd f (lowLane c.eff)).toNat < 16) :
    c.queueNo f = some (c.opnd f (lowLane c.eff)).toNat := if_pos h

/-! ### Pops -/

/-- A pop whose registers meet no hazard goes on (R176). -/
def popFree (t : State) (c : Ctx) (regs : List Nat) (go : Res) : Res :=
  match hazard (c.wave.live t.clk) [] regs with
  | some x => .raise ⟨0x06, 0, x⟩ c.eff t
  | none => go

/-- A pop leaves, its wave waits for `value`, and the entries of the push it has found are claimed (R267). -/
def popLeaves (t : State) (c : Ctx) (w : RWord) (q seq count value : Nat) (regs : List Nat) : State :=
  ((t.launch c (.pop q seq count w.d.toNat) regs).record c ⟨0x03, q, value⟩).updQueue c.id.core c.wave.wg q (fun d => { d with
    entries := d.entries.map (fun e => if count ≠ 0 ∧ e.group = seq then { e with claimed := true } else e) })

/-- What a pop does with the queue that its A names. -/
def popQueue (t : State) (c : Ctx) (w : RWord) (q : Nat) : Res :=
  let d := t.queue c.id.core c.wave.wg q
  match d.entries.find? (fun e => !e.claimed) with
  | some e =>
    let n := pushCount e.size e.scalar
    let regs := regsFrom w.d.toNat (popRegs e.size e.scalar)
    if popFits c.wg.vregs w.d.toNat e.size e.scalar then
      popFree t c regs (.done (popLeaves t c w q e.group n (e.group + n - 1) regs))
    else popFree t c [w.d.toNat] (.raise (queueRaise q) c.eff
      ((t.updQueue c.id.core c.wave.wg q (fun d => d.discard e.group)).levelFell c.id.core c.wave.wg))
  | none =>
    let first := d.next + (t.waitingPops c.id.core c.wave.wg q).length
    popFree t c (popCould c.wg.vregs w.d.toNat)
      (.done (popLeaves t c w q first 0 first (popCould c.wg.vregs w.d.toNat)))

/-- The issue of a pop (R267). -/
theorem exec_dqPop (w : RWord) (s : State) : exec (.dqPop w) s = issueWord (.dqPop w) s (fun c s =>
    if c.eff = 0#32 then .done (s.launch c (.result []) [w.d.toNat])
    else match c.queueNo w.a with
      | none => .raise c.valueFault c.eff s
      | some q => popQueue s c w q) := rfl

section
variable {w : RWord} {s t : State} {c : Ctx} {q : Nat}

/-- A pop that finds a push not yet claimed. -/
theorem popQueue_found {e : QEntry} (h : (t.queue c.id.core c.wave.wg q).entries.find? (fun e => !e.claimed) = some e) :
    popQueue t c w q =
      let n := pushCount e.size e.scalar
      let regs := regsFrom w.d.toNat (popRegs e.size e.scalar)
      if popFits c.wg.vregs w.d.toNat e.size e.scalar then
        popFree t c regs (.done (popLeaves t c w q e.group n (e.group + n - 1) regs))
      else popFree t c [w.d.toNat] (.raise (queueRaise q) c.eff
        ((t.updQueue c.id.core c.wave.wg q (fun d => d.discard e.group)).levelFell c.id.core c.wave.wg)) := by
  rw [popQueue, h]

/-- A pop that waits for the next push. -/
theorem popQueue_waits (h : (t.queue c.id.core c.wave.wg q).entries.find? (fun e => !e.claimed) = none) :
    popQueue t c w q =
      let first := (t.queue c.id.core c.wave.wg q).next + (t.waitingPops c.id.core c.wave.wg q).length
      popFree t c (popCould c.wg.vregs w.d.toNat)
        (.done (popLeaves t c w q first 0 first (popCould c.wg.vregs w.d.toNat))) := by
  rw [popQueue, h]

/-- No register of the pop stands in the pending-write set. -/
theorem popFree_none {regs : List Nat} {go : Res} (h : hazard (c.wave.live t.clk) [] regs = none) : popFree t c regs go = go := by
  rw [popFree, h]

/-- A register of the pop stands in the pending-write set (R176). -/
theorem popFree_some {regs : List Nat} {go : Res} {x : Nat} (h : hazard (c.wave.live t.clk) [] regs = some x) :
    popFree t c regs go = .raise ⟨0x06, 0, x⟩ c.eff t := by
  rw [popFree, h]

/-- The body of a pop whose A names a queue. -/
theorem pop_named (he : c.eff ≠ 0#32) (hq : (c.opnd w.a (lowLane c.eff)).toNat < 16) (s : State) {x : Res}
    (h : popQueue s c w (c.opnd w.a (lowLane c.eff)).toNat = x) :
    (if c.eff = 0#32 then .done (s.launch c (.result []) [w.d.toNat])
      else match c.queueNo w.a with
        | none => .raise c.valueFault c.eff s
        | some q => popQueue s c w q) = x := by
  rw [if_neg he, queueNo_some hq]
  exact h

/-- The entries of a push claimed by the pop that has found it. -/
theorem popLeaves_found (e n value : Nat) (regs : List Nat) (hn : 0 < n) : popLeaves t c w q e n value regs =
    ((t.launch c (.pop q e n w.d.toNat) regs).record c ⟨0x03, q, value⟩).updQueue c.id.core c.wave.wg q
      (fun d => { d with entries := d.entries.map (fun x => if x.group = e then { x with claimed := true } else x) }) := by
  simp only [popLeaves, ne_eq, Nat.ne_of_gt hn, not_false_eq_true, true_and]

end

/-! ### Configuration -/

/-- The depth that a configuration asks for does not fit: beyond 64, an entry stands in a queue, or the area is too small (R268). -/
theorem cfg_refused {t : State} {c : Ctx} {q depth area : Nat} :
    (64 < depth || (List.range 16).any (fun i => decide ((t.queue c.id.core c.wave.wg i).entries ≠ [])) ||
      decide (area < 128 * (List.range 16).foldl (fun a i =>
        a + (if i = q then depth else (t.queue c.id.core c.wave.wg i).depth)) 0)) = true ↔
    64 < depth ∨ (∃ i, i < 16 ∧ (t.queue c.id.core c.wave.wg i).entries ≠ []) ∨
      area < 128 * ((List.range 16).map (fun i => if i = q then depth else (t.queue c.id.core c.wave.wg i).depth)).sum := by
  rw [List.sum_eq_foldl, List.foldl_map]
  simp only [Bool.or_eq_true, decide_eq_true_eq, List.any_eq_true, List.mem_range, or_assoc]

/-! ### The words -/

/-- Settles O24: a pop claims its push or waits for the next, a queue is configured while all are empty, and its level is read. -/
theorem queueWords : Obligations.QueueWords := by
  unfold Obligations.QueueWords
  intro w s c he q
  refine ⟨fun hi => ?_, fun i hmem hi hq => ?_, fun hi hq => ?_, fun hi hq => ?_⟩
  · intro t d live
    refine ⟨fun hq => ?_, fun hq e hfind => ?_, fun hq hfind => ?_⟩
    · refine issueWord_raise hi ((if_neg he).trans ?_)
      rw [queueNo_none hq]
      rfl
    · intro n regs
      refine ⟨fun hfit => ⟨fun hz => ?_, fun x hz => ?_⟩, fun hfit x hz => ?_, fun hfit hz hn => ?_⟩
      · refine issueWord_raise hi (pop_named he hq _ ((popQueue_found hfind).trans ((if_neg ?_).trans (popFree_none hz))))
        rw [hfit]
        exact Bool.false_ne_true
      · refine issueWord_raise hi (pop_named he hq _ ((popQueue_found hfind).trans ((if_neg ?_).trans (popFree_some hz))))
        rw [hfit]
        exact Bool.false_ne_true
      · exact issueWord_raise hi (pop_named he hq _ ((popQueue_found hfind).trans ((if_pos hfit).trans (popFree_some hz))))
      · refine issueWord_done hi (pop_named he hq _ ((popQueue_found hfind).trans ((if_pos hfit).trans ((popFree_none hz).trans ?_))))
        exact congrArg Res.done (popLeaves_found _ _ _ _ hn)
    · intro first
      refine ⟨fun x hz => ?_, fun hz => ⟨_, issueWord_done hi (pop_named he hq _ ((popQueue_waits hfind).trans (popFree_none hz))), ?_⟩⟩
      · exact issueWord_raise hi (pop_named he hq _ ((popQueue_waits hfind).trans (popFree_some hz)))
      · exact wave_updWg ..
  · simp only [List.mem_cons, List.not_mem_nil, or_false] at hmem
    rcases hmem with rfl | rfl
    · refine issueWord_raise hi ((if_neg he).trans ?_)
      rw [queueNo_none hq]
      rfl
    · refine issueWord_raise hi ((if_neg he).trans ?_)
      rw [queueNo_none hq]
      rfl
  · intro t depth total
    refine ⟨fun h => ?_, fun hd hempty harea => ?_⟩
    · refine issueWord_raise hi ((if_neg he).trans ?_)
      rw [queueNo_some hq]
      exact if_pos (cfg_refused.2 h)
    · refine issueWord_done hi ((if_neg he).trans ?_)
      rw [queueNo_some hq]
      refine if_neg fun h => ?_
      rcases cfg_refused.1 h with h | ⟨i, hi, h⟩ | h
      · exact Nat.not_lt.2 hd h
      · exact h (hempty i hi)
      · exact Nat.not_lt.2 harea h
  · refine issueWord_done hi ((if_neg he).trans ?_)
    rw [queueNo_some hq]
    rfl

end Sys2Proof.Laws
end


section
/-!
PROOF. Copies, gathers, chains and trims as words (R280, R283 to R287).
-/

namespace Sys2Proof.Laws
open Sys2Proof.Machine Sys2Proof.Claims

/-- A word of a path that waits is tried again (R126). -/
theorem exec_of_wait {i : Instr} {s t : State} {c : Ctx} {body : Ctx → State → Res} (hi : Issues i s c)
    (hexec : exec i s = issueWord i s body) (hb : body c (checked i s c) = t.wait) : exec i s = .next (t.stall t.cur) :=
  hexec.trans (issueWord_stay hi hb)

/-! ### Copies and gathers -/

/-- A wave presents its slice and waits for the decision (R280). -/
theorem xcopy_presents {w : MWord} {s : State} {c : Ctx} (hon : OnPath (.xcopy w) s c 1) :
    let t := checked (.xcopy w) s c
    let off := (c.wave.opnd (w.gbase.field + 1) 0 ++ c.wave.opnd w.gbase.field 0 : Dword).toInt + (w.imm.extractLsb' 0 14).toInt
    exec (.xcopy w) s = .next (((t.updWave c.id (fun v => { v with
      slice := some ⟨w.size, (w.imm.extractLsb' 14 3).toNat, w.seg.toNat, off, (c.wave.sreg w.immHi).toNat, (c.sreg w.d 0).toNat, c.pc, c.m⟩
      lastIssue := t.clk })).copyDecide c.id.core c.wave.wg)) := by
  intro t off
  obtain ⟨hi, hp⟩ := hon
  have hoff : c.goff w (immLow w 14) 0 = off := by rw [goff_eq, immLow_eq_toInt]
  rw [← hoff]
  exact issueWord_stay hi (onPath_free hp _ _)

section gather
variable {w : MWord} {s : State} {c : Ctx}

/-- The addresses of a gather's rows, piece by piece, or the faults of its lanes (R284). -/
def gatherRows (c : Ctx) (w : MWord) (len : Nat) : List (Nat × Except Raise Nat) :=
  c.lanes.flatMap (fun l => match segCheck (sget 0#128 c.wave.segs w.seg.toNat) (c.goff w (w.imm.extractLsb' 0 17).toInt l) len 1 .load with
    | .error r => [(l, (Except.error r : Except Raise Nat))]
    | .ok va => (rowPieces va len).map (fun p => (l, (Except.ok p : Except Raise Nat))))

/-- A gather whose length is in order: its run is checked as one local access, then its rows (R284). -/
def gatherRun (t : State) (c : Ctx) (w : MWord) (len base : Nat) : Res :=
  match localCheck (c.wg.usable .ab) (spaceCode .ab) base (32 * len) with
  | some r => .raise r c.eff t
  | none => (t.access c false false .load (gatherRows c w len)).then (fun accs s =>
      .done ((({ s with tags := s.tags + 1 } : State).launch c (.gather s.tags (c.wg.ab.start + base) len (plainAccs accs)) []).updWave c.id
        (fun v => { v with openBatch := v.openBatch ++ [s.tags] })))

/-- A gather whose run lies in the A-buffer. -/
theorem gatherRun_checked (t : State) (c : Ctx) (w : MWord) {len base : Nat}
    (h : localCheck (c.wg.usable .ab) (spaceCode .ab) base (32 * len) = none) : gatherRun t c w len base =
      (t.access c false false .load (gatherRows c w len)).then (fun accs s =>
        .done ((({ s with tags := s.tags + 1 } : State).launch c (.gather s.tags (c.wg.ab.start + base) len (plainAccs accs)) []).updWave
          c.id (fun v => { v with openBatch := v.openBatch ++ [s.tags] }))) := by
  rw [gatherRun, h]

/-- The issue of a gather. -/
theorem exec_gather (w : MWord) (s : State) : exec (.gather w) s = issueWord (.gather w) s (fun c s => c.onPath 3 s (fun s =>
    let len := (c.wave.sreg w.immHi).toNat
    if c.eff = 0#32 then .done s
    else if len % 64 ≠ 0 ∨ len = 0 ∨ 1024 < len then .raise c.valueFault c.eff s
    else gatherRun s c w len (c.sreg w.d 0).toNat)) := by
  simp only [gatherRun, gatherRows, ← immLow_eq_toInt]
  rfl

/-- The body of a gather with lanes, whose length is in order. -/
theorem gather_body (hp : c.wave.fencedTo 3 = false) (he : c.eff ≠ 0#32) (hlen : (c.wave.sreg w.immHi).toNat % 64 = 0)
    (hpos : 0 < (c.wave.sreg w.immHi).toNat) (hmax : (c.wave.sreg w.immHi).toNat ≤ 1024) (t : State) :
    c.onPath 3 t (fun s =>
      let len := (c.wave.sreg w.immHi).toNat
      if c.eff = 0#32 then .done s
      else if len % 64 ≠ 0 ∨ len = 0 ∨ 1024 < len then .raise c.valueFault c.eff s
      else gatherRun s c w len (c.sreg w.d 0).toNat) = gatherRun t c w (c.wave.sreg w.immHi).toNat (c.sreg w.d 0).toNat :=
  (onPath_free hp _ _).trans ((if_neg he).trans (if_neg (by omega)))

/-- A gather is checked, then leaves (R284). -/
theorem gather_word (hon : OnPath (.gather w) s c 3) (he : c.eff ≠ 0#32) :
    let t := checked (.gather w) s c
    let len := (c.wave.sreg w.immHi).toNat
    let base := (c.sreg w.d 0).toNat
    (len % 64 ≠ 0 ∨ len = 0 ∨ 1024 < len → Raises (.gather w) s c ⟨0x03, 8, c.word.toNat⟩ c.eff) ∧
    (len % 64 = 0 → 0 < len → len ≤ 1024 →
      (c.wg.ab.len < base + 32 * len → Raises (.gather w) s c ⟨0x0B, 0, base + 2 * 2 ^ 60⟩ c.eff) ∧
      (base + 32 * len ≤ c.wg.ab.len → base % (32 * len) ≠ 0 → Raises (.gather w) s c ⟨0x0C, 0, base + 2 * 2 ^ 60⟩ c.eff) ∧
      (base % (32 * len) = 0 → base + 32 * len ≤ c.wg.ab.len →
        Accesses (.gather w) s c (t.access c false false .load (gatherRows c w len)) (fun accs u =>
          let id := u.tags
          Completes (.gather w) s c ((({ u with tags := id + 1 }).launch c
            (.gather id (c.wg.ab.start + base) len (plainAccs accs)) []).updWave c.id
            (fun v => { v with openBatch := v.openBatch ++ [id] }))))) := by
  intro t len base
  obtain ⟨hi, hp⟩ := hon
  refine ⟨fun h => (exec_gather w s).trans (issueWord_raise hi ((onPath_free hp _ _).trans ((if_neg he).trans (if_pos h)))),
    fun hlen hpos hmax => ⟨fun h => ?_, fun h halign => ?_, fun halign h => ?_⟩⟩
  · refine (exec_gather w s).trans (issueWord_raise hi ((gather_body hp he hlen hpos hmax _).trans ?_))
    rw [gatherRun, show localCheck (c.wg.usable .ab) (spaceCode .ab) _ _ = _ from if_pos h]
    rfl
  · refine (exec_gather w s).trans (issueWord_raise hi ((gather_body hp he hlen hpos hmax _).trans ?_))
    rw [gatherRun, show localCheck (c.wg.usable .ab) (spaceCode .ab) _ _ = _ from (if_neg (Nat.not_lt.2 h)).trans (if_pos halign)]
    rfl
  · have hrun := gatherRun_checked t c w (localCheck_passes h halign)
    refine issueWord_access hi (exec_gather w s) ((gather_body hp he hlen hpos hmax _).trans hrun) fun accs u ha => ?_
    exact (exec_gather w s).trans (issueWord_done hi ((gather_body hp he hlen hpos hmax _).trans (hrun.trans
      (congrArg (Access.then · _) ha))))

end gather

/-! ### Chains -/

section chain
variable {w : MWord} {s : State} {c : Ctx}

/-- `chain.add` behind a synchronisation word waits (R286). -/
theorem chainAdd_waits (hon : OnPath (.chainAdd w) s c 0) (hb : c.wave.blocked = true) : exec (.chainAdd w) s = .next
    ((checked (.chainAdd w) s c).stall (checked (.chainAdd w) s c).cur) := by
  obtain ⟨hi, hp⟩ := hon
  exact exec_of_wait hi rfl ((onPath_free hp _ _).trans (if_pos hb))

/-- What `chain.add` does once its descriptor's sixteen words have left its core's L1 (R286, R127). -/
def chainAppend (c : Ctx) (w : MWord) (a : LaneAcc) (u : State) : Res :=
  if u.heldAt a.pa 64 then u.wait else
  let d := BitVec.ofNat 512 (u.homeNat a.pa 64)
  let num := bitsN d 442 437
  let tail := bitsN d 383 352
  let size := 2 ^ bitsN d 447 443
  match u.chainOf c.wg.part c.wg.vf num with
  | none => .raise ⟨0x1A, 2, a.va % 2 ^ 60⟩ c.eff u
  | some _ =>
    if (tail + 2 ^ 32 - bitsN d 351 320) % 2 ^ 32 = size then .raise ⟨0x1A, 1, a.va % 2 ^ 60⟩ c.eff u
    else (u.access c false true .store [(a.lane, .ok (bitsN d 511 448 + 64 * (tail % size)))]).then (fun es v =>
      match es with
      | [] => .done v
      | (e, _) :: _ => .done ((((v.yieldWords c.id.core ((List.range 16).map (fun i => e.pa / 4 + i))).register .engine c.wg.ctx
          (byteList e.pa (c.chainEntry w.d))).register .engine c.wg.ctx (byteList (a.pa + 44) (bytesOfNat ((tail + 1) % 2 ^ 32) 4))).updWg
          c.id.core c.wave.wg (fun g => { g with
            appended := g.appended.filter (fun x => decide (x.1 ≠ num)) ++ [(num, (tail + 1) % 2 ^ 32)] })))

/-- The issue of `chain.add`. -/
theorem exec_chainAdd (w : MWord) (s : State) : exec (.chainAdd w) s = issueWord (.chainAdd w) s (fun c s => c.onPath 0 s (fun s =>
    if c.wave.blocked then s.wait else
    (s.access c false true .store (c.gaddrs w (immAll w) true 64 64 .store)).then (fun accs s => match accs with
      | [] => .done s
      | (a, _) :: _ => chainAppend c w a ((s.performAll c.id none).yieldWords c.id.core ((List.range 16).map (fun i => a.pa / 4 + i)))))) := by
  refine congrArg (issueWord _ s) (funext fun c => funext fun s => congrArg (c.onPath 0 s) (funext fun s => if_congr Iff.rfl rfl
    (congrArg (Access.then _) (funext fun accs => funext fun s => ?_))))
  split
  · rfl
  · unfold chainAppend
    refine if_congr Iff.rfl rfl ?_
    dsimp only [Ctx.core]
    generalize State.chainOf _ _ _ _ = x
    cases x <;> rfl

/-- The body of a `chain.add` whose descriptor translates. -/
theorem chainAdd_body {t u : State} {a : LaneAcc} {d : Bool} {rest : List (LaneAcc × Bool)} (hp : c.wave.fencedTo 0 = false)
    (hb : c.wave.blocked = false)
    (ha : t.access c false true .store (globalAddrs c w w.imm.toInt true 64 .store) = .ready ((a, d) :: rest) u) :
    c.onPath 0 t (fun s => if c.wave.blocked then s.wait else
      (s.access c false true .store (c.gaddrs w (immAll w) true 64 64 .store)).then (fun accs s => match accs with
        | [] => .done s
        | (a, _) :: _ => chainAppend c w a ((s.performAll c.id none).yieldWords c.id.core
            ((List.range 16).map (fun i => a.pa / 4 + i))))) =
      chainAppend c w a ((u.performAll c.id none).yieldWords c.id.core ((List.range 16).map (fun i => a.pa / 4 + i))) := by
  rw [← gaddrs_eq] at ha
  simp only [onPath_free hp, hb, Bool.false_eq_true, if_false, immAll, ha, Access.then]

/-- `chain.add` appends to a chain of its function that is not full (R286). -/
theorem chainAdd_appends (hon : OnPath (.chainAdd w) s c 0) (hb : c.wave.blocked = false) : ∀ a d rest u,
    (checked (.chainAdd w) s c).access c false true .store (globalAddrs c w w.imm.toInt true 64 .store) = .ready ((a, d) :: rest) u →
    let u := (u.performAll c.id none).yieldWords c.id.core ((List.range 16).map (fun i => a.pa / 4 + i))
    (u.heldAt a.pa 64 = true → exec (.chainAdd w) s = .next (u.stall u.cur)) ∧
    (u.heldAt a.pa 64 = false →
    let desc := BitVec.ofNat 512 (u.homeNat a.pa 64)
    let num := bitsN desc 442 437
    let tail := bitsN desc 383 352
    let size := 2 ^ bitsN desc 447 443
    (u.chainOf c.wg.part c.wg.vf num = none → exec (.chainAdd w) s = .next (u.raiseAt c ⟨0x1A, 2, a.va % 2 ^ 60⟩ c.eff)) ∧
    (u.chainOf c.wg.part c.wg.vf num ≠ none → (tail + 2 ^ 32 - bitsN desc 351 320) % 2 ^ 32 = size →
      exec (.chainAdd w) s = .next (u.raiseAt c ⟨0x1A, 1, a.va % 2 ^ 60⟩ c.eff)) ∧
    (u.chainOf c.wg.part c.wg.vf num ≠ none → (tail + 2 ^ 32 - bitsN desc 351 320) % 2 ^ 32 ≠ size → ∀ e f more v,
      u.access c false true .store [(a.lane, .ok (bitsN desc 511 448 + 64 * (tail % size)))] = .ready ((e, f) :: more) v →
      Completes (.chainAdd w) s c ((((v.yieldWords c.id.core ((List.range 16).map (fun i => e.pa / 4 + i))).register .engine c.wg.ctx
        (byteList e.pa (c.chainEntry w.d))).register .engine c.wg.ctx (byteList (a.pa + 44) (bytesOfNat ((tail + 1) % 2 ^ 32) 4))).updWg
        c.id.core c.wave.wg (fun g => { g with
          appended := g.appended.filter (fun x => decide (x.1 ≠ num)) ++ [(num, (tail + 1) % 2 ^ 32)] })))) := by
  intro a d rest u0 ha u
  obtain ⟨hi, hp⟩ := hon
  refine ⟨fun hheld => ?_, fun hfree => ?_⟩
  · exact exec_of_wait hi (exec_chainAdd w s) ((chainAdd_body hp hb ha).trans (if_pos hheld))
  · have hfree' : ¬ u.heldAt a.pa 64 = true := by rw [hfree]; exact Bool.false_ne_true
    intro desc num tail size
    refine ⟨fun hnone => ?_, fun hsome hfull => ?_, fun hsome hroom e f more v he => ?_⟩
    · refine (exec_chainAdd w s).trans (issueWord_raise hi ((chainAdd_body hp hb ha).trans ((if_neg hfree').trans ?_)))
      dsimp only
      rw [hnone]
    · obtain ⟨x, hx⟩ := Option.ne_none_iff_exists'.1 hsome
      refine (exec_chainAdd w s).trans (issueWord_raise hi ((chainAdd_body hp hb ha).trans ((if_neg hfree').trans ?_)))
      dsimp only
      rw [hx]
      exact if_pos hfull
    · obtain ⟨x, hx⟩ := Option.ne_none_iff_exists'.1 hsome
      refine (exec_chainAdd w s).trans (issueWord_done hi ((chainAdd_body hp hb ha).trans ((if_neg hfree').trans ?_)))
      dsimp only
      rw [hx]
      exact (if_neg hroom).trans (congrArg (Access.then · _) he)

end chain

/-! ### Trims -/

section trim
variable {w : MWord} {s : State} {c : Ctx}

/-- The pages of a trim: those of the reservation past the new length (R287). -/
def trimPages (va new res : Nat) : List Nat :=
  (List.range (res / 65536 - (new + 65535) / 65536)).map (fun i => va + ((new + 65535) / 65536 + i) * 65536)

/-- A page of a trim that has no GROW leaves (R287). -/
def notGrow (t : State) (vf p : Nat) : Bool := match t.leafGroup vf p with
  | none => true
  | some a => (t.groupLeaves a).any (fun e => !pteGrow e)

/-- The trims of the pages in turn, and how many were mapped (R110). -/
def trimAll (c : Ctx) (t : State) (pages : List Nat) : Nat × State :=
  pages.foldl (fun (acc : Nat × State) p =>
    let r := acc.2.trimPage c.wg.part c.wg.vf c.wg.ctx p
    (if r.1 then acc.1 + 1 else acc.1, r.2)) (0, t)

/-- A page with GROW leaves passes. -/
theorem notGrow_false {t : State} {vf p : Nat} (h : ∃ a, t.leafGroup vf p = some a ∧ ∀ e ∈ t.groupLeaves a, pteGrow e = true) :
    notGrow t vf p = false := by
  obtain ⟨a, ha, hg⟩ := h
  simp only [notGrow, ha]
  exact List.any_eq_false.2 fun e he => by rw [hg e he]; exact Bool.false_ne_true

/-- The issue of `kvtrim`. -/
theorem exec_kvtrim (w : MWord) (s : State) : exec (.kvtrim w) s = issueWord (.kvtrim w) s (fun c s => c.onPath 0 s (fun s =>
    let word := fun (i : Nat) => c.wave.opnd (0x100 + w.immHi + i) 0
    let new := pair64 (word 0) (word 1)
    let res := pair64 (word 2) (word 3)
    let off := c.goff w (immLow w 17) 0
    let va := wrapInt 64 ((segBase (c.seg w) : Int) + off)
    if c.eff = 0#32 then .done (s.launch c (.result []) [w.d.toNat])
    else if c.wave.blocked then s.wait
    else if va % 65536 ≠ 0 ∨ res % 65536 ≠ 0 then .raise ⟨0x0C, 0, va⟩ c.eff s
    else if (c.seg w).getLsbD 125 = false then .raise ⟨0x0E, 5, va⟩ c.eff s
    else if segValid (c.seg w) = false ∨ off < 0 ∨ (segLimit (c.seg w) : Int) < off + res then .raise ⟨0x0A, 0, va⟩ c.eff s
    else match (trimPages va new res).find? (notGrow s c.wg.vf) with
      | some p => .raise ⟨0x0D, 8, p⟩ c.eff s
      | none => .done ((trimAll c s (trimPages va new res)).2.launch c (.trim w.d.toNat (trimAll c s (trimPages va new res)).1) [w.d.toNat]))) :=
  rfl

/-- An address in a segment's range is not reduced modulo 2^64. -/
theorem wrapInt_segment {g : BitVec 128} {off : Int} {res : Nat} (h0 : 0 ≤ off) (hl : off + res ≤ segLimit g)
    (hmax : segBase g + segLimit g ≤ 2 ^ 60) : wrapInt 64 ((segBase g : Int) + off) = segBase g + off.toNat := by
  rw [wrapInt, Int.emod_eq_of_lt (by omega) (by push_cast; omega)]
  omega

/-- A trim whose pages are reserved trims them (R287). -/
theorem kvtrim_trims (hon : OnPath (.kvtrim w) s c 0) (he : c.eff ≠ 0#32) (hb : c.wave.blocked = false) :
    let t := checked (.kvtrim w) s c
    let word := fun (i : Nat) => c.wave.opnd (0x100 + w.immHi + i) 0
    let new := (word 1 ++ word 0 : Dword).toNat
    let res := (word 3 ++ word 2 : Dword).toNat
    let g := sget 0#128 c.wave.segs w.seg.toNat
    let off := c.goff w (w.imm.extractLsb' 0 17).toInt 0
    let va := segBase g + off.toNat
    let pages := trimPages va new res
    segValid g = true → segPermits g .store = true → 0 ≤ off → off + res ≤ segLimit g → segBase g + segLimit g ≤ 2 ^ 60 →
    va % 65536 = 0 → res % 65536 = 0 →
    (∀ p ∈ pages, ∃ a, t.leafGroup c.wg.vf p = some a ∧ ∀ e ∈ t.groupLeaves a, pteGrow e = true) →
    Completes (.kvtrim w) s c ((trimAll c t pages).2.launch c (.trim w.d.toNat (trimAll c t pages).1) [w.d.toNat]) := by
  intro t word new res g off va pages hv hperm h0 hl hmax hva hres hpages
  obtain ⟨hi, hp⟩ := hon
  have hnone : pages.find? (notGrow t c.wg.vf) = none :=
    List.find?_eq_none.2 fun p hp => by rw [notGrow_false (hpages p hp)]; exact Bool.false_ne_true
  refine (exec_kvtrim w s).trans (issueWord_done hi ((onPath_free hp _ _).trans ?_))
  dsimp only
  simp only [pair64_eq_toNat, immLow_eq_toInt]
  rw [show wrapInt 64 ((segBase (c.seg w) : Int) + c.goff w (w.imm.extractLsb' 0 17).toInt 0) = va from wrapInt_segment h0 hl hmax,
    if_neg he, if_neg (by rw [hb]; exact Bool.false_ne_true)]
  refine (if_neg ?_).trans ((if_neg ?_).trans ((if_neg ?_).trans ?_))
  · rintro (h | h)
    · exact h hva
    · exact h hres
  · exact fun h => Bool.false_ne_true (h.symm.trans hperm)
  · rintro (h | h | h)
    · exact Bool.false_ne_true (h.symm.trans hv)
    · exact Int.not_lt.2 h0 h
    · exact Int.not_lt.2 hl h
  · rw [hnone]

end trim

/-! ### Sealing, waiting and reading -/

/-- `cp.seal` closes the open batch, unless 64 wait (R283). -/
theorem cpSeal_word {w : RWord} {s : State} {c : Ctx} (hi : Issues (.cpSeal w) s c) (he : c.eff ≠ 0#32) :
    let t := checked (.cpSeal w) s c
    let live := c.wave.openBatch.any (fun i => t.memberLive c.id.core i)
    (live = false → Completes (.cpSeal w) s c (t.updWave c.id (fun v => { v with openBatch := [], openChan := none }))) ∧
    (live = true → c.wave.batches.length < 64 → Completes (.cpSeal w) s c (t.updWave c.id (fun v =>
      { v with batches := v.batches ++ [v.openBatch], openBatch := [], openChan := none }))) ∧
    (live = true → 64 ≤ c.wave.batches.length → Raises (.cpSeal w) s c ⟨0x16, 0, c.wave.openChan.getD 0⟩ c.eff) := by
  intro t live
  refine ⟨fun h => ?_, fun h hroom => ?_, fun h hfull => ?_⟩
  · exact issueWord_done hi ((if_neg he).trans (if_neg fun h' => Bool.false_ne_true (h.symm.trans h')))
  · exact issueWord_done hi ((if_neg he).trans ((if_pos h).trans (if_neg (Nat.not_le.2 hroom))))
  · refine issueWord_raise hi ((if_neg he).trans ((if_pos h).trans ((if_pos hfull).trans ?_)))
    rw [queueRaise]
    cases c.wave.openChan <;> rfl

/-- Settles O25: copies, gathers, chains and trims as words. -/
theorem copyAndChainWords : Obligations.CopyAndChainWords := by
  unfold Obligations.CopyAndChainWords
  refine ⟨fun w s c => ⟨xcopy_presents, gather_word, chainAdd_waits, chainAdd_appends, kvtrim_trims⟩, fun w s c he => ?_⟩
  intro n
  refine ⟨fun hi => cpSeal_word hi he, fun hi => ?_, fun hi hn => ?_, fun hi hn => ?_, fun hi hn => ?_, fun hi hn => ?_,
    fun i hmem hi hn => ?_, fun i hmem hi hn => ?_⟩
  · exact issueWord_done hi (congrArg Res.done (if_neg he))
  · exact issueWord_done hi ((if_neg he).trans (if_neg (Nat.not_le.2 hn)))
  · exact issueWord_done hi ((if_neg he).trans (if_neg (Nat.not_le.2 hn)))
  · exact issueWord_done hi ((if_neg he).trans (if_neg (Nat.not_le.2 hn)))
  · exact issueWord_done hi ((if_neg he).trans (if_neg (Nat.not_le.2 hn)))
  · simp only [List.mem_cons, List.not_mem_nil, or_false] at hmem
    rcases hmem with rfl | rfl
    · exact issueWord_raise hi ((if_neg he).trans (if_pos hn))
    · exact issueWord_raise hi ((if_neg he).trans (if_pos hn))
  · simp only [List.mem_cons, List.not_mem_nil, or_false] at hmem
    rcases hmem with rfl | rfl
    · exact issueWord_raise hi ((if_neg he).trans (if_pos hn))
    · exact issueWord_raise hi ((if_neg he).trans (if_pos hn))

end Sys2Proof.Laws
end


section
/-!
PROOF. Reservations, products, row operations, waits and program loads as words (R292 to R315).
-/

namespace Sys2Proof.Laws
open Sys2Proof.Machine Sys2Proof.Claims

/-! ### Admission -/

/-- The units of a core's commands. -/
theorem units_foldl (ks : List Cmd) : ks.foldl (fun a x => a + x.units) 0 = (ks.map (fun x => x.units)).sum := by
  rw [List.sum_eq_foldl, List.foldl_map]

/-- A word whose body admits a command (R296, R297). -/
theorem admits_of_command {i : Instr} {w : RWord} {s : State} {c : Ctx} {body : Ctx → State → Res} {op : CmdOp} {units : Nat}
    (hi : Issues i s c) (he : c.eff ≠ 0#32) (hexec : exec i s = issueWord i s body)
    (hb : body c (checked i s c) = c.command (checked i s c) w op units) : Admits i w s c op units := by
  refine ⟨fun h => hexec.trans (issueWord_done hi (hb.trans ((if_neg fun hfull => ?_).trans ?_))), fun h => ?_⟩
  · rw [units_foldl] at hfull
    obtain ⟨-, hfull⟩ := hfull
    obtain ⟨hlen, hunits⟩ := h
    rcases hfull with h' | h'
    · exact Nat.not_lt.2 h' hlen
    · exact Nat.not_le.2 h' hunits
  · rw [if_neg he]
    rfl
  · rw [← checked_cur i s c]
    refine hexec.trans (issueWord_stay hi (hb.trans (if_pos ⟨he, ?_⟩)))
    rw [units_foldl]
    rcases not_and_or.1 h with h' | h'
    · exact .inl (Nat.le_of_not_lt h')
    · exact .inr (Nat.lt_of_not_le h')

/-! ### Products -/

/-- No field of a quarter's head word lies above its slot (R310). -/
theorem bitsN_31_11 (x : Word) : bitsN x 31 11 = 0 ↔ x.toNat < 2 ^ 11 := by
  have hx := x.isLt
  simp only [bitsN]
  omega

/-- The first failure of a list of checks whose earlier entries pass. -/
theorem findSome_failed {α β : Type} {g : Except α β → Option α} (he : ∀ e, g (.error e) = some e) (ho : ∀ x, g (.ok x) = none)
    {f : Nat → Except α β} {qs : List Nat} {q : Nat} {r : α} (hsorted : qs.Pairwise (· < ·)) (hq : q ∈ qs) (hr : f q = .error r)
    (hok : ∀ p ∈ qs, p < q → ∃ x, f p = .ok x) : (qs.map f).findSome? g = some r := by
  induction qs with
  | nil => cases hq
  | cons p qs ih =>
    rw [List.map_cons, List.findSome?_cons]
    obtain ⟨hp, hs⟩ := List.pairwise_cons.1 hsorted
    rcases List.mem_cons.1 hq with rfl | hq'
    · rw [hr, he]
    · obtain ⟨x, hx⟩ := hok p List.mem_cons_self (hp q hq')
      rw [hx, ho]
      exact ih hs hq' fun p' hp' => hok p' (.tail _ hp')

/-- Checks that all pass have no failure. -/
theorem findSome_passes {α β : Type} {g : Except α β → Option α} (ho : ∀ x, g (.ok x) = none) (xs : List β) :
    (xs.map Except.ok).findSome? g = none :=
  List.findSome?_eq_none_iff.2 fun _ hx => by
    obtain ⟨x, -, rfl⟩ := List.mem_map.1 hx
    exact ho x

/-- The values of checks that all pass. -/
theorem filterMap_passes {α β : Type} {g : Except α β → Option β} (ho : ∀ x, g (.ok x) = some x) (xs : List β) :
    (xs.map Except.ok).filterMap g = xs := by
  induction xs with
  | nil => rfl
  | cons x xs ih => rw [List.map_cons, List.filterMap_cons, ho, ih]

/-- A product's quarters are checked in order, then admitted (R304, R310). -/
theorem product_of_exec {i : Instr} {w : RWord} {kind : Nat}
    (hexec : ∀ s, exec i s = issueWord i s (fun c s => c.product s w kind)) : Product i w kind := by
  intro s c hon he hhead
  obtain ⟨hi, hp⟩ := hon
  have hclean : ¬ (kind = 2 ∧ (quarters c).any (fun q => decide (bitsN (c.wave.opnd (w.c.toNat + 3) (8 * q)) 31 11 ≠ 0)) = true) := by
    rintro ⟨hk, h⟩
    obtain ⟨q, hq, h⟩ := List.any_eq_true.1 h
    exact of_decide_eq_true h ((bitsN_31_11 _).2 (hhead hk q hq))
  refine ⟨fun xs hxs => admits_of_command hi he (hexec s) ((onPath_free hp _ _).trans ((if_neg hclean).trans ?_)),
    fun q r hq hr hok => (hexec s).trans (issueWord_raise hi ((onPath_free hp _ _).trans ((if_neg hclean).trans ?_)))⟩
  · dsimp only
    rw [show (List.filter (fun q => c.eff.getLsbD (8 * q)) (List.range 4)).map
      (fun q => (checked i s c).quarterOp c w kind q) = xs.map .ok from hxs, findSome_passes fun _ => rfl, filterMap_passes fun _ => rfl]
    rfl
  · dsimp only
    rw [findSome_failed (fun _ => rfl) (fun _ => rfl) (List.Pairwise.filter _ List.pairwise_lt_range) hq hr hok]

/-! ### Row operations -/

/-- A tile in the C-buffer at a multiple of its alignment passes (R305). -/
theorem tileFail_none {g : Workgroup} {o len align : Nat} (ha : o % align = 0) (h : o + len ≤ g.cb.len) : tileFail g o len align = none :=
  (if_neg (not_not.2 ha)).trans (if_neg (Nat.not_lt.2 h))

section rows
variable {w : RWord} {s : State} {c : Ctx}

/-- `mrow` with both tiles in place is admitted (R311). -/
theorem mrow_admits (he : c.eff ≠ 0#32) (hon : OnPath (.mrow w) s c 2) (ha : one c w.a % 512 = 0) (hb : one c w.b % 256 = 0)
    (hl : one c w.a + 4096 ≤ c.wg.cb.len) :
    let sel := (w.mod.extractLsb' 0 2).toNat
    one c w.b + (if sel = 3 then 256 else if sel = 2 then 256 else 128) ≤ c.wg.cb.len →
    Admits (.mrow w) w s c (.rowStats sel (one c w.a) (one c w.b)) 8 := by
  intro sel hd
  obtain ⟨hi, hp⟩ := hon
  have hfit : (if sel = 2 then one c w.b + 128 else one c w.b) + (if sel = 3 then 256 else 128) ≤ c.wg.cb.len := by
    rcases eq_or_ne sel 2 with h2 | h2
    · rw [h2] at hd ⊢
      exact hd
    · rw [if_neg h2] at hd ⊢
      exact hd
  refine admits_of_command hi he rfl ((onPath_free hp _ _).trans ((if_neg (not_not.2 ha)).trans ((if_neg (not_not.2 hb)).trans
    ((if_neg (Nat.not_lt.2 hl)).trans (if_neg (Nat.not_lt.2 ?_))))))
  exact hfit

/-- `mscale` with its tile in place is admitted (R312). -/
theorem mscale_admits (he : c.eff ≠ 0#32) (hon : OnPath (.mscale w) s c 2) (ha : one c w.a % 512 = 0)
    (hl : one c w.a + 4096 ≤ c.wg.cb.len) :
    Admits (.mscale w) w s c (.scale (one c w.a) ((List.range 32).map (fun l => c.wave.vget w.b.toNat l))) 8 := by
  obtain ⟨hi, hp⟩ := hon
  refine admits_of_command hi he rfl ((onPath_free hp _ _).trans ?_)
  dsimp only
  rw [show tileFail c.wg (c.uni w.a).toNat 4096 512 = none from tileFail_none ha hl]
  rfl

/-- `mtrans` into a record of a plain format is admitted (R313). -/
theorem mtrans_admits (he : c.eff ≠ 0#32) (hon : OnPath (.mtrans w) s c 2) (ha : one c w.a % 512 = 0)
    (hl : one c w.a + 4096 ≤ c.wg.cb.len) {r : BitVec 128} (hr : c.handle (one c w.b / 2 ^ 28) = some r)
    (hrem : recRemote r = false) (hfmt : recFmt r ∈ [0x8, 0x9, 0xA]) (hblk : recBlk r = 0)
    (hspan : recSpan r (descRow (BitVec.ofNat 32 (one c w.b))) 32 (64 * descSeg (BitVec.ofNat 32 (one c w.b))) (4 * fmtBits (recFmt r)) = true) :
    Admits (.mtrans w) w s c (.transpose (w.mod.getLsbD 0) (one c w.a) (c.opnd w.b (lowLane c.eff)) r) 8 := by
  obtain ⟨hi, hp⟩ := hon
  have hd : BitVec.ofNat 32 (one c w.b) = c.uni w.b := (BitVec.ofNat_toNat _ _).trans (BitVec.setWidth_eq _)
  rw [hd] at hspan
  refine admits_of_command hi he rfl ((onPath_free hp _ _).trans ?_)
  dsimp only
  rw [show tileFail c.wg (c.uni w.a).toNat 4096 512 = none from tileFail_none ha hl,
    show c.handle ((c.uni w.b).toNat / 2 ^ 28) = some r from hr]
  refine (if_neg ?_).trans (if_neg ?_)
  · rw [hrem, hblk, List.contains_iff_mem.2 hfmt]
    decide
  · rw [hspan]
    exact Bool.noConfusion

/-- `mzero` with its tile in place is admitted (R314). -/
theorem mzero_admits (he : c.eff ≠ 0#32) (hon : OnPath (.mzero w) s c 2) (ha : one c w.a % 512 = 0)
    (hl : one c w.a + (if w.mod.getLsbD 0 then 16384 else 4096) ≤ c.wg.cb.len) :
    Admits (.mzero w) w s c (.zero (w.mod.getLsbD 0) (one c w.a)) (if w.mod.getLsbD 0 then 16 else 8) := by
  obtain ⟨hi, hp⟩ := hon
  refine admits_of_command hi he rfl ((onPath_free hp _ _).trans ?_)
  dsimp only
  rw [show tileFail c.wg (c.uni w.a).toNat (if w.mod.getLsbD 0 then 16384 else 4096) 512 = none from tileFail_none ha hl]
  rfl

end rows

/-! ### Handles -/

section handles
variable {w : RWord} {s : State} {c : Ctx}

/-- The record that four scalar registers hold. -/
theorem record_of_scalars (a b x y : Word) :
    BitVec.ofNat 128 (pair64 a b + 2 ^ 64 * pair64 x y) = (y ++ x ++ b ++ a : BitVec 128) := by
  refine BitVec.eq_of_toNat_eq ?_
  have ha := a.isLt
  have hb := b.isLt
  have hx := x.isLt
  have hy := y.isLt
  simp only [pair64, BitVec.toNat_ofNat, toNat_append_eq_add]
  omega

/-- What `mres` does with a record in order (R293). -/
def reserves (t : State) (c : Ctx) (w : RWord) (r : BitVec 128) : Res :=
  match (List.range 16).find? (fun h => (sget none c.wg.handles h).isNone), c.wg.tokensDeclared with
  | some h, _ + 1 =>
    .done ((t.updWg c.core c.wave.wg (fun g => { g with handles := sset none g.handles h (some ⟨r, false⟩) })).updWave c.id
      (fun v => v.sregSet (w.d.toNat - 0x100) (wd h)))
  | _, _ => .raise (handleRaise 0x11 0 0) c.eff t

/-- The issue of `mres`. -/
theorem exec_mres (w : RWord) (s : State) : exec (.mres w) s = issueWord (.mres w) s (fun c s =>
    if c.eff = 0#32 then .done s
    else match s.recordFail c (c.sreg w.a 3 ++ c.sreg w.a 2 ++ c.sreg w.a 1 ++ c.sreg w.a 0 : BitVec 128) with
      | some f => .raise f c.eff s
      | none => reserves s c w (c.sreg w.a 3 ++ c.sreg w.a 2 ++ c.sreg w.a 1 ++ c.sreg w.a 0 : BitVec 128)) := by
  simp only [← record_of_scalars]
  rfl

/-- The lowest free handle is bound. -/
theorem reserves_free {t : State} {r : BitVec 128} {h : Nat} (htok : 0 < c.wg.tokensDeclared) (hlt : h < 16)
    (hfree : sget none c.wg.handles h = none) (hlow : ∀ j, j < h → sget none c.wg.handles j ≠ none) : reserves t c w r =
      .done ((t.updWg c.core c.wave.wg (fun g => { g with handles := sset none g.handles h (some ⟨r, false⟩) })).updWave c.id
        (fun v => v.sregSet (w.d.toNat - 0x100) (wd h))) := by
  have hfind : (List.range 16).find? (fun h => (sget none c.wg.handles h).isNone) = some h :=
    List.find?_range_eq_some.2 ⟨by rw [hfree]; rfl, List.mem_range.2 hlt, fun j hj => by
      rw [Option.isNone_eq_false_iff.2 (Option.isSome_iff_ne_none.2 (hlow j hj))]
      rfl⟩
  obtain ⟨n, hn⟩ := Nat.exists_eq_succ_of_ne_zero (Nat.ne_of_gt htok)
  rw [reserves, hfind, hn]

/-- Without a free handle or a token nothing is reserved. -/
theorem reserves_refused {t : State} {r : BitVec 128} (h : (∀ h, h < 16 → sget none c.wg.handles h ≠ none) ∨ c.wg.tokensDeclared = 0) :
    reserves t c w r = .raise ⟨0x11, 0, 0⟩ c.eff t := by
  rcases h with h | h
  · have hfind : (List.range 16).find? (fun h => (sget none c.wg.handles h).isNone) = none :=
      List.find?_eq_none.2 fun j hj => by
        rw [Option.isNone_eq_false_iff.2 (Option.isSome_iff_ne_none.2 (h j (List.mem_range.1 hj)))]
        exact Bool.false_ne_true
    rw [reserves, hfind]
    rfl
  · rw [reserves, h]
    split
    · next h' => cases h'
    · rfl

/-- `mres` checks its record and binds the lowest free handle (R293). -/
theorem mres_word (he : c.eff ≠ 0#32) (hi : Issues (.mres w) s c) :
    let t := checked (.mres w) s c
    let r : BitVec 128 := c.sreg w.a 3 ++ c.sreg w.a 2 ++ c.sreg w.a 1 ++ c.sreg w.a 0
    (∀ f, t.recordFail c r = some f → Raises (.mres w) s c f c.eff) ∧
    (t.recordFail c r = none → 0 < c.wg.tokensDeclared → ∀ h, h < 16 → sget none c.wg.handles h = none →
      (∀ j, j < h → sget none c.wg.handles j ≠ none) →
      Completes (.mres w) s c ((t.updWg c.id.core c.wave.wg (fun g => { g with handles := sset none g.handles h (some ⟨r, false⟩) })).updWave
        c.id (fun v => v.sregSet (w.d.toNat - 0x100) (BitVec.ofNat 32 h)))) ∧
    (t.recordFail c r = none → (∀ h, h < 16 → sget none c.wg.handles h ≠ none) ∨ c.wg.tokensDeclared = 0 →
      Raises (.mres w) s c ⟨0x11, 0, 0⟩ c.eff) := by
  intro t r
  refine ⟨fun f hf => ?_, fun hf htok h hlt hfree hlow => ?_, fun hf hnone => ?_⟩
  · refine (exec_mres w s).trans (issueWord_raise hi ((if_neg he).trans ?_))
    rw [hf]
  · refine (exec_mres w s).trans (issueWord_done hi ((if_neg he).trans ?_))
    rw [hf]
    exact reserves_free htok hlt hfree hlow
  · refine (exec_mres w s).trans (issueWord_raise hi ((if_neg he).trans ?_))
    rw [hf]
    exact reserves_refused hnone

/-- `mfree` frees a bound handle (R295). -/
theorem mfree_word (he : c.eff ≠ 0#32) (hi : Issues (.mfree w) s c) (ha : one c w.a < 16) :
    (c.handle (one c w.a) = none → Raises (.mfree w) s c ⟨0x11, 0, one c w.a⟩ c.eff) ∧
    (∀ r, c.handle (one c w.a) = some r → Completes (.mfree w) s c (((checked (.mfree w) s c).updWg c.id.core c.wave.wg (fun g =>
      { g with handles := sset none g.handles (one c w.a) (some ⟨r, true⟩) })).sweepHandles c.id.core c.wave.wg)) := by
  refine ⟨fun h => ?_, fun r h => ?_⟩
  · refine issueWord_raise hi ((if_neg he).trans ((if_neg (Nat.not_le.2 ha)).trans ?_))
    rw [show c.handle (c.uni w.a).toNat = none from h]
    rfl
  · refine issueWord_done hi ((if_neg he).trans ((if_neg (Nat.not_le.2 ha)).trans ?_))
    rw [show c.handle (c.uni w.a).toNat = some r from h]
    rfl

end handles

/-! ### Waiting and program loads -/

section waits
variable {w : RWord} {s : State} {c : Ctx}

/-- The commands that a wait names: all of the wave, or those with an id (R306). -/
def awaited (t : State) (c : Ctx) (id : Option (BitVec 16)) : List Cmd :=
  (t.core c.id.core).cmds.filter (fun k => k.of c.id c.wave.wg && (match id with
    | some i => decide (k.id = i)
    | none => true))

/-- The id that a wait names, none for every command (R306). -/
def waitId (c : Ctx) (w : RWord) (all : Bool) : Option (BitVec 16) := if all then none else some ((c.uni w.a).extractLsb' 0 16)

/-- The low half of a word as a number. -/
theorem toNat_low16 (x : Word) : (x.extractLsb' 0 16).toNat = x.toNat % 65536 := by
  rw [BitVec.extractLsb'_toNat, Nat.shiftRight_zero]

/-- A command's id is the one that a wait names. -/
theorem id_eq_low16 (i : BitVec 16) (x : Word) : i = x.extractLsb' 0 16 ↔ i.toNat = x.toNat % 65536 := by
  rw [← toNat_low16, BitVec.toNat_inj]

/-- The commands that a wait names, by number (R306). -/
theorem awaited_eq (t : State) (c : Ctx) (w : RWord) (all : Bool) : awaited t c (waitId c w all) =
    (t.core c.id.core).cmds.filter (fun k => decide (k.w = c.id) && decide (k.wg = c.wave.wg) &&
      (all || decide (k.id.toNat = one c w.a % 65536))) := by
  refine List.filter_congr fun k _ => congrArg (k.of c.id c.wave.wg && ·) ?_
  cases all with
  | true => rfl
  | false => exact decide_eq_decide.2 (id_eq_low16 k.id (c.uni w.a))

/-- A kept failure is one that a wait names (R354). -/
theorem waits_for_failure (c : Ctx) (w : RWord) (all : Bool) (cmd : Nat) :
    ((waitId c w all).isNone || decide (waitId c w all = some (BitVec.ofNat 16 cmd))) = true ↔
      all = true ∨ one c w.a % 65536 = cmd % 65536 := by
  cases all with
  | true => simp [waitId]
  | false =>
    have h : (c.uni w.a).extractLsb' 0 16 = BitVec.ofNat 16 cmd ↔ one c w.a % 65536 = cmd % 65536 := by
      rw [eq_comm, id_eq_low16, BitVec.toNat_ofNat, eq_comm]
      rfl
    simp [waitId, h]

/-- A wait that meets no ladder command leaves, or raises the kept failure that it awaits (R306, R354). -/
theorem mwait_of_exec {i : Instr} {body : Ctx → State → Res} (all : Bool) (he : c.eff ≠ 0#32) (hexec : exec i s = issueWord i s body)
    (hb : body c (checked i s c) = c.mwait (checked i s c) (waitId c w all)) (hi : Issues i s c) :
    let t := checked i s c
    let mine := (t.core c.id.core).cmds.filter (fun k => decide (k.w = c.id) && decide (k.wg = c.wave.wg) &&
      (all || decide (k.id.toNat = one c w.a % 65536)))
    ((∃ k ∈ mine, k.op.ladder = true) → exec i s = .next (t.stall s.cur)) ∧
    ((∀ k ∈ mine, k.op.ladder = false) → (∀ cmd reason, c.wave.ladderFail = some (cmd, reason) →
        all = false ∧ one c w.a % 65536 ≠ cmd % 65536) →
      Completes i s c (t.launch c (.mwait (mine.map (fun k => k.num))) [flagsReg])) ∧
    ((∀ k ∈ mine, k.op.ladder = false) → ∀ cmd reason, c.wave.ladderFail = some (cmd, reason) →
      all = true ∨ one c w.a % 65536 = cmd % 65536 →
      exec i s = .next ((t.updWave c.id (fun v => { v with ladderFail := none })).raiseAt c ⟨0x14, 0, cmd + reason * 2 ^ 16⟩ c.eff)) := by
  intro t mine
  have hmine : awaited t c (waitId c w all) = mine := awaited_eq t c w all
  have hbody : body c t = c.mwait t (waitId c w all) := hb
  rw [Ctx.mwait, if_neg he] at hbody
  have hany (h : ∀ k ∈ mine, k.op.ladder = false) : ¬ (awaited t c (waitId c w all)).any (fun k => k.op.ladder) = true := by
    rw [hmine, Bool.not_eq_true, List.any_eq_false]
    exact fun k hk => by rw [h k hk]; exact Bool.false_ne_true
  refine ⟨fun h => ?_, fun h hfail => ?_, fun h cmd reason hfail haw => ?_⟩
  · rw [← checked_cur i s c]
    obtain ⟨k, hk, hl⟩ := h
    have hk : k ∈ awaited t c (waitId c w all) := by
      rw [hmine]
      exact hk
    exact hexec.trans (issueWord_stay hi (hbody.trans (if_pos (List.any_eq_true.2 ⟨k, hk, hl⟩))))
  · refine hexec.trans (issueWord_done hi (hbody.trans ((if_neg (hany h)).trans ?_)))
    rw [← hmine]
    cases hl : c.wave.ladderFail with
    | none => rfl
    | some f =>
      obtain ⟨cmd, reason⟩ := f
      refine if_neg fun h' => ?_
      obtain ⟨hall, hne⟩ := hfail cmd reason hl
      rcases (waits_for_failure c w all cmd).1 h' with h' | h'
      · exact Bool.false_ne_true (hall.symm.trans h')
      · exact hne h'
  · refine hexec.trans (issueWord_raise hi (hbody.trans ((if_neg (hany h)).trans ?_)))
    rw [hfail]
    exact if_pos ((waits_for_failure c w all cmd).2 haw)

/-- A program's image is fetched into a slot that is free or of the workgroup (R307). -/
theorem smpLd_word (he : c.eff ≠ 0#32) (hi : Issues (.smpLd w) s c) (ha : one c w.a < 8) :
    let t := checked (.smpLd w) s c
    let o := (c.sreg w.b 0).toNat
    let slot := sget SmpSlot.empty (t.core c.id.core).smp (one c w.a)
    let g := sget 0#128 c.wave.segs 15
    (slot.state = .free ∨ slot.tag = c.wave.wg) → slot.state ≠ .loading →
    (∀ k ∈ (t.core c.id.core).cmds, ∀ z qs, k.op = .product 2 z qs → ∀ q ∈ qs, bitsN q.head 10 8 ≠ one c w.a) →
    o % 32 = 0 → segValid g = true → 8 * o + 256 ≤ segLimit g →
    Completes (.smpLd w) s c ((t.updCore c.id.core (fun k => { k with
      smp := sset SmpSlot.empty k.smp (one c w.a) ⟨.loading, c.wave.wg, []⟩ })).launch c (.smpImage (one c w.a) o w.d.toNat) [w.d.toNat]) := by
  intro t o slot g hfree hload hcmds ho hv hl
  refine issueWord_done hi ((if_neg he).trans ((if_neg (Nat.not_le.2 ha)).trans ((if_neg ?_).trans ((if_neg (not_not.2 ho)).trans (if_neg ?_)))))
  · rintro (⟨h1, h2⟩ | h | h)
    · rcases hfree with h | h
      · exact h1 h
      · exact h2 h
    · exact hload h
    · obtain ⟨k, hk, h⟩ := List.any_eq_true.1 h
      split at h
      · next z qs hop =>
        obtain ⟨q, hq, h⟩ := List.any_eq_true.1 h
        exact hcmds k hk z qs hop q hq (of_decide_eq_true h)
      · cases h
  · rintro (h | h)
    · exact Bool.false_ne_true (h.symm.trans hv)
    · exact Nat.not_lt.2 hl h

end waits

/-- Settles O26: a matrix word whose checks pass is admitted, reserves, frees, waits or loads as the statement gives. -/
theorem matrixWords : Obligations.MatrixWords := by
  unfold Obligations.MatrixWords
  intro w
  refine ⟨product_of_exec fun _ => rfl, product_of_exec fun _ => rfl, product_of_exec fun _ => rfl, product_of_exec fun _ => rfl,
    fun s c he => ?_⟩
  intro a
  refine ⟨fun hon ha hb hl => mrow_admits he hon ha hb hl, fun hon ha hl => mscale_admits he hon ha hl,
    fun hon ha hl r hr hrem hfmt hblk hspan => mtrans_admits he hon ha hl hr hrem hfmt hblk hspan,
    fun hon ha hl => mzero_admits he hon ha hl, fun hi => mres_word he hi, fun hi ha => mfree_word he hi ha, fun all => ?_,
    fun hi ha => smpLd_word he hi ha⟩
  intro i hi
  cases all with
  | true => exact mwait_of_exec true he rfl rfl hi
  | false => exact mwait_of_exec false he rfl rfl hi

end Sys2Proof.Laws
end


section
/-!
PROOF. The ladder words (R350 to R356).
-/

namespace Sys2Proof.Laws
open Sys2Proof.Machine Sys2Proof.Claims

/-- A ladder command raises its failing check, else it is admitted (R353). -/
theorem ladder_of_exec {i : Instr} {w : RWord} {s : State} {c : Ctx} {body : Ctx → State → Res} {block units : Nat} {tile : Option Nat}
    {op : CmdOp} (he : c.eff ≠ 0#32) (hexec : exec i s = issueWord i s body)
    (hb : body c (checked i s c) = c.ladder (checked i s c) w block tile op units) (hon : OnPath i s c 2) :
    (∀ r, ladderFail c.wg block tile = some r → Raises i s c r c.eff) ∧ (ladderFail c.wg block tile = none → Admits i w s c op units) := by
  obtain ⟨hi, hp⟩ := hon
  have hbody := hb.trans (onPath_free hp _ _)
  refine ⟨fun r hr => hexec.trans (issueWord_raise hi (hbody.trans ?_)), fun hr => admits_of_command hi he hexec (hbody.trans ?_)⟩
  · rw [hr]
  · rw [hr]

/-- The destination registers of a `lad.rung` word. -/
theorem regsFrom_two (r : Nat) : regsFrom r 2 = [r, r + 1] := rfl

/-- A `lad.rung` word raises its failing check, else it leaves behind the ladder's commands (R353, R356). -/
theorem rung_of_exec {i : Instr} {w : RWord} {s : State} {c : Ctx} {form : Nat} (he : c.eff ≠ 0#32)
    (hexec : exec i s = issueWord i s (fun c s => c.rung s w form)) (hon : OnPath i s c 0) :
    let block := one c w.a
    let t := checked i s c
    let rung := if form = 2 then 0 else one c w.b
    let offs := if form = 2 then [] else c.lanes.map (fun l => (l, (c.opnd w.c l).toNat))
    let after := ((t.core c.id.core).cmds.filter (fun k => decide (k.wg = c.wave.wg) && decide (k.op.block = some block))).map (fun k => k.num)
    let data := if form = 1 then c.lanes.map (fun l => (l, c.wave.vget w.d.toNat l)) else []
    let regs := if form = 0 then [w.d.toNat] else if form = 2 then [w.d.toNat, w.d.toNat + 1] else []
    (∀ r, ladderFail c.wg block none = some r → Raises i s c r c.eff) ∧
    (ladderFail c.wg block none = none → 15 < rung → Raises i s c ⟨0x03, 8, c.word.toNat⟩ c.eff) ∧
    (ladderFail c.wg block none = none → rung ≤ 15 → ∀ o rest, offs.filter (fun o => decide (o.2 % 4 ≠ 0)) = o :: rest →
      Raises i s c ⟨0x0C, 0, o.2 % 2 ^ 32 + 3 * 2 ^ 60⟩ (maskOf ((o :: rest).map (fun x => x.1)))) ∧
    (ladderFail c.wg block none = none → rung ≤ 15 → (∀ o ∈ offs, o.2 % 4 = 0) →
      let u := t.launch c (.rung form block rung offs data w.d.toNat after) regs
      Completes i s c (if form = 1 then u.rungTry c.id t.tags else u)) := by
  intro block t rung offs after data regs
  obtain ⟨hi, hp⟩ := hon
  refine ⟨fun r hr => hexec.trans (issueWord_raise hi ((onPath_free hp _ _).trans ((if_neg he).trans ?_))), fun hr h => hexec.trans (issueWord_raise hi ((onPath_free hp _ _).trans ((if_neg he).trans ?_))),
    fun hr h o rest hbad => hexec.trans (issueWord_raise hi ((onPath_free hp _ _).trans ((if_neg he).trans ?_))), fun hr h hall => ?_⟩
  · rw [show ladderFail c.wg (c.uni w.a).toNat none = some r from hr]
  · rw [show ladderFail c.wg (c.uni w.a).toNat none = none from hr]
    exact if_pos h
  · rw [show ladderFail c.wg (c.uni w.a).toNat none = none from hr]
    refine (if_neg (Nat.not_lt.2 h)).trans ?_
    dsimp only
    rw [show List.filter _ _ = o :: rest from hbad]
    rfl
  · intro u
    refine hexec.trans (issueWord_done hi ((onPath_free hp _ _).trans ((if_neg he).trans ?_)))
    rw [show ladderFail c.wg (c.uni w.a).toNat none = none from hr]
    refine (if_neg (Nat.not_lt.2 h)).trans ?_
    have hbad : offs.filter (fun o => decide (o.2 % 4 ≠ 0)) = [] :=
      List.filter_eq_nil_iff.2 fun o ho => by rw [hall o ho]; decide
    dsimp only
    rw [show List.filter _ _ = [] from hbad]
    rfl

/-- Settles O27: a block or tile that fails its checks raises; else the command is admitted or the word leaves. -/
theorem ladderWords : Obligations.LadderWords := by
  unfold Obligations.LadderWords
  intro w s c he block tile cmd
  refine ⟨ladder_of_exec he rfl rfl, ladder_of_exec he rfl rfl, ladder_of_exec he rfl rfl, fun form hform => ?_⟩
  simp only [List.mem_cons, List.not_mem_nil, or_false] at hform
  rcases hform with rfl | rfl | rfl
  · exact rung_of_exec he rfl
  · exact rung_of_exec he rfl
  · exact rung_of_exec he rfl

end Sys2Proof.Laws
end


section
/-!
PROOF. The words of assumptions (R335 to R344).
-/

namespace Sys2Proof.Laws
open Sys2Proof.Machine Sys2Proof.Claims

/-- A pair of scalars as a signed number. -/
theorem sInt_pair (a b : Word) : sInt 64 (pair64 a b) = (b ++ a : Dword).toInt := by rw [pair64_eq_toNat, sInt_toNat]

/-- The descriptor of `asm.new` or `asm.dep` is checked and translated, then the word leaves for the registry (R337, R339). -/
theorem asmDesc_of_exec {i : Instr} {w : RWord} {s : State} {c : Ctx} {body : Ctx → State → Res} {size : Nat} {op : Nat → Nat → AsmOp}
    (he : c.eff ≠ 0#32) (hexec : exec i s = issueWord i s body) (hb : body c (checked i s c) = c.asmDesc (checked i s c) w size op)
    (hon : OnPath i s c 0) :
    let g := sget 0#128 c.wave.segs (w.minor % 16)
    let off := (c.sreg w.a 1 ++ c.sreg w.a 0 : Dword).toInt
    Accesses i s c ((checked i s c).access c false true .load [(lowLane c.eff, segCheck g off size size .load)]) (fun accs u =>
      ∀ a d rest, accs = (a, d) :: rest →
        (u.poisoned a.pa = true ∨ (64 < size ∧ u.poisoned (a.pa + 64) = true) → exec i s = .next (u.raiseAt c ⟨0x10, 2, a.va⟩ c.eff)) ∧
        (u.poisoned a.pa = false → (64 < size → u.poisoned (a.pa + 64) = false) → Registers i w s c u (op a.va a.pa))) := by
  intro g off
  obtain ⟨hi, hp⟩ := hon
  have hoff : sInt 64 (pair64 (c.sreg w.a 0) (c.sreg w.a 1)) = off := sInt_pair ..
  rw [← hoff]
  refine issueWord_access hi hexec (hb.trans ((onPath_free hp _ _).trans (if_neg he))) fun accs u ha a d rest haccs => ?_
  subst haccs
  refine ⟨fun h => hexec.trans (issueWord_raise hi (hb.trans ((onPath_free hp _ _).trans ((if_neg he).trans
    ((congrArg (Access.then · _) ha).trans (if_pos ?_)))))), fun h1 h2 => hexec.trans (issueWord_done hi (hb.trans
    ((onPath_free hp _ _).trans ((if_neg he).trans ((congrArg (Access.then · _) ha).trans (if_neg ?_))))))⟩
  · rcases h with h | ⟨hs, h⟩
    · rw [h]
      rfl
    · rw [h, decide_eq_true hs, Bool.and_true, Bool.or_true]
  · rw [h1, Bool.false_or, Bool.and_eq_true, decide_eq_true_eq]
    exact fun h => Bool.false_ne_true ((h2 h.1).symm.trans h.2)

/-- A word on a handle or a region leaves for the registry; a handle above 511 raises at issue (R344). -/
theorem asmNamed_of_exec {i : Instr} {w : RWord} {s : State} {c : Ctx} {body : Ctx → State → Res} {region : Bool} {op : Nat → AsmOp}
    (he : c.eff ≠ 0#32) (hexec : exec i s = issueWord i s body) (hb : body c (checked i s c) = c.asmNamed (checked i s c) w region op)
    (hon : OnPath i s c 0) :
    (region = true ∨ one c w.a ≤ 511 → Registers i w s c (checked i s c) (op (one c w.a))) ∧
    (region = false → 511 < one c w.a → Raises i s c (asmRaise false (one c w.a)) c.eff) := by
  obtain ⟨hi, hp⟩ := hon
  refine ⟨fun h => hexec.trans (issueWord_done hi (hb.trans ((onPath_free hp _ _).trans ((if_neg he).trans (if_neg ?_))))),
    fun hr h => hexec.trans (issueWord_raise hi (hb.trans ((onPath_free hp _ _).trans ((if_neg he).trans (if_pos ⟨hr, h⟩)))))⟩
  rintro ⟨hr, hn⟩
  rcases h with h | h
  · exact Bool.false_ne_true (hr.symm.trans h)
  · exact Nat.not_lt.2 h hn

/-- `asm.arm` of an object with a watched address that does not translate raises at issue; another leaves for the registry (R338). -/
theorem asmArm_word {w : RWord} {s : State} {c : Ctx} (he : c.eff ≠ 0#32) :
    let t := checked (.asmArm w) s c
    let n := one c w.a
    let o := (t.part c.wg.part).object n
    let bad := fun (r : Raise) => n ≤ 511 ∧ (t.part c.wg.part).owns c.wg.ctx n = true ∧ o.state ≠ .armed ∧ o.inFlight = false ∧
      t.watchPlan c.wg.part o = .error (.fault r)
    (∀ r, bad r → OnPath (.asmArm w) s c 0 → Raises (.asmArm w) s c r c.eff) ∧
    ((∀ r, ¬ bad r) → OnPath (.asmArm w) s c 0 →
      (false = true ∨ n ≤ 511 → Registers (.asmArm w) w s c t (.arm n)) ∧
      (false = false → 511 < n → Raises (.asmArm w) s c (asmRaise false n) c.eff)) := by
  intro t n o bad
  refine ⟨fun r hbad hon => ?_, fun hgood hon => ?_⟩
  · obtain ⟨hn, ho, hs, hf, hplan⟩ := hbad
    refine issueWord_raise hon.1 ((if_pos ⟨he, hn, ho, hs, hf⟩).trans ?_)
    generalize hp : State.watchPlan _ _ _ = plan
    cases hp.symm.trans hplan
    rfl
  · refine asmNamed_of_exec he rfl ?_ hon
    dsimp only
    split
    · next hcond =>
      obtain ⟨-, hn, ho, hs, hf⟩ := hcond
      split
      · next r hplan => exact absurd ⟨hn, ho, hs, hf, hplan⟩ (hgood r)
      · rfl
    · rfl

/-- `asm.info` reads or clears the record of the last diversion in the private area (R341). -/
theorem asmInfo_of_exec {i : Instr} {w : RWord} {s : State} {c : Ctx} {minor : Nat} (he : c.eff ≠ 0#32)
    (hexec : exec i s = issueWord i s (fun c s => c.asmInfo s w minor)) (hon : OnPath i s c 0) :
    let offs := if minor = 0 then [20, 16] else [20]
    let at' := c.lanes.flatMap (fun l => offs.map (fun o => (l, (Except.ok (privAddr c.wave.record c.wg.vregs o l) : Except Raise Nat))))
    (c.wg.privBytes < 32 → Raises i s c ⟨0x0B, 0, 20 + 4 * 2 ^ 60⟩ c.eff) ∧
    (32 ≤ c.wg.privBytes → c.wave.blocked = true → exec i s = .next ((checked i s c).stall (checked i s c).cur)) ∧
    (32 ≤ c.wg.privBytes → c.wave.blocked = false →
      Accesses i s c ((checked i s c).access c true false (if minor = 2 then .store else .load) at') (fun accs u =>
        let p := u.performAll c.id none
        let v := p.fillPriv c.id.core c.wave.record (((plainAccs accs).filter (fun (a : LaneAcc) => decide (a.pa ≠ growPa))).map (fun a => a.pa))
        let word := fun (l n : Nat) => ((((plainAccs accs).filter (fun a => decide (a.lane = l))).map (fun (a : LaneAcc) =>
          if a.pa = growPa then 0#32 else
            BitVec.ofNat 32 (natOfBytes ((List.range 4).map (fun i => v.privByte c.id.core (a.pa + i)))))).getD n 0#32)
        Completes i s c (if minor = 2 then p.writeLocal c.id none
            ((plainAccs accs).flatMap (fun a => byteList (u.canon a.pa) (List.replicate 4 0#8)))
          else v.launch c (.result (c.lanes.map (fun l => ⟨w.d.toNat, l,
            if minor = 1 then word l 0 else if (word l 0).getLsbD 31 then word l 1 else 0xFFFFFFFF#32⟩))) [w.d.toNat]))) := by
  intro offs at'
  obtain ⟨hi, hp⟩ := hon
  refine ⟨fun h => ?_, fun h hb => ?_, fun h hb => ?_⟩
  · exact hexec.trans (issueWord_raise hi ((onPath_free hp _ _).trans ((if_neg he).trans (if_pos h))))
  · exact exec_of_wait hi hexec ((onPath_free hp _ _).trans ((if_neg he).trans ((if_neg (Nat.not_lt.2 h)).trans (if_pos hb))))
  · have hb' : ¬ c.wave.blocked = true := by rw [hb]; exact Bool.false_ne_true
    refine issueWord_access hi hexec ((onPath_free hp _ _).trans ((if_neg he).trans ((if_neg (Nat.not_lt.2 h)).trans (if_neg hb'))))
      fun accs u ha => ?_
    intro p v word
    refine hexec.trans (issueWord_done hi ((onPath_free hp _ _).trans ((if_neg he).trans ((if_neg (Nat.not_lt.2 h)).trans
      ((if_neg hb').trans ((congrArg (Access.then · _) ha).trans ?_))))))
    by_cases hm : minor = 2
    · exact (if_pos hm).trans (congrArg Res.done (if_pos hm).symm)
    · exact (if_neg hm).trans (congrArg Res.done ((if_neg hm).trans (by rw [if_neg hm]; rfl)).symm)

/-- The body of `asm.dep`: a region needs a private area for its record (R339). -/
def asmDepBody (w : RWord) (c : Ctx) (s : State) : Res :=
  if c.eff ≠ 0#32 ∧ c.wg.privBytes < 32 then .raise (asmRaise false 0) c.eff s else
  c.asmDesc s w 32 (fun va pa => .depend va pa (segBase (sget 0#128 c.wave.segs 15)))

/-- Settles O28: descriptors and handles leave for the registry, and the last diversion is read or cleared. -/
theorem assumptionWords : Obligations.AssumptionWords := by
  unfold Obligations.AssumptionWords
  intro w s c he g off desc named
  have hnew : desc (.asmNew w) 128 (fun va pa => .newObject va pa) := asmDesc_of_exec he rfl rfl
  refine ⟨hnew, ?_, ?_, ?_, ?_, ?_, ?_, ?_⟩
  · intro hpriv
    have hbody : asmDepBody w c (checked (.asmDep w) s c) = c.asmDesc (checked (.asmDep w) s c) w 32 (fun va pa => .depend va pa (segBase (sget 0#128 c.wave.segs 15))) :=
      if_neg fun h => Nat.not_lt.2 hpriv h.2
    have hexec : exec (.asmDep w) s = issueWord (.asmDep w) s (asmDepBody w) := rfl
    have h := asmDesc_of_exec he hexec hbody
    exact h
  · exact asmNamed_of_exec he rfl rfl
  · exact asmNamed_of_exec he rfl rfl
  · exact asmNamed_of_exec he rfl rfl
  · exact asmNamed_of_exec he rfl rfl
  · exact asmArm_word he
  · intro minor hm
    simp only [List.mem_cons, List.not_mem_nil, or_false] at hm
    rcases hm with rfl | rfl | rfl
    · exact asmInfo_of_exec he rfl
    · exact asmInfo_of_exec he rfl
    · exact asmInfo_of_exec he rfl

end Sys2Proof.Laws
end


section
/-!
PROOF. The words of directories, solicits, census slots and responders (R362 to R372).
-/

namespace Sys2Proof.Laws
open Sys2Proof.Machine Sys2Proof.Claims

/-! ### Directory entries -/

/-- The lowest index below a bound that satisfies what a test decides. -/
theorem find?_range_of_lowest {n e : Nat} {p : Nat → Bool} {hit : Nat → Prop} (hp : ∀ j, p j = true ↔ hit j) (he : e < n) (hhit : hit e)
    (hlow : ∀ j, j < e → ¬ hit j) : (List.range n).find? p = some e :=
  List.find?_range_eq_some.2 ⟨(hp e).2 hhit, List.mem_range.2 he, fun j hj => by
    simpa using mt (hp j).1 (hlow j hj)⟩

/-- No index below a bound satisfies what a test decides. -/
theorem find?_range_of_none {n : Nat} {p : Nat → Bool} {hit : Nat → Prop} (hp : ∀ j, p j = true ↔ hit j) (hno : ∀ j, j < n → ¬ hit j) :
    (List.range n).find? p = none :=
  List.find?_range_eq_none.2 fun j hj => by
    simpa using mt (hp j).1 (hno j hj)

/-- The lowest FREE entry of a core, by its index. -/
theorem freeDir_eq_some {k : Core} {e : Nat} (he : e < 256) (hf : (k.dir e).state = .free) (hlow : ∀ j, j < e → (k.dir j).state ≠ .free) :
    k.freeDir = some e :=
  find?_range_of_lowest (fun _ => decide_eq_true_iff) he hf hlow

/-- A core with no FREE entry. -/
theorem freeDir_eq_none {k : Core} (h : ∀ e, e < 256 → (k.dir e).state ≠ .free) : k.freeDir = none :=
  find?_range_of_none (fun _ => decide_eq_true_iff) h

/-- `dir.ins` whose operands pass their checks takes the lowest FREE entry, or reports that none is FREE (R364). -/
theorem dirIns_word {w : RWord} {s : State} {c : Ctx} (he : c.eff ≠ 0#32) (hi : Issues (.dirIns w) s c) :
    let key := (c.sreg w.a 1).toNat % 2 ^ 16 * 2 ^ 32 + (c.sreg w.a 0).toNat
    let t := checked (.dirIns w) s c
    let wside := (c.sreg w.a 1).getLsbD 24
    let space := if wside then Space.wb else Space.sp
    let o := (c.sreg w.a 2).toNat
    let n := (c.sreg w.a 3).toNat
    (c.sreg w.a 1).toNat < 2 ^ 25 → o % 64 = 0 → n % 64 = 0 → 0 < n → o + n ≤ c.wg.usable space →
    ((∀ e, e < 256 → ((t.core c.id.core).dir e).state ≠ .free) → Completes (.dirIns w) s c (fixed t c w 0x10000000#32 8)) ∧
    (∀ e, e < 256 → ((t.core c.id.core).dir e).state = .free → (∀ j, j < e → ((t.core c.id.core).dir j).state ≠ .free) →
      Completes (.dirIns w) s c (((t.updDir c.id.core e (fun _ => ⟨key, c.wg.ctx, wside, (c.wg.alloc space).start + o, n, .pending,
        (c.sreg w.a 1).toNat / 2 ^ 16 % 256, c.wave.wg⟩)).launch c (.dirCommit true e w.d.toNat) [w.d.toNat]).sendRoot c.wg.part
        (.insert c.id.core e c.id t.tags))) := by
  intro key t wside space o n hhi ho hn hpos hlim
  have hhi' : ¬ (c.sreg w.a 1).toNat / 2 ^ 25 ≠ 0 := not_not_intro (Nat.div_eq_of_lt hhi)
  have hal : ¬ (o % 64 ≠ 0 ∨ n % 64 ≠ 0 ∨ n = 0) := by
    rintro (h | h | h)
    · exact h ho
    · exact h hn
    · exact hpos.ne' h
  refine ⟨fun hnone => ?_, fun e hlt hfree hlow => ?_⟩
  · refine issueWord_done hi ((if_neg he).trans ((if_neg hhi').trans ((if_neg hal).trans ((if_neg (Nat.not_lt.2 hlim)).trans ?_))))
    rw [show ((checked (.dirIns w) s c).core c.core).freeDir = none from freeDir_eq_none hnone]
    rfl
  · refine issueWord_done hi ((if_neg he).trans ((if_neg hhi').trans ((if_neg hal).trans ((if_neg (Nat.not_lt.2 hlim)).trans ?_))))
    rw [show ((checked (.dirIns w) s c).core c.core).freeDir = some e from freeDir_eq_some hlt hfree hlow]
    rfl

/-- `dir.del` raises on an entry it may not delete, reports a moving one, and else commits at the root (R364). -/
theorem dirDel_word {w : RWord} {s : State} {c : Ctx} (he : c.eff ≠ 0#32) (hi : Issues (.dirDel w) s c) :
    let a := one c w.a
    a ≤ 255 →
    let t := checked (.dirDel w) s c
    let d := (t.core c.id.core).dir a
    (d.state = .free ∨ d.state = .pending ∨ d.wg ≠ c.wave.wg → Raises (.dirDel w) s c ⟨0x15, 0, a⟩ c.eff) ∧
    (d.wg = c.wave.wg → d.state = .moving → Completes (.dirDel w) s c (fixed t c w 0x20000000#32 8)) ∧
    (d.wg = c.wave.wg → d.state = .valid → Completes (.dirDel w) s c
      ((t.launch c (.dirCommit false a w.d.toNat) [w.d.toNat]).sendRoot c.wg.part (.delete c.id.core a c.id t.tags))) := by
  intro a ha t d
  have hmod : (⟨0x15, 0, a⟩ : Raise) = censusRaise a := congrArg (Raise.mk 0x15 0) (Nat.mod_eq_of_lt (Nat.lt_succ_of_le ha)).symm
  refine ⟨fun h => ?_, fun hwg hst => ?_, fun hwg hst => ?_⟩
  · rw [hmod]
    exact issueWord_raise hi ((if_neg he).trans ((if_neg (Nat.not_lt.2 ha)).trans (if_pos h)))
  · refine issueWord_done hi ((if_neg he).trans ((if_neg (Nat.not_lt.2 ha)).trans ((if_neg ?_).trans (if_pos hst))))
    rintro (h | h | h)
    · cases hst.symm.trans h
    · cases hst.symm.trans h
    · exact h hwg
  · refine issueWord_done hi ((if_neg he).trans ((if_neg (Nat.not_lt.2 ha)).trans ((if_neg ?_).trans (if_neg ?_))))
    · rintro (h | h | h)
      · cases hst.symm.trans h
      · cases hst.symm.trans h
      · exact h hwg
    · exact fun h => DirState.noConfusion (hst.symm.trans h)

/-- `dir.look` gives the lowest entry of the key that its workgroup holds, or all ones (R364). -/
theorem dirLook_word {w : RWord} {s : State} {c : Ctx} (he : c.eff ≠ 0#32) (hi : Issues (.dirLook w) s c) (hkey : (c.sreg w.a 1).toNat < 2 ^ 16) :
    let key := (c.sreg w.a 1).toNat % 2 ^ 16 * 2 ^ 32 + (c.sreg w.a 0).toNat
    let t := checked (.dirLook w) s c
    let hit := fun (e : Nat) =>
      let d := (t.core c.id.core).dir e
      (d.state = .valid ∨ d.state = .moving) ∧ d.wg = c.wave.wg ∧ d.key = key
    let gives := fun (x : Word) => Completes (.dirLook w) s c (t.updWave c.id (fun v => v.regSet w.d.toNat 0 x))
    ((∀ e, e < 256 → ¬ hit e) → gives 0xFFFFFFFF#32) ∧
    (∀ e, e < 256 → hit e → (∀ j, j < e → ¬ hit j) → gives (BitVec.ofNat 32 e)) := by
  intro key t hit gives
  have hdec : ∀ e, ((decide (((t.core c.id.core).dir e).state = .valid) || decide (((t.core c.id.core).dir e).state = .moving)) &&
      decide (((t.core c.id.core).dir e).wg = c.wave.wg) && decide (((t.core c.id.core).dir e).key = key)) = true ↔ hit e := by
    intro e
    simp only [Bool.and_eq_true, Bool.or_eq_true, decide_eq_true_eq, and_assoc, hit]
  have hhi : ¬ (c.sreg w.a 1).toNat / 2 ^ 16 ≠ 0 := not_not_intro (Nat.div_eq_of_lt hkey)
  refine ⟨fun hnone => ?_, fun e hlt hhit hlow => ?_⟩
  · refine issueWord_done hi ((if_neg he).trans ((if_neg hhi).trans ?_))
    dsimp only
    generalize hx : List.find? _ _ = x
    cases hx.symm.trans (find?_range_of_none hdec hnone)
    rfl
  · refine issueWord_done hi ((if_neg he).trans ((if_neg hhi).trans ?_))
    dsimp only
    generalize hx : List.find? _ _ = x
    cases hx.symm.trans (find?_range_of_lowest hdec hlt hhit hlow)
    rfl

/-- `dir.mov` to another member: a moving entry is reported, a VALID one starts to move, to no workgroup where that member has exited (R365). -/
theorem dirMov_word {w : RWord} {s : State} {c : Ctx} (he : c.eff ≠ 0#32) (hi : Issues (.dirMov w) s c) (ha : one c w.a ≤ 255)
    (core n : Nat) (g : Workgroup) :
    let a := one c w.a
    let t := checked (.dirMov w) s c
    let d := (t.core c.id.core).dir a
    let r := one c w.b
    2 ≤ c.wg.ensSize → r < c.wg.ensSize → r ≠ c.wg.ensRank → d.wg = c.wave.wg → one c w.c % 64 = 0 →
    (d.state = .moving → Completes (.dirMov w) s c (fixed t c w 0x20000000#32 8)) ∧
    (d.state = .valid → (t.ensemble c.id.core c.wave.wg).find? (fun x => match t.wg x.1 x.2 with
        | some g => decide (g.ensRank = r)
        | none => false) = some (core, n) → t.wg core n = some g →
      Completes (.dirMov w) s c ((t.updDir c.id.core a (fun d => { d with state := .moving })).launch c
        (.dirMove a core n r (one c w.c) 0 1 w.d.toNat) [w.d.toNat])) ∧
    (d.state = .valid → (∀ x ∈ t.ensemble c.id.core c.wave.wg, ∀ g, t.wg x.1 x.2 = some g → g.ensRank ≠ r) →
      Completes (.dirMov w) s c ((t.updDir c.id.core a (fun d => { d with state := .moving })).launch c
        (.dirMove a c.id.core 128 r (one c w.c) 0 1 w.d.toNat) [w.d.toNat])) := by
  intro a t d r hsize hr hself hwg hal
  have hargs : ¬ (c.wg.ensSize < 2 ∨ c.wg.ensSize ≤ r ∨ r = c.wg.ensRank ∨ 255 < a) := by
    rintro (h | h | h | h)
    · exact Nat.not_lt.2 hsize h
    · exact Nat.not_le.2 hr h
    · exact hself h
    · exact Nat.not_lt.2 ha h
  have hstate : d.state = .valid ∨ d.state = .moving → ¬ ((d.state ≠ .valid ∧ d.state ≠ .moving) ∨ d.wg ≠ c.wave.wg) := by
    rintro h (⟨hv, hm⟩ | h')
    · exact h.elim hv hm
    · exact h' hwg
  have hnot : d.state = .valid → ¬ d.state = .moving := fun hv hm => DirState.noConfusion (hv.symm.trans hm)
  refine ⟨fun hst => ?_, fun hst hfind _ => ?_, fun hst hnone => ?_⟩
  · exact issueWord_done hi ((if_neg he).trans ((if_neg hargs).trans ((if_neg (hstate (.inr hst))).trans ((if_neg (not_not_intro hal)).trans
      (if_pos hst)))))
  · refine issueWord_done hi ((if_neg he).trans ((if_neg hargs).trans ((if_neg (hstate (.inl hst))).trans ((if_neg (not_not_intro hal)).trans
      ((if_neg (hnot hst)).trans ?_)))))
    dsimp only
    generalize hx : List.find? _ _ = x
    cases hx.symm.trans hfind
    rfl
  · refine issueWord_done hi ((if_neg he).trans ((if_neg hargs).trans ((if_neg (hstate (.inl hst))).trans ((if_neg (not_not_intro hal)).trans
      ((if_neg (hnot hst)).trans ?_)))))
    dsimp only
    generalize hx : List.find? _ _ = x
    cases hx.symm.trans (List.find?_eq_none.2 fun y hy => by
      split
      · next g hg => exact fun h => hnone y hy g hg (of_decide_eq_true h)
      · exact Bool.false_ne_true)
    rfl

/-! ### Solicits, census slots and responders -/

/-- The place of a solicit at the root, its operands at issue (R366). -/
def solPlace (w : RWord) (c : Ctx) (i : Nat) : Place :=
  { Place.empty with
    asker := c.id
    record := c.wave.record
    slot := i
    ctx := c.wg.ctx
    vf := c.wg.vf
    key := (c.sreg w.a 1).toNat % 2 ^ 16 * 2 ^ 32 + (c.sreg w.a 0).toNat
    mask := (c.sreg w.a 3).toNat % 2 ^ 16 * 2 ^ 32 + (c.sreg w.a 2).toNat
    handler := c.opnd w.b (lowLane c.eff)
    arg := c.opnd w.c (lowLane c.eff)
    rule := w.minor % 8
    ty := w.ty
    width := w.flags.toNat % 8 + 1
    seg15 := sget 0#128 c.wave.segs 15 }

/-- `sol` takes the lowest census slot not busy and leaves for the root (R366). -/
theorem sol_word {w : RWord} {s : State} {c : Ctx} (he : c.eff ≠ 0#32) (hi : Issues (.sol w) s c) {i : Nat}
    (hv : segValid (sget 0#128 c.wave.segs 15) = true)
    (hlim : 8 * (c.opnd w.b (lowLane c.eff)).toNat + 8 ≤ segLimit (sget 0#128 c.wave.segs 15))
    (hkey : (c.sreg w.a 1).toNat < 2 ^ 16) (hmask : (c.sreg w.a 3).toNat < 2 ^ 16) (hlt : i < 4)
    (hfree : (c.wave.census.getD i CensusSlot.empty).busy = false)
    (hlow : ∀ j, j < i → (c.wave.census.getD j CensusSlot.empty).busy = true) :
    Completes (.sol w) s c (((checked (.sol w) s c).updWave c.id (fun v => { (v.regSet w.d.toNat 0 (BitVec.ofNat 32 i)) with
      census := v.census.set i { CensusSlot.empty with busy := true } })).updPart c.wg.part (fun q => { q with
        solicits := q.solicits ++ [⟨c.id, solPlace w c i⟩] })) := by
  refine issueWord_done hi ((if_neg he).trans ((if_neg ?_).trans ((if_neg ?_).trans ?_)))
  · rintro (h | h)
    · exact Bool.false_ne_true (h.symm.trans hv)
    · exact Nat.not_lt.2 hlim h
  · rintro (h | h)
    · exact h (Nat.div_eq_of_lt hkey)
    · exact h (Nat.div_eq_of_lt hmask)
  · rw [show List.find? _ _ = some i from List.find?_range_eq_some.2 ⟨by rw [hfree]; rfl, List.mem_range.2 hlt, fun j hj => by
      rw [hlow j hj]; rfl⟩]
    rfl

/-- `cns.rd` reads a complete slot and empties it; another raises (R372). -/
theorem cnsRd_word {w : RWord} {s : State} {c : Ctx} (he : c.eff ≠ 0#32) (hi : Issues (.cnsRd w) s c) :
    let a := one c w.a
    a ≤ 3 →
    let x := c.wave.census.getD a CensusSlot.empty
    (x.complete = false → Raises (.cnsRd w) s c ⟨0x15, 0, a⟩ c.eff) ∧
    (x.complete = true → Completes (.cnsRd w) s c ((checked (.cnsRd w) s c).updWave c.id (fun v =>
      { v.regWrites ((List.range 8).map (fun i => (⟨w.d.toNat + i, 0, x.reply.getD i 0#32⟩ : RegWrite)) ++
        [⟨w.d.toNat + 8, 0, x.count⟩, ⟨w.d.toNat + 9, 0, x.status⟩]) with census := v.census.set a CensusSlot.empty }))) := by
  intro a ha x
  have hmod : (⟨0x15, 0, a⟩ : Raise) = censusRaise a := congrArg (Raise.mk 0x15 0) (Nat.mod_eq_of_lt (by omega)).symm
  refine ⟨fun h => ?_, fun h => ?_⟩
  · rw [hmod]
    exact issueWord_raise hi ((if_neg he).trans ((if_neg (Nat.not_lt.2 ha)).trans (if_pos h)))
  · have hcensus : ∀ (v : Wave) (ws : List RegWrite), (v.regWrites ws).census = v.census := fun v ws =>
      (congrArg Wave.census (bareOf_regWrites v ws) :)
    refine issueWord_done hi ((if_neg he).trans ((if_neg (Nat.not_lt.2 ha)).trans ((if_neg fun h' =>
      Bool.false_ne_true (Eq.trans (Eq.symm h') h)).trans ?_)))
    dsimp only
    simp only [hcensus]
    rfl

/-- `resp.end` ends the responder with the words it leaves (R370). -/
theorem respEnd_word {w : RWord} {s : State} {c : Ctx} {r : Responder} (hi : Issues (.respEnd w) s c) (hr : c.wave.resp = some r) :
    let t := checked (.respEnd w) s c
    exec (.respEnd w) s = .next ((t.countIssue c.id).responderEnd c.id r
      ⟨(List.range (t.place r.part r.place).width).map (fun i => c.wave.sreg (8 + i)), 1, 0, 0⟩) := by
  refine issueWord_stay hi ?_
  dsimp only
  rw [hr]

/-- Settles O29: the words act on the directory, the root and the census slots as their operands say. -/
theorem directoryAndCensusWords : Obligations.DirectoryAndCensusWords := by
  unfold Obligations.DirectoryAndCensusWords
  intro w s c he a key
  refine ⟨dirIns_word he, fun hi => dirDel_word he hi, dirLook_word he, fun hi ha core n g => dirMov_word he hi ha core n g, ?_, ?_, ?_,
    fun hi r hr => respEnd_word hi hr⟩
  · intro hi t h g hv hlim hkey hmask i hlt hfree hlow
    exact ⟨solPlace w c i, rfl, rfl, rfl, rfl, rfl, by
      show (c.sreg w.a 3).toNat % 2 ^ 16 * 2 ^ 32 + _ = _
      rw [Nat.mod_eq_of_lt hmask], rfl, rfl, rfl, rfl, rfl, rfl, sol_word he hi hv hlim hkey hmask hlt hfree hlow⟩
  · exact fun hi ha => issueWord_done hi ((if_neg he).trans (if_neg (Nat.not_lt.2 ha)))
  · exact fun hi ha => cnsRd_word he hi ha

end Sys2Proof.Laws
end


section
/-!
PROOF. The system words (R252 to R259).
-/

namespace Sys2Proof.Laws
open Sys2Proof.Machine Sys2Proof.Claims

/-- Bits of a pattern, as a number, are the pattern they make. -/
theorem bitsN_eq_extractLsb' {n : Nat} (x : BitVec n) (hi lo : Nat) : bitsN x hi lo = (x.extractLsb' lo (hi - lo + 1)).toNat := by
  rw [bitsN, BitVec.extractLsb'_toNat, Nat.shiftRight_eq_div_pow]

/-- Scalar results of a word go to consecutive registers. -/
theorem putScalar_eq_range {c : Ctx} (he : c.eff ≠ 0#32) (s : State) (d : BitVec 9) (xs : List Word) :
    c.putScalar s d xs = .done (s.updWave c.id (fun v =>
      v.regWrites ((List.range xs.length).map (fun n => ⟨d.toNat + n, 0, xs.getD n 0#32⟩)))) := by
  rw [Ctx.putScalar, if_neg he, Ctx.put]
  simp only [orFlags_zero, map_range_zip xs 0#32 fun n x => (⟨d.toNat + n, 0, x⟩ : RegWrite)]

/-- The words of a system register (R253). -/
theorem sysReg_eq (s : State) (c : Ctx) (n : Nat) : s.sysReg c n = match n with
    | 0x00 => [sget 0xFFFFFFFF#32 s.trapbase c.wg.ctx]
    | 0x01 => halves ((s.qcb c.wg.vf c.wg.queue).hyp.extractLsb' 576 64)
    | 0x02 => halves (s.part c.wg.part).telebase
    | 0x03 => [(s.part c.wg.part).shadow &&& 0x1F#32]
    | 0x04 => [(s.part c.wg.part).tslice]
    | n => [BitVec.ofNat 32 ((s.func c.wg.vf).feat.toNat / 2 ^ (32 * (n - 5)))] := by
  match n with
  | 0 => rfl
  | 1 => exact (congrArg words64 (bitsN_eq_extractLsb' _ 639 576)).trans (words64_toNat _)
  | 2 => exact words64_toNat _
  | 3 => rfl
  | 4 => rfl
  | _ + 5 => rfl

/-- `wrsr` waits for every earlier access of its wave (R253). -/
theorem wrsr_waits {w : RWord} {s : State} {c : Ctx} (he : c.eff ≠ 0#32) (hi : Issues (.wrsr w) s c)
    (hf : ∃ f ∈ c.wave.flights, f.op.unperformed = true) :
    exec (.wrsr w) s = .next ((checked (.wrsr w) s c).stall (checked (.wrsr w) s c).cur) :=
  exec_of_wait hi rfl ((if_neg he).trans (if_pos (List.any_eq_true.2 hf)))

/-- `wrsr` writes its register (R253, R254). -/
theorem wrsr_writes {w : RWord} {s : State} {c : Ctx} (he : c.eff ≠ 0#32) (hi : Issues (.wrsr w) s c)
    (hf : ∀ f ∈ c.wave.flights, f.op.unperformed = false) :
    Completes (.wrsr w) s c ((checked (.wrsr w) s c).setSysReg c w.minor
      (if w.minor = 1 ∨ w.minor = 2 then (pairOf c w.a (lowLane c.eff)).toNat else (c.opnd w.a (lowLane c.eff)).toNat)) := by
  refine issueWord_done hi ((if_neg he).trans ((if_neg ?_).trans ?_))
  · rw [List.any_eq_true]
    rintro ⟨f, hmem, h⟩
    exact Bool.false_ne_true ((hf f hmem).symm.trans h)
  · rw [opnd64_eq_pairOf]
    rfl

/-- Four weighted numbers, summed. -/
theorem foldl_range_four (x f : Nat → Nat) :
    (List.range 4).foldl (fun a i => a + x i * f i) 0 = x 0 * f 0 + x 1 * f 1 + x 2 * f 2 + x 3 * f 3 := by
  simp [List.range_succ]

/-- The binding that `seg.bind` reads from four scalars. -/
theorem segBind_descriptor (x : Nat → Word) :
    BitVec.ofNat 128 ((List.range 4).foldl (fun a i => a + (x i).toNat * 2 ^ (32 * i)) 0) = x 3 ++ x 2 ++ x 1 ++ x 0 := by
  refine BitVec.eq_of_toNat_eq ?_
  rw [BitVec.toNat_ofNat, foldl_range_four (fun i => (x i).toNat) (fun i => 2 ^ (32 * i))]
  simp only [toNat_append_eq_add]
  have := (x 0).isLt
  have := (x 1).isLt
  have := (x 2).isLt
  have := (x 3).isLt
  omega

/-- A binding that passes the checks of R75 to R77 and R255. -/
theorem bindFail_of_room {n : Nat} {g : BitVec 128} (hz : bitsN g 123 120 = 0)
    (hroom : (segValid g = true → segBase g + segLimit g ≤ 2 ^ 60) ∧ (n = 15 → segLimit g ≤ 2 ^ 34)) : bindFail n g = none := by
  refine (if_neg (not_not_intro hz)).trans (if_neg ?_)
  rintro (⟨hv, h⟩ | ⟨hn, h⟩)
  · exact Nat.not_lt.2 (hroom.1 hv) h
  · exact Nat.not_lt.2 (hroom.2 hn) h

/-- A binding beyond the address space, or a code segment above 16 GiB. -/
theorem bindFail_of_no_room {n : Nat} {g : BitVec 128} (hz : bitsN g 123 120 = 0)
    (hroom : ¬ ((segValid g = true → segBase g + segLimit g ≤ 2 ^ 60) ∧ (n = 15 → segLimit g ≤ 2 ^ 34))) :
    bindFail n g = some (0x0A, 0) := by
  refine (if_neg (not_not_intro hz)).trans (if_pos ?_)
  rcases not_and_or.1 hroom with h | h
  · obtain ⟨hv, h⟩ := Classical.not_imp.1 h
    exact .inl ⟨hv, Nat.not_le.1 h⟩
  · obtain ⟨hn, h⟩ := Classical.not_imp.1 h
    exact .inr ⟨hn, Nat.not_le.1 h⟩

/-- `seg.bind` binds a descriptor that passes its checks, for its wave at once (R255). -/
theorem segBind_word {w : RWord} {s : State} {c : Ctx} (he : c.eff ≠ 0#32) (hi : Issues (.segBind w) s c) :
    let t := checked (.segBind w) s c
    let g : BitVec 128 := c.sreg w.a 3 ++ c.sreg w.a 2 ++ c.sreg w.a 1 ++ c.sreg w.a 0
    let room := (segValid g = true → segBase g + segLimit g ≤ 2 ^ 60) ∧ (w.minor = 15 → segLimit g ≤ 2 ^ 34)
    (bitsN g 123 120 ≠ 0 → Raises (.segBind w) s c ⟨0x03, 8, c.word.toNat⟩ c.eff) ∧
    (bitsN g 123 120 = 0 → ¬ room → Raises (.segBind w) s c ⟨0x0A, 0, segBase g⟩ c.eff) ∧
    (bitsN g 123 120 = 0 → room →
      Completes (.segBind w) s c ((t.updWg c.id.core c.wave.wg (fun x => { x with
        segs := sset 0#128 x.segs w.minor g })).updWave c.id (fun v => { v with
          segs := sset 0#128 v.segs w.minor g
          codeSeg := if w.minor = 15 then some (v.codeSeg.getD (sget 0#128 v.segs 15)) else v.codeSeg }))) := by
  intro t g room
  have hg := segBind_descriptor (c.sreg w.a)
  have hfail : ∀ {f}, bindFail w.minor g = f → bindFail w.minor (BitVec.ofNat 128
      ((List.range 4).foldl (fun a i => a + (c.sreg w.a i).toNat * 2 ^ (32 * i)) 0)) = f := fun h => (congrArg (bindFail w.minor) hg).trans h
  refine ⟨fun hz => ?_, fun hz hroom => ?_, fun hz hroom => ?_⟩
  · refine issueWord_raise hi ((if_neg he).trans ?_)
    dsimp only
    generalize hf : bindFail _ _ = f
    cases hf.symm.trans (hfail (if_pos hz))
    rfl
  · refine issueWord_raise hi ((if_neg he).trans ?_)
    dsimp only
    generalize hf : bindFail _ _ = f
    cases hf.symm.trans (hfail (bindFail_of_no_room hz hroom))
    exact congrArg (fun g => Res.raise ⟨0x0A, 0, segBase g⟩ c.eff t) hg
  · refine issueWord_done hi ((if_neg he).trans ?_)
    dsimp only
    generalize hf : bindFail _ _ = f
    cases hf.symm.trans (hfail (bindFail_of_room hz hroom))
    exact congrArg (fun g => Res.done ((t.updWg c.id.core c.wave.wg (fun x => { x with
      segs := sset 0#128 x.segs w.minor g })).updWave c.id (fun v => { v with
        segs := sset 0#128 v.segs w.minor g
        codeSeg := if w.minor = 15 then some (v.codeSeg.getD (sget 0#128 v.segs 15)) else v.codeSeg }))) hg

/-- `ptok` grants at most the tokens declared (R72, R256). -/
theorem ptok_word {w : RWord} {s : State} {c : Ctx} (he : c.eff ≠ 0#32) (hi : Issues (.ptok w) s c) :
    let n := min (one c w.a) c.wg.tokensDeclared
    let u := (checked (.ptok w) s c).updWg c.id.core c.wave.wg (fun g => { g with tokensGranted := n })
    Completes (.ptok w) s c (if w.d = 0#9 then u else u.updWave c.id (fun v => v.regSet w.d.toNat 0 (BitVec.ofNat 32 n))) := by
  intro n u
  refine issueWord_done hi ((if_neg he).trans ?_)
  by_cases hd : w.d = 0#9
  · exact (if_pos hd).trans (congrArg Res.done (if_pos hd).symm)
  · exact (if_neg hd).trans ((putScalar_eq_done ..).trans (congrArg Res.done ((if_neg he).trans (if_neg hd).symm)))

/-- `ctx.sv` reports no such record, a workgroup not parked, waits for one not yet eligible, and saves an eligible one (R259). -/
theorem ctxSv_word {w : RWord} {s : State} {c : Ctx} (he : c.eff ≠ 0#32) (hi : Issues (.ctxSv w) s c) :
    let rec' := (c.sreg w.a 1 ++ c.sreg w.a 0 : Dword).toNat
    let t := checked (.ctxSv w) s c
    let result := fun (u : State) (n : Nat) => Completes (.ctxSv w) s c (u.launch c (.result [⟨w.d.toNat, 0, BitVec.ofNat 32 n⟩]) [w.d.toNat])
    let hit := recordOwner c.wg.vf rec' (fun (e : Nat × Option Workgroup) => e.2) (t.core c.id.core).wgs
    (hit = none → result t 2) ∧
    (∀ i g, hit = some (i, g) → (∃ e ∈ t.ensemble c.id.core i, t.allParked e.1 e.2 = false) → result t 1) ∧
    (∀ i g, hit = some (i, g) → (∀ e ∈ t.ensemble c.id.core i, t.allParked e.1 e.2 = true) →
      (t.eligible c.id.core i = false → exec (.ctxSv w) s = .next (t.stall s.cur)) ∧
      (t.eligible c.id.core i = true → result (t.saveEnsemble c.id.core i) 0)) := by
  intro rec' t result hit
  have hrec : c.recordAddr w = rec' := pair64_eq_toNat ..
  have hown : ∀ {o}, hit = o → recordOwner c.wg.vf (c.recordAddr w) (fun (e : Nat × Option Workgroup) => e.2) (t.core c.id.core).wgs = o :=
    fun h => (congrArg (fun r => recordOwner c.wg.vf r (fun (e : Nat × Option Workgroup) => e.2) (t.core c.id.core).wgs) hrec).trans h
  refine ⟨fun h => ?_, fun i g h hbusy => ?_, fun i g h hall => ?_⟩
  · refine issueWord_done hi ((if_neg he).trans ?_)
    generalize hx : recordOwner _ _ _ _ = x
    cases hx.symm.trans (hown h)
    rfl
  · obtain ⟨e, hmem, hpark⟩ := hbusy
    have hnot : (!(t.ensemble c.id.core i).all (fun e => t.allParked e.1 e.2)) = true := by
      rw [Bool.not_eq_true', List.all_eq_false]
      exact ⟨e, hmem, by rw [hpark]; exact Bool.false_ne_true⟩
    refine issueWord_done hi ((if_neg he).trans ?_)
    generalize hx : recordOwner _ _ _ _ = x
    cases hx.symm.trans (hown h)
    exact if_pos hnot
  · have hyes : ¬ (!(t.ensemble c.id.core i).all (fun e => t.allParked e.1 e.2)) = true := by
      rw [List.all_eq_true.2 hall]
      exact Bool.false_ne_true
    refine ⟨fun hel => ?_, fun hel => ?_⟩
    · rw [← checked_cur (.ctxSv w) s c]
      refine exec_of_wait hi rfl ((if_neg he).trans ?_)
      generalize hx : recordOwner _ _ _ _ = x
      cases hx.symm.trans (hown h)
      exact (if_neg hyes).trans (if_neg fun h => Bool.false_ne_true (hel.symm.trans h))
    · refine issueWord_done hi ((if_neg he).trans ?_)
      generalize hx : recordOwner _ _ _ _ = x
      cases hx.symm.trans (hown h)
      exact (if_neg hyes).trans (if_pos hel)

/-- `ctx.ld` reports no such record, or what the restore answers (R259). -/
theorem ctxLd_word {w : RWord} {s : State} {c : Ctx} (he : c.eff ≠ 0#32) (hi : Issues (.ctxLd w) s c) :
    let t := checked (.ctxLd w) s c
    let rec' := (c.sreg w.a 1 ++ c.sreg w.a 0 : Dword).toNat
    let result := fun (u : State) (n : Nat) => Completes (.ctxLd w) s c (u.launch c (.result [⟨w.d.toNat, 0, BitVec.ofNat 32 n⟩]) [w.d.toNat])
    let hit := recordOwner c.wg.vf rec' (fun (x : Saved) => some x.wg) ((t.part c.wg.part).saved.filter (fun x => x.live))
    (hit = none → result t 2) ∧
    (∀ x u, hit = some x → t.restore c.wg.part x c.id.core = .done u → result u 0) ∧
    (∀ x n, hit = some x → t.restore c.wg.part x c.id.core = .status n → result t n) ∧
    (∀ x, hit = some x → t.restore c.wg.part x c.id.core = .later → exec (.ctxLd w) s = .next (t.stall s.cur)) := by
  intro t rec' result hit
  have hrec : c.recordAddr w = rec' := pair64_eq_toNat ..
  have hown : ∀ {o}, hit = o → recordOwner c.wg.vf (c.recordAddr w) (fun (x : Saved) => some x.wg)
      ((t.part c.wg.part).saved.filter (fun x => x.live)) = o := fun h =>
    (congrArg (fun r => recordOwner c.wg.vf r (fun (x : Saved) => some x.wg) ((t.part c.wg.part).saved.filter (fun x => x.live))) hrec).trans h
  refine ⟨fun h => ?_, fun x u h hr => ?_, fun x n h hr => ?_, fun x h hr => ?_⟩
  · refine issueWord_done hi ((if_neg he).trans ?_)
    generalize hx : recordOwner _ _ _ _ = y
    cases hx.symm.trans (hown h)
    rfl
  · refine issueWord_done hi ((if_neg he).trans ?_)
    generalize hx : recordOwner _ _ _ _ = y
    cases hx.symm.trans (hown h)
    dsimp only
    generalize hr' : State.restore _ _ _ _ = r
    cases hr'.symm.trans hr
    rfl
  · refine issueWord_done hi ((if_neg he).trans ?_)
    generalize hx : recordOwner _ _ _ _ = y
    cases hx.symm.trans (hown h)
    dsimp only
    generalize hr' : State.restore _ _ _ _ = r
    cases hr'.symm.trans hr
    rfl
  · rw [← checked_cur (.ctxLd w) s c]
    refine exec_of_wait hi rfl ((if_neg he).trans ?_)
    generalize hx : recordOwner _ _ _ _ = y
    cases hx.symm.trans (hown h)
    dsimp only
    generalize hr' : State.restore _ _ _ _ = r
    cases hr'.symm.trans hr
    rfl

/-- Settles O30: each system word reads or writes what its row names. -/
theorem systemWords : Obligations.SystemWords := by
  unfold Obligations.SystemWords
  intro w s c he scalars at' result
  have hscalars : ∀ {i : Instr} {f : Ctx → State → List Word} {xs : List Word}, Issues i s c →
      exec i s = issueWord i s (fun c s => c.putScalar s w.d (f c s)) → f c (checked i s c) = xs → scalars i xs := fun hi hexec hx =>
    hexec.trans (issueWord_done hi (by rw [hx]; exact putScalar_eq_range he ..))
  have htlb : ∀ {i : Instr} {p : TlbEntry → Bool} {body : Ctx → State → Res}, Issues i s c → exec i s = issueWord i s body →
      body c (checked i s c) = c.tlbInv (checked i s c) w.d p → result i ((at' i).dropTlbs c.wg.part p) 0 := fun hi hexec hb =>
    hexec.trans (issueWord_done hi (hb.trans (if_neg he)))
  refine ⟨fun hi => hscalars hi rfl (sysReg_eq ..), wrsr_waits he, ?_, segBind_word he, ptok_word he,
    fun hi => hscalars hi rfl (words64_eq_halves _), fun hi => hscalars hi rfl (words64_eq_halves _), ?_,
    fun hi => issueWord_done hi (if_neg he), ?_, fun hi => htlb hi rfl rfl, fun hi => htlb hi rfl rfl, ctxSv_word he, ctxLd_word he⟩
  · intro hi hf x y t sets
    have h := wrsr_writes he hi hf
    refine ⟨fun hm => ?_, fun hm => ?_, fun hm => ?_, fun hm => ?_, fun hm => ?_⟩
    all_goals
      rw [hm] at h
      simp [State.setSysReg, wd] at h
      exact h
  · intro hi first hfirst
    refine hscalars hi rfl ?_
    rw [hfirst]
    exact words64_eq_halves _
  · intro hi
    refine htlb hi rfl ?_
    rw [← opnd64_eq_pairOf]

end Sys2Proof.Laws
end


section
/-!
PROOF. Steps of a wave that no word takes (R50, R56, R57, R104, R106, R108, R176, R179, R233, R448, R477).
-/

namespace Sys2Proof.Laws
open Sys2Proof.Machine Sys2Proof.Claims

/-- A step becomes the state its function gives. -/
theorem becomes_of_next {i : Instr} {s t u : State} (hexec : exec i s = .next u) (h : u = t) : Becomes i s t :=
  hexec.trans (congrArg Host.Outcome.next h)

/-- The partition of a resident wave of a resident workgroup. -/
theorem partOfWave_eq {s : State} {id : WaveId} {w : Wave} {g : Workgroup} (hw : s.wave id = some w) (hg : s.wg id.core w.wg = some g) :
    s.partOfWave id = g.part := by
  simp only [State.partOfWave, hw, hg]

/-- A held set is evaluated (R233). -/
theorem heldCheck_eq {s : State} {id : WaveId} {w : Wave} {g : Workgroup} {h : HeldSet} (hw : s.wave id = some w) (hh : w.held = some h)
    (hg : s.wg id.core w.wg = some g) : s.heldCheck id = s.setWave id (some (w.heldEval (s.pclk g.part))) := by
  simp only [State.heldCheck, hw, hg, hh, Option.isNone_some, Bool.false_eq_true, if_false]

/-- The timeout of a held set: before its deadline nothing happens. -/
theorem evRwaitTimeout_eq {s : State} {id : WaveId} {w : Wave} {h : HeldSet} (hw : s.wave id = some w) (hh : w.held = some h) :
    s.evRwaitTimeout id = if h.deadline ≤ s.pclk (s.partOfWave id) then s.heldCheck id else s := by
  simp only [State.evRwaitTimeout, hw, hh]

/-- The wake of a parked wave (R56, R57). -/
theorem evWake_eq {s : State} {id : WaveId} {w : Wave} {k : Wake} (hw : s.wave id = some w) (hk : w.parked = some k) :
    s.evWake id = if s.wakeMet id w k = false then s else
      ((((s.setWave id (some { w with
        parked := none
        activeSince := s.clk
        readySince := s.clk })).updCore id.core (fun c => { c with
          perf := sset 0 c.perf 2 (sget 0 c.perf 2 + (s.clk - w.parkedAt)) })).settle id).rebalance id.core id.sched) := by
  simp only [State.evWake, hw, hk, Bool.not_eq_true'] <;> rfl

/-- The delivery of a fault once no result is pending (R448, R463). -/
theorem evFaultDelivery_eq {s : State} {id : WaveId} {w : Wave} {f : FaultInfo} (hw : s.wave id = some w) (hf : w.faultPending = some f)
    (hl : w.live s.clk = []) : s.evFaultDelivery id = match w.walk with
      | some h =>
        if h.refused then s.kill id 1 0x18 f.code 0 { f with xinfo := BitVec.ofNat 64 h.va }
        else if h.demand then s
        else (s.setWave id (some { w with walk := none })).deliver id f
      | none => s.deliver id f := by
  simp only [State.evFaultDelivery, hw, hf, hl, ne_eq, not_true_eq_false, if_false] <;> rfl

/-- The steps of a wave that is not at a walk. -/
theorem wavesStep_holds : Claims.wavesStep := by
  intro s id w hw
  refine ⟨fun h g hh hg hd => becomes_of_next rfl ?_, fun h hh hd => becomes_of_next rfl ?_, rfl, fun ha hm hn hs hf => becomes_of_next rfl ?_,
    fun k hk => ⟨fun hmet => becomes_of_next rfl ?_, fun hmet => becomes_of_next rfl ?_⟩,
    fun f hf => ⟨fun hl => becomes_of_next rfl ?_, fun hl hwalk => becomes_of_next rfl ?_, fun hl h hwalk =>
      ⟨fun hr => becomes_of_next rfl ?_, fun hr hd => becomes_of_next rfl ?_, fun hr hd => becomes_of_next rfl ?_⟩⟩, fun x r a hx => becomes_of_next rfl ?_⟩
  · rw [evRwaitTimeout_eq hw hh, partOfWave_eq hw hg, if_pos hd, heldCheck_eq hw hh hg]
  · rw [evRwaitTimeout_eq hw hh, if_neg (Nat.not_le.2 hd)]
  · have hactive : (w.active || decide (w.parked.map (fun k => k.kind) = some 0x0D)) = true := by
      simpa [Option.map_eq_some_iff] using ha
    simp only [State.evPrefill, hw, hactive, hm, hn, hs, hf, Option.isNone_none, Bool.not_false, Bool.and_self, if_true]
  · rw [evWake_eq hw hk, if_pos hmet]
  · rw [evWake_eq hw hk, hmet, if_neg Bool.noConfusion]
  · simp only [State.evFaultDelivery, hw, hf, hl, ne_eq, not_false_eq_true, if_true]
  · rw [evFaultDelivery_eq hw hf hl, hwalk]
  · rw [evFaultDelivery_eq hw hf hl, hwalk]
    exact if_pos hr
  · rw [evFaultDelivery_eq hw hf hl, hwalk]
    dsimp only
    rw [hr, hd]
    rfl
  · rw [evFaultDelivery_eq hw hf hl, hwalk]
    dsimp only
    rw [hr, hd]
    rfl
  · rw [hx]

/-! ### Walks -/

/-- A walk's start changes no core. -/
theorem cores_startWalk (s : State) (core vf va : Nat) : (s.startWalk core vf va).cores = s.cores := by
  unfold State.startWalk
  dsimp only
  split <;> split <;> rfl

/-- A held walk before it expires, and as it does (R477). -/
theorem evHoldExpiry_eq {s : State} {id : WaveId} {w : Wave} {h : WalkHold} (hw : s.wave id = some w) (hh : w.walk = some h)
    (hp : w.parked = none) : s.evHoldExpiry id = if h.done || h.demand || h.refused then s
      else if s.clk < h.start + 64 ∧ (s.core id.core).preempt.isNone ∧ w.stopPending = false then s else s.parkHold id w h.va := by
  simp only [State.evHoldExpiry, hw, hh, hp]

/-- The end of a walk that a wave waits for (R104). -/
theorem evWalkDone_eq {s : State} {id : WaveId} {w : Wave} {h : WalkHold} (hw : s.wave id = some w) (hh : w.walk = some h)
    (hdone : h.done = false) (hdemand : h.demand = false) : s.evWalkDone id =
      let vf := s.vfOfWave id
      let u := s.startWalk id.core vf h.va
      match (sget [] u.walks (sectorOf id.core)).find? (fun k => k.serves vf (h.va / 4096) (u.level0 vf h.va)) with
      | some k => u.finishWalk (sectorOf id.core) k
      | none => u := by
  simp only [State.evWalkDone, hw, hh, hdone, hdemand, Bool.or_self, Bool.false_eq_true, if_false] <;> rfl

/-- A walk reaches a wave that waits for it (R104, R477). -/
theorem walkReaches_eq {s : State} {id : WaveId} {w : Wave} {h : WalkHold} {k : Walk} (hw : s.wave id = some w) (hh : w.walk = some h)
    (hdone : h.done = false) (hdemand : h.demand = false)
    (hserves : k.serves (s.vfOfWave id) (h.va / 4096) (s.level0 (s.vfOfWave id) h.va) = true) : s.walkReaches k id =
      (match s.walk (s.vfOfWave id) h.va with
        | .page t => s.updCore id.core (fun c => if (c.tlbFind t.vf h.va).isSome then c else c.tlbFill t)
        | _ => s).updWave id (fun v => { v with walk := some { h with done := true } }) := by
  simp only [State.walkReaches, hw, hh, hdone, hdemand, hserves, Bool.or_self, Bool.not_true, Bool.false_eq_true, if_false] <;> rfl

/-- The function of a wave follows from the cores. -/
theorem vfOfWave_of_cores {s t : State} (h : t.cores = s.cores) (id : WaveId) : t.vfOfWave id = s.vfOfWave id := by
  simp only [State.vfOfWave, State.wave, State.wg, State.core, h]

/-- A resident wave follows from the cores. -/
theorem wave_of_cores {s t : State} (h : t.cores = s.cores) (id : WaveId) : t.wave id = s.wave id := by
  simp only [State.wave, State.core, h]

/-- A GROW page that a store needs (R106, R108). -/
theorem evDemandMap_eq {s : State} {id : WaveId} {w : Wave} {h : WalkHold} {a : Nat} (hw : s.wave id = some w) (hh : w.walk = some h)
    (hd : h.demand = true) (hr : h.refused = false) (hwalk : s.walk (s.vfOfWave id) h.va = .grow a) : s.evDemandMap id =
      match s.demandMap (s.vfOfWave id) h.va a 0 with
      | (true, t) => (match t.walk (s.vfOfWave id) h.va with
        | .page _ => t.updWave id (fun v => { v with walk := some { h with
          demand := false
          done := true } })
        | _ => t)
      | (false, t) => if w.parked.isSome then s else (t.updWave id (fun v => { v with
          parked := some ⟨0x0C, h.va / 65536, 0⟩
          parkedAt := s.clk
          stopped := v.stopped || v.stopPending
          stopPending := false })).rebalance id.core id.sched := by
  simp only [State.evDemandMap, hw, hh, hd, hr, hwalk, Bool.not_true, Bool.or_self, Bool.false_eq_true, if_false] <;> rfl

/-- The steps of a wave that is held for a walk. -/
theorem translationSteps_holds : Claims.translationSteps := by
  intro s id w h hw hh
  refine ⟨fun hp hdone hdemand hrefused => ⟨fun hexp => becomes_of_next rfl ?_, fun hclk hpre hstop => becomes_of_next rfl ?_⟩,
    fun hor => becomes_of_next rfl ?_, fun hdone hdemand => ?_, fun hdemand hrefused a t hwalk =>
      ⟨fun hmap hno => becomes_of_next rfl ?_, fun p hmap hpage => becomes_of_next rfl ?_, fun hmap hp hclk => becomes_of_next rfl ?_⟩⟩
  · have hnot : ¬ (s.clk < h.start + 64 ∧ (s.core id.core).preempt.isNone = true ∧ w.stopPending = false) := by
      rintro ⟨hlt, hnone, hstop⟩
      rcases hexp with hle | hpre | hpend
      · exact Nat.not_lt.2 hle hlt
      · exact hpre (Option.isNone_iff_eq_none.1 hnone)
      · exact Bool.false_ne_true (hstop.symm.trans hpend)
    rw [evHoldExpiry_eq hw hh hp, hdone, hdemand, hrefused]
    exact (if_neg Bool.false_ne_true).trans (if_neg hnot)
  · rw [evHoldExpiry_eq hw hh hp, hdone, hdemand, hrefused]
    exact (if_neg Bool.false_ne_true).trans (if_pos ⟨hclk, Option.isNone_iff_eq_none.2 hpre, hstop⟩)
  · have hor' : (h.done || h.demand) = true := by simpa using hor
    simp only [State.evWalkDone, hw, hh, hor', if_true]
  · intro vf sec u joined left done
    have hcores : ∀ k, (left k).cores = s.cores := fun _ => cores_startWalk ..
    refine ⟨fun hno => becomes_of_next rfl ?_, fun k hk => becomes_of_next rfl ?_, fun k v hk hone hlist => ?_⟩
    · rw [evWalkDone_eq hw hh hdone hdemand]
      dsimp only
      generalize hx : List.find? _ _ = x
      cases x with
      | none => rfl
      | some k => exact absurd hx (hno k)
    · rw [evWalkDone_eq hw hh hdone hdemand]
      dsimp only
      generalize hx : List.find? _ _ = x
      cases hx.symm.trans hk
      rfl
    · have hreach : u.finishWalk sec k = (left k).walkReaches k id := by
        rw [State.finishWalk, hone]
        show List.foldl _ _ (((left k).core id.core).waveList id.core) = _
        rw [hlist]
        rfl
      have hvf : (left k).vfOfWave id = vf := vfOfWave_of_cores (hcores k) id
      have hserves : k.serves ((left k).vfOfWave id) (h.va / 4096) ((left k).level0 ((left k).vfOfWave id) h.va) = true := by
        rw [hvf]
        exact (List.find?_some hk :)
      rw [hreach, walkReaches_eq ((wave_of_cores (hcores k) id).trans hw) hh hdone hdemand hserves, hvf]
      refine ⟨fun code d hw => ?_, fun a hw => ?_, fun p hw => ?_⟩
      · rw [hw]
      · rw [hw]
      · rw [hw]
  · rw [evDemandMap_eq hw hh hdemand hrefused hwalk, hmap]
    dsimp only
    split
    · next p hpage => exact absurd hpage (hno p)
    · rfl
  · rw [evDemandMap_eq hw hh hdemand hrefused hwalk, hmap]
    dsimp only
    rw [hpage]
  · rw [evDemandMap_eq hw hh hdemand hrefused hwalk, hmap, hp, parks, hclk]
    rfl

/-- Settles O32: each step of a wave looks at its wave and takes the branch the rules name. -/
theorem waveSteps : Obligations.WaveSteps := ⟨wavesStep_holds, translationSteps_holds⟩

end Sys2Proof.Laws
end


section
/-!
PROOF. What returns to a wave (R83, R94, R176, R232, R264, R266, R267, R284, R287, R307, R521).
-/

namespace Sys2Proof.Laws
open Sys2Proof.Machine Sys2Proof.Claims

/-- An access in flight bears the tag it is found under. -/
theorem tag_of_flying {s : State} {id : WaveId} {tag : Nat} {w : Wave} {f : Flight} (h : Flying s id tag w f) : f.tag = tag :=
  of_decide_eq_true (List.find?_some h.2 :)

/-- The return of a direct load that may be performed (R94). -/
theorem evDirectLoadReturn_load {s : State} {id : WaveId} {tag : Nat} {w : Wave} {f : Flight} {accs : List LaneAcc} {size : Nat}
    {signed : Bool} {reg mode : Nat} {priv : Bool} {mask : BitVec 8} (h : Flying s id tag w f)
    (hop : f.op = .load accs size signed reg mode priv mask) (hp : s.canPerform w f = true) :
    s.evDirectLoadReturn id tag = (s.performAll id (some tag)).loadReturn id f accs size signed reg mode priv mask := by
  obtain ⟨hw, hf⟩ := h
  simp only [State.evDirectLoadReturn, hw, hf, hp, hop, Bool.not_true, Bool.false_eq_true, if_false]

/-- The return of the linkage read of `calli` that may be performed (R232). -/
theorem evDirectLoadReturn_call {s : State} {id : WaveId} {tag : Nat} {w : Wave} {f : Flight} {e : LaneAcc} {reg : Nat} {act eff : Mask}
    (h : Flying s id tag w f) (hop : f.op = .callRead e reg act eff) (hp : s.canPerform w f = true) :
    s.evDirectLoadReturn id tag = (s.performAll id (some tag)).callReturn id f e reg act eff := by
  obtain ⟨hw, hf⟩ := h
  simp only [State.evDirectLoadReturn, hw, hf, hp, hop, Bool.not_true, Bool.false_eq_true, if_false]

/-- The reply of a remote access (R83, R264). -/
theorem evRemoteReply_eq {s : State} {id : WaveId} {tag : Nat} {w : Wave} {f : Flight} {write : Bool} {core wg : Nat} {accs : List (Nat × Nat)}
    {size : Nat} {signed : Bool} {reg : Nat} {data : List (Nat × Byte)} (h : Flying s id tag w f)
    (hop : f.op = .remote write core wg accs size signed reg data) (hb : w.blockedBefore tag = false) : s.evRemoteReply id tag =
      let u := s.countPasses core (passCount size (accs.map (fun (a : Nat × Nat) => (a.1, [a.2 / 4]))))
      if write then (u.writeSpace core .sp data).finish id tag else u.finishWith id tag (u.readLocal core (some .sp) accs size signed reg) := by
  obtain ⟨hw, hf⟩ := h
  simp only [State.evRemoteReply, hw, hf, hop, hb, Bool.false_eq_true, if_false]

/-- A pop whose entries have filled (R267, R455). -/
theorem popWrite_eq {s : State} {id : WaveId} {w : Wave} {f : Flight} {q seq count reg : Nat} {es : List QEntry} (hcount : count ≠ 0)
    (hes : (s.queue id.core w.wg q).entries.filter (fun e => decide (e.group = seq)) = es) (hlen : es.length = count)
    (hfill : ∀ e ∈ es, e.filled = true) : s.popWrite id w f q seq count reg =
      let u := s.updQueue id.core w.wg q (fun d => d.discard seq)
      (match es.findSome? (fun (e : QEntry) => e.poison) with
      | some va => (u.deferFault id f 0x10 2 f.fmask va).finish id f.tag
      | none => u.finishWith id f.tag (popWrites es reg f.fmask)).levelFell id.core w.wg := by
  have hgo : ¬ (count = 0 ∨ es.length ≠ count ∨ es.any (fun e => !e.filled) = true) := by
    rintro (h | h | h)
    · exact hcount h
    · exact h hlen
    · obtain ⟨e, hmem, he⟩ := List.any_eq_true.1 h
      rw [hfill e hmem] at he
      exact Bool.false_ne_true he
  simp only [State.popWrite, hes, hgo, if_false] <;> rfl

/-- A result of variable latency, by what is in flight. -/
theorem evResult_eq {s : State} {id : WaveId} {tag : Nat} {w : Wave} {f : Flight} (h : Flying s id tag w f) :
    (∀ ws, f.op = .result ws → s.evResult id tag = s.finishWith id tag ws) ∧
    (∀ q seq count reg, f.op = .pop q seq count reg → s.evResult id tag = s.popWrite id w f q seq count reg) ∧
    (∀ reg count, f.op = .trim reg count → s.evResult id tag = s.trimWrite id tag reg count) := by
  obtain ⟨hw, hf⟩ := h
  refine ⟨fun ws hop => ?_, fun q seq count reg hop => ?_, fun reg count hop => ?_⟩
  · simp only [State.evResult, State.evVariableWrite, State.evVariableResult, State.evResultWrite, hw, hf, hop]
  · simp only [State.evResult, State.evVariableWrite, State.evVariableResult, hw, hf, hop]
  · simp only [State.evResult, State.evVariableWrite, hw, hf, hop]

/-- Whether every trimmed page of a function is quiet. -/
theorem trims_all_quiet (s : State) (part vf : Nat) :
    (s.part part).trims.all (fun t => decide (t.vf ≠ vf) || s.trimQuiet t) = true ↔
      ∀ x ∈ (s.part part).trims, x.vf = vf → s.trimQuiet x = true := by
  simp only [List.all_eq_true, Bool.or_eq_true, decide_eq_true_eq, ne_eq, ← imp_iff_not_or]

/-- A row of a gather (R284, R489). -/
theorem evGatherRow_eq {s : State} {id : WaveId} {tag lane : Nat} {w : Wave} {f : Flight} {n base len : Nat} {rows : List LaneAcc}
    (h : Flying s id tag w f) (hop : f.op = .gather n base len rows) (hmine : rows.filter (fun a => decide (a.lane = lane)) ≠ []) :
    s.evGatherRow id tag lane =
      let mine := rows.filter (fun a => decide (a.lane = lane))
      let rest := rows.filter (fun a => decide (a.lane ≠ lane))
      match s.rowPoison len mine with
      | some a => ((s.engineFault id.core w.wg w.index f.pc 0x10 2 a.va).finish id tag).pruneBatches id.core
      | none =>
        let u := s.updCore id.core (fun c => c.setSpaceBytes .ab (base + lane * len) (s.rowBytes (s.partOfWave id) f.applied len mine))
        if rest = [] then (u.finish id tag).pruneBatches id.core
        else u.updWave id (fun v => v.setOp tag (.gather n base len rest)) := by
  obtain ⟨hw, hf⟩ := h
  simp only [State.evGatherRow, hw, hf, hop, hmine, if_false] <;> rfl

/-- An image fetch that completes: the first fault's code, or whether its words are valid (R307). -/
theorem evSmpImage_eq {s : State} {id : WaveId} {tag : Nat} {w : Wave} {f : Flight} {slot o reg : Nat} {g : Workgroup}
    {bad : Option Nat} {img : List Dword} (h : Flying s id tag w f) (hop : f.op = .smpImage slot o reg) (hg : s.wg id.core w.wg = some g)
    (hbad : ((List.range 32).map (fun i => s.imageDword id g (sget 0#128 w.segs 15) (o + i))).findSome? (fun x => match x with
      | .error c => some c
      | .ok _ => none) = bad)
    (himg : ((List.range 32).map (fun i => s.imageDword id g (sget 0#128 w.segs 15) (o + i))).filterMap (fun x => match x with
      | .ok v => some v
      | .error _ => none) = img) :
    s.evSmpImage id tag =
      let status := bad.getD (if (img.take 16).all smpValid then 0 else 0x12)
      (s.updCore id.core (fun k => { k with
        smp := sset SmpSlot.empty k.smp slot (if status = 0 then ⟨.loaded, w.wg, img⟩ else ⟨.invalid, w.wg, []⟩) })).finishWith id tag
        [⟨reg, 0, wd status⟩] := by
  obtain ⟨hw, hf⟩ := h
  simp only [State.evSmpImage, hw, hf, hg, hop]
  generalize hx : List.findSome? _ _ = x
  cases hx.symm.trans hbad
  generalize hy : List.filterMap _ _ = y
  cases hy.symm.trans himg
  cases bad <;> rfl

/-- Settles O33: each return looks at the access in flight under its tag, and does what its operation says. -/
theorem accessReturns : Obligations.AccessReturns := by
  unfold Obligations.AccessReturns
  intro s id tag w f h t
  have htag := tag_of_flying h
  obtain ⟨hresult, hpop, htrim⟩ := evResult_eq h
  refine ⟨fun accs size signed reg nl1 priv mask ws bad u hop hp hread => ⟨fun hbad => becomes_of_next rfl ?_,
      fun a rest hbad => becomes_of_next rfl ?_⟩,
    fun e reg act eff hop hp => becomes_of_next rfl (evDirectLoadReturn_call h hop hp),
    fun core wg accs size signed reg data hb => ⟨fun hop => becomes_of_next rfl ?_, fun hop => becomes_of_next rfl ?_⟩,
    fun q n accs size signed scalar nl1 mask hop hp => becomes_of_next rfl ?_,
    fun ws hop => becomes_of_next rfl (hresult ws hop),
    fun q seq count reg es hop hcount hes hlen hfill => ⟨fun hno => becomes_of_next rfl ?_, fun va hva => becomes_of_next rfl ?_⟩,
    fun reg count hop => ⟨fun hall => becomes_of_next rfl ?_, fun hall => becomes_of_next rfl ?_⟩,
    fun n base len rows lane hop hmine => ⟨fun a ha => becomes_of_next rfl ?_, fun hno => becomes_of_next rfl ?_⟩,
    fun slot o reg g img hop hg himg => becomes_of_next rfl ?_,
    fun slot o reg g code hop hg hcode hbad => becomes_of_next rfl ?_,
    fun accs size signed reg nl1 priv mask hop => becomes_of_next rfl ?_⟩
  · rw [evDirectLoadReturn_load h hop hp, State.loadReturn, hread, hbad]
  · rw [evDirectLoadReturn_load h hop hp, State.loadReturn, hread, hbad]
  · exact (evRemoteReply_eq h hop hb).trans (if_pos rfl)
  · exact (evRemoteReply_eq h hop hb).trans (if_neg Bool.false_ne_true)
  · simp only [State.evQueueFill, h.1, h.2, hop, hp, if_true]
  · rw [hpop _ _ _ _ hop, popWrite_eq hcount hes hlen hfill, List.findSome?_eq_none_iff.2 hno]
  · rw [hpop _ _ _ _ hop, popWrite_eq hcount hes hlen hfill, hva]
  · rw [htrim _ _ hop]
    exact if_pos ((trims_all_quiet ..).2 hall)
  · rw [htrim _ _ hop]
    exact if_neg (mt (trims_all_quiet ..).1 hall)
  · rw [evGatherRow_eq h hop hmine]
    dsimp only
    rw [ha]
  · rw [evGatherRow_eq h hop hmine]
    dsimp only
    rw [hno]
  · rw [evSmpImage_eq (bad := none) (img := img) h hop hg (by rw [himg]; exact findSome_passes (fun _ => rfl) img)
      (by rw [himg]; exact filterMap_passes (fun _ => rfl) img)]
    by_cases hv : (img.take 16).all smpValid = true
    · simp [hv, wd]
    · simp [hv, wd]
  · rw [evSmpImage_eq h hop hg hbad rfl]
    simp only [Option.getD_some, hcode, if_false]
    rfl
  · simp only [h.1, h.2, hop, State.landOne]

end Sys2Proof.Laws
end


section
/-!
PROOF. Units of the copy engine and the return of trimmed frames (R110, R282, R480, R486, R489).
-/

namespace Sys2Proof.Laws
open Sys2Proof.Machine Sys2Proof.Claims

/-- The next unit of a channel, inbound (R282). -/
theorem evCopyUnit_inbound {s : State} {core wg chan : Nat} {g : Workgroup} {p : CopyPart} {rest : List CopyPart}
    (hg : s.wg core wg = some g) (htodo : (sget Channel.fresh g.channels chan).todo = p :: rest) (hrun : s.channelRuns core g p = true)
    (hdir : p.dir < 3) : s.evCopyUnit core wg chan =
      let land := fun (u : State) (bs : List Byte) =>
        (u.updCore core (fun c => c.setSpaceBytes (copySpace p.dir) ((g.alloc (copySpace p.dir)).start + p.loc) bs)).unitDone core wg chan p
      match s.engineTranslate g.vf g.part p.va .load with
      | .ok pa _ =>
        if s.poisoned pa then s.copyFault core wg chan p 0x10 2
        else land (s.touchLeaf g.vf p.va false) (s.engineRead g.part (s.appliedMask core g.part) pa 64)
      | .bad c d => s.copyFault core wg chan p c d
      | _ => land s (List.replicate 64 0#8) := by
  simp only [State.evCopyUnit, hg, htodo, hrun, Bool.not_true, Bool.false_eq_true, if_false, hdir, if_true] <;> rfl

/-- The next unit of a channel, outbound (R282). -/
theorem evCopyUnit_outbound {s : State} {core wg chan : Nat} {g : Workgroup} {p : CopyPart} {rest : List CopyPart}
    (hg : s.wg core wg = some g) (htodo : (sget Channel.fresh g.channels chan).todo = p :: rest) (hrun : s.channelRuns core g p = true)
    (hdir : 3 ≤ p.dir) : s.evCopyUnit core wg chan = match p.sent with
      | some pa => if (List.range 16).any (fun i => s.wordHeld (pa / 4 + i)) then s else s.unitDone core wg chan p
      | none => match s.engineTranslate g.vf g.part p.va .store with
        | .ok pa _ =>
          let bytes := byteList pa ((s.core core).spaceBytes (copySpace p.dir) ((g.alloc (copySpace p.dir)).start + p.loc) 64)
          let r := s.touchLeaf g.vf p.va true
          if r.mustHold bytes then (r.register .engine g.ctx bytes).updWg core wg (fun g =>
            let ch := sget Channel.fresh g.channels chan
            { g with channels := sset Channel.fresh g.channels chan { ch with todo := { p with sent := some pa } :: ch.todo.drop 1 } })
          else (r.register .engine g.ctx bytes).unitDone core wg chan p
        | .grow a => (s.demandMap g.vf p.va a 1).2
        | .bad c d => s.copyFault core wg chan p c d
        | .miss => s := by
  simp only [State.evCopyUnit, hg, htodo, hrun, Bool.not_true, Bool.false_eq_true, if_false, Nat.not_lt.2 hdir] <;> rfl

/-- What a channel still has to move, its first unit marked as sent. -/
theorem channelTodo_eq {t : State} {core wg chan : Nat} {h : Workgroup} {p q : CopyPart} {rest : List CopyPart}
    (hg : t.wg core wg = some h) (htodo : (sget Channel.fresh h.channels chan).todo = p :: rest) :
    t.updWg core wg (fun g =>
      let ch := sget Channel.fresh g.channels chan
      { g with channels := sset Channel.fresh g.channels chan { ch with todo := q :: ch.todo.drop 1 } }) =
      channelTodo t core wg chan (q :: rest) := by
  simp only [channelTodo, State.updWg, hg, htodo, List.drop_succ_cons, List.drop_zero]

/-- The steps of a channel that has a unit to move. -/
theorem copyUnit_steps {s : State} {core wg chan : Nat} {g : Workgroup} {p : CopyPart} {rest : List CopyPart}
    (hg : s.wg core wg = some g) (htodo : (sget Channel.fresh g.channels chan).todo = p :: rest) (hrun : s.channelRuns core g p = true) :
    let space := copySpace p.dir
    let start := (g.alloc space).start + p.loc
    let becomes := Becomes (.copyUnitVisible core wg chan) s
    (p.dir < 3 → ∀ pa leaf, s.engineTranslate g.vf g.part p.va .load = .ok pa leaf →
      (s.poisoned pa = true → becomes (s.copyFault core wg chan p 0x10 2)) ∧
      (s.poisoned pa = false → becomes (((s.touchLeaf g.vf p.va false).updCore core (fun c =>
        c.setSpaceBytes space start (s.engineRead g.part (s.appliedMask core g.part) pa 64))).unitDone core wg chan p))) ∧
    (p.dir < 3 → ∀ a, s.engineTranslate g.vf g.part p.va .load = .grow a → becomes
      ((s.updCore core (fun c => c.setSpaceBytes space start (List.replicate 64 0#8))).unitDone core wg chan p)) ∧
    (3 ≤ p.dir → p.sent = none → ∀ pa leaf, s.engineTranslate g.vf g.part p.va .store = .ok pa leaf →
      let bytes := byteList pa ((s.core core).spaceBytes space start 64)
      let r := s.touchLeaf g.vf p.va true
      let t := r.register .engine g.ctx bytes
      (r.mustHold bytes = false → becomes (t.unitDone core wg chan p)) ∧
      (r.mustHold bytes = true → ∀ h, t.wg core wg = some h → (sget Channel.fresh h.channels chan).todo = p :: rest →
        becomes (channelTodo t core wg chan ({ p with sent := some pa } :: rest)))) ∧
    (3 ≤ p.dir → ∀ pa, p.sent = some pa → becomes
      (if (List.range 16).any (fun i => s.wordHeld (pa / 4 + i)) then s else s.unitDone core wg chan p)) ∧
    (3 ≤ p.dir → p.sent = none → ∀ a, s.engineTranslate g.vf g.part p.va .store = .grow a →
      becomes (s.demandMap g.vf p.va a 1).2) ∧
    (∀ code d, s.engineTranslate g.vf g.part p.va (if p.dir < 3 then .load else .store) = .bad code d → (p.dir < 3 ∨ p.sent = none) →
      becomes (s.copyFault core wg chan p code d)) := by
  intro space start becomes
  refine ⟨fun hdir pa leaf htr => ⟨fun hp => becomes_of_next rfl ?_, fun hp => becomes_of_next rfl ?_⟩,
    fun hdir a htr => becomes_of_next rfl ?_,
    fun hdir hs pa leaf htr => ⟨fun hh => becomes_of_next rfl ?_, fun hh h hwg ht => becomes_of_next rfl ?_⟩,
    fun hdir pa hs => becomes_of_next rfl ?_, fun hdir hs a htr => becomes_of_next rfl ?_,
    fun code d htr hor => becomes_of_next rfl ?_⟩
  · rw [evCopyUnit_inbound hg htodo hrun hdir]
    dsimp only
    rw [htr]
    exact if_pos hp
  · rw [evCopyUnit_inbound hg htodo hrun hdir]
    dsimp only
    rw [htr]
    exact if_neg (by rw [hp]; exact Bool.false_ne_true)
  · rw [evCopyUnit_inbound hg htodo hrun hdir]
    dsimp only
    rw [htr]
  · rw [evCopyUnit_outbound hg htodo hrun hdir, hs, htr]
    exact if_neg (by rw [show State.mustHold _ _ = false from hh]; exact Bool.false_ne_true)
  · rw [evCopyUnit_outbound hg htodo hrun hdir, hs, htr]
    exact (if_pos hh).trans (channelTodo_eq hwg ht)
  · rw [evCopyUnit_outbound hg htodo hrun hdir, hs]
  · rw [evCopyUnit_outbound hg htodo hrun hdir, hs, htr]
  · by_cases hdir : p.dir < 3
    · rw [if_pos hdir] at htr
      rw [evCopyUnit_inbound hg htodo hrun hdir]
      dsimp only
      rw [htr]
    · rw [if_neg hdir] at htr
      rw [evCopyUnit_outbound hg htodo hrun (Nat.not_lt.1 hdir), hor.resolve_left hdir, htr]

/-! ### Trimmed frames (R110) -/

/-- The first trimmed page of a partition whose earlier accesses have completed goes on (R110). -/
theorem evTrimReturn_eq {s : State} {part : Nat} {x : TrimFrame}
    (hx : ((s.trimDrops part).part part).trims.find? (fun t => (s.trimDrops part).trimQuiet t) = some x) :
    s.evTrimReturn part =
      let u := s.trimDrops part
      let done := fun (t : State) => t.updPart part (fun q => { q with trims := q.trims.erase x })
      let count := u.poolField x.pool 351 288 + 4 * ((u.part part).rel x.frame / 65536)
      let v := (skeys u.cores).foldl (fun (t : State) n => t.writeBack n (fun k => decide (k / 16384 = x.frame / 65536))) u
      let n := v.homeNat count 4 - 1
      let t := v.engineWrite 0 count (bytesOfNat n 4)
      let z := (List.range 1024).foldl (fun (t : State) i => t.engineWrite 0 (x.frame + 64 * i) (List.replicate 64 0#8)) t
      let y : TrimFrame := { x with stage := 2 }
      if x.pool = 0 then done u else if u.trimHeld x count then u else if x.stage = 2 then (done u).returnFrame part x
      else if n ≠ 0 then done t else if (t.part part).retiring.contains x.frame then (done t).returnFrame part x
      else if z.trimHeld y count then z.updPart part (fun q => { q with trims := q.trims.map (fun r => if r = x then y else r) })
      else (done z).returnFrame part x := by
  simp only [State.evTrimReturn, hx]

/-- The step of a partition's trimmed frames (R110, R486). -/
theorem trimFrame_steps (s : State) (part : Nat) :
    let u := s.trimDrops part
    let done := fun (t : State) (x : TrimFrame) => t.updPart part (fun q => { q with trims := q.trims.erase x })
    ((∀ x ∈ (u.part part).trims, u.trimQuiet x = false) → Becomes (.trimFrameReturn part) s u) ∧
    (∀ x, (u.part part).trims.find? (fun t => u.trimQuiet t) = some x →
      let count := u.poolField x.pool 351 288 + 4 * ((u.part part).rel x.frame / 65536)
      (x.pool = 0 → Becomes (.trimFrameReturn part) s (done u x)) ∧
      (x.pool ≠ 0 → u.trimHeld x count = true → Becomes (.trimFrameReturn part) s u) ∧
      (x.pool ≠ 0 → u.trimHeld x count = false → x.stage = 2 → Becomes (.trimFrameReturn part) s ((done u x).returnFrame part x)) ∧
      (x.pool ≠ 0 → u.trimHeld x count = false → x.stage ≠ 2 →
        let v := (skeys u.cores).foldl (fun (t : State) n => t.writeBack n (fun k => decide (k / 16384 = x.frame / 65536))) u
        let n := v.homeNat count 4 - 1
        let t := v.engineWrite 0 count (bytesOfNat n 4)
        (n ≠ 0 → Becomes (.trimFrameReturn part) s (done t x)) ∧
        (n = 0 → x.frame ∈ (t.part part).retiring → Becomes (.trimFrameReturn part) s ((done t x).returnFrame part x)) ∧
        (n = 0 → x.frame ∉ (t.part part).retiring →
          let z := (List.range 1024).foldl (fun (t : State) i => t.engineWrite 0 (x.frame + 64 * i) (List.replicate 64 0#8)) t
          let y : TrimFrame := { x with stage := 2 }
          (z.trimHeld y count = true → Becomes (.trimFrameReturn part) s (z.updPart part (fun q =>
            { q with trims := q.trims.map (fun r => if r = x then y else r) }))) ∧
          (z.trimHeld y count = false → Becomes (.trimFrameReturn part) s ((done z x).returnFrame part x))))) := by
  intro u done
  have hfalse : ∀ {b : Bool}, b = false → ¬ b = true := fun h => by rw [h]; exact Bool.false_ne_true
  refine ⟨fun hno => becomes_of_next rfl ?_, fun x hx => ?_⟩
  · have hnone : ((s.trimDrops part).part part).trims.find? (fun t => (s.trimDrops part).trimQuiet t) = none :=
      List.find?_eq_none.2 fun x hmem => hfalse (hno x hmem)
    simp only [State.evTrimReturn, hnone] <;> rfl
  · have heq := evTrimReturn_eq hx
    refine ⟨fun hz => becomes_of_next rfl (heq.trans (if_pos hz)), fun hz hheld => becomes_of_next rfl (heq.trans ((if_neg hz).trans (if_pos hheld))),
      fun hz hheld hst => becomes_of_next rfl (heq.trans ((if_neg hz).trans ((if_neg (hfalse hheld)).trans (if_pos hst)))),
      fun hz hheld hst => ?_⟩
    intro v n t
    have heq' := heq.trans ((if_neg hz).trans ((if_neg (hfalse hheld)).trans (if_neg hst)))
    refine ⟨fun hn => becomes_of_next rfl (heq'.trans (if_pos hn)), fun hn hret => becomes_of_next rfl (heq'.trans ((if_neg (not_not_intro hn)).trans
      (if_pos (List.contains_iff_mem.2 hret)))), fun hn hret => ?_⟩
    have heq'' := heq'.trans ((if_neg (not_not_intro hn)).trans (if_neg (mt List.contains_iff_mem.1 hret)))
    exact ⟨fun hh => becomes_of_next rfl (heq''.trans (if_pos hh)), fun hh => becomes_of_next rfl (heq''.trans (if_neg (hfalse hh)))⟩

/-- Settles O34: a channel's step follows the direction and translation of its first unit, a trimmed frame's the rules of its stage. -/
theorem copySteps : Obligations.CopySteps := by
  unfold Obligations.CopySteps
  refine ⟨fun s core wg chan g p rest hg htodo => ⟨fun hrun => becomes_of_next rfl ?_, copyUnit_steps hg htodo⟩,
    fun s core wg chan g hg htodo => becomes_of_next rfl ?_, fun s core wg chan hg => becomes_of_next rfl ?_, trimFrame_steps⟩
  · simp only [State.evCopyUnit, hg, htodo, hrun, Bool.not_false, if_true]
  · simp only [State.evCopyUnit, hg, htodo]
  · simp only [State.evCopyUnit, hg]

end Sys2Proof.Laws
end


section
/-!
PROOF. Requests at the homes of sync cells, their answers, and registrations (R114 to R127, R271, R275, R277).
-/

namespace Sys2Proof.Laws
open Sys2Proof.Machine Sys2Proof.Claims

/-- A request that reaches its cell's home is decided there (R118). -/
theorem evCellRequest_eq {s : State} {id : WaveId} {tag cell : Nat} {w : Wave} {f : Flight} (h : ReachesHome s id tag cell w f) :
    (∀ va attempt reg mask phase n st, f.op = .acquire cell va attempt reg mask phase n st →
      phase = 0 ∨ phase = 1 ∧ s.updating cell tag = true →
      s.evCellRequest id tag = (atHome s id tag cell).acquireAtHome id w f cell attempt) ∧
    (∀ va, f.op = .release cell va → s.evCellRequest id tag =
      if (atHome s id tag cell).performedBefore id tag then (atHome s id tag cell).releaseAtHome id w f cell va else atHome s id tag cell) ∧
    (∀ va len vf base remove, f.op = .bindRegion cell va len vf base remove →
      s.evCellRequest id tag = (atHome s id tag cell).bindAtHome id w f cell va len vf base remove) ∧
    (∀ va entry reg, f.op = .linkage cell va entry reg →
      s.evCellRequest id tag = (atHome s id tag cell).linkageAtHome id f cell va entry reg) := by
  obtain ⟨⟨hw, hf⟩, hp, h1, h2⟩ := h
  refine ⟨fun va attempt reg mask phase n st hop hphase => ?_, fun va hop => ?_, fun va len vf base remove hop => ?_, fun va entry reg hop => ?_⟩
  · have hgo : (decide (phase = 0) || (phase == 1 && s.updating cell tag)) = true := by simpa using hphase
    simp only [State.evCellRequest, hw, hf, hp, hop, hgo, h1, h2, Bool.not_true, Bool.or_self, Bool.false_eq_true, if_false, if_true, atHome]
  · simp only [State.evCellRequest, hw, hf, hp, hop, h1, h2, Bool.not_true, Bool.or_self, Bool.false_eq_true, if_false, atHome] <;> rfl
  · simp only [State.evCellRequest, hw, hf, hp, hop, h1, h2, Bool.not_true, Bool.or_self, Bool.false_eq_true, if_false, atHome]
  · simp only [State.evCellRequest, hw, hf, hp, hop, h1, h2, Bool.not_true, Bool.or_self, Bool.false_eq_true, if_false, atHome]

/-- A free or POISONED cell is held by no wave (R115). -/
theorem holds_eq_false {s : State} {cell ident : Nat} (h : (s.cellWord cell).1 = 0) : s.holds cell ident = false := by
  simp [State.holds, h]

/-- An acquire at its cell's home (R117, R118). -/
theorem acquireAtHome_cases {t : State} {id : WaveId} {w : Wave} {f : Flight} {cell va : Nat} {attempt : Bool} {reg mask phase : Nat} {n : Word}
    {st : Nat} (hop : f.op = .acquire cell va attempt reg mask phase n st) :
    let me := t.identOf id w
    let holder := (t.cellWord cell).1
    let mid := (t.cellWord cell).2.1
    let count := (t.cellWord cell).2.2
    let x := t.acquireAtHome id w f cell attempt
    (t.updating cell f.tag = true → x = t.granted cell me f.tag) ∧
    (t.updating cell f.tag = false →
    (mid ≠ 0 → x = t.answerAcquire me f.tag count 3) ∧
    (mid = 0 → holder = 0xFFFF → x = t.answerAcquire me f.tag count 2) ∧
    (mid = 0 → holder ≠ 0 → holder ≠ 0xFFFF → attempt = true → x = t.answerAcquire me f.tag count 1) ∧
    (mid = 0 → holder ≠ 0 → holder ≠ 0xFFFF → attempt = false → t.holds cell me = true → x = t.answerAcquire me f.tag count 3) ∧
    (mid = 0 → holder = 0 → ∀ ctx, t.ctxOfIdent me = some ctx → x = t.setCell cell ctx count f.tag (fun u => u.granted cell me f.tag)) ∧
    (mid = 0 → holder ≠ 0 → holder ≠ 0xFFFF → t.holds cell me = false → attempt = false →
      x = (t.updCell cell (fun h => { h with waiters := h.waiters ++ [(me, f.tag)] })).updWave id (fun v =>
        v.setOp f.tag (.acquire cell va attempt reg mask 1 n st)))) := by
  intro me holder mid count x
  refine ⟨fun hup => if_pos hup, fun hup => ?_⟩
  have hup' : x = _ := if_neg (ne_true_of_eq_false hup)
  refine ⟨fun hm => hup'.trans (if_pos hm), fun hm hh => hup'.trans ((if_neg (not_not_intro hm)).trans (if_pos hh)),
    fun hm h0 hf ha => hup'.trans ((if_neg (not_not_intro hm)).trans ((if_neg hf).trans (if_pos ⟨ha, h0⟩))),
    fun hm h0 hf ha hhold => hup'.trans ((if_neg (not_not_intro hm)).trans ((if_neg hf).trans
      ((if_neg fun h => ne_true_of_eq_false ha h.1).trans (if_pos hhold)))),
    fun hm h0 ctx hctx => hup'.trans ((if_neg (not_not_intro hm)).trans ((if_neg ?_).trans
      ((if_neg fun h => h.2 h0).trans ((if_neg (ne_true_of_eq_false (holds_eq_false h0))).trans ((if_pos h0).trans ?_))))),
    fun hm h0 hf hhold ha => hup'.trans ((if_neg (not_not_intro hm)).trans ((if_neg hf).trans
      ((if_neg fun h => ne_true_of_eq_false ha h.1).trans ((if_neg (ne_true_of_eq_false hhold)).trans ((if_neg h0).trans ?_)))))⟩
  · exact fun h => absurd (h0.symm.trans h) (by decide)
  · rw [hctx]
    rfl
  · rw [hop]

/-- A binding at its cell's home (R116, R277). -/
theorem bindAtHome_cases (t : State) (id : WaveId) (w : Wave) (f : Flight) (cell va len vf base : Nat) (remove : Bool) :
    let me := t.identOf id w
    let mid := (t.cellWord cell).2.1
    let bs := (sget CellHome.fresh t.cells cell).bindings
    let x := t.bindAtHome id w f cell va len vf base remove
    (mid ≠ 0 ∨ t.holds cell me = false → x = t.syncFail id f va) ∧
    (mid = 0 → t.holds cell me = true → remove = true → (len, vf, base) ∈ bs →
      x = (t.updCell cell (fun h => { h with bindings := h.bindings.erase (len, vf, base) })).finish id f.tag) ∧
    (mid = 0 → t.holds cell me = true → remove = true → (len, vf, base) ∉ bs → x = t.syncFail id f va) ∧
    (mid = 0 → t.holds cell me = true → remove = false → 8 ≤ bs.length ∨ (bs = [] ∧ 64 ≤ t.boundCells cell) → x = t.syncFail id f va) ∧
    (mid = 0 → t.holds cell me = true → remove = false → bs.length < 8 → (bs ≠ [] ∨ t.boundCells cell < 64) →
      x = (t.updCell cell (fun h => { h with bindings := h.bindings ++ [(len, vf, base)] })).finish id f.tag) := by
  intro me mid bs x
  have hheld : mid = 0 → t.holds cell me = true → ¬ (mid ≠ 0 ∨ t.holds cell me = false) := by
    rintro hm hh (h | h)
    · exact h hm
    · exact ne_true_of_eq_false h hh
  refine ⟨fun h => if_pos h, fun hm hh hr hmem => (if_neg (hheld hm hh)).trans ((if_pos hr).trans (if_pos (List.contains_iff_mem.2 hmem))),
    fun hm hh hr hmem => (if_neg (hheld hm hh)).trans ((if_pos hr).trans (if_neg (mt List.contains_iff_mem.1 hmem))),
    fun hm hh hr hfull => (if_neg (hheld hm hh)).trans ((if_neg (ne_true_of_eq_false hr)).trans (if_pos hfull)),
    fun hm hh hr hlen hroom => (if_neg (hheld hm hh)).trans ((if_neg (ne_true_of_eq_false hr)).trans (if_neg ?_))⟩
  rintro (h | ⟨hnil, h⟩)
  · exact Nat.not_lt.2 h hlen
  · exact hroom.elim (fun h' => h' hnil) fun h' => Nat.not_lt.2 h h'

/-- A release at its cell's home (R119). -/
theorem releaseAtHome_cases (t : State) (id : WaveId) (w : Wave) (f : Flight) (cell va : Nat) :
    let free := fun (u : State) => ((u.updCell cell (fun h => { h with
      holder := none
      place := none
      update := none })).grantNext cell).finish id f.tag
    let p := fun (k : Nat) => inRuns (t.boundRuns cell) (4 * k) 4
    let u := t.writeBack id.core p
    let x := t.releaseAtHome id w f cell va
    (t.updating cell f.tag = true → x = free t) ∧
    (t.updating cell f.tag = false →
    (u.published id.core p = false → x = u) ∧
    (u.published id.core p = true → (u.cellWord cell).2.1 ≠ 0 ∨ u.holds cell (u.identOf id w) = false → x = u.syncFail id f va) ∧
    (u.published id.core p = true → (u.cellWord cell).2.1 = 0 → u.holds cell (u.identOf id w) = true →
      x = u.setCell cell 0 ((u.cellWord cell).2.2 + 1) f.tag free)) := by
  intro free p u x
  have hnot : ∀ {b : Bool}, b = true → ¬ (!b) = true := fun h => by rw [h]; exact Bool.false_ne_true
  refine ⟨fun hup => if_pos hup, fun hup => ?_⟩
  have hup' : x = _ := if_neg (ne_true_of_eq_false hup)
  refine ⟨fun hp => hup'.trans (if_pos (by rw [show State.published _ _ _ = false from hp]; rfl)),
    fun hp h => hup'.trans ((if_neg (hnot hp)).trans (if_pos h)),
    fun hp hm hh => hup'.trans ((if_neg (hnot hp)).trans (if_neg ?_))⟩
  rintro (h | h)
  · exact h hm
  · exact ne_true_of_eq_false h hh

/-- The steps of requests at their homes. -/
theorem cellsStep_holds : Claims.cellsStep := by
  intro s id tag cell w f hreach t me holder mid count becomes
  have htag : f.tag = tag := tag_of_flying hreach.1
  obtain ⟨hacq, hrel, hbind, hlink⟩ := evCellRequest_eq hreach
  have hbecomes : ∀ {u : State}, s.evCellRequest id tag = u → becomes u := fun h => becomes_of_next rfl h
  refine ⟨fun va attempt reg mask phase n st hop hphase => ?_, fun va len vf base remove hop => ?_, fun va entry reg hop => ?_, fun va hop => ?_⟩
  · have hx := hacq va attempt reg mask phase n st hop hphase
    obtain ⟨hup, hno⟩ := acquireAtHome_cases (t := t) (id := id) (w := w) hop
    rw [htag] at hup hno
    refine ⟨fun h => hbecomes (hx.trans (hup h)), fun h => ?_⟩
    obtain ⟨h1, h2, h3, h4, h5, h6⟩ := hno h
    rw [htag]
    exact ⟨fun a => hbecomes (hx.trans (h1 a)), fun a b => hbecomes (hx.trans (h2 a b)), fun a b c d => hbecomes (hx.trans (h3 a b c d)),
      fun a b c d e => hbecomes (hx.trans (h4 a b c d e)), fun a b ctx hctx => hbecomes (hx.trans (h5 a b ctx hctx)),
      fun a b c d e => hbecomes (hx.trans (h6 a b c d e))⟩
  · have hx := hbind va len vf base remove hop
    obtain ⟨h1, h2, h3, h4, h5⟩ := bindAtHome_cases t id w f cell va len vf base remove
    exact ⟨fun a => hbecomes (hx.trans (h1 a)), fun a b c d => hbecomes (hx.trans (h2 a b c d)), fun a b c d => hbecomes (hx.trans (h3 a b c d)),
      fun a b c d => hbecomes (hx.trans (h4 a b c d)), fun a b c d e => hbecomes (hx.trans (h5 a b c d e))⟩
  · have hx := hlink va entry reg hop
    exact ⟨fun a => hbecomes (hx.trans (if_pos a)), fun a b => hbecomes (hx.trans ((if_neg a).trans (if_pos b)))⟩
  · have hx := hrel va hop
    intro free p u
    obtain ⟨h1, h2⟩ := releaseAtHome_cases t id w f cell va
    refine ⟨fun a => hbecomes (hx.trans (if_neg (ne_true_of_eq_false a))), fun a b => hbecomes (hx.trans ((if_pos a).trans (h1 b))), fun a b => ?_⟩
    obtain ⟨h3, h4, h5⟩ := h2 b
    have hx' := hx.trans (if_pos a)
    exact ⟨fun a => hbecomes (hx'.trans (h3 a)), fun a b => hbecomes (hx'.trans (h4 a b)), fun a b c => hbecomes (hx'.trans (h5 a b c))⟩

/-! ### Answers and registrations -/

/-- The answer to an acquire arrives at its core (R117, R275). -/
theorem evAcquireGrant_eq {s : State} {id : WaveId} {tag : Nat} {w : Wave} {f : Flight} {cell va : Nat} {attempt : Bool} {reg mask : Nat}
    {count : Word} {status : Nat} (h : Flying s id tag w f) (hop : f.op = .acquire cell va attempt reg mask 2 count status) :
    s.evAcquireGrant id tag = match status with
      | 0 => answered (s.discardRuns id.core (s.boundRuns cell)) id tag
          (if attempt then [⟨reg, 0, count⟩, ⟨reg + 1, 0, 0#32⟩] else ⟨reg, 0, count⟩ :: (if mask = 0 then [] else [⟨0x200 + mask, 0, 0#32⟩]))
      | 1 => answered s id tag [⟨reg, 0, count⟩, ⟨reg + 1, 0, 1#32⟩]
      | 2 =>
        if attempt then answered s id tag [⟨reg, 0, count⟩, ⟨reg + 1, 0, 2#32⟩]
        else if mask ≠ 0 then answered s id tag [⟨reg, 0, count⟩, ⟨0x200 + mask, 0, 0xFFFFFFFF#32⟩]
        else (s.deferFault id f 0x10 3 f.fmask va).finish id tag
      | _ => s.syncFail id f va := by
  obtain ⟨hw, hf⟩ := h
  simp only [State.evAcquireGrant, hw, hf, hop]
  match status with
  | 0 | 1 | 2 | _ + 3 => rfl

/-- The clean words of a line expire where one is old (R121). -/
theorem evCleanLineExpiry_cases (s : State) (core line : Nat) :
    let old := fun (k : Nat) (w : L1Word) =>
      decide (k / 128 = line) && !w.owned && decide (w.priv = 0) && decide (w.filled + 65536 ≤ s.clk)
    ((∃ e ∈ (s.core core).l1, old e.1 e.2 = true) → s.evCleanLineExpiry core line =
      (s.updCore core (fun c => c.dropWords old)).dropGuests (fun sec a => decide (sec = sectorOf core) && decide (a / 512 = line))) ∧
    ((∀ e ∈ (s.core core).l1, old e.1 e.2 = false) → s.evCleanLineExpiry core line = s) := by
  intro old
  refine ⟨fun h => if_pos (List.any_eq_true.2 h), fun h => if_neg fun h' => ?_⟩
  obtain ⟨e, hmem, he⟩ := List.any_eq_true.1 h'
  exact ne_true_of_eq_false (h e hmem) he

/-- The answers to acquires, and registrations. -/
theorem answersAndRegistrations_holds : Claims.answersAndRegistrations := by
  refine ⟨fun s id tag w f cell va attempt reg mask count status h hop => ?_, fun s core word => ⟨rfl, rfl, rfl⟩, fun s core line => ?_⟩
  · have hx := evAcquireGrant_eq h hop
    intro becomes
    have hbecomes : ∀ {u : State}, s.evAcquireGrant id tag = u → becomes u := fun h => becomes_of_next rfl h
    refine ⟨fun hst => hbecomes ?_, fun hst => hbecomes ?_, fun hst ha => hbecomes ?_, fun hst ha hm => hbecomes ?_,
      fun hst ha hm => hbecomes ?_, fun hst => hbecomes ?_⟩
    · subst hst
      exact hx
    · subst hst
      exact hx
    · subst hst
      exact hx.trans (if_pos ha)
    · subst hst
      exact hx.trans ((if_neg (ne_true_of_eq_false ha)).trans (if_pos hm))
    · subst hst
      exact hx.trans ((if_neg (ne_true_of_eq_false ha)).trans (if_neg (not_not_intro hm)))
    · obtain ⟨k, rfl⟩ := Nat.exists_eq_add_of_le' (show 3 ≤ status from hst)
      exact hx
  · obtain ⟨h1, h2⟩ := evCleanLineExpiry_cases s core line
    exact ⟨fun h => becomes_of_next rfl (h1 h), fun h => becomes_of_next rfl (h2 h)⟩

/-- Settles O35: requests are decided at their cell's home, answers and registrations at their core. -/
theorem cellSteps : Obligations.CellSteps := ⟨cellsStep_holds, answersAndRegistrations_holds⟩

end Sys2Proof.Laws
end


section
/-!
PROOF. Global atomics at their homes (R127, R132, R272, R273, R485).
-/

namespace Sys2Proof.Laws
open Sys2Proof.Machine Sys2Proof.Claims

/-- An atomic may be performed, and its push has entered its queue. -/
theorem atomic_may_perform {s : State} {w : Wave} {f : Flight} {core kind q tag : Nat} (hp : s.canPerform w f = true)
    (hq : kind = 2 ∨ s.pushHeld core w.wg q tag = false) :
    (!s.canPerform w f || (decide (kind ≠ 2) && s.pushHeld core w.wg q tag)) = false := by
  rcases hq with hq | hq <;> simp [hp, hq]

/-- An atomic with every lane done fills its entries, or ends (R273). -/
theorem evAtomicAtHome_nil {s : State} {id : WaveId} {tag : Nat} {w : Wave} {f : Flight} {kind op size q seq : Nat}
    {olds : List (Nat × Nat)} (h : Flying s id tag w f) (hop : f.op = .atomic kind op size [] q seq olds) (hp : s.canPerform w f = true)
    (hq : kind = 2 ∨ s.pushHeld id.core w.wg q tag = false) : s.evAtomicAtHome id tag =
      ((if kind = 2 then s else s.atomFill id w.wg q seq size olds).finish id tag).settleWg id.core w.wg := by
  obtain ⟨hw, hf⟩ := h
  simp only [State.evAtomicAtHome, hw, hf, hop, atomic_may_perform hp hq, Bool.false_eq_true, if_false]

/-- An atomic takes its next lane to its home (R132, R273). -/
theorem evAtomicAtHome_cons {s : State} {id : WaveId} {tag : Nat} {w : Wave} {f : Flight} {kind op size q seq : Nat} {a : AtomLane}
    {rest : List AtomLane} {olds : List (Nat × Nat)} (h : Flying s id tag w f) (hop : f.op = .atomic kind op size (a :: rest) q seq olds)
    (hp : s.canPerform w f = true) (hq : kind = 2 ∨ s.pushHeld id.core w.wg q tag = false) : s.evAtomicAtHome id tag =
      let words := accWords (s.canon a.acc.pa) size
      let t := (s.performAll id (some tag)).yieldWords id.core words
      if words.any (fun x => t.wordHeld x) then t
      else if olds.any (fun o => decide (o.1 = a.acc.lane)) then
        t.updWave id (fun v => v.setOp tag (.atomic kind op size rest q seq olds))
      else t.atomLane id w f a kind op size q seq rest olds := by
  obtain ⟨hw, hf⟩ := h
  simp only [State.evAtomicAtHome, hw, hf, hop, atomic_may_perform hp hq, Bool.false_eq_true, if_false]

/-- The update of one lane at its home: the old value kept, the new one registered, or held (R132, R272). -/
theorem atomLane_of_clean {t : State} {id : WaveId} {w : Wave} {f : Flight} {a : AtomLane} {kind op size q seq : Nat} {rest : List AtomLane}
    {olds : List (Nat × Nat)} {g : Workgroup} (hp : t.poisoned a.acc.pa = false) (hg : t.wg id.core w.wg = some g) :
    let old := t.homeNat a.acc.pa size
    let bytes := if kind = 1 ∧ old ≠ a.x then [] else byteList (t.canon a.acc.pa)
      (bytesOfNat (if kind = 1 then a.y else atomNew op size old a.x) size)
    let held := decide (bytes ≠ []) && t.mustHold bytes
    t.atomLane id w f a kind op size q seq rest olds = (t.register (.core id.core) g.ctx bytes).updWave id (fun v =>
      v.setOp f.tag (.atomic kind op size (if held then a :: rest else rest) q seq (olds ++ [(a.acc.lane, old)]))) := by
  intro old bytes held
  have hbytes : (match (if kind = 1 then (if old = a.x then some a.y else none) else some (atomNew op size old a.x)) with
      | some x => byteList (t.canon a.acc.pa) (bytesOfNat x size)
      | none => []) = bytes := by
    by_cases hk : kind = 1
    · by_cases ho : old = a.x
      · simp only [hk, ho, if_true, ne_eq, not_true_eq_false, and_false, if_false, bytes]
      · simp only [hk, ho, if_true, if_false, ne_eq, not_false_eq_true, and_self, bytes]
    · simp only [hk, if_false, false_and, bytes]
  simp only [State.atomLane, hp, hg, Bool.false_eq_true, if_false]
  exact congrArg (fun bs => (t.register (.core id.core) g.ctx bs).updWave id (fun v => v.setOp f.tag (.atomic kind op size
    (if decide (bs ≠ []) && t.mustHold bs then a :: rest else rest) q seq (olds ++ [(a.acc.lane, old)])))) hbytes

/-- Poison stops the update of a lane: a reduction posts a record, another atomic marks its entries (R273, R485). -/
theorem atomLane_of_poison {t : State} {id : WaveId} {w : Wave} {f : Flight} {a : AtomLane} {kind op size q seq : Nat} {rest : List AtomLane}
    {olds : List (Nat × Nat)} (hp : t.poisoned a.acc.pa = true) :
    let put := fun (u : State) => u.updWave id (fun v => v.setOp f.tag (.atomic kind op size rest q seq (olds ++ [(a.acc.lane, 0)])))
    (kind = 2 → ∀ g, t.wg id.core w.wg = some g → t.atomLane id w f a kind op size q seq rest olds =
      put (t.postRecord g.vf (plainRecord 0x10 3 0 2 g.ctx g.vf a.acc.va (t.pclk g.part)).bits)) ∧
    (kind ≠ 2 → t.atomLane id w f a kind op size q seq rest olds = put (t.updQueue id.core w.wg q (fun d => { d with
      entries := d.entries.map (fun e => if e.group = seq ∧ e.poison.isNone then { e with poison := some (a.acc.va / 64 * 64) } else e) }))) := by
  refine ⟨fun hk g hg => ?_, fun hk => ?_⟩
  · simp only [State.atomLane, hp, hk, hg, if_true]
  · simp only [State.atomLane, hp, hk, if_true, if_false]

/-- Settles O36: each step takes one lane of the atomic to its home, or ends it. -/
theorem atomicSteps : Obligations.AtomicSteps := by
  unfold Obligations.AtomicSteps
  intro s id tag w f kind op size q seq todo olds h hop hp hq
  refine ⟨fun hnil => becomes_of_next rfl (evAtomicAtHome_nil h (hnil ▸ hop) hp hq), fun a rest hcons => ?_⟩
  subst hcons
  have heq := evAtomicAtHome_cons h hop hp hq
  intro words t put
  refine ⟨fun hheld => becomes_of_next rfl (heq.trans (if_pos hheld)), fun hfree hnew => ?_, fun hfree hdone => becomes_of_next rfl ?_⟩
  · have hno : ¬ olds.any (fun o => decide (o.1 = a.acc.lane)) = true := fun h => by
      obtain ⟨o, hmem, ho⟩ := List.any_eq_true.1 h
      exact hnew o hmem (of_decide_eq_true ho)
    have hlane := heq.trans ((if_neg (ne_true_of_eq_false hfree)).trans (if_neg hno))
    refine ⟨fun hpois g hg => becomes_of_next rfl (hlane.trans (atomLane_of_clean hpois hg)),
      fun hpois hk g hg => becomes_of_next rfl (hlane.trans ((atomLane_of_poison hpois).1 hk g hg)),
      fun hpois hk => becomes_of_next rfl (hlane.trans ((atomLane_of_poison hpois).2 hk))⟩
  · obtain ⟨o, hmem, ho⟩ := hdone
    exact heq.trans ((if_neg (ne_true_of_eq_false hfree)).trans (if_pos (List.any_eq_true.2 ⟨o, hmem, decide_eq_true ho⟩)))

end Sys2Proof.Laws
end


section
/-!
PROOF. Commands of the matrix unit and the row path start and retire (R149, R157, R298, R304, R311 to R314).
-/

namespace Sys2Proof.Laws
open Sys2Proof.Machine Sys2Proof.Claims

/-! ### Tiles -/

/-- Positions paired with what a list of positions gives. -/
theorem zip_range_map {α β : Type} (n : Nat) (f : Nat → α) (g : Nat × α → β) :
    (((List.range n).zip ((List.range n).map f)).map g) = (List.range n).map (fun i => g (i, f i)) := by
  rw [List.zip_map_right, List.zip_eq_zipWith, List.zipWith_self, List.map_map, List.map_map]
  rfl

/-- One row of a tile's words. -/
theorem drop_take_range_map {α : Type} {n i m : Nat} (f : Nat → α) (h : m * i + m ≤ n) :
    ((((List.range n).map f).drop (m * i)).take m) = (List.range m).map (fun c => f (m * i + c)) := by
  refine List.ext_getElem (by simp; omega) fun c h1 h2 => ?_
  simp

/-- A word of a tile that a list of positions gives. -/
theorem getD_range_map {α : Type} {n i : Nat} (f : Nat → α) (d : α) (h : i < n) : ((List.range n).map f).getD i d = f i := by
  simp [h]

/-- The words of a tile, by position. -/
theorem tileWords_eq (s : State) (core o n : Nat) : s.tileWords core o n = (List.range n).map (tileWord s core o) := rfl

/-- The writes of a list of positions to a tile. -/
theorem map_eq_tileWrites {n cb tile : Nat} {f g : Nat → Word} (h : ∀ i, i < n → f i = g i) :
    (List.range n).map (fun i => (Space.cb, cb + tile + 4 * i, f i)) = tileWrites (cb + tile) n g :=
  List.map_congr_left fun i hi => by rw [h i (List.mem_range.1 hi)]

/-! ### What a command computes at its start -/

/-- What a command writes, by its fields. -/
theorem cmdOut_eq {x : CmdOut} {o : List (Space × Nat × Word)} {dev : List (Nat × Word × Nat × Nat)} (ho : x.out = o) (hh : x.half = [])
    (hd : x.dev = dev) (hf : x.fail = none) : x = ⟨o, [], x.flags, dev, none⟩ := by
  cases x
  subst ho hh hd hf
  rfl

/-- The writes of a scaling (R314). -/
theorem runMatrix_scale (s : State) (core : Nat) (g : Workgroup) {k : Cmd} {tile : Nat} {fs : List Word} (hop : k.op = .scale tile fs) :
    ∃ fl, s.runMatrix core g k = ⟨tileWrites (g.cb.start + tile) 1024 (fun i =>
      BitVec.ofNat 32 (f32.fmul 0 false (tileWord s core (g.cb.start + tile) i) (fs.getD (i / 32) 0#32).toNat).1), [], fl, [], none⟩ := by
  have hrun : s.runMatrix core g k = (let r := ((List.range 1024).zip (s.tileWords core (g.cb.start + tile) 1024)).map (fun p =>
      (p.1, f32.fmul 0 false p.2 (fs.getD (p.1 / 32) 0#32).toNat))
    ⟨r.map (fun p => (Space.cb, g.cb.start + tile + 4 * p.1, wd p.2.1)), [], orAll (r.map (fun p => p.2.2)), [], none⟩) := by
    simp only [State.runMatrix, hop]
  refine ⟨_, cmdOut_eq ?_ (by rw [hrun]) (by rw [hrun]) (by rw [hrun])⟩
  rw [hrun]
  simp only [tileWords_eq, zip_range_map, List.map_map, Function.comp_def]
  rfl

/-- The reduction of a row of a tile (R311, R312). -/
def rowReduction (s : State) (core start : Nat) (isMax : Bool) (i : Nat) : Word × Flags :=
  redTree (fun x y =>
    let r := if isMax then f32.fminmax true x.toNat y.toNat else f32.fadd 0 false x.toNat y.toNat
    (BitVec.ofNat 32 r.1, r.2)) 5 ((List.range 32).map (fun c => BitVec.ofNat 32 (tileWord s core start (32 * i + c))))

/-- The reductions of the 32 rows, as the row path makes them. -/
theorem rows_reduced (s : State) (core start : Nat) (isMax : Bool) {β : Type} (g : Nat × Word × Flags → β) :
    ((List.range 32).map (fun i => (i, redTree (fun x y =>
      let r := if isMax then f32.fminmax true x.toNat y.toNat else f32.fadd 0 false x.toNat y.toNat
      (BitVec.ofNat 32 r.1, r.2)) 5 ((((s.tileWords core start 1024).drop (32 * i)).take 32).map (fun x => wd x))))).map g =
    (List.range 32).map (fun i => g (i, rowReduction s core start isMax i)) := by
  rw [List.map_map]
  refine List.map_congr_left fun i hi => ?_
  have hi := List.mem_range.1 hi
  rw [Function.comp_apply, tileWords_eq, drop_take_range_map _ (by omega), List.map_map]
  rfl

/-- The writes of one row statistic (R311, R312). -/
theorem runMatrix_rowStats (s : State) (core : Nat) (g : Workgroup) {k : Cmd} {tile dst : Nat} (isMax : Bool)
    (hop : k.op = .rowStats (if isMax then 1 else 2) tile dst) :
    ∃ fl, s.runMatrix core g k = ⟨tileWrites (g.cb.start + dst + if isMax then 0 else 128) 32 (fun i =>
      (rowReduction s core (g.cb.start + tile) isMax i).1), [], fl, [], none⟩ := by
  have hrun : s.runMatrix core g k = s.runRows core g.cb.start (if isMax then 1 else 2) tile dst := by simp only [State.runMatrix, hop]
  have hout := rows_reduced s core (g.cb.start + tile) isMax (fun p => (Space.cb, g.cb.start + dst + (if isMax then 0 else 128) + 4 * p.1, p.2.1))
  refine ⟨_, cmdOut_eq ?_ (by rw [hrun]; rfl) (by rw [hrun]; rfl) (by rw [hrun]; rfl)⟩
  rw [hrun, tileWrites, ← hout]
  cases isMax <;> rfl

/-- The writes of a product of one quarter (R149, R304). -/
theorem runMatrix_product (s : State) (core : Nat) (g : Workgroup) {k : Cmd} {kind : Nat} {zero : Bool} {q : QuarterOp}
    (hop : k.op = .product kind zero [q]) (hkind : kind ≠ 2) :
    let rows := s.quarterRows core k.wg kind q
    let len := if kClass (recFmt q.ra) ≤ 1 ∧ kClass (recFmt q.rb) ≤ 1 then 32 else 16
    ∃ fl dev, s.runMatrix core g k = ⟨tileWrites (g.cb.start + q.c) 1024 (fun n => BitVec.ofNat 32
      (chunkElem (rows.1.getD (n / 32) []) (rows.2.getD (n % 32) []) len
        (if zero then 0 else tileWord s core (g.cb.start + q.c) n)).1), [], fl, dev, none⟩ := by
  intro rows len
  have hold : ∀ n, n < 1024 → (if zero then List.replicate 1024 0 else s.tileWords core (g.cb.start + q.c) 1024).getD n 0 =
      if zero then 0 else tileWord s core (g.cb.start + q.c) n := fun n hn => by
    cases zero with
    | true => exact List.getD_replicate _ hn
    | false => exact getD_range_map _ _ hn
  have hrun : s.runMatrix core g k = s.runProduct core k.wg g.cb.start kind zero
      (fun q => (sget SmpSlot.empty (s.core core).smp (bitsN q.head 10 8)).image) [q] := by simp only [State.runMatrix, hop]
  refine ⟨_, _, cmdOut_eq ?_ (by rw [hrun]; rfl) rfl (by rw [hrun]; rfl)⟩
  rw [hrun]
  simp only [State.runProduct, List.foldl_cons, List.foldl_nil, List.filter_nil, List.nil_append, List.find?_nil,
    List.flatMap_cons, List.flatMap_nil, List.append_nil, State.runQuarter, hkind, if_false, List.map_map, List.length_map, List.length_range,
    zip_range_map, Function.comp_def]
  refine map_eq_tileWrites fun n hn => ?_
  rw [hold n hn]
  rfl

/-! ### Steps -/

/-- The oldest command that may start starts (R298). -/
theorem starts_of_next {s : State} {core : Nat} {k : Cmd} {g : Workgroup} {passes : Nat} {o : CmdOut} (h : NextCommand s core k g)
    (hn : (match k.op with
      | .product _ _ qs => qs.length
      | _ => 0) = passes) (ho : s.runMatrix core g k = o) : Starts s core k g passes o := by
  obtain ⟨hg, hfind⟩ := h
  subst ho hn
  refine becomes_of_next (i := .matrixCommandStart core k.num) rfl ?_
  delta State.evMatrixStart
  dsimp only
  generalize hx : List.find? _ _ = x
  cases hx.symm.trans hfind
  simp only [ne_eq, not_true_eq_false, if_false, hg] <;> rfl

/-- The shadow checker's step (R158, R502). -/
theorem evShadow_eq {s : State} {core part id q time row col : Nat} {dev : Word}
    (hb : (s.core core).shadow.busy = some (id, q, time, dev, row, col)) (hp : s.partOfSector (sectorOf core) = some part) :
    s.evShadow core =
      let t := (s.updCore core (fun c => { c with shadow := { (s.core core).shadow with
        busy := none
        skipped := 0 } })).telemetry part (BitVec.ofNat 256 (2 ^ 248 + core * 2 ^ 224 + id * 2 ^ 208 + q % 4 * 2 ^ 206 +
          time % 2 ^ 64 * 2 ^ 128 + dev.toNat * 2 ^ 96 + row * 2 ^ 88 + col * 2 ^ 80 + (s.core core).shadow.skipped % 2 ^ 32 * 2 ^ 32))
      let base := (t.part part).telebase.toNat
      if base ≠ 0 ∧ bitsN (BitVec.ofNat 512 (t.homeNat base 64)) 319 288 ≠ 0 ∧
        (f32.fcmp 4 dev.toNat (bitsN (BitVec.ofNat 512 (t.homeNat base 64)) 319 288)).1 = true then t.faultTrigger part 0 0 else t := by
  simp only [State.evShadow, hb, hp]

/-- Settles O37: a command's start computes what its operation names, its retirement and the checker follow the rules. -/
theorem matrixSteps : Obligations.MatrixSteps := by
  unfold Obligations.MatrixSteps
  refine ⟨fun s core k g h => ⟨fun tile hop => starts_of_next h (by rw [hop]) ?_, fun tile hop => starts_of_next h (by rw [hop]) ?_,
      fun tile fs hop => ?_, fun tile dst hop => ?_, fun tile dst hop => ?_, fun t tile d r hop => starts_of_next h (by rw [hop]) ?_,
      fun kind zero q hop hkind => ?_⟩, fun s core k hfind => becomes_of_next rfl ?_, fun as bs len acc => rfl,
    fun s core part id q time row col dev hb hp => ?_⟩
  · simp only [State.runMatrix, hop]
    rfl
  · simp only [State.runMatrix, hop]
    rfl
  · obtain ⟨fl, hrun⟩ := runMatrix_scale s core g hop
    exact ⟨fl, starts_of_next h (by rw [hop]) hrun⟩
  · obtain ⟨fl, hrun⟩ := runMatrix_rowStats s core g true hop
    exact ⟨fl, starts_of_next h (by rw [hop]) hrun⟩
  · obtain ⟨fl, hrun⟩ := runMatrix_rowStats s core g false hop
    exact ⟨fl, starts_of_next h (by rw [hop]) hrun⟩
  · simp only [State.runMatrix, hop]
  · obtain ⟨fl, dev, hrun⟩ := runMatrix_product s core g hop hkind
    exact ⟨fl, dev, starts_of_next h (by rw [hop]; rfl) hrun⟩
  · simp only [State.evMatrixRetire, hfind]
  · have heq := evShadow_eq hb hp
    exact ⟨fun h => becomes_of_next rfl (heq.trans (if_neg h)), fun h => becomes_of_next rfl (heq.trans (if_pos h))⟩

end Sys2Proof.Laws
end


section
/-!
PROOF. Ladder commands start with what they will write (R345 to R351, R354, R355).
-/

namespace Sys2Proof.Laws
open Sys2Proof.Machine Sys2Proof.Claims

/-- The carry chain of a push passes the occupied rungs from a level on, up to the first free one (R350). -/
theorem carryChain_eq (s : State) (core : Nat) (l : Ladder) (d : Nat) : ∀ (fuel i : Nat) (carry : List Nat × Flags),
    l.k - 1 - i = d → d ≤ fuel → s.carryChain core l fuel i carry =
      let e := ((List.range' i d).takeWhile (fun j => l.n.testBit j)).length
      (i + e, (List.range' i e).foldl (fun a j => l.merge (s.rungWords core l j) a) carry) := by
  induction d with
  | zero =>
    intro fuel i carry hd hf
    have hstop : ¬ (i + 1 < l.k ∧ l.n.testBit i = true) := fun h => by omega
    cases fuel with
    | zero => rfl
    | succ fuel => exact if_neg hstop
  | succ d ih =>
    intro fuel i carry hd hf
    obtain ⟨fuel, rfl⟩ := Nat.exists_eq_succ_of_ne_zero (show fuel ≠ 0 by omega)
    by_cases hbit : l.n.testBit i = true
    · have hgo : i + 1 < l.k ∧ l.n.testBit i = true := ⟨by omega, hbit⟩
      rw [State.carryChain, if_pos hgo, ih fuel (i + 1) _ (by omega) (by omega)]
      simp only [List.range'_succ, List.takeWhile_cons, hbit, if_true, List.length_cons, List.foldl_cons, Prod.mk.injEq]
      exact ⟨by omega, trivial⟩
    · rw [State.carryChain, if_neg fun h => hbit h.2]
      simp only [List.range'_succ, List.takeWhile_cons, hbit]
      rfl

/-- A push's carry chain, by the rung it ends at (R350). -/
theorem carryChain_zero (s : State) (core : Nat) (l : Ladder) (carry : List Nat × Flags) : s.carryChain core l l.k 0 carry =
    (chainEnd l, (List.range (chainEnd l)).foldl (fun a i => l.merge (s.rungWords core l i) a) carry) := by
  rw [carryChain_eq s core l (l.k - 1) l.k 0 carry rfl (Nat.sub_le ..), chainEnd, List.range_eq_range', List.range_eq_range']
  simp only [Nat.zero_add]

/-- The oldest ladder command that may start starts (R350, R357). -/
theorem evLadderStart_eq {s : State} {core : Nat} {k : Cmd} {g : Workgroup}
    (hk : (s.core core).cmds.find? (fun x => s.ladderReady core x) = some k) (hg : s.wg core k.wg = some g) :
    s.evLadderStart core k.num = s.startCmd core k (s.runLadder core g k.op) := by
  simp only [State.evLadderStart, hk, hg, ne_eq, not_true_eq_false, if_false]

/-- Settles O38: a ladder command's start computes what its descriptor and operation say. -/
theorem ladderSteps : Obligations.LadderSteps := by
  unfold Obligations.LadderSteps
  intro s core k g hk hg starts l
  have hstarts : ∀ {o : CmdOut}, s.runLadder core g k.op = o → starts o := fun h =>
    becomes_of_next rfl ((evLadderStart_eq hk hg).trans (congrArg _ h))
  refine ⟨fun block hop => ⟨fun r hr => hstarts ?_, fun hr => hstarts ?_⟩, fun block tile hop => ⟨fun r hr => hstarts ?_, fun hr => hstarts ?_⟩,
    fun acc block tile hop hr => hstarts ?_⟩
  · simp only [hop, State.runLadder, show (s.ladder core g block).fail _ _ _ = some r from hr]
  · simp only [hop, State.runLadder, show (s.ladder core g block).fail _ _ _ = none from hr]
    rfl
  · simp only [hop, State.runLadder, show (s.ladder core g block).fail _ _ _ = some r from hr]
  · simp only [hop, State.runLadder, show (s.ladder core g block).fail _ _ _ = none from hr, State.runPush, carryChain_zero]
    rfl
  · simp only [hop, State.runLadder, show (s.ladder core g block).fail _ _ _ = none from hr]
    rfl

end Sys2Proof.Laws
end


section
/-!
PROOF. The operations of the registry of assumptions (R336 to R340, R342).
-/

namespace Sys2Proof.Laws
open Sys2Proof.Machine Sys2Proof.Claims

/-- What a registry operation of a wave of a workgroup answers, or the fault it raises (R336 to R340). -/
def registryResult (u : State) (core : Nat) (g : Workgroup) (mask : BitVec 8) : AsmOp → Except Raise (Word × State)
  | .newObject va pa => u.asmNew core g.part g.vf g.ctx mask va pa
  | .arm h => u.asmArm g.part g.ctx h
  | .depend va pa base => u.asmDep core g.part g.ctx mask va pa base
  | .test region n => u.asmTest g.part g.ctx region n
  | .drop region n => u.asmDrop g.part g.ctx region n

section
variable {s u : State} {id : WaveId} {tag : Nat} {w : Wave} {f : Flight} {g : Workgroup} {op : AsmOp} {reg : Nat}

/-- An operation in its place in the registry's order is performed (R342). -/
theorem evRegistry_eq (h : InRegistry s id tag w f g op reg u) : s.evRegistry id tag =
    match registryResult u id.core g f.applied op with
    | .ok (x, t) => t.finishWith id tag [⟨reg, 0, x⟩]
    | .error e => (u.deferFault id f e.code e.detail f.fmask e.xinfo).finish id tag := by
  obtain ⟨⟨hw, hf⟩, hg, hop, rfl, v, hv, hperf⟩ := h
  have hwait : ¬ (v.flights.takeWhile (fun (e : Flight) => decide (e.tag ≠ tag))).any (fun (e : Flight) => e.op.unperformed) = true := fun h => by
    obtain ⟨e, hmem, he⟩ := List.any_eq_true.1 h
    exact Bool.false_ne_true ((hperf e hmem).symm.trans he)
  simp only [State.evRegistry, hw, hf, hg, hop, hv, if_neg hwait]
  cases op <;> rfl

/-- An operation that answers. -/
theorem registry_answers (h : InRegistry s id tag w f g op reg u) {x : Word} {t : State}
    (hr : registryResult u id.core g f.applied op = .ok (x, t)) :
    Becomes (.registryOperation id tag) s (t.finishWith id tag [⟨reg, 0, x⟩]) :=
  becomes_of_next rfl (by rw [evRegistry_eq h, hr])

/-- An operation that raises. -/
theorem registry_fails (h : InRegistry s id tag w f g op reg u) {r : Raise} (hr : registryResult u id.core g f.applied op = .error r) :
    Becomes (.registryOperation id tag) s ((u.deferFault id f r.code r.detail f.fmask r.xinfo).finish id tag) :=
  becomes_of_next rfl (by rw [evRegistry_eq h, hr])

end

/-- Whether a context may name a handle. -/
theorem owns_iff {p : Part} {ctx h : Nat} : p.owns ctx h = true ↔ (p.object h).state ≠ .free ∧ (p.object h).owner = ctx := by
  simp [Part.owns]

/-- A handle that a context may not name. -/
theorem owns_eq_false {p : Part} {ctx h : Nat} (hno : (p.object h).state = .free ∨ (p.object h).owner ≠ ctx) : (!p.owns ctx h) = true := by
  rw [Bool.not_eq_true', Bool.eq_false_iff, Ne, owns_iff]
  rintro ⟨hs, ho⟩
  exact hno.elim hs fun h => h ho

/-- A handle that a context may name. -/
theorem owns_eq_true {p : Part} {ctx h : Nat} (hs : (p.object h).state ≠ .free) (ho : (p.object h).owner = ctx) : ¬ (!p.owns ctx h) = true := by
  rw [owns_iff.2 ⟨hs, ho⟩]
  exact Bool.false_ne_true

/-- `asm.new` performed (R337). -/
theorem asmNew_cases (u : State) (core part vf ctx : Nat) (mask : BitVec 8) (va pa : Nat) :
    let p := u.part part
    let x := u.asmNew core part vf ctx mask va pa
    let bs := u.readBytes core part false mask pa 128
    let dws := (List.range 16).map (fun i => BitVec.ofNat 64 (natOfBytes ((bs.drop (8 * i)).take 8)))
    let hd := dws.headD 0#64
    (u.poisoned pa = true ∨ u.poisoned (pa + 64) = true → x = .error ⟨0x10, 2, va⟩) ∧
    (u.poisoned pa = false → u.poisoned (pa + 64) = false →
      (∀ k, objKind (bitsN hd 63 60) = some k →
        let o : AsmObject := ⟨.disarmed, ctx, vf, k, bitsN hd 59 56, dws.drop 1, [], [], false⟩
        (o.valid hd = false → x = .error ⟨0x13, 0, 0⟩) ∧
        (o.valid hd = true → ∀ h, (List.range 512).find? (fun h => decide ((p.object h).state = .free) && !(p.object h).inFlight) = some h →
          x = .ok (statusWord 0 h, u.updObject part h (fun _ => o))) ∧
        (o.valid hd = true → (∀ h, h < 512 → (p.object h).state ≠ .free ∨ (p.object h).inFlight = true) → x = .ok (statusWord 1 0, u))) ∧
      (objKind (bitsN hd 63 60) = none → x = .error ⟨0x13, 0, 0⟩)) := by
  intro p x bs dws hd
  have hvalid : ∀ {b : Bool}, b = true → ¬ (!b) = true := fun h => by rw [h]; exact Bool.false_ne_true
  refine ⟨fun h => if_pos ((Bool.or_eq_true ..).mpr h), fun h1 h2 => ?_⟩
  have hx : x = _ := if_neg (by rw [h1, h2]; exact Bool.false_ne_true)
  refine ⟨fun k hk => ?_, fun hk => ?_⟩
  · intro o
    rw [hx]
    dsimp only
    rw [hk]
    refine ⟨fun hv => if_pos (by rw [show o.valid hd = false from hv]; rfl), fun hv h hfree => (if_neg (hvalid hv)).trans ?_,
      fun hv hfull => (if_neg (hvalid hv)).trans ?_⟩
    · generalize hy : List.find? _ _ = y
      cases hy.symm.trans hfree
      rfl
    · have hnone : (List.range 512).find? (fun h => decide ((p.object h).state = .free) && !(p.object h).inFlight) = none :=
        List.find?_range_eq_none.2 fun h hlt => by
          rcases hfull h hlt with hs | hi
          · simp [hs]
          · simp [hi]
      generalize hy : List.find? _ _ = y
      cases hy.symm.trans hnone
      rfl
  · rw [hx]
    dsimp only
    rw [hk]
    rfl

/-- `asm.arm` performed (R338). -/
theorem asmArm_cases (u : State) (part ctx h : Nat) :
    let p := u.part part
    let o := p.object h
    let x := u.asmArm part ctx h
    (o.state = .free ∨ o.owner ≠ ctx → x = .error ⟨0x13, 0, h % 2048⟩) ∧
    (o.state = .armed → o.owner = ctx → x = .ok (statusWord 0 0, u)) ∧
    (o.state ≠ .free → o.state ≠ .armed → o.owner = ctx → o.inFlight = true → x = .ok (statusWord 4 0, u)) ∧
    (o.state ≠ .free → o.state ≠ .armed → o.owner = ctx → o.inFlight = false →
      (∀ r, u.watchPlan part o = .error (.fault r) → x = .error r) ∧
      (∀ n, u.watchPlan part o = .error (.noWatch n) → x = .ok (statusWord 2 n, u))) ∧
    (o.state ≠ .free → o.state ≠ .armed → o.owner = ctx → o.inFlight = false → ∀ ps runs leaves,
      u.watchPlan part o = .ok (ps, runs, leaves) →
      let values := ps.map (fun a => u.homeNat a 8)
      let a := { o with
        state := .armed
        pas := ps
        values := values.map (fun x => BitVec.ofNat 64 x) }
      (u.watchRoom part ps runs = false → x = .ok (statusWord 2 0, u)) ∧
      (u.watchRoom part ps runs = true → a.holds values = false → x = .ok (statusWord 3 0, u)) ∧
      (u.watchRoom part ps runs = true → a.holds values = true →
        let t := u.updObject part h (fun _ => a)
        x = .ok (statusWord 0 0, { t with watches := t.watches ++ watchEntries part h ps runs leaves }))) := by
  intro p o x
  have hnot : ∀ {b : Bool}, b = true → ¬ (!b) = true := fun h => by rw [h]; exact Bool.false_ne_true
  have hplan : o.state ≠ .free → o.state ≠ .armed → o.owner = ctx → o.inFlight = false → x = _ := fun hs ha ho hf =>
    (if_neg (owns_eq_true hs ho)).trans ((if_neg ha).trans (if_neg (ne_true_of_eq_false hf)))
  refine ⟨fun hno => if_pos (owns_eq_false hno), fun ha ho => (if_neg (owns_eq_true (fun h => nomatch ha.symm.trans h) ho)).trans (if_pos ha),
    fun hs ha ho hf => (if_neg (owns_eq_true hs ho)).trans ((if_neg ha).trans (if_pos hf)),
    fun hs ha ho hf => ⟨fun r hr => ?_, fun n hn => ?_⟩, fun hs ha ho hf ps runs leaves hp => ?_⟩
  · rw [hplan hs ha ho hf, show State.watchPlan _ _ _ = _ from hr]
  · rw [hplan hs ha ho hf, show State.watchPlan _ _ _ = _ from hn]
    rfl
  · have hx := hplan hs ha ho hf
    rw [show State.watchPlan _ _ _ = _ from hp] at hx
    exact ⟨fun hr => hx.trans (if_pos (by rw [hr]; rfl)), fun hr hh => hx.trans ((if_neg (hnot hr)).trans (if_pos (by rw [Bool.not_eq_true']; exact hh))),
      fun hr hh => hx.trans ((if_neg (hnot hr)).trans (if_neg (hnot hh)))⟩

section
variable {u : State} {core part ctx : Nat} {mask : BitVec 8} {va pa base : Nat} {p : Machine.Part} {d : BitVec 256}

/-- The slot of some that `asm.dep` takes: the region of the same descriptor, or the lowest FREE one (R339). -/
def depSlot (slots : List Nat) (p : Machine.Part) (ctx va : Nat) : Option Nat :=
  match slots.find? (fun n => decide ((p.region n).state ≠ .free) && decide ((p.region n).owner = ctx) &&
    decide ((p.region n).descVa = va)) with
  | some n => some n
  | none => slots.find? (fun n => decide ((p.region n).state = RegionState.free))

/-- `asm.dep` whose descriptor is valid and names handles of its context (R339). -/
theorem asmDep_eq (hp : u.part part = p) (hd : BitVec.ofNat 256 (natOfBytes (u.readBytes core part false mask pa 32)) = d)
    (hpois : u.poisoned pa = false) (hv : depValid d = true) (hown : ∀ h ∈ depHandles d, p.owns ctx h = true) :
    u.asmDep core part ctx mask va pa base = match depSlot (List.range 2048) p ctx va with
      | none => .ok (statusWord 1 0, u)
      | some n =>
        if (depHandles d).any (fun h => decide ((p.object h).state ≠ ObjState.armed)) then .ok (statusWord 3 0, u)
        else .ok (statusWord 0 n, u.updRegion part n (fun r => { r with
          state := .active
          gen := r.gen + 1#32
          owner := ctx
          base := base
          descVa := va
          start := BitVec.ofNat 32 (bitsN d 255 224)
          stop := BitVec.ofNat 32 (bitsN d 223 192)
          fallback := BitVec.ofNat 32 (bitsN d 191 160)
          handles := depHandles d
          breaking := 0 })) := by
  have hfind : (depHandles d).find? (fun h => !p.owns ctx h) = none := List.find?_eq_none.2 fun h hmem => by
    rw [hown h hmem]
    exact Bool.false_ne_true
  simp only [State.asmDep, hp, hd, hpois, hv, hfind, Bool.not_true, Bool.false_eq_true, if_false, depSlot]
  generalize List.range 2048 = slots
  rfl

/-- `asm.dep` whose descriptor cannot be read or is not valid, or names a handle of another context (R339, R344). -/
theorem asmDep_fails (hp : u.part part = p) (hd : BitVec.ofNat 256 (natOfBytes (u.readBytes core part false mask pa 32)) = d) :
    (u.poisoned pa = true → u.asmDep core part ctx mask va pa base = .error ⟨0x10, 2, va⟩) ∧
    (u.poisoned pa = false → depValid d = false → u.asmDep core part ctx mask va pa base = .error ⟨0x13, 0, 0⟩) ∧
    (u.poisoned pa = false → depValid d = true → ∀ h, (depHandles d).find? (fun h => !p.owns ctx h) = some h →
      u.asmDep core part ctx mask va pa base = .error ⟨0x13, 0, h % 2048⟩) := by
  refine ⟨fun h1 => ?_, fun h1 h2 => ?_, fun h1 h2 h h3 => ?_⟩
  · simp only [State.asmDep, h1, if_true]
  · simp only [State.asmDep, hd, h1, h2, Bool.not_false, Bool.false_eq_true, if_false, if_true]
    rfl
  · simp only [State.asmDep, hp, hd, h1, h2, h3, Bool.not_true, Bool.false_eq_true, if_false]
    rfl

/-- The slot that `asm.dep` takes is none where no region is of the descriptor and none is FREE. -/
theorem depSlot_eq_none (h1 : (List.range 2048).find? (fun n => decide ((p.region n).state ≠ .free) && decide ((p.region n).owner = ctx) &&
    decide ((p.region n).descVa = va)) = none) (h2 : ∀ n, n < 2048 → (p.region n).state ≠ .free) : depSlot (List.range 2048) p ctx va = none := by
  have hnone : (List.range 2048).find? (fun n => decide ((p.region n).state = RegionState.free)) = none :=
    List.find?_range_eq_none.2 fun n hlt => by simp [h2 n hlt]
  rw [depSlot, h1, hnone]

/-- The slot that `asm.dep` takes. -/
theorem depSlot_eq_some {n : Nat} (h : (List.range 2048).find? (fun n => decide ((p.region n).state ≠ .free) && decide ((p.region n).owner = ctx) &&
      decide ((p.region n).descVa = va)) = some n ∨
    ((List.range 2048).find? (fun n => decide ((p.region n).state ≠ .free) && decide ((p.region n).owner = ctx) &&
      decide ((p.region n).descVa = va)) = none ∧
      (List.range 2048).find? (fun n => decide ((p.region n).state = RegionState.free)) = some n)) : depSlot (List.range 2048) p ctx va = some n := by
  rcases h with h | ⟨h1, h2⟩
  · rw [depSlot, h]
  · rw [depSlot, h1, h2]

end

/-- `asm.test` performed (R340). -/
theorem asmTest_cases (u : State) (part ctx n : Nat) :
    let p := u.part part
    ((p.object n).state ≠ .free → (p.object n).owner ≠ ctx → u.asmTest part ctx false n = .error ⟨0x13, 0, n % 2048⟩) ∧
    ((p.object n).state = .free ∨ (p.object n).owner = ctx →
      let st := match (p.object n).state with
        | .free => 0
        | .disarmed => 1
        | .armed => 2
        | .broken => 3
      u.asmTest part ctx false n = .ok (statusWord 0 (st + (if (p.object n).inFlight then 8 else 0) + (p.regionsOf n).length * 2 ^ 12), u)) ∧
    (2047 < n ∨ ((p.region n).state ≠ .free ∧ (p.region n).owner ≠ ctx) → u.asmTest part ctx true n = .error ⟨0x13, 0, n % 2048 + 2048⟩) ∧
    (n ≤ 2047 → (p.region n).state = .free ∨ (p.region n).owner = ctx →
      u.asmTest part ctx true n = .ok (statusWord 0 ((match (p.region n).state with
        | .free => 0
        | .active => 1
        | .revoked => 2) + (p.region n).breaking * 2 ^ 12), u)) := by
  intro p
  refine ⟨fun hs ho => if_pos ⟨hs, ho⟩, fun h => (if_neg fun h' => h.elim h'.1 h'.2).trans ?_, fun h => if_pos h,
    fun hn h => (if_neg ?_).trans ?_⟩
  · show Except.ok _ = _
    cases (p.object n).state <;> rfl
  · rintro (h' | h')
    · exact Nat.not_lt.2 hn h'
    · exact h.elim h'.1 h'.2
  · show Except.ok _ = _
    cases (p.region n).state <;> rfl

/-- `asm.drop` performed (R340). -/
theorem asmDrop_cases (u : State) (part ctx n : Nat) :
    let p := u.part part
    ((p.object n).state = .free ∨ (p.object n).owner ≠ ctx → u.asmDrop part ctx false n = .error ⟨0x13, 0, n % 2048⟩) ∧
    ((p.object n).state ≠ .free → (p.object n).owner = ctx →
      (p.regionsOf n ≠ [] → u.asmDrop part ctx false n = .ok (statusWord 5 0, u)) ∧
      (p.regionsOf n = [] → (p.object n).inFlight = true → u.asmDrop part ctx false n = .ok (statusWord 4 0, u)) ∧
      (p.regionsOf n = [] → (p.object n).inFlight = false →
        u.asmDrop part ctx false n = .ok (statusWord 0 0, (u.unwatch part n).updObject part n (fun _ => AsmObject.empty)))) ∧
    (2047 < n ∨ ((p.region n).state ≠ .free ∧ (p.region n).owner ≠ ctx) → u.asmDrop part ctx true n = .error ⟨0x13, 0, n % 2048 + 2048⟩) ∧
    (n ≤ 2047 → (p.region n).state = .free ∨ (p.region n).owner = ctx →
      u.asmDrop part ctx true n = .ok (statusWord 0 0, u.updRegion part n (fun r => { Region.empty with gen := r.gen + 1#32 }))) := by
  intro p
  refine ⟨fun h => if_pos (owns_eq_false h), fun hs ho => ⟨fun hr => (if_neg (owns_eq_true hs ho)).trans (if_pos hr),
    fun hr hf => (if_neg (owns_eq_true hs ho)).trans ((if_neg (not_not_intro hr)).trans (if_pos hf)),
    fun hr hf => (if_neg (owns_eq_true hs ho)).trans ((if_neg (not_not_intro hr)).trans (if_neg (ne_true_of_eq_false hf)))⟩,
    fun h => if_pos h, fun hn h => if_neg ?_⟩
  rintro (h' | h')
  · exact Nat.not_lt.2 hn h'
  · exact h.elim h'.1 h'.2

/-- Settles O39: an operation in its place answers or raises as the rules of its word state. -/
theorem registrySteps : Obligations.RegistrySteps := by
  unfold Obligations.RegistrySteps
  intro s u id tag w f g op reg h p answers fails
  have hans : ∀ {x : Word} {t : State}, registryResult u id.core g f.applied op = .ok (x, t) → answers x t := fun hr => registry_answers h hr
  have hfail : ∀ {r : Raise}, registryResult u id.core g f.applied op = .error r → fails r := fun hr => registry_fails h hr
  refine ⟨?_, ?_, ?_, ?_, ?_, ?_, ?_, ?_, ?_, ?_, ?_, ?_⟩
  · rintro va pa rfl hp
    exact hfail ((asmNew_cases u id.core g.part g.vf g.ctx f.applied va pa).1 hp)
  · rintro va pa rfl h1 h2 bs dws hd
    obtain ⟨hk, hno⟩ := (asmNew_cases u id.core g.part g.vf g.ctx f.applied va pa).2 h1 h2
    refine ⟨fun k hkind => ?_, fun hn => hfail (hno hn)⟩
    obtain ⟨ha, hb, hc⟩ := hk k hkind
    exact ⟨fun hv => hfail (ha hv), fun hv n hn => hans (hb hv n hn), fun hv hn => hans (hc hv hn)⟩
  · rintro n rfl o
    obtain ⟨h1, h2, h3, h4, h5⟩ := asmArm_cases u g.part g.ctx n
    refine ⟨fun a => hfail (h1 a), fun a b => hans (h2 a b), fun a b c d => hans (h3 a b c d), fun a b c d =>
      ⟨fun r hr => hfail ((h4 a b c d).1 r hr), fun m hm => hans ((h4 a b c d).2 m hm)⟩, fun a b c d ps runs leaves hp => ?_⟩
    obtain ⟨h6, h7, h8⟩ := h5 a b c d ps runs leaves hp
    exact ⟨fun a => hans (h6 a), fun a b => hans (h7 a b), fun a b => hans (h8 a b)⟩
  · rintro n rfl hs ho
    exact hfail ((asmTest_cases ..).1 hs ho)
  · rintro n rfl hor
    exact hans ((asmTest_cases ..).2.1 hor)
  · rintro n (rfl | rfl) hn
    · exact hfail ((asmTest_cases ..).2.2.1 hn)
    · exact hfail ((asmDrop_cases ..).2.2.1 hn)
  · rintro n rfl hn hor
    exact hans ((asmTest_cases ..).2.2.2 hn hor)
  · rintro n rfl hor
    exact hfail ((asmDrop_cases ..).1 hor)
  · rintro n rfl hs ho
    obtain ⟨h1, h2, h3⟩ := (asmDrop_cases u g.part g.ctx n).2.1 hs ho
    exact ⟨fun a => hans (h1 a), fun a b => hans (h2 a b), fun a b => hans (h3 a b)⟩
  · rintro n rfl hn hor
    exact hans ((asmDrop_cases ..).2.2.2 hn hor)
  · rintro va pa base rfl hp
    exact hfail (if_pos hp)
  · rintro va pa base rfl hp d
    obtain ⟨-, h2, h3⟩ := asmDep_fails (u := u) (core := id.core) (part := g.part) (ctx := g.ctx) (mask := f.applied) (va := va) (pa := pa)
      (base := base) rfl rfl
    refine ⟨fun hv => hfail (h2 hp hv), fun hv n hn => hfail (h3 hp hv n hn), fun hv hown => ?_⟩
    have hdep := asmDep_eq (va := va) (base := base) (p := p) (d := d) rfl rfl hp hv hown
    intro mine
    refine ⟨fun hm hfull => hans (hdep.trans ?_), fun n hn => ⟨fun hbad => hans (hdep.trans ?_), fun hall => hans (hdep.trans ?_)⟩⟩
    · rw [depSlot_eq_none hm hfull]
    · rw [depSlot_eq_some hn]
      obtain ⟨n, hmem, hst⟩ := hbad
      exact if_pos (List.any_eq_true.2 ⟨n, hmem, decide_eq_true hst⟩)
    · rw [depSlot_eq_some hn]
      refine if_neg fun h => ?_
      obtain ⟨n, hmem, hst⟩ := List.any_eq_true.1 h
      exact of_decide_eq_true hst (hall n hmem)

end Sys2Proof.Laws
end


section
/-!
PROOF. Held writes, their release and the steps of a revocation (R127, R322, R323, R327 to R331, R343, R495).
-/

namespace Sys2Proof.Laws
open Sys2Proof.Machine Sys2Proof.Claims

/-! ### Held writes -/

/-- Where no object of a held write is DISJ, the registry's copies stay (R322). -/
theorem foldl_copies_eq {h : HeldWrite} (os : List (Nat × Nat)) {s : State} (hno : ∀ x ∈ os, ((s.part x.1).object x.2).kind ≠ .disj) :
    os.foldl (fun s x =>
      let o := (s.part x.1).object x.2
      if o.kind = ObjKind.disj then
        s.updObject x.1 x.2 (fun o => { o with values := (s.newValues o h.bytes).map (fun v => BitVec.ofNat 64 v) })
      else s) s = s := by
  induction os with
  | nil => rfl
  | cons x os ih =>
    rw [List.foldl_cons]
    dsimp only
    rw [if_neg (hno x List.mem_cons_self)]
    exact ih fun y hy => hno y (List.mem_cons_of_mem x hy)

section
variable {s : State} {num : Nat} {h : HeldWrite}

/-- The release of a held write that is the first to be decided (R127, R322). -/
theorem evHeldRelease_eq (hd : Decided s num h) : s.evHeldRelease num = if s.broken h ≠ [] then s else
    (if h.discard then s else (s.heldObjects h).foldl (fun s x =>
      let o := (s.part x.1).object x.2
      if o.kind = ObjKind.disj then
        s.updObject x.1 x.2 (fun o => { o with values := (s.newValues o h.bytes).map (fun v => BitVec.ofNat 64 v) })
      else s) s).releaseHeld h := by
  obtain ⟨hnum, hrev, hbehind, hflight⟩ := hd
  simp only [State.evHeldRelease, hnum, hrev, hbehind, hflight, Option.isSome_none, Bool.or_self, Bool.false_or, decide_eq_true_eq]

/-- The report of a held write that is the first to be decided (R327). -/
theorem evWatchReport_nil (hd : Decided s num h) (hb : s.broken h = []) : s.evWatchReport num = s := by
  obtain ⟨hnum, hrev, hbehind, hflight⟩ := hd
  simp only [State.evWatchReport, hnum, hrev, hbehind, hflight, hb, Option.isSome_none, Bool.or_self, Bool.false_eq_true, if_false]

/-- The report of a held write that breaks objects: a free slot in its turn, or its place among those that wait (R327). -/
theorem evWatchReport_cons {part n : Nat} {rest : List (Nat × Nat)} (hd : Decided s num h) (hb : s.broken h = (part, n) :: rest) :
    let objs := n :: (rest.filter (fun x => decide (x.1 = part))).map (fun x => x.2)
    (∀ r, (s.part part).revWaiting = [] ∨ (s.part part).revWaiting.head? = some num →
      (List.range 8).find? (fun r => !(revocation s part r).busy) = some r → s.evWatchReport num = s.startRevocation part r h objs) ∧
    ((List.range 8).find? (fun r => !(revocation s part r).busy) = none → s.evWatchReport num =
      if (s.part part).revWaiting.contains num then s else s.updPart part (fun p => { p with revWaiting := p.revWaiting ++ [num] })) := by
  obtain ⟨hnum, hrev, hbehind, hflight⟩ := hd
  refine ⟨fun r hturn hr => ?_, fun hr => ?_⟩
  · simp only [State.evWatchReport, hnum, hrev, hbehind, hflight, hb, Option.isSome_none, Bool.or_self, Bool.false_eq_true, if_false]
    generalize hx : List.find? _ (List.range 8) = x
    cases hx.symm.trans hr
    rcases hturn with hnil | hhead
    · simp only [hnil]
    · obtain ⟨ws, hws⟩ := List.head?_eq_some_iff.1 hhead
      simp only [hws, decide_true]
  · simp only [State.evWatchReport, hnum, hrev, hbehind, hflight, hb, Option.isSome_none, Bool.or_self, Bool.false_eq_true, if_false]
    generalize hx : List.find? _ (List.range 8) = x
    cases hx.symm.trans hr
    split
    · next hsome => exact nomatch hsome
    · rfl

/-- The decisions on a held write (R322, R327). -/
theorem heldWrite_steps (hd : Decided s num h) :
    (s.broken h = [] → h.discard = true → Becomes (.heldWriteSliceRelease num) s (s.releaseHeld h)) ∧
    (s.broken h = [] → (∀ x ∈ s.heldObjects h, ((s.part x.1).object x.2).kind ≠ .disj) →
      Becomes (.heldWriteSliceRelease num) s (s.releaseHeld h)) ∧
    (s.broken h ≠ [] → Becomes (.heldWriteSliceRelease num) s s) ∧
    (s.broken h = [] → Becomes (.watchReportAtRegistry num) s s) ∧
    (∀ part n rest, s.broken h = (part, n) :: rest →
      let objs := n :: (rest.filter (fun x => decide (x.1 = part))).map (fun x => x.2)
      (∀ r, (s.part part).revWaiting = [] ∨ (s.part part).revWaiting.head? = some num →
        (List.range 8).find? (fun r => !(revocation s part r).busy) = some r →
        Becomes (.watchReportAtRegistry num) s (s.startRevocation part r h objs)) ∧
      ((∀ r, r < 8 → (revocation s part r).busy = true) →
        Becomes (.watchReportAtRegistry num) s (if (s.part part).revWaiting.contains num then s
          else s.updPart part (fun p => { p with revWaiting := p.revWaiting ++ [num] })))) := by
  refine ⟨fun hb hdis => becomes_of_next rfl ?_, fun hb hno => becomes_of_next rfl ?_, fun hb => becomes_of_next rfl ?_,
    fun hb => becomes_of_next rfl (evWatchReport_nil hd hb), fun part n rest hb => ?_⟩
  · rw [evHeldRelease_eq hd, if_neg (not_not_intro hb), if_pos hdis]
  · rw [evHeldRelease_eq hd, if_neg (not_not_intro hb), foldl_copies_eq _ hno, ite_self]
  · rw [evHeldRelease_eq hd, if_pos hb]
  · obtain ⟨h1, h2⟩ := evWatchReport_cons hd hb
    exact ⟨fun r hturn hr => becomes_of_next rfl (h1 r hturn hr), fun hbusy => becomes_of_next rfl (h2 (List.find?_range_eq_none.2
      fun r hlt => by rw [hbusy r hlt]; rfl))⟩

/-- What a held write that is not discarded leaves as it registers (R127). -/
theorem releaseHeld_eq (hd : h.discard = false) : s.releaseHeld h =
    let t := ({ s with heldWrites := s.heldWrites.filter (fun e => decide (e.num ≠ h.num)) } : State)
    (match h.party with
      | .core n => (t.updCore n (fun c => (wordsOf h.bytes).foldl (fun c w => c.dropClean w) c)).commitFor h.party h.ctx h.bytes
      | .engine => t.commitFor h.party h.ctx h.bytes).afterRelease h := by
  rw [State.releaseHeld, if_neg (ne_true_of_eq_false hd)]
  unfold State.commitHeld
  cases h.party <;> rfl

end

/-! ### The steps of a revocation -/

/-- REVOKE reaches a core (R327 step 4). -/
theorem evRevokeApply_cases (s : State) (core part slot : Nat) :
    let r := revocation s part slot
    (r.busy = true → r.applied.contains core = false → (s.part part).cores.contains core = true →
      let t := updRevocation s part slot { r with applied := r.applied ++ [core] }
      let u := (t.updCore core (fun c => c.dropDecoded (fun a =>
        decide (c.decoded ≠ []) && inRuns (t.codeRuns part r.regions) (8 * a) 8))).parkHolds core
      s.evRevokeApply core part slot = ((u.core core).waveList core).foldl (fun s e => s.revokeWave part r.regions e.1) u) ∧
    (r.applied.contains core = true → s.evRevokeApply core part slot = s) := by
  intro r
  refine ⟨fun hb ha hc => ?_, fun ha => if_pos (show (!r.busy || r.applied.contains core || !(s.part part).cores.contains core) = true by
    rw [ha, Bool.or_true, Bool.true_or])⟩
  intro t u
  have hgo : ¬ (!r.busy || r.applied.contains core || !(s.part part).cores.contains core) = true := by
    rw [hb, ha, hc]
    exact Bool.false_ne_true
  have hdrop : t.updCore core (fun c => c.dropDecoded (fun a =>
      inRuns (if (t.core core).decoded = [] then [] else t.codeRuns part r.regions) (8 * a) 8)) =
      t.updCore core (fun c => c.dropDecoded (fun a => decide (c.decoded ≠ []) && inRuns (t.codeRuns part r.regions) (8 * a) 8)) := by
    refine congrArg (fun p => t.setCore core ((t.core core).dropDecoded p)) (funext fun a => ?_)
    by_cases hnil : (t.core core).decoded = []
    · simp [hnil, inRuns]
    · simp [hnil]
  exact (if_neg hgo).trans (congrArg (fun v : State => (((v.parkHolds core).core core).waveList core).foldl
    (fun s e => s.revokeWave part r.regions e.1) (v.parkHolds core)) hdrop)

/-- The acknowledgements of a revocation combine (R329). -/
theorem evRevokeCombine_cases (s : State) (part slot : Nat) :
    let r := revocation s part slot
    (r.busy = true → r.combined = false → (∀ n ∈ (s.part part).cores, s.coreAcks part r n = true) →
      s.evRevokeCombine part slot = updRevocation s part slot { r with combined := true }) ∧
    ((∃ n ∈ (s.part part).cores, s.coreAcks part r n = false) → s.evRevokeCombine part slot = s) := by
  intro r
  refine ⟨fun hb hc hall => if_pos (show (r.busy && !r.combined && (s.part part).cores.all (fun n => s.coreAcks part r n)) = true by
    rw [hb, hc, List.all_eq_true.2 hall]; rfl), fun ⟨n, hn, hno⟩ => if_neg (show ¬ (r.busy && !r.combined &&
    (s.part part).cores.all (fun n => s.coreAcks part r n)) = true from fun h => ?_)⟩
  exact ne_true_of_eq_false hno (List.all_eq_true.1 ((Bool.and_eq_true ..).mp h).2 n hn)

/-- The write that a revocation waited with registers (R327 steps 6 and 7, R328). -/
theorem evRevokeRelease_cases (s : State) (part slot : Nat) :
    let r := revocation s part slot
    (r.busy = true → r.combined = true → r.released = false → ∀ h, s.heldWrite r.held = some h →
      let t := State.releaseHeld { s with
        shadows := s.shadows ++ h.bytes.map (fun b => (⟨b.1, s.homeByte b.1, part, slot⟩ : ShadowByte)) } h
      s.evRevokeRelease part slot = updRevocation (r.objects.foldl (fun (s : State) n =>
        (s.unwatch part n).updObject part n (fun o => { o with inFlight := false })) t) part slot { r with released := true }) ∧
    (r.combined = false → s.evRevokeRelease part slot = s) := by
  intro r
  refine ⟨fun hb hc hr h hheld => ?_, fun hc => if_pos (show (!r.busy || !r.combined || r.released) = true by
    rw [hc, Bool.not_false, Bool.or_true, Bool.true_or])⟩
  have hgo : ¬ (!r.busy || !r.combined || r.released) = true := by
    rw [hb, hc, hr]
    exact Bool.false_ne_true
  refine (if_neg hgo).trans ?_
  dsimp only
  rw [show s.heldWrite (sget Revocation.empty (s.part part).revs slot).held = some h from hheld]
  rfl

/-- A revocation slot is freed once no read issued without its bit is in flight (R328). -/
theorem evSlotFree_cases (s : State) (part slot : Nat) :
    let r := revocation s part slot
    (r.busy = true → r.released = true →
      (∀ n ∈ (s.part part).cores, ∀ e ∈ (s.core n).waveList n, ∀ f ∈ e.2.flights, f.op.reads = true → f.applied.getLsbD slot = true) →
      (∀ x ∈ (s.part part).saved, ∀ w ∈ x.waves, ∀ f ∈ w.flights, f.op.reads = true → f.applied.getLsbD slot = true) →
      let t := updRevocation s part slot Revocation.empty
      s.evSlotFree part slot = { t with
        shadows := s.shadows.filter (fun h => !(decide (h.part = part) && decide (h.slot = slot))) }) ∧
    (r.released = false → s.evSlotFree part slot = s) := by
  intro r
  have hquiet : ∀ (w : Wave), (∀ f ∈ w.flights, f.op.reads = true → f.applied.getLsbD slot = true) →
      w.flights.all (fun (f : Flight) => !f.op.reads || f.applied.getLsbD slot) = true := fun w h =>
    List.all_eq_true.2 fun f hf => by
      cases hr : f.op.reads with
      | false => rfl
      | true => exact h f hf hr
  refine ⟨fun hb hr hres hsav => if_pos ?_, fun hr => if_neg ?_⟩
  · simp only [Bool.and_eq_true, List.all_eq_true]
    exact ⟨⟨⟨hb, hr⟩, fun n hn e he => List.all_eq_true.1 (hquiet e.2 (hres n hn e he))⟩, fun x hx w hw => List.all_eq_true.1 (hquiet w (hsav x hx w hw))⟩
  · rw [show (sget Revocation.empty (s.part part).revs slot).released = false from hr]
    simp

/-- Settles O40: each step of a held write or a revocation does what its place in the revocation's order says. -/
theorem revocationSteps : Obligations.RevocationSteps := by
  unfold Obligations.RevocationSteps
  refine ⟨fun s num h hd => heldWrite_steps hd, fun s h hd => releaseHeld_eq hd, fun s core part slot => ?_, fun s part slot => ?_⟩
  · obtain ⟨h1, h2⟩ := evRevokeApply_cases s core part slot
    exact ⟨fun a b c => becomes_of_next rfl (h1 a b c), fun a => becomes_of_next rfl (h2 a)⟩
  · obtain ⟨h1, h2⟩ := evRevokeCombine_cases s part slot
    obtain ⟨h3, h4⟩ := evRevokeRelease_cases s part slot
    obtain ⟨h5, h6⟩ := evSlotFree_cases s part slot
    exact ⟨fun a b c => becomes_of_next rfl (h1 a b c), fun a => becomes_of_next rfl (h2 a), fun a b c h hh => becomes_of_next rfl (h3 a b c h hh),
      fun a => becomes_of_next rfl (h4 a), fun a b c d => becomes_of_next rfl (h5 a b c d), fun a => becomes_of_next rfl (h6 a)⟩

end Sys2Proof.Laws
end

section
/-! PROOF. The steps of the resonance directory (O41). -/
namespace Sys2Proof.Laws
open Sys2Proof.Machine Sys2Proof.Claims

/-- The reply of an empty census. -/
def emptyReply : Reply := ⟨[], 0, 0, 0⟩

/-- A saved wave that has asked for a census, with 1 in its first scalar register and its record at 0x2000. -/
def savedAsker : Wave := { Wave.fresh with
  record := 0x2000
  s := [(0, 1#32)] }

/-- A workgroup of function 0 with nothing declared. -/
def plainWorkgroup : Workgroup where
  ctx := 0
  vf := 0
  part := 0
  queue := 0
  grid := 0
  seq := 0
  wgx := 0
  wgy := 0
  wgz := 0
  waves := 1
  ensId := 0
  ensRank := 0
  ensSize := 1
  prio := 0
  entry := 0#32
  access := 0
  vregs := 0
  privBytes := 0
  tokensDeclared := 0
  tokensGranted := 0
  bars := 0
  segs := []
  sp := ⟨0, 0⟩
  wb := ⟨0, 0⟩
  ab := ⟨0, 0⟩
  cb := ⟨0, 0⟩
  queueArea := 0
  queues := []
  tiles := []
  live := []
  barriers := []
  channels := []
  handles := []
  appended := []
  exitedWaves := 0#32
  records := [0x2000]
  contained := none

/-- A partition that holds one saved workgroup, whose wave's census has its result at the root. -/
def savedCensusPart : Part := { Part.reset with
  sectors := 1#12
  saved := [⟨true, plainWorkgroup, [savedAsker], [], [], [], [], [], []⟩]
  places := [(0, { Place.empty with
    record := 0x2000
    replies := [(nodeKey 4 0, some emptyReply)] })] }

/-- A machine with that partition; the table at 0x100000 maps the first 64 GiB of function 0 with every permission, with A and D set. -/
def savedCensus : State := { State.reset with
  mem := [(0x100000, 1#8), (0x100002, 0x11#8), (0x110000, 0xDF#8)]
  parts := [(0, savedCensusPart)]
  funcs := [(0, { Func.reset with
    queues := [(0, { Qcb.reset with hyp := BitVec.ofNat 1024 (0x100000 * 2 ^ 768 + 2 ^ 486) })] })] }

/-- The census's end writes the saved asker's record to memory (R60). -/
theorem savedCensus_recordWritten : (savedCensus.evCensusDone 0 0).homeByte 0x2000 = 1#8 := by decide +kernel

/-- Refutes O41: where the asker of a complete census is saved, CENSUS_COMPLETE also writes the fixed part of its record to memory (R60),
which the statement's next state leaves as it was. -/
theorem not_censusSteps : ¬ Obligations.CensusSteps := by
  unfold Obligations.CensusSteps
  intro h
  obtain ⟨-, -, -, -, -, -, -, -, -, -, -, hcomplete, -⟩ := h
  have hnext := Host.Outcome.next.inj (hcomplete savedCensus 0 0 emptyReply rfl)
  have hbyte := savedCensus_recordWritten.symm.trans (congrArg (fun s => s.homeByte 0x2000) hnext)
  exact absurd hbyte (by decide +kernel)

end Sys2Proof.Laws
end

section
/-! PROOF. Pre-emption, slices, displacement and the save-ahead engine (O42). -/
namespace Sys2Proof.Laws
open Sys2Proof.Machine Sys2Proof.Claims

/-- An eligible workgroup of the outgoing function is saved with its ensemble; any other stays (R59). -/
theorem evSoftEvict_eq {s : State} {core wg : Nat} {g : Workgroup} (hg : s.wg core wg = some g) : s.evSoftEvict core wg =
    if (s.part g.part).grace.isSome && decide ((s.part g.part).slice.map (fun x => x.1) = some g.vf) && s.eligible core wg then
      (s.ensemble core wg).foldl (fun (s : State) e => s.saveWg e.1 e.2) s
    else s := by
  simp only [State.evSoftEvict, hg]
  rfl

/-- Whether a workgroup of a core is contained. -/
def hasContained (c : Core) : Prop := ∃ e ∈ c.wgs, ∃ g, e.2 = some g ∧ g.contained ≠ none

/-- Whether every workgroup of a core can be saved (R61). -/
def MaySave (s : State) (core : Nat) : Prop :=
  ¬ hasContained (s.core core) ∧ (∀ e ∈ ((s.core core).waveList core).filter (fun e => e.2.resp.isNone), e.2.precise = true) ∧
  s.ensCommands core = false ∧ ∀ e ∈ (s.core core).wgs, s.busyWg core e.1 = false

/-- Not every workgroup of a core can be saved. -/
theorem not_maySave {s : State} {core : Nat} (h : hasContained (s.core core) ∨
    (∃ e ∈ ((s.core core).waveList core).filter (fun e => e.2.resp.isNone), e.2.precise = false) ∨ s.ensCommands core = true ∨
    ∃ e ∈ (s.core core).wgs, s.busyWg core e.1 = true) : ¬ MaySave s core := by
  rintro ⟨hcont, hprec, hcmd, hbusy⟩
  rcases h with h | ⟨e, he, h⟩ | h | ⟨e, he, h⟩
  · exact hcont h
  · exact Bool.false_ne_true (h.symm.trans (hprec e he))
  · exact Bool.false_ne_true (hcmd.symm.trans h)
  · exact Bool.false_ne_true ((hbusy e he).symm.trans h)

/-- The first context of a core's workgroups. -/
def firstCtx (c : Core) : Nat := match c.wgs with
  | (_, some g) :: _ => g.ctx
  | _ => 0

open Classical in
/-- A hard pre-emption within its bound saves the core's workgroups where they can be saved (R61, R472). -/
theorem evPreempt_eq {s : State} {core part start : Nat} (hp : (s.core core).preempt = some start)
    (hpart : s.partOfSector (sectorOf core) = some part) (hclk : s.clk ≤ start + 8192) :
    let ws := ((s.core core).waveList core).filter (fun e => e.2.resp.isNone)
    let t := (((s.core core).wgs.map (fun e => e.1)).foldl (fun (s : State) i => s.saveWg core i) s).updCore core (fun c => { c with preempt := none })
    s.evPreempt core = if MaySave s core then
      t.telemetry part (execEntry 0x04 0 core (firstCtx (s.core core)) ws.length (t.pclk part) 0 (t.clk - start)) else s := by
  intro ws t
  have hcont : ((s.core core).wgs.any (fun e => match e.2 with
      | some g => g.contained.isSome
      | none => false)) = true ↔ hasContained (s.core core) := by
    simp only [List.any_eq_true, hasContained]
    refine exists_congr fun e => and_congr_right fun _ => ?_
    cases e.2 <;> simp [Option.isSome_iff_ne_none]
  have hcond : (decide (s.clk ≤ start + 8192) && !((s.core core).wgs.any (fun e => match e.2 with
      | some g => g.contained.isSome
      | none => false)) && ws.all (fun e => e.2.precise) && !s.ensCommands core &&
        !((s.core core).wgs.map (fun e => e.1)).any (fun i => s.busyWg core i)) = true ↔ MaySave s core := by
    rw [decide_eq_true hclk, Bool.true_and, Bool.and_eq_true, Bool.and_eq_true, Bool.and_eq_true, Bool.not_eq_true', Bool.not_eq_true',
      Bool.not_eq_true', ← Bool.not_eq_true, hcont, List.all_eq_true, List.any_map, List.any_eq_false, MaySave, and_assoc, and_assoc]
    simp only [Function.comp, Bool.not_eq_true]
    rfl
  have hlate : ¬ start + 8192 < s.clk := Nat.not_lt.2 hclk
  simp only [State.evPreempt, hp, if_neg hlate, State.evHardPreempt, hpart]
  by_cases h : MaySave s core
  · exact (if_pos (hcond.2 h)).trans (if_pos h).symm
  · exact (if_neg fun hc => h (hcond.1 hc)).trans (if_neg h).symm

/-- A hard pre-emption past its bound is a failure of its core (R473). -/
theorem evPreempt_late {s : State} {core start : Nat} (hp : (s.core core).preempt = some start) (hclk : start + 8192 < s.clk) :
    s.evPreempt core = (s.updCore core (fun c => { c with preempt := none })).failUnit 0 core 0 := by
  simp only [State.evPreempt, hp, if_pos hclk]

/-- The clock against the end of a tenant's slice (R64). -/
theorem evSliceExpiry_some {s : State} {part vf stop : Nat} (h : (s.part part).slice = some (vf, stop)) :
    s.evSliceExpiry part = if s.clk < stop ∨ (s.part part).grace.isSome = true then s
      else ((s.nextTenant part vf).map (fun _ => s.updPart part (fun p => { p with grace := some (s.clk + Config.gracePeriod) }))).getD
        (s.startSlice part vf) := by
  simp only [State.evSliceExpiry, h]
  split
  · rfl
  · cases s.nextTenant part vf <;> rfl

/-- Without a slice the first tenant with work begins one, if slicing is on (R64). -/
theorem evSliceExpiry_none {s : State} {part : Nat} (h : (s.part part).slice = none) :
    ((s.part part).tslice = 0#32 → s.evSliceExpiry part = s) ∧
    ∀ vf, (s.part part).tslice ≠ 0#32 → (s.part part).tenants.find? (fun t => s.hasWork part t) = some vf →
      s.evSliceExpiry part = s.updPart part (fun q => { q with
        slice := some (vf, s.clk + s.sliceLen part vf)
        grace := none }) := by
  constructor
  · intro hoff
    have hnone : (s.part part).tenants.find? (fun t => decide ((s.part part).tslice ≠ 0#32) && s.hasWork part t) = none :=
      List.find?_eq_none.2 fun t _ hc => of_decide_eq_true ((Bool.and_eq_true _ _).mp hc).1 hoff
    simp only [State.evSliceExpiry, h, hnone]
  · intro vf hon hfind
    simp only [State.evSliceExpiry, h, ne_eq, hon, not_false_eq_true, decide_true, Bool.true_and, hfind, State.startSlice, State.updPart,
      if_false]

/-- The grace period ends at its time, or once no core holds the function's work (R64, R465). -/
theorem evGraceEnd_eq {s : State} {part vf stop t : Nat} (h : (s.part part).slice = some (vf, stop)) (ht : (s.part part).grace = some t) :
    let u := (s.coresOf part vf).foldl (fun (s : State) n => s.updCore n (fun c => { c with preempt := some s.clk })) s
    s.evGraceEnd part = if s.clk < t ∧ s.coresOf part vf ≠ [] then s else u.startSlice part (optD (u.nextTenant part vf) vf) := by
  simp only [State.evGraceEnd, h, ht]

/-- A wave that has waited 512 cycles displaces the longest active one of eight (R58). -/
theorem evDisplace_eq {s : State} {core sched : Nat} {p q : WaveId} {w v : Wave}
    (hp : leastBy (fun w => w.readySince) ((s.schedWaves core sched).filter (fun e => !e.2.active && e.2.wantsActive &&
      decide (e.2.readySince + 512 ≤ s.clk) &&
      !((s.schedWaves core sched).filter (fun e => e.2.active)).any (fun a => decide (a.2.yields = some e.1.slot)))) = some (p, w))
    (hq : leastBy (fun w => w.activeSince) (((s.schedWaves core sched).filter (fun e => e.2.active)).filter
      (fun e => e.2.parked.isNone && e.2.yields.isNone)) = some (q, v))
    (hfull : 8 ≤ ((s.schedWaves core sched).filter (fun e => e.2.active)).length)
    (hun : ∀ e ∈ (s.schedWaves core sched).filter (fun e => e.2.active), e.2.parked = none) :
    let t := s.updWave q (fun w => { w with yields := some p.slot })
    s.evDisplace core sched = if (v.lastMarked && !v.atMarker) || v.slice.isSome || decide (v.runnable = []) then t.exchange q else t := by
  have hroom : ¬ (decide (((s.schedWaves core sched).filter (fun e => e.2.active)).length < 8) ||
      ((s.schedWaves core sched).filter (fun e => e.2.active)).any (fun e => e.2.parked.isSome)) = true := by
    rw [Bool.or_eq_true, decide_eq_true_eq, List.any_eq_true]
    rintro (h | ⟨e, he, h⟩)
    · exact Nat.not_le.2 h hfull
    · rw [hun e he] at h
      exact Bool.false_ne_true h
  simp only [State.evDisplace, hp, hq, if_neg hroom]

/-- The exchange of an active wave with the pending one it yields to (R58). -/
theorem exchange_eq {t : State} {p q : WaveId} {w v : Wave} (hcore : p.core = q.core) (hsched : p.sched = q.sched) (hv : t.wave q = some v)
    (hy : v.yields = some p.slot) (hw : t.wave p = some w) (hva : v.active = true) (hwa : w.active = false) (hww : w.wantsActive = true) :
    t.exchange q = (t.updWave q (fun w => w.depart t.clk)).updWave p (fun w => w.enter t.clk) := by
  have hp : (⟨q.core, q.sched, p.slot⟩ : WaveId) = p := by
    cases p
    cases hcore
    cases hsched
    rfl
  simp only [State.exchange, hv, hy, hp, hw, hva, hwa, hww, Bool.not_false, Bool.and_self, if_true]

/-- With slicing on and a dirty save set within its bound the engine cleans one unit (R62). -/
theorem evSaveAhead_eq {s : State} {core part : Nat} (hpart : s.partOfSector (sectorOf core) = some part) :
    ((s.part part).tslice = 0#32 → s.evSaveAhead core = s) ∧
    ((s.part part).tslice ≠ 0#32 → (s.core core).dirtySet ≤ 262144 → s.evSaveAhead core = s.cleanOne core) := by
  constructor
  · intro hoff
    simp only [State.evSaveAhead, hpart, if_pos hoff]
  · intro hon hset
    have hexcess : ((s.core core).dirtySet - 262144 + 63) / 64 = 0 := by omega
    simp only [State.evSaveAhead, hpart, if_neg hon, hexcess, List.range_zero, List.foldl_nil]

/-- The first dirty register line is cleaned first (R62). -/
theorem cleanOne_line {s : State} {core key : Nat} {line : RfLine} (h : (s.core core).rf.find? (fun e => e.2.dirty) = some (key, line)) :
    s.cleanOne core = (s.lineOut core key).updCore core (fun c => { c with
      rf := sset RfLine.absent c.rf key { line with dirty := false } }) := by
  simp only [State.cleanOne, h]

/-- Without a dirty line the first dirty block is cleaned; without either, and no dirty private word, nothing is (R62). -/
theorem cleanOne_noLine {s : State} {core : Nat} (h : ∀ e ∈ (s.core core).rf, e.2.dirty = false) :
    (∀ b x rest, (s.core core).dirtyBlocks = (b, x) :: rest →
      s.cleanOne core = s.updCore core (fun c => { c with dirtyBlocks := sset false c.dirtyBlocks b false })) ∧
    ((s.core core).dirtyBlocks = [] → (∀ e ∈ (s.core core).l1, e.2.priv = 0 ∨ e.2.dirty = 0#4) → s.cleanOne core = s) := by
  have hnone : (s.core core).rf.find? (fun e => e.2.dirty) = none :=
    List.find?_eq_none.2 fun e he => ne_true_of_eq_false (h e he)
  constructor
  · intro b x rest hb
    simp only [State.cleanOne, hnone, hb]
  · intro hb hl1
    have hword : (s.core core).l1.find? (fun e => decide (e.2.priv ≠ 0) && decide (e.2.dirty ≠ 0#4)) = none := by
      refine List.find?_eq_none.2 fun e he hc => ?_
      simp only [Bool.and_eq_true, decide_eq_true_eq] at hc
      exact (hl1 e he).elim hc.1 hc.2
    simp only [State.cleanOne, hnone, hb, hword]

/-- A register line goes to its place in its wave's record (R49, R51). -/
theorem lineOut_eq {s : State} {core key : Nat} {w : Wave} {g : Workgroup} (hw : sget none (s.core core).waves (key / 256) = some w)
    (hg : sget none (s.core core).wgs w.wg = some g) :
    s.lineOut core key = s.recordOut core g (w.record + 0x400 + 128 * (key % 256)) (w.lineBytes (key % 256)) := by
  simp only [State.lineOut, hw, hg]

/-- A late arrival for a saved workgroup that is gone has no effect. -/
theorem evLateArrival_gone {s : State} {part index tag : Nat} (h : (s.part part).saved.drop index = []) : s.evLateArrival part index tag = s := by
  simp only [State.evLateArrival, State.inLimbo, h]

/-- Settles O42: each step is the equation of its case. -/
theorem preemptionSteps : Obligations.PreemptionSteps := by
  unfold Obligations.PreemptionSteps
  refine ⟨?_, ?_, ?_, ?_, ?_, ?_, ?_, fun s core key w g hw hg => lineOut_eq hw hg, fun s part index tag h => becomes_of_next rfl
    (evLateArrival_gone h), fun s part index tag => rfl⟩
  · intro s core wg g hg
    have heq := evSoftEvict_eq hg
    refine ⟨fun hgrace hslice helig => becomes_of_next rfl (heq.trans (if_pos ?_)), fun hno => becomes_of_next rfl (heq.trans (if_neg ?_))⟩
    · rw [Option.isSome_iff_ne_none.2 hgrace, decide_eq_true hslice, helig]
      rfl
    · rw [hno, Bool.and_false]
      exact Bool.false_ne_true
  · intro s core part start hp hpart ws contained
    refine ⟨fun hclk hcont hprec hcmd hbusy => ?_, fun hclk hno => becomes_of_next rfl ((evPreempt_eq hp hpart hclk).trans
      (if_neg (not_maySave hno))), fun hclk => becomes_of_next rfl (evPreempt_late hp hclk)⟩
    intro ctx t
    exact becomes_of_next rfl ((evPreempt_eq hp hpart hclk).trans (if_pos ⟨hcont, hprec, hcmd, hbusy⟩))
  · intro s part vf stop h
    have heq := evSliceExpiry_some h
    have hnot : stop ≤ s.clk → (s.part part).grace = none → ¬ (s.clk < stop ∨ (s.part part).grace.isSome = true) := by
      rintro hstop hgrace (hlt | hsome)
      · exact Nat.not_le.2 hlt hstop
      · rw [hgrace] at hsome
        exact Bool.false_ne_true hsome
    refine ⟨fun hclk => becomes_of_next rfl (heq.trans (if_pos (.inl hclk))), fun hclk hgrace hnone => becomes_of_next rfl ?_,
      fun hclk hgrace hsome => becomes_of_next rfl ?_, fun t ht hend => ?_, fun t ht hclk hcores => becomes_of_next rfl
        ((evGraceEnd_eq h ht).trans (if_pos ⟨hclk, hcores⟩))⟩
    · rw [heq, if_neg (hnot hclk hgrace), hnone]
      rfl
    · obtain ⟨n, hn⟩ := Option.ne_none_iff_exists'.1 hsome
      rw [heq, if_neg (hnot hclk hgrace), hn]
      rfl
    · intro u next hnext
      have hdone : ¬ (s.clk < t ∧ s.coresOf part vf ≠ []) := fun hc => hend.elim (Nat.not_le.2 hc.1) hc.2
      refine becomes_of_next rfl (((evGraceEnd_eq h ht).trans (if_neg hdone)).trans ?_)
      exact congrArg (fun o => u.startSlice part (optD o vf)) hnext
  · intro s part vf h
    exact ⟨fun hoff => becomes_of_next rfl ((evSliceExpiry_none h).1 hoff),
      fun hon hfind => becomes_of_next rfl ((evSliceExpiry_none h).2 vf hon hfind)⟩
  · intro s core sched p q w v ws act hp hq hfull hun t may
    have heq := evDisplace_eq hp hq hfull hun
    have hmay : ((v.lastMarked && !v.atMarker) || v.slice.isSome || decide (v.runnable = [])) = true ↔ may := by
      simp only [Bool.or_eq_true, Bool.and_eq_true, Bool.not_eq_true', decide_eq_true_eq, Option.isSome_iff_ne_none, or_assoc]
      rfl
    exact ⟨fun hno => becomes_of_next rfl (heq.trans (if_neg fun hc => hno (hmay.1 hc))), fun hyes => becomes_of_next rfl (heq.trans
      (if_pos (hmay.2 hyes)))⟩
  · intro t p q w v hcore hsched hv hy hw hva hwa hww
    exact exchange_eq hcore hsched hv hy hw hva hwa hww
  · intro s core part hpart
    obtain ⟨hoff, hon⟩ := evSaveAhead_eq hpart
    refine ⟨fun h => becomes_of_next rfl (hoff h), fun h hset => ⟨fun key line hline => becomes_of_next rfl ((hon h hset).trans
      (cleanOne_line hline)), fun hclean => ⟨fun b x rest hb => becomes_of_next rfl ((hon h hset).trans ((cleanOne_noLine hclean).1 b x rest hb)),
      fun hb hl1 => becomes_of_next rfl ((hon h hset).trans ((cleanOne_noLine hclean).2 hb hl1))⟩⟩⟩

end Sys2Proof.Laws
end

section
/-! PROOF. Placement of workgroups and the end of a grid (O43). -/
namespace Sys2Proof.Laws
open Sys2Proof.Machine Sys2Proof.Claims

/-- The dispatcher's grid gives its next index to the first cluster from the pointer on that takes it (R389, R390). -/
theorem evDispatch_some {s : State} {part n c : Nat} {g : Grid} (hpick : s.pickGrid part = some (n, g))
    (hrec : (s.freeRecords g.vf part g.queue ((s.part part).unstarted g.vf g.queue + g.launch.waves * (g.launch.ens + 1))) ≠ none)
    (hc : ((s.part part).clusters.drop (s.part part).rrCluster ++ (s.part part).clusters.take (s.part part).rrCluster).find?
      (fun c => s.clusterTakes part c g.launch) = some c) :
    let cs := (s.part part).clusters
    let t := s.updPart part (fun p => { p with
      rrCluster := ((cs.takeWhile (fun x => decide (x ≠ c))).length + 1) % cs.length
      tcbs := sset [] p.tcbs c (sget [] p.tcbs c ++ (List.range (g.launch.ens + 1)).map (fun r => (⟨tcbBits s g r, n, g.next, r⟩ : Tcb)))
      grids := sset none p.grids n (some { g with
        next := g.next + 1
        placed := g.placed + g.launch.ens + 1 }) })
    s.evDispatch part = if g.next + 1 = g.total then t.updQcb g.vf g.queue (fun b => { b with dispatching := none }) else t := by
  have hnone : ¬ (s.freeRecords g.vf part g.queue ((s.part part).unstarted g.vf g.queue + g.launch.waves * (g.launch.ens + 1))).isNone = true :=
    fun h => hrec (Option.isNone_iff_eq_none.1 h)
  simp only [State.evDispatch, hpick, if_neg hnone, hc]

/-- Without a grid to place the dispatcher does nothing. -/
theorem evDispatch_none {s : State} {part : Nat} (hpick : s.pickGrid part = none) : s.evDispatch part = s := by
  simp only [State.evDispatch, hpick]

/-- The placer's first block, with its ensemble, and the cores that have room (R69). -/
theorem evPlacer_eq {s : State} {cluster part : Nat} {t : Tcb} {rest : List Tcb} {g : Grid} (hpart : s.partOfSector (cluster / 8) = some part)
    (hsort : (s.part part).sortTcbs (sget [] (s.part part).tcbs cluster) = t :: rest) (hg : sget none (s.part part).grids t.grid = some g) :
    let all := t :: rest.filter (fun x => decide (x.grid = t.grid) && decide (x.index = t.index))
    let cores := s.roomy cluster g.launch.need
    s.evPlacer cluster =
      if !(s.part part).serves g.vf || decide (cores.length < all.length) ||
        (s.freeRecords g.vf part g.queue (g.launch.waves * all.length)).isNone then s
      else (all.zip cores).foldl (fun (u : State) x => u.startTcb part x.2 (s.part part).ensNum x.1)
        (s.updPart part (fun p => { p with
          ensNum := if 1 < all.length then p.ensNum + 1 else p.ensNum
          ensBarriers := p.ensBarriers.filter (fun b => decide (b.1 / 32 ≠ (s.part part).ensNum))
          tcbs := sset [] p.tcbs cluster ((sget [] p.tcbs cluster).filter (fun x => !all.contains x)) })) := by
  simp only [State.evPlacer, hpart, hsort, hg]

/-- A placer without a startable block takes the last blocks of the next cluster that has any (R70). -/
theorem evSteal_eq {s : State} {cluster part v : Nat} (hpart : s.partOfSector (cluster / 8) = some part)
    (hready : s.placerReady part cluster = false) (hduet : (s.part part).duet = none)
    (hv : (((s.part part).clusters.dropWhile (fun c => decide (c ≠ cluster))).drop 1 ++
      (s.part part).clusters.takeWhile (fun c => decide (c ≠ cluster))).find? (fun c => decide (sget [] (s.part part).tcbs c ≠ [])) = some v)
    (hroom : (sget [] (s.part part).tcbs cluster).length + ((s.part part).shipped (sget [] (s.part part).tcbs v)).length ≤ 16) :
    let x := (s.part part).shipped (sget [] (s.part part).tcbs v)
    s.evSteal cluster = s.updPart part (fun p =>
      let m := sset [] p.tcbs v ((sget [] p.tcbs v).filter (fun t => !x.contains t))
      { p with tcbs := sset [] m cluster (sget [] m cluster ++ x) }) := by
  have hidle : ¬ (s.placerReady part cluster || (s.part part).duet.isSome) = true := by
    rw [hready, hduet]
    exact Bool.false_ne_true
  simp only [State.evSteal, hpart, if_neg hidle, hv, if_neg (Nat.not_lt.2 hroom)]

/-- The end of a grid: it leaves its partition and its LAUNCH's work is complete (R386). -/
def closeGrid (g : Grid) (part n : Nat) (s : State) : State :=
  ((s.updPart part (fun p => { p with grids := sset none p.grids n none })).updQcb g.vf g.queue
    (fun b => { b with dispatching := if b.dispatching = some n then none else b.dispatching })).packetDone g.vf g.queue g.packet

/-- The cores that hold words of a grid's context register which have not been published (R386). -/
def unpublished (s : State) (part : Nat) (g : Grid) : List Nat :=
  (s.part part).cores.filter (fun c => (s.core c).l1.any (fun e => decide (e.2.ctx = ctxOf g.vf g.queue) &&
    (decide (e.2.dirty ≠ 0#4) || e.2.unacked)))

/-- A grid with workgroups placed or to place is not complete (R386). -/
theorem evGridComplete_running {s : State} {part n : Nat} {g : Grid} (hg : sget none (s.part part).grids n = some g)
    (h : g.placed ≠ 0 ∨ (g.next < g.total ∧ g.contained = none)) : s.evGridComplete part n = s := by
  have hrun : g.placed ≠ 0 ∨ (g.next < g.total ∧ g.contained.isNone = true) := h.imp_right (And.imp_right Option.isNone_iff_eq_none.2)
  simp only [State.evGridComplete, hg, if_pos hrun]

section
variable {s : State} {part n : Nat} {g : Grid} (hg : sget none (s.part part).grids n = some g) (hplaced : g.placed = 0)
  (hpub : unpublished s part g = [])
include hg hplaced hpub

/-- A contained grid ends with its code (R452). -/
theorem evGridComplete_contained {code : Nat} (hc : g.contained = some code) :
    s.evGridComplete part n = (closeGrid g part n s).queueError g.vf g.queue code := by
  have hrun : ¬ (g.placed ≠ 0 ∨ (g.next < g.total ∧ (some code).isNone = true)) := by
    rintro (h | ⟨-, h⟩)
    · exact h hplaced
    · exact Bool.false_ne_true h
  rw [unpublished] at hpub
  simp only [State.evGridComplete, hg, hc, if_neg hrun, hpub, List.foldl_nil, List.any_nil, Bool.false_eq_true, if_false]
  rfl

/-- A grid that has run all its indices ends with its signal, which a held update delays (R322, R386). -/
theorem evGridComplete_done (hover : g.contained ≠ none ∨ g.total ≤ g.next) (hc : g.contained = none) :
    s.evGridComplete part n = match g.signal with
      | some pa => if s.heldAt pa 4 then s else closeGrid g part n s
      | none =>
        if g.launch.cell = 0 then closeGrid g part n s
        else match s.signal part g.vf g.launch.cell 0 g.launch.cval.toNat with
          | .wait => s
          | .done t => if t.heldAt (s.cellOf part g.vf g.launch.cell) 4 then t.updPart part (fun p => { p with
              grids := sset none p.grids n (some { g with signal := some (s.cellOf part g.vf g.launch.cell) }) })
            else closeGrid g part n t
          | .bad c _ => (closeGrid g part n s).queueError g.vf g.queue c := by
  have hrun : ¬ (g.placed ≠ 0 ∨ (g.next < g.total ∧ (none : Option Nat).isNone = true)) := by
    rintro (h | ⟨h, -⟩)
    · exact h hplaced
    · exact hover.elim (fun h' => h' hc) (Nat.not_le.2 h)
  rw [unpublished] at hpub
  simp only [State.evGridComplete, hg, hc, if_neg hrun, hpub, List.foldl_nil, List.any_nil, Bool.false_eq_true, if_false]
  rfl

end

/-- Settles O43: each step of the dispatcher and the placers is the equation of its case. -/
theorem dispatchSteps : Obligations.DispatchSteps := by
  unfold Obligations.DispatchSteps
  refine ⟨?_, fun s part h => becomes_of_next rfl (evDispatch_none h), ?_, ?_, ?_⟩
  · intro s part n c g hpick cs start hrec hc t
    exact becomes_of_next rfl (evDispatch_some hpick hrec hc)
  · intro s cluster part t rest g hpart hsort hg all cores
    have heq := evPlacer_eq hpart hsort hg
    refine ⟨fun hserves hroom hrec => becomes_of_next rfl (heq.trans (if_neg ?_)), fun hfew => becomes_of_next rfl (heq.trans (if_pos ?_))⟩
    · rw [hserves, Bool.or_eq_true, Bool.or_eq_true]
      rintro ((h | h) | h)
      · exact Bool.false_ne_true h
      · exact Nat.not_lt.2 hroom (of_decide_eq_true h)
      · exact hrec (Option.isNone_iff_eq_none.1 h)
    · exact (Bool.or_eq_true _ _).mpr (.inl ((Bool.or_eq_true _ _).mpr (.inr (decide_eq_true hfew))))
  · intro s cluster part v hpart hready hduet cs hv x hroom
    exact becomes_of_next rfl (evSteal_eq hpart hready hduet hv hroom)
  · intro s part n g hg
    refine ⟨fun hrun => becomes_of_next rfl (evGridComplete_running hg hrun), fun hplaced hover hpub => ?_⟩
    intro close
    refine ⟨fun code hc => becomes_of_next rfl (evGridComplete_contained hg hplaced hpub hc), fun pa hc hs => ?_, fun hc hs hcell => ?_,
      fun hc hs hcell => ?_⟩
    · have heq := evGridComplete_done hg hplaced hpub hover hc
      rw [hs] at heq
      exact ⟨fun hheld => becomes_of_next rfl (heq.trans (if_pos hheld)),
        fun hfree => becomes_of_next rfl (heq.trans (if_neg (ne_true_of_eq_false hfree)))⟩
    · have heq := evGridComplete_done hg hplaced hpub hover hc
      rw [hs] at heq
      exact becomes_of_next rfl (heq.trans (if_pos hcell))
    · have heq := evGridComplete_done hg hplaced hpub hover hc
      rw [hs] at heq
      have hsig := heq.trans (if_neg hcell)
      intro r pa
      refine ⟨fun hr => becomes_of_next rfl ?_, fun c d hr => becomes_of_next rfl ?_, fun t hr hfree => becomes_of_next rfl ?_,
        fun t hr hheld => becomes_of_next rfl ?_⟩
      all_goals
        rw [show s.signal part g.vf g.launch.cell 0 g.launch.cval.toNat = _ from hr] at hsig
      · exact hsig
      · exact hsig
      · exact hsig.trans (if_neg (ne_true_of_eq_false hfree))
      · exact hsig.trans (if_pos hheld)

end Sys2Proof.Laws
end

section
/-! PROOF. Packets: their effects and refusals (O44). -/
namespace Sys2Proof.Laws
open Sys2Proof.Machine Sys2Proof.Claims

/-! ### Taking a packet -/

/-- The dispatcher acts on the packet that it takes (R380, R382). -/
theorem takePacket_taken {s u : State} {vf q type part k : Nat} {p : BitVec 1024} (h : Taken s vf q type part k p u)
    (f : Nat → Nat → BitVec 1024 → State → State) : s.takePacket vf q type f = f part k p u := by
  obtain ⟨hpart, hpick, rfl, hread, hok, htype, rfl⟩ := h
  have hhead : ¬ (!headerOk p) = true := by
    rw [hok]
    exact Bool.false_ne_true
  have hkind : ¬ pktType p ≠ type := fun hne => hne htype
  simp only [State.takePacket, hpart, hpick, ne_eq, not_true_eq_false, if_false, hread, if_neg hhead, if_neg hkind]

/-- A queue whose registrations are released waits for no packet's. -/
theorem drainType_of_nil {b : Qcb} (h : b.drain = []) : b.drainType = none := by
  simp only [Qcb.drainType, h]

/-- The packet that a queue with registrations out waits for. -/
theorem drainType_of_ne {b : Qcb} {x : Started} {rest : List Started} (hs : b.started = x :: rest) (hd : b.drain ≠ []) :
    b.drainType = some (bitsN x.bits 7 0) := by
  obtain ⟨r, rs, hr⟩ := List.exists_cons_of_ne_nil hd
  simp only [Qcb.drainType, hr, hs]
  rfl

/-- The oldest packet of a queue completes once its registrations are released (R322). -/
theorem drained_eq {s : State} {vf q : Nat} {quiet : Bool} {x : Started} {rest : List Started} (hs : (s.qcb vf q).started = x :: rest) :
    s.drained vf q quiet = if (s.qcb vf q).drain.all (fun r => !s.heldAt r.1 r.2) && quiet then
      (s.updQcb vf q (fun b => { b with drain := [] })).packetDone vf q x.packet else s := by
  simp only [State.drained, hs]

/-- No registration of a queue is held, or one is. -/
theorem released_iff {s : State} {rs : List (Nat × Nat)} : rs.all (fun r => !s.heldAt r.1 r.2) = true ↔ ∀ r ∈ rs, s.heldAt r.1 r.2 = false := by
  simp only [List.all_eq_true, Bool.not_eq_true']

/-! ### SIGNAL and WAIT (R385, R386) -/

/-- A SIGNAL that is taken is checked, then performed (R386). -/
theorem signalPacket_taken {s u : State} {vf q part k : Nat} {p : BitVec 1024} (h : Taken s vf q 3 part k p u)
    (hd : (s.qcb vf q).drain = []) : exec (.signalPacket vf q) s = .next (
    if bitsN p 1023 130 ≠ 0 ∨ 1 < bitsN p 129 128 then u.refusePacket part vf q 0x16 0 0
    else match u.signal part vf (bitsN p 95 32) (bitsN p 129 128) (bitsN p 127 96) with
      | .wait => u
      | .done t =>
        if (t.begin' vf q k p none (p.getLsbD 9)).heldAt (u.cellOf part vf (bitsN p 95 32)) 4 then
          (t.begin' vf q k p none (p.getLsbD 9)).updQcb vf q (fun b => { b with drain := [(u.cellOf part vf (bitsN p 95 32), 4)] })
        else (t.begin' vf q k p none (p.getLsbD 9)).packetDone vf q k
      | .bad 0x10 3 => ((u.begin' vf q k p none (p.getLsbD 9)).packetDone vf q k).queueError vf q 0x10
      | .bad c d => u.refusePacket part vf q c d (bitsN p 95 32)) := by
  have hidle : ¬ (s.qcb vf q).drainType = some 3 := by
    rw [drainType_of_nil hd]
    exact nofun
  exact congrArg Host.Outcome.next ((if_neg hidle).trans (takePacket_taken h _))

/-- What a WAIT finds at its cell (R385). -/
theorem waitMet_ok {u : State} {part vf pa : Nat} {p : BitVec 1024} (hc : u.cellAt part vf (bitsN p 95 32) = .ok pa) :
    u.waitMet part vf p = .ok (if bitsN p 129 128 = 0 then wrapGe (u.cellWord pa).2.2 (bitsN p 127 96)
      else decide ((u.cellWord pa).2.2 = bitsN p 127 96)) := by
  simp only [State.waitMet, hc]
  rfl

/-- A WAIT whose cell does not translate. -/
theorem waitMet_error {u : State} {part vf : Nat} {p : BitVec 1024} {e : Nat × Nat} (hc : u.cellAt part vf (bitsN p 95 32) = .error e) :
    u.waitMet part vf p = .error e := by
  simp only [State.waitMet, hc]

/-- A WAIT that is taken is checked, and completes at once where its condition holds (R385). -/
theorem waitPacket_taken {s u : State} {vf q part k : Nat} {p : BitVec 1024} (h : Taken s vf q 4 part k p u) (hw : (s.qcb vf q).state ≠ 2) :
    exec (.waitPacket vf q) s = .next (
      if bitsN p 1023 130 ≠ 0 ∨ 1 < bitsN p 129 128 then u.refusePacket part vf q 0x16 0 0
      else match u.waitMet part vf p with
        | .error (c, d) => u.refusePacket part vf q c d (bitsN p 95 32)
        | .ok true => retires (u.touchLeaf vf (bitsN p 95 32) false) vf q k p false
        | .ok false => ((u.touchLeaf vf (bitsN p 95 32) false).begin' vf q k p none false).updQcb vf q
            (fun b => { b.setState 2 with waited := true })) :=
  congrArg Host.Outcome.next ((if_neg hw).trans (takePacket_taken h _))

/-- A WAIT whose fields are in order. -/
theorem wait_inOrder {p : BitVec 1024} (h0 : bitsN p 1023 130 = 0) (h1 : bitsN p 129 128 ≤ 1) :
    ¬ (bitsN p 1023 130 ≠ 0 ∨ 1 < bitsN p 129 128) := fun h => h.elim (fun hn => hn h0) (Nat.not_lt.2 h1)

/-! ### LAUNCH (R383, R384) -/

section
variable {s u : State} {vf q part k : Nat} {p : BitVec 1024} (h : Taken s vf q 2 part k p u) (hduet : s.duetDiffers vf q = false)
include h hduet

/-- A LAUNCH whose bindings cannot be read is refused (R488). -/
theorem launch_noBindings (code : CodeObject) {c d : Nat} (hb : u.readVa vf part (bitsN p 191 128) 256 = .error (c, d)) :
    exec (.launch vf q code) s = .next (u.refusePacket part vf q c d (bitsN p 191 128)) := by
  refine congrArg Host.Outcome.next ((if_neg (ne_true_of_eq_false hduet)).trans ((takePacket_taken h _).trans ?_))
  simp only [hb]

/-- A LAUNCH whose template cannot be read is refused (R488). -/
theorem launch_noTemplate (code : CodeObject) {bs : List Byte} {c d : Nat} (hb : u.readVa vf part (bitsN p 191 128) 256 = .ok bs)
    (ht : u.readTemplate part vf q = .error (c, d)) :
    exec (.launch vf q code) s = .next (u.refusePacket part vf q c d (bitsN (u.qcb vf q).hyp 703 640)) := by
  refine congrArg Host.Outcome.next ((if_neg (ne_true_of_eq_false hduet)).trans ((takePacket_taken h _).trans ?_))
  simp only [hb, ht]

/-- A LAUNCH whose tables can be read is checked, and its grid goes into dispatch (R383, R384). -/
theorem launch_read (code : CodeObject) {bs ts : List Byte} (hb : u.readVa vf part (bitsN p 191 128) 256 = .ok bs)
    (ht : u.readTemplate part vf q = .ok ts) :
    let v := (u.touchLeaf vf (bitsN p 191 128) false).touchLeaf vf (bitsN (u.qcb vf q).hyp 703 640) false
    let gs := (bindings bs).set 0 (setBits ((bindings bs).headD 0#128) 59 0 (bitsN p 255 192))
    let l := launchOf p (ssetList 0#128 [] 0 gs) code
    exec (.launch vf q code) s = .next (match (if bitsN p 191 128 % 16 ≠ 0 then some (0x16, 0, 0) else v.launchFail vf q p l gs (bindings ts)) with
      | some (c, d, x) => v.refusePacket part vf q c d x
      | none =>
        let n := (v.part part).gridNum
        ((v.updPart part (fun x => { x with
          gridNum := (n + 1) % 65536
          grids := sset none x.grids n (some ⟨true, vf, q, k, (v.qcb vf q).gridSeq, l, 0, 0, 0, none, none⟩) })).begin' vf q k p (some n)
            (p.getLsbD 9)).updQcb vf q (fun b => { b with
              gridSeq := (b.gridSeq + 1) % 65536
              dispatching := if l.gx * l.gy * l.gz = 0 then none else some n })) := by
  intro v gs l
  refine congrArg Host.Outcome.next ((if_neg (ne_true_of_eq_false hduet)).trans ((takePacket_taken h _).trans ?_))
  simp only [hb, ht] <;> rfl

end

/-! ### MAP (R387) -/

/-- The fields of a MAP that the rules do not admit, for pages of a size. -/
def MapBad (p : BitVec 1024) (bytes : Nat) : Prop := bitsN p 1023 203 ≠ 0 ∨ bitsN p 194 192 = 7 ∨ bitsN p 197 196 = 3 ∨
  bitsN p 95 32 % bytes ≠ 0 ∨ (p.getLsbD 195 = true ∧ bitsN p 191 128 ≠ 0) ∨ bitsN p 191 128 % bytes ≠ 0

section
variable {s u : State} {vf q part k bytes level n contig : Nat} {p : BitVec 1024} (h : Taken s vf q 5 part k p u) (hfw : s.firmware = true)
  (hshape : pageShape (bitsN p 194 192) = (bytes, level, n, contig))
include h hfw hshape

/-- A MAP with fields that the rules do not admit is refused. -/
theorem mapPacket_bad (hbad : MapBad p bytes) : exec (.mapPacket vf q) s = .next (u.refusePacket part vf q 0x16 0 0) := by
  unfold MapBad at hbad
  show execMapPacket vf q s = _
  simp only [execMapPacket, hfw, Bool.not_true, Bool.false_eq_true, if_false, takePacket_taken h, hshape, if_pos hbad]

variable (hok : ¬ MapBad p bytes) (hcount : bitsN p 127 96 = 1)
include hok hcount

/-- A MAP of a page that its function is not granted is refused (R404). -/
theorem mapPacket_denied (hgrow : p.getLsbD 195 = false) (hgrant : (u.func vf).granted (bitsN p 191 128) bytes = false) :
    exec (.mapPacket vf q) s = .next (u.refusePacket part vf q 0x0E 0 (bitsN p 191 128)) := by
  unfold MapBad at hok
  have hden : p.getLsbD 195 = false ∧ (!(u.func vf).granted (bitsN p 191 128) bytes) = true := ⟨hgrow, by rw [hgrant]; rfl⟩
  show execMapPacket vf q s = _
  simp only [execMapPacket, hfw, Bool.not_true, Bool.false_eq_true, if_false, takePacket_taken h, hshape, if_neg hok, hcount, List.range_one,
    List.map_cons, List.map_nil, Nat.zero_mul, Nat.add_zero, List.any_cons, List.any_nil, Bool.or_false, if_pos hden]

variable (hgrant : p.getLsbD 195 = true ∨ (u.func vf).granted (bitsN p 191 128) bytes = true)
include hgrant

/-- A MAP whose tables do not reach its page is refused (log 31). -/
theorem mapPacket_noTable (hleaf : u.leafAt vf (bitsN p 95 32) level = none) :
    exec (.mapPacket vf q) s = .next (u.refusePacket part vf q 0x0D 2 (bitsN p 95 32)) := by
  unfold MapBad at hok
  have hmay : ¬ (p.getLsbD 195 = false ∧ (!(u.func vf).granted (bitsN p 191 128) bytes) = true) := by
    rintro ⟨hg, hn⟩
    rcases hgrant with hy | hy
    · exact Bool.false_ne_true (hg.symm.trans hy)
    · rw [hy] at hn
      exact Bool.false_ne_true hn
  show execMapPacket vf q s = _
  simp only [execMapPacket, hfw, Bool.not_true, Bool.false_eq_true, if_false, takePacket_taken h, hshape, if_neg hok, hcount, List.range_one,
    List.map_cons, List.map_nil, Nat.zero_mul, Nat.add_zero, List.any_cons, List.any_nil, Bool.or_false, if_neg hmay, hleaf, List.find?_cons,
    Option.isNone_none, if_true]

/-- A MAP over a page that is mapped is refused, and any other writes its leaves and retires. -/
theorem mapPacket_leaf {a : Nat} (hleaf : u.leafAt vf (bitsN p 95 32) level = some a) :
    ((∃ i, i < n ∧ ∀ e, u.readPte (a + 8 * i) = some e → e.getLsbD 0 = true) →
      exec (.mapPacket vf q) s = .next (u.refusePacket part vf q 0x0D 4 (bitsN p 95 32))) ∧
    ((∀ i, i < n → ∃ e, u.readPte (a + 8 * i) = some e ∧ e.getLsbD 0 = false) →
      let t := u.engineWrite 0 a ((List.range n).flatMap (fun _ => bytesOfNat (mapLeaf p contig (bitsN p 191 128)) 8))
      exec (.mapPacket vf q) s = .next (retires (if p.getLsbD 202 then t.updPart part (fun x => { x with
        sharedLeaves := x.sharedLeaves ++ [(bitsN p 191 128, vf, bitsN p 95 32)].filter (fun y => !x.sharedLeaves.contains y) }) else t)
        vf q k p false)) := by
  unfold MapBad at hok
  have hmay : ¬ (p.getLsbD 195 = false ∧ (!(u.func vf).granted (bitsN p 191 128) bytes) = true) := by
    rintro ⟨hg, hn⟩
    rcases hgrant with hy | hy
    · exact Bool.false_ne_true (hg.symm.trans hy)
    · rw [hy] at hn
      exact Bool.false_ne_true hn
  constructor
  · rintro ⟨i, hi, hmapped⟩
    show execMapPacket vf q s = _
    simp only [execMapPacket, hfw, Bool.not_true, Bool.false_eq_true, if_false, takePacket_taken h, hshape, if_neg hok, hcount, List.range_one,
      List.map_cons, List.map_nil, Nat.zero_mul, Nat.add_zero, List.any_cons, List.any_nil, Bool.or_false, if_neg hmay, hleaf]
    split
    · next x hx =>
      obtain rfl := List.mem_singleton.1 (List.mem_of_find?_eq_some hx)
      rfl
    · next hnone =>
      refine absurd (List.any_eq_true.2 ⟨i, List.mem_range.2 hi, ?_⟩) (List.find?_eq_none.1 hnone _ (List.mem_singleton.2 rfl))
      cases hr : u.readPte (a + 8 * i) with
      | none => rfl
      | some e => exact hmapped e hr
  · intro hfree t
    show execMapPacket vf q s = _
    simp only [execMapPacket, hfw, Bool.not_true, Bool.false_eq_true, if_false, takePacket_taken h, hshape, if_neg hok, hcount, List.range_one,
      List.map_cons, List.map_nil, Nat.zero_mul, Nat.add_zero, List.any_cons, List.any_nil, Bool.or_false, if_neg hmay, hleaf]
    split
    · next x hx =>
      obtain rfl := List.mem_singleton.1 (List.mem_of_find?_eq_some hx)
      obtain ⟨i, hi, hv⟩ := List.any_eq_true.1 (List.find?_some hx :)
      obtain ⟨e, he, hclear⟩ := hfree i (List.mem_range.1 hi)
      rw [he] at hv
      exact absurd (hclear.symm.trans hv) Bool.false_ne_true
    · rfl

end

/-- A page size has a leaf. -/
theorem pageShape_leaves {size bytes level n contig : Nat} (h : pageShape size = (bytes, level, n, contig)) : 0 < n := by
  obtain ⟨-, -, rfl, -⟩ : _ ∧ _ ∧ (if size % 3 = 0 then 1 else if size % 3 = 1 then 16 else 256) = n ∧ _ := by
    simpa only [pageShape, Prod.mk.injEq] using h
  split
  · exact Nat.one_pos
  · split <;> omega

/-! ### UNMAP (R387) -/

/-- The fields of an UNMAP that the rules do not admit, for pages of a size. -/
def UnmapBad (p : BitVec 1024) (bytes : Nat) : Prop :=
  bitsN p 1023 196 ≠ 0 ∨ bitsN p 191 128 ≠ 0 ∨ bitsN p 194 192 = 7 ∨ bitsN p 95 32 % bytes ≠ 0

/-- The leaves of a page, as they stand at their homes. -/
def pageLeaves (u : State) (a n : Nat) : List Dword := (List.range n).map (fun i => BitVec.ofNat 64 (u.homeNat (a + 8 * i) 8))

/-- The state once an UNMAP has cleared the leaves of a page and dropped its translations (R110, R387). -/
def unmapped (u : State) (part vf va n bytes a : Nat) (keep : Bool) : State :=
  let v := u.engineWrite 0 a ((pageLeaves u a n).flatMap (fun e => bytesOfNat (if keep
    then setBits (setBits (setBits (setBits e 0 0 0) 7 6 0) 51 12 0) 11 11 1 else 0#64).toNat 8))
  (v.updPart part (fun x => { x with
    trims := x.trims ++ u.unmapTrims vf va n bytes a
    sharedLeaves := if v.heldAt a (8 * n) then x.sharedLeaves
      else x.sharedLeaves.filter (fun y => decide (y ≠ (ptePa ((pageLeaves u a n).headD 0#64), vf, va))) })).trimDrops part

/-- UNMAP clears one page. -/
theorem unmapPage_eq {u : State} {part vf va n bytes a : Nat} {keep : Bool} (hn : 0 < n) :
    u.unmapPage part vf va n bytes a keep = unmapped u part vf va n bytes a keep := by
  have hhead : (pageLeaves u a n).headD 0#64 = BitVec.ofNat 64 (u.homeNat a 8) := by
    obtain ⟨m, rfl⟩ := Nat.exists_eq_add_one_of_ne_zero hn.ne'
    rw [pageLeaves, List.range_succ_eq_map]
    rfl
  rw [unmapped, hhead, pageLeaves, List.flatMap_map]
  rfl

section
variable {s u : State} {vf q part k bytes level n contig : Nat} {p : BitVec 1024} (h : Taken s vf q 6 part k p u) (hfw : s.firmware = true)
  (hd : (s.qcb vf q).drain = []) (hshape : pageShape (bitsN p 194 192) = (bytes, level, n, contig))
include h hfw hd hshape

/-- An UNMAP with fields that the rules do not admit is refused. -/
theorem unmapPacket_bad (hbad : UnmapBad p bytes) : exec (.unmapPacket vf q) s = .next (u.refusePacket part vf q 0x16 0 0) := by
  unfold UnmapBad at hbad
  show execUnmapPacket vf q s = _
  simp only [execUnmapPacket, drainType_of_nil hd, reduceCtorEq, if_false, hfw, Bool.not_true, Bool.false_eq_true, takePacket_taken h, hshape,
    if_pos hbad]

/-- An UNMAP of one page whose tables do not reach it is refused, and any other clears the page and waits for its accesses. -/
theorem unmapPacket_one (hok : ¬ UnmapBad p bytes) (hcount : bitsN p 127 96 = 1) :
    (u.leafAt vf (bitsN p 95 32) level = none → exec (.unmapPacket vf q) s = .next (u.refusePacket part vf q 0x0D 2 (bitsN p 95 32))) ∧
    (∀ a, u.leafAt vf (bitsN p 95 32) level = some a →
      let r := (((unmapped u part vf (bitsN p 95 32) n bytes a (p.getLsbD 195)).begin' vf q k p none false).updQcb vf q
        (fun b => { b with drain := [(a, 8 * n)] })).trimDrops part
      exec (.unmapPacket vf q) s = .next (r.drained vf q (r.unmapQuiet part vf (r.qcb vf q).drain))) := by
  unfold UnmapBad at hok
  constructor
  · intro hleaf
    show execUnmapPacket vf q s = _
    simp only [execUnmapPacket, drainType_of_nil hd, reduceCtorEq, if_false, hfw, Bool.not_true, Bool.false_eq_true, takePacket_taken h, hshape,
      if_neg hok, hcount, List.range_one, List.map_cons, List.map_nil, Nat.zero_mul, Nat.add_zero, hleaf, List.find?_cons, Option.isNone_none]
  · intro a hleaf r
    show execUnmapPacket vf q s = _
    simp only [execUnmapPacket, drainType_of_nil hd, reduceCtorEq, if_false, hfw, Bool.not_true, Bool.false_eq_true, takePacket_taken h, hshape,
      if_neg hok, hcount, List.range_one, List.map_cons, List.map_nil, Nat.zero_mul, Nat.add_zero, hleaf, List.find?_cons, List.find?_nil,
      Option.isNone_some, List.filterMap_cons, List.filterMap_nil, Option.map_some, List.foldl_cons, List.foldl_nil,
      unmapPage_eq (pageShape_leaves hshape)]
    rfl

end

/-- Dropping the translations of a range changes no function. -/
theorem dropTlb_funcs (s : State) (part vf va len : Nat) : (s.dropTlb part vf va len).funcs = s.funcs := by
  refine List.foldlRecOn (motive := fun v : State => v.funcs = s.funcs) _ _ rfl fun u hu n _ => ?_
  split
  · exact hu
  · exact (updCore_funcs ..).trans hu

/-- Dropping the translations of trims changes no function. -/
theorem trimDrops_funcs (s : State) (part : Nat) : (s.trimDrops part).funcs = s.funcs :=
  (updPart_funcs ..).trans (List.foldlRecOn (motive := fun v : State => v.funcs = s.funcs) _ _ rfl
    fun _ hu _ _ => (dropTlb_funcs ..).trans hu)

/-- Dropping the translations of trims changes no queue. -/
theorem trimDrops_qcb (s : State) (part vf q : Nat) : (s.trimDrops part).qcb vf q = s.qcb vf q := by
  rw [State.qcb, State.func, trimDrops_funcs]
  rfl

/-! ### Registrations of a queue's oldest packet (R322, R387) -/

section
variable {s : State} {vf q part : Nat} {x : Started} {rest : List Started} (hpart : s.partOfVf vf = some part)
  (hs : (s.qcb vf q).started = x :: rest) (hd : (s.qcb vf q).drain ≠ [])
include hs hd

/-- A SIGNAL with its update out retires once it is released. -/
theorem signalPacket_drain (htype : bitsN x.bits 7 0 = 3) : exec (.signalPacket vf q) s = .next (
    if (s.qcb vf q).drain.all (fun r => !s.heldAt r.1 r.2) && true then
      (s.updQcb vf q (fun b => { b with drain := [] })).packetDone vf q x.packet else s) := by
  have hwait : (s.qcb vf q).drainType = some 3 := (drainType_of_ne hs hd).trans (congrArg some htype)
  exact congrArg Host.Outcome.next ((if_pos hwait).trans (drained_eq hs))

include hpart in
/-- An UNMAP with its leaves out retires once they are released and its accesses have completed. -/
theorem unmapPacket_drain (htype : bitsN x.bits 7 0 = 6) :
    let t := s.trimDrops part
    exec (.unmapPacket vf q) s = .next (
      if (s.qcb vf q).drain.all (fun r => !t.heldAt r.1 r.2) && t.unmapQuiet part vf (s.qcb vf q).drain then
        (t.updQcb vf q (fun b => { b with drain := [] })).packetDone vf q x.packet else t) := by
  intro t
  have hwait : (s.qcb vf q).drainType = some 6 := (drainType_of_ne hs hd).trans (congrArg some htype)
  have hq : (s.trimDrops part).qcb vf q = s.qcb vf q := trimDrops_qcb s part vf q
  have hst : ((s.trimDrops part).qcb vf q).started = x :: rest := by rw [hq, hs]
  show execUnmapPacket vf q s = _
  simp only [execUnmapPacket, hwait, if_true, hpart, drained_eq hst, hq]
  rfl

end

/-! ### The leaf a MAP writes (R102, R387) -/

/-- A bit of a number is its quotient's parity. -/
theorem getLsbD_iff_mod {n : Nat} (x : BitVec n) (i : Nat) : x.getLsbD i = decide (x.toNat / 2 ^ i % 2 = 1) := by
  rw [BitVec.getLsbD, Nat.testBit_eq_decide_div_mod_eq]

/-- A permission bit of a MAP at a place of the leaf. -/
theorem mapBit_eq (p : BitVec 1024) (i n : Nat) : (if p.getLsbD i then 2 ^ n else 0) = (p.getLsbD i).toNat * 2 ^ n := by
  cases p.getLsbD i <;> simp

/-- The fields of a leaf of a MAP without GROW. -/
theorem mapLeaf_fields {p : BitVec 1024} {contig pa : Nat} (hpa : pa % 4096 = 0) (hlt : pa < 2 ^ 52) (hc : contig < 4)
    (hgrow : p.getLsbD 195 = false) :
    let e := BitVec.ofNat 64 (mapLeaf p contig pa)
    bitsN e 57 56 = bitsN p 197 196 ∧ bitsN e 51 12 = pa / 4096 ∧ e.getLsbD 10 = p.getLsbD 202 ∧ bitsN e 9 8 = contig ∧
    e.getLsbD 5 = p.getLsbD 201 ∧ e.getLsbD 4 = p.getLsbD 200 ∧ e.getLsbD 3 = p.getLsbD 199 ∧ e.getLsbD 2 = p.getLsbD 198 ∧
    e.getLsbD 1 = true ∧ e.getLsbD 0 = true := by
  intro e
  have hm : bitsN p 197 196 < 4 := Nat.mod_lt _ (by decide)
  have hval : e.toNat = bitsN p 197 196 * 2 ^ 56 + pa / 4096 * 4096 + (p.getLsbD 202).toNat * 2 ^ 10 + contig * 2 ^ 8 +
      (p.getLsbD 201).toNat * 2 ^ 5 + (p.getLsbD 200).toNat * 2 ^ 4 + (p.getLsbD 199).toNat * 2 ^ 3 + (p.getLsbD 198).toNat * 2 ^ 2 + 3 := by
    have h1 := Bool.toNat_lt (p.getLsbD 202)
    have h2 := Bool.toNat_lt (p.getLsbD 201)
    have h3 := Bool.toNat_lt (p.getLsbD 200)
    have h4 := Bool.toNat_lt (p.getLsbD 199)
    have h5 := Bool.toNat_lt (p.getLsbD 198)
    simp only [e, BitVec.toNat_ofNat, mapLeaf, mapBit_eq, hgrow, Bool.false_eq_true, if_false]
    omega
  have hbit : ∀ (b : Bool) (i : Nat), e.toNat / 2 ^ i % 2 = b.toNat → e.getLsbD i = b := by
    intro b i h
    rw [getLsbD_iff_mod, h]
    cases b <;> rfl
  have h1 := Bool.toNat_lt (p.getLsbD 202)
  have h2 := Bool.toNat_lt (p.getLsbD 201)
  have h3 := Bool.toNat_lt (p.getLsbD 200)
  have h4 := Bool.toNat_lt (p.getLsbD 199)
  have h5 := Bool.toNat_lt (p.getLsbD 198)
  have hfield : ∀ hi lo x, e.toNat / 2 ^ lo % 2 ^ (hi - lo + 1) = x → bitsN e hi lo = x := fun _ _ _ h => h
  refine ⟨hfield _ _ _ ?_, hfield _ _ _ ?_, hbit _ _ ?_, hfield _ _ _ ?_, hbit _ _ ?_, hbit _ _ ?_, hbit _ _ ?_, hbit _ _ ?_, hbit true _ ?_,
    hbit true _ ?_⟩
  case' refine_9 => change _ = 1
  case' refine_10 => change _ = 1
  all_goals
    rw [hval]
    omega

/-- Settles O44: each packet by the equation of its type. -/
theorem packetSteps : Obligations.PacketSteps := by
  unfold Obligations.PacketSteps
  refine ⟨fun s vf q write => rfl, ?_, ?_, fun p contig pa hpa hlt hc hgrow => mapLeaf_fields hpa hlt hc hgrow⟩
  · intro s u vf q part k p
    refine ⟨fun h => ⟨fun h0 => becomes_of_next rfl ((takePacket_taken h _).trans (if_neg (not_not_intro h0))),
      fun h0 => becomes_of_next rfl ((takePacket_taken h _).trans (if_pos h0))⟩, fun h hd => ?_,
      fun h hw hbad => (waitPacket_taken h hw).trans (congrArg _ (if_pos hbad)), fun h hw h0 h1 c d hc => ?_,
      fun h hw h0 h1 pa hc => ?_, fun code hduet => becomes_of_next rfl (if_pos hduet), fun h hduet code c d hb => launch_noBindings h hduet code hb,
      fun h hduet code bs c d hb ht => launch_noTemplate h hduet code hb ht, fun h hduet code bs ts hb ht => ?_, fun h hfw => ?_,
      fun h hfw hd => ?_⟩
    · have hsig := signalPacket_taken h hd
      intro va r
      refine ⟨fun hbad => hsig.trans (congrArg _ (if_pos hbad)), fun h0 h1 => ?_⟩
      rw [if_neg (wait_inOrder h0 h1)] at hsig
      refine ⟨fun hr => ?_, fun t hr => ?_, fun hr => ?_, fun c d hr hne => ?_⟩
      all_goals rw [show u.signal part vf (bitsN p 95 32) (bitsN p 129 128) (bitsN p 127 96) = _ from hr] at hsig
      · exact hsig
      · intro t'
        exact ⟨fun hfree => hsig.trans (congrArg _ (if_neg (ne_true_of_eq_false hfree))), fun hheld => hsig.trans (congrArg _ (if_pos hheld))⟩
      · exact hsig
      · refine hsig.trans (congrArg _ ?_)
        split
        · next heq => cases heq
        · next heq => cases heq
        · next heq =>
          cases heq
          exact absurd rfl hne
        · next heq =>
          cases heq
          rfl
    · have hwait := waitPacket_taken h hw
      rw [if_neg (wait_inOrder h0 h1), waitMet_error hc] at hwait
      exact hwait
    · have hwait := waitPacket_taken h hw
      rw [if_neg (wait_inOrder h0 h1), waitMet_ok hc] at hwait
      intro count met t
      refine ⟨fun hm => ?_, fun hm => ?_⟩
      all_goals
        rw [show (if bitsN p 129 128 = 0 then wrapGe (u.cellWord pa).2.2 (bitsN p 127 96)
          else decide ((u.cellWord pa).2.2 = bitsN p 127 96)) = _ from hm] at hwait
        exact hwait
    · have hl := launch_read h hduet code hb ht
      intro v gs l
      refine ⟨fun hal => ?_, fun c d x hal hf => ?_, fun hal hf => ?_⟩
      · exact hl.trans (by rw [if_pos hal])
      · exact hl.trans (by rw [if_neg (not_not_intro hal), show v.launchFail vf q p l gs (bindings ts) = _ from hf])
      · exact hl.trans (by rw [if_neg (not_not_intro hal), show v.launchFail vf q p l gs (bindings ts) = _ from hf])
    · generalize hshape : pageShape (bitsN p 194 192) = shape
      obtain ⟨bytes, level, n, contig⟩ := shape
      intro shape va pa bad
      refine ⟨fun hbad => mapPacket_bad h hfw hshape hbad, fun hok hcount hgrow hgr => mapPacket_denied h hfw hshape hok hcount hgrow hgr,
        fun hok hcount hgr => ⟨fun hleaf => mapPacket_noTable h hfw hshape hok hcount hgr hleaf, fun a hleaf =>
          mapPacket_leaf h hfw hshape hok hcount hgr hleaf⟩⟩
    · generalize hshape : pageShape (bitsN p 194 192) = shape
      obtain ⟨bytes, level, n, contig⟩ := shape
      intro shape va
      refine ⟨fun hbad => unmapPacket_bad h hfw hd hshape hbad, fun h0 h1 h2 h3 hcount => unmapPacket_one h hfw hd hshape ?_ hcount⟩
      rintro (h | h | h | h)
      · exact h h0
      · exact h h1
      · exact h2 h
      · exact h h3
  · intro s vf q part x rest hpart hs hd over'
    refine ⟨fun htype => ?_, fun htype => ?_⟩
    · have hsig := signalPacket_drain hs hd htype
      rw [Bool.and_true] at hsig
      refine ⟨fun hfree => hsig.trans (congrArg _ (if_pos (released_iff.2 hfree))), fun hheld => hsig.trans (congrArg _ (if_neg fun hall => ?_))⟩
      obtain ⟨r, hr, hh⟩ := hheld
      exact Bool.false_ne_true ((released_iff.1 hall r hr).symm.trans hh)
    · have hun := unmapPacket_drain hpart hs hd htype
      intro t done
      have hdone : ((s.qcb vf q).drain.all (fun r => !t.heldAt r.1 r.2) && t.unmapQuiet part vf (s.qcb vf q).drain) = true ↔ done := by
        rw [Bool.and_eq_true, released_iff]
      exact ⟨fun hy => hun.trans (congrArg _ (if_pos (hdone.2 hy))), fun hn => hun.trans (congrArg _ (if_neg fun hc => hn (hdone.1 hc)))⟩

end Sys2Proof.Laws
end

section
/-! PROOF. Registered chains (O45). -/
namespace Sys2Proof.Laws
open Sys2Proof.Machine Sys2Proof.Claims

/-- The engine of a chain acts on the entry that the chain works on (R391). -/
theorem chainEntry_works {s u : State} {part chain opc seq : Nat} {x : Chain} {e : BitVec 512} (h : Works s part chain opc x seq e u)
    (f : Chain → Nat → BitVec 512 → State → State) : s.chainEntry part chain opc f = f x seq e u := by
  obtain ⟨hchain, hstop, hheld, d, bs, hd, rfl, hmore, hread, rfl, hok, hopc, rfl⟩ := h
  have hgo : ¬ (x.stopped || s.seqHeld part x) = true := by
    rw [hstop, hheld]
    exact Bool.false_ne_true
  have hvalid : ¬ (!entryOk (BitVec.ofNat 512 (natOfBytes bs))) = true := by
    rw [hok]
    exact Bool.false_ne_true
  simp only [State.chainEntry, hchain, if_neg hgo, hd, descSeq, if_neg (Ne.symm hmore), hread, if_neg hvalid, hopc, if_true]

/-- An entry whose bytes have all moved is complete. -/
theorem chainMove_done {u : State} {part seq : Nat} {reduce : Bool} {x : Chain} {e : BitVec 512} (h : bitsN e 255 192 ≤ x.offset) :
    u.chainMove part reduce x seq e = u.chainNext part x seq := if_pos h

/-- A unit whose write is held is waited for (R322). -/
theorem chainMove_waiting {u : State} {part seq pa : Nat} {leaf : Dword} {reduce : Bool} {x : Chain} {e : BitVec 512}
    (h : x.offset < bitsN e 255 192) (hw : x.waiting = true)
    (ht : u.engineTranslate x.vf part (bitsN e 191 128 + x.offset) .store = .ok pa leaf) :
    u.chainMove part reduce x seq e = if u.heldAt pa 64 then u else u.updChain part x.num (fun c => { c with
      offset := c.offset + 64
      waiting := false }) := by
  simp only [State.chainMove, if_neg (Nat.not_le.2 h), hw, if_true, ht]

/-- A unit whose source cannot be read stops its chain (R505). -/
theorem chainMove_noSource {u : State} {part seq c d : Nat} {reduce : Bool} {x : Chain} {e : BitVec 512} (h : x.offset < bitsN e 255 192)
    (hw : x.waiting = false) (ha : u.engineUnit part x.vf (bitsN e 127 64 + x.offset) = .error (c, d)) :
    u.chainMove part reduce x seq e = u.chainStop part x seq c d := by
  simp only [State.chainMove, if_neg (Nat.not_le.2 h), hw, Bool.false_eq_true, if_false, ha]

/-- COPY moves its unit (R392). -/
theorem chainMove_copy {u : State} {part seq : Nat} {x : Chain} {e : BitVec 512} {a : List Byte} (h : x.offset < bitsN e 255 192)
    (hw : x.waiting = false) (ha : u.engineUnit part x.vf (bitsN e 127 64 + x.offset) = .ok a) :
    u.chainMove part false x seq e =
      (u.touchLeaf x.vf (bitsN e 127 64 + x.offset) false).chainUnit part x seq (bitsN e 191 128 + x.offset) a := by
  simp only [State.chainMove, if_neg (Nat.not_le.2 h), hw, Bool.false_eq_true, if_false, ha, Bool.not_false, if_true]

/-- REDUCE combines its unit with the destination as the older operand, which must be readable (R392). -/
theorem chainMove_reduce {u : State} {part seq : Nat} {x : Chain} {e : BitVec 512} {a : List Byte} (h : x.offset < bitsN e 255 192)
    (hw : x.waiting = false) (ha : u.engineUnit part x.vf (bitsN e 127 64 + x.offset) = .ok a) :
    let v := u.touchLeaf x.vf (bitsN e 127 64 + x.offset) false
    let dst := bitsN e 191 128 + x.offset
    (∀ b, v.engineUnit part x.vf dst = .ok b →
      u.chainMove part true x seq e = v.chainUnit part x seq dst (redBytes (bitsN e 11 8) (bitsN e 14 12) b a)) ∧
    (∀ c d, v.engineUnit part x.vf dst = .error (c, d) → u.chainMove part true x seq e = v.chainStop part x seq c d) := by
  intro v dst
  refine ⟨fun b hb => ?_, fun c d hb => ?_⟩
  all_goals
    simp only [State.chainMove, if_neg (Nat.not_le.2 h), hw, Bool.false_eq_true, if_false, ha, Bool.not_true,
      show (u.touchLeaf x.vf (bitsN e 127 64 + x.offset) false).engineUnit part x.vf (bitsN e 191 128 + x.offset) = _ from hb]
    rfl

/-- An ALLREDUCE whose group is not registered stops its chain (R424). -/
theorem allreduce_noGroup {s u : State} {part chain seq : Nat} {x : Chain} {e : BitVec 512} (h : Works s part chain 3 x seq e u)
    (others : List (Nat × List Byte)) (hg : u.groups.find? (fun g => decide (g.1 = bitsN e 63 32)) = none) :
    exec (.chainAllreduce part chain others) s = .next (u.chainStop part x seq 0x1A 0) := by
  refine congrArg Host.Outcome.next ((chainEntry_works h _).trans ?_)
  simp only [hg]

/-- An ALLREDUCE of a registered group: its feature, its membership, and the data of every other member (R414, R424). -/
theorem allreduce_group {s u : State} {part chain seq n : Nat} {members : List Nat} {x : Chain} {e : BitVec 512}
    (h : Works s part chain 3 x seq e u) (others : List (Nat × List Byte))
    (hg : u.groups.find? (fun g => decide (g.1 = bitsN e 63 32)) = some (n, members)) :
    let away := members.filter (fun m => decide (m ≠ u.package))
    exec (.chainAllreduce part chain others) s = .next (
      if u.hasFeat x.vf 9 = false then u.chainStop part x seq 0x04 0
      else if !members.contains u.package then u.chainStop part x seq 0x1A 0
      else if bitsN e 255 192 ≤ x.offset then u.chainNext part x seq
      else if x.waiting then u.chainMove part false x seq e
      else if away.any (fun m => !others.any (fun o => decide (o.1 = m) && decide (bitsN e 255 192 ≤ o.2.length))) then u
      else match u.engineUnits part x.vf (bitsN e 127 64) (bitsN e 255 192 / 64) with
        | .error (c, d) => u.chainStop part x seq c d
        | .ok own => u.chainUnit part x seq (bitsN e 191 128 + x.offset) (((allreduceTree (bitsN e 11 8) (bitsN e 14 12)
            ((u.package, own) :: (others.filter (fun o => away.contains o.1)).map (fun o => (o.1, o.2.take (bitsN e 255 192))))).drop
              x.offset).take 64)) := by
  refine congrArg Host.Outcome.next ((chainEntry_works h _).trans ?_)
  simp only [hg] <;> rfl

/-- A SIGNAL entry performs its signal once and waits for a held update (R322, R392). -/
theorem chainSignal_works {s u : State} {part chain seq : Nat} {x : Chain} {e : BitVec 512} (h : Works s part chain 4 x seq e u) :
    let pa := u.cellOf part x.vf (bitsN e 319 256)
    exec (.chainSignal part chain) s = .next (
      if x.waiting then (if u.heldAt pa 4 then u else u.chainNext part x seq)
      else match u.signal part x.vf (bitsN e 319 256) 0 (bitsN e 351 320) with
        | .wait => u
        | .done t => if t.heldAt pa 4 then t.updChain part x.num (fun c => { c with waiting := true }) else t.chainNext part x seq
        | .bad c d => u.chainStop part x seq c d) :=
  congrArg Host.Outcome.next (chainEntry_works h _)

/-- A WAIT entry looks at its cell (R392). -/
theorem chainWait_works {s u : State} {part chain seq : Nat} {x : Chain} {e : BitVec 512} (h : Works s part chain 5 x seq e u) :
    (∀ a, u.cellAt part x.vf (bitsN e 319 256) = .ok a →
      let t := u.touchLeaf x.vf (bitsN e 319 256) false
      exec (.chainWaitEntry part chain) s = .next (if wrapGe (t.cellWord a).2.2 (bitsN e 351 320) then t.chainNext part x seq else t)) ∧
    (∀ c d, u.cellAt part x.vf (bitsN e 319 256) = .error (c, d) →
      exec (.chainWaitEntry part chain) s = .next (u.chainStop part x seq c d)) := by
  refine ⟨fun a ha => congrArg Host.Outcome.next ((chainEntry_works h _).trans ?_), fun c d ha =>
    congrArg Host.Outcome.next ((chainEntry_works h _).trans ?_)⟩
  · simp only [ha, waitHolds, if_true]
  · simp only [ha]

/-- A unit is written where its destination translates (R480, R482). -/
theorem chainUnit_ok {s : State} {part seq dst a : Nat} {x : Chain} {leaf : Dword}
    (h : s.engineTranslate x.vf part dst .store = .ok a leaf) (bs : List Byte) :
    s.chainUnit part x seq dst bs = ((s.touchLeaf x.vf dst true).register .engine x.ctx (byteList a bs)).updChain part x.num
      (fun c => if s.mustHold (byteList a bs) then { c with waiting := true } else { c with offset := c.offset + 64 }) := by
  simp only [State.chainUnit, h]

/-- SEQ advances where the descriptor translates (R391). -/
theorem chainNext_ok {s t : State} {part seq a : Nat} {x : Chain} {leaf : Dword}
    (ht : s.updChain part x.num (fun c => { c with
      offset := 0
      waiting := false }) = t) (h : t.engineTranslate x.vf part (x.desc + 40) .store = .ok a leaf) :
    s.chainNext part x seq = (t.touchLeaf x.vf (x.desc + 40) true).engineWrite x.ctx a (bytesOfNat ((seq + 1) % 2 ^ 32) 4) := by
  simp only [State.chainNext, ht, h]

/-- Settles O45: each operation of an entry is the equation of its case. -/
theorem chainSteps : Obligations.ChainSteps := by
  unfold Obligations.ChainSteps
  intro s u part chain seq x e src dst cell len v pa moves
  have hmoves : ∀ (i : Instr) (reduce : Bool), exec i s = .next (u.chainMove part reduce x seq e) → moves i := by
    intro i reduce hexec
    refine ⟨fun hdone => becomes_of_next hexec (chainMove_done hdone), fun hmore hw pa leaf ht => ?_⟩
    have hwait := chainMove_waiting (seq := seq) (reduce := reduce) hmore hw ht
    exact ⟨fun hheld => becomes_of_next hexec (hwait.trans (if_pos hheld)),
      fun hfree => becomes_of_next hexec (hwait.trans (if_neg (ne_true_of_eq_false hfree)))⟩
  refine ⟨fun h => ?_, fun h => ?_, fun h others => ⟨fun hg => allreduce_noGroup h others hg, fun n members hg => ?_⟩, fun h => ?_,
    fun h => chainWait_works h, fun a bs leaf h => chainUnit_ok h bs, fun a leaf => ?_⟩
  · have hexec : exec (.chainCopy part chain) s = .next (u.chainMove part false x seq e) :=
      congrArg Host.Outcome.next (chainEntry_works h _)
    exact ⟨hmoves _ false hexec, fun hmore hw => ⟨fun a ha => becomes_of_next hexec (chainMove_copy hmore hw ha),
      fun c d ha => becomes_of_next hexec (chainMove_noSource hmore hw ha)⟩⟩
  · have hexec : exec (.chainReduce part chain) s = .next (u.chainMove part true x seq e) :=
      congrArg Host.Outcome.next (chainEntry_works h _)
    exact ⟨hmoves _ true hexec, fun hmore hw => ⟨fun a b ha hb => becomes_of_next hexec ((chainMove_reduce hmore hw ha).1 b hb),
      fun c d ha => becomes_of_next hexec (chainMove_noSource hmore hw ha),
      fun a c d ha hb => becomes_of_next hexec ((chainMove_reduce hmore hw ha).2 c d hb)⟩⟩
  · have hall := allreduce_group h others hg
    dsimp only at hall
    refine ⟨fun hfeat => hall.trans (congrArg _ (if_pos hfeat)), fun hfeat hmem => ?_, fun hfeat hmem => ⟨fun hdone => ?_, fun hmore hw => ?_⟩⟩
    · rw [if_neg (fun h => Bool.false_ne_true (h.symm.trans hfeat)), hmem] at hall
      exact hall
    · rw [if_neg (fun h => Bool.false_ne_true (h.symm.trans hfeat)), hmem] at hall
      exact hall.trans (congrArg _ (if_pos hdone))
    · rw [if_neg (fun h => Bool.false_ne_true (h.symm.trans hfeat)), hmem, Bool.not_true, if_neg Bool.false_ne_true,
        if_neg (Nat.not_le.2 hmore), hw, if_neg Bool.false_ne_true] at hall
      intro away
      have hmissing : away.any (fun m => !others.any (fun o => decide (o.1 = m) && decide (len ≤ o.2.length))) = true ↔
          ∃ m ∈ away, ∀ o ∈ others, o.1 = m → o.2.length < len := by
        simp only [List.any_eq_true, Bool.not_eq_true', List.any_eq_false, Bool.and_eq_true, decide_eq_true_eq, not_and, Nat.not_le]
      refine ⟨fun hno => hall.trans (congrArg _ (if_pos (hmissing.2 hno))), fun own hhave hown => ?_⟩
      have hnot : ¬ away.any (fun m => !others.any (fun o => decide (o.1 = m) && decide (len ≤ o.2.length))) = true := by
        intro hc
        obtain ⟨m, hm, hshort⟩ := hmissing.1 hc
        obtain ⟨o, ho, heq, hlen⟩ := hhave m hm
        exact Nat.not_lt.2 hlen (hshort o ho heq)
      rw [if_neg hnot, hown] at hall
      exact hall
  · have hsig := chainSignal_works h
    dsimp only at hsig
    refine ⟨fun hw => ?_, fun hw => ⟨fun t ht => ?_, fun c d hb => ?_⟩⟩
    · rw [hw] at hsig
      exact hsig
    · rw [hw, if_neg Bool.false_ne_true, ht] at hsig
      exact ⟨fun hfree => hsig.trans (congrArg _ (if_neg (ne_true_of_eq_false hfree))), fun hheld => hsig.trans (congrArg _ (if_pos hheld))⟩
    · rw [hw, if_neg Bool.false_ne_true, hb] at hsig
      exact hsig
  · intro t h
    exact chainNext_ok rfl h

end Sys2Proof.Laws
end

section
/-! PROOF. Containment, kills, records, failover and power-on (O46). -/
namespace Sys2Proof.Laws
open Sys2Proof.Machine Sys2Proof.Claims

/-! ### Containment of a workgroup (R451) -/

/-- A workgroup that is not contained stays. -/
theorem evContain_none {s : State} {core wg : Nat} {g : Workgroup} (hg : s.wg core wg = some g) (hc : g.contained = none) :
    s.evContain core wg = s := by
  simp only [State.evContain, hg, hc]

/-- The waves of a contained workgroup at their precise points, with what they present and the moves of its entries withdrawn. -/
def stoppedWaves (s : State) (core wg : Nat) (g : Workgroup) : State :=
  ((s.wavesOf core wg).foldl (fun (s : State) e => s.updWave e.1 (fun w => { w with
    slice := none
    ladderFail := none })) s).cancelMoves g.part core wg

/-- The directory entries of a workgroup that are not FREE. -/
def entriesOf (t : State) (core wg : Nat) : List (Nat × DirEntry) :=
  (t.core core).dirs.filter (fun d => decide (d.2.wg = wg) && decide (d.2.state ≠ .free))

/-- The steps of a contained workgroup (R451). -/
theorem evContain_some {s : State} {core wg : Nat} {g : Workgroup} {r : BitVec 512} (hg : s.wg core wg = some g) (hc : g.contained = some r) :
    let t := stoppedWaves s core wg g
    let v := (entriesOf t core wg).foldl (fun (s : State) d => if d.2.state = .valid then s.sendDelete g.part core d.1 else s) t
    s.evContain core wg =
      if !(s.wavesOf core wg).all (fun e => e.2.precise) then s
      else if t.containBusy core wg g then t
      else if entriesOf t core wg ≠ [] ∨ v.tileBusy core wg = true then v
      else (((((v.poisonHeld (wgIdents g.vf ((v.wavesOf core wg).map (fun e => e.2)))).dropPriv core false g.records).dropWaves
        core wg).gridContained g.part g.grid (bitsN r 511 504)).removeWg core wg g).postRecord g.vf r := by
  simp only [State.evContain, hg, hc]
  rfl

/-- The waves of a workgroup all stand at precise points, or one does not. -/
theorem allPrecise_iff {s : State} {core wg : Nat} : (s.wavesOf core wg).all (fun e => e.2.precise) = true ↔
    ∀ e ∈ s.wavesOf core wg, e.2.precise = true := List.all_eq_true

/-! ### Records, kills and restores -/

/-- The oldest posted record reaches a working firmware (R450, R508). -/
theorem evRecordPost_eq {s : State} {p : Posting} {rest : List Posting} (hp : s.postings = p :: rest) (hup : s.complexUp = true) :
    let u := State.updFunc { s with postings := rest } p.vf (fun f => if 256 ≤ f.records.length then { f with lost := min (f.lost + 1) 65535 }
      else { f with
        records := f.records ++ [setBits p.bits 130 115 f.lost]
        lost := 0
        pba := sset false f.pba 66 true })
    (∀ n, u.partOfVf p.vf = some n → s.evRecordPost = u.faultTrigger n 4 (bitsN p.bits 511 504)) ∧
    (u.partOfVf p.vf = none → s.evRecordPost = u) := by
  intro u
  have hdown : ¬ (!s.complexUp) = true := by
    rw [hup]
    exact Bool.false_ne_true
  refine ⟨fun n hn => ?_, fun hn => ?_⟩
  all_goals
    simp only [State.evRecordPost, hp, if_neg hdown, show (State.updFunc { s with postings := rest } p.vf _).partOfVf p.vf = _ from hn]
    rfl

/-- A context of a queue is killed (R491). -/
theorem contextKill_eq {s : State} {ctx code part : Nat} (hctx : ctx ≠ 0) (hpart : s.partOfVf (ctxVf ctx) = some part) :
    exec (.contextKill ctx code) s = .next (s.killCtx part ctx code 0 0 true) := by
  have hq : s.ctxPart ctx = some part := (if_neg hctx).trans hpart
  show execContextKill ctx code s = _
  simp only [execContextKill, hq]

/-- Whether a saved workgroup's function may run now (R66). -/
def itsTurn (p : Part) (vf : Nat) : Bool := match p.slice with
  | some (f, _) => decide (f = vf) && p.grace.isNone
  | none => true

/-- A function's turn, where slicing is off or it holds the slice. -/
theorem itsTurn_eq_true {p : Part} {vf : Nat} (h : p.slice = none ∨ ∃ n, p.slice = some (vf, n) ∧ p.grace = none) : itsTurn p vf = true := by
  rcases h with h | ⟨n, h, hgrace⟩
  · simp only [itsTurn, h]
  · simp only [itsTurn, h, hgrace, decide_true, Option.isNone_none, Bool.and_self]

/-- No turn of a function while another holds the slice. -/
theorem itsTurn_eq_false {p : Part} {vf f m : Nat} (h : p.slice = some (f, m)) (hne : f ≠ vf) : itsTurn p vf = false := by
  simp only [itsTurn, h, decide_eq_false hne, Bool.false_and]

/-- A saved workgroup returns in its function's turn, to a core of its partition that nothing holds (R60, R66). -/
theorem evRestore_eq {s : State} {part index core : Nat} {x : Saved} {rest : List Saved} (h : (s.part part).saved.drop index = x :: rest) :
    (itsTurn (s.part part) x.wg.vf = false → s.evRestore part index core = s) ∧
    (∀ t, itsTurn (s.part part) x.wg.vf = true → x.live = true → (s.part part).cores.contains core = true → (s.core core).preempt = none →
      s.restore part x core = .done t → s.evRestore part index core = t) ∧
    (∀ n, s.restore part x core = .status n → n ≠ 4 → s.evRestore part index core = s) := by
  refine ⟨fun hturn => ?_, fun t hturn hlive hcore hpre hdone => ?_, fun n hn hne => ?_⟩
  · have hno : (!itsTurn (s.part part) x.wg.vf || !x.live || !(s.part part).cores.contains core || (s.core core).preempt.isSome) = true := by
      rw [hturn]
      rfl
    simp only [State.evRestore, h]
    exact if_pos hno
  · have hyes : ¬ (!itsTurn (s.part part) x.wg.vf || !x.live || !(s.part part).cores.contains core || (s.core core).preempt.isSome) = true := by
      rw [hturn, hlive, hcore, hpre]
      exact Bool.false_ne_true
    simp only [State.evRestore, h, hdone]
    exact if_neg hyes
  · simp only [State.evRestore, h, hn]
    refine ite_eq_left_iff.2 fun _ => ?_
    split
    · next heq => cases heq
    · next heq =>
      cases heq
      exact absurd rfl hne
    · rfl

/-! ### Containment of a partition and of the package (R507) -/

/-- A partition is contained once. -/
theorem containPart_cases (s : State) (part code : Nat) :
    (∀ c, (s.part part).health = .contained c → s.containPart part code = s) ∧
    ((s.part part).health = .serving → (s.part part).sectors ≠ 0#12 → s.containPart part code = (s.stopPart part code 4).clearPart part) := by
  refine ⟨fun c hc => ?_, fun hs hsec => ?_⟩
  · simp only [State.containPart, hc]
  · simp only [State.containPart, hs, if_neg hsec]

/-- Working firmware re-initialises a contained partition whose sectors work. -/
theorem evReinit_cases (s : State) (part : Nat) :
    (∀ c, (s.part part).health = .contained c → s.firmware = true → (s.part part).sectors &&& s.failedSectors = 0#12 →
      s.evReinit part = (s.resetPart part).postTenants part 0x01 part) ∧
    ((s.part part).health = .serving → s.evReinit part = s) := by
  refine ⟨fun c hc hfw hsec => ?_, fun hs => ?_⟩
  · simp only [State.evReinit, hc, hfw, hsec, ne_eq, not_true_eq_false, decide_false, Bool.not_true, Bool.or_self, Bool.false_eq_true, if_false]
  · simp only [State.evReinit, hs]

/-- A missed heartbeat is counted, and the third makes the standby take over (R510). -/
theorem heartbeat_missed (s : State) :
    (s.missed < 2 → exec (.heartbeat true) s = .next { s with missed := s.missed + 1 }) ∧
    (2 ≤ s.missed → exec (.heartbeat true) s = .next (s.complexFails s.activeB)) := by
  refine ⟨fun hfew => ?_, fun hmany => ?_⟩
  · have h3 : s.missed + 1 < 3 := by omega
    show execHeartbeat true s = _
    simp only [execHeartbeat, Bool.not_true, Bool.false_eq_true, if_false, if_pos h3]
  · have h3 : ¬ s.missed + 1 < 3 := by omega
    show execHeartbeat true s = _
    simp only [execHeartbeat, Bool.not_true, Bool.false_eq_true, if_false, if_neg h3]

/-- The standby takes over from the active complex, which is A, and it is reported (R510). -/
theorem complexFails_active {s : State} (ha : s.activeB = false) (hb : s.complexB.ok = true) :
    let t := State.retryMailboxes { s with
      complexA := { s.complexA with ok := false }
      activeB := true
      missed := 0 }
    s.complexFails s.activeB = (t.telemetry 0 (telemetryEntry 0x09 0 0 5 0 0 (t.pclk 0) 0 0 0)).postAll 0x05
      (if (t.telemetry 0 (telemetryEntry 0x09 0 0 5 0 0 (t.pclk 0) 0 0 0)).activeB then 1 else 0) := by
  simp only [State.complexFails, ha, Bool.false_eq_true, if_false, Bool.not_false, hb, Bool.not_true, Bool.and_false, if_true]

/-! ### Power-on (R425) -/

/-- Tagging the rings changes the rings only. -/
theorem tagRings_rings (s : State) : ∃ r, s.tagRings = { s with rings := r } :=
  List.foldlRecOn (motive := fun v : State => ∃ r, v = { s with rings := r }) _ _ ⟨s.rings, rfl⟩ fun v hv d _ => by
    obtain ⟨r, rfl⟩ := hv
    exact ⟨_, rfl⟩

/-- What power-on keeps and what it sets. -/
theorem powerOn_state (s : State) (okA okB : Bool) : ∃ t, exec (.powerOn okA okB) s = .next t ∧ t.powered = true ∧ t.mem = [] ∧ t.ext = s.ext ∧
    t.complexA.ok = okA ∧ t.complexB.ok = okB ∧ t.complexA.digest = s.complexA.digest ∧ t.complexB.digest = s.complexB.digest ∧
    t.packageContained = (!okA && !okB) ∧ (okA || okB → (t.part 0).sectors = 0xFFF#12 ∧ t.activeB = !okA) := by
  refine ⟨_, rfl, ?_⟩
  cases hboth : !okA && !okB with
  | true =>
    obtain ⟨rfl, rfl⟩ : okA = false ∧ okB = false := by simpa using hboth
    exact ⟨rfl, rfl, rfl, rfl, rfl, rfl, rfl, rfl, nofun⟩
  | false =>
    rw [if_neg Bool.false_ne_true]
    obtain ⟨r, hr⟩ := tagRings_rings (State.updPart { State.reset with
      agenda := s.agenda
      free := s.free
      ext := s.ext
      powered := true
      complexA := { s.complexA with ok := okA, staged := [] }
      complexB := { s.complexB with ok := okB, staged := [] }
      activeB := !okA && okB
      stateMajor := s.stateMajor
      stateMinor := s.stateMinor } 0 (fun p => { p with sectors := 0xFFF#12 }))
    rw [hr]
    refine ⟨rfl, rfl, rfl, rfl, rfl, rfl, rfl, rfl, fun hok => ⟨rfl, ?_⟩⟩
    show (!okA && okB) = !okA
    cases okA
    · simpa using hok
    · rfl

/-- Settles O46: each step is the equation of its case. -/
theorem containmentSteps : Obligations.ContainmentSteps := by
  unfold Obligations.ContainmentSteps
  refine ⟨?_, ?_, fun s ctx code part hctx hpart => contextKill_eq hctx hpart, ?_, ?_, ?_, ?_, powerOn_state⟩
  · intro s core wg g hg
    refine ⟨fun hc => becomes_of_next rfl (evContain_none hg hc), fun r hc hnot => ?_, fun r hc hall => ?_⟩
    · refine becomes_of_next rfl ((evContain_some hg hc).trans (if_pos ?_))
      rw [Bool.not_eq_true', ← Bool.not_eq_true, allPrecise_iff]
      intro hall
      obtain ⟨e, he, hn⟩ := hnot
      exact Bool.false_ne_true (hn.symm.trans (hall e he))
    · have heq := evContain_some hg hc
      dsimp only at heq
      rw [allPrecise_iff.2 hall, Bool.not_true, if_neg Bool.false_ne_true] at heq
      intro t
      refine ⟨fun hbusy => becomes_of_next rfl (heq.trans (if_pos hbusy)), fun hidle => ?_⟩
      have hsteps := heq.trans (if_neg (ne_true_of_eq_false hidle))
      intro mine v
      refine ⟨fun hwait => becomes_of_next rfl (hsteps.trans (if_pos hwait)), fun hmine htile => ?_⟩
      have hnil : entriesOf (stoppedWaves s core wg g) core wg = [] := hmine
      rw [hnil, List.foldl_nil] at hsteps
      refine becomes_of_next rfl (hsteps.trans (if_neg ?_))
      rintro (h | h)
      · exact h rfl
      · exact Bool.false_ne_true (htile.symm.trans h)
  · intro s p rest hp hup t u
    obtain ⟨h1, h2⟩ := evRecordPost_eq hp hup
    exact ⟨fun n hn => becomes_of_next rfl (h1 n hn), fun hn => becomes_of_next rfl (h2 hn)⟩
  · intro s t part index core x rest h hturn hlive hcore hpre hdone
    exact becomes_of_next rfl ((evRestore_eq h).2.1 t (itsTurn_eq_true hturn) hlive hcore hpre hdone)
  · intro s part index core n x rest h
    obtain ⟨hoff, -, hstatus⟩ := evRestore_eq (core := core) h
    exact ⟨fun vf m hs hne => becomes_of_next rfl (hoff (itsTurn_eq_false hs hne)), fun hn hne => becomes_of_next rfl (hstatus n hn hne)⟩
  · intro s part code
    obtain ⟨hcont, hserv⟩ := containPart_cases s part code
    obtain ⟨hre, hno⟩ := evReinit_cases s part
    exact ⟨fun c hc => becomes_of_next rfl (hcont c hc), fun hs hsec => becomes_of_next rfl (hserv hs hsec),
      fun c hc hfw hsec => becomes_of_next rfl (hre c hc hfw hsec), fun hs => becomes_of_next rfl (hno hs)⟩
  · intro s
    obtain ⟨hfew, hmany⟩ := heartbeat_missed s
    exact ⟨fun hc => becomes_of_next rfl (if_pos hc), fun hc => becomes_of_next rfl (if_neg (ne_true_of_eq_false hc)), rfl, hfew, hmany, rfl, rfl,
      fun ha hb => complexFails_active ha hb⟩

end Sys2Proof.Laws
end

section
/-! PROOF. Errors, way quotas and temperatures (O47). -/
namespace Sys2Proof.Laws
open Sys2Proof.Machine Sys2Proof.Claims

/-- An array's error, corrected or not (R499, R501). -/
theorem evArrayError_eq {s : State} {kind unit array addr : Nat} (h1 : 1 ≤ array) (h2 : array ≤ 0x0A) (corrected : Bool) :
    let parts := if array = 0x0A then [0] else s.unitParts kind unit addr
    let t := { s with unitErrors := sset 0 s.unitErrors (unitKey kind unit) (sget 0 s.unitErrors (unitKey kind unit) + 1) }
    s.evArrayError kind unit array addr corrected =
      if corrected then parts.foldl (fun (s : State) n => s.errorEntry n 0x05 0 kind unit array addr) t
      else ((parts.foldl (fun (s : State) n => s.errorEntry n 0x06 0x10 kind unit array addr) s).arrayAction kind unit array addr).countFailure
        kind unit array addr := by
  have hin : ¬ (array = 0 ∨ 0x0A < array) := by omega
  exact if_neg hin

/-- A poisoned sector whose address no partition owns is marked (R483). -/
theorem poisonSector_poison {s : State} {pa : Nat} (h : s.partOfSector (s.canon pa / 64 * 64 / Config.sectorBytes) = none) :
    sget false (s.poisonSector pa).poison (s.canon pa / 64) = true := by
  have hsec : s.canon pa / 64 * 64 / 64 = s.canon pa / 64 := Nat.mul_div_cancel _ (by decide)
  have hpart : State.partOfSector { s with poison := sset false s.poison (s.canon pa / 64) true }
    (s.canon pa / 64 * 64 / Config.sectorBytes) = none := h
  simp only [State.poisonSector, hsec, hpart]
  exact sget_sset_same ..

/-- A slice sets its tenants' quotas at the end of an interval, unless they are frozen (R412, R413). -/
theorem quotaInterval_cases (s : State) (part slice : Nat) :
    let n := (s.part part).tenants.length
    ((s.part part).frozen = true → exec (.quotaIntervalEnd part slice) s = .next s) ∧
    ((s.part part).frozen = false → n ≠ 0 → (s.part part).sectors.getLsbD (slice / 32) = true →
      exec (.quotaIntervalEnd part slice) s = .next (s.updPart part (fun p => { p with
        quotas := sset [] p.quotas slice (giveWays ((List.range n).map (fun t =>
          sget (List.replicate 16 0) (s.part part).monitors (slice * 16 + t))) (16 - n) (List.replicate n 1))
        monitors := p.monitors.filter (fun e => decide (e.1 / 16 ≠ slice)) }))) := by
  refine ⟨fun hf => congrArg Host.Outcome.next (if_pos (.inl hf)), fun hf hn hsec => congrArg Host.Outcome.next (if_neg ?_)⟩
  rintro (h | h | h)
  · exact Bool.false_ne_true (hf.symm.trans h)
  · exact hn h
  · exact Bool.false_ne_true (h.symm.trans hsec)

/-! ### The largest gain (R411, R412) -/

/-- The first of the numbers below `n` at which a measure is largest; 0 where there is none. -/
theorem foldl_argmax (f : Nat → Nat) (n : Nat) :
    let b := (List.range n).foldl (fun best t => if f best < f t then t else best) 0
    (b = 0 ∨ b < n) ∧ (∀ t, t < n → f t ≤ f b) ∧ ∀ t, t < b → f t < f b := by
  induction n with
  | zero => exact ⟨.inl rfl, fun t h => absurd h (Nat.not_lt_zero t), fun t h => absurd h (Nat.not_lt_zero t)⟩
  | succ n ih =>
    obtain ⟨hlt, hmax, hfirst⟩ := ih
    rw [List.range_succ, List.foldl_append, List.foldl_cons, List.foldl_nil]
    generalize (List.range n).foldl (fun best t => if f best < f t then t else best) 0 = b at hlt hmax hfirst ⊢
    dsimp only
    split
    · next hgt =>
      exact ⟨.inr (Nat.lt_succ_self n), fun t ht => (Nat.lt_succ_iff_lt_or_eq.1 ht).elim (fun h => ((hmax t h).trans_lt hgt).le)
        (fun h => (congrArg f h).le), fun t ht => (hmax t ht).trans_lt hgt⟩
    · next hle =>
      exact ⟨hlt.imp_right Nat.lt_succ_of_lt, fun t ht => (Nat.lt_succ_iff_lt_or_eq.1 ht).elim (hmax t)
        (fun h => (congrArg f h).le.trans (Nat.not_lt.1 hle)), hfirst⟩

/-- The next way goes to the tenant with the largest gain, the lowest on ties (R412). -/
theorem nextWay_best (h : List (List Nat)) {w : List Nat} (hw : w ≠ []) :
    let gain := fun (t : Nat) => (h.getD t []).getD (w.getD t 0) 0 - (h.getD t []).getD (w.getD t 0 - 1) 0
    nextWay h w < w.length ∧ (∀ t, t < w.length → gain t ≤ gain (nextWay h w)) ∧ (∀ t, t < nextWay h w → gain t < gain (nextWay h w)) := by
  intro gain
  obtain ⟨hlt, hmax, hfirst⟩ := foldl_argmax gain w.length
  have hpos : nextWay h w = 0 → nextWay h w < w.length := fun h0 => h0.trans_lt (List.length_pos_of_ne_nil hw)
  exact ⟨hlt.elim hpos id, hmax, hfirst⟩

/-- One more of an element adds one to the sum. -/
theorem sum_set_succ {w : List Nat} {t : Nat} (ht : t < w.length) : (w.set t (w.getD t 0 + 1)).sum = w.sum + 1 := by
  induction w generalizing t with
  | nil => exact absurd ht (Nat.not_lt_zero t)
  | cons x xs ih =>
    cases t with
    | zero =>
      simp only [List.set_cons_zero, List.getD_cons_zero, List.sum_cons]
      omega
    | succ t =>
      simp only [List.set_cons_succ, List.getD_cons_succ, List.sum_cons, ih (Nat.lt_of_succ_lt_succ ht)]
      omega

/-- Every way still to give goes to a tenant (R412). -/
theorem giveWays_sum (h : List (List Nat)) (n : Nat) {w : List Nat} (hw : w ≠ []) : (giveWays h n w).sum = w.sum + n := by
  induction n generalizing w with
  | zero => rfl
  | succ n ih =>
    have hset : w.set (nextWay h w) (w.getD (nextWay h w) 0 + 1) ≠ [] := by
      rw [ne_eq, List.set_eq_nil_iff]
      exact hw
    rw [giveWays, ih hset, sum_set_succ (nextWay_best h hw).1]
    omega

/-! ### Temperatures (R427) -/

/-- Some place of a list reads a temperature of at least `limit`. -/
def hotAt (readings : List (BitVec 16)) (is : List Nat) (limit : Int) : Bool := is.any (fun i => decide (limit ≤ (readings.getD i 0#16).toInt))

/-- A place of a run of places reads at least `limit`. -/
theorem hotAt_iff {readings : List (BitVec 16)} {is : List Nat} {limit : Int} {a b : Nat} (his : ∀ i, i ∈ is ↔ a ≤ i ∧ i < b) :
    hotAt readings is limit = true ↔ ∃ i, a ≤ i ∧ i < b ∧ limit ≤ (readings.getD i 0#16).toInt := by
  simp only [hotAt, List.any_eq_true, decide_eq_true_eq, his, and_assoc]

/-- A hotter place is also one that a lower limit counts. -/
theorem hotAt_mono {readings : List (BitVec 16)} {is : List Nat} {x y : Int} (hxy : x ≤ y) (h : hotAt readings is y = true) :
    hotAt readings is x = true := by
  obtain ⟨i, hi, hy⟩ := List.any_eq_true.1 h
  exact List.any_eq_true.2 ⟨i, hi, decide_eq_true (hxy.trans (of_decide_eq_true hy))⟩

/-- The places of the dies among the readings. -/
def diePlaces : List Nat := [0, 1, 2, 3]
/-- The places of the memory piles. -/
def pilePlaces : List Nat := (List.range 12).map (fun i => i + 4)
/-- The places of the I/O dies. -/
def ioPlaces : List Nat := [16, 17]

/-- The readings are kept, and heat short of the limit moves the package between its states (R427). -/
theorem tempReport_eq {s : State} {readings : List (BitVec 16)}
    (hlimit : (hotAt readings (diePlaces ++ ioPlaces) 880 || hotAt readings pilePlaces 840) = false) :
    let kept := { s with temps := (readings ++ List.replicate 32 0#16).take 32 }
    exec (.tempReport readings) s = .next (State.postPower { kept with
      thermal := if hotAt readings diePlaces 800 || hotAt readings pilePlaces 760 then true
        else if !hotAt readings diePlaces 760 && !hotAt readings pilePlaces 760 then false else s.thermal } s.inP1) :=
  congrArg Host.Outcome.next (if_neg (ne_true_of_eq_false hlimit))

/-- Settles O47: the actions by their equations, the ways by the largest gain, the temperatures by their limits. -/
theorem errorSteps : Obligations.ErrorSteps := by
  unfold Obligations.ErrorSteps
  refine ⟨fun s kind unit array addr h1 h2 => ⟨becomes_of_next rfl (evArrayError_eq h1 h2 true), becomes_of_next rfl (evArrayError_eq h1 h2 false)⟩,
    fun s kind unit addr => rfl, fun s pa h => poisonSector_poison h, fun s sector bad => rfl, fun s part slice => quotaInterval_cases s part slice,
    fun h w hw => nextWay_best h hw, fun h n w hw => giveWays_sum h n hw, ?_⟩
  intro s readings t dies piles ios kept hdies hios hpiles
  have hdie : ∀ limit, hotAt readings diePlaces limit = true ↔ dies limit := fun limit =>
    (hotAt_iff (a := 0) (b := 4) (fun i => by simp only [diePlaces, List.mem_cons, List.not_mem_nil, or_false]; omega)).trans
      (exists_congr fun i => ⟨fun h => h.2, fun h => ⟨Nat.zero_le i, h⟩⟩)
  have hpile : ∀ limit, hotAt readings pilePlaces limit = true ↔ piles limit := fun limit =>
    hotAt_iff (a := 4) (b := 16) (fun i => by
      simp only [pilePlaces, List.mem_map, List.mem_range]
      exact ⟨fun ⟨a, ha, he⟩ => by omega, fun h => ⟨i - 4, by omega, by omega⟩⟩)
  have hio : ∀ limit, hotAt readings ioPlaces limit = true ↔ ios limit := fun limit =>
    hotAt_iff (a := 16) (b := 18) (fun i => by simp only [ioPlaces, List.mem_cons, List.not_mem_nil, or_false]; omega)
  have hlimit : (hotAt readings (diePlaces ++ ioPlaces) 880 || hotAt readings pilePlaces 840) = false := by
    rw [← Bool.not_eq_true, Bool.or_eq_true, hotAt, List.any_append, Bool.or_eq_true]
    rintro ((h | h) | h)
    · exact hdies ((hdie 880).1 h)
    · exact hios ((hio 880).1 h)
    · exact hpiles ((hpile 840).1 h)
  have heq := tempReport_eq (s := s) hlimit
  dsimp only at heq
  refine ⟨fun hhot => ?_, fun hd hp => ?_⟩
  · rw [if_pos ((Bool.or_eq_true _ _).mpr (hhot.imp (hdie 800).2 (hpile 760).2))] at heq
    exact heq
  · have hd' : hotAt readings diePlaces 760 = false := Bool.eq_false_iff.2 fun h => hd ((hdie 760).1 h)
    have hp' : hotAt readings pilePlaces 760 = false := Bool.eq_false_iff.2 fun h => hp ((hpile 760).1 h)
    have hcold : hotAt readings diePlaces 800 = false := Bool.eq_false_iff.2 fun h =>
      Bool.false_ne_true (hd'.symm.trans (hotAt_mono (by decide) h))
    rw [hd', hp', hcold] at heq
    exact heq

end Sys2Proof.Laws
end

section
/-! PROOF. Snapshots, host registers, attachment and SPDM exchanges (O48). -/
namespace Sys2Proof.Laws
open Sys2Proof.Machine Sys2Proof.Claims

/-! ### Snapshots and triggers (R401, R416, R417) -/

/-- The timer's period and a trigger of its partition (R416). -/
theorem evSnapshotTimer_cases (s : State) (part : Nat) :
    ((s.part part).timer ≠ 0 → (s.part part).timerFrom + (s.part part).timer ≤ s.clk →
      s.evSnapshotTimer part = (s.updPart part (fun p => { p with timerFrom := s.clk })).trigger part 2 0 0) ∧
    ((s.part part).timer = 0 → s.evSnapshotTimer part = s) := by
  refine ⟨fun hon hclk => if_neg ?_, fun hoff => if_pos (.inl hoff)⟩
  rintro (h | h)
  · exact hon h
  · exact Nat.not_le.2 h hclk

/-- A write to TRIGGER (R401). -/
theorem hostTrigger_cases (s : State) (vf : Nat) (value : Word) :
    (vf ≠ 96 → s.hostTrigger vf value = s) ∧
    (bitsN value 3 0 = 15 → s.hostTrigger 96 value = s.triggerPackage (bitsN value 31 16)) ∧
    (bitsN value 3 0 ≠ 15 → (s.part (bitsN value 3 0)).sectors ≠ 0#12 →
      s.hostTrigger 96 value = s.trigger (bitsN value 3 0) 1 (bitsN value 31 16) 0) := by
  refine ⟨fun h => if_pos h, fun h => ?_, fun h hsec => ?_⟩
  · simp only [State.hostTrigger, ne_eq, not_true_eq_false, if_false, h, if_true]
  · simp only [State.hostTrigger, ne_eq, not_true_eq_false, if_false, h, hsec]

/-- Nothing of an empty list stands at a byte range. -/
theorem bytesAt_nil (offset size : Nat) : bytesAt [] offset size = List.replicate size 0#8 := by
  simp only [bytesAt, List.getD_nil, List.map_const', List.length_range]

/-- A read of the snapshot window (R401, R417). -/
theorem snapshotWindowRead_cases (s : State) {offset size : Nat} (hsize : size ≠ 0) (hend : offset + size ≤ 63 * 1048576) :
    (∀ vf, vf < 96 → exec (.snapshotWindowRead vf offset size) s = .next (s.answerRead (List.replicate size 0#8) false)) ∧
    exec (.snapshotWindowRead 96 offset size) s = .next { s with
      readData := bytesAt (s.parts.flatMap (fun p => match p.2.snap with
        | some x => x.bytes 96
        | none => [])) offset size
      readPoison := false
      parts := s.parts.map (fun p => (p.1, { p.2 with snap := p.2.snap.map (fun (x : Snapshot) => { x with read := true }) })) } := by
  have hin : ∀ vf, vf ≤ 96 → ¬ (96 < vf ∨ size = 0 ∨ 63 * 1048576 < offset + size) := fun vf hvf => by omega
  refine ⟨fun vf hvf => congrArg Host.Outcome.next ((if_neg (hin vf hvf.le)).trans ?_),
    congrArg Host.Outcome.next ((if_neg (hin 96 le_rfl)).trans ?_)⟩
  · have hne : vf ≠ 96 := hvf.ne
    simp only [State.readSnap, State.snapWindow, if_pos hne, bytesAt_nil]
  · simp only [State.readSnap, State.snapWindow, ne_eq, not_true_eq_false, if_false, State.answerRead] <;> rfl

/-! ### BAR0 and the windows (R398, R401) -/

section
variable {s : State} {vf offset : Nat} (value : Dword) (hvf : vf ≤ 96)
include hvf

/-- A write to an aligned offset of BAR0, by its range. -/
theorem registerWrite_aligned (hal : offset % 8 = 0) : s.registerWrite vf offset value =
    if offset < 0x1000 then s.updFunc vf (fun f => { f with mailbox := { f.mailbox with
      request := ssetList 0#8 f.mailbox.request offset (bytesOfNat (if offset = 0 then setBits value 7 0 0 else value).toNat 8) } })
    else if offset = 0x2000 then s.updFunc vf (fun f => { f with mailbox := f.mailbox.submit })
    else if offset = 0x2008 then s.updFunc vf (fun f => { f with mailbox := { f.mailbox with
      done := f.mailbox.done && !value.getLsbD 1 } })
    else if offset = 0x2010 then s.hostTrigger vf (BitVec.ofNat 32 value.toNat)
    else if 0x4000 ≤ offset ∧ offset < 0x4500 then s.updFunc vf (fun f =>
      let k := (offset - 0x4000) / 8
      { f with
        msix := sset 0#64 f.msix k value
        pba := if k % 2 = 1 ∧ value.getLsbD 32 = false then sset false f.pba (k / 2) false else f.pba })
    else s := by
  have hin : ¬ (96 < vf ∨ offset % 8 ≠ 0) := by omega
  exact if_neg hin

end

/-- A read of a window. -/
theorem windowRead_cases {s : State} {vf : Nat} (addr size : Nat) (hvf : vf ≤ 96) :
    (addr < 0x100000 → exec (.hostWindowAccess vf 0 addr [] size) s =
      .next (s.answerRead ((List.range size).map (fun i => (s.func vf).bar0 (addr + i))) false)) ∧
    (0x100000 ≤ addr → exec (.hostWindowAccess vf 0 addr [] size) s = .next (s.readSnap vf (addr - 0x100000) size)) ∧
    (∀ part, s.partOfVf vf = some part → exec (.hostWindowAccess vf 2 addr [] size) s = .next (s.hostLoad vf part addr size)) ∧
    exec (.hostWindowAccess vf 4 addr [] size) s =
      .next (s.answerRead ((List.range size).map (fun i => if addr + i < 65536 then (s.func vf).bar4 (addr + i) else 0#8)) false) := by
  have hin : ¬ 96 < vf := Nat.not_lt.2 hvf
  refine ⟨fun h => congrArg Host.Outcome.next ((if_neg hin).trans (if_neg (Nat.not_le.2 h))),
    fun h => congrArg Host.Outcome.next ((if_neg hin).trans (if_pos h)), fun part h => congrArg Host.Outcome.next ((if_neg hin).trans ?_),
    congrArg Host.Outcome.next (if_neg hin)⟩
  simp only [if_true, OfNat.ofNat_ne_zero, if_false, h]

/-- A write of a window. -/
theorem windowWrite_cases {s : State} {vf : Nat} (addr size : Nat) {data : List Byte} (hvf : vf ≤ 96) (hd : data ≠ []) :
    (data.length = 8 → exec (.hostWindowAccess vf 0 addr data size) s = .next (s.registerWrite vf addr (BitVec.ofNat 64 (natOfBytes data)))) ∧
    exec (.hostWindowAccess vf 2 addr data size) s = .next (s.hostStore vf addr data) ∧
    exec (.hostWindowAccess vf 4 addr data size) s = .next (
      if 4 = 4 ∧ addr % 1024 ≤ 572 ∧ 576 ≤ addr % 1024 + data.length ∧ addr < 65536 then
        s.evWriteNotify vf (addr / 1024) (wd (natOfBytes ((data.drop (572 - addr % 1024)).take 4)))
      else s) := by
  have hin : ¬ 96 < vf := Nat.not_lt.2 hvf
  exact ⟨fun h => congrArg Host.Outcome.next ((if_neg hin).trans ((if_neg hd).trans (if_pos h))),
    congrArg Host.Outcome.next ((if_neg hin).trans (if_neg hd)), congrArg Host.Outcome.next ((if_neg hin).trans (if_neg hd))⟩

/-- DOORBELL, TRIGGER and the places beside them read zero, and MBSTATUS reads its three bits (R401). -/
theorem bar0_reads (f : Func) :
    (∀ o, (0x2000 ≤ o ∧ o < 0x2008) ∨ (0x2010 ≤ o ∧ o < 0x2018) → f.bar0 o = 0#8) ∧
    f.bar0 0x2008 = BitVec.ofNat 8 ((if f.mailbox.busy then 1 else 0) + (if f.mailbox.done then 2 else 0) + (if f.events = [] then 0 else 4)) := by
  constructor
  · intro o ho
    have h1 : ¬ o < 0x1000 := by omega
    have h2 : ¬ o < 0x1010 := by omega
    have h3 : ¬ o < 0x2000 := by omega
    have h4 : ¬ (0x2008 ≤ o ∧ o < 0x2010) := by omega
    have h5 : ¬ (0x4000 ≤ o ∧ o < 0x4500) := by omega
    have h6 : ¬ (0x5000 ≤ o ∧ o < 0x5010) := by omega
    simp only [Func.bar0, if_neg h1, if_neg h2, if_neg h3, if_neg h4, if_neg h5, if_neg h6]
  · show BitVec.ofNat 8 (f.mbStatus / 256 ^ 0) = _
    rw [Nat.pow_zero, Nat.div_one]
    rfl

/-! ### The debug function (R418, R419) -/

/-- A debugger attaches within the session that its tenant has authorised. -/
theorem debugAttach_eq {s : State} {vf session : Nat} (ha : (s.func vf).debugAuth = some session) (hs : session ∈ (s.func 97).spdm.sessions)
    (hd : ∀ n, s.partOfVf vf = some n → (s.part n).duet = none) :
    exec (.debugAttach vf session) s = .next (s.updFunc vf (fun f => { f with debugAttached := true })) := by
  show execDebugAttach vf session s = _
  have hsession : (s.func 97).spdm.sessions.contains session = true := List.contains_iff_mem.2 hs
  cases hpart : s.partOfVf vf with
  | none => simp only [execDebugAttach, hpart, ha, hsession, and_self, if_true]
  | some n => simp only [execDebugAttach, hpart, ha, hsession, hd n hpart, Option.isSome_none, and_self, if_true]

/-- The function of a resident wave. -/
theorem vfOfWave_eq {s : State} {id : WaveId} {w : Wave} {g : Workgroup} (hw : s.wave id = some w) (hg : s.wg id.core w.wg = some g) :
    s.vfOfWave id = g.vf := by
  simp only [State.vfOfWave, hw, hg]

section
variable {s : State} {vf : Nat} {id : WaveId} {w : Wave} {g : Workgroup} (hatt : (s.func vf).debugAttached = true) (hw : s.wave id = some w)
  (hg : s.wg id.core w.wg = some g)
include hatt

/-- A workgroup's waves are asked to stop, one after the other. -/
theorem debugStop_group (core wg : Nat) : exec (.debugStop vf (.group core wg)) s =
    .next (((s.wavesOf core wg).map (fun e => e.1)).foldl (fun (s : State) id => s.debugStop vf id) s) :=
  congrArg Host.Outcome.next (if_neg fun h => Bool.false_ne_true (h.symm.trans hatt))

include hw hg

/-- A wave of a tenant is asked to stop; a responder is not. -/
theorem debugStop_wave (hvf : g.vf = vf) :
    (w.resp = none → g.contained = none → w.stopped = false → w.exited ≠ 0xFFFFFFFF#32 → exec (.debugStop vf (.wave id)) s =
      .next ((s.updWave id (fun w => { w with stopPending := true })).stopIfPrecise id)) ∧
    (w.resp ≠ none → exec (.debugStop vf (.wave id)) s = .next s) := by
  have hstop : exec (.debugStop vf (.wave id)) s = .next (s.debugStop vf id) :=
    congrArg Host.Outcome.next (if_neg fun h => Bool.false_ne_true (h.symm.trans hatt))
  have heq : s.debugStop vf id =
      if g.vf ≠ vf ∨ w.resp.isSome = true ∨ g.contained.isSome = true ∨ w.stopped = true ∨ w.exited = 0xFFFFFFFF#32 then s
      else (s.updWave id (fun w => { w with stopPending := true })).stopIfPrecise id := by
    simp only [State.debugStop, hw, hg]
  refine ⟨fun hr hc hs hx => hstop.trans (congrArg _ (heq.trans (if_neg ?_))), fun hr => hstop.trans (congrArg _ (heq.trans (if_pos ?_)))⟩
  · rw [hr, hc, hs]
    rintro (h | h | h | h | h)
    · exact h hvf
    · exact Bool.false_ne_true h
    · exact Bool.false_ne_true h
    · exact Bool.false_ne_true h
    · exact hx h
  · exact .inr (.inl (Option.isSome_iff_ne_none.2 hr))

/-- A stopped wave's state is read and written; a running one's is not. -/
theorem debugStateAccess_cases (hvf : g.vf = vf) (item : DebugItem) (value : Word) :
    (w.stopped = true → exec (.debugStateAccess vf id true item value) s = .next (s.debugWrite id w item value) ∧
      exec (.debugStateAccess vf id false item value) s = .next (s.answerRead (s.debugRead id w item) false)) ∧
    (w.stopped = false → exec (.debugStateAccess vf id true item value) s = .next s) := by
  have hacc : ∀ write, exec (.debugStateAccess vf id write item value) s = .next (if !w.stopped then s
      else if write then s.debugWrite id w item value else s.answerRead (s.debugRead id w item) false) := by
    intro write
    show execDebugStateAccess vf id write item value s = _
    simp only [execDebugStateAccess, hw, hatt, vfOfWave_eq hw hg, hvf, decide_true, Bool.true_and, Bool.and_true]
  refine ⟨fun h => ?_, fun h => ?_⟩
  · rw [h] at hacc
    exact ⟨hacc true, hacc false⟩
  · rw [h] at hacc
    exact hacc true

/-- A wave that stands, or is to stop, goes on. -/
theorem debugResume_eq (hvf : g.vf = vf) (hs : w.stopped = true ∨ w.stopPending = true) : exec (.debugResume vf id) s =
    .next ((s.setWave id (some { w with
      stopped := false
      stopPending := false
      readySince := s.clk })).rebalance id.core id.sched) := by
  have hstop : (w.stopped || w.stopPending) = true := (Bool.or_eq_true _ _).mpr hs
  show execDebugResume vf id s = _
  simp only [execDebugResume, hw, hatt, vfOfWave_eq hw hg, hvf, hstop, decide_true, Bool.and_self, if_true]

end

/-! ### SPDM (R400) -/

/-- An exchange of a function whose device serves: in order it leaves its stage, else an empty answer. -/
theorem spdm_exchange {s : State} {fn : Nat} (h : Exchanges s fn) (ready : Spdm → Bool) (f : Spdm → Spdm) : s.spdm fn ready f =
    .next (spdmOf s fn (if ready (s.func fn).spdm then f else fun x => { x with answer := [] })) := by
  have hin : ¬ (97 < fn ∨ s.firmware = false) := by
    rintro (hf | hf)
    · exact Nat.not_lt.2 h.1 hf
    · exact Bool.false_ne_true (hf.symm.trans h.2)
  refine congrArg Host.Outcome.next ((if_neg hin).trans ?_)
  cases hr : ready (s.func fn).spdm <;> simp only [spdmOf, State.updFunc, hr, if_true, Bool.false_eq_true, if_false]

/-- The end of a session of a function other than the debug function changes nothing else. -/
theorem endSession_eq {s : State} {q : SpdmReq} (h : q.fn ≠ 97) : exec (.endSession q) s = s.spdm q.fn (fun x => x.sessions.contains q.param)
    (fun x => { x with
      sessions := x.sessions.erase q.param
      answer := [0#8] }) := by
  have hno : ¬ (q.fn = 97 ∧ ((s.func q.fn).spdm.sessions.contains q.param && s.firmware) = true) := fun hc => h hc.1
  show execEndSession q s = _
  simp only [execEndSession, if_neg hno]

/-- Settles O48: each access of the host is the equation of its case. -/
theorem hostSteps : Obligations.HostSteps := by
  unfold Obligations.HostSteps
  refine ⟨fun s part hon hclk => becomes_of_next rfl ((evSnapshotTimer_cases s part).1 hon hclk),
    fun s part hoff => becomes_of_next rfl ((evSnapshotTimer_cases s part).2 hoff), fun s vf value => ?_, ?_, ?_, bar0_reads,
    fun s offset size hsize hend => snapshotWindowRead_cases s hsize hend, fun s vf session ha hs hd => debugAttach_eq ha hs hd, ?_, ?_⟩
  · obtain ⟨h1, h2, h3⟩ := hostTrigger_cases s vf value
    exact ⟨fun h => becomes_of_next rfl (h1 h), fun h => becomes_of_next rfl (h2 h), fun h hsec => becomes_of_next rfl (h3 h hsec)⟩
  · intro s vf offset value hvf mailbox
    refine ⟨fun hal hlt => becomes_of_next rfl ((registerWrite_aligned value hvf hal).trans (if_pos hlt)), ?_, ?_, ?_, fun hal hlo hhi =>
      becomes_of_next rfl ((registerWrite_aligned value hvf hal).trans ?_), fun hal hlo =>
      becomes_of_next rfl ((registerWrite_aligned value hvf hal).trans ?_)⟩
    · rintro rfl
      exact becomes_of_next rfl (registerWrite_aligned value hvf rfl)
    · rintro rfl
      exact becomes_of_next rfl (registerWrite_aligned value hvf rfl)
    · rintro rfl
      exact becomes_of_next rfl (registerWrite_aligned value hvf rfl)
    · rw [if_neg (by omega), if_neg (by omega), if_neg (by omega), if_neg (by omega), if_pos ⟨hlo, hhi⟩]
    · rw [if_neg (by omega), if_neg (by omega), if_neg (by omega), if_neg (by omega), if_neg (by omega)]
  · intro s vf addr data size hvf reads
    obtain ⟨hbar0, hsnap, hbar2, hbar4⟩ := windowRead_cases addr size hvf (s := s)
    refine ⟨fun h => hbar0 h, fun h => hsnap h, fun part h => hbar2 part h, hbar4, fun h => ?_, fun h => (windowWrite_cases addr size hvf h).2.1,
      fun h haddr => ?_⟩
    · have hd : data ≠ [] := by
        rintro rfl
        exact absurd h (by decide)
      exact (windowWrite_cases addr size hvf hd).1 h
    · have hwrite := (windowWrite_cases addr size hvf h (s := s)).2.2
      exact ⟨fun hat => hwrite.trans (congrArg _ (if_pos ⟨rfl, hat.1, hat.2, haddr⟩)),
        fun hat => hwrite.trans (congrArg _ (if_neg fun hc => hat ⟨hc.2.1, hc.2.2.1⟩))⟩
  · intro s vf id w g hatt hw hg hvf
    obtain ⟨hstop, hresp⟩ := debugStop_wave hatt hw hg hvf
    exact ⟨hstop, hresp, fun core wg => debugStop_group hatt core wg, fun item value => (debugStateAccess_cases hatt hw hg hvf item value).1,
      fun item value => (debugStateAccess_cases hatt hw hg hvf item value).2, fun hs => debugResume_eq hatt hw hg hvf hs⟩
  · intro s q h x leaves
    have hleaves : ∀ (i : Instr) (ready : Spdm → Bool) (f : Spdm → Spdm), exec i s = s.spdm q.fn ready f → leaves i (ready x) f :=
      fun i ready f hexec => hexec.trans (spdm_exchange h ready f)
    exact ⟨hleaves _ (fun _ => true) _ rfl, ⟨_, hleaves _ (fun x => x.version) _ rfl⟩,
      hleaves _ (fun x => x.capabilities && decide (q.param = 0)) _ rfl, ⟨_, hleaves _ (fun x => x.algorithms) _ rfl⟩,
      ⟨_, hleaves _ (fun x => x.algorithms) _ rfl⟩, ⟨_, hleaves _ (fun x => x.algorithms) _ rfl⟩,
      hleaves _ (fun x => x.algorithms && decide (1 ≤ q.param ∧ q.param ≤ 4)) _ rfl,
      ⟨_, hleaves _ (fun x => x.algorithms && !x.sessions.contains q.param) _ rfl⟩,
      hleaves _ (fun x => decide (x.pendingSession = some q.param)) _ rfl,
      fun hne => hleaves _ (fun x => x.sessions.contains q.param) _ (endSession_eq hne)⟩

end Sys2Proof.Laws
end

section
/-! PROOF. Requests of the mailbox (O49). -/
namespace Sys2Proof.Laws
open Sys2Proof.Machine Sys2Proof.Claims

/-! ### The rows of the requests (R401 to R404) -/

/-- A row of the requests: the step, its OPCODE, whether it is the physical function's, its ARG bits, its lengths. -/
abbrev MailRow := Instr × Nat × Bool × Nat × (Nat → Bool)

/-- No two rows have one OPCODE. -/
theorem request_unique {r : MailReq} {x y : MailRow} (hx : Request r x) (hy : Request r y) (h : x.2.1 = y.2.1) : x = y := by
  unfold Request at hx hy
  exact List.inj_on_of_nodup_map (f := fun (z : MailRow) => z.2.1) (by simp only [List.map_cons, List.map_nil]; decide) hx hy h

/-- What each row's step does is carried out as a request of its row. -/
theorem request_exec {r : MailReq} {x : MailRow} (hx : Request r x) (s : State) :
    ∃ f, exec x.1 s = s.mailRequest r x.2.1 x.2.2.1 x.2.2.2.1 x.2.2.2.2 f := by
  unfold Request at hx
  simp only [List.mem_cons, List.not_mem_nil, or_false] at hx
  rcases hx with rfl | rfl | rfl | rfl | rfl | rfl | rfl | rfl | rfl | rfl | rfl | rfl | rfl | rfl | rfl | rfl | rfl | rfl | rfl | rfl |
    rfl | rfl | rfl | rfl | rfl | rfl | rfl | rfl | rfl | rfl | rfl
  · exact ⟨_, Eq.refl (execFeatAccept r s)⟩
  · exact ⟨_, Eq.refl (execQueueStop r s)⟩
  · exact ⟨_, Eq.refl (execQueueStart r s)⟩
  · exact ⟨_, Eq.refl (execQueueReset r s)⟩
  · exact ⟨_, Eq.refl (execFaultRead r s)⟩
  · exact ⟨_, Eq.refl (execQuotaRead r s)⟩
  · exact ⟨_, Eq.refl (execQuotaAnswer r s)⟩
  · exact ⟨_, Eq.refl (execCtxKill r s)⟩
  · exact ⟨_, Eq.refl (execChainReg r s)⟩
  · exact ⟨_, Eq.refl (execChainUnreg r s)⟩
  · exact ⟨_, Eq.refl (execChainRestart r s)⟩
  · exact ⟨_, Eq.refl (execChainSkip r s)⟩
  · exact ⟨_, Eq.refl (execPoolSet r s)⟩
  · exact ⟨_, Eq.refl (execDebugAuth r s)⟩
  · exact ⟨_, Eq.refl (execSnapRead r s)⟩
  · exact ⟨_, Eq.refl (execTempRead r s)⟩
  · exact ⟨_, Eq.refl (execEventRead r s)⟩
  · exact ⟨_, Eq.refl (execHqWrite r s)⟩
  · exact ⟨_, Eq.refl (execTenant r s)⟩
  · exact ⟨_, Eq.refl (execPartConfig r s)⟩
  · exact ⟨_, Eq.refl (execGrantRange r s)⟩
  · exact ⟨_, Eq.refl (execQuotaCtrl r s)⟩
  · exact ⟨_, Eq.refl (execTeleSet r s)⟩
  · exact ⟨_, Eq.refl (execTriggerMask r s)⟩
  · exact ⟨_, Eq.refl (execTimerTrigger r s)⟩
  · exact ⟨_, Eq.refl (execGroupReg r s)⟩
  · exact ⟨_, Eq.refl (execPackageSet r s)⟩
  · exact ⟨_, Eq.refl (execFwLoad r s)⟩
  · exact ⟨_, Eq.refl (execFwUpdate r s)⟩
  · exact ⟨_, Eq.refl (execPstate r s)⟩
  · exact ⟨_, Eq.refl (execDuetForm r s)⟩

/-! ### Refusals (R402 to R404) -/

/-- A request by a function of the package that the firmware serves is checked against its row, then carried out. -/
theorem mailRequest_eq {s : State} {r : MailReq} (hvf : r.vf ≤ 96) (hfw : s.firmware = true) (opcode : Nat) (pf : Bool) (arg : Nat)
    (len : Nat → Bool) (f : Nat → State → MailRes) : s.mailRequest r opcode pf arg len f = .next (
      match (if pf && decide (r.vf ≠ 96) then MailRes.denied
        else if 96 < subject r ∨ Nat.land r.arg.toNat arg ≠ r.arg.toNat ∨ len r.payload.length = false then MailRes.invalid
        else f (subject r) s) with
      | .status n => s.respond r opcode n []
      | .ok p t => t.respond r opcode 0 p) := by
  have hin : ¬ (96 < r.vf ∨ s.firmware = false) := by
    rintro (h | h)
    · exact Nat.not_lt.2 hvf h
    · exact Bool.false_ne_true (h.symm.trans hfw)
  exact congrArg Host.Outcome.next (if_neg hin)

/-- Without firmware no request is served. -/
theorem request_noFirmware {s : State} {r : MailReq} {x : MailRow} (hx : Request r x) (hfw : s.firmware = false) : exec x.1 s = .next s := by
  obtain ⟨f, hf⟩ := request_exec hx s
  exact hf.trans (congrArg Host.Outcome.next (if_pos (.inr hfw)))

/-- A request of a row that is not its function's is DENIED, and one with a header out of order is INVALID (R403). -/
theorem request_refused {s : State} {r : MailReq} {x : MailRow} (hx : Request r x) (hvf : r.vf ≤ 96) (hfw : s.firmware = true) :
    (x.2.2.1 = true → r.vf ≠ 96 → Status x.1 s r x.2.1 2) ∧
    ((x.2.2.1 = false ∨ r.vf = 96) → 96 < subject r ∨ Nat.land r.arg.toNat x.2.2.2.1 ≠ r.arg.toNat ∨ x.2.2.2.2 r.payload.length = false →
      Status x.1 s r x.2.1 3) := by
  obtain ⟨f, hf⟩ := request_exec hx s
  have heq := hf.trans (mailRequest_eq hvf hfw ..)
  refine ⟨fun hpf hne => ?_, fun hown hbad => ?_⟩
  · rw [hpf, decide_eq_true hne] at heq
    exact heq
  · have hmay : ¬ (x.2.2.1 && decide (r.vf ≠ 96)) = true := by
      rw [Bool.and_eq_true, decide_eq_true_eq]
      rintro ⟨hpf, hne⟩
      exact hown.elim (fun h => Bool.false_ne_true (h.symm.trans hpf)) hne
    rw [if_neg hmay, if_pos hbad] at heq
    exact heq

/-- A served request is carried out by what its row's step does. -/
theorem request_served {s : State} {r : MailReq} {x : MailRow} {f : Nat → State → MailRes} (hx : Request r x)
    (hexec : exec x.1 s = s.mailRequest r x.2.1 x.2.2.1 x.2.2.2.1 x.2.2.2.2 f) (h : Served s r x.2.1) :
    exec x.1 s = .next (match f (subject r) s with
      | .status n => s.respond r x.2.1 n []
      | .ok p t => t.respond r x.2.1 0 p) := by
  obtain ⟨hvf, hfw, hsub, y, hy, hop, hpf, harg, hlen⟩ := h
  obtain rfl := request_unique hy hx hop
  have hmay : ¬ (y.2.2.1 && decide (r.vf ≠ 96)) = true := by
    rw [Bool.and_eq_true, decide_eq_true_eq]
    exact fun h => h.2 (hpf h.1)
  have hin : ¬ (96 < subject r ∨ Nat.land r.arg.toNat y.2.2.2.1 ≠ r.arg.toNat ∨ y.2.2.2.2 r.payload.length = false) := by
    rintro (h | h | h)
    · exact Nat.not_lt.2 hsub h
    · exact h harg
    · exact Bool.false_ne_true (h.symm.trans hlen)
  have heq := hexec.trans (mailRequest_eq hvf hfw ..)
  rw [if_neg hmay, if_neg hin] at heq
  exact heq

/-- A served request that succeeds is answered OK. -/
theorem answers_of {s t : State} {r : MailReq} {x : MailRow} {f : Nat → State → MailRes} {p : List Byte} (hx : Request r x)
    (hexec : exec x.1 s = s.mailRequest r x.2.1 x.2.2.1 x.2.2.2.1 x.2.2.2.2 f) (h : Served s r x.2.1) (hf : f (subject r) s = .ok p t) :
    Answers x.1 s r x.2.1 p t := by
  have heq := request_served hx hexec h
  rw [hf] at heq
  exact heq

/-- A served request that fails is answered with its status. -/
theorem status_of {s : State} {r : MailReq} {x : MailRow} {f : Nat → State → MailRes} {n : Nat} (hx : Request r x)
    (hexec : exec x.1 s = s.mailRequest r x.2.1 x.2.2.1 x.2.2.2.1 x.2.2.2.2 f) (h : Served s r x.2.1) (hf : f (subject r) s = .status n) :
    Status x.1 s r x.2.1 n := by
  have heq := request_served hx hexec h
  rw [hf] at heq
  exact heq


/-! ### The request that DOORBELL submits (R401, R402) -/

/-- A submitted request goes to the step of its row (R404). -/
theorem mailCarry_row {s : State} {r : MailReq} {x : MailRow} (hx : Request r x) : s.mailCarry r x.2.1 = exec x.1 s := by
  unfold Request at hx
  simp only [List.mem_cons, List.not_mem_nil, or_false] at hx
  rcases hx with rfl | rfl | rfl | rfl | rfl | rfl | rfl | rfl | rfl | rfl | rfl | rfl | rfl | rfl | rfl | rfl | rfl | rfl | rfl | rfl |
    rfl | rfl | rfl | rfl | rfl | rfl | rfl | rfl | rfl | rfl | rfl <;> rfl

/-- An OPCODE of no row is INVALID (R403). -/
theorem mailCarry_unknown {s : State} {r : MailReq} {n : Nat} (hfw : s.firmware = true) (h : ∀ x, Request r x → n ≠ x.2.1) :
    s.mailCarry r n = .next (s.respond r n 3 []) := by
  unfold Request at h
  simp only [List.forall_mem_cons, List.not_mem_nil, false_implies, implies_true, and_true] at h
  unfold State.mailCarry
  split
  rotate_right
  · exact congrArg Host.Outcome.next (if_pos hfw)
  all_goals simp at h

/-- A submitted request (R401, R402). -/
theorem mailServe_cases (s : State) (vf : Nat) :
    let m := (s.func vf).mailbox
    let n := bitsN m.header 47 32
    (m.busy = false → s.mailServe vf = .next s) ∧
    (m.busy = true → n ≤ 4080 → n % 8 = 0 → s.mailServe vf = s.mailCarry (m.taken vf) (bitsN m.header 63 48)) ∧
    (m.busy = true → 4080 < n ∨ n % 8 ≠ 0 → s.firmware = true →
      s.mailServe vf = .next (s.respond { m.taken vf with payload := [] } (bitsN m.header 63 48) 3 [])) := by
  refine ⟨fun hidle => ?_, fun hbusy hlen hal => ?_, fun hbusy hbad hfw => ?_⟩
  · simp only [State.mailServe, hidle, Bool.not_false, if_true]
  · have hok : ¬ (4080 < bitsN (s.func vf).mailbox.header 47 32 ∨ bitsN (s.func vf).mailbox.header 47 32 % 8 ≠ 0) :=
      fun h => h.elim (Nat.not_lt.2 hlen) (fun h => h hal)
    simp only [State.mailServe, hbusy, Bool.not_true, Bool.false_eq_true, if_false, if_neg hok]
  · simp only [State.mailServe, hbusy, Bool.not_true, Bool.false_eq_true, if_false, if_pos hbad, hfw, if_true]

/-- The response stands in the buffer, and vector 64 is signalled (R401). -/
theorem respond_mailbox (s : State) (r : MailReq) (opcode st : Nat) (payload : List Byte) :
    ((s.respond r opcode st payload).func r.vf).mailbox.done = true ∧ ((s.respond r opcode st payload).func r.vf).mailbox.busy = false ∧
    ((s.respond r opcode st payload).func r.vf).mailbox.payload = payload ∧
    sget false ((s.respond r opcode st payload).func r.vf).pba 64 = true := by
  have hfunc : (s.respond r opcode st payload).func r.vf = { s.func r.vf with
      mailbox := { (s.func r.vf).mailbox with
        response := responseHeader r opcode payload.length st
        payload := payload
        busy := false
        done := true }
      pba := sset false (s.func r.vf).pba 64 true } := sget_sset_same ..
  rw [hfunc]
  exact ⟨rfl, rfl, rfl, sget_sset_same ..⟩

/-! ### What the requests do -/

/-- A queue that exists. -/
theorem withQueue_eq {s : State} {vf q : Nat} {f : Qcb → MailRes} (h : (s.qcb vf q).hyp ≠ 0#1024) : s.withQueue vf q f = f (s.qcb vf q) := if_neg h

/-- A partition that exists. -/
theorem withPart_eq {s : State} {n : Nat} {f : Part → MailRes} (h : (s.part n).sectors ≠ 0#12) : s.withPart n f = f (s.part n) := if_neg h

/-- The value of an option or another. -/
theorem optD_eq_getD {α : Type} (o : Option α) (d : α) : optD o d = o.getD d := by cases o <;> rfl

/-- A quota event of a page that is not answered. -/
theorem unanswered_iff {f : Func} {page : Nat} :
    f.quota.any (fun e => decide (e.va = page) && !e.answered) = true ↔ ∃ e ∈ f.quota, e.va = page ∧ e.answered = false := by
  simp only [List.any_eq_true, Bool.and_eq_true, decide_eq_true_eq, Bool.not_eq_true']

section
variable {s : State} {r : MailReq}

/-- FEAT_ACCEPT (R415). -/
theorem featAccept_served (h : Served s r 0x0001) : let w := BitVec.ofNat 128 (number r)
    (w &&& ((s.offered (subject r) &&& 0x7FF#128) ||| 1#128) ≠ w → Status (.featAccept r) s r 0x0001 2) ∧
    (w &&& ((s.offered (subject r) &&& 0x7FF#128) ||| 1#128) = w → s.holdsWork (subject r) = false →
      Answers (.featAccept r) s r 0x0001 [] (s.updFunc (subject r) (fun f => { f with feat := w ||| 1#128 }))) := by
  intro w
  exact ⟨fun hw => status_of (List.mem_of_getElem? (i := 0) rfl) (Eq.refl (execFeatAccept r s)) h (if_pos hw),
    fun hw hidle => answers_of (List.mem_of_getElem? (i := 0) rfl) (Eq.refl (execFeatAccept r s)) h ((if_neg (not_not_intro hw)).trans (if_neg (ne_true_of_eq_false hidle)))⟩

/-- QUEUE_STOP, QUEUE_START and QUEUE_RESET (R381). -/
theorem queueRequests_served : let q := bitsN r.arg 5 0
    (Served s r 0x0002 → (s.qcb (subject r) q).hyp ≠ 0#1024 → (s.qcb (subject r) q).state ≤ 2 →
      Answers (.queueStop r) s r 0x0002 [] (s.updQcb (subject r) q (fun b => b.setState 3))) ∧
    (Served s r 0x0003 → (s.qcb (subject r) q).hyp ≠ 0#1024 → (s.qcb (subject r) q).state = 3 → Answers (.queueStart r) s r 0x0003 []
      (s.updQcb (subject r) q (fun b => b.setState (if b.waited then 2 else if b.pending then 1 else 0)))) ∧
    (Served s r 0x0004 → (s.qcb (subject r) q).hyp ≠ 0#1024 → 3 ≤ (s.qcb (subject r) q).state → s.ctxWork (ctxOf (subject r) q) = false →
      ∀ part, s.partOfVf (subject r) = some part →
      let d := (s.qcb (subject r) q).reset' (r.arg.getLsbD 8)
      Answers (.queueReset r) s r 0x0004 (bytesOfNat d.2 8) ((s.dropGrids part (subject r) q).updQcb (subject r) q (fun _ => d.1))) := by
  intro q
  refine ⟨fun h hq hst => answers_of (List.mem_of_getElem? (i := 1) rfl) (Eq.refl (execQueueStop r s)) h ((withQueue_eq hq).trans (if_neg (Nat.not_lt.2 hst))),
    fun h hq hst => answers_of (List.mem_of_getElem? (i := 2) rfl) (Eq.refl (execQueueStart r s)) h ((withQueue_eq hq).trans (if_neg (not_not_intro hst))), fun h hq hst hidle part hpart => ?_⟩
  have hmay : ¬ ((s.qcb (subject r) q).state < 3 ∨ s.ctxWork (ctxOf (subject r) q) = true) :=
    fun hc => hc.elim (Nat.not_lt.2 hst) (ne_true_of_eq_false hidle)
  refine answers_of (List.mem_of_getElem? (i := 3) rfl) (Eq.refl (execQueueReset r s)) h ((withQueue_eq hq).trans ((if_neg hmay).trans ?_))
  simp only [hpart]
  rfl

/-- FAULT_READ, QUOTA_READ and EVENT_READ take the oldest entry of their list (R405, R450, R481). -/
theorem readRequests_served : let f := s.func (subject r)
    (Served s r 0x0005 → (f.records = [] → Answers (.faultRead r) s r 0x0005 [] s) ∧ (∀ x rest, f.records = x :: rest →
      Answers (.faultRead r) s r 0x0005 (bytesOfNat x.toNat 64) (s.updFunc (subject r) (fun f => { f with records := rest })))) ∧
    (Served s r 0x0006 → ((∀ e ∈ f.quota, e.read = true) → Answers (.quotaRead r) s r 0x0006 [] s) ∧
      (∀ e, f.quota.find? (fun e => !e.read) = some e → Answers (.quotaRead r) s r 0x0006 (bytesOfNat e.bits 32)
        (s.updFunc (subject r) (fun f => { f with
          quota := f.quota.map (fun (x : QuotaEvent) => if x = e then { x with read := true } else x) })))) ∧
    (Served s r 0x0011 → (f.events = [] → Answers (.eventRead r) s r 0x0011 [] s) ∧ (∀ x rest, f.events = x :: rest →
      Answers (.eventRead r) s r 0x0011 (bytesOfNat x.toNat 16) (s.updFunc (subject r) (fun f => { f with events := rest })))) := by
  intro f
  refine ⟨fun h => ⟨fun hnil => answers_of (List.mem_of_getElem? (i := 4) rfl) (Eq.refl (execFaultRead r s)) h ?_, fun x rest hx => answers_of (List.mem_of_getElem? (i := 4) rfl) (Eq.refl (execFaultRead r s)) h ?_⟩,
    fun h => ⟨fun hread => answers_of (List.mem_of_getElem? (i := 5) rfl) (Eq.refl (execQuotaRead r s)) h ?_, fun e he => answers_of (List.mem_of_getElem? (i := 5) rfl) (Eq.refl (execQuotaRead r s)) h ?_⟩,
    fun h => ⟨fun hnil => answers_of (List.mem_of_getElem? (i := 16) rfl) (Eq.refl (execEventRead r s)) h ?_, fun x rest hx => answers_of (List.mem_of_getElem? (i := 16) rfl) (Eq.refl (execEventRead r s)) h ?_⟩⟩
  · simp only [show (s.func (subject r)).records = [] from hnil]
  · simp only [show (s.func (subject r)).records = x :: rest from hx]
  · have hnone : (s.func (subject r)).quota.find? (fun e => !e.read) = none :=
      List.find?_eq_none.2 fun e he hc => Bool.false_ne_true ((Bool.not_eq_true' _).mp hc ▸ hread e he)
    simp only [hnone]
  · simp only [show (s.func (subject r)).quota.find? (fun e => !e.read) = some e from he]
  · simp only [show (s.func (subject r)).events = [] from hnil]
  · simp only [show (s.func (subject r)).events = x :: rest from hx]

/-- QUOTA_ANSWER (R482). -/
theorem quotaAnswer_served (h : Served s r 0x0007) : let page := bitsN r.arg 59 16 * 65536
    let vf := subject r
    let f := s.func vf
    ((∀ e ∈ f.quota, e.va = page → e.answered = true) → Status (.quotaAnswer r) s r 0x0007 5) ∧
    ((∃ e ∈ f.quota, e.va = page ∧ e.answered = false) → r.arg.getLsbD 63 = false → Answers (.quotaAnswer r) s r 0x0007 []
      (s.updFunc vf (fun f => { f with quota := f.quota.map (fun (e : QuotaEvent) => if e.va = page then { e with answered := true } else e) }))) ∧
    ((∃ e ∈ f.quota, e.va = page ∧ e.answered = false) → r.arg.getLsbD 63 = true → s.mapRefused (s.poolOf vf) ≠ none →
      let t := s.updFunc vf (fun f => { f with quota := f.quota.filter (fun e => decide (e.va ≠ page)) })
      Answers (.quotaAnswer r) s r 0x0007 [] ((((t.refuseWaves vf page).refuseCopies vf page).refuseChains vf page).refuseHost vf page)) := by
  intro page vf f
  refine ⟨fun hall => status_of (List.mem_of_getElem? (i := 6) rfl) (Eq.refl (execQuotaAnswer r s)) h (if_pos ?_), fun hsome hno => answers_of (List.mem_of_getElem? (i := 6) rfl) (Eq.refl (execQuotaAnswer r s)) h ((if_neg ?_).trans (if_neg ?_)),
    fun hsome hyes href => answers_of (List.mem_of_getElem? (i := 6) rfl) (Eq.refl (execQuotaAnswer r s)) h ((if_neg ?_).trans (if_pos ?_))⟩
  · rw [Bool.not_eq_true', ← Bool.not_eq_true]
    intro hc
    obtain ⟨e, he, hva, hans⟩ := unanswered_iff.1 hc
    exact Bool.false_ne_true (hans.symm.trans (hall e he hva))
  · exact ne_true_of_eq_false (congrArg Bool.not (unanswered_iff.2 hsome))
  · rw [hno]
    exact Bool.false_ne_true
  · exact ne_true_of_eq_false (congrArg Bool.not (unanswered_iff.2 hsome))
  · rw [hyes, Bool.true_and]
    exact Option.isSome_iff_ne_none.2 href

/-- CTX_KILL (R491). -/
theorem ctxKill_served (h : Served s r 0x0008) : let ctx := bitsN r.arg 15 0
    (ctx ≠ 0 → ctxVf ctx ≠ subject r → Status (.ctxKill r) s r 0x0008 2) ∧
    (ctx ≠ 0 → ctxVf ctx = subject r → ∀ part, s.partOfVf (subject r) = some part → (s.qcb (subject r) (ctxQueue ctx)).hyp ≠ 0#1024 →
      Answers (.ctxKill r) s r 0x0008 [] (s.killCtx part ctx 0x19 0 0 true)) := by
  intro ctx
  refine ⟨fun h0 hne => status_of (List.mem_of_getElem? (i := 7) rfl) (Eq.refl (execCtxKill r s)) h ((if_neg h0).trans (if_pos hne)),
    fun h0 heq part hpart hq => answers_of (List.mem_of_getElem? (i := 7) rfl) (Eq.refl (execCtxKill r s)) h ((if_neg h0).trans ((if_neg (not_not_intro heq)).trans ?_))⟩
  simp only [hpart]
  exact withQueue_eq hq

/-- CHAIN_REG (R391). -/
theorem chainReg_served (h : Served s r 0x0009) {part pa : Nat} {bs : List Byte} {leaf : Dword} (hpart : s.partOfVf (subject r) = some part)
    (hal : r.arg.toNat % 64 = 0) (hbs : s.readVa (subject r) part r.arg.toNat 64 = .ok bs)
    (hpa : s.engineTranslate (subject r) part r.arg.toNat .load = .ok pa leaf) :
    let d := BitVec.ofNat 512 (natOfBytes bs)
    let sec := (s.homeSector pa).getD 0
    (s.chain part (bitsN d 442 437) ≠ none → Status (.chainReg r) s r 0x0009 3) ∧
    (bitsN d 436 384 = 0 → bitsN d 319 0 = 0 → bitsN d 511 448 % 64 = 0 → 1 ≤ bitsN d 447 443 → bitsN d 447 443 ≤ 16 →
      s.chain part (bitsN d 442 437) = none → ((s.part part).chains.filter (fun x => decide (x.sector = sec))).length < 64 →
      Answers (.chainReg r) s r 0x0009 (bytesOfNat (if subject r = 96 then sec else (s.part part).rank sec) 8) (s.updPart part (fun p => { p with
        chains := p.chains ++ [⟨bitsN d 442 437, sec, subject r, ctxOf (subject r) 0, r.arg.toNat, false, 0, false⟩] }))) := by
  intro d sec
  refine ⟨fun hchain => status_of (List.mem_of_getElem? (i := 8) rfl) (Eq.refl (execChainReg r s)) h ?_, fun h1 h2 h3 h4 h5 hchain hroom => answers_of (List.mem_of_getElem? (i := 8) rfl) (Eq.refl (execChainReg r s)) h ?_⟩
  · simp only [hpart, hal, ne_eq, not_true_eq_false, if_false, hbs, hpa]
    exact if_pos (.inr (.inr (.inr (.inr (.inr (Option.isSome_iff_ne_none.2 hchain))))))
  · simp only [hpart, hal, ne_eq, not_true_eq_false, if_false, hbs, hpa, optD_eq_getD]
    refine (if_neg ?_).trans (if_neg (Nat.not_le.2 hroom))
    rintro (hc | hc | hc | hc | hc | hc)
    · exact hc h1
    · exact hc h2
    · exact hc h3
    · exact absurd (hc ▸ h4) (by decide)
    · exact Nat.not_lt.2 h5 hc
    · exact absurd ((congrArg Option.isSome hchain).symm.trans hc) (by decide)

/-- CHAIN_UNREG, CHAIN_RESTART and CHAIN_SKIP (R404, R505). -/
theorem chainRequests_served {part : Nat} {x : Chain} (hx : s.chainAt (subject r) r.arg.toNat = some (part, x)) :
    (Served s r 0x000A → (x.stopped = true ∨ ∃ d, s.chainDesc part x = .ok d ∧ bitsN d 351 320 = bitsN d 383 352) →
      Answers (.chainUnreg r) s r 0x000A [] (s.updPart part (fun p => { p with chains := p.chains.filter (fun c => decide (c.num ≠ x.num)) }))) ∧
    (Served s r 0x000B → x.stopped = true → Answers (.chainRestart r) s r 0x000B []
      (s.updChain part x.num (fun c => { c with stopped := false }))) ∧
    (Served s r 0x000B → x.stopped = false → Status (.chainRestart r) s r 0x000B 4) ∧
    (Served s r 0x000C → x.stopped = true → ∀ d, s.chainDesc part x = .ok d → Answers (.chainSkip r) s r 0x000C []
      ((s.updChain part x.num (fun c => { c with stopped := false })).chainNext part x (bitsN d 351 320))) ∧
    (Served s r 0x000C → x.stopped = false → Status (.chainSkip r) s r 0x000C 4) := by
  refine ⟨fun h hor => answers_of (List.mem_of_getElem? (i := 9) rfl) (Eq.refl (execChainUnreg r s)) h ?_, fun h hs => answers_of (List.mem_of_getElem? (i := 10) rfl) (Eq.refl (execChainRestart r s)) h ?_,
    fun h hs => status_of (List.mem_of_getElem? (i := 10) rfl) (Eq.refl (execChainRestart r s)) h ?_, fun h hs d hd => answers_of (List.mem_of_getElem? (i := 11) rfl) (Eq.refl (execChainSkip r s)) h ?_,
    fun h hs => status_of (List.mem_of_getElem? (i := 11) rfl) (Eq.refl (execChainSkip r s)) h ?_⟩
  · rcases hor with hs | ⟨d, hd, heq⟩
    · simp only [hx, hs, Bool.not_true, Bool.false_and, Bool.false_eq_true, if_false]
    · simp only [hx, hd, descSeq, heq, decide_true, Bool.not_true, Bool.and_false, Bool.false_eq_true, if_false]
  · simp only [hx, hs, if_true]
    rfl
  · simp only [hx, hs, Bool.false_eq_true, if_false]
    rfl
  · simp only [hx, hs, hd, Bool.not_true, Bool.false_eq_true, if_false]
    rfl
  · simp only [hx, hs, Bool.not_false, if_true]
    rfl

/-- POOL_SET (R107, R404). -/
theorem poolSet_served (h : Served s r 0x000D) : let a := r.arg.toNat
    let x := BitVec.ofNat 512 (number r)
    (a % 64 ≠ 0 ∨ bitsN x 287 0 ≠ 0 → Status (.poolSet r) s r 0x000D 3) ∧
    (a % 64 = 0 → bitsN x 287 0 = 0 → (r.vf = 96 ∨ a = s.poolOf (subject r)) → s.partOfSector (s.canon a / Config.sectorBytes) ≠ none →
      Answers (.poolSet r) s r 0x000D [] (s.setPool a [(511, 448, bitsN x 511 448), (415, 384, bitsN x 415 384),
        (351, 288, bitsN x 351 288)])) := by
  intro a x
  refine ⟨fun hbad => status_of (List.mem_of_getElem? (i := 12) rfl) (Eq.refl (execPoolSet r s)) h (if_pos hbad), fun hal hz hown hsec => answers_of (List.mem_of_getElem? (i := 12) rfl) (Eq.refl (execPoolSet r s)) h ((if_neg ?_).trans (if_neg ?_))⟩
  · exact fun hc => hc.elim (fun hc => hc hal) (fun hc => hc hz)
  · rintro (⟨hv, ha⟩ | hnone)
    · exact hown.elim hv ha
    · exact hsec (Option.isNone_iff_eq_none.1 hnone)

/-- DEBUG_AUTH (R418). -/
theorem debugAuth_served (h : Served s r 0x000E) : let x := bitsN r.arg 31 0
    (r.arg.getLsbD 63 = false → x ∈ (s.func 97).spdm.sessions → Answers (.debugAuth r) s r 0x000E []
      (s.updFunc (subject r) (fun f => { f with debugAuth := some x }))) ∧
    (r.arg.getLsbD 63 = true → (s.func (subject r)).debugAuth = some x → Answers (.debugAuth r) s r 0x000E []
      (s.updFunc (subject r) (fun f => { f with
        debugAuth := none
        debugAttached := false }))) := by
  intro x
  exact ⟨fun hno hx => answers_of (List.mem_of_getElem? (i := 13) rfl) (Eq.refl (execDebugAuth r s)) h ((if_neg (ne_true_of_eq_false hno)).trans (if_pos (List.contains_iff_mem.2 hx))),
    fun hyes hx => answers_of (List.mem_of_getElem? (i := 13) rfl) (Eq.refl (execDebugAuth r s)) h ((if_pos hyes).trans (if_pos hx))⟩

/-- SNAP_READ (R417). -/
theorem snapRead_served (h : Served s r 0x000F) {part : Nat} {x : Snapshot} (hpart : s.partOfVf (subject r) = some part)
    (hx : (s.part part).snap = some x) : Answers (.snapRead r) s r 0x000F (((x.bytes (subject r)).drop r.arg.toNat).take 4080) s :=
  answers_of (List.mem_of_getElem? (i := 14) rfl) (Eq.refl (execSnapRead r s)) h (by simp only [hpart, hx])

/-- HQ_WRITE (R378, R404). -/
theorem hqWrite_served (h : Served s r 0x0100) : let x := BitVec.ofNat 1024 (number r)
    let q := bitsN r.arg 5 0
    let vf := subject r
    (hypOk x vf q = false → Status (.hqWrite r) s r 0x0100 3) ∧
    (hypOk x vf q = true → (s.qcb vf q).state ≠ 1 → (s.qcb vf q).state ≠ 2 → s.holdsWork vf = false → Answers (.hqWrite r) s r 0x0100 []
      ((s.updQcb vf q (fun b => { b with hyp := x })).updFunc vf (fun f => { f with
        feat := f.feat &&& (BitVec.ofNat 128 (bitsN x 959 832) ||| 1#128) }))) := by
  intro x q vf
  refine ⟨fun hbad => status_of (List.mem_of_getElem? (i := 17) rfl) (Eq.refl (execHqWrite r s)) h (if_pos (congrArg Bool.not hbad)), fun hok h1 h2 hidle => answers_of (List.mem_of_getElem? (i := 17) rfl) (Eq.refl (execHqWrite r s)) h ((if_neg
    (ne_true_of_eq_false (congrArg Bool.not hok))).trans (if_neg ?_))⟩
  rintro (hc | hc | ⟨-, hc⟩)
  · exact h1 hc
  · exact h2 hc
  · exact Bool.false_ne_true (hidle.symm.trans hc)

/-- TENANT (R409). -/
theorem tenant_served (h : Served s r 0x0101) : let n := bitsN r.arg 3 0
    let vf := subject r
    (s.part n).sectors ≠ 0#12 →
    (r.arg.getLsbD 63 = false → (s.part n).tenants.length < 16 → s.partOfVf vf = none → (s.part n).duet = none →
      Answers (.tenant r) s r 0x0101 [] (s.updPart n (fun p => p.setTenants (p.tenants ++ [vf])))) ∧
    (r.arg.getLsbD 63 = true → vf ∈ (s.part n).tenants → s.holdsWork vf = false →
      Answers (.tenant r) s r 0x0101 [] (s.updPart n (fun p => { p.setTenants (p.tenants.erase vf) with slice := match p.slice with
        | some (f, t) => if f = vf then none else some (f, t)
        | none => none }))) := by
  intro n vf hn
  refine ⟨fun hno hroom hfree hduet => answers_of (List.mem_of_getElem? (i := 18) rfl) (Eq.refl (execTenant r s)) h ((withPart_eq hn).trans ((if_neg (ne_true_of_eq_false hno)).trans
    ((if_neg (Nat.not_le.2 hroom)).trans (if_neg ?_)))), fun hyes hmem hidle => answers_of (List.mem_of_getElem? (i := 18) rfl) (Eq.refl (execTenant r s)) h ((withPart_eq hn).trans
    ((if_pos hyes).trans ((if_neg ?_).trans (if_neg (ne_true_of_eq_false hidle)))))⟩
  · show ¬ ((s.partOfVf vf).isSome || (s.part n).duet.isSome) = true
    rw [hfree, hduet]
    exact Bool.false_ne_true
  · exact ne_true_of_eq_false (congrArg Bool.not (List.contains_iff_mem.2 hmem))

/-- The sectors that a PART_CONFIG names, with those that its partition holds. -/
def namedSectors (s : State) (k : Nat) (sectors : BitVec 12) : List Nat :=
  (List.range 12).filter (fun i => (sectors ||| (s.part k).sectors).getLsbD i)

/-- A named sector is one of the twelve. -/
theorem mem_namedSectors {s : State} {k : Nat} {sectors : BitVec 12} {i : Nat} :
    i ∈ namedSectors s k sectors ↔ i < 12 ∧ (sectors ||| (s.part k).sectors).getLsbD i = true := by
  simp only [namedSectors, List.mem_filter, List.mem_range]

/-- PART_CONFIG (R407). -/
theorem partConfig_served (h : Served s r 0x0102) : let x := BitVec.ofNat 128 (number r)
    let sectors := BitVec.ofNat 12 (bitsN x 127 116)
    let k := bitsN x 115 112
    (11 < k ∨ bitsN x 111 80 ≠ 0 ∨ bitsN x 63 44 ≠ 0 → Status (.partConfig r) s r 0x0102 3) ∧
    (k ≤ 11 → bitsN x 111 80 = 0 → bitsN x 63 44 = 0 → r.arg.getLsbD 0 = true → (s.part k).sectors ≠ 0#12 →
      (∀ i, i < 12 → (sectors ||| (s.part k).sectors).getLsbD i = true → s.sectorWork i = false) →
      Answers (.partConfig r) s r 0x0102 [] (State.tagRings { s.clearPart k with
        parts := sset Part.reset (s.clearPart k).parts k Part.reset })) ∧
    (k ≤ 11 → bitsN x 111 80 = 0 → bitsN x 63 44 = 0 → r.arg.getLsbD 0 = false → sectors ≠ 0#12 → sectors &&& s.failedSectors = 0#12 →
      (∀ i, i < 12 → (sectors ||| (s.part k).sectors).getLsbD i = true →
        s.sectorWork i = false ∧ ∀ m, s.partOfSector i = some m → m = k) →
      let keep := ((List.range 16).zip (s.part k).tenants).filterMap (fun t =>
        if (BitVec.ofNat 16 (bitsN x 79 64)).getLsbD t.1 then some t.2 else none)
      Answers (.partConfig r) s r 0x0102 [] (State.tagRings { s.clearPart k with
        parts := sset Part.reset (s.clearPart k).parts k { Part.reset.setTenants keep with
          sectors := sectors
          origin := (s.clearPart k).clk
          membase := Config.sectorBytes * ((namedSectors s k sectors).filter (fun i => sectors.getLsbD i)).headD 0 } })) := by
  intro x sectors k
  refine ⟨fun hbad => status_of (List.mem_of_getElem? (i := 19) rfl) (Eq.refl (execPartConfig r s)) h (if_pos ?_), fun hk h1 h2 hdel hsec hidle => answers_of (List.mem_of_getElem? (i := 19) rfl) (Eq.refl (execPartConfig r s)) h ?_,
    fun hk h1 h2 hdel hsec hfail hidle => answers_of (List.mem_of_getElem? (i := 19) rfl) (Eq.refl (execPartConfig r s)) h ?_⟩
  · exact hbad.imp_right (Or.imp_right Or.inl)
  · have hok : ¬ (11 < k ∨ bitsN x 111 80 ≠ 0 ∨ bitsN x 63 44 ≠ 0 ∨ (r.arg.getLsbD 0 = false ∧ sectors = 0#12)) := by
      rintro (hc | hc | hc | ⟨hc, -⟩)
      · exact Nat.not_lt.2 hk hc
      · exact hc h1
      · exact hc h2
      · exact Bool.false_ne_true (hc.symm.trans hdel)
    have hwork : (namedSectors s k sectors).any (fun i => s.sectorWork i) = false := by
      rw [List.any_eq_false]
      intro i hi
      obtain ⟨hlt, hbit⟩ := mem_namedSectors.1 hi
      exact ne_true_of_eq_false (hidle i hlt hbit)
    refine (if_neg hok).trans ((if_neg fun hc => hsec hc.2).trans ((if_neg ?_).trans ((if_neg ?_).trans ?_)))
    · rw [hdel]
      exact Bool.false_ne_true
    · rw [hdel, Bool.not_true, Bool.false_and, Bool.or_false]
      exact ne_true_of_eq_false hwork
    · dsimp only
      rw [hdel, if_pos rfl]
      rfl
  · have hok : ¬ (11 < k ∨ bitsN x 111 80 ≠ 0 ∨ bitsN x 63 44 ≠ 0 ∨ (r.arg.getLsbD 0 = false ∧ sectors = 0#12)) := by
      rintro (hc | hc | hc | ⟨-, hc⟩)
      · exact Nat.not_lt.2 hk hc
      · exact hc h1
      · exact hc h2
      · exact hsec hc
    refine (if_neg hok).trans ((if_neg fun hc => Bool.false_ne_true (hdel.symm.trans hc.1)).trans ((if_neg ?_).trans ((if_neg ?_).trans ?_)))
    · rw [hdel]
      exact fun hc => of_decide_eq_true (p := sectors &&& s.failedSectors ≠ 0#12) hc hfail
    · rw [hdel, Bool.not_false, Bool.true_and, Bool.or_eq_true]
      rintro (hc | hc)
      · obtain ⟨i, hi, hw⟩ := List.any_eq_true.1 hc
        obtain ⟨hlt, hbit⟩ := mem_namedSectors.1 hi
        exact Bool.false_ne_true ((hidle i hlt hbit).1.symm.trans hw)
      · obtain ⟨i, hi, hw⟩ := List.any_eq_true.1 hc
        obtain ⟨hlt, hbit⟩ := mem_namedSectors.1 hi
        cases hm : s.partOfSector i with
        | none =>
          rw [hm] at hw
          exact Bool.false_ne_true hw
        | some m =>
          rw [hm] at hw
          exact of_decide_eq_true hw ((hidle i hlt hbit).2 m hm)
    · dsimp only
      rw [hdel, if_neg Bool.false_ne_true]
      rfl

/-- GRANT_RANGE (R387, R404). -/
theorem grantRange_served (h : Served s r 0x0103) : let g := (natOfBytes (r.payload.take 8), natOfBytes (r.payload.drop 8))
    let f := s.func (subject r)
    g.1 % 65536 = 0 → g.2 % 65536 = 0 → g.2 ≠ 0 → s.isLocal g.1 = true → s.canon g.1 + g.2 ≤ 12 * Config.sectorBytes →
    (r.arg.getLsbD 63 = false → f.grants.length < 16 →
      Answers (.grantRange r) s r 0x0103 [] (s.updFunc (subject r) (fun f => { f with grants := f.grants ++ [g] }))) ∧
    (r.arg.getLsbD 63 = true → g ∈ f.grants →
      Answers (.grantRange r) s r 0x0103 [] (s.updFunc (subject r) (fun f => { f with grants := f.grants.erase g }))) := by
  intro g f h1 h2 h3 hloc hend
  have hok : ¬ (g.1 % 65536 ≠ 0 ∨ g.2 % 65536 ≠ 0 ∨ g.2 = 0 ∨ s.isLocal g.1 = false ∨ 12 * Config.sectorBytes < s.canon g.1 + g.2) := by
    rintro (hc | hc | hc | hc | hc)
    · exact hc h1
    · exact hc h2
    · exact h3 hc
    · exact Bool.false_ne_true (hc.symm.trans hloc)
    · exact Nat.not_lt.2 hend hc
  exact ⟨fun hno hroom => answers_of (List.mem_of_getElem? (i := 20) rfl) (Eq.refl (execGrantRange r s)) h ((if_neg hok).trans ((if_neg (ne_true_of_eq_false hno)).trans (if_neg (Nat.not_le.2 hroom)))),
    fun hyes hmem => answers_of (List.mem_of_getElem? (i := 20) rfl) (Eq.refl (execGrantRange r s)) h ((if_neg hok).trans ((if_pos hyes).trans (if_pos (List.contains_iff_mem.2 hmem))))⟩

/-- QUOTA_CTRL, TELE_SET, TRIGGER_MASK and TIMER_TRIGGER set registers of a partition (R413, R416, R503, R508). -/
theorem partRegisters_served : let n := bitsN r.arg 3 0
    (Served s r 0x0104 → let x := BitVec.ofNat 64 (number r)
      bitsN x 63 9 = 0 → bitsN x 7 3 = 0 → (s.part n).sectors ≠ 0#12 → ((s.part n).duet = none ∨ x.getLsbD 8 = true) →
      Answers (.quotaCtrl r) s r 0x0104 [] (s.updPart n (fun p => { p with
        frozen := x.getLsbD 8
        interval := bitsN x 2 0 }))) ∧
    (Served s r 0x0105 → number r % 64 = 0 → (s.part n).sectors ≠ 0#12 →
      Answers (.teleSet r) s r 0x0105 [] (s.updPart n (fun p => { p with telebase := BitVec.ofNat 64 (number r) }))) ∧
    (Served s r 0x0106 → number r < 2 ^ 32 → (s.part n).sectors ≠ 0#12 →
      Answers (.triggerMask r) s r 0x0106 [] (s.updPart n (fun p => { p with triggerMask := BitVec.ofNat 32 (number r) }))) ∧
    (Served s r 0x0107 → (number r = 0 ∨ 65536 ≤ number r) → (s.part n).sectors ≠ 0#12 →
      Answers (.timerTrigger r) s r 0x0107 [] (s.updPart n (fun p => { p with
        timer := number r
        timerFrom := s.clk }))) := by
  intro n
  refine ⟨fun h => ?_,
    fun h hal hn => answers_of (List.mem_of_getElem? (i := 22) rfl) (Eq.refl (execTeleSet r s)) h ((if_neg (not_not_intro hal)).trans (withPart_eq hn)),
    fun h hlt hn => answers_of (List.mem_of_getElem? (i := 23) rfl) (Eq.refl (execTriggerMask r s)) h ((if_neg (Nat.not_le.2 hlt)).trans (withPart_eq hn)),
    fun h hval hn => answers_of (List.mem_of_getElem? (i := 24) rfl) (Eq.refl (execTimerTrigger r s)) h ((if_neg ?_).trans (withPart_eq hn))⟩
  · intro x h1 h2 hn hduet
    refine answers_of (List.mem_of_getElem? (i := 21) rfl) (Eq.refl (execQuotaCtrl r s)) h ((if_neg ?_).trans ((withPart_eq hn).trans (if_neg ?_)))
    · exact fun hc => hc.elim (fun hc => hc h1) (fun hc => hc h2)
    · show ¬ ((s.part n).duet.isSome && !x.getLsbD 8) = true
      rcases hduet with hd | hd
      · rw [hd]
        exact Bool.false_ne_true
      · rw [hd, Bool.not_true, Bool.and_false]
        exact Bool.false_ne_true
  · exact fun hc => hval.elim hc.1 (Nat.not_le.2 hc.2)

/-- GROUP_REG (R424). -/
theorem groupReg_served (h : Served s r 0x0108) : let id := bitsN r.arg 31 0
    let ns := r.payload.map (fun b => b.toNat)
    let ms := ns.takeWhile (fun n => decide (n ≠ 255))
    (r.arg.getLsbD 63 = false → 2 ≤ ms.length → rising ms = true → (∀ m ∈ ms, m < 144) → (∀ m ∈ ns.drop ms.length, m = 255) →
      (∀ g ∈ s.groups, g.1 ≠ id) → Answers (.groupReg r) s r 0x0108 [] { s with groups := s.groups ++ [(id, ms)] }) ∧
    (r.arg.getLsbD 63 = true → (∃ g ∈ s.groups, g.1 = id) →
      Answers (.groupReg r) s r 0x0108 [] { s with groups := s.groups.filter (fun g => decide (g.1 ≠ id)) }) := by
  intro id ns ms
  have hknown : s.groups.any (fun g => decide (g.1 = id)) = true ↔ ∃ g ∈ s.groups, g.1 = id := by
    simp only [List.any_eq_true, decide_eq_true_eq]
  refine ⟨fun hno hlen hrise hlow hrest hnew => answers_of (List.mem_of_getElem? (i := 25) rfl) (Eq.refl (execGroupReg r s)) h ((if_neg (ne_true_of_eq_false hno)).trans ((if_neg ?_).trans (if_neg ?_))),
    fun hyes hold => answers_of (List.mem_of_getElem? (i := 25) rfl) (Eq.refl (execGroupReg r s)) h ((if_pos hyes).trans (if_pos (hknown.2 hold)))⟩
  · rintro (hc | hc | hc | hc)
    · exact Nat.not_lt.2 hlen hc
    · exact Bool.false_ne_true (hc.symm.trans hrise)
    · obtain ⟨m, hm, hbig⟩ := List.any_eq_true.1 hc
      exact Nat.not_le.2 (hlow m hm) (of_decide_eq_true hbig)
    · obtain ⟨m, hm, hne⟩ := List.any_eq_true.1 hc
      exact of_decide_eq_true hne (hrest m hm)
  · intro hc
    obtain ⟨g, hg, he⟩ := hknown.1 hc
    exact hnew g hg he

/-- PACKAGE_SET (R422, R425). -/
theorem packageSet_served (h : Served s r 0x0109) (hid : bitsN r.arg 7 0 ≤ 143) (hports : number r < 2 ^ 18)
    (hidle : ∀ k ∈ skeys s.parts, s.partWork k = false) : Answers (.packageSet r) s r 0x0109 [] { s with
      package := bitsN r.arg 7 0
      ports := (List.range 18).foldl (fun m i => sset Port.reset m i { Port.reset with
        enabled := (BitVec.ofNat 18 (number r)).getLsbD i }) s.ports } := by
  refine answers_of (List.mem_of_getElem? (i := 26) rfl) (Eq.refl (execPackageSet r s)) h ((if_neg ?_).trans (if_neg ?_))
  · exact fun hc => hc.elim (Nat.not_lt.2 hid) (Nat.not_le.2 hports)
  · intro hc
    obtain ⟨k, hk, hw⟩ := List.any_eq_true.1 hc
    exact Bool.false_ne_true ((hidle k hk).symm.trans hw)

/-- FW_UPDATE (R394 to R396). -/
theorem fwUpdate_served (h : Served s r 0x010B) : let image := sgetList 0#8 s.standby.staged 0 r.arg.toNat
    r.arg.toNat ≠ 0 → r.arg.toNat ≤ 2 ^ 32 →
    (Config.imageVerifies image = false → Status (.fwUpdate r) s r 0x010B 7) ∧
    (Config.imageVerifies image = true → Config.fusedVersion ≤ Config.imageVersion image → s.stateMajor ≤ (Config.imageTable image).1 →
      let t := s.setStandby { s.standby with
        ok := true
        digest := Config.sm3 image
        version := Config.imageVersion image }
      Answers (.fwUpdate r) s r 0x010B [] ((State.endSessions { t with
        activeB := !t.activeB
        missed := 0
        stateMajor := (Config.imageTable image).1
        stateMinor := (Config.imageTable image).2 }).postAll 0x02
          ((Config.imageTable image).1 % 65536 * 65536 + (Config.imageTable image).2 % 65536))) := by
  intro image h0 hlen
  have hok : ¬ (r.arg.toNat = 0 ∨ 2 ^ 32 < r.arg.toNat) := fun hc => hc.elim h0 (Nat.not_lt.2 hlen)
  refine ⟨fun hbad => status_of (List.mem_of_getElem? (i := 28) rfl) (Eq.refl (execFwUpdate r s)) h ((if_neg hok).trans (if_pos ?_)), fun hver hnew hmaj => answers_of (List.mem_of_getElem? (i := 28) rfl) (Eq.refl (execFwUpdate r s)) h ((if_neg hok).trans
    (if_neg ?_))⟩
  · exact (Bool.or_eq_true _ _).mpr (.inl ((Bool.or_eq_true _ _).mpr (.inl (congrArg Bool.not hbad))))
  · rw [Bool.or_eq_true, Bool.or_eq_true, decide_eq_true_eq, decide_eq_true_eq]
    rintro ((hc | hc) | hc)
    · exact ne_true_of_eq_false (congrArg Bool.not hver) hc
    · exact Nat.not_lt.2 hnew hc
    · exact Nat.not_lt.2 hmaj hc

/-- DUET_FORM (R420). -/
theorem duetForm_served (h : Served s r 0x010D) : let n := bitsN r.arg 3 0
    let peer := bitsN r.arg 15 8
    (s.part n).sectors ≠ 0#12 → s.partWork n = false →
    (r.arg.getLsbD 63 = true → ∀ d, (s.part n).duet = some d → d.edge = [] → d.closed = [] →
      Answers (.duetForm r) s r 0x010D [] (s.updPart n (fun p => { p with duet := none }))) ∧
    (r.arg.getLsbD 63 = false → peer ≤ 143 → peer ≠ s.package →
    (s.part n).duet = none → s.portLive 16 = true → s.portLive 17 = true → ∀ t, (s.part n).tenants = [t] → s.hasFeat t 10 = true →
    (s.func t).debugAttached = false →
    Answers (.duetForm r) s r 0x010D [] (s.updPart n (fun p => { p with
      duet := some ⟨peer, s.clk / 2048, [], [], []⟩
      frozen := true
      quotas := []
      tslice := 0#32
      slice := none
      grace := none }))) := by
  intro n peer hn hidle
  refine ⟨fun hyes d hd he hc => answers_of (List.mem_of_getElem? (i := 30) rfl) (Eq.refl (execDuetForm r s)) h ((withPart_eq hn).trans ((if_neg (ne_true_of_eq_false hidle)).trans ((if_pos hyes).trans ?_))),
    fun hno hpeer hself hd h16 h17 t ht hfeat hdbg => answers_of (List.mem_of_getElem? (i := 30) rfl) (Eq.refl (execDuetForm r s)) h ((withPart_eq hn).trans ((if_neg (ne_true_of_eq_false hidle)).trans
      ((if_neg (ne_true_of_eq_false hno)).trans ((if_neg ?_).trans ((if_neg ?_).trans (if_neg ?_))))))⟩
  · have hquiet : ¬ (d.edge ≠ [] ∨ d.closed ≠ []) := fun hq => hq.elim (fun hq => hq he) (fun hq => hq hc)
    rw [hd]
    exact if_neg hquiet
  · exact fun hq => hq.elim (Nat.not_lt.2 hpeer) hself
  · show ¬ ((s.part n).duet.isSome || !s.portLive 16 || !s.portLive 17 || decide ((s.part n).tenants.length ≠ 1)) = true
    rw [hd, h16, h17, ht]
    exact Bool.false_ne_true
  · show ¬ (s.part n).tenants.any (fun t => !s.hasFeat t 10 || (s.func t).debugAttached) = true
    rw [ht, List.any_cons, List.any_nil, hfeat, hdbg]
    exact Bool.false_ne_true

end

/-- Settles O49: each request by the lemma of its row. -/
theorem mailboxRequests : Obligations.MailboxRequests := by
  unfold Obligations.MailboxRequests
  intro s r vf n q f
  obtain ⟨hstop, hstart, hreset⟩ := queueRequests_served (s := s) (r := r)
  obtain ⟨hfault, hquota, hevent⟩ := readRequests_served (s := s) (r := r)
  obtain ⟨hctrl, htele, hmask, htimer⟩ := partRegisters_served (s := s) (r := r)
  refine ⟨fun x hx hvf hfw => request_refused hx hvf hfw, fun x hx hfw => request_noFirmware hx hfw, ?_, respond_mailbox s r,
    featAccept_served, hstop, hstart, hreset, hfault, hquota, quotaAnswer_served, ctxKill_served,
    fun h part bs pa leaf hpart hal hbs hpa => chainReg_served h hpart hal hbs hpa, fun part x hx => chainRequests_served hx, poolSet_served,
    debugAuth_served, fun h part x hpart hx => snapRead_served h hpart hx, fun h => answers_of (List.mem_of_getElem? (i := 15) rfl) (Eq.refl (execTempRead r s)) h rfl, hevent, hqWrite_served,
    tenant_served, partConfig_served, grantRange_served, hctrl, htele, hmask, htimer, groupReg_served,
    fun h hid hports hidle => packageSet_served h hid hports hidle, fun h => answers_of (List.mem_of_getElem? (i := 27) rfl) (Eq.refl (execFwLoad r s)) h rfl, fwUpdate_served,
    fun h => answers_of (List.mem_of_getElem? (i := 29) rfl) (Eq.refl (execPstate r s)) h rfl, duetForm_served⟩
  intro m k
  obtain ⟨hidle, hserve, hbad⟩ := mailServe_cases s r.vf
  refine ⟨hidle, fun hbusy hr hlen hal => ⟨fun x hx hop => ?_, fun hfw hno => ?_⟩, hbad⟩
  · rw [hserve hbusy hlen hal, ← hr, hop, mailCarry_row hx]
  · rw [hserve hbusy hlen hal, ← hr, mailCarry_unknown hfw hno]

end Sys2Proof.Laws
end

section
/-! PROOF. Ports, duets, requests that no port carries, and the slots of the rings (O50). -/
namespace Sys2Proof.Laws
open Sys2Proof.Machine Sys2Proof.Claims

/-! ### Flits of a live port (R423, R506) -/

/-- The expected flit is accepted (R423). -/
theorem execFlitReceive_expected {s : State} {port : Nat} (hlive : s.portLive port = true) :
    execFlitReceive port (sget Port.reset s.ports port).expect true s =
      .next (s.updPort port (fun p => { p with expect := p.expect + 1 })) := by
  simp only [execFlitReceive, hlive, Bool.not_true, Bool.false_eq_true, if_false, Bool.true_and, decide_true, if_true]

/-- An old flit changes nothing (R423). -/
theorem execFlitReceive_old {s : State} {port seq : Nat} (hlive : s.portLive port = true)
    (h : seq < (sget Port.reset s.ports port).expect) : execFlitReceive port seq true s = .next s := by
  simp only [execFlitReceive, hlive, Bool.not_true, Bool.false_eq_true, if_false, Bool.true_and, decide_eq_true_eq, h.ne, h, if_true]

/-- A gap is answered negatively (R423, R506). -/
theorem execFlitReceive_gap {s : State} {port seq : Nat} (hlive : s.portLive port = true)
    (h : (sget Port.reset s.ports port).expect < seq) : execFlitReceive port seq true s =
      .next (if 64 ≤ (sget Port.reset (s.linkEntry port 1).ports port).crcErrors then (s.linkEntry port 1).portDown port
        else s.linkEntry port 1) := by
  simp only [execFlitReceive, hlive, Bool.not_true, Bool.false_eq_true, if_false, Bool.true_and, decide_eq_true_eq, h.ne', h.not_gt, if_true]

/-- A flit with a CRC error is counted and answered negatively (R423, R506). -/
theorem execFlitReceive_crc {s : State} {port seq : Nat} (hlive : s.portLive port = true) :
    let t := (s.updPort port (fun p => if s.clk < p.crcFrom + 1200000 then { p with crcErrors := p.crcErrors + 1 }
      else { p with
        crcErrors := 1
        crcFrom := s.clk })).linkEntry port 1
    execFlitReceive port seq false s = .next (if 64 ≤ (sget Port.reset t.ports port).crcErrors then t.portDown port else t) := by
  simp only [execFlitReceive, hlive, Bool.not_true, Bool.false_eq_true, if_false, Bool.false_and]

/-- A port that is down takes no flit. -/
theorem execFlitReceive_dead {s : State} {port seq : Nat} {ok : Bool} (hdead : s.portLive port = false) :
    execFlitReceive port seq ok s = .next s := by
  simp only [execFlitReceive, hdead, Bool.not_false, if_true]

/-- Nothing is sent again where nothing waits for its acknowledgement. -/
theorem evReplay_idle {s : State} {port : Nat} (h : (sget Port.reset s.ports port).unacked = []) : s.evReplay port = s := by
  simp only [State.evReplay, h, List.take_nil, List.any_nil, Bool.not_false, Bool.or_true, if_true]

/-- Nothing is sent again before the oldest unacknowledged flit has waited 512 cycles (R506). -/
theorem evReplay_early {s : State} {port : Nat} {f : Nat × Nat} {rest : List (Nat × Nat)}
    (h : (sget Port.reset s.ports port).unacked = f :: rest) (hearly : s.clk < f.2 + 512) : s.evReplay port = s := by
  refine if_pos (Bool.or_eq_true_iff.2 (.inr ?_))
  rw [h, List.take_succ_cons, List.take_zero, List.any_cons, List.any_nil, decide_eq_false hearly.not_ge]
  rfl

/-- All unacknowledged flits are sent again once the oldest has waited 512 cycles; the eighth resend takes the port down (R506). -/
theorem evReplay_due {s : State} {port : Nat} {f : Nat × Nat} {rest : List (Nat × Nat)} (hlive : s.portLive port = true)
    (h : (sget Port.reset s.ports port).unacked = f :: rest) (hdue : f.2 + 512 ≤ s.clk) :
    let t := (s.updPort port (fun p => { p with
      resends := p.resends + 1
      resent := p.resent + p.unacked.length
      unacked := p.unacked.map (fun f => (f.1, s.clk)) })).linkEntry port 2
    s.evReplay port = if 8 ≤ (sget Port.reset s.ports port).resends + 1 then t.portDown port else t := by
  refine if_neg ?_
  rw [h, hlive, List.take_succ_cons, List.take_zero, List.any_cons, List.any_nil, decide_eq_true hdue]
  exact Bool.false_ne_true

/-! ### A port goes down (R506, R509) -/

/-- A port that is not enabled does not go down. -/
theorem portDown_disabled {s : State} {n : Nat} (h : (sget Port.reset s.ports n).enabled = false) : s.portDown n = s := by
  simp only [State.portDown, h, Bool.not_false, Bool.true_or, if_true]

/-- A port's flits move to the lowest live port of its switch, and a duet on its link mismatches. -/
theorem portDown_cases {s : State} {port : Nat} (hen : (sget Port.reset s.ports port).enabled = true)
    (hup : (sget Port.reset s.ports port).up = true) :
    let t := (s.updPort port (fun p => { p with
      up := false
      unacked := [] })).linkEntry port 3
    let falls := fun (u : State) => if port = 16 ∨ port = 17 then (skeys u.parts).foldl (fun (s : State) k => match (s.part k).duet with
      | some d => s.duetMismatch k (match d.closed with
        | (w, _) :: _ => w
        | [] => d.window)
      | none => s) u else u
    (∀ m, (List.range 18).find? (fun m => t.portLive m && decide (Config.portSwitch m = Config.portSwitch port)) = some m →
      let k := (sget Port.reset s.ports port).unacked.length
      s.portDown port = falls (t.updPort m (fun q => { q with
        unacked := q.unacked ++ (List.range k).map (fun i => (q.sent + i, t.clk))
        sent := q.sent + k
        resent := q.resent + k }))) ∧
    ((∀ m, m < 18 → t.portLive m = true → Config.portSwitch m ≠ Config.portSwitch port) → s.portDown port = falls t) := by
  intro t falls
  have hdown : s.portDown port = falls (match (List.range 18).find? (fun m =>
      t.portLive m && decide (Config.portSwitch m = Config.portSwitch port)) with
    | some m => t.updPort m (fun q => { q with
        unacked := q.unacked ++ (List.range (sget Port.reset s.ports port).unacked.length).map (fun i => (q.sent + i, t.clk))
        sent := q.sent + (sget Port.reset s.ports port).unacked.length
        resent := q.resent + (sget Port.reset s.ports port).unacked.length })
    | none => t) := by
    simp only [State.portDown, hen, hup, Bool.not_true, Bool.or_false, Bool.false_eq_true, if_false, falls, t] <;> rfl
  refine ⟨fun m hm => ?_, fun hno => ?_⟩
  · rw [hdown, hm]
  · have hnone : (List.range 18).find? (fun m => t.portLive m && decide (Config.portSwitch m = Config.portSwitch port)) = none :=
      List.find?_eq_none.2 (fun m hm hlive => by
        obtain ⟨hl, hs⟩ := Bool.and_eq_true_iff.1 hlive
        exact hno m (List.mem_range.1 hm) hl (of_decide_eq_true hs))
    rw [hdown, hnone]

/-! ### Requests that no port carries (R506) -/

section Timeout
variable {s : State} {id : WaveId} {tag : Nat} {w : Wave} {f : Flight} (hfl : Flying s id tag w f)
include hfl

/-- A request that a port can carry does not time out. -/
theorem evRemoteTimeout_carried (h : s.carried f.op = true) : s.evRemoteTimeout id tag = s := by
  simp only [State.evRemoteTimeout, hfl.1, hfl.2, h, if_true]

/-- A prefetch that no port carries ends (R506). -/
theorem evRemoteTimeout_prefetch {accs : List LaneAcc} {size nl1 : Nat} (h : s.carried f.op = false)
    (hop : f.op = .prefetch accs size nl1) : s.evRemoteTimeout id tag = s.finish id tag := by
  have hno : s.carried (.prefetch accs size nl1) = false := hop ▸ h
  simp only [State.evRemoteTimeout, hfl.1, hfl.2, hop, hno, Bool.false_eq_true, if_false]

/-- A load that no port carries fills poisoned data into a vector register (R484, R506). -/
theorem evRemoteTimeout_load {accs : List LaneAcc} {size reg mode : Nat} {signed priv : Bool} {mask : BitVec 8}
    (h : s.carried f.op = false) (hop : f.op = .load accs size signed reg mode priv mask) (hreg : reg < 0x100) :
    let bad := accs.filter (fun a => s.isRemote a.pa)
    let va := match bad with
      | a :: _ => a.va
      | [] => 0
    s.evRemoteTimeout id tag = (s.deferFault id f 0x10 2 (maskOf (bad.map (fun (a : LaneAcc) => a.lane))) va).finishWith id tag
      ((dedup (accs.map (fun a => a.lane))).flatMap (fun l => wordWrites reg l (loadWords size false (List.replicate size 0#8)))) := by
  have hno : s.carried (.load accs size signed reg mode priv mask) = false := hop ▸ h
  simp only [State.evRemoteTimeout, hfl.1, hfl.2, hop, hno, Bool.false_eq_true, if_false, hreg, if_true] <;> rfl

/-- A store that no port carries kills its context (R491, R506). -/
theorem evRemoteTimeout_store {g : Workgroup} {bytes : List (Nat × Byte)} {u : Bool} (hg : s.wg id.core w.wg = some g)
    (h : s.carried f.op = false) (hop : f.op = .store bytes u) : s.evRemoteTimeout id tag = s.killCtx g.part g.ctx 0x10 0 0 true := by
  have hno : s.carried (.store bytes u) = false := hop ▸ h
  simp only [State.evRemoteTimeout, hfl.1, hfl.2, hop, hno, hg, Bool.false_eq_true, if_false]

/-- A fence that no port carries kills its context (R491, R506). -/
theorem evRemoteTimeout_fence {g : Workgroup} {scope : Nat} (hg : s.wg id.core w.wg = some g)
    (h : s.carried f.op = false) (hop : f.op = .fence scope) : s.evRemoteTimeout id tag = s.killCtx g.part g.ctx 0x10 0 0 true := by
  have hno : s.carried (.fence scope) = false := hop ▸ h
  simp only [State.evRemoteTimeout, hfl.1, hfl.2, hop, hno, hg, Bool.false_eq_true, if_false]

end Timeout

/-! ### Duets (R421, R509) -/

section Duet
variable {s : State} {part : Nat} {d : Duet} (hd : (s.part part).duet = some d)
include hd

/-- A digest that has come is compared (R421). -/
theorem execDuetDigestReceived_some (digest : BitVec 256) : execDuetDigestReceived part digest s =
    .next ((s.updPart part (fun p => { p with duet := p.duet.map (fun (d : Duet) => { d with
      digests := d.digests ++ [digest] }) })).duetCompare part 4) := by
  simp only [execDuetDigestReceived, hd, Option.isNone_some, Bool.false_eq_true, if_false]

/-- A window lasts 2,048 cycles (R421). -/
theorem evDuetClose_early (h : s.clk < (d.window + 1) * 2048) : s.evDuetClose part = s := by
  simp only [State.evDuetClose, hd, h, if_true]

/-- The first closed window waits for the peer's digest (R421). -/
theorem evDuetClose_first (h : (d.window + 1) * 2048 ≤ s.clk) (hc : d.closed = []) :
    s.evDuetClose part = (s.updPart part (fun p => { p with duet := some { d with
      window := d.window + 1
      edge := []
      closed := [(d.window, d.edge)] } })).duetCompare part 4 := by
  simp only [State.evDuetClose, hd, Nat.not_lt.2 h, if_false, hc]

/-- A digest that has not come for two windows is a mismatch (R509). -/
theorem evDuetClose_late {k : Nat} {b : List (Nat × Byte)} {rest : List (Nat × List (Nat × Byte))} (h : (d.window + 1) * 2048 ≤ s.clk)
    (hc : d.closed = (k, b) :: rest) (hlate : k + 2 ≤ d.window) : s.evDuetClose part = s.duetMismatch part k := by
  simp only [State.evDuetClose, hd, Nat.not_lt.2 h, if_false, hc, hlate, if_true]

/-- A closed window waits behind the earlier ones (R421). -/
theorem evDuetClose_next {k : Nat} {b : List (Nat × Byte)} {rest : List (Nat × List (Nat × Byte))} (h : (d.window + 1) * 2048 ≤ s.clk)
    (hc : d.closed = (k, b) :: rest) (hnext : d.window < k + 2) :
    s.evDuetClose part = (s.updPart part (fun p => { p with duet := some { d with
      window := d.window + 1
      edge := []
      closed := d.closed ++ [(d.window, d.edge)] } })).duetCompare part 4 := by
  simp only [State.evDuetClose, hd, Nat.not_lt.2 h, if_false, hc, Nat.not_le.2 hnext]

/-- The oldest closed window is compared with the oldest digest (R421). -/
theorem duetCompare_cons {k m : Nat} {b : List (Nat × Byte)} {rest : List (Nat × List (Nat × Byte))} {g : BitVec 256}
    {gs : List (BitVec 256)} (hc : d.closed = (k, b) :: rest) (hg : d.digests = g :: gs) :
    s.duetCompare part (m + 1) = if windowDigest b = g then ((s.updPart part (fun p => { p with duet := some { d with
        closed := rest
        digests := gs } })).commit .engine b).duetCompare part m
      else s.duetMismatch part k := by
  rw [State.duetCompare, hd]
  simp only [hc, hg]

end Duet

/-! ### Slots of the rings (R18 to R23) -/

/-- Whether a stop holds a reservation on a ring, by the slots of it. -/
theorem stopReserves_eq_false_iff {s : State} {die ring stop : Nat} : s.stopReserves die ring stop = false ↔
    ∀ i x, i < 8 → (sget RingSlot.empty s.rings (slotKey die ring i)).reserved = some x → sourceStop x ≠ stop := by
  rw [State.stopReserves, List.any_eq_false]
  constructor
  · intro h i x hi hx hstop
    refine h i (List.mem_range.2 hi) ?_
    rw [hx]
    exact decide_eq_true hstop
  · intro h i hi hres
    split at hres
    · next x hx => exact h i x (List.mem_range.1 hi) hx (of_decide_eq_true hres)
    · exact Bool.false_ne_true hres

/-- A message that has waited 32 cycles reserves an occupied slot of its partition (R22). -/
theorem reserveSlot_reserves {s : State} {die ring source part : Nat} {m : FabricMsg} {r : RingSlot}
    (hr : sget RingSlot.empty s.rings (slotKey die ring (slotAt ring (sourceStop source) s.clk)) = r)
    (hm : s.waitingAt die ring source part = some m) (htag : r.tag = some part) (hmsg : r.msg ≠ none) (hres : r.reserved = none)
    (hwait : m.since + 32 ≤ s.clk) (hstop : s.stopReserves die ring (sourceStop source) = false) :
    s.reserveSlot die ring source part = { s with
      rings := sset RingSlot.empty s.rings (slotKey die ring (slotAt ring (sourceStop source) s.clk)) { r with reserved := some source } } := by
  simp only [State.reserveSlot, hm, hr]
  exact (if_pos ⟨htag, Option.isSome_iff_ne_none.2 hmsg, hres, hwait, hstop⟩).trans (by rw [State.updSlot, hr])

/-- Any other slot, or a message that has waited less, is not reserved (R22). -/
theorem reserveSlot_keeps {s : State} {die ring source part : Nat} {m : FabricMsg} {r : RingSlot}
    (hr : sget RingSlot.empty s.rings (slotKey die ring (slotAt ring (sourceStop source) s.clk)) = r)
    (hm : s.waitingAt die ring source part = some m)
    (h : r.tag ≠ some part ∨ r.msg = none ∨ r.reserved ≠ none ∨ s.clk < m.since + 32) : s.reserveSlot die ring source part = s := by
  simp only [State.reserveSlot, hm, hr]
  refine if_neg ?_
  rintro ⟨htag, hmsg, hres, hwait, -⟩
  exact h.elim (· htag) (·.elim (Option.isSome_iff_ne_none.1 hmsg) (·.elim (· hres) (Nat.not_lt.2 hwait)))

/-- An empty slot that a source of the stop has reserved takes its message (R22). -/
theorem stopCycle_inserts {s : State} {die ring stop part source : Nat} {m : FabricMsg} {r : RingSlot}
    (hr : sget RingSlot.empty s.rings (slotKey die ring (slotAt ring stop s.clk)) = r) (htag : r.tag = some part) (hmsg : r.msg = none)
    (hres : r.reserved = some source) (hstop : sourceStop source = stop) (hm : s.waitingAt die ring source part = some m) :
    s.stopCycle die ring stop = { s with
      fabric := s.fabric.erase m
      rings := sset RingSlot.empty s.rings (slotKey die ring (slotAt ring stop s.clk)) { r with
        msg := some m.msg
        reserved := none } } := by
  simp only [State.stopCycle, hr, htag, hmsg, hres, hstop, hm, Option.isSome_none, Bool.false_eq_true, if_false, ne_eq, not_true_eq_false,
    State.insertMsg, State.updSlot]

/-- An empty slot reserved at another stop passes (R22). -/
theorem stopCycle_passes {s : State} {die ring stop part x : Nat} {r : RingSlot}
    (hr : sget RingSlot.empty s.rings (slotKey die ring (slotAt ring stop s.clk)) = r) (htag : r.tag = some part) (hmsg : r.msg = none)
    (hres : r.reserved = some x) (hstop : sourceStop x ≠ stop) : s.stopCycle die ring stop = s := by
  simp only [State.stopCycle, hr, htag, hmsg, hres, Option.isSome_none, Bool.false_eq_true, if_false]
  exact if_pos hstop

/-- A reservation at a stop of a die's own sources. -/
theorem execRingInsertReservation_in {s : State} {die ring source part : Nat} (hdie : die < 4) (hring : ring < 2) (h : source < 4) :
    execRingInsertReservation die ring source part s = .next (s.reserveSlot die ring source part) :=
  congrArg Host.Outcome.next (if_pos ⟨hdie, hring, h⟩)

/-- A reservation at an inbound bridge. -/
theorem execBridgeInsertReservation_in {s : State} {die ring source part : Nat} (hdie : die < 4) (hring : ring < 2) (hlow : 3 < source)
    (hhigh : source < 7) :
    execBridgeInsertReservation die ring (source - 4) part s = .next (s.reserveSlot die ring source part) := by
  refine congrArg Host.Outcome.next ((if_pos ⟨hdie, hring, by omega⟩).trans ?_)
  rw [show 4 + (source - 4) = source by omega]

/-- Settles O50: flits of a port, ports that go down, requests that time out, duets, and the slots of the rings, one lemma for each
clause. -/
theorem linkSteps : Obligations.LinkSteps := by
  unfold Obligations.LinkSteps
  refine ⟨?_, fun _ _ _ _ hdead => execFlitReceive_dead hdead, fun s port h => becomes_of_next (Eq.refl (execPortDown port s)) (portDown_disabled h),
    ?_, ?_, ?_, ?_, fun _ _ _ _ _ _ htag hmsg hres hstop => stopCycle_passes rfl htag hmsg hres hstop⟩
  · intro s port seq hlive p
    refine ⟨?_, execFlitReceive_old hlive, execFlitReceive_gap hlive, execFlitReceive_crc hlive,
      fun h => becomes_of_next (Eq.refl (execReplayTimeout port s)) (evReplay_idle h), fun f rest h =>
        ⟨fun hearly => becomes_of_next (Eq.refl (execReplayTimeout port s)) (evReplay_early h hearly),
          fun hdue => becomes_of_next (Eq.refl (execReplayTimeout port s)) (evReplay_due hlive h hdue)⟩⟩
    rintro rfl
    exact execFlitReceive_expected hlive
  · intro s port hen hup
    obtain ⟨hmove, hno⟩ := portDown_cases hen hup
    exact ⟨fun m hm => becomes_of_next (Eq.refl (execPortDown port s)) (hmove m hm),
      fun h => becomes_of_next (Eq.refl (execPortDown port s)) (hno h)⟩
  · intro s id tag w f hfl
    have hexec := Eq.refl (execRemoteRequestTimeout id tag s)
    exact ⟨fun h => becomes_of_next hexec (evRemoteTimeout_carried hfl h), fun h =>
      ⟨fun _ _ _ hop => becomes_of_next hexec (evRemoteTimeout_prefetch hfl h hop),
        fun _ _ _ _ _ _ _ hop hreg => becomes_of_next hexec (evRemoteTimeout_load hfl h hop hreg),
        fun _ hg => ⟨fun _ _ hop => becomes_of_next hexec (evRemoteTimeout_store hfl hg h hop),
          fun _ hop => becomes_of_next hexec (evRemoteTimeout_fence hfl hg h hop)⟩⟩⟩
  · intro s part d digest hd
    have hexec := Eq.refl (execDuetWindowClose part s)
    exact ⟨execDuetDigestReceived_some hd digest, fun h => becomes_of_next hexec (evDuetClose_early hd h),
      fun h hc => becomes_of_next hexec (evDuetClose_first hd h hc), fun _ _ _ h hc hl => becomes_of_next hexec (evDuetClose_late hd h hc hl),
      fun _ _ _ h hc hn => becomes_of_next hexec (evDuetClose_next hd h hc hn),
      fun _ _ _ _ _ _ hc hg => ⟨fun hne => (duetCompare_cons hd hc hg).trans (if_neg hne),
        fun heq => (duetCompare_cons hd hc hg).trans (if_pos heq)⟩⟩
  · intro s die ring source part m hdie hring hsource stop key r reserves hm
    have hreserves {t : State} (h : s.reserveSlot die ring source part = t) : reserves t :=
      ⟨fun hown => becomes_of_next (execRingInsertReservation_in hdie hring hown) h,
        fun hbridge => becomes_of_next (execBridgeInsertReservation_in hdie hring hbridge hsource) h⟩
    exact ⟨fun htag hmsg hres hwait hfree =>
        hreserves (reserveSlot_reserves rfl hm htag hmsg hres hwait (stopReserves_eq_false_iff.2 hfree)),
      fun h => hreserves (reserveSlot_keeps rfl hm h), fun htag hmsg hres => stopCycle_inserts rfl htag hmsg hres rfl hm⟩

end Sys2Proof.Laws
end

section
/-! PROOF. What stores leave unchanged (O52). -/
namespace Sys2Proof.Laws
open Sys2Proof.Machine Sys2Proof.Claims

/-! ### Dirty bytes of an L1 -/

/-- Every word of every L1 has the same dirty bytes. -/
structure SameDirty (s t : State) : Prop where
  dirty : ∀ n k, (sget L1Word.absent (t.core n).l1 k).dirty = (sget L1Word.absent (s.core n).l1 k).dirty

namespace SameDirty

/-- Nothing changed. -/
theorem refl (s : State) : SameDirty s s := ⟨fun _ _ => rfl⟩

/-- One after another. -/
theorem trans {s t u : State} (h : SameDirty s t) (k : SameDirty t u) : SameDirty s u :=
  ⟨fun n x => (k.dirty n x).trans (h.dirty n x)⟩

/-- A change outside the cores. -/
theorem of_cores {s t : State} (h : t.cores = s.cores) : SameDirty s t := ⟨fun n k => by
  rw [State.core, h]
  rfl⟩

/-- A fold of such changes. -/
theorem foldl {α : Type} (l : List α) (f : State → α → State) (hf : ∀ u x, SameDirty u (f u x)) (s : State) : SameDirty s (l.foldl f s) :=
  List.foldlRecOn (motive := fun t => SameDirty s t) l f (refl s) (fun _ ht x _ => ht.trans (hf _ x))

/-- A change of a core that keeps its dirty bytes. -/
theorem upd (s : State) (core : Nat) (f : Core → Core)
    (hf : ∀ c k, (sget L1Word.absent (f c).l1 k).dirty = (sget L1Word.absent c.l1 k).dirty) : SameDirty s (s.updCore core f) := ⟨fun n k => by
  rw [core_updCore]
  split
  · next h => rw [hf, h]
  · rfl⟩

end SameDirty

/-- Clean bytes dropped leave the dirty ones. -/
theorem dropClean_dirty (c : Core) (w k : Nat) :
    (sget L1Word.absent (c.dropClean w).l1 k).dirty = (sget L1Word.absent c.l1 k).dirty := by
  unfold Core.dropClean
  dsimp only
  by_cases hk : k = w
  · subst hk
    rw [sget_sset_same]
    split
    · next h => exact h.1.symm
    · rfl
  · rw [sget_sset_other _ _ _ hk]

/-- Clean words dropped one after the other leave the dirty bytes. -/
theorem dropCleans_dirty (ws : List Nat) (c : Core) (k : Nat) :
    (sget L1Word.absent (ws.foldl (fun (c : Core) w => c.dropClean w) c).l1 k).dirty = (sget L1Word.absent c.l1 k).dirty :=
  List.foldlRecOn (motive := fun (d : Core) => (sget L1Word.absent d.l1 k).dirty = (sget L1Word.absent c.l1 k).dirty) ws _ rfl
    (fun d hd w _ => (dropClean_dirty d w k).trans hd)

namespace SameDirty

/-- A use of a home line. -/
theorem homeUse (s : State) (vf pa : Nat) (dirty last : Bool) : SameDirty s (s.homeUse vf pa dirty last) := by
  unfold State.homeUse State.l2Use
  split
  · exact refl s
  · split
    · exact refl s
    · exact of_cores rfl

/-- Bytes written at their homes. -/
theorem setHomes (s : State) (bytes : List (Nat × Byte)) : SameDirty s (bytes.foldl (fun (s : State) b => s.setHome b.1 b.2) s) :=
  foldl _ _ (fun u b => by
    unfold State.setHome
    split <;> exact of_cores rfl) _

/-- A flit. -/
theorem sendFlit (s : State) : SameDirty s s.sendFlit := by
  unfold State.sendFlit
  split
  · exact refl s
  · exact of_cores rfl

/-- A message between sectors. -/
theorem ringSend (s : State) (sector part die stop pa : Nat) (payload : List Byte) :
    SameDirty s (s.ringSend sector part die stop pa payload) := of_cores rfl

/-- A change of a partition. -/
theorem updPart (s : State) (n : Nat) (f : Part → Part) : SameDirty s (s.updPart n f) := of_cores rfl

/-- A line's message. -/
theorem sendLine (s : State) (sector pa : Nat) (payload : List Byte) : SameDirty s (s.sendLine sector pa payload) := by
  unfold State.sendLine
  split
  · exact refl s
  · split
    · split
      · split
        · exact refl s
        · exact of_cores rfl
      · exact refl s
    · dsimp only
      split
      · exact (ringSend ..).trans (sendFlit _)
      · exact of_cores rfl

/-- A change of a guest copy. -/
theorem updGuest (s : State) (sector pa : Nat) (f : GuestSector → GuestSector) : SameDirty s (s.updGuest sector pa f) := by
  unfold State.updGuest
  split
  · exact of_cores rfl
  · exact refl s

/-- A word taken from its owner. -/
theorem takeWord (s : State) (party : Party) (bytes : List (Nat × Byte)) (w : Nat) : SameDirty s (s.takeWord party bytes w) := by
  unfold State.takeWord
  dsimp only
  refine trans (t := match sget none s.owners w with
    | some c => if party = Party.core c then s else s.updCore c (fun k => (k.dropClean w).patchMisses bytes)
    | none => s) ?_ (of_cores rfl)
  split
  · split
    · exact refl s
    · exact upd s _ _ (fun c k => dropClean_dirty c w k)
  · exact refl s

/-- A registration. -/
theorem commit (s : State) (party : Party) (bytes : List (Nat × Byte)) : SameDirty s (s.commit party bytes) := by
  unfold State.commit
  dsimp only
  refine trans ?_ (foldl _ _ (fun u w => takeWord u _ _ w) _)
  have h1 := setHomes s bytes
  generalize bytes.foldl (fun (s : State) b => s.setHome b.1 b.2) s = u at h1 ⊢
  generalize List.foldl _ u.poison _ = p
  have h2 := h1.trans (trans (t := { u with poison := p }) (of_cores rfl)
    (foldl (dedup (bytes.map (fun b => b.1 / 64))) (fun (s : State) x => s.homeUse 97 (64 * x) true false) (fun u x => homeUse u _ _ _ _) _))
  split
  · split
    · exact h2.trans (sendFlit _)
    · exact h2
  · exact h2.trans ((upd _ _ (fun c => c.patchMisses bytes) (fun _ _ => rfl)).trans (foldl _ _ (fun u x => (sendLine u _ _ _).trans (updGuest _ _ _ _)) _))

/-- A registration of a context. -/
theorem commitFor (s : State) (party : Party) (ctx : Nat) (bytes : List (Nat × Byte)) : SameDirty s (s.commitFor party ctx bytes) := by
  unfold State.commitFor
  dsimp only
  have h1 := foldl (dedup (bytes.map (fun b => b.1 / 64)))
    (fun (s : State) x => s.homeUse (if ctx = 0 then 97 else ctxVf ctx) (64 * x) true false) (fun u x => homeUse u _ _ _ _) s
  split
  · exact h1.trans (commit ..)
  · exact h1.trans ((updPart ..).trans (commit ..))

/-- A registration that may wait. -/
theorem register (s : State) (party : Party) (ctx : Nat) (bytes : List (Nat × Byte)) : SameDirty s (s.register party ctx bytes) := by
  unfold State.register
  split
  · exact refl s
  · split
    · exact of_cores rfl
    · exact commitFor ..

end SameDirty

/-! ### Bytes that leave an L1 -/

/-- Every dirty byte of a core's L1 has its place in a set. -/
def DirtyIn (A : Nat → Prop) (core : Nat) (s : State) : Prop :=
  ∀ k i, i < 4 → (sget L1Word.absent (s.core core).l1 k).dirty.getLsbD i = true → A (s.canon (4 * k + i))

/-- Memory changes at places of a set only, and the dirty bytes of a core's L1 have their places there. -/
structure SpillsIn (A : Nat → Prop) (core : Nat) (s t : State) : Prop where
  canon : ∀ pa, t.canon pa = s.canon pa
  home : ∀ pa, t.homeByte pa = s.homeByte pa ∨ A (s.canon pa)
  dirty : DirtyIn A core t

namespace SpillsIn
variable {A : Nat → Prop} {core : Nat}

/-- Nothing changed. -/
theorem refl {s : State} (h : DirtyIn A core s) : SpillsIn A core s s := ⟨fun _ => rfl, fun _ => .inl rfl, h⟩

/-- One after another. -/
theorem trans {s t u : State} (h : SpillsIn A core s t) (k : SpillsIn A core t u) : SpillsIn A core s u :=
  ⟨fun pa => (k.canon pa).trans (h.canon pa), fun pa => (k.home pa).elim (fun e => (h.home pa).imp_left e.trans)
    (fun ha => .inr (h.canon pa ▸ ha)), k.dirty⟩

/-- A fold of such changes. -/
theorem foldl {α : Type} (l : List α) (f : State → α → State) (hf : ∀ u x, x ∈ l → DirtyIn A core u → SpillsIn A core u (f u x)) {s : State}
    (h : DirtyIn A core s) : SpillsIn A core s (l.foldl f s) :=
  List.foldlRecOn (motive := fun t => SpillsIn A core s t) l f (refl h) (fun _ ht x hx => ht.trans (hf _ x hx ht.dirty))

/-- A change of the core that makes no byte dirty. -/
theorem upd {s : State} (h : DirtyIn A core s) (f : Core → Core)
    (hf : ∀ c k i, (sget L1Word.absent (f c).l1 k).dirty.getLsbD i = true → (sget L1Word.absent c.l1 k).dirty.getLsbD i = true) :
    SpillsIn A core s (s.updCore core f) := by
  refine ⟨fun _ => rfl, fun _ => .inl rfl, fun k i hi hd => h k i hi (hf _ _ _ ?_)⟩
  rwa [core_updCore, if_pos rfl] at hd

/-- A change that keeps the dirty bytes. -/
theorem of_sameDirty {s t : State} (h : DirtyIn A core s) (hc : ∀ pa, t.canon pa = s.canon pa)
    (hhome : ∀ pa, t.homeByte pa = s.homeByte pa ∨ A (s.canon pa)) (hd : SameDirty s t) : SpillsIn A core s t :=
  ⟨hc, hhome, fun k i hi ht => by
    rw [hd.dirty] at ht
    rw [hc]
    exact h k i hi ht⟩

end SpillsIn

/-- The dirty bytes of a word stand at their places. -/
theorem mem_dirtyBytes {w : L1Word} {k : Nat} {b : Nat × Byte} (h : b ∈ w.dirtyBytes k) :
    ∃ i, i < 4 ∧ w.dirty.getLsbD i = true ∧ b.1 = 4 * k + i := by
  obtain ⟨i, hi, rfl⟩ := List.mem_map.1 h
  obtain ⟨hlt, hd⟩ := List.mem_filter.1 hi
  exact ⟨i, List.mem_range.1 hlt, hd, rfl⟩

/-- Words made clean. -/
theorem dirty_cleaned (ws : List Nat) (g : L1Word → L1Word) (hg : ∀ v, (g v).dirty = 0#4) (m : Sparse L1Word) (k i : Nat)
    (h : (sget L1Word.absent (ws.foldl (fun m x => sset L1Word.absent m x (g (sget L1Word.absent m x))) m) k).dirty.getLsbD i = true) :
    (sget L1Word.absent m k).dirty.getLsbD i = true := by
  induction ws generalizing m with
  | nil => exact h
  | cons x ws ih =>
    have hx := ih _ h
    by_cases hk : k = x
    · rw [hk, sget_sset_same, hg] at hx
      exact absurd hx (by simp)
    · rwa [sget_sset_other _ _ _ hk] at hx

section
variable {A : Nat → Prop} {core : Nat} {s : State}

/-- Words of an L1 made clean. -/
theorem cleaned_spills (h : DirtyIn A core s) (ws : List Nat) (g : L1Word → L1Word) (hg : ∀ v, (g v).dirty = 0#4) :
    SpillsIn A core s (s.updCore core (fun c => { c with
      l1 := ws.foldl (fun m x => sset L1Word.absent m x (g (sget L1Word.absent m x))) c.l1 })) :=
  .upd h _ (fun c k i hd => dirty_cleaned ws g hg c.l1 k i hd)

/-- Sectors whose guest copies change. -/
theorem updGuests_spills (h : DirtyIn A core s) (ws : List Nat) (f : Nat → GuestSector → GuestSector) :
    SpillsIn A core s (ws.foldl (fun (s : State) x => s.updGuest (sectorOf core) (4 * x) (f x)) s) :=
  have hsame := SameHome.foldl ws (fun (s : State) x => s.updGuest (sectorOf core) (4 * x) (f x)) (fun u _ => .updGuest u _ _ _) s
  .of_sameDirty h hsame.canon (fun pa => .inl (hsame.homeByte pa)) (.foldl ws _ (fun u _ => .updGuest u _ _ _) s)

/-- A word that leaves an L1 writes its dirty bytes at their homes, and may those of its neighbour. -/
theorem leaveL1_spills (h : DirtyIn A core s) (word : Nat) : SpillsIn A core s (s.leaveL1 core word) := by
  unfold State.leaveL1
  dsimp only
  split
  · exact .refl h
  · split
    · have hdirty := h word
      generalize sget L1Word.absent (s.core core).l1 word = v at hdirty ⊢
      have hclean := SpillsIn.upd h (fun c => { c with l1 := sset L1Word.absent c.l1 word { v with dirty := 0#4 } }) (fun c k i hd => by
        by_cases hk : k = word
        · rw [hk, sget_sset_same] at hd
          exact absurd hd (by simp)
        · rwa [sget_sset_other _ _ _ hk] at hd)
      refine hclean.trans (.of_sameDirty hclean.dirty (HomeOnly.foldl _ _ (fun u (b : Nat × Byte) => .setHome u b.1 b.2) _).canon (fun pa => ?_)
        (SameDirty.setHomes ..))
      refine (homeByte_setHomes _ _ pa).imp_right ?_
      rintro ⟨b, hb, hpa, -⟩
      obtain ⟨i, hi, hd, hb⟩ := mem_dirtyBytes hb
      rw [← hpa, hb]
      exact hdirty i hi hd
    · generalize [word / 2 * 2, word / 2 * 2 + 1].filter _ = ws
      generalize s.mustHold _ = held
      have hclean := cleaned_spills h ws (fun v => { v with
        dirty := 0#4
        present := if held then v.present &&& ~~~v.dirty else if v.owned then v.present else v.dirty
        unacked := true }) (fun _ => rfl)
      have hguest := hclean.trans (updGuests_spills hclean.dirty ws (fun x g =>
        if g.pending.contains (core, x) then g else { g with pending := g.pending ++ [(core, x)] }))
      refine hguest.trans (.of_sameDirty hguest.dirty (HomeOnly.register ..).canon (fun pa => ?_) (.register ..))
      refine (register_written _ _ _ _ pa).imp_right ?_
      rintro ⟨b, hb, hpa, -⟩
      obtain ⟨x, -, hx⟩ := List.mem_flatMap.1 hb
      obtain ⟨i, hi, hd, hb⟩ := mem_dirtyBytes hx
      rw [← hpa, hb, hguest.canon]
      exact h x i hi hd

/-- A line that leaves an L1. -/
theorem evictLine_spills (h : DirtyIn A core s) (line : Nat) : SpillsIn A core s (s.evictLine core line) := by
  unfold State.evictLine
  dsimp only
  have hleave := SpillsIn.foldl (((s.core core).l1.filter (fun e => decide (e.1 / 128 = line))).map (·.1))
    (fun (s : State) w => s.leaveL1 core w) (fun u w _ hu => leaveL1_spills hu w) h
  exact hleave.trans (.upd hleave.dirty _ (fun c k i hd => by rwa [dropCleans_dirty] at hd))

/-- A line of an L1 used. -/
theorem useLine_spills (h : DirtyIn A core s) (line : Nat) (strm : Bool) : SpillsIn A core s (s.useLine core line strm) := by
  unfold State.useLine
  dsimp only
  split
  · split
    · exact .refl h
    · exact .upd h _ (fun _ _ _ hd => hd)
  · split
    · next v _ =>
      have hev := evictLine_spills h v
      exact hev.trans (.upd hev.dirty _ (fun _ _ _ hd => hd))
    · exact .upd h _ (fun _ _ _ hd => hd)

/-- An address in its one form has that form. -/
theorem canon_canon (s : State) (pa : Nat) : s.canon (s.canon pa) = s.canon pa := by
  cases h : s.isLocal pa with
  | false =>
    have hc : s.canon pa = pa := by rw [State.canon, h]; rfl
    rw [hc, hc]
  | true =>
    have hc : s.canon pa = pa % 2 ^ 44 := by rw [State.canon, h]; rfl
    have hl : s.isLocal (pa % 2 ^ 44) = true := by
      have : paPkg (pa % 2 ^ 44) = 0 := by
        unfold paPkg
        omega
      rw [State.isLocal, this]
      rfl
    rw [hc, State.canon, hl, if_pos rfl, Nat.mod_mod]

/-- A byte stored into an L1 is dirty there. -/
theorem storeByte_spills (h : DirtyIn A core s) (ctx priv : Nat) {pa : Nat} (b : Byte) (hA : A (s.canon pa)) :
    SpillsIn A core s (s.storeByte core ctx priv pa b) := by
  have huse := useLine_spills h (s.canon pa / 512) false
  refine ⟨(HomeOnly.storeByte s core ctx priv pa b).canon, huse.home, fun k i hi hd => ?_⟩
  rw [(HomeOnly.storeByte s core ctx priv pa b).canon]
  have hcore := core_storeByte_same s core ctx priv pa b
  dsimp only at hcore
  rw [hcore] at hd
  dsimp only at hd
  by_cases hk : k = s.canon pa / 4
  · rw [hk, sget_sset_same, getLsbD_or_shift _ (Nat.mod_lt _ (by decide)) hi, Bool.or_eq_true] at hd
    rcases hd with hd | hd
    · rw [hk, ← huse.canon]
      exact huse.dirty _ i hi hd
    · rw [hk, of_decide_eq_true hd, Nat.div_add_mod, canon_canon]
      exact hA
  · rw [sget_sset_other _ _ _ hk] at hd
    rw [← huse.canon]
    exact huse.dirty k i hi hd

/-! ### Stores into resident lines -/

/-- A byte stored into a resident line leaves memory, and every resident line resident. -/
theorem storeByte_resident (ctx priv : Nat) {pa : Nat} (b : Byte) (hline : sget none (s.core core).lines (s.canon pa / 512) ≠ none) :
    SameHome s (s.storeByte core ctx priv pa b) ∧
      ∀ k, sget none (s.core core).lines k ≠ none → sget none ((s.storeByte core ctx priv pa b).core core).lines k ≠ none := by
  obtain ⟨u, hu⟩ := Option.ne_none_iff_exists'.1 hline
  have huse : s.useLine core (s.canon pa / 512) false = s.updCore core (fun c => { c with
      lines := sset none c.lines (s.canon pa / 512) (some (c.uses + 1))
      uses := c.uses + 1 }) := by
    simp only [State.useLine, hu, Bool.false_eq_true, if_false]
  have hlines : ((s.storeByte core ctx priv pa b).core core).lines =
      sset none (s.core core).lines (s.canon pa / 512) (some ((s.core core).uses + 1)) := by
    rw [core_storeByte_same, huse, core_updCore, if_pos rfl]
  refine ⟨?_, fun k hk => ?_⟩
  · rw [State.storeByte, huse]
    exact ⟨rfl, rfl, rfl⟩
  · rw [hlines]
    by_cases hkey : k = s.canon pa / 512
    · rw [hkey, sget_sset_same]
      exact Option.some_ne_none _
    · rwa [sget_sset_other _ _ _ hkey]

/-- Bytes stored into resident lines change no byte at any home, and none that their core reads but those stored. -/
theorem storeBytes_resident (ctx : Nat) (bytes : List (Nat × Byte))
    (hlines : ∀ b ∈ bytes, sget none (s.core core).lines (s.canon b.1 / 512) ≠ none) :
    (∀ pa, (s.storeBytes core ctx false bytes).homeByte pa = s.homeByte pa) ∧
    (∀ pa, (∀ b ∈ bytes, s.canon pa ≠ s.canon b.1) → ∀ part nl1 m,
      (s.storeBytes core ctx false bytes).readByte core part nl1 m pa = s.readByte core part nl1 m pa) := by
  rw [State.storeBytes, if_neg Bool.false_ne_true]
  induction bytes generalizing s with
  | nil => exact ⟨fun _ => rfl, fun _ _ _ _ _ => rfl⟩
  | cons b bytes ih =>
    have hb := hlines b List.mem_cons_self
    obtain ⟨hsame, hstay⟩ := storeByte_resident (s := s) (core := core) ctx 0 b.2 hb
    obtain ⟨hhome, hread⟩ := ih (s := s.storeByte core ctx 0 b.1 b.2) (fun x hx => by
      rw [hsame.canon]
      exact hstay _ (hlines x (List.mem_cons_of_mem b hx)))
    refine ⟨fun pa => (hhome pa).trans (hsame.homeByte pa), fun pa hpa part nl1 m => ?_⟩
    refine (hread pa (fun x hx => ?_) part nl1 m).trans (readByte_storeByte_other s core ctx 0 b.1 core part nl1 m b.2 hb
      (fun h => hpa b List.mem_cons_self h.2))
    rw [hsame.canon, hsame.canon]
    exact hpa x (List.mem_cons_of_mem b hx)

end

/-! ### The state once a store has retired -/

/-- A word that retires leaves memory. -/
theorem CoreOnly.sameHome {s t : State} {id : WaveId} (h : CoreOnly s t id) : SameHome s t :=
  ⟨(congrArg State.mem h.rest :), (congrArg State.ext h.rest :), (congrArg State.package h.rest :)⟩

/-- What a core reads stands outside what a retirement changes. -/
theorem CoreOnly.readByte {s t : State} {id : WaveId} (h : CoreOnly s t id) (part : Nat) (nl1 : Bool) (m : BitVec 8) (pa : Nat) :
    t.readByte id.core part nl1 m pa = s.readByte id.core part nl1 m pa := by
  obtain ⟨ws, p, r, a, l, hown⟩ := h.own
  have hl2 : t.l2 = s.l2 := (congrArg State.l2 h.rest :)
  have hsh : t.shadows = s.shadows := (congrArg State.shadows h.rest :)
  have hbelow : ∀ q, t.belowByte part m q = s.belowByte part m q := fun q => by
    rw [State.belowByte, State.belowByte, hsh, h.sameHome.canon, h.sameHome.homeByte]
  simp only [State.readByte, State.sliceByte, State.guestSector, hown, hl2, hbelow, h.sameHome.canon]
  rfl

/-- A wave keeps its registers where a word writes none. -/
theorem keeps_of_restOf {w v : Wave} (e : Mask) (h : restOf v = restOf w) (hk : ∀ k, (∀ h, w.held = some h → k ≠ h.aux) → v.kget k = w.kget k) :
    Keeps w v e 0 0 ∧ KeepsMasks w v none ∧ v.fflags = w.fflags := by
  simp only [restOf, Prod.mk.injEq] at h
  obtain ⟨hv, hs, hff, hex, -, ⟨hxpc, hxm, hfm, hxc, hxi, hin⟩, -, -, -⟩ := h
  refine ⟨⟨fun r l _ _ => ?_, fun r _ => ?_, hex, hxpc, hxm, hfm, hxc, hxi, hin⟩, fun k _ hh => hk k hh, hff⟩
  · rw [Wave.vget, hv]
    rfl
  · rw [Wave.sreg, hs]
    rfl

/-- A word of a wave without a deferred fault, whose code marks no register dead, retires. -/
theorem retire_kept {u : State} {c : Ctx} (sh : Shape) (hw : u.wave c.id = some c.wave) (hg : u.wg c.id.core c.wave.wg = some c.wg)
    (hd : c.wave.deferred = none) (hl : c.wg.live = []) :
    CoreOnly u (u.retire sh c false) c.id ∧ ∃ v, (u.retire sh c false).wave c.id = some v ∧ Keeps c.wave v c.eff 0 0 ∧
      KeepsMasks c.wave v none ∧ v.fflags = c.wave.fflags := by
  obtain ⟨hc, v, hv, hr, hk⟩ := retire_frame u sh c false hw hd (fun g hg' => by
    cases hg'.symm.trans hg
    exact hl)
  exact ⟨hc, v, hv, keeps_of_restOf c.eff hr hk⟩

/-- The workgroup of the issuing wave after the checks. -/
theorem checked_wg {i : Instr} {s : State} {c : Ctx} (hi : Issues i s c) : (checked i s c).wg c.id.core c.wave.wg = some c.wg := by
  obtain ⟨hid, -, hg⟩ := ctxFor_wave hi.ctx
  rw [(checked_frame i s c).wg, hid, hg]

/-! ### Local stores -/

/-- Bytes written into a local space change those bytes only. -/
theorem sget_writeSpace_other (s : State) (core : Nat) (x y : Space) (bytes : List (Nat × Byte)) (a : Nat)
    (h : y = x → ∀ b ∈ bytes, b.1 ≠ a) : sget 0#8 (((s.writeSpace core x bytes).core core).space y) a = sget 0#8 ((s.core core).space y) a := by
  rw [State.writeSpace, core_updCore, if_pos rfl]
  refine List.foldlRecOn (motive := fun (k : Core) => sget 0#8 (k.space y) a = sget 0#8 ((s.core core).space y) a) bytes _ rfl
    (fun k hk b hb => (sget_setSpaceBytes k x y b.1 a [b.2]).trans ((if_neg ?_).trans hk))
  rintro ⟨hy, hle, hlt⟩
  rw [List.length_singleton] at hlt
  exact h hy b hb (by omega)

/-- Bytes of a local space written change the spaces only. -/
theorem setSpaceBytes_eq (k : Core) (x : Space) (o : Nat) (bs : List Byte) :
    ∃ a b d e f, k.setSpaceBytes x o bs = { k with sp := a, wb := b, ab := d, cb := e, dirtyBlocks := f } := by
  cases x <;> exact ⟨_, _, _, _, _, rfl⟩

/-- Bytes written into a local space change nothing else of a core. -/
theorem writeSpace_core (s : State) (core : Nat) (x : Space) (bytes : List (Nat × Byte)) :
    ∃ a b d e f, (s.writeSpace core x bytes).core core =
      { s.core core with sp := a, wb := b, ab := d, cb := e, dirtyBlocks := f } := by
  rw [State.writeSpace, core_updCore, if_pos rfl]
  refine List.foldlRecOn (motive := fun (k : Core) => ∃ a b d e f, k =
      { s.core core with sp := a, wb := b, ab := d, cb := e, dirtyBlocks := f }) bytes _
    ⟨_, _, _, _, _, rfl⟩ (fun k hk b _ => ?_)
  obtain ⟨_, _, _, _, _, hk⟩ := hk
  obtain ⟨_, _, _, _, _, hset⟩ := setSpaceBytes_eq k x b.1 [b.2]
  exact ⟨_, _, _, _, _, by rw [hset, hk]⟩

/-- A local store (R79, R263) changes the bytes its lanes store and nothing else outside its wave. -/
theorem localStore_frame {i : Instr} {w : MWord} {space : Space} (hword : LocalWord i w space true) {s t : State} {c : Ctx}
    (hon : OnPath i s c 0) (hb : c.wave.blocked = false) (hr : c.wave.resp = none) (hd : c.wave.deferred = none) (hl : c.wg.live = [])
    (ht : exec i s = .next t) :
    let size := sizeBytes w.size
    let skew := if space = .sp ∧ w.mode = 1 then some (w.imm.extractLsb' 21 3).toNat else none
    let imm := if skew.isSome then (w.imm.extractLsb' 0 21).toInt else w.imm.toInt
    ∀ ps, c.allLanes (onceFor w) ((accessing c (onceFor w)).map (fun l => (l, localAccess c.wg space size (localOffset c w imm l) skew))) = .ok ps →
    let stored := ps.flatMap (fun p => (List.range size).map (fun b => p.2.getD (b / 4) 0 + b % 4))
    let u := checked i s c
    ChecksKeep i s c ∧
    t.mem = u.mem ∧ t.ext = u.ext ∧ (∀ n, n ≠ c.id.core → t.core n = u.core n) ∧ (t.core c.id.core).l1 = (u.core c.id.core).l1 ∧
    (∀ y a, (y = space → a ∉ stored) → sget 0#8 ((t.core c.id.core).space y) a = sget 0#8 ((u.core c.id.core).space y) a) ∧
    ∃ v, t.wave c.id = some v ∧ Keeps c.wave v c.eff 0 0 ∧ KeepsMasks c.wave v none ∧ v.fflags = c.wave.fflags := by
  intro size skew imm ps hps stored u
  obtain ⟨-, hok⟩ := hword s c hon
  simp only [hr, hb] at hok
  have hexec := hok ps hps
  generalize hpass : (if space = Space.sp then (checked i s c).countPasses c.id.core _ else checked i s c) = p at hexec
  generalize hdata : ps.flatMap (fun p => ((List.range (sizeBytes w.size)).map (fun b => p.2.getD (b / 4) 0 + b % 4)).zip
    (c.storeData w.d (sizeBytes w.size) p.1)) = data at hexec
  have hcount : CoreOnly u p c.id ∧ (∀ j, p.wave j = u.wave j) ∧ ∀ n k, p.wg n k = u.wg n k := by
    rw [← hpass]
    split
    · exact quiet_updCore u c.id _ (fun _ => ⟨_, _, _, _, rfl⟩)
    · exact ⟨WavesOnly.core (.refl _ _), fun _ => rfl, fun _ _ => rfl⟩
  obtain ⟨hp, hpw, hpg⟩ := hcount
  obtain ⟨_, _, _, _, _, hspace⟩ := writeSpace_core p c.id.core space data
  have hw : (p.writeSpace c.id.core space data).wave c.id = some c.wave := by
    rw [State.wave, hspace]
    exact (hpw c.id).trans (checked_wave hon.1)
  have hg : (p.writeSpace c.id.core space data).wg c.id.core c.wave.wg = some c.wg := by
    rw [State.wg, hspace]
    exact (hpg _ _).trans (checked_wg hon.1)
  obtain ⟨hret, v, hv⟩ := retire_kept i.shape hw hg hd hl
  have hstore : exec i s = .next ((p.writeSpace c.id.core space data).retire i.shape c false) := hexec
  cases hstore.symm.trans ht
  obtain ⟨_, _, _, _, _, hown⟩ := hret.own
  obtain ⟨_, _, _, _, _, hpown⟩ := hp.own
  refine ⟨checksKeep i s c, hret.sameHome.mem.trans hp.sameHome.mem, hret.sameHome.ext.trans hp.sameHome.ext, fun n hn => ?_, ?_,
    fun y a hy => ?_, v, hv⟩
  · exact (hret.other n hn).trans ((core_updCore ..).trans ((if_neg hn).trans (hp.other n hn)))
  · rw [hown, hspace, hpown]
  · have hother := sget_writeSpace_other p c.id.core space y data a (fun e x hx ha => hy e ?_)
    · have hy1 : ((p.writeSpace c.id.core space data).retire i.shape c false |>.core c.id.core).space y =
          ((p.writeSpace c.id.core space data).core c.id.core).space y := by
        rw [hown]
        cases y <;> rfl
      have hy2 : (p.core c.id.core).space y = (u.core c.id.core).space y := by
        rw [hpown]
        cases y <;> rfl
      rw [← hy2]
      exact (congrArg (fun m => sget 0#8 m a) hy1).trans hother
    · rw [← hdata] at hx
      obtain ⟨q, hq, hx⟩ := List.mem_flatMap.1 hx
      exact List.mem_flatMap.2 ⟨q, hq, ha ▸ (List.of_mem_zip hx).1⟩

/-! ### Global stores -/

/-- The checks and translations of a word's lanes change the memory hierarchy only. -/
theorem laneAll_frame (s : State) (c : Ctx) (device walk : Bool) (k : AccKind) (ls : List (Nat × Except Raise Nat)) :
    FetchOnly s (s.laneAll c device walk k ls).2 := by
  refine List.foldlRecOn (motive := fun (x : List (Nat × LaneRes) × State) => FetchOnly s x.2) ls _ (.refl s) (fun x hx l _ => hx.trans ?_)
  dsimp only
  unfold State.laneRes
  split
  · exact .refl _
  · next va _ =>
    have h := translate_frame x.2 c.core c.wg.vf c.wg.part device walk va k
    split
    all_goals
      next hr =>
      rw [hr] at h
      exact h

/-- Accesses that are ready have changed the memory hierarchy only. -/
theorem access_frame {s u : State} {c : Ctx} {device one : Bool} {k : AccKind} {ls : List (Nat × Except Raise Nat)}
    {accs : List (LaneAcc × Bool)} (h : s.access c device one k ls = .ready accs u) : FetchOnly s u := by
  unfold State.access at h
  dsimp only at h
  split at h
  · cases h
  · split at h
    · cases h
    · split at h
      · cases h
      · cases h
        exact (laneAll_frame ..).trans (.foldl _ _ (fun u p => touch_frame ..) _)

/-- A store of a wave with nothing in flight takes place at once. -/
theorem storeOrQueue_now {u : State} {c : Ctx} {w : Wave} (hw : u.wave c.id = some w) (hb : w.blocked = false) (hf : w.flights = [])
    (bytes : List (Nat × Byte)) : u.storeOrQueue c false bytes = u.storeBytes c.id.core c.ctx false bytes := by
  unfold State.storeOrQueue
  split
  · next h =>
    subst h
    rfl
  · have hall : u.performAll c.id none = u := by
      simp only [State.performAll, hw, hf, List.foldl_nil]
    simp only [hw, Wave.mustQueue, hb, hf, List.any_nil, Bool.or_false, Bool.false_eq_true, if_false, hall]
    rfl

/-- The bytes of a global store stand at the addresses of its lanes. -/
theorem mem_stored {c : Ctx} {accs : List (LaneAcc × Bool)} {size : Nat} {d : BitVec 9} {b : Nat × Byte}
    (h : b ∈ (accs.filter (fun a => a.2 == false)).flatMap (fun a => byteList a.1.pa (c.storeData d size a.1.lane))) :
    ∃ a ∈ accs, ∃ i, i < size ∧ b.1 = a.1.pa + i := by
  obtain ⟨a, ha, hb⟩ := List.mem_flatMap.1 h
  obtain ⟨i, hi, rfl⟩ := mem_byteList hb
  rw [length_storeData] at hi
  exact ⟨a, (List.mem_filter.1 ha).1, i, hi, rfl⟩

/-- Bytes stored spill within a set that holds their places. -/
theorem storeBytes_spills {A : Nat → Prop} {core : Nat} {s : State} (h : DirtyIn A core s) (ctx : Nat) (bytes : List (Nat × Byte))
    (hA : ∀ b ∈ bytes, A (s.canon b.1)) :
    SpillsIn A core s (s.storeBytes core ctx false bytes) := by
  rw [State.storeBytes, if_neg Bool.false_ne_true]
  exact (List.foldlRecOn (motive := fun t => SpillsIn A core s t ∧ ∀ pa, t.canon pa = s.canon pa) bytes _ ⟨.refl h, fun _ => rfl⟩
    (fun t ht b hb => by
      have hb' := storeByte_spills ht.1.dirty ctx 0 b.2 (pa := b.1) (by rw [ht.2]; exact hA b hb)
      exact ⟨ht.1.trans hb', fun pa => (hb'.canon pa).trans (ht.2 pa)⟩)).1

/-- A global store to cached pages (R98, R269) writes at their homes no bytes but its own and those of lines that leave the L1 for it. -/
theorem globalStore_frame (w : MWord) {s t u : State} {c : Ctx} {accs : List (LaneAcc × Bool)} (hon : OnPath (.stG w) s c 0)
    (hb : c.wave.blocked = false) (hf : c.wave.flights = []) (hd : c.wave.deferred = none) (hl : c.wg.live = [])
    (ht : exec (.stG w) s = .next t) (ha : (checked (.stG w) s c).access c false (onceFor w) .store
      (globalAddrs c w w.imm.toInt (onceFor w) (sizeBytes w.size) .store) = .ready accs u) (hcached : ∀ a ∈ accs, a.2 = false) :
    let size := sizeBytes w.size
    let touched := fun (pa : Nat) => ∃ a ∈ accs, ∃ b, b < size ∧ u.canon pa = u.canon (a.1.pa + b)
    let leaving := fun (pa : Nat) => ∃ k i, i < 4 ∧ (sget L1Word.absent (u.core c.id.core).l1 k).dirty.getLsbD i = true ∧
      u.canon (4 * k + i) = u.canon pa
    (∀ pa, t.homeByte pa = u.homeByte pa ∨ touched pa ∨ leaving pa) ∧
    ((∀ a ∈ accs, ∀ b, b < size → sget none (u.core c.id.core).lines (u.canon (a.1.pa + b) / 512) ≠ none) →
      (∀ pa, t.homeByte pa = u.homeByte pa) ∧
      (∀ pa, ¬ touched pa → ∀ part nl1 m, t.readByte c.id.core part nl1 m pa = u.readByte c.id.core part nl1 m pa)) ∧
    ∃ v, t.wave c.id = some v ∧ Keeps c.wave v c.eff 0 0 ∧ KeepsMasks c.wave v none ∧ v.fflags = c.wave.fflags := by
  intro size touched leaving
  have hacc := access_frame ha
  have hw : u.wave c.id = some c.wave := (hacc.wave _).trans (checked_wave hon.1)
  have hg : u.wg c.id.core c.wave.wg = some c.wg := (hacc.wg _ _).trans (checked_wg hon.1)
  have hexec := stG_accesses hon
  dsimp only at hexec
  rw [ha] at hexec
  have huncached : accs.filter (fun a => a.2 == true) = [] :=
    List.filter_eq_nil_iff.2 (fun a h e => Bool.false_ne_true ((hcached a h).symm.trans (eq_of_beq e)))
  dsimp only [Accesses] at hexec
  rw [huncached, storeOrQueue_now hw hb hf, List.flatMap_nil, State.storeOrQueue, if_pos rfl] at hexec
  generalize hbytes : (accs.filter (fun a => a.2 == false)).flatMap _ = bytes at hexec
  have hmem : ∀ b ∈ bytes, ∃ a ∈ accs, ∃ i, i < size ∧ b.1 = a.1.pa + i := fun b hb => mem_stored (hbytes ▸ hb)
  have hstore : HomeOnly u (u.storeBytes c.id.core c.ctx false bytes) := by
    rw [State.storeBytes, if_neg Bool.false_ne_true]
    exact .foldl _ _ (fun u b => .storeByte u _ _ _ _ _) _
  obtain ⟨hret, hkept⟩ := retire_kept (Instr.stG w).shape ((hstore.wave _).trans hw) ((hstore.wg _ _).trans hg) hd hl
  cases hexec.symm.trans ht
  refine ⟨fun pa => ?_, fun hlines => ?_, hkept⟩
  · rw [hret.sameHome.homeByte]
    refine (storeBytes_spills (A := fun x => (∃ a ∈ accs, ∃ b, b < size ∧ x = u.canon (a.1.pa + b)) ∨ ∃ k i, i < 4 ∧
      (sget L1Word.absent (u.core c.id.core).l1 k).dirty.getLsbD i = true ∧ u.canon (4 * k + i) = x)
      (fun k i hi hd => .inr ⟨k, i, hi, hd, rfl⟩) c.ctx bytes (fun b hb => ?_)).home pa
    obtain ⟨a, ha, i, hi, he⟩ := hmem b hb
    exact .inl ⟨a, ha, i, hi, congrArg u.canon he⟩
  · obtain ⟨hhome, hread⟩ := storeBytes_resident (s := u) (core := c.id.core) c.ctx bytes (fun b hb => by
      obtain ⟨a, ha, i, hi, he⟩ := hmem b hb
      rw [he]
      exact hlines a ha i hi)
    refine ⟨fun pa => (hret.sameHome.homeByte pa).trans (hhome pa), fun pa hpa part nl1 m => (hret.readByte part nl1 m pa).trans
      (hread pa (fun b hb e => ?_) part nl1 m)⟩
    obtain ⟨a, ha, i, hi, he⟩ := hmem b hb
    exact hpa ⟨a, ha, i, hi, e.trans (congrArg u.canon he)⟩

/-- Settles O52: the stores to local spaces write into their space, and a global store enters the L1, from which other bytes leave only
where a line must make room. -/
theorem storeFrames : Obligations.StoreFrames := by
  intro w size
  refine ⟨fun x hx s c t hon hb hr hd hl ht => ?_, fun s c t hon hb hf hd hl ht accs u ha hcached =>
    globalStore_frame w hon hb hf hd hl ht ha hcached⟩
  simp only [List.mem_cons, List.not_mem_nil, or_false] at hx
  rcases hx with rfl | rfl | rfl
  · exact localStore_frame (localWord_of_exec fun _ => rfl) hon hb hr hd hl ht
  · exact localStore_frame (localWord_of_exec fun _ => rfl) hon hb hr hd hl ht
  · exact localStore_frame (localWord_of_exec fun _ => rfl) hon hb hr hd hl ht

end Sys2Proof.Laws
end

section
/-! PROOF. Rounding to nearest and toward zero, and the rounding of finite patterns (O9). -/
namespace Sys2Proof.Laws
open Sys2Proof.Machine Sys2Proof.Claims

/-! ### Patterns of a format -/

/-- What the formats of R139 share: at least two fraction bits, and the bias in the middle of the exponents. -/
structure Balanced (f : Fmt) : Prop where
  mb : 2 ≤ f.mb
  bias : 1 ≤ f.bias
  eb : 2 ^ f.eb = 2 * f.bias + 2

/-- The formats of R139. -/
theorem balanced_of_mem {f : Fmt} (h : f ∈ [f32, f16, bf16, e4m3, e5m2]) : Balanced f := by
  simp only [List.mem_cons, List.not_mem_nil, or_false] at h
  rcases h with rfl | rfl | rfl | rfl | rfl <;> exact ⟨by decide, by decide, by decide⟩

section Pattern
variable (f : Fmt) (neg : Bool) {E F : Nat} (hE : E < 2 ^ f.eb) (hF : F < 2 ^ f.mb)

/-- A pattern above its fraction. -/
theorem pattern_eq : f.sign neg + (E * 2 ^ f.mb + F) = 2 ^ f.mb * (2 ^ f.eb * (if neg then 1 else 0) + E) + F := by
  cases neg
  · simp only [Fmt.sign, Bool.false_eq_true, if_false]
    ring
  · simp only [Fmt.sign, if_true]
    ring

include hF

/-- The fraction of a pattern. -/
theorem pattern_frac : (f.sign neg + (E * 2 ^ f.mb + F)) % 2 ^ f.mb = F := by
  rw [pattern_eq, Nat.mul_add_mod, Nat.mod_eq_of_lt hF]

/-- The bits of a pattern above its fraction. -/
theorem pattern_high : (f.sign neg + (E * 2 ^ f.mb + F)) / 2 ^ f.mb = 2 ^ f.eb * (if neg then 1 else 0) + E := by
  rw [pattern_eq, Nat.mul_add_div (Nat.two_pow_pos _), Nat.div_eq_of_lt hF, Nat.add_zero]

include hE

/-- The exponent of a pattern. -/
theorem pattern_exp : (f.sign neg + (E * 2 ^ f.mb + F)) / 2 ^ f.mb % 2 ^ f.eb = E := by
  rw [pattern_high f neg hF, Nat.mul_add_mod, Nat.mod_eq_of_lt hE]

/-- The sign of a pattern. -/
theorem pattern_sign : decide ((f.sign neg + (E * 2 ^ f.mb + F)) / 2 ^ (f.eb + f.mb) % 2 = 1) = neg := by
  rw [Nat.add_comm f.eb, Nat.pow_add, ← Nat.div_div_eq_div_mul, pattern_high f neg hF, Nat.mul_add_div (Nat.two_pow_pos _),
    Nat.div_eq_of_lt hE]
  cases neg <;> rfl

end Pattern

/-- A pattern up to the largest finite one is finite (R139). -/
theorem val_of_le_maxFin {f : Fmt} (hf : Balanced f) (neg : Bool) {E F : Nat} (hF : F < 2 ^ f.mb) (hmax : E * 2 ^ f.mb + F ≤ f.maxFin) :
    f.val (f.sign neg + (E * 2 ^ f.mb + F)) =
      if E = 0 then .fin neg F (1 - (f.bias : Int) - f.mb) else .fin neg (F + 2 ^ f.mb) ((E : Int) - f.bias - f.mb) := by
  have hA : 2 ^ 2 ≤ 2 ^ f.mb := Nat.pow_le_pow_right (by decide) hf.mb
  have hB := hf.eb
  have hbias := hf.bias
  have hlt : (E + 1) * 2 ^ f.mb < (2 ^ f.eb + 1) * 2 ^ f.mb ∧ (f.inf = true → E * 2 ^ f.mb < (2 ^ f.eb - 1) * 2 ^ f.mb) ∧
      (f.inf = false → E = 2 ^ f.eb - 1 → F ≠ 2 ^ f.mb - 1) := by
    unfold Fmt.maxFin Fmt.infBits at hmax
    have hmul : (2 ^ f.eb + 1) * 2 ^ f.mb = (2 ^ f.eb - 1) * 2 ^ f.mb + 2 * 2 ^ f.mb := by
      rw [← Nat.add_mul]
      congr 1
      omega
    have hpos : 2 ^ f.mb ≤ (2 ^ f.eb - 1) * 2 ^ f.mb := Nat.le_mul_of_pos_left _ (by omega)
    rw [hmul, Nat.add_mul]
    cases hi : f.inf with
    | true =>
      simp only [hi, if_true] at hmax
      exact ⟨by omega, fun _ => by omega, fun h => absurd h (by decide)⟩
    | false =>
      simp only [hi, Bool.false_eq_true, if_false] at hmax
      refine ⟨by omega, fun h => absurd h (by decide), fun _ he hf' => ?_⟩
      rw [he] at hmax
      omega
  obtain ⟨h1, h2, h3⟩ := hlt
  have hE : E < 2 ^ f.eb := Nat.lt_of_succ_lt_succ (Nat.lt_of_mul_lt_mul_right h1)
  have hinf : ¬ (E = 2 ^ f.eb - 1 ∧ f.inf = true) := fun ⟨he, hi⟩ => absurd (Nat.lt_of_mul_lt_mul_right (h2 hi)) (by omega)
  have hnan : ¬ (E = 2 ^ f.eb - 1 ∧ F = 2 ^ f.mb - 1) := fun ⟨he, hfr⟩ => by
    cases hi : f.inf with
    | true => exact hinf ⟨he, hi⟩
    | false => exact h3 hi he hfr
  simp only [Fmt.val, pattern_sign f neg hE hF, pattern_exp f neg hE hF, pattern_frac f neg hF, hinf, hnan, if_false]

/-- A finite pattern has the form of its value (R139). -/
theorem pattern_of_val {f : Fmt} {x : Nat} {neg : Bool} {m : Nat} {e : Int} (h : f.val x = .fin neg m e) :
    ∃ E F, E < 2 ^ f.eb ∧ F < 2 ^ f.mb ∧ E * 2 ^ f.mb + F ≤ f.maxFin ∧ (x < 2 ^ f.width → x = f.sign neg + (E * 2 ^ f.mb + F)) ∧
      (E = 0 ∧ m = F ∧ e = 1 - (f.bias : Int) - f.mb ∨ E ≠ 0 ∧ m = F + 2 ^ f.mb ∧ e = (E : Int) - f.bias - f.mb) := by
  unfold Fmt.val at h
  dsimp only at h
  have hF : x % 2 ^ f.mb < 2 ^ f.mb := Nat.mod_lt _ (Nat.two_pow_pos _)
  have hE : x / 2 ^ f.mb % 2 ^ f.eb < 2 ^ f.eb := Nat.mod_lt _ (Nat.two_pow_pos _)
  have hx : x < 2 ^ f.width → x = f.sign (decide (x / 2 ^ (f.eb + f.mb) % 2 = 1)) +
      (x / 2 ^ f.mb % 2 ^ f.eb * 2 ^ f.mb + x % 2 ^ f.mb) := fun hw => by
    have hs : x / 2 ^ f.mb / 2 ^ f.eb < 2 := by
      rw [Nat.div_div_eq_div_mul, ← Nat.pow_add]
      refine Nat.div_lt_of_lt_mul (hw.trans_eq ?_)
      rw [Fmt.width, ← Nat.pow_succ]
      congr 1
      omega
    have hdiv : x / 2 ^ (f.eb + f.mb) = x / 2 ^ f.mb / 2 ^ f.eb := by
      rw [Nat.add_comm, Nat.pow_add, Nat.div_div_eq_div_mul]
    rw [pattern_eq, hdiv]
    have h1 := Nat.div_add_mod x (2 ^ f.mb)
    have h2 := Nat.div_add_mod (x / 2 ^ f.mb) (2 ^ f.eb)
    have h3 : (if decide (x / 2 ^ f.mb / 2 ^ f.eb % 2 = 1) then 1 else 0) = x / 2 ^ f.mb / 2 ^ f.eb := by
      rcases Nat.lt_succ_iff_lt_or_eq.1 hs with h | h
      · rw [Nat.lt_one_iff.1 h]
        rfl
      · rw [h]
        rfl
    rw [h3, h2, h1]
  generalize x / 2 ^ f.mb % 2 ^ f.eb = E at h hE hx
  generalize x % 2 ^ f.mb = F at h hF hx
  generalize decide (x / 2 ^ (f.eb + f.mb) % 2 = 1) = n at h hx
  have hmax : ¬ (E = 2 ^ f.eb - 1 ∧ f.inf = true) → ¬ (E = 2 ^ f.eb - 1 ∧ F = 2 ^ f.mb - 1) → E * 2 ^ f.mb + F ≤ f.maxFin := by
    intro h1 h2
    have hstep : E ≠ 2 ^ f.eb - 1 → E * 2 ^ f.mb + 2 ^ f.mb ≤ (2 ^ f.eb - 1) * 2 ^ f.mb := fun hne => by
      rw [← Nat.succ_mul]
      exact Nat.mul_le_mul_right _ (by omega)
    unfold Fmt.maxFin Fmt.infBits
    split
    · next hi =>
      have := hstep (fun he => h1 ⟨he, hi⟩)
      omega
    · by_cases he : E = 2 ^ f.eb - 1
      · have hne : F ≠ 2 ^ f.mb - 1 := fun hf => h2 ⟨he, hf⟩
        rw [he]
        omega
      · have := hstep he
        omega
  split at h
  · split at h <;> cases h
  · next h1 =>
    split at h
    · cases h
    · next h2 =>
      split at h
      · next h0 =>
        cases h
        exact ⟨E, _, hE, hF, hmax h1 h2, hx, .inl ⟨h0, rfl, rfl⟩⟩
      · next h0 =>
        cases h
        exact ⟨E, _, hE, hF, hmax h1 h2, hx, .inr ⟨h0, rfl, rfl⟩⟩

/-! ### Magnitudes -/

/-- The magnitude of a number. -/
theorem abs_exactly (neg : Bool) (m : Nat) (e : Int) : |exactly neg m e| = m * (2 : ℚ) ^ e := by
  have hpos : (0 : ℚ) ≤ m * (2 : ℚ) ^ e := by positivity
  cases neg
  · simp only [exactly, Bool.false_eq_true, if_false, one_mul, abs_of_nonneg hpos]
  · simp only [exactly, if_true, neg_mul, one_mul, abs_neg, abs_of_nonneg hpos]

/-- Numbers of one sign are as far apart as their magnitudes. -/
theorem abs_exactly_sub (neg : Bool) (m n : Nat) (e d : Int) :
    |exactly neg m e - exactly neg n d| = |(m : ℚ) * (2 : ℚ) ^ e - n * (2 : ℚ) ^ d| := by
  cases neg
  · simp only [exactly, Bool.false_eq_true, if_false, one_mul]
  · simp only [exactly, if_true, neg_mul, one_mul, neg_sub_neg]
    exact abs_sub_comm _ _

/-- A finite magnitude is a multiple of a power of two, or lies below the numbers whose last place that power is. -/
theorem finite_grid {f : Fmt} {y : Nat} {u : ℚ} (h : finite f y = some u) {q : Int} (hq : 1 - (f.bias : Int) - f.mb ≤ q) :
    (∃ n : Nat, |u| = n * (2 : ℚ) ^ q) ∨ 1 - (f.bias : Int) - f.mb < q ∧ |u| < (2 : ℚ) ^ (q + f.mb) := by
  unfold finite at h
  split at h
  · next neg m e hv =>
    cases h
    rw [abs_exactly]
    obtain ⟨E, F, -, hF, -, -, hme⟩ := pattern_of_val hv
    have hmul : q ≤ e → ∃ n : Nat, (m : ℚ) * (2 : ℚ) ^ e = n * (2 : ℚ) ^ q := fun hle => by
      refine ⟨m * 2 ^ (e - q).toNat, ?_⟩
      rw [Nat.cast_mul, Nat.cast_pow, Nat.cast_ofNat, mul_assoc, ← zpow_natCast, Int.toNat_of_nonneg (by omega),
        ← zpow_add₀ two_ne_zero, sub_add_cancel]
    have hbelow : ∀ k : Nat, m < 2 ^ k → e + k ≤ q + f.mb → (m : ℚ) * (2 : ℚ) ^ e < (2 : ℚ) ^ (q + f.mb) := fun k hk hle => by
      have hm : (m : ℚ) < (2 : ℚ) ^ (k : Int) := by
        rw [zpow_natCast]
        exact_mod_cast hk
      calc (m : ℚ) * (2 : ℚ) ^ e < (2 : ℚ) ^ (k : Int) * (2 : ℚ) ^ e := mul_lt_mul_of_pos_right hm (by positivity)
        _ = (2 : ℚ) ^ (e + k) := by rw [← zpow_add₀ two_ne_zero, add_comm]
        _ ≤ (2 : ℚ) ^ (q + f.mb) := zpow_le_zpow_right₀ one_le_two hle
    by_cases hle : q ≤ e
    · exact .inl (hmul hle)
    · rcases hme with ⟨-, rfl, rfl⟩ | ⟨hE, rfl, rfl⟩
      · exact .inr ⟨by omega, hbelow f.mb hF (by omega)⟩
      · refine .inr ⟨by omega, hbelow (f.mb + 1) ?_ (by push_cast; omega)⟩
        rw [Nat.pow_succ]
        omega
  · cases h

/-! ### Rounding to an integer (R143) -/

/-- The exact quotient whose integer part and remainder `roundInt` looks at. -/
theorem mul_zpow_neg {m : Nat} {d : Int} (hd : ¬ 0 ≤ d) :
    (m : ℚ) * (2 : ℚ) ^ d = ((m / 2 ^ (-d).toNat : Nat) : ℚ) + ((m % 2 ^ (-d).toNat : Nat) : ℚ) / (2 : ℚ) ^ (-d).toNat := by
  have hk : (2 : ℚ) ^ d = ((2 : ℚ) ^ (-d).toNat)⁻¹ := by
    rw [← zpow_natCast, Int.toNat_of_nonneg (by omega), zpow_neg, inv_inv]
  have hdiv : ((m : Nat) : ℚ) = (2 : ℚ) ^ (-d).toNat * ((m / 2 ^ (-d).toNat : Nat) : ℚ) + ((m % 2 ^ (-d).toNat : Nat) : ℚ) := by
    exact_mod_cast (Nat.div_add_mod m (2 ^ (-d).toNat)).symm
  have hne : (2 : ℚ) ^ (-d).toNat ≠ 0 := by positivity
  rw [hk]
  nth_rewrite 1 [hdiv]
  field_simp

/-- The whole part of a magnitude in units that `roundInt` splits, and what is left, in those units. -/
theorem frac_bounds (m k : Nat) : 0 ≤ ((m % 2 ^ k : Nat) : ℚ) / (2 : ℚ) ^ k ∧ ((m % 2 ^ k : Nat) : ℚ) / (2 : ℚ) ^ k < 1 := by
  refine ⟨by positivity, (div_lt_one (by positivity)).2 ?_⟩
  exact_mod_cast Nat.mod_lt m (Nat.two_pow_pos k)

/-- An integer is its own rounding. -/
theorem roundInt_exact {d : Int} (hd : 0 ≤ d) (mode : Nat) (neg : Bool) (m : Nat) :
    ((roundInt mode neg m d).1 : ℚ) = m * (2 : ℚ) ^ d := by
  rw [roundInt, if_pos hd, Nat.cast_mul, Nat.cast_pow, Nat.cast_ofNat, ← zpow_natCast, Int.toNat_of_nonneg hd]

/-- A fraction rounds down, or up where it is not 0. -/
theorem roundInt_cases {d : Int} (hd : ¬ 0 ≤ d) (mode : Nat) (neg : Bool) (m : Nat) :
    (roundInt mode neg m d).1 = m / 2 ^ (-d).toNat ∨
      m % 2 ^ (-d).toNat ≠ 0 ∧ (roundInt mode neg m d).1 = m / 2 ^ (-d).toNat + 1 := by
  simp only [roundInt, if_neg hd]
  by_cases h0 : m % 2 ^ (-d).toNat = 0
  · simp only [h0, if_true, Bool.false_eq_true, if_false]
    exact .inl trivial
  · simp only [h0, if_false]
    generalize (if mode = 0 then _ else _ : Bool) = up
    cases up
    · exact .inl rfl
    · exact .inr ⟨h0, rfl⟩

/-- What lies above an integer rounds to no less, what lies below it to no more. -/
theorem roundInt_bounds (mode : Nat) (neg : Bool) (m : Nat) (d : Int) (n : Nat) :
    ((n : ℚ) ≤ m * (2 : ℚ) ^ d → n ≤ (roundInt mode neg m d).1) ∧ ((m : ℚ) * (2 : ℚ) ^ d ≤ n → (roundInt mode neg m d).1 ≤ n) := by
  by_cases hd : 0 ≤ d
  · rw [← roundInt_exact hd mode neg]
    exact ⟨fun h => by exact_mod_cast h, fun h => by exact_mod_cast h⟩
  · rw [mul_zpow_neg hd]
    obtain ⟨hlow, hhigh⟩ := frac_bounds m (-d).toNat
    have hn : ∀ {a b : Nat}, (a : ℚ) < b + 1 → a ≤ b := fun h => Nat.lt_succ_iff.1 (by exact_mod_cast h)
    refine ⟨fun h => ?_, fun h => ?_⟩
    · have hle : n ≤ m / 2 ^ (-d).toNat := hn (by linarith)
      rcases roundInt_cases hd mode neg m with hr | ⟨-, hr⟩ <;> omega
    · rcases roundInt_cases hd mode neg m with hr | ⟨h0, hr⟩
      · rw [hr]
        exact hn (by linarith)
      · have hpos : 0 < ((m % 2 ^ (-d).toNat : Nat) : ℚ) / (2 : ℚ) ^ (-d).toNat :=
          div_pos (by exact_mod_cast Nat.pos_of_ne_zero h0) (by positivity)
        have hlt : ((m / 2 ^ (-d).toNat : Nat) : ℚ) < n := by linarith
        rw [hr]
        exact_mod_cast hlt

/-- Rounding to nearest (R143): no integer lies nearer. -/
theorem roundInt_nearest (neg : Bool) (m : Nat) (d : Int) (n : Nat) :
    |((roundInt 0 neg m d).1 : ℚ) - m * (2 : ℚ) ^ d| ≤ |(n : ℚ) - m * (2 : ℚ) ^ d| := by
  by_cases hd : 0 ≤ d
  · rw [roundInt_exact hd, sub_self, abs_zero]
    exact abs_nonneg _
  · rw [mul_zpow_neg hd]
    have hfrac := frac_bounds m (-d).toNat
    have hhalf : (roundInt 0 neg m d).1 = m / 2 ^ (-d).toNat ∧ ((m % 2 ^ (-d).toNat : Nat) : ℚ) / (2 : ℚ) ^ (-d).toNat ≤ 1 / 2 ∨
        (roundInt 0 neg m d).1 = m / 2 ^ (-d).toNat + 1 ∧ 1 / 2 ≤ ((m % 2 ^ (-d).toNat : Nat) : ℚ) / (2 : ℚ) ^ (-d).toNat := by
      rw [div_le_div_iff₀ (by positivity) two_pos, div_le_div_iff₀ two_pos (by positivity), one_mul]
      norm_cast
      simp only [roundInt, if_neg hd, if_true]
      have hpos := Nat.two_pow_pos (-d).toNat
      generalize 2 ^ (-d).toNat = k at hpos ⊢
      by_cases h0 : m % k = 0
      · simp only [h0, if_true, Bool.false_eq_true, if_false]
        exact .inl ⟨trivial, by omega⟩
      · simp only [h0, if_false]
        split
        · next h =>
          simp only [Bool.or_eq_true, Bool.and_eq_true, decide_eq_true_eq] at h
          exact .inr ⟨rfl, by omega⟩
        · next h =>
          simp only [Bool.or_eq_true, Bool.and_eq_true, decide_eq_true_eq, not_or] at h
          exact .inl ⟨rfl, by omega⟩
    generalize ((m % 2 ^ (-d).toNat : Nat) : ℚ) / (2 : ℚ) ^ (-d).toNat = x at hfrac hhalf ⊢
    generalize m / 2 ^ (-d).toNat = b at hhalf ⊢
    have hn : (n : ℚ) ≤ b ∨ (b : ℚ) + 1 ≤ n := by
      rcases Nat.lt_or_ge b n with h | h
      · exact .inr (by exact_mod_cast h)
      · exact .inl (by exact_mod_cast h)
    rcases hhalf with ⟨hr, hx⟩ | ⟨hr, hx⟩
    · rw [hr, show (b : ℚ) - (b + x) = -x by ring, abs_neg, abs_of_nonneg hfrac.1]
      rcases hn with h | h
      · exact le_trans (by linarith) (neg_le_abs _)
      · exact le_trans (by linarith) (le_abs_self _)
    · rw [hr, Nat.cast_succ, show (b : ℚ) + 1 - (b + x) = 1 - x by ring, abs_of_nonneg (by linarith [hfrac.2])]
      rcases hn with h | h
      · exact le_trans (by linarith) (neg_le_abs _)
      · exact le_trans (by linarith) (le_abs_self _)

/-- Rounding toward zero (R143) gives no more than the magnitude. -/
theorem roundInt_toward_zero (neg : Bool) (m : Nat) (d : Int) : ((roundInt 1 neg m d).1 : ℚ) ≤ m * (2 : ℚ) ^ d := by
  by_cases hd : 0 ≤ d
  · exact (roundInt_exact hd 1 neg m).le
  · have hr : (roundInt 1 neg m d).1 = m / 2 ^ (-d).toNat := by
      simp only [roundInt, if_neg hd, Nat.one_ne_zero, if_false, if_true, ite_self, Bool.false_eq_true]
    rw [mul_zpow_neg hd, hr]
    exact le_add_of_nonneg_right (frac_bounds m _).1

/-! ### Rounding to a format (R144) -/

/-- The exponent of a number's highest bit. -/
def topOf (m : Nat) (e : Int) : Int := (Nat.log2 m : Int) + e

/-- The exponent of the last place of a format for a number. -/
def Fmt.placeOf (f : Fmt) (m : Nat) (e : Int) : Int := max (topOf m e) (1 - (f.bias : Int)) - f.mb

/-- A number lies between the powers of two of its highest bit. -/
theorem topOf_bounds {m : Nat} (hm : m ≠ 0) (e : Int) :
    (2 : ℚ) ^ topOf m e ≤ m * (2 : ℚ) ^ e ∧ (m : ℚ) * (2 : ℚ) ^ e < (2 : ℚ) ^ (topOf m e + 1) := by
  have hlow : (2 : ℚ) ^ Nat.log2 m ≤ m := by exact_mod_cast Nat.log2_self_le hm
  have hhigh : (m : ℚ) < (2 : ℚ) ^ (Nat.log2 m + 1) := by exact_mod_cast Nat.lt_log2_self
  unfold topOf
  constructor
  · rw [zpow_add₀ two_ne_zero, zpow_natCast]
    exact mul_le_mul_of_nonneg_right hlow (by positivity)
  · rw [add_right_comm, zpow_add₀ two_ne_zero, ← Nat.cast_succ, zpow_natCast]
    exact mul_lt_mul_of_pos_right hhigh (by positivity)

/-- A rounded magnitude of few enough bits, put into a pattern, reads back unless it lies beyond the largest finite one. -/
theorem finite_rounded {f : Fmt} (hf : Balanced f) (neg : Bool) {r : Nat} {q : Int} (hr : r < 2 ^ (f.mb + 1))
    (hq : 1 - (f.bias : Int) - f.mb ≤ q) (hplace : r < 2 ^ f.mb → q = 1 - (f.bias : Int) - f.mb)
    (hmax : (if 2 ^ f.mb ≤ r then q + f.mb + f.bias else 0).toNat * 2 ^ f.mb + r % 2 ^ f.mb ≤ f.maxFin) :
    finite f (f.sign neg + ((if 2 ^ f.mb ≤ r then q + f.mb + f.bias else 0).toNat * 2 ^ f.mb + r % 2 ^ f.mb)) =
      some (exactly neg r q) := by
  rw [finite, val_of_le_maxFin hf neg (Nat.mod_lt _ (Nat.two_pow_pos _)) hmax]
  by_cases h : 2 ^ f.mb ≤ r
  · have hmod : r % 2 ^ f.mb + 2 ^ f.mb = r := by
      rw [Nat.mod_eq_sub_mod h, Nat.mod_eq_of_lt (by rw [Nat.pow_succ] at hr; omega)]
      omega
    have hnz : (q + f.mb + f.bias).toNat ≠ 0 := by omega
    simp only [if_pos h, hnz, if_false, hmod]
    rw [show ((q + f.mb + f.bias).toNat : Int) - f.bias - f.mb = q by omega]
  · rw [if_neg h]
    simp only [Int.toNat_zero, if_true]
    rw [Nat.mod_eq_of_lt (Nat.lt_of_not_le h), hplace (Nat.lt_of_not_le h)]

/-- What `Fmt.round` makes of a rounded magnitude whose last place is `q`: a zero, an overflow, or a pattern. -/
def Fmt.packed (f : Fmt) (mode : Nat) (sat neg : Bool) (r : Nat) (inexact : Bool) (q : Int) : Nat × Flags :=
  let x := if r = 2 ^ (f.mb + 1) then (2 ^ f.mb, q + 1) else (r, q)
  if x.1 = 0 then (f.sign neg, fIZ ||| fUF)
  else
    let be : Int := if 2 ^ f.mb ≤ x.1 then x.2 + f.mb + f.bias else 0
    let bits := be.toNat * 2 ^ f.mb + x.1 % 2 ^ f.mb
    if f.maxFin < bits then (f.overflow mode sat neg, fOF)
    else (f.sign neg + bits, if inexact && decide (be = 0) then fUF else 0#4)

/-- A number in the range of a format, rounded (R144). -/
theorem round_inRange (f : Fmt) (mode : Nat) (sat neg : Bool) {m : Nat} {e : Int} (hm : m ≠ 0) (htop : topOf m e ≤ (f.bias : Int) + 3)
    (hlow : 1 - (f.bias : Int) - f.mb - 3 ≤ topOf m e) :
    f.round mode sat neg m e = Fmt.packed f mode sat neg (roundInt mode neg m (e - Fmt.placeOf f m e)).1
      (roundInt mode neg m (e - Fmt.placeOf f m e)).2 (Fmt.placeOf f m e) := by
  unfold topOf at htop hlow
  simp only [Fmt.round, if_neg hm, if_neg (not_lt.2 htop), gt_iff_lt, if_neg (not_lt.2 hlow)]
  rfl

/-- A number beyond the range of a format overflows (R144). -/
theorem round_above (f : Fmt) (mode : Nat) (sat neg : Bool) {m : Nat} {e : Int} (hm : m ≠ 0) (htop : (f.bias : Int) + 3 < topOf m e) :
    f.round mode sat neg m e = (f.overflow mode sat neg, fOF) := by
  unfold topOf at htop
  simp only [Fmt.round, if_neg hm, gt_iff_lt, if_pos htop]

/-- A number far below the range of a format rounds as an eighth of its least magnitude (R144). -/
theorem round_below (f : Fmt) (mode : Nat) (sat neg : Bool) {m : Nat} {e : Int} (hm : m ≠ 0)
    (hlow : topOf m e < 1 - (f.bias : Int) - f.mb - 3) :
    f.round mode sat neg m e = Fmt.packed f mode sat neg (roundInt mode neg 1 (-3)).1 (roundInt mode neg 1 (-3)).2
      (1 - (f.bias : Int) - f.mb) := by
  unfold topOf at hlow
  have htop : ¬ (f.bias : Int) + 3 < (Nat.log2 m : Int) + e := by omega
  have hmax : max (1 - (f.bias : Int) - f.mb - 3) (1 - (f.bias : Int)) = 1 - (f.bias : Int) := max_eq_right (by omega)
  have hplace : (1 - (f.bias : Int) - f.mb - 3) - (1 - (f.bias : Int) - f.mb) = -3 := by omega
  simp only [Fmt.round, if_neg hm, gt_iff_lt, if_neg htop, if_pos hlow, hmax, hplace]
  rfl

/-- A packed magnitude that does not overflow reads back. -/
theorem finite_packed {f : Fmt} (hf : Balanced f) {mode : Nat} {sat neg : Bool} {r : Nat} {inexact : Bool} {q : Int}
    (hr : r ≤ 2 ^ (f.mb + 1)) (hq : 1 - (f.bias : Int) - f.mb ≤ q) (hplace : r < 2 ^ f.mb → q = 1 - (f.bias : Int) - f.mb)
    (hov : (Fmt.packed f mode sat neg r inexact q).2.getLsbD 1 = false) :
    finite f (Fmt.packed f mode sat neg r inexact q).1 = some (exactly neg r q) := by
  have hread : ∀ {r : Nat} {q : Int}, r < 2 ^ (f.mb + 1) → 1 - (f.bias : Int) - f.mb ≤ q → (r < 2 ^ f.mb → q = 1 - (f.bias : Int) - f.mb) →
      let be : Int := if 2 ^ f.mb ≤ r then q + f.mb + f.bias else 0
      let bits := be.toNat * 2 ^ f.mb + r % 2 ^ f.mb
      let y : Nat × Flags := if r = 0 then (f.sign neg, fIZ ||| fUF)
        else if f.maxFin < bits then (f.overflow mode sat neg, fOF)
        else (f.sign neg + bits, if inexact && decide (be = 0) then fUF else 0#4)
      y.2.getLsbD 1 = false → finite f y.1 = some (exactly neg r q) := by
    intro r q hr hq hplace be bits y hy
    by_cases h0 : r = 0
    · have hzero := finite_rounded hf neg (r := 0) (q := 1 - (f.bias : Int) - f.mb) (Nat.two_pow_pos _) le_rfl (fun _ => rfl) (by
        rw [if_neg (Nat.not_le.2 (Nat.two_pow_pos _))]
        simp)
      rw [if_neg (Nat.not_le.2 (Nat.two_pow_pos _)), Int.toNat_zero, Nat.zero_mul, Nat.zero_mod] at hzero
      simp only [y, h0, if_true]
      refine hzero.trans (congrArg some ?_)
      simp only [exactly, Nat.cast_zero, mul_zero, zero_mul]
    · by_cases hmax : f.maxFin < bits
      · simp only [y, h0, hmax, if_false, if_true] at hy
        exact absurd hy (by decide)
      · simp only [y, h0, hmax, if_false]
        exact finite_rounded hf neg hr hq hplace (Nat.le_of_not_lt hmax)
  unfold Fmt.packed at hov ⊢
  by_cases hcarry : r = 2 ^ (f.mb + 1)
  · simp only [hcarry, if_true] at hov ⊢
    refine (hread (Nat.pow_lt_pow_right (by decide) (Nat.lt_succ_self _)) (by omega) (fun h => absurd h (lt_irrefl _)) hov).trans
      (congrArg some ?_)
    simp only [exactly, Nat.cast_pow, Nat.cast_ofNat]
    rw [pow_succ, zpow_add₀ two_ne_zero, zpow_one]
    ring
  · simp only [hcarry, if_false] at hov ⊢
    exact hread (lt_of_le_of_ne hr hcarry) hq hplace hov

/-- A number that rounds without overflow becomes the pattern of its rounded magnitude (R144). -/
theorem finite_round {f : Fmt} (hf : Balanced f) {mode : Nat} {sat neg : Bool} {m : Nat} {e : Int} (hm : m ≠ 0)
    (htop : topOf m e ≤ (f.bias : Int) + 3) (hlow : 1 - (f.bias : Int) - f.mb - 3 ≤ topOf m e)
    (hov : (f.round mode sat neg m e).2.getLsbD 1 = false) :
    finite f (f.round mode sat neg m e).1 =
      some (exactly neg (roundInt mode neg m (e - Fmt.placeOf f m e)).1 (Fmt.placeOf f m e)) := by
  rw [round_inRange f mode sat neg hm htop hlow] at hov ⊢
  obtain ⟨h1, h2⟩ := topOf_bounds hm e
  have hscale : (m : ℚ) * (2 : ℚ) ^ (e - Fmt.placeOf f m e) = m * (2 : ℚ) ^ e * (2 : ℚ) ^ (- Fmt.placeOf f m e) := by
    rw [sub_eq_add_neg, zpow_add₀ two_ne_zero, mul_assoc]
  have hplace : 1 - (f.bias : Int) - f.mb ≤ Fmt.placeOf f m e := by
    unfold Fmt.placeOf
    omega
  refine finite_packed hf ?_ hplace (fun hr => ?_) hov
  · refine (roundInt_bounds mode neg m _ (2 ^ (f.mb + 1))).2 ?_
    rw [hscale]
    calc (m : ℚ) * (2 : ℚ) ^ e * (2 : ℚ) ^ (- Fmt.placeOf f m e) ≤ (2 : ℚ) ^ (topOf m e + 1) * (2 : ℚ) ^ (- Fmt.placeOf f m e) :=
          mul_le_mul_of_nonneg_right h2.le (by positivity)
      _ = (2 : ℚ) ^ (topOf m e + 1 - Fmt.placeOf f m e) := by rw [sub_eq_add_neg, zpow_add₀ two_ne_zero (topOf m e + 1)]
      _ ≤ (2 : ℚ) ^ ((f.mb + 1 : Nat) : Int) := zpow_le_zpow_right₀ one_le_two (by
          unfold Fmt.placeOf
          push_cast
          omega)
      _ = ((2 ^ (f.mb + 1) : Nat) : ℚ) := by
          rw [zpow_natCast]
          push_cast
          rfl
  · by_contra hne
    have hq : topOf m e = Fmt.placeOf f m e + f.mb := by
      unfold Fmt.placeOf at hne ⊢
      omega
    refine absurd ((roundInt_bounds mode neg m (e - Fmt.placeOf f m e) (2 ^ f.mb)).1 ?_) (Nat.not_le.2 hr)
    rw [hscale]
    calc ((2 ^ f.mb : Nat) : ℚ) = (2 : ℚ) ^ (topOf m e) * (2 : ℚ) ^ (- Fmt.placeOf f m e) := by
          rw [← zpow_add₀ two_ne_zero, hq, add_right_comm, add_neg_cancel, zero_add, zpow_natCast]
          push_cast
          rfl
      _ ≤ _ := mul_le_mul_of_nonneg_right h1 (by positivity)

/-! ### Nearest, and toward zero -/

section Place
variable {f : Fmt} {m : Nat} {e : Int}

/-- A number in units of its last place. -/
theorem in_places (f : Fmt) (m : Nat) (e : Int) :
    (m : ℚ) * (2 : ℚ) ^ e = m * (2 : ℚ) ^ (e - Fmt.placeOf f m e) * (2 : ℚ) ^ Fmt.placeOf f m e := by
  rw [mul_assoc, ← zpow_add₀ two_ne_zero, sub_add_cancel]

/-- The last place of a format is no finer than its least magnitude. -/
theorem le_placeOf (f : Fmt) (m : Nat) (e : Int) : 1 - (f.bias : Int) - f.mb ≤ Fmt.placeOf f m e := by
  unfold Fmt.placeOf
  omega

/-- A number whose last place is coarser than the least magnitude has all its bits above that place. -/
theorem pow_le_of_placeOf (hm : m ≠ 0) (h : 1 - (f.bias : Int) - f.mb < Fmt.placeOf f m e) :
    ((2 ^ f.mb : Nat) : ℚ) ≤ m * (2 : ℚ) ^ (e - Fmt.placeOf f m e) := by
  have htop : topOf m e = Fmt.placeOf f m e + f.mb := by
    unfold Fmt.placeOf at h ⊢
    omega
  have hlow := (topOf_bounds hm e).1
  rw [htop, in_places f m e, zpow_add₀ two_ne_zero, mul_comm] at hlow
  rw [Nat.cast_pow, Nat.cast_ofNat, ← zpow_natCast]
  exact le_of_mul_le_mul_right hlow (by positivity)

/-- The numbers whose last place is `q`, a power of two above it. -/
theorem pow_add_place (q : Int) (k : Nat) : (2 : ℚ) ^ (q + k) = ((2 ^ k : Nat) : ℚ) * (2 : ℚ) ^ q := by
  rw [zpow_add₀ two_ne_zero, zpow_natCast, Nat.cast_pow, Nat.cast_ofNat, mul_comm]

/-- No finite magnitude lies nearer to a number than its nearest multiple of its last place. -/
theorem place_nearest (hm : m ≠ 0) (neg : Bool) {y : Nat} {u : ℚ} (hu : finite f y = some u) :
    |((roundInt 0 neg m (e - Fmt.placeOf f m e)).1 : ℚ) * (2 : ℚ) ^ Fmt.placeOf f m e - m * (2 : ℚ) ^ e| ≤ |(|u|) - m * (2 : ℚ) ^ e| := by
  have hpos : (0 : ℚ) < (2 : ℚ) ^ Fmt.placeOf f m e := by positivity
  have hnear := roundInt_nearest neg m (e - Fmt.placeOf f m e)
  rw [in_places f m e, ← sub_mul, abs_mul, abs_of_pos hpos]
  rcases finite_grid hu (le_placeOf f m e) with ⟨n, hn⟩ | ⟨hq, hlt⟩
  · rw [hn, ← sub_mul, abs_mul, abs_of_pos hpos]
    exact mul_le_mul_of_nonneg_right (hnear n) hpos.le
  · have hle := pow_le_of_placeOf hm hq
    rw [pow_add_place] at hlt
    generalize (m : ℚ) * (2 : ℚ) ^ (e - Fmt.placeOf f m e) = x at hnear hle ⊢
    generalize (2 : ℚ) ^ Fmt.placeOf f m e = p at hpos hlt ⊢
    have hx : |(|u|) - x * p| = x * p - |u| := by
      rw [abs_sub_comm, abs_of_nonneg]
      linarith [mul_le_mul_of_nonneg_right hle hpos.le]
    have hr := hnear (2 ^ f.mb)
    rw [abs_sub_comm ((2 ^ f.mb : Nat) : ℚ), abs_of_nonneg (sub_nonneg.2 hle)] at hr
    rw [hx]
    calc _ ≤ (x - ((2 ^ f.mb : Nat) : ℚ)) * p := mul_le_mul_of_nonneg_right hr hpos.le
      _ = x * p - ((2 ^ f.mb : Nat) : ℚ) * p := sub_mul ..
      _ ≤ x * p - |u| := sub_le_sub_left hlt.le _

/-- The largest multiple of its last place that is not above a number is as large as every finite magnitude not above it. -/
theorem place_below (hm : m ≠ 0) (neg : Bool) {y : Nat} {u : ℚ} (hu : finite f y = some u) (hle : |u| ≤ m * (2 : ℚ) ^ e) :
    |u| ≤ ((roundInt 1 neg m (e - Fmt.placeOf f m e)).1 : ℚ) * (2 : ℚ) ^ Fmt.placeOf f m e := by
  have hpos : (0 : ℚ) < (2 : ℚ) ^ Fmt.placeOf f m e := by positivity
  have hbound := roundInt_bounds 1 neg m (e - Fmt.placeOf f m e)
  rw [in_places f m e] at hle
  rcases finite_grid hu (le_placeOf f m e) with ⟨n, hn⟩ | ⟨hq, hlt⟩
  · rw [hn] at hle ⊢
    exact mul_le_mul_of_nonneg_right (by exact_mod_cast (hbound n).1 (le_of_mul_le_mul_right hle hpos)) hpos.le
  · rw [pow_add_place] at hlt
    exact hlt.le.trans (mul_le_mul_of_nonneg_right (by exact_mod_cast (hbound (2 ^ f.mb)).1 (pow_le_of_placeOf hm hq)) hpos.le)

end Place

/-- A number far below the range of a format rounds to zero, to nearest and toward zero (R144). -/
theorem finite_round_below {f : Fmt} (hf : Balanced f) {mode : Nat} (hmode : mode < 2) {neg : Bool} {m : Nat} {e : Int} (hm : m ≠ 0)
    (hlow : topOf m e < 1 - (f.bias : Int) - f.mb - 3) : finite f (f.round mode false neg m e).1 = some 0 := by
  have hr : (roundInt mode neg 1 (-3)).1 = 0 := by
    obtain rfl | rfl : mode = 0 ∨ mode = 1 := by omega
    · rfl
    · rfl
  rw [round_below f mode false neg hm hlow]
  refine (finite_packed hf ?_ le_rfl (fun _ => rfl) ?_).trans (congrArg some ?_)
  · rw [hr]
    exact Nat.zero_le _
  · simp only [Fmt.packed, hr, (Nat.two_pow_pos (f.mb + 1)).ne, if_false, if_true]
    decide
  · rw [hr]
    simp only [exactly, Nat.cast_zero, mul_zero, zero_mul]

/-- A magnitude far below the range of a format is less than half its least one. -/
theorem lt_half_of_below {f : Fmt} {m : Nat} {e : Int} (hm : m ≠ 0) (hlow : topOf m e < 1 - (f.bias : Int) - f.mb - 3) :
    2 * ((m : ℚ) * (2 : ℚ) ^ e) < (2 : ℚ) ^ (1 - (f.bias : Int) - f.mb) := by
  calc 2 * ((m : ℚ) * (2 : ℚ) ^ e) < 2 * (2 : ℚ) ^ (topOf m e + 1) := mul_lt_mul_of_pos_left (topOf_bounds hm e).2 two_pos
    _ = (2 : ℚ) ^ (topOf m e + 2) := by rw [show topOf m e + 2 = 1 + (topOf m e + 1) by ring, zpow_add₀ two_ne_zero 1, zpow_one]
    _ ≤ (2 : ℚ) ^ (1 - (f.bias : Int) - f.mb) := zpow_le_zpow_right₀ one_le_two (by omega)

/-- Of the finite magnitudes, none lies nearer than zero to a magnitude below half the least one, and none but zero lies below it. -/
theorem zero_nearest {f : Fmt} {v : ℚ} (h0 : 0 ≤ v) (hv : 2 * v < (2 : ℚ) ^ (1 - (f.bias : Int) - f.mb)) {y : Nat} {u : ℚ}
    (hu : finite f y = some u) : v ≤ |(|u|) - v| ∧ (|u| ≤ v → |u| ≤ 0) := by
  rcases finite_grid hu le_rfl with ⟨n, hn⟩ | ⟨h, -⟩
  · rcases Nat.eq_zero_or_pos n with rfl | hn0
    · rw [hn, Nat.cast_zero, zero_mul, zero_sub, abs_neg, abs_of_nonneg h0]
      exact ⟨le_rfl, fun _ => le_rfl⟩
    · have hone : (2 : ℚ) ^ (1 - (f.bias : Int) - f.mb) ≤ |u| := by
        rw [hn]
        exact le_mul_of_one_le_left (by positivity) (by exact_mod_cast hn0)
      exact ⟨le_trans (by linarith) (le_abs_self _), fun hle => absurd hle (by linarith)⟩
  · exact absurd h (lt_irrefl _)

/-- A number that rounds to a magnitude nearer than every finite one has no finite pattern nearer to it. -/
theorem nearest_of_magnitude {neg : Bool} {m r : Nat} {e q : Int} {u : ℚ}
    (h : |(r : ℚ) * (2 : ℚ) ^ q - m * (2 : ℚ) ^ e| ≤ |(|u|) - m * (2 : ℚ) ^ e|) :
    |exactly neg r q - exactly neg m e| ≤ |u - exactly neg m e| := by
  rw [abs_exactly_sub]
  refine h.trans ?_
  rw [← abs_exactly neg m e]
  exact abs_abs_sub_abs_le _ _

/-- Rounding to nearest and toward zero (R143, R144), of the formats of R139. -/
theorem roundingIsNearest : Claims.roundingIsNearest := by
  intro f hf neg m e
  have hb := balanced_of_mem hf
  by_cases hm : m = 0
  · subst hm
    have hzero : finite f (f.sign neg) = some 0 := by
      have h := finite_rounded hb neg (r := 0) (q := 1 - (f.bias : Int) - f.mb) (Nat.two_pow_pos _) le_rfl (fun _ => rfl) (by
        rw [if_neg (Nat.not_le.2 (Nat.two_pow_pos _))]
        simp)
      rw [if_neg (Nat.not_le.2 (Nat.two_pow_pos _)), Int.toNat_zero, Nat.zero_mul, Nat.zero_mod] at h
      refine h.trans (congrArg some ?_)
      simp only [exactly, Nat.cast_zero, mul_zero, zero_mul]
    have hx : exactly neg 0 e = 0 := by simp only [exactly, Nat.cast_zero, mul_zero, zero_mul]
    simp only [Fmt.round, if_true, hx]
    exact ⟨fun _ => ⟨0, hzero, fun y u _ => by
      rw [sub_zero, abs_zero]
      exact abs_nonneg _⟩, fun _ => ⟨0, hzero, le_rfl, fun y u _ hle => hle⟩⟩
  · by_cases htop : (f.bias : Int) + 3 < topOf m e
    · rw [round_above f 0 false neg hm htop, round_above f 1 false neg hm htop]
      have hov : ¬ fOF.getLsbD 1 = false := by decide
      exact ⟨fun h => absurd h hov, fun h => absurd h hov⟩
    · by_cases hlow : topOf m e < 1 - (f.bias : Int) - f.mb - 3
      · have hhalf := lt_half_of_below hm hlow
        have hpos : (0 : ℚ) ≤ m * (2 : ℚ) ^ e := by positivity
        refine ⟨fun _ => ⟨0, finite_round_below hb (by decide) hm hlow, fun y u hu => ?_⟩,
          fun _ => ⟨0, finite_round_below hb (by decide) hm hlow, ?_, fun y u hu hle => ?_⟩⟩
        · have hnear := nearest_of_magnitude (neg := neg) (r := 0) (q := 0) (u := u) (m := m) (e := e) (by
            rw [Nat.cast_zero, zero_mul, zero_sub, abs_neg, abs_of_nonneg hpos]
            exact (zero_nearest hpos hhalf hu).1)
          rwa [show exactly neg 0 0 = 0 by simp only [exactly, Nat.cast_zero, mul_zero, zero_mul]] at hnear
        · rw [abs_zero]
          exact abs_nonneg _
        · rw [abs_exactly] at hle
          rw [abs_zero]
          exact (zero_nearest hpos hhalf hu).2 hle
      · refine ⟨fun hov => ⟨_, finite_round hb hm (not_lt.1 htop) (not_lt.1 hlow) hov, fun y u hu => ?_⟩,
          fun hov => ⟨_, finite_round hb hm (not_lt.1 htop) (not_lt.1 hlow) hov, ?_, fun y u hu hle => ?_⟩⟩
        · exact nearest_of_magnitude (place_nearest hm neg hu)
        · rw [abs_exactly, abs_exactly, in_places f m e]
          exact mul_le_mul_of_nonneg_right (roundInt_toward_zero neg m _) (by positivity)
        · rw [abs_exactly] at hle ⊢
          exact place_below hm neg hu hle

/-! ### Finite patterns -/

/-- A finite pattern is its own rounding (R139, R144), in the formats of R139. -/
theorem finitePatternsRoundToThemselves : Claims.finitePatternsRoundToThemselves := by
  intro f hf mode x sat neg m e hx hv
  have hb := balanced_of_mem hf
  obtain ⟨E, F, hE, hF, hmax, hpat, hme⟩ := pattern_of_val hv
  rw [hpat hx]
  by_cases hm : m = 0
  · have h0 : E = 0 ∧ F = 0 := by
      rcases hme with ⟨h1, h2, -⟩ | ⟨-, h2, -⟩
      · exact ⟨h1, h2 ▸ hm⟩
      · have := Nat.two_pow_pos f.mb
        omega
    rw [Fmt.round, if_pos hm, h0.1, h0.2, Nat.zero_mul]
    rfl
  · have hlog : Nat.log2 m ≤ f.mb ∧ (E ≠ 0 → Nat.log2 m = f.mb) := by
      have hlt : m < 2 ^ (f.mb + 1) := by
        rw [Nat.pow_succ]
        rcases hme with ⟨-, rfl, -⟩ | ⟨-, rfl, -⟩ <;> omega
      have hle : Nat.log2 m < f.mb + 1 := (Nat.log2_lt hm).2 hlt
      refine ⟨by omega, fun hE0 => ?_⟩
      have hge : ¬ Nat.log2 m < f.mb := fun h => by
        have := (Nat.log2_lt hm).1 h
        rcases hme with ⟨h1, -, -⟩ | ⟨-, rfl, -⟩
        · exact hE0 h1
        · omega
      omega
    have hbias := hb.bias
    have heb := hb.eb
    have hplace : Fmt.placeOf f m e = e := by
      unfold Fmt.placeOf topOf
      rcases hme with ⟨h1, -, rfl⟩ | ⟨h1, -, rfl⟩
      · omega
      · rw [hlog.2 h1]
        omega
    have htop : topOf m e ≤ (f.bias : Int) + 3 ∧ 1 - (f.bias : Int) - f.mb - 3 ≤ topOf m e := by
      unfold topOf
      rcases hme with ⟨h1, -, rfl⟩ | ⟨h1, -, rfl⟩
      · omega
      · rw [hlog.2 h1]
        omega
    have hint : roundInt mode neg m 0 = (m, false) := by
      rw [roundInt, if_pos le_rfl]
      simp
    rw [round_inRange f mode sat neg hm htop.1 htop.2, hplace, sub_self, hint]
    have hcarry : m ≠ 2 ^ (f.mb + 1) := by
      rw [Nat.pow_succ]
      rcases hme with ⟨-, rfl, -⟩ | ⟨-, rfl, -⟩ <;> omega
    simp only [Fmt.packed, hcarry, if_false, hm, Bool.false_and, Bool.false_eq_true]
    have hbits : (if 2 ^ f.mb ≤ m then e + f.mb + f.bias else 0).toNat * 2 ^ f.mb + m % 2 ^ f.mb = E * 2 ^ f.mb + F := by
      rcases hme with ⟨rfl, rfl, rfl⟩ | ⟨h1, rfl, rfl⟩
      · rw [if_neg (Nat.not_le.2 hF), Int.toNat_zero, Nat.mod_eq_of_lt hF]
      · rw [if_pos (Nat.le_add_left _ _), Nat.add_mod_right, Nat.mod_eq_of_lt hF,
          show ((E : Int) - f.bias - f.mb + f.mb + f.bias).toNat = E by omega]
    rw [hbits, if_neg (Nat.not_lt.2 hmax)]

/-- Settles O9: a number rounds to the multiple of its last place that `roundInt` gives, and the finite magnitudes are such multiples or
lie below all of them. -/
theorem rounding : Obligations.Rounding := ⟨roundingIsNearest, finitePatternsRoundToThemselves⟩

end Sys2Proof.Laws
end

section
/-! PROOF. Every step keeps the canonical form of memory (O59). Memory changes through `State.setHome` alone, which keeps the form, and every
other function of the model passes its state on to functions defined before it. So each function that answers a state has one lemma, `canonical_`
and its name, in the order of the model: of a canonical state it makes a canonical one. Its proof cites the lemmas of the functions it calls. -/

set_option Elab.async false
namespace Sys2Proof.Laws
open Sys2Proof.Machine Sys2Proof.Claims

/-! ### The invariant, and what a result keeps of it -/

/-- The listed memory of a state is in canonical form. -/
structure Canonical (s : State) : Prop where
  wf : Memory.wf s.mem = true

/-- By the memory alone. -/
theorem canonical_iff {s : State} : Canonical s ↔ Memory.wf s.mem = true := ⟨Canonical.wf, Canonical.mk⟩

/-- The state that the body of a word leaves. -/
def CanonicalRes : Res → Prop
  | .done s | .moved s | .raise _ _ s | .stay s => Canonical s

/-- The state that the checks of a word's lanes leave. -/
def CanonicalAccess : Access → Prop
  | .ready _ s | .raise _ _ s | .hold s => Canonical s

/-- The state in which a saved workgroup has been placed. -/
def CanonicalRestore : RestoreRes → Prop
  | .done s => Canonical s
  | .status _ | .later => True

/-- The state in which a signal has been sent. -/
def CanonicalSignal : SignalRes → Prop
  | .done s => Canonical s
  | .wait | .bad _ _ => True

/-- The state that a write of the host leaves. -/
def CanonicalHost : HostWrite → Prop
  | .done s | .held s => Canonical s

/-- The state in which a mailbox request has had its effect. -/
def CanonicalMail : MailRes → Prop
  | .ok _ s => Canonical s
  | .status _ => True

/-- A fold of steps that keep the form. -/
theorem canonical_foldl {α : Type} {s : State} (l : List α) (f : State → α → State) (hf : ∀ u x, Canonical u → Canonical (f u x))
    (hs : Canonical s) : Canonical (l.foldl f s) :=
  List.foldlRecOn (motive := Canonical) l f hs (fun u hu x _ => hf u x hu)

/-- One of two canonical states. -/
theorem canonical_ite {s t : State} (p : Prop) [Decidable p] (hs : Canonical s) (ht : Canonical t) : Canonical (if p then s else t) := by
  split
  · exact hs
  · exact ht

/-- The state that a step that may fail leaves, where it leaves one. -/
def CanonicalExcept {ε : Type} : Except ε State → Prop
  | .ok s => Canonical s
  | .error _ => True

/-- By what it says of each result. -/
theorem canonicalExcept_iff {ε : Type} {x : Except ε State} : CanonicalExcept x ↔ ∀ t, x = .ok t → Canonical t := by
  cases x with
  | ok t => exact ⟨fun h u hu => Except.ok.inj hu ▸ h, fun h => h t rfl⟩
  | error e => exact ⟨fun _ _ hu => (nomatch hu), fun _ => trivial⟩

/-- A fold of such steps that keep the form. -/
theorem canonicalExcept_foldl {α ε : Type} {x : Except ε State} (l : List α) (f : Except ε State → α → Except ε State)
    (hf : ∀ y a, CanonicalExcept y → CanonicalExcept (f y a)) (hx : CanonicalExcept x) : CanonicalExcept (l.foldl f x) :=
  List.foldlRecOn (motive := CanonicalExcept) l f hx (fun y hy a _ => hf y a hy)

/-- The state that an instruction leaves. -/
theorem canonical_next {s : State} (hs : Canonical s) : ∀ t, (Host.Outcome.next s : Host.Outcome State Fault Refusal) = .next t → Canonical t :=
  fun _ ht => Host.Outcome.next.inj ht ▸ hs

/-- The work of a cycle, every step of which keeps the form. -/
def AllKeep (fs : List (State → State)) : Prop := ∀ f ∈ fs, ∀ s, Canonical s → Canonical (f s)

/-- No work. -/
theorem allKeep_nil : AllKeep [] := fun _ hf => absurd hf List.not_mem_nil

/-- A step before others. -/
theorem allKeep_cons {f : State → State} {fs : List (State → State)} (hf : ∀ s, Canonical s → Canonical (f s)) (hfs : AllKeep fs) :
    AllKeep (f :: fs) :=
  List.forall_mem_cons.mpr ⟨hf, hfs⟩

/-- One step. -/
theorem allKeep_one {f : State → State} (hf : ∀ s, Canonical s → Canonical (f s)) : AllKeep [f] := allKeep_cons hf allKeep_nil

/-- Work and then other work. -/
theorem allKeep_append {fs gs : List (State → State)} (hfs : AllKeep fs) (hgs : AllKeep gs) : AllKeep (fs ++ gs) :=
  List.forall_mem_append.mpr ⟨hfs, hgs⟩

/-- The work of each of some units. -/
theorem allKeep_flatMap {α : Type} (l : List α) {f : α → List (State → State)} (hf : ∀ a, AllKeep (f a)) : AllKeep (l.flatMap f) := by
  intro g hg
  obtain ⟨a, -, ha⟩ := List.mem_flatMap.mp hg
  exact hf a g ha

/-- One step for each of some units. -/
theorem allKeep_map {α : Type} (l : List α) {f : α → State → State} (hf : ∀ a s, Canonical s → Canonical (f a s)) : AllKeep (l.map f) := by
  intro g hg
  obtain ⟨a, -, rfl⟩ := List.mem_map.mp hg
  exact hf a

/-- Work where there is some, else other work. -/
theorem allKeep_ite {fs gs : List (State → State)} (p : Prop) [Decidable p] (hfs : AllKeep fs) (hgs : AllKeep gs) :
    AllKeep (if p then fs else gs) := by
  split
  · exact hfs
  · exact hgs

/-- The clock and the schedulers that have issued are not memory. -/
theorem canonical_tick {s : State} (now : Nat) (done : List Nat) (hs : Canonical s) : Canonical { s with clk := now, issued := done } :=
  canonical_iff.mpr hs.wf

/-- The state of the sync cells is not memory. -/
theorem canonical_cells {s : State} (cells : Sparse CellHome) (hs : Canonical s) : Canonical { s with cells := cells } := canonical_iff.mpr hs.wf

/-! ### Machine/State -/

theorem canonical_reset : Canonical State.reset := ⟨rfl⟩

/-! ### Machine/Base -/

theorem canonical_setCore {s : State} (n : Nat) (c : Core) (hs : Canonical s) : Canonical (s.setCore n c) := by
  grind [State.setCore, canonical_iff]

theorem canonical_updCore {s : State} (n : Nat) (f : Core → Core) (hs : Canonical s) : Canonical (s.updCore n f) := by
  grind [State.updCore, canonical_setCore]

theorem canonical_setWave {s : State} (w : WaveId) (v : Option Wave) (hs : Canonical s) : Canonical (s.setWave w v) := by
  grind [State.setWave, canonical_updCore]

theorem canonical_updWave {s : State} (w : WaveId) (f : Wave → Wave) (hs : Canonical s) : Canonical (s.updWave w f) := by
  grind [State.updWave, canonical_setWave]

theorem canonical_setWg {s : State} (core i : Nat) (g : Option Workgroup) (hs : Canonical s) : Canonical (s.setWg core i g) := by
  grind [State.setWg, canonical_updCore]

theorem canonical_updWg {s : State} (core i : Nat) (f : Workgroup → Workgroup) (hs : Canonical s) : Canonical (s.updWg core i f) := by
  grind [State.updWg, canonical_setWg]

theorem canonical_updPart {s : State} (n : Nat) (f : Part → Part) (hs : Canonical s) : Canonical (s.updPart n f) := by
  grind [State.updPart, canonical_iff]

theorem canonical_updFunc {s : State} (n : Nat) (f : Func → Func) (hs : Canonical s) : Canonical (s.updFunc n f) := by
  grind [State.updFunc, canonical_iff]

theorem canonical_updQcb {s : State} (vf q : Nat) (f : Qcb → Qcb) (hs : Canonical s) : Canonical (s.updQcb vf q f) := by
  grind [State.updQcb, canonical_updFunc]

theorem canonical_draw {s : State} (hs : Canonical s) : Canonical s.draw.2 := by
  grind [State.draw, canonical_iff]

theorem canonical_setHome {s : State} (pa : Nat) (b : Byte) (hs : Canonical s) : Canonical (s.setHome pa b) := ⟨wf_setHome pa b hs.wf⟩

theorem canonical_setHomeBytes {s : State} (pa : Nat) (bs : List Byte) (hs : Canonical s) : Canonical (s.setHomeBytes pa bs) :=
  ⟨wf_setHomeBytes pa bs hs.wf⟩

/-! ### Machine/Access -/

theorem canonical_startWalk {s : State} (core vf va : Nat) (hs : Canonical s) : Canonical (s.startWalk core vf va) := by
  grind [State.startWalk, canonical_iff]

theorem canonical_translate {s : State} (core vf part : Nat) (device walk : Bool) (va : Nat) (k : AccKind) (hs : Canonical s) :
    Canonical (s.translate core vf part device walk va k).2 := by
  grind [State.translate, canonical_updCore]

theorem canonical_l2Use {s : State} (key line : Nat) (guest : Bool) (tenant : Nat) (dirty last : Bool) (hs : Canonical s) :
    Canonical (s.l2Use key line guest tenant dirty last) := by
  grind [State.l2Use, canonical_iff]

theorem canonical_putGuest {s : State} (sector pa : Nat) (g : Option GuestSector) (hs : Canonical s) : Canonical (s.putGuest sector pa g) := by
  grind [State.putGuest, canonical_iff]

theorem canonical_updGuest {s : State} (sector pa : Nat) (f : GuestSector → GuestSector) (hs : Canonical s) :
    Canonical (s.updGuest sector pa f) := by
  grind [State.updGuest, canonical_putGuest]

theorem canonical_dropGuests {s : State} (p : Nat → Nat → Bool) (hs : Canonical s) : Canonical (s.dropGuests p) := by
  grind [State.dropGuests, canonical_iff]

theorem canonical_monitor {s : State} (core part vf pa : Nat) (hs : Canonical s) : Canonical (s.monitor core part vf pa) := by
  grind [State.monitor, canonical_updPart]

theorem canonical_homeUse {s : State} (vf pa : Nat) (dirty last : Bool) (hs : Canonical s) : Canonical (s.homeUse vf pa dirty last) := by
  grind [State.homeUse, canonical_l2Use]

theorem canonical_ringSend {s : State} (sector part die stop pa : Nat) (payload : List Byte) (hs : Canonical s) :
    Canonical (s.ringSend sector part die stop pa payload) := by
  grind [State.ringSend, canonical_iff]

theorem canonical_sendFlit {s : State} (hs : Canonical s) : Canonical s.sendFlit := by
  grind [State.sendFlit, canonical_iff]

theorem canonical_sendLine {s : State} (sector pa : Nat) (payload : List Byte) (hs : Canonical s) :
    Canonical (s.sendLine sector pa payload) := by
  grind [State.sendLine, canonical_ringSend, canonical_sendFlit]

theorem canonical_replyLine {s : State} (sector pa : Nat) (payload : List Byte) (hs : Canonical s) :
    Canonical (s.replyLine sector pa payload) := by
  grind [State.replyLine, canonical_ringSend]

theorem canonical_request {s : State} (core part vf : Nat) (nl1 strm last : Bool) (mask : BitVec 8) (sector : Nat) (hs : Canonical s) :
    Canonical (s.request core part vf nl1 strm last mask sector) := by
  have hm := canonical_monitor core part vf (64 * sector) hs
  unfold State.request
  dsimp only
  split
  · exact hs
  · refine canonical_updCore _ _ (canonical_ite _ ?_ (canonical_replyLine _ _ _ (canonical_sendLine _ _ _ ?_)))
    all_goals
      split
      · split
        · split
          · exact canonical_l2Use _ _ _ _ _ _ hm
          · exact canonical_homeUse _ _ _ _ (canonical_l2Use _ _ _ _ _ _ hm)
        · exact canonical_homeUse _ _ _ _ (canonical_putGuest _ _ _ (canonical_l2Use _ _ _ _ _ _ hm))
      · exact canonical_homeUse _ _ _ _ hm

theorem canonical_takeWord {s : State} (party : Party) (bytes : List (Nat × Byte)) (word : Nat) (hs : Canonical s) :
    Canonical (s.takeWord party bytes word) := by
  have hcore : ∀ c, Canonical (s.updCore c (fun k => (k.dropClean word).patchMisses bytes)) := fun c => canonical_updCore _ _ hs
  unfold State.takeWord
  refine ⟨?_⟩
  dsimp only
  split
  · split
    · exact hs.wf
    · exact (hcore _).wf
  · exact hs.wf

theorem canonical_commit {s : State} (party : Party) (bytes : List (Nat × Byte)) (hs : Canonical s) : Canonical (s.commit party bytes) := by
  have hbytes : Canonical (bytes.foldl (fun (s : State) b => s.setHome b.1 b.2) s) :=
    canonical_foldl _ _ (fun _ _ hu => canonical_setHome _ _ hu) hs
  unfold State.commit
  dsimp only
  refine canonical_foldl _ _ (fun _ _ hu => canonical_takeWord _ _ _ hu) ?_
  have hfold : ∀ (u : State) (l : List Nat), Canonical u →
      Canonical (l.foldl (fun (s : State) x => s.homeUse 97 (64 * x) true false) u) :=
    fun _ _ hu => canonical_foldl _ _ (fun _ _ hv => canonical_homeUse _ _ _ _ hv) hu
  have huses := fun p l => hfold { bytes.foldl (fun (s : State) b => s.setHome b.1 b.2) s with poison := p } l ⟨hbytes.wf⟩
  split
  · split
    · exact canonical_sendFlit (huses _ _)
    · exact huses _ _
  · exact canonical_foldl _ _ (fun _ _ hu => canonical_updGuest _ _ _ (canonical_sendLine _ _ _ hu)) (canonical_updCore _ _ (huses _ _))

theorem canonical_commitFor {s : State} (party : Party) (ctx : Nat) (bytes : List (Nat × Byte)) (hs : Canonical s) :
    Canonical (s.commitFor party ctx bytes) := by
  grind [State.commitFor, canonical_homeUse, canonical_commit, canonical_updPart, canonical_foldl]

theorem canonical_addHeld {s : State} (h : HeldWrite) (hs : Canonical s) : Canonical (s.addHeld h) := by
  grind [State.addHeld, canonical_iff]

theorem canonical_register {s : State} (party : Party) (ctx : Nat) (bytes : List (Nat × Byte)) (hs : Canonical s) :
    Canonical (s.register party ctx bytes) := by
  grind [State.register, canonical_addHeld, canonical_commitFor]

theorem canonical_engineWrite {s : State} (ctx pa : Nat) (bs : List Byte) (hs : Canonical s) : Canonical (s.engineWrite ctx pa bs) := by
  grind [State.engineWrite, canonical_register]

theorem canonical_commitHeld {s : State} (h : HeldWrite) (hs : Canonical s) : Canonical (s.commitHeld h) := by
  grind [State.commitHeld, canonical_updCore, canonical_commitFor, canonical_foldl]

theorem canonical_leaveL1 {s : State} (core word : Nat) (hs : Canonical s) : Canonical (s.leaveL1 core word) := by
  grind [State.leaveL1, canonical_setHome, canonical_updCore, canonical_updGuest, canonical_register, canonical_foldl]

theorem canonical_ackWord {s : State} (core word : Nat) (hs : Canonical s) : Canonical (s.ackWord core word) := by
  grind [State.ackWord, canonical_updGuest, canonical_replyLine, canonical_updCore]

theorem canonical_writeBack {s : State} (core : Nat) (p : Nat → Bool) (hs : Canonical s) : Canonical (s.writeBack core p) := by
  grind [State.writeBack, canonical_leaveL1, canonical_ackWord, canonical_foldl]

theorem canonical_evictLine {s : State} (core line : Nat) (hs : Canonical s) : Canonical (s.evictLine core line) := by
  grind [State.evictLine, canonical_leaveL1, canonical_updCore, canonical_foldl]

theorem canonical_useLine {s : State} (core line : Nat) (strm : Bool) (hs : Canonical s) : Canonical (s.useLine core line strm) := by
  grind [State.useLine, canonical_updCore, canonical_evictLine]

theorem canonical_installSector {s : State} (core sector priv : Nat) (strm : Bool) (data : BitVec 512) (hs : Canonical s) :
    Canonical (s.installSector core sector priv strm data) := by
  grind [State.installSector, canonical_updCore, canonical_useLine, canonical_foldl]

theorem canonical_missReturn {s : State} (core : Nat) (hs : Canonical s) : Canonical (s.missReturn core) := by
  grind [State.missReturn, canonical_updCore, canonical_installSector, canonical_foldl]

theorem canonical_storeByte {s : State} (core ctx priv pa : Nat) (b : Byte) (hs : Canonical s) : Canonical (s.storeByte core ctx priv pa b) := by
  grind [State.storeByte, canonical_updCore, canonical_useLine]

theorem canonical_storeBytes {s : State} (core ctx : Nat) (uncached : Bool) (bytes : List (Nat × Byte)) (hs : Canonical s) :
    Canonical (s.storeBytes core ctx uncached bytes) := by
  grind [State.storeBytes, canonical_register, canonical_storeByte, canonical_foldl]

theorem canonical_touchLeaf_go {s : State} (va : Nat) (write : Bool) (table : Nat) (levels : List Nat) (hs : Canonical s) :
    Canonical (State.touchLeaf.go s va write table levels) := by
  induction levels generalizing table with
  | nil => exact hs
  | cons level rest ih => grind [State.touchLeaf.go, canonical_engineWrite]

theorem canonical_touchLeaf {s : State} (vf va : Nat) (write : Bool) (hs : Canonical s) : Canonical (s.touchLeaf vf va write) := by
  grind [State.touchLeaf, canonical_touchLeaf_go]

theorem canonical_touch {s : State} (core vf va : Nat) (write : Bool) (hs : Canonical s) : Canonical (s.touch core vf va write) := by
  grind [State.touch, canonical_updCore, canonical_touchLeaf]

theorem canonical_setPool {s : State} (pool : Nat) (fields : List (Nat × Nat × Nat)) (hs : Canonical s) : Canonical (s.setPool pool fields) := by
  grind [State.setPool, canonical_engineWrite, canonical_foldl]

theorem canonical_mapFrame {s : State} (pool leafAddr : Nat) (hs : Canonical s) : Canonical (s.mapFrame pool leafAddr) := by
  grind [State.mapFrame, canonical_setPool, canonical_engineWrite]

theorem canonical_quotaEvent {s : State} (vf va pool limit source : Nat) (hs : Canonical s) :
    Canonical (s.quotaEvent vf va pool limit source) := by
  grind [State.quotaEvent, canonical_updFunc]

theorem canonical_demandMap {s : State} (vf va leafAddr source : Nat) (hs : Canonical s) : Canonical (s.demandMap vf va leafAddr source).2 := by
  grind [State.demandMap, canonical_quotaEvent, canonical_updFunc, canonical_mapFrame]

theorem canonical_recordPa {s : State} (core vf part va : Nat) (write : Bool) (hs : Canonical s) :
    ∀ x t, s.recordPa core vf part va write = .ok (x, t) → Canonical t := by
  grind [State.recordPa, canonical_translate, canonical_touch, canonical_demandMap]

theorem canonical_fillPriv {s : State} (core record : Nat) (pas : List Nat) (hs : Canonical s) : Canonical (s.fillPriv core record pas) := by
  grind [State.fillPriv, canonical_useLine, canonical_installSector, canonical_foldl]

theorem canonical_dropPriv {s : State} (core : Nat) (keep : Bool) (records : List Nat) (hs : Canonical s) :
    Canonical (s.dropPriv core keep records) := by
  grind [State.dropPriv, canonical_leaveL1, canonical_updCore, canonical_foldl]

theorem canonical_recordWrite {s : State} (core vf part ctx record va : Nat) (bs : List Byte) (hs : Canonical s) :
    ∀ t, s.recordWrite core vf part ctx record va bs = .ok t → Canonical t := by
  induction bs generalizing s va with
  | nil => grind [State.recordWrite]
  | cons b bs ih => grind [State.recordWrite, canonical_recordPa, canonical_storeByte]

theorem canonical_recordAt {s : State} (vf part va : Nat) (write : Bool) (hs : Canonical s) : Canonical (s.recordAt vf part va write).2 := by
  grind [State.recordAt, canonical_demandMap, canonical_touchLeaf]

theorem canonical_recordPut {s : State} (vf part va : Nat) (bs : List Byte) (hs : Canonical s) : Canonical (s.recordPut vf part va bs) := by
  grind [State.recordPut, canonical_recordAt, canonical_setHomeBytes, canonical_foldl]

theorem canonical_recordOut {s : State} (core : Nat) (g : Workgroup) (va : Nat) (bs : List Byte) (hs : Canonical s) :
    Canonical (s.recordOut core g va bs) := by
  grind [State.recordOut, canonical_recordAt, canonical_updCore, canonical_setHomeBytes, canonical_foldl]

theorem canonical_lineOut {s : State} (core key : Nat) (hs : Canonical s) : Canonical (s.lineOut core key) := by
  grind [State.lineOut, canonical_recordOut]

theorem canonical_lineIn {s : State} (id : WaveId) (r : Nat) (hs : Canonical s) : Canonical (s.lineIn id r) := by
  grind [State.lineIn, canonical_updWave, canonical_recordAt, canonical_fillPriv]

theorem canonical_makeRoom {s : State} (core sched n : Nat) (hs : Canonical s) : Canonical (s.makeRoom core sched n) := by
  grind [State.makeRoom, canonical_updCore, canonical_lineOut, canonical_foldl]

theorem canonical_writeRegs {s : State} (id : WaveId) (ws : List RegWrite) (hs : Canonical s) : Canonical (s.writeRegs id ws) := by
  grind [State.writeRegs, canonical_updWave, canonical_makeRoom, canonical_updCore, canonical_recordOut, canonical_foldl]

theorem canonical_trigger {s : State} (part source tag code : Nat) (hs : Canonical s) : Canonical (s.trigger part source tag code) := by
  unfold State.trigger
  dsimp only
  split
  · exact canonical_updPart _ _ hs
  · refine canonical_ite _ (canonical_updPart _ _ hs) (canonical_updPart _ _ hs)

theorem canonical_faultTrigger {s : State} (part bit code : Nat) (hs : Canonical s) : Canonical (s.faultTrigger part bit code) := by
  grind [State.faultTrigger, canonical_trigger]

theorem canonical_telemetry {s : State} (part : Nat) (entry : BitVec 256) (hs : Canonical s) : Canonical (s.telemetry part entry) := by
  have hring : ∀ (p q : Prop) [Decidable p] [Decidable q] (base slot : Nat) (h e tail : List Byte), Canonical (if p then s else
      if q then s.engineWrite 0 base h else (s.engineWrite 0 slot e).engineWrite 0 (base + 48) tail) := fun p q _ _ base slot h e tail =>
    canonical_ite _ hs (canonical_ite _ (canonical_engineWrite _ _ _ hs) (canonical_engineWrite _ _ _ (canonical_engineWrite _ _ _ hs)))
  unfold State.telemetry
  dsimp only
  split
  · exact canonical_faultTrigger _ _ _ (hring _ _ _ _ _ _ _)
  · exact hring _ _ _ _ _ _ _

theorem canonical_postRecord {s : State} (vf : Nat) (r : BitVec 512) (hs : Canonical s) : Canonical (s.postRecord vf r) := by
  grind [State.postRecord, canonical_iff]

/-! ### Machine/Responder -/

theorem canonical_updPlace {s : State} (part n : Nat) (f : Place → Place) (hs : Canonical s) : Canonical (s.updPlace part n f) := by
  grind [State.updPlace, canonical_updPart]

theorem canonical_coreAnswer {s : State} (part n core : Nat) (hs : Canonical s) : Canonical (s.coreAnswer part n core) := by
  grind [State.coreAnswer, canonical_updPlace]

theorem canonical_startResponders {s : State} (core n : Nat) (hs : Canonical s) : Canonical (s.startResponders core n) := by
  induction n generalizing s with
  | zero => exact hs
  | succ n ih => grind [State.startResponders, canonical_updCore, canonical_setWave]

theorem canonical_responderEnd {s : State} (id : WaveId) (r : Responder) (reply : Reply) (hs : Canonical s) :
    Canonical (s.responderEnd id r reply) := by
  grind [State.responderEnd, canonical_setWave, canonical_updPlace, canonical_startResponders, canonical_coreAnswer]

theorem canonical_responderFail {s : State} (id : WaveId) (code : Nat) (hs : Canonical s) : Canonical (s.responderFail id code) := by
  grind [State.responderFail, canonical_responderEnd, canonical_telemetry]

/-! ### Machine/Ops -/

theorem canonical_fetchAt {s : State} (core vf part : Nat) (g : BitVec 128) (pc : Word) (hs : Canonical s) :
    Canonical (s.fetchAt core vf part g pc).2 := by
  grind [State.fetchAt, canonical_translate, canonical_touch, canonical_updCore]

theorem canonical_fetchWord {s : State} (id : WaveId) (w : Wave) (g : Workgroup) (pc : Word) (hs : Canonical s) :
    Canonical (s.fetchWord id w g pc).2 := by
  grind [State.fetchWord, canonical_fetchAt]

theorem canonical_windowCause {s : State} (c : Ctx) (sh : Shape) (hs : Canonical s) : Canonical (s.windowCause c sh).2 := by
  grind [State.windowCause, canonical_fetchWord]

theorem canonical_checks {s : State} (c : Ctx) (sh : Shape) (needs : Option Bool) (hs : Canonical s) : Canonical (s.checks c sh needs).2 := by
  grind [State.checks, canonical_windowCause, canonical_foldl]

theorem canonical_contain {s : State} (core i : Nat) (r : FaultRecord) (hs : Canonical s) : Canonical (s.contain core i r) := by
  grind [State.contain, canonical_updWg, canonical_foldl]

theorem canonical_kill {s : State} (id : WaveId) (kind code first detail : Nat) (f : FaultInfo) (hs : Canonical s) :
    Canonical (s.kill id kind code first detail f) := by
  grind [State.kill, canonical_updWave, canonical_contain]

theorem canonical_rebalance {s : State} (core sched : Nat) (hs : Canonical s) : Canonical (s.rebalance core sched) := by
  grind [State.rebalance, canonical_updWave]

theorem canonical_writeSaveAreas {s : State} (id : WaveId) (w : Wave) (g : Workgroup) (f : FaultInfo) (hs : Canonical s) :
    ∀ t, s.writeSaveAreas id w g f = .ok t → Canonical t := by
  refine canonicalExcept_iff.mp (canonicalExcept_foldl _ _ (fun y l hy => canonicalExcept_foldl _ _ (fun z j hz => ?_) hy) hs)
  cases z with
  | error e => trivial
  | ok u => exact canonicalExcept_iff.mpr (canonical_recordWrite _ _ _ _ _ _ _ hz)

theorem canonical_enterHandler {s : State} (id : WaveId) (w : Wave) (g : Workgroup) (base : Word) (f : FaultInfo) (hs : Canonical s) :
    Canonical (s.enterHandler id w g base f) := by
  unfold State.enterHandler
  dsimp only
  split
  · next h => exact canonical_setWave _ _ (canonical_writeSaveAreas _ _ _ _ hs _ h)
  · exact canonical_setWave _ _ (canonical_quotaEvent _ _ _ _ _ hs)
  · exact canonical_kill _ _ _ _ _ _ hs

theorem canonical_deliver {s : State} (id : WaveId) (f : FaultInfo) (hs : Canonical s) : Canonical (s.deliver id f) := by
  grind [State.deliver, canonical_responderFail, canonical_kill, canonical_enterHandler]

theorem canonical_raiseFault {s : State} (id : WaveId) (f : FaultInfo) (hs : Canonical s) : Canonical (s.raiseFault id f) := by
  grind [State.raiseFault, canonical_responderFail, canonical_setWave, canonical_deliver]

theorem canonical_raiseAt {s : State} (c : Ctx) (r : Raise) (fmask : Mask) (hs : Canonical s) : Canonical (s.raiseAt c r fmask) := by
  grind [State.raiseAt, canonical_raiseFault]

theorem canonical_dropDead {s : State} (id : WaveId) (g : Workgroup) (pc : Word) (hs : Canonical s) : Canonical (s.dropDead id g pc) := by
  grind [State.dropDead, canonical_updCore, canonical_updWave, canonical_foldl, canonical_iff]

theorem canonical_debugReport {s : State} (id : WaveId) (vf code : Nat) (pc : Word) (hs : Canonical s) :
    Canonical (s.debugReport id vf code pc) := by
  grind [State.debugReport, canonical_iff]

theorem canonical_endWindow {s : State} (id : WaveId) (w : Wave) (g : Workgroup) (hs : Canonical s) : Canonical (s.endWindow id w g) := by
  grind [State.endWindow, canonical_dropDead, canonical_updWave]

theorem canonical_exchange {s : State} (id : WaveId) (hs : Canonical s) : Canonical (s.exchange id) := by
  grind [State.exchange, canonical_updWave]

theorem canonical_settle {s : State} (id : WaveId) (hs : Canonical s) : Canonical (s.settle id) := by
  have hset := fun w : Option Wave => canonical_setWave id w hs
  unfold State.settle
  dsimp only
  split
  · exact hs
  · split
    · exact hs
    · split
      · exact hs
      · split
        · exact canonical_deliver _ _ (hset _)
        · split
          · exact hset _
          · split
            · exact canonical_rebalance _ _ (hset _)
            · split
              · exact hset _
              · split
                · exact canonical_exchange _ (canonical_endWindow _ _ _ (hset _))
                · exact hset _

theorem canonical_waveRecord {s : State} (id : WaveId) (g : Workgroup) (code detail xinfo : Nat) (pc : Word) (xmask fmask : Mask) (hs : Canonical
    s) :
    Canonical (s.waveRecord id g code detail xinfo pc xmask fmask) := by
  grind [State.waveRecord, canonical_postRecord]

theorem canonical_deferFault {s : State} (id : WaveId) (f : Flight) (code detail : Nat) (fmask : Mask) (xinfo : Nat) (hs : Canonical s) :
    Canonical (s.deferFault id f code detail fmask xinfo) := by
  unfold State.deferFault
  dsimp only
  split
  · exact hs
  · split
    · exact canonical_responderFail _ _ hs
    · split
      · split
        · exact canonical_waveRecord _ _ _ _ _ _ _ _ hs
        · exact hs
      · exact canonical_ite _ hs (canonical_settle _ (canonical_setWave _ _ hs))

theorem canonical_launch {s : State} (c : Ctx) (op : FlightOp) (regs : List Nat) (hs : Canonical s) : Canonical (s.launch c op regs) := by
  grind [State.launch, canonical_updWave, canonical_iff]

theorem canonical_record {s : State} (c : Ctx) (k : Wake) (hs : Canonical s) : Canonical (s.record c k) := by
  grind [State.record, canonical_updWave]

theorem canonical_endFlight {s : State} (id : WaveId) (tag : Nat) (hs : Canonical s) : Canonical (s.endFlight id tag) := by
  grind [State.endFlight, canonical_settle, canonical_updWave]

theorem canonical_barCheck {s : State} (core i slot : Nat) (hs : Canonical s) : Canonical (s.barCheck core i slot) := by
  grind [State.barCheck, canonical_updWg, canonical_foldl]

theorem canonical_ensBarCheck {s : State} (core i slot : Nat) (hs : Canonical s) : Canonical (s.ensBarCheck core i slot) := by
  grind [State.ensBarCheck, canonical_updPart, canonical_foldl]

theorem canonical_copyDecide {s : State} (core i : Nat) (hs : Canonical s) : Canonical (s.copyDecide core i) := by
  unfold State.copyDecide
  dsimp only
  split
  · exact hs
  · split
    · exact hs
    · split
      · exact hs
      · split
        · exact canonical_foldl _ _ (fun _ _ hu => canonical_raiseFault _ _ hu) hs
        · refine canonical_foldl _ _ (fun _ _ hu => canonical_settle _ (canonical_updWave _ _ hu)) (canonical_updWg _ _ _ ⟨hs.wf⟩)

theorem canonical_removeWg {s : State} (core i : Nat) (g : Workgroup) (hs : Canonical s) : Canonical (s.removeWg core i g) := by
  grind [State.removeWg, canonical_updCore, canonical_updPart, canonical_foldl]

theorem canonical_tidy {s : State} (core : Nat) (hs : Canonical s) : Canonical (s.tidy core) := by
  grind [State.tidy, canonical_setWave, canonical_removeWg, canonical_foldl]

theorem canonical_sendDelete {s : State} (part core entry : Nat) (hs : Canonical s) : Canonical (s.sendDelete part core entry) := by
  grind [State.sendDelete, canonical_updPart]

theorem canonical_waveEnd {s : State} (id : WaveId) (w : Wave) (g : Workgroup) (hs : Canonical s) : Canonical (s.waveEnd id w g) := by
  grind [State.waveEnd, canonical_waveRecord, canonical_updWave, canonical_updCore, canonical_updWg, canonical_barCheck, canonical_ensBarCheck,
    canonical_copyDecide, canonical_dropPriv, canonical_sendDelete, canonical_rebalance, canonical_tidy, canonical_foldl]

theorem canonical_exitLanes {s : State} (id : WaveId) (m : Mask) (hs : Canonical s) : Canonical (s.exitLanes id m) := by
  grind [State.exitLanes, canonical_setWave, canonical_waveEnd]

theorem canonical_heldCheck {s : State} (id : WaveId) (hs : Canonical s) : Canonical (s.heldCheck id) := by
  grind [State.heldCheck, canonical_setWave]

theorem canonical_trapReturn {s : State} (c : Ctx) (hs : Canonical s) : Canonical (s.trapReturn c) := by
  have hend : ∀ (w : Wave) (exited : Mask) (u : State), Canonical u →
      Canonical (if exited = 0xFFFFFFFF#32 then (u.setWave c.id (some w)).exitLanes c.id exited else u.setWave c.id (some w)) :=
    fun _ _ _ hu => canonical_ite _ (canonical_exitLanes _ _ (canonical_setWave _ _ hu)) (canonical_setWave _ _ hu)
  unfold State.trapReturn
  dsimp only
  split
  · exact canonical_raiseAt _ _ _ hs
  · refine hend _ _ _ ?_
    split
    · exact hs
    · have hfetch := fun pc => canonical_fetchWord c.id c.wave c.wg pc hs
      split
      · next h =>
        have hx := congrArg (fun r : Except Raise Dword × State => Canonical r.2) h ▸ hfetch _
        split <;> exact hx
      · next h => exact congrArg (fun r : Except Raise Dword × State => Canonical r.2) h ▸ hfetch _

theorem canonical_privWord {s : State} (id : WaveId) (w : Wave) (g : Workgroup) (o lane x : Nat) (hs : Canonical s) :
    Canonical (s.privWord id w g o lane x) := by
  grind [State.privWord, canonical_recordWrite]

theorem canonical_divertWave {s : State} (id : WaveId) (cause kind : Nat) (hs : Canonical s) : Canonical (s.divertWave id cause kind) := by
  grind [State.divertWave, canonical_privWord, canonical_updWave, canonical_foldl]

theorem canonical_divertPoint {s : State} (id : WaveId) (hs : Canonical s) : Canonical (s.divertPoint id) := by
  grind [State.divertPoint, canonical_divertWave]

theorem canonical_countIssue {s : State} (id : WaveId) (hs : Canonical s) : Canonical (s.countIssue id) := by
  grind [State.countIssue, canonical_updCore]

theorem canonical_retire {s : State} (sh : Shape) (c : Ctx) (moved : Bool) (hs : Canonical s) : Canonical (s.retire sh c moved) := by
  grind [State.retire, canonical_updWave, canonical_updCore, canonical_settle, canonical_heldCheck, canonical_countIssue]

theorem canonical_waitAtMarker {s : State} (c : Ctx) (hs : Canonical s) : Canonical (s.waitAtMarker c) := by
  grind [State.waitAtMarker, canonical_settle, canonical_updWave]

theorem canonical_issueBody {s : State} (sh : Shape) (needs : Option Bool) (c : Ctx) (body : Ctx → State → Res)
    (hbody : ∀ c u, Canonical u → CanonicalRes (body c u)) (hs : Canonical s) : Canonical (s.issueBody sh needs c body) := by
  have hchecks := canonical_checks c sh needs hs
  unfold State.issueBody
  split
  · next h =>
    rw [h] at hchecks
    exact canonical_raiseAt _ _ _ hchecks
  · next t h =>
    rw [h] at hchecks
    refine canonical_ite _ (canonical_waitAtMarker _ hchecks) ?_
    have hres := hbody c t hchecks
    cases hb : body c t with rw [hb] at hres
    | done u => exact canonical_retire _ _ _ hres
    | moved u => exact canonical_retire _ _ _ hres
    | raise r m u => exact canonical_raiseAt _ _ _ hres
    | stay u => exact hres

theorem canonical_issue {s : State} (sh : Shape) (needs : Option Bool) (c : Ctx) (body : Ctx → State → Res)
    (hbody : ∀ c u, Canonical u → CanonicalRes (body c u)) (hs : Canonical s) : Canonical (s.issue sh needs c body) := by
  unfold State.issue
  split
  · split
    · exact canonical_responderFail _ _ hs
    · split
      · exact canonical_responderFail _ _ hs
      · exact canonical_issueBody sh needs c body hbody hs
  · exact canonical_issueBody sh needs c body hbody hs

theorem canonical_issueWord (i : Instr) {s : State} (body : Ctx → State → Res) (hbody : ∀ c u, Canonical u → CanonicalRes (body c u))
    (hs : Canonical s) : ∀ t, issueWord i s body = .next t → Canonical t := by
  intro t ht
  unfold issueWord at ht
  dsimp only at ht
  split at ht
  · cases ht
  · cases ht
    exact canonical_issue _ _ _ _ hbody hs

/-! ### Machine/Sched -/

theorem canonical_fetchHead {s : State} (id : WaveId) (hs : Canonical s) : Canonical (s.fetchHead id).2 := by
  grind [State.fetchHead, canonical_fetchWord]

theorem canonical_windowRegs {s : State} (id : WaveId) (w : Wave) (g : Workgroup) (pc : Word) (n : Nat) (hs : Canonical s) :
    Canonical (s.windowRegs id w g pc n).2 := by
  induction n generalizing s pc with
  | zero => exact hs
  | succ n ih => grind [State.windowRegs, canonical_fetchWord]

theorem canonical_fillLines {s : State} (id : WaveId) (absent : List Nat) (hs : Canonical s) : Canonical (s.fillLines id absent) := by
  grind [State.fillLines, canonical_makeRoom, canonical_updCore, canonical_lineIn, canonical_foldl]

theorem canonical_prefill {s : State} (id : WaveId) (hs : Canonical s) : Canonical (s.prefill id) := by
  grind [State.prefill, canonical_windowRegs, canonical_raiseFault, canonical_updWave, canonical_rebalance, canonical_fillLines]

theorem canonical_windowStart {s : State} (id : WaveId) (hs : Canonical s) : Canonical (s.windowStart id) := by
  grind [State.windowStart, canonical_divertPoint, canonical_updWave]

theorem canonical_encodingFault {s : State} (id : WaveId) (word : Dword) (hs : Canonical s) : Canonical (s.encodingFault id word) := by
  unfold State.encodingFault
  dsimp only
  split
  · exact hs
  · split
    · split
      · exact canonical_raiseFault _ _ hs
      · split
        · exact canonical_responderFail _ _ hs
        · split
          · exact canonical_raiseAt _ _ _ hs
          · exact hs
    · exact hs

theorem canonical_fetchFault {s : State} (id : WaveId) (r : Raise) (hs : Canonical s) : Canonical (s.fetchFault id r) := by
  grind [State.fetchFault, canonical_raiseFault]

/-! ### Machine/Flight -/

theorem canonical_laneRes {s : State} (c : Ctx) (device walk : Bool) (k : AccKind) (lane : Nat) (x : Except Raise Nat) (hs : Canonical s) :
    Canonical (s.laneRes c device walk k lane x).2 := by
  cases x with
  | error r => exact hs
  | ok va =>
    have htranslate := canonical_translate c.core c.wg.vf c.wg.part device walk va k hs
    unfold State.laneRes
    dsimp only
    split <;> next h =>
      rw [h] at htranslate
      exact htranslate

theorem canonical_laneAll {s : State} (c : Ctx) (device walk : Bool) (k : AccKind) (ls : List (Nat × Except Raise Nat)) (hs : Canonical s) :
    Canonical (s.laneAll c device walk k ls).2 :=
  List.foldlRecOn (motive := fun acc : List (Nat × LaneRes) × State => Canonical acc.2) ls _ hs
    (fun _ hacc _ _ => canonical_laneRes _ _ _ _ _ _ hacc)

theorem canonical_access {s : State} (c : Ctx) (device one : Bool) (k : AccKind) (ls : List (Nat × Except Raise Nat)) (hs : Canonical s) :
    CanonicalAccess (s.access c device one k ls) := by
  grind [State.access, canonical_laneAll, canonical_updWave, canonical_startWalk, canonical_touch, CanonicalAccess, canonical_foldl]

theorem canonical_doSpAtomic {s : State} (core op size : Nat) (todo : List (Nat × Nat × Nat × Nat)) (reg : Nat) (hs : Canonical s) :
    Canonical (s.doSpAtomic core op size todo reg).2 := by
  grind [State.doSpAtomic, canonical_setCore]

theorem canonical_fillLoad {s : State} (core part vf mode : Nat) (nl1 : Bool) (mask : BitVec 8) (size : Nat) (accs : List LaneAcc) (hs :
    Canonical s) :
    Canonical (s.fillLoad core part vf mode nl1 mask size accs) := by
  grind [State.fillLoad, canonical_updCore, canonical_request, canonical_useLine, canonical_foldl]

theorem canonical_fetchLoad {s : State} (id : WaveId) (accs : List LaneAcc) (size mode : Nat) (priv : Bool) (mask : BitVec 8) (hs : Canonical s)
    :
    Canonical (s.fetchLoad id accs size mode priv mask) := by
  grind [State.fetchLoad, canonical_fillPriv, canonical_fillLoad]

theorem canonical_readLoad {s : State} (id : WaveId) (accs : List LaneAcc) (size : Nat) (signed : Bool) (reg mode : Nat) (priv : Bool) (mask :
    BitVec 8) (hs : Canonical s) :
    Canonical (s.readLoad id accs size signed reg mode priv mask).2.2 := by
  grind [State.readLoad, canonical_fetchLoad]

theorem canonical_writeSpace {s : State} (core : Nat) (x : Space) (bytes : List (Nat × Byte)) (hs : Canonical s) :
    Canonical (s.writeSpace core x bytes) := by
  grind [State.writeSpace, canonical_updCore, canonical_foldl]

theorem canonical_storePriv {s : State} (id : WaveId) (bytes : List (Nat × Byte)) (hs : Canonical s) : Canonical (s.storePriv id bytes) := by
  grind [State.storePriv, canonical_storeByte, canonical_foldl]

theorem canonical_writeLocal {s : State} (id : WaveId) (space : Option Space) (bytes : List (Nat × Byte)) (hs : Canonical s) :
    Canonical (s.writeLocal id space bytes) := by
  cases space with
  | some x => exact canonical_writeSpace _ _ _ hs
  | none => exact canonical_storePriv _ _ hs

theorem canonical_fillEntries {s : State} (core wg queue seq : Nat) (data : List (List Word)) (poison : Option Nat) (hs : Canonical s) :
    Canonical (s.fillEntries core wg queue seq data poison) := by
  grind [State.fillEntries, canonical_updWg, canonical_updCore, canonical_foldl]

theorem canonical_settleWg {s : State} (core wg : Nat) (hs : Canonical s) : Canonical (s.settleWg core wg) := by
  grind [State.settleWg, canonical_settle, canonical_foldl]

theorem canonical_perform {s : State} (id : WaveId) (f : Flight) (hs : Canonical s) : Canonical (s.perform id f) := by
  grind [State.perform, canonical_readLoad, canonical_updWave, canonical_endFlight, canonical_fillLoad, canonical_fetchLoad, canonical_settleWg,
    canonical_fillEntries, canonical_storeBytes, canonical_writeLocal, canonical_doSpAtomic]

theorem canonical_performAll {s : State} (id : WaveId) (upTo : Option Nat) (hs : Canonical s) : Canonical (s.performAll id upTo) := by
  grind [State.performAll, canonical_perform, canonical_foldl]

theorem canonical_performOne {s : State} (id : WaveId) (f : Flight) (hs : Canonical s) : Canonical (s.performOne id f) := by
  grind [State.performOne, canonical_perform, canonical_performAll]

theorem canonical_drain {s : State} (id : WaveId) (hs : Canonical s) : Canonical (s.drain id) := by
  grind [State.drain, canonical_performOne, canonical_foldl]

theorem canonical_finish {s : State} (id : WaveId) (tag : Nat) (hs : Canonical s) : Canonical (s.finish id tag) := by
  grind [State.finish, canonical_tidy, canonical_drain, canonical_endFlight]

theorem canonical_finishWith {s : State} (id : WaveId) (tag : Nat) (ws : List RegWrite) (hs : Canonical s) :
    Canonical (s.finishWith id tag ws) := by
  grind [State.finishWith, canonical_finish, canonical_writeRegs]

theorem canonical_storeOrQueue {s : State} (c : Ctx) (uncached : Bool) (bytes : List (Nat × Byte)) (hs : Canonical s) :
    Canonical (s.storeOrQueue c uncached bytes) := by
  grind [State.storeOrQueue, canonical_launch, canonical_storeBytes, canonical_performAll]

theorem canonical_acquireAll {s : State} (core : Nat) (hs : Canonical s) : Canonical (s.acquireAll core) := by
  grind [State.acquireAll, canonical_updCore]

theorem canonical_arriveTry {s : State} (id : WaveId) (tag : Nat) (hs : Canonical s) : Canonical (s.arriveTry id tag) := by
  grind [State.arriveTry, canonical_performAll, canonical_writeBack, canonical_finish, canonical_ensBarCheck, canonical_barCheck]

theorem canonical_waitTry {s : State} (id : WaveId) (tag : Nat) (hs : Canonical s) : Canonical (s.waitTry id tag) := by
  unfold State.waitTry
  dsimp only
  split
  · exact hs
  · split
    · split
      · exact canonical_ite _ hs (canonical_finish _ _ (canonical_ite _ (canonical_acquireAll _ hs) hs))
      · exact hs
    · exact hs

theorem canonical_stall {s : State} (id : WaveId) (hs : Canonical s) : Canonical (s.stall id) := by
  grind [State.stall, canonical_updWave, canonical_iff]

theorem canonical_wait {s : State} (hs : Canonical s) : CanonicalRes s.wait := by
  grind [State.wait, canonical_stall, CanonicalRes]

theorem canonical_Ctx_onPath (c : Ctx) (path : Nat) {s : State} (body : State → Res) (hbody : ∀ u, Canonical u → CanonicalRes (body u))
    (hs : Canonical s) : CanonicalRes (c.onPath path s body) := by
  grind [Ctx.onPath, canonical_wait]

theorem canonical_Access_then (a : Access) (f : List (LaneAcc × Bool) → State → Res)
    (hf : ∀ accs u, Canonical u → CanonicalRes (f accs u)) (ha : CanonicalAccess a) : CanonicalRes (a.then f) := by
  cases a with
  | ready accs s => exact hf accs s ha
  | raise r m s => exact ha
  | hold s => exact ha

/-! ### Machine/Control -/

theorem canonical_Ctx_transfer (c : Ctx) {s : State} (take : Nat → Bool) (target : Nat → Word) (f : Wave → Wave) (hs : Canonical s) :
    CanonicalRes (c.transfer s take target f) := by
  grind [Ctx.transfer, canonical_updWave, CanonicalRes]

theorem canonical_execJmp (w : BWord) {s : State} (hs : Canonical s) : ∀ t, execJmp w s = .next t → Canonical t := by
  grind [execJmp, canonical_issueWord, canonical_Ctx_transfer, CanonicalRes]

theorem canonical_execBrv (w : BWord) {s : State} (hs : Canonical s) : ∀ t, execBrv w s = .next t → Canonical t := by
  grind [execBrv, canonical_issueWord, canonical_Ctx_transfer, CanonicalRes]

theorem canonical_execBru (w : BWord) {s : State} (hs : Canonical s) : ∀ t, execBru w s = .next t → Canonical t := by
  grind [execBru, canonical_issueWord, canonical_Ctx_transfer, CanonicalRes]

theorem canonical_execJmpi (w : BWord) {s : State} (hs : Canonical s) : ∀ t, execJmpi w s = .next t → Canonical t := by
  grind [execJmpi, canonical_issueWord, canonical_Ctx_transfer, CanonicalRes]

theorem canonical_execCall (w : BWord) {s : State} (hs : Canonical s) : ∀ t, execCall w s = .next t → Canonical t := by
  grind [execCall, canonical_issueWord, canonical_Ctx_transfer, CanonicalRes]

theorem canonical_execRet (w : BWord) {s : State} (hs : Canonical s) : ∀ t, execRet w s = .next t → Canonical t := by
  grind [execRet, canonical_issueWord, canonical_Ctx_transfer, CanonicalRes]

theorem canonical_execLoop (w : BWord) {s : State} (hs : Canonical s) : ∀ t, execLoop w s = .next t → Canonical t := by
  grind [execLoop, canonical_issueWord, canonical_Ctx_transfer, CanonicalRes]

theorem canonical_execNop (w : BWord) {s : State} (hs : Canonical s) : ∀ t, execNop w s = .next t → Canonical t := by
  grind [execNop, canonical_issueWord, CanonicalRes]

theorem canonical_execExit (w : BWord) {s : State} (hs : Canonical s) : ∀ t, execExit w s = .next t → Canonical t := by
  grind [execExit, canonical_issueWord, canonical_exitLanes, canonical_updWave, CanonicalRes]

theorem canonical_execRwait (w : BWord) {s : State} (hs : Canonical s) : ∀ t, execRwait w s = .next t → Canonical t := by
  grind [execRwait, canonical_issueWord, canonical_updWave, CanonicalRes]

theorem canonical_execYield (w : BWord) {s : State} (hs : Canonical s) : ∀ t, execYield w s = .next t → Canonical t := by
  grind [execYield, canonical_issueWord, canonical_updCore, CanonicalRes]

theorem canonical_execPriPass (w : BWord) {s : State} (hs : Canonical s) : ∀ t, execPriPass w s = .next t → Canonical t := by
  grind [execPriPass, canonical_issueWord, canonical_updCore, CanonicalRes]

theorem canonical_execSleep (w : BWord) {s : State} (hs : Canonical s) : ∀ t, execSleep w s = .next t → Canonical t := by
  grind [execSleep, canonical_issueWord, canonical_record, CanonicalRes]

theorem canonical_afterWord {s : State} (c : Ctx) (hs : Canonical s) : Canonical (s.afterWord c) := by
  grind [State.afterWord, canonical_countIssue, canonical_updWave]

theorem canonical_execTrap (w : BWord) {s : State} (hs : Canonical s) : ∀ t, execTrap w s = .next t → Canonical t := by
  grind [execTrap, canonical_issueWord, canonical_raiseFault, canonical_afterWord, CanonicalRes]

theorem canonical_execBrk (w : BWord) {s : State} (hs : Canonical s) : ∀ t, execBrk w s = .next t → Canonical t := by
  grind [execBrk, canonical_issueWord, canonical_debugReport, canonical_updWave, canonical_raiseFault, canonical_afterWord, CanonicalRes]

theorem canonical_execTret (w : BWord) {s : State} (hs : Canonical s) : ∀ t, execTret w s = .next t → Canonical t := by
  grind [execTret, canonical_issueWord, canonical_countIssue, canonical_updWave, canonical_trapReturn, canonical_deliver, canonical_heldCheck,
    CanonicalRes]

theorem canonical_execSnap (w : BWord) {s : State} (hs : Canonical s) : ∀ t, execSnap w s = .next t → Canonical t := by
  grind [execSnap, canonical_issueWord, canonical_trigger, CanonicalRes]

theorem canonical_setBarrier {s : State} (c : Ctx) (ens : Bool) (slot : Nat) (b : Barrier) (hs : Canonical s) :
    Canonical (s.setBarrier c ens slot b) := by
  grind [State.setBarrier, canonical_updPart, canonical_updWg]

theorem canonical_arrive {s : State} (c : Ctx) (ens : Bool) (slot : Nat) (hs : Canonical s) : Canonical (s.arrive c ens slot) := by
  grind [State.arrive, canonical_arriveTry, canonical_launch]

theorem canonical_Ctx_barrier (c : Ctx) {s : State} (w : BWord) (ens arrive wait : Bool) (hs : Canonical s) :
    CanonicalRes (c.barrier s w ens arrive wait) := by
  grind [Ctx.barrier, canonical_setBarrier, canonical_record, canonical_acquireAll, canonical_arrive, canonical_waitTry, canonical_launch,
    CanonicalRes]

theorem canonical_execBarFull (w : BWord) {s : State} (hs : Canonical s) : ∀ t, execBarFull w s = .next t → Canonical t := by
  grind [execBarFull, canonical_issueWord, canonical_Ctx_barrier, CanonicalRes]

theorem canonical_execBarArrive (w : BWord) {s : State} (hs : Canonical s) : ∀ t, execBarArrive w s = .next t → Canonical t := by
  grind [execBarArrive, canonical_issueWord, canonical_Ctx_barrier, CanonicalRes]

theorem canonical_execBarWait (w : BWord) {s : State} (hs : Canonical s) : ∀ t, execBarWait w s = .next t → Canonical t := by
  grind [execBarWait, canonical_issueWord, canonical_Ctx_barrier, CanonicalRes]

theorem canonical_execBarEnsFull (w : BWord) {s : State} (hs : Canonical s) : ∀ t, execBarEnsFull w s = .next t → Canonical t := by
  grind [execBarEnsFull, canonical_issueWord, canonical_Ctx_barrier, CanonicalRes]

theorem canonical_execBarEnsArrive (w : BWord) {s : State} (hs : Canonical s) : ∀ t, execBarEnsArrive w s = .next t → Canonical t := by
  grind [execBarEnsArrive, canonical_issueWord, canonical_Ctx_barrier, CanonicalRes]

theorem canonical_execBarEnsWait (w : BWord) {s : State} (hs : Canonical s) : ∀ t, execBarEnsWait w s = .next t → Canonical t := by
  grind [execBarEnsWait, canonical_issueWord, canonical_Ctx_barrier, CanonicalRes]

/-! ### Machine/Local -/

theorem canonical_countPasses {s : State} (core passes : Nat) (hs : Canonical s) : Canonical (s.countPasses core passes) := by
  grind [State.countPasses, canonical_updCore]

theorem canonical_Ctx_localWord (c : Ctx) {s : State} (w : MWord) (space : Space) (store : Bool) (hs : Canonical s) :
    CanonicalRes (c.localWord s w space store) := by
  grind [Ctx.localWord, canonical_Ctx_onPath, canonical_countPasses, canonical_launch, canonical_writeLocal, CanonicalRes]

theorem canonical_execLdSp (w : MWord) {s : State} (hs : Canonical s) : ∀ t, execLdSp w s = .next t → Canonical t := by
  grind [execLdSp, canonical_issueWord, canonical_Ctx_localWord, CanonicalRes]

theorem canonical_execStSp (w : MWord) {s : State} (hs : Canonical s) : ∀ t, execStSp w s = .next t → Canonical t := by
  grind [execStSp, canonical_issueWord, canonical_Ctx_localWord, CanonicalRes]

theorem canonical_execLdA (w : MWord) {s : State} (hs : Canonical s) : ∀ t, execLdA w s = .next t → Canonical t := by
  grind [execLdA, canonical_issueWord, canonical_Ctx_localWord, CanonicalRes]

theorem canonical_execStA (w : MWord) {s : State} (hs : Canonical s) : ∀ t, execStA w s = .next t → Canonical t := by
  grind [execStA, canonical_issueWord, canonical_Ctx_localWord, CanonicalRes]

theorem canonical_execLdC (w : MWord) {s : State} (hs : Canonical s) : ∀ t, execLdC w s = .next t → Canonical t := by
  grind [execLdC, canonical_issueWord, canonical_Ctx_localWord, CanonicalRes]

theorem canonical_execStC (w : MWord) {s : State} (hs : Canonical s) : ∀ t, execStC w s = .next t → Canonical t := by
  grind [execStC, canonical_issueWord, canonical_Ctx_localWord, CanonicalRes]

theorem canonical_Ctx_remoteWord (c : Ctx) {s : State} (w : MWord) (store : Bool) (hs : Canonical s) :
    CanonicalRes (c.remoteWord s w store) := by
  grind [Ctx.remoteWord, canonical_Ctx_onPath, canonical_launch, canonical_record, CanonicalRes]

theorem canonical_execLdRsp (w : MWord) {s : State} (hs : Canonical s) : ∀ t, execLdRsp w s = .next t → Canonical t := by
  grind [execLdRsp, canonical_issueWord, canonical_Ctx_remoteWord, CanonicalRes]

theorem canonical_execStRsp (w : MWord) {s : State} (hs : Canonical s) : ∀ t, execStRsp w s = .next t → Canonical t := by
  grind [execStRsp, canonical_issueWord, canonical_Ctx_remoteWord, CanonicalRes]

theorem canonical_evRemoteReply {s : State} (id : WaveId) (tag : Nat) (hs : Canonical s) : Canonical (s.evRemoteReply id tag) := by
  grind [State.evRemoteReply, canonical_countPasses, canonical_finish, canonical_writeSpace, canonical_finishWith]

theorem canonical_execRemoteScratchpadReply (w : WaveId) (tag : Nat) {s : State} (hs : Canonical s) :
    ∀ t, execRemoteScratchpadReply w tag s = .next t → Canonical t := by
  grind [execRemoteScratchpadReply, canonical_evRemoteReply]

theorem canonical_Ctx_privateWord (c : Ctx) {s : State} (w : MWord) (store : Bool) (hs : Canonical s) :
    CanonicalRes (c.privateWord s w store) := by
  grind [Ctx.privateWord, canonical_Ctx_onPath, canonical_Access_then, canonical_access, canonical_launch, canonical_storePriv,
    canonical_performAll, CanonicalAccess, CanonicalRes]

theorem canonical_execLdP (w : MWord) {s : State} (hs : Canonical s) : ∀ t, execLdP w s = .next t → Canonical t := by
  grind [execLdP, canonical_issueWord, canonical_Ctx_privateWord, CanonicalRes]

theorem canonical_execStP (w : MWord) {s : State} (hs : Canonical s) : ∀ t, execStP w s = .next t → Canonical t := by
  grind [execStP, canonical_issueWord, canonical_Ctx_privateWord, CanonicalRes]

theorem canonical_execAtomSp (w : MWord) {s : State} (hs : Canonical s) : ∀ t, execAtomSp w s = .next t → Canonical t := by
  grind [execAtomSp, canonical_issueWord, canonical_Ctx_onPath, canonical_countPasses, canonical_launch, canonical_doSpAtomic, CanonicalRes]

theorem canonical_evResultWrite {s : State} (id : WaveId) (tag : Nat) (hs : Canonical s) : Canonical (s.evResultWrite id tag) := by
  grind [State.evResultWrite, canonical_finishWith]

/-! ### Machine/Queue -/

theorem canonical_updQueue {s : State} (core wg q : Nat) (f : DQueue → DQueue) (hs : Canonical s) : Canonical (s.updQueue core wg q f) := by
  grind [State.updQueue, canonical_updWg]

theorem canonical_numberPops {s : State} (core wg q base : Nat) (hs : Canonical s) : Canonical (s.numberPops core wg q base) := by
  grind [State.numberPops, canonical_updWave, canonical_foldl]

theorem canonical_claim {s : State} (core wg q seq n size : Nat) (scalar : Bool) (x : WaveId × Flight) (hs : Canonical s) :
    Canonical (s.claim core wg q seq n size scalar x) := by
  grind [State.claim, canonical_updQueue, canonical_updWave, canonical_finish, canonical_deferFault]

theorem canonical_enterPush {s : State} (core wg q : Nat) (h : HeldPush) (hs : Canonical s) : Canonical (s.enterPush core wg q h) := by
  grind [State.enterPush, canonical_updQueue, canonical_updWave, canonical_numberPops, canonical_claim]

theorem canonical_enterHeld {s : State} (core wg n : Nat) (hs : Canonical s) : Canonical (s.enterHeld core wg n) := by
  induction n generalizing s with
  | zero => exact hs
  | succ n ih => grind [State.enterHeld, canonical_updQueue, canonical_enterPush]

theorem canonical_levelFell {s : State} (core wg : Nat) (hs : Canonical s) : Canonical (s.levelFell core wg) := by
  grind [State.levelFell, canonical_settleWg, canonical_enterHeld, canonical_foldl]

theorem canonical_push {s : State} (c : Ctx) (q tag size : Nat) (scalar : Bool) (hs : Canonical s) : Canonical (s.push c q tag size scalar) := by
  grind [State.push, canonical_record, canonical_updQueue, canonical_enterPush]

theorem canonical_execDqLd (w : MWord) {s : State} (hs : Canonical s) : ∀ t, execDqLd w s = .next t → Canonical t := by
  grind [execDqLd, canonical_issueWord, canonical_Ctx_onPath, canonical_Access_then, canonical_access, canonical_launch, canonical_push,
    CanonicalAccess, CanonicalRes]

theorem canonical_execDqPop (w : RWord) {s : State} (hs : Canonical s) : ∀ t, execDqPop w s = .next t → Canonical t := by
  refine canonical_issueWord _ _ (fun c u hu => ?_) hs
  have hfall : ∀ (q : Nat) (f : DQueue → DQueue), Canonical ((u.updQueue c.core c.wave.wg q f).levelFell c.core c.wave.wg) :=
    fun _ _ => canonical_levelFell _ _ (canonical_updQueue _ _ _ _ hu)
  have hpop : ∀ (q : Nat) (f : DQueue → DQueue) (op : FlightOp) (regs : List Nat) (x : Wake),
      Canonical (((u.launch c op regs).record c x).updQueue c.core c.wave.wg q f) :=
    fun _ _ _ _ _ => canonical_updQueue _ _ _ _ (canonical_record _ _ (canonical_launch _ _ _ hu))
  dsimp only
  split
  · exact canonical_launch _ _ _ hu
  · split
    · exact hu
    · split
      · split
        · split
          · exact hu
          · exact hpop _ _ _ _ _
        · split
          · exact hu
          · exact hfall _ _
      · split
        · exact hu
        · exact hpop _ _ _ _ _

theorem canonical_execDqCfg (w : RWord) {s : State} (hs : Canonical s) : ∀ t, execDqCfg w s = .next t → Canonical t := by
  grind [execDqCfg, canonical_issueWord, canonical_levelFell, canonical_updQueue, CanonicalRes, canonical_foldl]

theorem canonical_execDqLvl (w : RWord) {s : State} (hs : Canonical s) : ∀ t, execDqLvl w s = .next t → Canonical t := by
  grind [execDqLvl, canonical_issueWord, canonical_updWave, CanonicalRes]

theorem canonical_popWrite {s : State} (id : WaveId) (w : Wave) (f : Flight) (q seq count reg : Nat) (hs : Canonical s) :
    Canonical (s.popWrite id w f q seq count reg) := by
  grind [State.popWrite, canonical_updQueue, canonical_finish, canonical_deferFault, canonical_finishWith, canonical_levelFell]

theorem canonical_evVariableResult {s : State} (id : WaveId) (tag : Nat) (hs : Canonical s) : Canonical (s.evVariableResult id tag) := by
  grind [State.evVariableResult, canonical_popWrite, canonical_evResultWrite]

theorem canonical_evQueueFill {s : State} (id : WaveId) (tag : Nat) (hs : Canonical s) : Canonical (s.evQueueFill id tag) := by
  grind [State.evQueueFill, canonical_tidy, canonical_performOne]

theorem canonical_execQueueEntryFill (w : WaveId) (tag : Nat) {s : State} (hs : Canonical s) :
    ∀ t, execQueueEntryFill w tag s = .next t → Canonical t := by
  grind [execQueueEntryFill, canonical_evQueueFill]

/-! ### Machine/Atomic -/

theorem canonical_Ctx_atomic (c : Ctx) {s : State} (w : MWord) (kind : Nat) (hs : Canonical s) : CanonicalRes (c.atomic s w kind) := by
  grind [Ctx.atomic, canonical_Ctx_onPath, canonical_Access_then, canonical_access, canonical_launch, canonical_push, CanonicalAccess,
    CanonicalRes]

theorem canonical_execAtom (w : MWord) {s : State} (hs : Canonical s) : ∀ t, execAtom w s = .next t → Canonical t := by
  grind [execAtom, canonical_issueWord, canonical_Ctx_atomic, CanonicalRes]

theorem canonical_execAtomCas (w : MWord) {s : State} (hs : Canonical s) : ∀ t, execAtomCas w s = .next t → Canonical t := by
  grind [execAtomCas, canonical_issueWord, canonical_Ctx_atomic, CanonicalRes]

theorem canonical_execRedG (w : MWord) {s : State} (hs : Canonical s) : ∀ t, execRedG w s = .next t → Canonical t := by
  grind [execRedG, canonical_issueWord, canonical_Ctx_atomic, CanonicalRes]

theorem canonical_yieldWords {s : State} (core : Nat) (ws : List Nat) (hs : Canonical s) : Canonical (s.yieldWords core ws) := by
  grind [State.yieldWords, canonical_updCore, canonical_ackWord, canonical_leaveL1, canonical_foldl]

theorem canonical_atomFill {s : State} (id : WaveId) (wg queue seq size : Nat) (olds : List (Nat × Nat)) (hs : Canonical s) :
    Canonical (s.atomFill id wg queue seq size olds) := by
  grind [State.atomFill, canonical_fillEntries]

theorem canonical_atomLane {s : State} (id : WaveId) (w : Wave) (f : Flight) (a : AtomLane) (kind op size queue seq : Nat) (rest : List AtomLane)
    (olds : List (Nat × Nat)) (hs : Canonical s) :
    Canonical (s.atomLane id w f a kind op size queue seq rest olds) := by
  grind [State.atomLane, canonical_updWave, canonical_postRecord, canonical_updQueue, canonical_register]

theorem canonical_evAtomicAtHome {s : State} (id : WaveId) (tag : Nat) (hs : Canonical s) : Canonical (s.evAtomicAtHome id tag) := by
  unfold State.evAtomicAtHome
  dsimp only
  split
  · exact hs
  · split
    · exact hs
    · split
      · split
        · exact hs
        · split
          · exact canonical_settleWg _ _ (canonical_finish _ _ (canonical_ite _ hs (canonical_atomFill _ _ _ _ _ _ hs)))
          · have hwords := fun ws => canonical_yieldWords id.core ws (canonical_performAll id (some tag) hs)
            exact canonical_ite _ (hwords _) (canonical_ite _ (canonical_updWave _ _ (hwords _))
              (canonical_atomLane _ _ _ _ _ _ _ _ _ _ _ (hwords _)))
      · exact hs

theorem canonical_execAtomicAtHome (w : WaveId) (tag : Nat) {s : State} (hs : Canonical s) :
    ∀ t, execAtomicAtHome w tag s = .next t → Canonical t := by
  grind [execAtomicAtHome, canonical_evAtomicAtHome]

/-! ### Machine/Global -/

theorem canonical_execStG (w : MWord) {s : State} (hs : Canonical s) : ∀ t, execStG w s = .next t → Canonical t := by
  grind [execStG, canonical_issueWord, canonical_Ctx_onPath, canonical_Access_then, canonical_access, canonical_storeOrQueue, CanonicalAccess,
    CanonicalRes]

theorem canonical_prefetchAccs {s : State} (c : Ctx) (rs : List (Nat × Except Raise Nat)) (hs : Canonical s) :
    Canonical (s.prefetchAccs c rs).2 := by
  grind [State.prefetchAccs, canonical_laneAll]

theorem canonical_execPref (w : MWord) {s : State} (hs : Canonical s) : ∀ t, execPref w s = .next t → Canonical t := by
  grind [execPref, canonical_issueWord, canonical_Ctx_onPath, canonical_prefetchAccs, canonical_drain, canonical_launch, CanonicalRes]

theorem canonical_execLdK (w : MWord) {s : State} (hs : Canonical s) : ∀ t, execLdK w s = .next t → Canonical t := by
  grind [execLdK, canonical_issueWord, canonical_Ctx_onPath, canonical_Access_then, canonical_access, canonical_launch, CanonicalAccess,
    CanonicalRes]

theorem canonical_execLnkLd (w : MWord) {s : State} (hs : Canonical s) : ∀ t, execLnkLd w s = .next t → Canonical t := by
  grind [execLnkLd, canonical_issueWord, canonical_Ctx_onPath, canonical_Access_then, canonical_access, canonical_launch, CanonicalAccess,
    CanonicalRes]

theorem canonical_execCalli (w : BWord) {s : State} (hs : Canonical s) : ∀ t, execCalli w s = .next t → Canonical t := by
  grind [execCalli, canonical_issueWord, canonical_Ctx_onPath, canonical_Access_then, canonical_access, canonical_launch, CanonicalAccess,
    CanonicalRes]

theorem canonical_loadReturn {s : State} (id : WaveId) (f : Flight) (accs : List LaneAcc) (size : Nat) (signed : Bool) (reg mode : Nat) (priv :
    Bool) (mask : BitVec 8) (hs : Canonical s) :
    Canonical (s.loadReturn id f accs size signed reg mode priv mask) := by
  grind [State.loadReturn, canonical_readLoad, canonical_deferFault, canonical_finishWith]

theorem canonical_callReturn {s : State} (id : WaveId) (f : Flight) (e : LaneAcc) (reg : Nat) (act eff : Mask) (hs : Canonical s) :
    Canonical (s.callReturn id f e reg act eff) := by
  grind [State.callReturn, canonical_fetchLoad, canonical_finish, canonical_deferFault, canonical_updWave, canonical_writeRegs,
    canonical_heldCheck]

theorem canonical_evDirectLoadReturn {s : State} (id : WaveId) (tag : Nat) (hs : Canonical s) : Canonical (s.evDirectLoadReturn id tag) := by
  grind [State.evDirectLoadReturn, canonical_loadReturn, canonical_performAll, canonical_callReturn]

theorem canonical_execDirectLoadReturn (w : WaveId) (tag : Nat) {s : State} (hs : Canonical s) :
    ∀ t, execDirectLoadReturn w tag s = .next t → Canonical t := by
  grind [execDirectLoadReturn, canonical_evDirectLoadReturn]

theorem canonical_evWriteLeaveTimeout {s : State} (core word : Nat) (hs : Canonical s) : Canonical (s.evWriteLeaveTimeout core word) := by
  grind [State.evWriteLeaveTimeout, canonical_leaveL1]

theorem canonical_execWriteLeaveTimeout (core word : Nat) {s : State} (hs : Canonical s) :
    ∀ t, execWriteLeaveTimeout core word s = .next t → Canonical t := by
  grind [execWriteLeaveTimeout, canonical_evWriteLeaveTimeout]

theorem canonical_evCleanLineExpiry {s : State} (core line : Nat) (hs : Canonical s) : Canonical (s.evCleanLineExpiry core line) := by
  grind [State.evCleanLineExpiry, canonical_dropGuests, canonical_updCore]

theorem canonical_execCleanLineExpiry (core line : Nat) {s : State} (hs : Canonical s) :
    ∀ t, execCleanLineExpiry core line s = .next t → Canonical t := by
  grind [execCleanLineExpiry, canonical_evCleanLineExpiry]

theorem canonical_execRegistrationAtHome (core word : Nat) {s : State} (hs : Canonical s) :
    ∀ t, execRegistrationAtHome core word s = .next t → Canonical t := by
  grind [execRegistrationAtHome, canonical_leaveL1]

/-! ### Machine/Sync -/

theorem canonical_Ctx_cellWord (c : Ctx) {s : State} (w : MWord) (imm : Int) (regs : List Nat) (f : LaneAcc → State → Res)
    (hf : ∀ a u, Canonical u → CanonicalRes (f a u)) (hs : Canonical s) : CanonicalRes (c.cellWord s w imm regs f) := by
  refine canonical_Ctx_onPath c 0 _ (fun u hu => canonical_Access_then _ _ (fun accs v hv => ?_) (canonical_access c _ _ _ _ hu)) hs
  grind [CanonicalRes, canonical_launch]

theorem canonical_execAcq (w : MWord) {s : State} (hs : Canonical s) : ∀ t, execAcq w s = .next t → Canonical t := by
  grind [execAcq, canonical_issueWord, canonical_Ctx_cellWord, canonical_record, canonical_launch, CanonicalRes]

theorem canonical_execAcqTry (w : MWord) {s : State} (hs : Canonical s) : ∀ t, execAcqTry w s = .next t → Canonical t := by
  grind [execAcqTry, canonical_issueWord, canonical_Ctx_cellWord, canonical_launch, CanonicalRes]

theorem canonical_execRel (w : MWord) {s : State} (hs : Canonical s) : ∀ t, execRel w s = .next t → Canonical t := by
  grind [execRel, canonical_issueWord, canonical_Ctx_cellWord, canonical_launch, CanonicalRes]

theorem canonical_Ctx_binding (c : Ctx) {s : State} (w : MWord) (remove : Bool) (hs : Canonical s) : CanonicalRes (c.binding s w remove) := by
  grind [Ctx.binding, canonical_Ctx_cellWord, canonical_launch, CanonicalRes]

theorem canonical_execBind (w : MWord) {s : State} (hs : Canonical s) : ∀ t, execBind w s = .next t → Canonical t := by
  grind [execBind, canonical_issueWord, canonical_Ctx_binding, CanonicalRes]

theorem canonical_execUnbind (w : MWord) {s : State} (hs : Canonical s) : ∀ t, execUnbind w s = .next t → Canonical t := by
  grind [execUnbind, canonical_issueWord, canonical_Ctx_binding, CanonicalRes]

theorem canonical_discardRuns {s : State} (core : Nat) (runs : List (Nat × Nat)) (hs : Canonical s) : Canonical (s.discardRuns core runs) := by
  grind [State.discardRuns, canonical_dropGuests, canonical_updCore]

theorem canonical_updCell {s : State} (cell : Nat) (f : CellHome → CellHome) (hs : Canonical s) : Canonical (s.updCell cell f) := by
  grind [State.updCell, canonical_iff]

theorem canonical_setCell {s : State} (cell holder count tag : Nat) (effect : State → State)
    (heffect : ∀ u, Canonical u → Canonical (effect u)) (hs : Canonical s) : Canonical (s.setCell cell holder count tag effect) := by
  grind [State.setCell, canonical_updCell, canonical_register]

theorem canonical_refreshCell {s : State} (cell : Nat) (hs : Canonical s) : Canonical (s.refreshCell cell) := by
  grind [State.refreshCell, canonical_updCell]

theorem canonical_answerAcquire {s : State} (ident tag count status : Nat) (hs : Canonical s) :
    Canonical (s.answerAcquire ident tag count status) := by
  grind [State.answerAcquire, canonical_iff]

theorem canonical_granted {s : State} (cell ident tag : Nat) (hs : Canonical s) : Canonical (s.granted cell ident tag) := by
  grind [State.granted, canonical_answerAcquire, canonical_updCell]

theorem canonical_grantCell {s : State} (cell ident ctx tag : Nat) (hs : Canonical s) : Canonical (s.grantCell cell ident ctx tag) := by
  grind [State.grantCell, canonical_setCell, canonical_granted]

theorem canonical_grantNext {s : State} (cell : Nat) (hs : Canonical s) : Canonical (s.grantNext cell) := by
  grind [State.grantNext, canonical_updCell, canonical_grantCell]

theorem canonical_poisonCell {s : State} (cell : Nat) (hs : Canonical s) : Canonical (s.poisonCell cell) := by
  grind [State.poisonCell, canonical_updCell, canonical_register, canonical_answerAcquire, canonical_foldl]

theorem canonical_acquireAtHome {s : State} (id : WaveId) (w : Wave) (f : Flight) (cell : Nat) (attempt : Bool) (hs : Canonical s) :
    Canonical (s.acquireAtHome id w f cell attempt) := by
  grind [State.acquireAtHome, canonical_answerAcquire, canonical_granted, canonical_grantCell, canonical_updWave, canonical_updCell]

theorem canonical_syncFail {s : State} (id : WaveId) (f : Flight) (va : Nat) (hs : Canonical s) : Canonical (s.syncFail id f va) := by
  grind [State.syncFail, canonical_finish, canonical_deferFault]

theorem canonical_releaseAtHome {s : State} (id : WaveId) (w : Wave) (f : Flight) (cell va : Nat) (hs : Canonical s) :
    Canonical (s.releaseAtHome id w f cell va) := by
  grind [State.releaseAtHome, canonical_finish, canonical_grantNext, canonical_updCell, canonical_writeBack, canonical_syncFail,
    canonical_setCell]

theorem canonical_bindAtHome {s : State} (id : WaveId) (w : Wave) (f : Flight) (cell va len vf base : Nat) (remove : Bool) (hs : Canonical s) :
    Canonical (s.bindAtHome id w f cell va len vf base remove) := by
  grind [State.bindAtHome, canonical_syncFail, canonical_finish, canonical_updCell]

theorem canonical_linkageAtHome {s : State} (id : WaveId) (f : Flight) (cell cellVa entry reg : Nat) (hs : Canonical s) :
    Canonical (s.linkageAtHome id f cell cellVa entry reg) := by
  grind [State.linkageAtHome, canonical_finish, canonical_deferFault, canonical_syncFail, canonical_discardRuns, canonical_updCore,
    canonical_fetchLoad, canonical_finishWith, canonical_drain, canonical_updWave]

theorem canonical_evCellRequest {s : State} (id : WaveId) (tag : Nat) (hs : Canonical s) : Canonical (s.evCellRequest id tag) := by
  grind [State.evCellRequest, canonical_yieldWords, canonical_performAll, canonical_refreshCell, canonical_acquireAtHome,
    canonical_releaseAtHome, canonical_bindAtHome, canonical_linkageAtHome]

theorem canonical_execCellRequestAtHome (w : WaveId) (tag : Nat) {s : State} (hs : Canonical s) :
    ∀ t, execCellRequestAtHome w tag s = .next t → Canonical t := by
  grind [execCellRequestAtHome, canonical_evCellRequest]

theorem canonical_evAcquireGrant {s : State} (id : WaveId) (tag : Nat) (hs : Canonical s) : Canonical (s.evAcquireGrant id tag) := by
  have hresult : ∀ (ws : List RegWrite) (u : State), Canonical u →
      Canonical (((u.updWave id (fun w => w.setOp tag (.result ws))).drain id).settle id) :=
    fun _ _ hu => canonical_settle _ (canonical_drain _ (canonical_updWave _ _ hu))
  unfold State.evAcquireGrant
  dsimp only
  split
  · exact hs
  · split
    · exact hs
    · split
      · split
        · exact hresult _ _ (canonical_discardRuns _ _ hs)
        · exact hresult _ _ hs
        · split
          · exact hresult _ _ hs
          · exact canonical_ite _ (hresult _ _ hs) (canonical_finish _ _ (canonical_deferFault _ _ _ _ _ _ hs))
        · exact canonical_syncFail _ _ _ hs
      · exact hs

theorem canonical_execAcquireGrant (w : WaveId) (tag : Nat) {s : State} (hs : Canonical s) :
    ∀ t, execAcquireGrant w tag s = .next t → Canonical t := by
  grind [execAcquireGrant, canonical_evAcquireGrant]

theorem canonical_execFence (w : RWord) {s : State} (hs : Canonical s) : ∀ t, execFence w s = .next t → Canonical t := by
  grind [execFence, canonical_issueWord, canonical_Ctx_onPath, canonical_launch, CanonicalRes]

theorem canonical_fenceTry {s : State} (id : WaveId) (tag : Nat) (hs : Canonical s) : Canonical (s.fenceTry id tag) := by
  grind [State.fenceTry, canonical_performAll, canonical_finish, canonical_writeBack, canonical_acquireAll, canonical_dropGuests]

theorem canonical_Ctx_xfence (c : Ctx) {s : State} (w : RWord) (chan : Option (Nat × Word)) (hs : Canonical s) :
    CanonicalRes (c.xfence s w chan) := by
  grind [Ctx.xfence, canonical_Ctx_onPath, canonical_launch, CanonicalRes]

theorem canonical_execXfence (w : RWord) {s : State} (hs : Canonical s) : ∀ t, execXfence w s = .next t → Canonical t := by
  grind [execXfence, canonical_issueWord, canonical_Ctx_xfence, CanonicalRes]

theorem canonical_execXfenceCh (w : RWord) {s : State} (hs : Canonical s) : ∀ t, execXfenceCh w s = .next t → Canonical t := by
  grind [execXfenceCh, canonical_issueWord, canonical_Ctx_xfence, CanonicalRes]

theorem canonical_seeOthers {s : State} (core : Nat) (hs : Canonical s) : Canonical (s.seeOthers core) := by
  grind [State.seeOthers, canonical_dropGuests, canonical_updCore]

theorem canonical_xfenceTry {s : State} (id : WaveId) (tag : Nat) (hs : Canonical s) : Canonical (s.xfenceTry id tag) := by
  grind [State.xfenceTry, canonical_finish, canonical_seeOthers, canonical_writeBack]

theorem canonical_retryFences {s : State} (core : Nat) (hs : Canonical s) : Canonical (s.retryFences core) := by
  grind [State.retryFences, canonical_fenceTry, canonical_evCellRequest, canonical_xfenceTry, canonical_arriveTry, canonical_foldl]

theorem canonical_execRegistrationAck (core word : Nat) {s : State} (hs : Canonical s) :
    ∀ t, execRegistrationAck core word s = .next t → Canonical t := by
  grind [execRegistrationAck, canonical_retryFences, canonical_ackWord]

/-! ### Machine/Copy -/

theorem canonical_execXcopy (w : MWord) {s : State} (hs : Canonical s) : ∀ t, execXcopy w s = .next t → Canonical t := by
  grind [execXcopy, canonical_issueWord, canonical_Ctx_onPath, canonical_copyDecide, canonical_updWave, CanonicalRes]

theorem canonical_pruneBatches {s : State} (core : Nat) (hs : Canonical s) : Canonical (s.pruneBatches core) := by
  grind [State.pruneBatches, canonical_settle, canonical_updWave, canonical_foldl]

theorem canonical_execCpSeal (w : RWord) {s : State} (hs : Canonical s) : ∀ t, execCpSeal w s = .next t → Canonical t := by
  grind [execCpSeal, canonical_issueWord, canonical_updWave, CanonicalRes]

theorem canonical_execCpWait (w : RWord) {s : State} (hs : Canonical s) : ∀ t, execCpWait w s = .next t → Canonical t := by
  grind [execCpWait, canonical_issueWord, canonical_record, CanonicalRes]

theorem canonical_execCpWp (w : RWord) {s : State} (hs : Canonical s) : ∀ t, execCpWp w s = .next t → Canonical t := by
  grind [execCpWp, canonical_issueWord, canonical_updWave, CanonicalRes]

theorem canonical_execCpWpw (w : RWord) {s : State} (hs : Canonical s) : ∀ t, execCpWpw w s = .next t → Canonical t := by
  grind [execCpWpw, canonical_issueWord, canonical_record, CanonicalRes]

theorem canonical_engineFault {s : State} (core wg wave : Nat) (pc : Word) (code detail xinfo : Nat) (hs : Canonical s) :
    Canonical (s.engineFault core wg wave pc code detail xinfo) := by
  grind [State.engineFault, canonical_contain]

theorem canonical_copyFault {s : State} (core wg chan : Nat) (p : CopyPart) (code detail : Nat) (hs : Canonical s) :
    Canonical (s.copyFault core wg chan p code detail) := by
  grind [State.copyFault, canonical_updWg, canonical_pruneBatches, canonical_engineFault]

theorem canonical_unitDone {s : State} (core wg chan : Nat) (p : CopyPart) (hs : Canonical s) : Canonical (s.unitDone core wg chan p) := by
  grind [State.unitDone, canonical_updWg, canonical_settleWg, canonical_pruneBatches]

theorem canonical_evCopyUnit {s : State} (core wg chan : Nat) (hs : Canonical s) : Canonical (s.evCopyUnit core wg chan) := by
  have hland : ∀ (p : CopyPart) (f : Core → Core) (u : State), Canonical u → Canonical ((u.updCore core f).unitDone core wg chan p) :=
    fun _ _ _ hu => canonical_unitDone _ _ _ _ (canonical_updCore _ _ hu)
  unfold State.evCopyUnit
  dsimp only
  split
  · exact hs
  · split
    · exact hs
    · split
      · exact hs
      · split
        · split
          · exact canonical_ite _ (canonical_copyFault _ _ _ _ _ _ hs) (hland _ _ _ (canonical_touchLeaf _ _ _ hs))
          · exact canonical_copyFault _ _ _ _ _ _ hs
          · exact hland _ _ _ hs
        · split
          · exact canonical_ite _ hs (canonical_unitDone _ _ _ _ hs)
          · split
            · have hstored := fun ctx vf va bytes => canonical_register .engine ctx bytes (canonical_touchLeaf vf va true hs)
              exact canonical_ite _ (canonical_updWg _ _ _ (hstored _ _ _ _)) (canonical_unitDone _ _ _ _ (hstored _ _ _ _))
            · exact canonical_demandMap _ _ _ _ hs
            · exact canonical_copyFault _ _ _ _ _ _ hs
            · exact hs

theorem canonical_execCopyUnitVisible (core wg channel : Nat) {s : State} (hs : Canonical s) :
    ∀ t, execCopyUnitVisible core wg channel s = .next t → Canonical t := by
  grind [execCopyUnitVisible, canonical_evCopyUnit]

theorem canonical_execGather (w : MWord) {s : State} (hs : Canonical s) : ∀ t, execGather w s = .next t → Canonical t := by
  grind [execGather, canonical_issueWord, canonical_Ctx_onPath, canonical_Access_then, canonical_access, canonical_launch, canonical_updWave,
    CanonicalAccess, CanonicalRes, canonical_iff]

theorem canonical_evGatherRow {s : State} (id : WaveId) (tag lane : Nat) (hs : Canonical s) : Canonical (s.evGatherRow id tag lane) := by
  unfold State.evGatherRow
  dsimp only
  split
  · exact hs
  · split
    · exact hs
    · split
      · split
        · exact hs
        · split
          · exact canonical_pruneBatches _ (canonical_finish _ _ (canonical_engineFault _ _ _ _ _ _ _ hs))
          · have hrow := fun f => canonical_updCore id.core f hs
            exact canonical_ite _ (canonical_pruneBatches _ (canonical_finish _ _ (hrow _))) (canonical_updWave _ _ (hrow _))
      · exact hs

theorem canonical_execGatherRowLand (w : WaveId) (tag lane : Nat) {s : State} (hs : Canonical s) :
    ∀ t, execGatherRowLand w tag lane s = .next t → Canonical t := by
  grind [execGatherRowLand, canonical_evGatherRow]

theorem canonical_execChainAdd (w : MWord) {s : State} (hs : Canonical s) : ∀ t, execChainAdd w s = .next t → Canonical t := by
  refine canonical_issueWord _ _ (fun c u hu => canonical_Ctx_onPath _ _ _ (fun v hv => ?_) hu) hs
  dsimp only
  split
  · exact canonical_wait hv
  · refine canonical_Access_then _ _ (fun accs x hx => ?_) (canonical_access _ _ _ _ _ hv)
    split
    · exact hx
    · have hy := fun ws => canonical_yieldWords c.core ws (canonical_performAll c.id none hx)
      refine iteInduction (motive := CanonicalRes) ?_ ?_
      · intro _
        exact canonical_wait (hy _)
      · intro _
        split
        · exact hy _
        · refine iteInduction (motive := CanonicalRes) ?_ ?_
          · intro _
            exact hy _
          · intro _
            refine canonical_Access_then _ _ (fun es z hz => ?_) (canonical_access _ _ _ _ _ (hy _))
            split
            · exact hz
            · exact canonical_updWg _ _ _ (canonical_register _ _ _ (canonical_register _ _ _ (canonical_yieldWords _ _ hz)))

theorem canonical_execChainSeq (w : RWord) {s : State} (hs : Canonical s) : ∀ t, execChainSeq w s = .next t → Canonical t := by
  grind [execChainSeq, canonical_issueWord, canonical_launch, CanonicalRes]

theorem canonical_execChainWait (w : RWord) {s : State} (hs : Canonical s) : ∀ t, execChainWait w s = .next t → Canonical t := by
  grind [execChainWait, canonical_issueWord, canonical_record, CanonicalRes]

theorem canonical_dropTlb {s : State} (part vf va len : Nat) (hs : Canonical s) : Canonical (s.dropTlb part vf va len) := by
  grind [State.dropTlb, canonical_updCore, canonical_foldl]

theorem canonical_trimDrops {s : State} (part : Nat) (hs : Canonical s) : Canonical (s.trimDrops part) := by
  grind [State.trimDrops, canonical_dropTlb, canonical_updPart, canonical_foldl]

theorem canonical_trimPage {s : State} (part vf ctx va : Nat) (hs : Canonical s) : Canonical (s.trimPage part vf ctx va).2 := by
  grind [State.trimPage, canonical_engineWrite, canonical_updPart, canonical_trimDrops]

/-- The trims of a list of pages. -/
theorem canonical_trimPages {s : State} (part vf ctx n : Nat) (pages : List Nat) (hs : Canonical s) :
    Canonical (pages.foldl (fun (acc : Nat × State) p =>
      (if (acc.2.trimPage part vf ctx p).1 then acc.1 + 1 else acc.1, (acc.2.trimPage part vf ctx p).2)) (n, s)).2 :=
  List.foldlRecOn (motive := fun acc : Nat × State => Canonical acc.2) pages _ hs (fun _ hacc _ _ => canonical_trimPage _ _ _ _ hacc)

/-- A trim whose pages may all go, or the fault of the first that may not. -/
theorem canonicalRes_trimPages (c : Ctx) (w : MWord) (pages : List Nat) (bad : Option Nat)
    (regs : List Nat) {s : State} (hs : Canonical s) :
    CanonicalRes (match bad with
      | some p => .raise ⟨0x0D, 8, p⟩ c.eff s
      | none =>
        let (n, s) := pages.foldl (fun (acc : Nat × State) p =>
          let r := acc.2.trimPage c.wg.part c.wg.vf c.ctx p
          (if r.1 then acc.1 + 1 else acc.1, r.2)) (0, s)
        .done (s.launch c (.trim w.d.toNat n) regs)) := by
  cases bad with
  | some p => exact hs
  | none => exact canonical_launch _ _ _ (canonical_trimPages c.wg.part c.wg.vf c.ctx 0 pages hs)

theorem canonical_execKvtrim (w : MWord) {s : State} (hs : Canonical s) : ∀ t, execKvtrim w s = .next t → Canonical t := by
  refine canonical_issueWord _ _ (fun c u hu => canonical_Ctx_onPath _ _ _ (fun v hv => ?_) hu) hs
  extract_lets q word new res g off va regs first pages bad
  refine iteInduction (motive := CanonicalRes) (fun _ => ?_) (fun _ => ?_)
  · exact canonical_launch _ _ _ hv
  refine iteInduction (motive := CanonicalRes) (fun _ => canonical_wait hv) (fun _ => ?_)
  refine iteInduction (motive := CanonicalRes) (fun _ => hv) (fun _ => ?_)
  refine iteInduction (motive := CanonicalRes) (fun _ => hv) (fun _ => ?_)
  refine iteInduction (motive := CanonicalRes) (fun _ => hv) (fun _ => ?_)
  exact canonicalRes_trimPages c w pages bad regs hv

theorem canonical_returnFrame {s : State} (part : Nat) (t : TrimFrame) (hs : Canonical s) : Canonical (s.returnFrame part t) := by
  grind [State.returnFrame, canonical_setPool, canonical_engineWrite]

theorem canonical_evTrimReturn {s : State} (part : Nat) (hs : Canonical s) : Canonical (s.evTrimReturn part) := by
  have htrims := canonical_trimDrops part hs
  have hreturn : ∀ (t : TrimFrame) (f : Part → Part) (u : State), Canonical u → Canonical ((u.updPart part f).returnFrame part t) :=
    fun _ _ _ hu => canonical_returnFrame _ _ (canonical_updPart _ _ hu)
  unfold State.evTrimReturn
  dsimp only
  generalize s.trimDrops part = u at htrims ⊢
  have hcounted : ∀ (p : Nat → Bool) (count : Nat) (bs : List Byte),
      Canonical (((skeys u.cores).foldl (fun s n => s.writeBack n p) u).engineWrite 0 count bs) :=
    fun _ _ _ => canonical_engineWrite _ _ _ (canonical_foldl _ _ (fun _ _ hv => canonical_writeBack _ _ hv) htrims)
  split
  · exact htrims
  · split
    · exact canonical_updPart _ _ htrims
    · split
      · exact htrims
      · split
        · exact hreturn _ _ _ htrims
        · split
          · exact canonical_updPart _ _ (hcounted _ _ _)
          · split
            · exact hreturn _ _ _ (hcounted _ _ _)
            · have hcleared : ∀ (frame count : Nat) (p : Nat → Bool) (bs : List Byte), Canonical ((List.range 1024).foldl (fun (s : State) i =>
                  s.engineWrite 0 (frame + 64 * i) (List.replicate 64 0#8))
                  (((skeys u.cores).foldl (fun s n => s.writeBack n p) u).engineWrite 0 count bs)) :=
                fun _ _ _ _ => canonical_foldl _ _ (fun _ _ hw => canonical_engineWrite _ _ _ hw) (hcounted _ _ _)
              exact canonical_ite _ (canonical_updPart _ _ (hcleared _ _ _ _)) (hreturn _ _ _ (hcleared _ _ _ _))

theorem canonical_execTrimFrameReturn (part : Nat) {s : State} (hs : Canonical s) : ∀ t, execTrimFrameReturn part s = .next t → Canonical t := by
  grind [execTrimFrameReturn, canonical_evTrimReturn]

theorem canonical_trimWrite {s : State} (id : WaveId) (tag reg count : Nat) (hs : Canonical s) : Canonical (s.trimWrite id tag reg count) := by
  grind [State.trimWrite, canonical_trimDrops, canonical_finishWith]

theorem canonical_evVariableWrite {s : State} (id : WaveId) (tag : Nat) (hs : Canonical s) : Canonical (s.evVariableWrite id tag) := by
  grind [State.evVariableWrite, canonical_trimWrite, canonical_evVariableResult]

/-! ### Machine/Census -/

theorem canonical_updDir {s : State} (core e : Nat) (f : DirEntry → DirEntry) (hs : Canonical s) : Canonical (s.updDir core e f) := by
  grind [State.updDir, canonical_updCore]

theorem canonical_fixedScalar {s : State} (c : Ctx) (reg : Nat) (x : Word) (lat : Nat) (hs : Canonical s) :
    Canonical (s.fixedScalar c reg x lat) := by
  grind [State.fixedScalar, canonical_updWave]

theorem canonical_sendRoot {s : State} (part : Nat) (m : RootMsg) (hs : Canonical s) : Canonical (s.sendRoot part m) := by
  grind [State.sendRoot, canonical_updPart]

theorem canonical_execDirIns (w : RWord) {s : State} (hs : Canonical s) : ∀ t, execDirIns w s = .next t → Canonical t := by
  grind [execDirIns, canonical_issueWord, canonical_launch, canonical_fixedScalar, canonical_updDir, canonical_sendRoot, CanonicalRes]

theorem canonical_execDirDel (w : RWord) {s : State} (hs : Canonical s) : ∀ t, execDirDel w s = .next t → Canonical t := by
  grind [execDirDel, canonical_issueWord, canonical_launch, canonical_fixedScalar, canonical_sendRoot, CanonicalRes]

theorem canonical_execDirLook (w : RWord) {s : State} (hs : Canonical s) : ∀ t, execDirLook w s = .next t → Canonical t := by
  grind [execDirLook, canonical_issueWord, canonical_updWave, CanonicalRes]

theorem canonical_execDirMov (w : RWord) {s : State} (hs : Canonical s) : ∀ t, execDirMov w s = .next t → Canonical t := by
  grind [execDirMov, canonical_issueWord, canonical_launch, canonical_fixedScalar, canonical_updDir, CanonicalRes]

theorem canonical_dropIfOver {s : State} (core e : Nat) (hs : Canonical s) : Canonical (s.dropIfOver core e) := by
  grind [State.dropIfOver, canonical_sendDelete]

theorem canonical_evMoveCheck {s : State} (id : WaveId) (tag : Nat) (hs : Canonical s) : Canonical (s.evMoveCheck id tag) := by
  have hfail : ∀ (e : Nat) (f : DirEntry → DirEntry) (ws : List RegWrite),
      Canonical (((s.updDir id.core e f).finishWith id tag ws).dropIfOver id.core e) :=
    fun _ _ _ => canonical_dropIfOver _ _ (canonical_finishWith _ _ _ (canonical_updDir _ _ _ hs))
  unfold State.evMoveCheck
  dsimp only
  split
  · exact hs
  · split
    · exact hs
    · split
      · split
        · exact hfail _ _ _
        · split
          · split
            · exact hfail _ _ _
            · split
              · exact hfail _ _ _
              · exact canonical_updWave _ _ (canonical_updDir _ _ _ hs)
          · split
            · exact hfail _ _ _
            · split
              · exact hfail _ _ _
              · exact canonical_updWave _ _ (canonical_updDir _ _ _ hs)
      · exact hs

theorem canonical_execMoveTargetCheck (w : WaveId) (tag : Nat) {s : State} (hs : Canonical s) :
    ∀ t, execMoveTargetCheck w tag s = .next t → Canonical t := by
  grind [execMoveTargetCheck, canonical_evMoveCheck]

theorem canonical_evMoveCopy {s : State} (id : WaveId) (tag : Nat) (hs : Canonical s) : Canonical (s.evMoveCopy id tag) := by
  grind [State.evMoveCopy, canonical_updCore, canonical_updWave, canonical_sendRoot]

theorem canonical_execMoveCopyComplete (w : WaveId) (tag : Nat) {s : State} (hs : Canonical s) :
    ∀ t, execMoveCopyComplete w tag s = .next t → Canonical t := by
  grind [execMoveCopyComplete, canonical_evMoveCopy]

theorem canonical_execSol (w : RWord) {s : State} (hs : Canonical s) : ∀ t, execSol w s = .next t → Canonical t := by
  grind [execSol, canonical_issueWord, canonical_updWave, canonical_updPart, CanonicalRes]

theorem canonical_execCnsWait (w : RWord) {s : State} (hs : Canonical s) : ∀ t, execCnsWait w s = .next t → Canonical t := by
  grind [execCnsWait, canonical_issueWord, canonical_record, CanonicalRes]

theorem canonical_execCnsRd (w : RWord) {s : State} (hs : Canonical s) : ∀ t, execCnsRd w s = .next t → Canonical t := by
  grind [execCnsRd, canonical_issueWord, canonical_updWave, CanonicalRes]

theorem canonical_execRespEnd (w : RWord) {s : State} (hs : Canonical s) : ∀ t, execRespEnd w s = .next t → Canonical t := by
  grind [execRespEnd, canonical_issueWord, canonical_responderEnd, canonical_countIssue, CanonicalRes]

theorem canonical_updRecord {s : State} (part vf record : Nat) (f : Wave → Wave) (hs : Canonical s) :
    Canonical (s.updRecord part vf record f) := by
  grind [State.updRecord, canonical_updWave, canonical_updPart]

theorem canonical_orderSolicit {s : State} (part index : Nat) (hs : Canonical s) : Canonical (s.orderSolicit part index) := by
  grind [State.orderSolicit, canonical_updPart, canonical_updRecord]

theorem canonical_evRootOrder {s : State} (part index : Nat) (hs : Canonical s) : Canonical (s.evRootOrder part index) := by
  grind [State.evRootOrder, canonical_updPart, canonical_orderSolicit]

theorem canonical_rootOrderAll {s : State} (part n : Nat) (hs : Canonical s) : Canonical (s.rootOrderAll part n) := by
  induction n generalizing s with
  | zero => exact hs
  | succ n ih => grind [State.rootOrderAll, canonical_evRootOrder]

theorem canonical_execRootOrderEntry (part index : Nat) {s : State} (hs : Canonical s) :
    ∀ t, execRootOrderEntry part index s = .next t → Canonical t := by
  grind [execRootOrderEntry, canonical_evRootOrder]

theorem canonical_rootPassed {s : State} (core n : Nat) (hs : Canonical s) : Canonical (s.rootPassed core n) := by
  grind [State.rootPassed, canonical_updCore]

theorem canonical_applySolicit {s : State} (part core n : Nat) (hs : Canonical s) : Canonical (s.applySolicit part core n) := by
  grind [State.applySolicit, canonical_updPlace, canonical_updCore, canonical_startResponders]

theorem canonical_evSolicitApply {s : State} (core : Nat) (hs : Canonical s) : Canonical (s.evSolicitApply core) := by
  grind [State.evSolicitApply, canonical_applySolicit, canonical_rootPassed]

theorem canonical_execSolicitApply (core : Nat) {s : State} (hs : Canonical s) : ∀ t, execSolicitApply core s = .next t → Canonical t := by
  grind [execSolicitApply, canonical_evSolicitApply]

theorem canonical_commitResult {s : State} (id : WaveId) (tag value : Nat) (hs : Canonical s) : Canonical (s.commitResult id tag value) := by
  grind [State.commitResult, canonical_finishWith]

theorem canonical_applyCommit {s : State} (core : Nat) (m : RootMsg) (hs : Canonical s) : Canonical (s.applyCommit core m) := by
  have htidied : ∀ (e x : Nat) (f : DirEntry → DirEntry) (id : WaveId) (tag : Nat),
      Canonical (((s.updDir core e f).commitResult id tag x).tidy core) :=
    fun _ _ _ _ _ => canonical_tidy _ (canonical_commitResult _ _ _ (canonical_updDir _ _ _ hs))
  cases m with
  | insert n e id tag => exact canonical_dropIfOver _ _ (canonical_commitResult _ _ _ (canonical_updDir _ _ _ hs))
  | delete n e id tag => exact htidied _ _ _ _ _
  | move n e n' t id tag =>
    have hleft := fun p : Prop => fun [Decidable p] e x f id tag => canonical_ite p (htidied e x f id tag) hs
    exact canonical_ite _ (canonical_dropIfOver _ _ (canonical_updDir _ _ _ (hleft _ _ _ _ _ _))) (hleft _ _ _ _ _ _)
  | solicit x => exact hs

theorem canonical_evCommitApply {s : State} (core : Nat) (hs : Canonical s) : Canonical (s.evCommitApply core) := by
  grind [State.evCommitApply, canonical_applyCommit, canonical_rootPassed]

theorem canonical_execDirectoryCommitApply (core : Nat) {s : State} (hs : Canonical s) :
    ∀ t, execDirectoryCommitApply core s = .next t → Canonical t := by
  grind [execDirectoryCommitApply, canonical_evCommitApply]

theorem canonical_rootCatchUp {s : State} (part core : Nat) (hs : Canonical s) : Canonical (s.rootCatchUp part core) := by
  grind [State.rootCatchUp, canonical_updPart, canonical_rootPassed, canonical_applySolicit, canonical_applyCommit, canonical_foldl]

theorem canonical_execResponderFailure (core slot code : Nat) {s : State} (hs : Canonical s) :
    ∀ t, execResponderFailure core slot code s = .next t → Canonical t := by
  grind [execResponderFailure, canonical_responderFail]

theorem canonical_evChanter {s : State} (part place level node : Nat) (hs : Canonical s) : Canonical (s.evChanter part place level node) := by
  grind [State.evChanter, canonical_updPlace]

theorem canonical_execChanterCombine (part place level node : Nat) {s : State} (hs : Canonical s) :
    ∀ t, execChanterCombine part place level node s = .next t → Canonical t := by
  grind [execChanterCombine, canonical_evChanter]

theorem canonical_evCensusComplete {s : State} (part place : Nat) (hs : Canonical s) : Canonical (s.evCensusComplete part place) := by
  grind [State.evCensusComplete, canonical_updPart, canonical_settle, canonical_updWave, canonical_foldl]

/-! ### Machine/Integer -/

theorem canonical_Ctx_put (c : Ctx) {s : State} (ws : List RegWrite) (f : Flags) (hs : Canonical s) : CanonicalRes (c.put s ws f) := by
  grind [Ctx.put, canonical_updWave, CanonicalRes]

theorem canonical_Ctx_put32 (c : Ctx) {s : State} (d : BitVec 9) (f : Nat → Word) (hs : Canonical s) : CanonicalRes (c.put32 s d f) := by
  grind [Ctx.put32, canonical_Ctx_put, CanonicalRes]

theorem canonical_Ctx_put64 (c : Ctx) {s : State} (d : BitVec 9) (f : Nat → Nat) (hs : Canonical s) : CanonicalRes (c.put64 s d f) := by
  grind [Ctx.put64, canonical_Ctx_put, CanonicalRes]

theorem canonical_Ctx_putMask (c : Ctx) {s : State} (k : BitVec 9) (f : Nat → Bool) (hs : Canonical s) : CanonicalRes (c.putMask s k f) := by
  grind [Ctx.putMask, canonical_updWave, CanonicalRes]

theorem canonical_Ctx_putWhole (c : Ctx) {s : State} (k : BitVec 9) (m : Mask) (hs : Canonical s) : CanonicalRes (c.putWhole s k m) := by
  grind [Ctx.putWhole, canonical_updWave, CanonicalRes]

theorem canonical_Ctx_putScalar (c : Ctx) {s : State} (d : BitVec 9) (ws : List Word) (hs : Canonical s) :
    CanonicalRes (c.putScalar s d ws) := by
  grind [Ctx.putScalar, canonical_Ctx_put, CanonicalRes]

theorem canonical_Ctx_typed (c : Ctx) {s : State} (w : RWord) (f : Int → Int → Int → Int) (hs : Canonical s) : CanonicalRes (c.typed s w f) := by
  grind [Ctx.typed, canonical_Ctx_put32, CanonicalRes]

theorem canonical_Ctx_pattern (c : Ctx) {s : State} (w : RWord) (f : Nat → Nat → Nat → Int) (hs : Canonical s) :
    CanonicalRes (c.pattern s w f) := by
  grind [Ctx.pattern, canonical_Ctx_put32, CanonicalRes]

theorem canonical_Ctx_untyped (c : Ctx) {s : State} (w : RWord) (f : Word → Word → Word → Word) (hs : Canonical s) :
    CanonicalRes (c.untyped s w f) := by
  grind [Ctx.untyped, canonical_Ctx_put32, CanonicalRes]

theorem canonical_Ctx_addSub (c : Ctx) {s : State} (w : RWord) (sub : Bool) (hs : Canonical s) : CanonicalRes (c.addSub s w sub) := by
  grind [Ctx.addSub, canonical_updWave, canonical_Ctx_typed, CanonicalRes]

theorem canonical_execIadd (w : RWord) {s : State} (hs : Canonical s) : ∀ t, execIadd w s = .next t → Canonical t := by
  grind [execIadd, canonical_issueWord, canonical_Ctx_addSub, CanonicalRes]

theorem canonical_execIsub (w : RWord) {s : State} (hs : Canonical s) : ∀ t, execIsub w s = .next t → Canonical t := by
  grind [execIsub, canonical_issueWord, canonical_Ctx_addSub, CanonicalRes]

theorem canonical_execImul (w : RWord) {s : State} (hs : Canonical s) : ∀ t, execImul w s = .next t → Canonical t := by
  grind [execImul, canonical_issueWord, canonical_Ctx_typed, CanonicalRes]

theorem canonical_execImulh (w : RWord) {s : State} (hs : Canonical s) : ∀ t, execImulh w s = .next t → Canonical t := by
  grind [execImulh, canonical_issueWord, canonical_Ctx_typed, CanonicalRes]

theorem canonical_execImad (w : RWord) {s : State} (hs : Canonical s) : ∀ t, execImad w s = .next t → Canonical t := by
  grind [execImad, canonical_issueWord, canonical_Ctx_typed, CanonicalRes]

theorem canonical_execIabs (w : RWord) {s : State} (hs : Canonical s) : ∀ t, execIabs w s = .next t → Canonical t := by
  grind [execIabs, canonical_issueWord, canonical_Ctx_typed, CanonicalRes]

theorem canonical_execImin (w : RWord) {s : State} (hs : Canonical s) : ∀ t, execImin w s = .next t → Canonical t := by
  grind [execImin, canonical_issueWord, canonical_Ctx_typed, CanonicalRes]

theorem canonical_execImax (w : RWord) {s : State} (hs : Canonical s) : ∀ t, execImax w s = .next t → Canonical t := by
  grind [execImax, canonical_issueWord, canonical_Ctx_typed, CanonicalRes]

theorem canonical_execShl (w : RWord) {s : State} (hs : Canonical s) : ∀ t, execShl w s = .next t → Canonical t := by
  grind [execShl, canonical_issueWord, canonical_Ctx_pattern, CanonicalRes]

theorem canonical_execShr (w : RWord) {s : State} (hs : Canonical s) : ∀ t, execShr w s = .next t → Canonical t := by
  grind [execShr, canonical_issueWord, canonical_Ctx_pattern, CanonicalRes]

theorem canonical_execSar (w : RWord) {s : State} (hs : Canonical s) : ∀ t, execSar w s = .next t → Canonical t := by
  grind [execSar, canonical_issueWord, canonical_Ctx_pattern, CanonicalRes]

theorem canonical_execRot (w : RWord) {s : State} (hs : Canonical s) : ∀ t, execRot w s = .next t → Canonical t := by
  grind [execRot, canonical_issueWord, canonical_Ctx_pattern, CanonicalRes]

theorem canonical_execWext (w : RWord) {s : State} (hs : Canonical s) : ∀ t, execWext w s = .next t → Canonical t := by
  grind [execWext, canonical_issueWord, canonical_Ctx_untyped, CanonicalRes]

theorem canonical_execLfn (w : RWord) {s : State} (hs : Canonical s) : ∀ t, execLfn w s = .next t → Canonical t := by
  grind [execLfn, canonical_issueWord, canonical_Ctx_untyped, CanonicalRes]

theorem canonical_execAndW (w : RWord) {s : State} (hs : Canonical s) : ∀ t, execAndW w s = .next t → Canonical t := by
  grind [execAndW, canonical_issueWord, canonical_Ctx_untyped, CanonicalRes]

theorem canonical_execOrW (w : RWord) {s : State} (hs : Canonical s) : ∀ t, execOrW w s = .next t → Canonical t := by
  grind [execOrW, canonical_issueWord, canonical_Ctx_untyped, CanonicalRes]

theorem canonical_execXorW (w : RWord) {s : State} (hs : Canonical s) : ∀ t, execXorW w s = .next t → Canonical t := by
  grind [execXorW, canonical_issueWord, canonical_Ctx_untyped, CanonicalRes]

theorem canonical_execAndn (w : RWord) {s : State} (hs : Canonical s) : ∀ t, execAndn w s = .next t → Canonical t := by
  grind [execAndn, canonical_issueWord, canonical_Ctx_untyped, CanonicalRes]

theorem canonical_execNotW (w : RWord) {s : State} (hs : Canonical s) : ∀ t, execNotW w s = .next t → Canonical t := by
  grind [execNotW, canonical_issueWord, canonical_Ctx_untyped, CanonicalRes]

theorem canonical_execBfe (w : RWord) {s : State} (hs : Canonical s) : ∀ t, execBfe w s = .next t → Canonical t := by
  grind [execBfe, canonical_issueWord, canonical_Ctx_untyped, CanonicalRes]

theorem canonical_execBfi (w : RWord) {s : State} (hs : Canonical s) : ∀ t, execBfi w s = .next t → Canonical t := by
  grind [execBfi, canonical_issueWord, canonical_Ctx_untyped, CanonicalRes]

theorem canonical_execPopc (w : RWord) {s : State} (hs : Canonical s) : ∀ t, execPopc w s = .next t → Canonical t := by
  grind [execPopc, canonical_issueWord, canonical_Ctx_pattern, CanonicalRes]

theorem canonical_execClz (w : RWord) {s : State} (hs : Canonical s) : ∀ t, execClz w s = .next t → Canonical t := by
  grind [execClz, canonical_issueWord, canonical_Ctx_pattern, CanonicalRes]

theorem canonical_execCtz (w : RWord) {s : State} (hs : Canonical s) : ∀ t, execCtz w s = .next t → Canonical t := by
  grind [execCtz, canonical_issueWord, canonical_Ctx_pattern, CanonicalRes]

theorem canonical_execBrev (w : RWord) {s : State} (hs : Canonical s) : ∀ t, execBrev w s = .next t → Canonical t := by
  grind [execBrev, canonical_issueWord, canonical_Ctx_pattern, CanonicalRes]

theorem canonical_execBsel (w : RWord) {s : State} (hs : Canonical s) : ∀ t, execBsel w s = .next t → Canonical t := by
  grind [execBsel, canonical_issueWord, canonical_Ctx_untyped, CanonicalRes]

theorem canonical_execIcmp (w : RWord) {s : State} (hs : Canonical s) : ∀ t, execIcmp w s = .next t → Canonical t := by
  grind [execIcmp, canonical_issueWord, canonical_Ctx_putMask, CanonicalRes]

theorem canonical_execSel (w : RWord) {s : State} (hs : Canonical s) : ∀ t, execSel w s = .next t → Canonical t := by
  grind [execSel, canonical_issueWord, canonical_Ctx_put32, CanonicalRes]

theorem canonical_execMov (w : RWord) {s : State} (hs : Canonical s) : ∀ t, execMov w s = .next t → Canonical t := by
  grind [execMov, canonical_issueWord, canonical_Ctx_untyped, CanonicalRes]

theorem canonical_execDot4 (w : RWord) {s : State} (hs : Canonical s) : ∀ t, execDot4 w s = .next t → Canonical t := by
  grind [execDot4, canonical_issueWord, canonical_Ctx_untyped, CanonicalRes]

theorem canonical_execIsad (w : RWord) {s : State} (hs : Canonical s) : ∀ t, execIsad w s = .next t → Canonical t := by
  grind [execIsad, canonical_issueWord, canonical_Ctx_untyped, CanonicalRes]

theorem canonical_execIdiv (w : RWord) {s : State} (hs : Canonical s) : ∀ t, execIdiv w s = .next t → Canonical t := by
  grind [execIdiv, canonical_issueWord, canonical_Ctx_typed, CanonicalRes]

theorem canonical_Ctx_immediate (c : Ctx) {s : State} (w : IWord) (f : Word → Word → Word) (hs : Canonical s) :
    CanonicalRes (c.immediate s w f) := by
  grind [Ctx.immediate, canonical_Ctx_put32, CanonicalRes]

theorem canonical_execIaddi (w : IWord) {s : State} (hs : Canonical s) : ∀ t, execIaddi w s = .next t → Canonical t := by
  grind [execIaddi, canonical_issueWord, canonical_Ctx_immediate, CanonicalRes]

theorem canonical_execImuli (w : IWord) {s : State} (hs : Canonical s) : ∀ t, execImuli w s = .next t → Canonical t := by
  grind [execImuli, canonical_issueWord, canonical_Ctx_immediate, CanonicalRes]

theorem canonical_execAndi (w : IWord) {s : State} (hs : Canonical s) : ∀ t, execAndi w s = .next t → Canonical t := by
  grind [execAndi, canonical_issueWord, canonical_Ctx_immediate, CanonicalRes]

theorem canonical_execOri (w : IWord) {s : State} (hs : Canonical s) : ∀ t, execOri w s = .next t → Canonical t := by
  grind [execOri, canonical_issueWord, canonical_Ctx_immediate, CanonicalRes]

theorem canonical_execXori (w : IWord) {s : State} (hs : Canonical s) : ∀ t, execXori w s = .next t → Canonical t := by
  grind [execXori, canonical_issueWord, canonical_Ctx_immediate, CanonicalRes]

theorem canonical_execShli (w : IWord) {s : State} (hs : Canonical s) : ∀ t, execShli w s = .next t → Canonical t := by
  grind [execShli, canonical_issueWord, canonical_Ctx_immediate, CanonicalRes]

theorem canonical_execShri (w : IWord) {s : State} (hs : Canonical s) : ∀ t, execShri w s = .next t → Canonical t := by
  grind [execShri, canonical_issueWord, canonical_Ctx_immediate, CanonicalRes]

theorem canonical_execSari (w : IWord) {s : State} (hs : Canonical s) : ∀ t, execSari w s = .next t → Canonical t := by
  grind [execSari, canonical_issueWord, canonical_Ctx_immediate, CanonicalRes]

theorem canonical_execMovi (w : IWord) {s : State} (hs : Canonical s) : ∀ t, execMovi w s = .next t → Canonical t := by
  grind [execMovi, canonical_issueWord, canonical_Ctx_immediate, CanonicalRes]

theorem canonical_execMovhi (w : IWord) {s : State} (hs : Canonical s) : ∀ t, execMovhi w s = .next t → Canonical t := by
  grind [execMovhi, canonical_issueWord, canonical_Ctx_put, CanonicalRes]

theorem canonical_execIcmpi (w : IWord) {s : State} (hs : Canonical s) : ∀ t, execIcmpi w s = .next t → Canonical t := by
  grind [execIcmpi, canonical_issueWord, canonical_Ctx_putMask, CanonicalRes]

theorem canonical_Ctx_wide (c : Ctx) {s : State} (w : RWord) (f : Int → Int → Int) (hs : Canonical s) : CanonicalRes (c.wide s w f) := by
  grind [Ctx.wide, canonical_Ctx_put64, CanonicalRes]

theorem canonical_execAdd64 (w : RWord) {s : State} (hs : Canonical s) : ∀ t, execAdd64 w s = .next t → Canonical t := by
  grind [execAdd64, canonical_issueWord, canonical_Ctx_wide, CanonicalRes]

theorem canonical_execSub64 (w : RWord) {s : State} (hs : Canonical s) : ∀ t, execSub64 w s = .next t → Canonical t := by
  grind [execSub64, canonical_issueWord, canonical_Ctx_wide, CanonicalRes]

theorem canonical_execMul64 (w : RWord) {s : State} (hs : Canonical s) : ∀ t, execMul64 w s = .next t → Canonical t := by
  grind [execMul64, canonical_issueWord, canonical_Ctx_put64, CanonicalRes]

theorem canonical_execShl64 (w : RWord) {s : State} (hs : Canonical s) : ∀ t, execShl64 w s = .next t → Canonical t := by
  grind [execShl64, canonical_issueWord, canonical_Ctx_put64, CanonicalRes]

theorem canonical_execShr64 (w : RWord) {s : State} (hs : Canonical s) : ∀ t, execShr64 w s = .next t → Canonical t := by
  grind [execShr64, canonical_issueWord, canonical_Ctx_put64, CanonicalRes]

theorem canonical_execLea (w : RWord) {s : State} (hs : Canonical s) : ∀ t, execLea w s = .next t → Canonical t := by
  grind [execLea, canonical_issueWord, canonical_Ctx_put64, CanonicalRes]

theorem canonical_execCmp64 (w : RWord) {s : State} (hs : Canonical s) : ∀ t, execCmp64 w s = .next t → Canonical t := by
  grind [execCmp64, canonical_issueWord, canonical_Ctx_putMask, CanonicalRes]

theorem canonical_execSel64 (w : RWord) {s : State} (hs : Canonical s) : ∀ t, execSel64 w s = .next t → Canonical t := by
  grind [execSel64, canonical_issueWord, canonical_Ctx_put64, CanonicalRes]

theorem canonical_execMovSr (w : RWord) {s : State} (hs : Canonical s) : ∀ t, execMovSr w s = .next t → Canonical t := by
  grind [execMovSr, canonical_issueWord, canonical_Ctx_put64, canonical_Ctx_put32, CanonicalRes]

theorem canonical_execMovSs (w : RWord) {s : State} (hs : Canonical s) : ∀ t, execMovSs w s = .next t → Canonical t := by
  grind [execMovSs, canonical_issueWord, canonical_updWave, CanonicalRes]

theorem canonical_execLaneRd (w : RWord) {s : State} (hs : Canonical s) : ∀ t, execLaneRd w s = .next t → Canonical t := by
  grind [execLaneRd, canonical_issueWord, canonical_Ctx_putScalar, CanonicalRes]

theorem canonical_execLaneWr (w : RWord) {s : State} (hs : Canonical s) : ∀ t, execLaneWr w s = .next t → Canonical t := by
  grind [execLaneWr, canonical_issueWord, canonical_updWave, CanonicalRes]

theorem canonical_execKop (w : RWord) {s : State} (hs : Canonical s) : ∀ t, execKop w s = .next t → Canonical t := by
  grind [execKop, canonical_issueWord, canonical_Ctx_putWhole, CanonicalRes]

theorem canonical_execKmov (w : RWord) {s : State} (hs : Canonical s) : ∀ t, execKmov w s = .next t → Canonical t := by
  grind [execKmov, canonical_issueWord, canonical_Ctx_putWhole, canonical_Ctx_putScalar, CanonicalRes]

theorem canonical_execKpop (w : RWord) {s : State} (hs : Canonical s) : ∀ t, execKpop w s = .next t → Canonical t := by
  grind [execKpop, canonical_issueWord, canonical_Ctx_putScalar, CanonicalRes]

theorem canonical_execKffs (w : RWord) {s : State} (hs : Canonical s) : ∀ t, execKffs w s = .next t → Canonical t := by
  grind [execKffs, canonical_issueWord, canonical_Ctx_putScalar, CanonicalRes]

/-! ### Machine/Float -/

theorem canonical_Ctx_calc (c : Ctx) {s : State} (d : BitVec 9) (f : Nat → List Word × Flags) (hs : Canonical s) :
    CanonicalRes (c.calc s d f) := by
  grind [Ctx.calc, canonical_Ctx_put, CanonicalRes]

theorem canonical_Ctx_float (c : Ctx) {s : State} (w : RWord) (f : Fmt → Nat → Nat → Nat → Nat × Flags) (hs : Canonical s) :
    CanonicalRes (c.float s w f) := by
  grind [Ctx.float, canonical_Ctx_calc, CanonicalRes]

theorem canonical_Ctx_packed (c : Ctx) {s : State} (w : RWord) (f : Fmt → Nat → Nat → Nat → Nat × Flags) (hs : Canonical s) :
    CanonicalRes (c.packed s w f) := by
  grind [Ctx.packed, canonical_Ctx_calc, CanonicalRes]

theorem canonical_execFadd (w : RWord) {s : State} (hs : Canonical s) : ∀ t, execFadd w s = .next t → Canonical t := by
  grind [execFadd, canonical_issueWord, canonical_Ctx_float, CanonicalRes]

theorem canonical_execFsub (w : RWord) {s : State} (hs : Canonical s) : ∀ t, execFsub w s = .next t → Canonical t := by
  grind [execFsub, canonical_issueWord, canonical_Ctx_float, CanonicalRes]

theorem canonical_execFmul (w : RWord) {s : State} (hs : Canonical s) : ∀ t, execFmul w s = .next t → Canonical t := by
  grind [execFmul, canonical_issueWord, canonical_Ctx_float, CanonicalRes]

theorem canonical_execFma (w : RWord) {s : State} (hs : Canonical s) : ∀ t, execFma w s = .next t → Canonical t := by
  grind [execFma, canonical_issueWord, canonical_Ctx_float, CanonicalRes]

theorem canonical_execFmin (w : RWord) {s : State} (hs : Canonical s) : ∀ t, execFmin w s = .next t → Canonical t := by
  grind [execFmin, canonical_issueWord, canonical_Ctx_float, CanonicalRes]

theorem canonical_execFmax (w : RWord) {s : State} (hs : Canonical s) : ∀ t, execFmax w s = .next t → Canonical t := by
  grind [execFmax, canonical_issueWord, canonical_Ctx_float, CanonicalRes]

theorem canonical_execFcmp (w : RWord) {s : State} (hs : Canonical s) : ∀ t, execFcmp w s = .next t → Canonical t := by
  grind [execFcmp, canonical_issueWord, canonical_updWave, CanonicalRes]

theorem canonical_execFclass (w : RWord) {s : State} (hs : Canonical s) : ∀ t, execFclass w s = .next t → Canonical t := by
  grind [execFclass, canonical_issueWord, canonical_Ctx_putMask, CanonicalRes]

theorem canonical_Ctx_approx (c : Ctx) {s : State} (w : RWord) (fn : ApproxFn) (hs : Canonical s) : CanonicalRes (c.approx s w fn) := by
  grind [Ctx.approx, canonical_Ctx_float, CanonicalRes]

theorem canonical_execFrcp (w : RWord) {s : State} (hs : Canonical s) : ∀ t, execFrcp w s = .next t → Canonical t := by
  grind [execFrcp, canonical_issueWord, canonical_Ctx_approx, CanonicalRes]

theorem canonical_execFrsq (w : RWord) {s : State} (hs : Canonical s) : ∀ t, execFrsq w s = .next t → Canonical t := by
  grind [execFrsq, canonical_issueWord, canonical_Ctx_approx, CanonicalRes]

theorem canonical_execFsqrt (w : RWord) {s : State} (hs : Canonical s) : ∀ t, execFsqrt w s = .next t → Canonical t := by
  grind [execFsqrt, canonical_issueWord, canonical_Ctx_float, CanonicalRes]

theorem canonical_execFexp2 (w : RWord) {s : State} (hs : Canonical s) : ∀ t, execFexp2 w s = .next t → Canonical t := by
  grind [execFexp2, canonical_issueWord, canonical_Ctx_approx, CanonicalRes]

theorem canonical_execFlog2 (w : RWord) {s : State} (hs : Canonical s) : ∀ t, execFlog2 w s = .next t → Canonical t := by
  grind [execFlog2, canonical_issueWord, canonical_Ctx_approx, CanonicalRes]

theorem canonical_execFsin (w : RWord) {s : State} (hs : Canonical s) : ∀ t, execFsin w s = .next t → Canonical t := by
  grind [execFsin, canonical_issueWord, canonical_Ctx_approx, CanonicalRes]

theorem canonical_execFcos (w : RWord) {s : State} (hs : Canonical s) : ∀ t, execFcos w s = .next t → Canonical t := by
  grind [execFcos, canonical_issueWord, canonical_Ctx_approx, CanonicalRes]

theorem canonical_execFround (w : RWord) {s : State} (hs : Canonical s) : ∀ t, execFround w s = .next t → Canonical t := by
  grind [execFround, canonical_issueWord, canonical_Ctx_float, CanonicalRes]

theorem canonical_execFfract (w : RWord) {s : State} (hs : Canonical s) : ∀ t, execFfract w s = .next t → Canonical t := by
  grind [execFfract, canonical_issueWord, canonical_Ctx_float, CanonicalRes]

theorem canonical_execFldexp (w : RWord) {s : State} (hs : Canonical s) : ∀ t, execFldexp w s = .next t → Canonical t := by
  grind [execFldexp, canonical_issueWord, canonical_Ctx_float, CanonicalRes]

theorem canonical_execFexs (w : RWord) {s : State} (hs : Canonical s) : ∀ t, execFexs w s = .next t → Canonical t := by
  grind [execFexs, canonical_issueWord, canonical_Ctx_float, CanonicalRes]

theorem canonical_execFtanh (w : RWord) {s : State} (hs : Canonical s) : ∀ t, execFtanh w s = .next t → Canonical t := by
  grind [execFtanh, canonical_issueWord, canonical_Ctx_approx, CanonicalRes]

theorem canonical_execHadd2 (w : RWord) {s : State} (hs : Canonical s) : ∀ t, execHadd2 w s = .next t → Canonical t := by
  grind [execHadd2, canonical_issueWord, canonical_Ctx_packed, CanonicalRes]

theorem canonical_execHmul2 (w : RWord) {s : State} (hs : Canonical s) : ∀ t, execHmul2 w s = .next t → Canonical t := by
  grind [execHmul2, canonical_issueWord, canonical_Ctx_packed, CanonicalRes]

theorem canonical_execHfma2 (w : RWord) {s : State} (hs : Canonical s) : ∀ t, execHfma2 w s = .next t → Canonical t := by
  grind [execHfma2, canonical_issueWord, canonical_Ctx_packed, CanonicalRes]

theorem canonical_execHmax2 (w : RWord) {s : State} (hs : Canonical s) : ∀ t, execHmax2 w s = .next t → Canonical t := by
  grind [execHmax2, canonical_issueWord, canonical_Ctx_packed, CanonicalRes]

theorem canonical_execFdot2 (w : RWord) {s : State} (hs : Canonical s) : ∀ t, execFdot2 w s = .next t → Canonical t := by
  grind [execFdot2, canonical_issueWord, canonical_Ctx_float, CanonicalRes]

/-! ### Machine/WaveWide -/

theorem canonical_execVote (w : RWord) {s : State} (hs : Canonical s) : ∀ t, execVote w s = .next t → Canonical t := by
  grind [execVote, canonical_issueWord, canonical_Ctx_putWhole, canonical_Ctx_putScalar, CanonicalRes]

theorem canonical_execMatchL (w : RWord) {s : State} (hs : Canonical s) : ∀ t, execMatchL w s = .next t → Canonical t := by
  grind [execMatchL, canonical_issueWord, canonical_Ctx_put32, CanonicalRes]

theorem canonical_execXlane (w : RWord) {s : State} (hs : Canonical s) : ∀ t, execXlane w s = .next t → Canonical t := by
  grind [execXlane, canonical_issueWord, canonical_Ctx_put32, CanonicalRes]

theorem canonical_execRed (w : RWord) {s : State} (hs : Canonical s) : ∀ t, execRed w s = .next t → Canonical t := by
  grind [execRed, canonical_issueWord, canonical_Ctx_calc, CanonicalRes]

theorem canonical_execScan (w : RWord) {s : State} (hs : Canonical s) : ∀ t, execScan w s = .next t → Canonical t := by
  grind [execScan, canonical_issueWord, canonical_Ctx_put, CanonicalRes]

theorem canonical_execElect (w : RWord) {s : State} (hs : Canonical s) : ∀ t, execElect w s = .next t → Canonical t := by
  grind [execElect, canonical_issueWord, canonical_Ctx_putWhole, canonical_Ctx_putScalar, CanonicalRes]

theorem canonical_execUchk (w : RWord) {s : State} (hs : Canonical s) : ∀ t, execUchk w s = .next t → Canonical t := by
  grind [execUchk, canonical_issueWord, canonical_Ctx_putScalar, CanonicalRes]

/-! ### Machine/Matrix -/

theorem canonical_execMres (w : RWord) {s : State} (hs : Canonical s) : ∀ t, execMres w s = .next t → Canonical t := by
  grind [execMres, canonical_issueWord, canonical_updWave, canonical_updWg, CanonicalRes]

theorem canonical_sweepHandles {s : State} (core i : Nat) (hs : Canonical s) : Canonical (s.sweepHandles core i) := by
  grind [State.sweepHandles, canonical_updWg, canonical_foldl]

theorem canonical_execMfree (w : RWord) {s : State} (hs : Canonical s) : ∀ t, execMfree w s = .next t → Canonical t := by
  grind [execMfree, canonical_issueWord, canonical_sweepHandles, canonical_updWg, CanonicalRes]

theorem canonical_Ctx_command (c : Ctx) {s : State} (w : RWord) (op : CmdOp) (units : Nat) (hs : Canonical s) :
    CanonicalRes (c.command s w op units) := by
  grind [Ctx.command, canonical_wait, canonical_updCore, canonical_updWave, CanonicalRes, canonical_foldl]

theorem canonical_Ctx_product (c : Ctx) {s : State} (w : RWord) (kind : Nat) (hs : Canonical s) : CanonicalRes (c.product s w kind) := by
  grind [Ctx.product, canonical_Ctx_onPath, canonical_Ctx_command, CanonicalRes]

theorem canonical_execMmaQ (w : RWord) {s : State} (hs : Canonical s) : ∀ t, execMmaQ w s = .next t → Canonical t := by
  grind [execMmaQ, canonical_issueWord, canonical_Ctx_product, CanonicalRes]

theorem canonical_execMma (w : RWord) {s : State} (hs : Canonical s) : ∀ t, execMma w s = .next t → Canonical t := by
  grind [execMma, canonical_issueWord, canonical_Ctx_product, CanonicalRes]

theorem canonical_execMqk (w : RWord) {s : State} (hs : Canonical s) : ∀ t, execMqk w s = .next t → Canonical t := by
  grind [execMqk, canonical_issueWord, canonical_Ctx_product, CanonicalRes]

theorem canonical_execMsv (w : RWord) {s : State} (hs : Canonical s) : ∀ t, execMsv w s = .next t → Canonical t := by
  grind [execMsv, canonical_issueWord, canonical_Ctx_product, CanonicalRes]

theorem canonical_execMrow (w : RWord) {s : State} (hs : Canonical s) : ∀ t, execMrow w s = .next t → Canonical t := by
  grind [execMrow, canonical_issueWord, canonical_Ctx_onPath, canonical_Ctx_command, CanonicalRes]

theorem canonical_execMscale (w : RWord) {s : State} (hs : Canonical s) : ∀ t, execMscale w s = .next t → Canonical t := by
  grind [execMscale, canonical_issueWord, canonical_Ctx_onPath, canonical_Ctx_command, CanonicalRes]

theorem canonical_execMtrans (w : RWord) {s : State} (hs : Canonical s) : ∀ t, execMtrans w s = .next t → Canonical t := by
  grind [execMtrans, canonical_issueWord, canonical_Ctx_onPath, canonical_Ctx_command, CanonicalRes]

theorem canonical_execMzero (w : RWord) {s : State} (hs : Canonical s) : ∀ t, execMzero w s = .next t → Canonical t := by
  grind [execMzero, canonical_issueWord, canonical_Ctx_onPath, canonical_Ctx_command, CanonicalRes]

theorem canonical_Ctx_mwait (c : Ctx) {s : State} (id : Option (BitVec 16)) (hs : Canonical s) : CanonicalRes (c.mwait s id) := by
  grind [Ctx.mwait, canonical_launch, canonical_wait, canonical_updWave, CanonicalRes]

theorem canonical_execMwait (w : RWord) {s : State} (hs : Canonical s) : ∀ t, execMwait w s = .next t → Canonical t := by
  grind [execMwait, canonical_issueWord, canonical_Ctx_mwait, CanonicalRes]

theorem canonical_execMwaitAll (w : RWord) {s : State} (hs : Canonical s) : ∀ t, execMwaitAll w s = .next t → Canonical t := by
  grind [execMwaitAll, canonical_issueWord, canonical_Ctx_mwait, CanonicalRes]

theorem canonical_mwaitTry {s : State} (id : WaveId) (f : Flight) (nums : List Nat) (hs : Canonical s) : Canonical (s.mwaitTry id f nums) := by
  grind [State.mwaitTry, canonical_finish]

theorem canonical_execSmpLd (w : RWord) {s : State} (hs : Canonical s) : ∀ t, execSmpLd w s = .next t → Canonical t := by
  grind [execSmpLd, canonical_issueWord, canonical_launch, canonical_updCore, CanonicalRes]

theorem canonical_evSmpImage {s : State} (id : WaveId) (tag : Nat) (hs : Canonical s) : Canonical (s.evSmpImage id tag) := by
  grind [State.evSmpImage, canonical_updCore, canonical_finishWith]

theorem canonical_execSmpImageFetchComplete (w : WaveId) (tag : Nat) {s : State} (hs : Canonical s) :
    ∀ t, execSmpImageFetchComplete w tag s = .next t → Canonical t := by
  grind [execSmpImageFetchComplete, canonical_evSmpImage]

theorem canonical_startCmd {s : State} (core : Nat) (k : Cmd) (o : CmdOut) (hs : Canonical s) : Canonical (s.startCmd core k o) := by
  grind [State.startCmd, canonical_updCore]

theorem canonical_evMatrixStart {s : State} (core cmd : Nat) (hs : Canonical s) : Canonical (s.evMatrixStart core cmd) := by
  grind [State.evMatrixStart, canonical_updCore, canonical_startCmd]

theorem canonical_execMatrixCommandStart (core cmd : Nat) {s : State} (hs : Canonical s) :
    ∀ t, execMatrixCommandStart core cmd s = .next t → Canonical t := by
  grind [execMatrixCommandStart, canonical_evMatrixStart]

theorem canonical_countTile {s : State} (core part : Nat) (k : Cmd) (d : Nat × Word × Nat × Nat) (hs : Canonical s) :
    Canonical (s.countTile core part k d) := by
  grind [State.countTile, canonical_updCore]

theorem canonical_retireCmd {s : State} (core : Nat) (k : Cmd) (hs : Canonical s) : Canonical (s.retireCmd core k) := by
  grind [State.retireCmd, canonical_updCore, canonical_updWave, canonical_countTile, canonical_sweepHandles, canonical_foldl]

theorem canonical_evShadow {s : State} (core : Nat) (hs : Canonical s) : Canonical (s.evShadow core) := by
  unfold State.evShadow
  dsimp only
  split
  · have htelemetry := fun part f entry => canonical_telemetry part entry (canonical_updCore core f hs)
    exact canonical_ite _ (canonical_faultTrigger _ _ _ (htelemetry _ _ _)) (htelemetry _ _ _)
  · exact hs

theorem canonical_execShadowCheckComplete (core : Nat) {s : State} (hs : Canonical s) :
    ∀ t, execShadowCheckComplete core s = .next t → Canonical t := by
  grind [execShadowCheckComplete, canonical_evShadow]

/-! ### Machine/Ladder -/

theorem canonical_Ctx_ladder (c : Ctx) {s : State} (w : RWord) (block : Nat) (tile : Option Nat) (op : CmdOp) (units : Nat) (hs : Canonical s) :
    CanonicalRes (c.ladder s w block tile op units) := by
  grind [Ctx.ladder, canonical_Ctx_onPath, canonical_Ctx_command, CanonicalRes]

theorem canonical_execLadInit (w : RWord) {s : State} (hs : Canonical s) : ∀ t, execLadInit w s = .next t → Canonical t := by
  grind [execLadInit, canonical_issueWord, canonical_Ctx_ladder, CanonicalRes]

theorem canonical_execLadPush (w : RWord) {s : State} (hs : Canonical s) : ∀ t, execLadPush w s = .next t → Canonical t := by
  grind [execLadPush, canonical_issueWord, canonical_Ctx_ladder, CanonicalRes]

theorem canonical_execLadBlend (w : RWord) {s : State} (hs : Canonical s) : ∀ t, execLadBlend w s = .next t → Canonical t := by
  grind [execLadBlend, canonical_issueWord, canonical_Ctx_ladder, CanonicalRes]

theorem canonical_rungFail {s : State} (id : WaveId) (f : Flight) (reason : Nat) (hs : Canonical s) : Canonical (s.rungFail id f reason) := by
  grind [State.rungFail, canonical_finish, canonical_deferFault]

theorem canonical_rungTry {s : State} (id : WaveId) (tag : Nat) (hs : Canonical s) : Canonical (s.rungTry id tag) := by
  have hfail := fun f r => canonical_rungFail id f r hs
  have hdone := fun ws => canonical_finishWith id tag ws hs
  unfold State.rungTry
  dsimp only
  split
  · exact hs
  · split
    · split
      · split
        · exact hs
        · split
          · exact hfail _ _
          · split
            · exact hfail _ _
            · split
              · exact hdone _
              · exact canonical_ite _ (canonical_finish _ _ (canonical_updCore _ _ hs)) (hdone _)
      · exact hs
    · exact hs

theorem canonical_Ctx_rung (c : Ctx) {s : State} (w : RWord) (form : Nat) (hs : Canonical s) : CanonicalRes (c.rung s w form) := by
  grind [Ctx.rung, canonical_Ctx_onPath, canonical_launch, canonical_rungTry, CanonicalRes]

theorem canonical_execLadRungLd (w : RWord) {s : State} (hs : Canonical s) : ∀ t, execLadRungLd w s = .next t → Canonical t := by
  grind [execLadRungLd, canonical_issueWord, canonical_Ctx_rung, CanonicalRes]

theorem canonical_execLadRungSt (w : RWord) {s : State} (hs : Canonical s) : ∀ t, execLadRungSt w s = .next t → Canonical t := by
  grind [execLadRungSt, canonical_issueWord, canonical_Ctx_rung, CanonicalRes]

theorem canonical_execLadRungCnt (w : RWord) {s : State} (hs : Canonical s) : ∀ t, execLadRungCnt w s = .next t → Canonical t := by
  grind [execLadRungCnt, canonical_issueWord, canonical_Ctx_rung, CanonicalRes]

theorem canonical_evLadderStart {s : State} (core cmd : Nat) (hs : Canonical s) : Canonical (s.evLadderStart core cmd) := by
  grind [State.evLadderStart, canonical_startCmd]

theorem canonical_execLadderCommandStart (core cmd : Nat) {s : State} (hs : Canonical s) :
    ∀ t, execLadderCommandStart core cmd s = .next t → Canonical t := by
  grind [execLadderCommandStart, canonical_evLadderStart]

theorem canonical_retryCommands {s : State} (core : Nat) (hs : Canonical s) : Canonical (s.retryCommands core) := by
  grind [State.retryCommands, canonical_mwaitTry, canonical_rungTry, canonical_xfenceTry, canonical_foldl]

theorem canonical_evMatrixRetire {s : State} (core cmd : Nat) (hs : Canonical s) : Canonical (s.evMatrixRetire core cmd) := by
  grind [State.evMatrixRetire, canonical_tidy, canonical_retryCommands, canonical_retireCmd]

theorem canonical_execMatrixCommandRetire (core cmd : Nat) {s : State} (hs : Canonical s) :
    ∀ t, execMatrixCommandRetire core cmd s = .next t → Canonical t := by
  grind [execMatrixCommandRetire, canonical_evMatrixRetire]

theorem canonical_evResult {s : State} (id : WaveId) (tag : Nat) (hs : Canonical s) : Canonical (s.evResult id tag) := by
  grind [State.evResult, canonical_mwaitTry, canonical_rungTry, canonical_xfenceTry, canonical_evVariableWrite]

theorem canonical_execVariableResultWrite (w : WaveId) (tag : Nat) {s : State} (hs : Canonical s) :
    ∀ t, execVariableResultWrite w tag s = .next t → Canonical t := by
  grind [execVariableResultWrite, canonical_evResult]

/-! ### Machine/Place -/

theorem canonical_saveFixed {s : State} (g : Workgroup) (w : Wave) (token : Bool) (hs : Canonical s) : Canonical (s.saveFixed g w token) := by
  grind [State.saveFixed, canonical_recordPut]

theorem canonical_saveRecord {s : State} (id : WaveId) (g : Workgroup) (w : Wave) (token : Bool) (hs : Canonical s) :
    Canonical (s.saveRecord id g w token) := by
  grind [State.saveRecord, canonical_recordPut, canonical_saveFixed, canonical_foldl]

/-! ### Machine/Assume -/

theorem canonical_updObject {s : State} (part h : Nat) (f : AsmObject → AsmObject) (hs : Canonical s) : Canonical (s.updObject part h f) := by
  grind [State.updObject, canonical_updPart]

theorem canonical_updRegion {s : State} (part n : Nat) (f : Region → Region) (hs : Canonical s) : Canonical (s.updRegion part n f) := by
  grind [State.updRegion, canonical_updPart]

theorem canonical_unwatch {s : State} (part h : Nat) (hs : Canonical s) : Canonical (s.unwatch part h) := by
  grind [State.unwatch, canonical_iff]

theorem canonical_asmNew {s : State} (core part vf ctx : Nat) (mask : BitVec 8) (va pa : Nat) (hs : Canonical s) :
    ∀ x t, s.asmNew core part vf ctx mask va pa = .ok (x, t) → Canonical t := by
  grind [State.asmNew, canonical_updObject]

theorem canonical_asmArm {s : State} (part ctx h : Nat) (hs : Canonical s) : ∀ x t, s.asmArm part ctx h = .ok (x, t) → Canonical t := by
  grind [State.asmArm, canonical_updObject, canonical_iff]

theorem canonical_asmDep {s : State} (core part ctx : Nat) (mask : BitVec 8) (va pa base : Nat) (hs : Canonical s) :
    ∀ x t, s.asmDep core part ctx mask va pa base = .ok (x, t) → Canonical t := by
  grind [State.asmDep, canonical_updRegion]

theorem canonical_asmTest {s : State} (part ctx : Nat) (region : Bool) (n : Nat) (hs : Canonical s) :
    ∀ x t, s.asmTest part ctx region n = .ok (x, t) → Canonical t := by
  grind [State.asmTest]

theorem canonical_asmDrop {s : State} (part ctx : Nat) (region : Bool) (n : Nat) (hs : Canonical s) :
    ∀ x t, s.asmDrop part ctx region n = .ok (x, t) → Canonical t := by
  grind [State.asmDrop, canonical_updRegion, canonical_updObject, canonical_unwatch]

theorem canonical_evRegistry {s : State} (id : WaveId) (tag : Nat) (hs : Canonical s) : Canonical (s.evRegistry id tag) := by
  unfold State.evRegistry
  dsimp only
  split
  · exact hs
  · split
    · split
      · next op reg _ =>
        have hsent := fun p : Prop => fun [Decidable p] => canonical_ite p hs (canonical_performAll id (some tag) hs)
        refine canonical_ite _ (hsent _) ?_
        split
        · next h =>
          refine canonical_finishWith _ _ _ ?_
          cases op with
          | newObject va pa => exact canonical_asmNew _ _ _ _ _ _ _ (hsent _) _ _ h
          | arm n => exact canonical_asmArm _ _ _ (hsent _) _ _ h
          | depend va pa base => exact canonical_asmDep _ _ _ _ _ _ _ (hsent _) _ _ h
          | test region n => exact canonical_asmTest _ _ _ _ (hsent _) _ _ h
          | drop region n => exact canonical_asmDrop _ _ _ _ (hsent _) _ _ h
        · exact canonical_finish _ _ (canonical_deferFault _ _ _ _ _ _ (hsent _))
      · exact hs
    · exact hs

theorem canonical_execRegistryOperation (w : WaveId) (tag : Nat) {s : State} (hs : Canonical s) :
    ∀ t, execRegistryOperation w tag s = .next t → Canonical t := by
  grind [execRegistryOperation, canonical_evRegistry]

theorem canonical_Ctx_registryOp (c : Ctx) {s : State} (w : RWord) (op : AsmOp) (hs : Canonical s) : CanonicalRes (c.registryOp s w op) := by
  grind [Ctx.registryOp, canonical_launch, CanonicalRes]

theorem canonical_Ctx_asmDesc (c : Ctx) {s : State} (w : RWord) (size : Nat) (op : Nat → Nat → AsmOp) (hs : Canonical s) :
    CanonicalRes (c.asmDesc s w size op) := by
  grind [Ctx.asmDesc, canonical_Ctx_onPath, canonical_launch, canonical_Access_then, canonical_access, canonical_Ctx_registryOp, CanonicalAccess,
    CanonicalRes]

theorem canonical_Ctx_asmNamed (c : Ctx) {s : State} (w : RWord) (region : Bool) (op : Nat → AsmOp) (hs : Canonical s) :
    CanonicalRes (c.asmNamed s w region op) := by
  grind [Ctx.asmNamed, canonical_Ctx_onPath, canonical_launch, canonical_Ctx_registryOp, CanonicalRes]

theorem canonical_execAsmNew (w : RWord) {s : State} (hs : Canonical s) : ∀ t, execAsmNew w s = .next t → Canonical t := by
  grind [execAsmNew, canonical_issueWord, canonical_Ctx_asmDesc, CanonicalRes]

theorem canonical_execAsmArm (w : RWord) {s : State} (hs : Canonical s) : ∀ t, execAsmArm w s = .next t → Canonical t := by
  grind [execAsmArm, canonical_issueWord, canonical_Ctx_asmNamed, CanonicalRes]

theorem canonical_execAsmDep (w : RWord) {s : State} (hs : Canonical s) : ∀ t, execAsmDep w s = .next t → Canonical t := by
  grind [execAsmDep, canonical_issueWord, canonical_Ctx_asmDesc, CanonicalRes]

theorem canonical_execAsmTestObj (w : RWord) {s : State} (hs : Canonical s) : ∀ t, execAsmTestObj w s = .next t → Canonical t := by
  grind [execAsmTestObj, canonical_issueWord, canonical_Ctx_asmNamed, CanonicalRes]

theorem canonical_execAsmTestReg (w : RWord) {s : State} (hs : Canonical s) : ∀ t, execAsmTestReg w s = .next t → Canonical t := by
  grind [execAsmTestReg, canonical_issueWord, canonical_Ctx_asmNamed, CanonicalRes]

theorem canonical_execAsmDropObj (w : RWord) {s : State} (hs : Canonical s) : ∀ t, execAsmDropObj w s = .next t → Canonical t := by
  grind [execAsmDropObj, canonical_issueWord, canonical_Ctx_asmNamed, CanonicalRes]

theorem canonical_execAsmDropReg (w : RWord) {s : State} (hs : Canonical s) : ∀ t, execAsmDropReg w s = .next t → Canonical t := by
  grind [execAsmDropReg, canonical_issueWord, canonical_Ctx_asmNamed, CanonicalRes]

theorem canonical_Ctx_asmInfo (c : Ctx) {s : State} (w : RWord) (minor : Nat) (hs : Canonical s) : CanonicalRes (c.asmInfo s w minor) := by
  grind [Ctx.asmInfo, canonical_Ctx_onPath, canonical_launch, canonical_wait, canonical_Access_then, canonical_access, canonical_writeLocal,
    canonical_performAll, canonical_fillPriv, CanonicalAccess, CanonicalRes]

theorem canonical_execAsmInfoPc (w : RWord) {s : State} (hs : Canonical s) : ∀ t, execAsmInfoPc w s = .next t → Canonical t := by
  grind [execAsmInfoPc, canonical_issueWord, canonical_Ctx_asmInfo, CanonicalRes]

theorem canonical_execAsmInfoRec (w : RWord) {s : State} (hs : Canonical s) : ∀ t, execAsmInfoRec w s = .next t → Canonical t := by
  grind [execAsmInfoRec, canonical_issueWord, canonical_Ctx_asmInfo, CanonicalRes]

theorem canonical_execAsmInfoClr (w : RWord) {s : State} (hs : Canonical s) : ∀ t, execAsmInfoClr w s = .next t → Canonical t := by
  grind [execAsmInfoClr, canonical_issueWord, canonical_Ctx_asmInfo, CanonicalRes]

/-! ### Machine/Revoke -/

theorem canonical_afterRelease {s : State} (h : HeldWrite) (hs : Canonical s) : Canonical (s.afterRelease h) := by
  grind [State.afterRelease, canonical_retryFences, canonical_ackWord, canonical_foldl]

theorem canonical_releaseHeld {s : State} (h : HeldWrite) (hs : Canonical s) : Canonical (s.releaseHeld h) := by
  grind [State.releaseHeld, canonical_afterRelease, canonical_commitHeld, canonical_iff]

theorem canonical_evHeldRelease {s : State} (num : Nat) (hs : Canonical s) : Canonical (s.evHeldRelease num) := by
  grind [State.evHeldRelease, canonical_updObject, canonical_releaseHeld, canonical_foldl]

theorem canonical_execHeldWriteSliceRelease (held : Nat) {s : State} (hs : Canonical s) :
    ∀ t, execHeldWriteSliceRelease held s = .next t → Canonical t := by
  grind [execHeldWriteSliceRelease, canonical_evHeldRelease]

theorem canonical_startRevocation {s : State} (part slot : Nat) (h : HeldWrite) (objs : List Nat) (hs : Canonical s) :
    Canonical (s.startRevocation part slot h objs) := by
  grind [State.startRevocation, canonical_updObject, canonical_updRegion, canonical_updPart, canonical_foldl, canonical_iff]

theorem canonical_evWatchReport {s : State} (num : Nat) (hs : Canonical s) : Canonical (s.evWatchReport num) := by
  grind [State.evWatchReport, canonical_startRevocation, canonical_updPart]

theorem canonical_execWatchReportAtRegistry (held : Nat) {s : State} (hs : Canonical s) :
    ∀ t, execWatchReportAtRegistry held s = .next t → Canonical t := by
  grind [execWatchReportAtRegistry, canonical_evWatchReport]

theorem canonical_revokeWave {s : State} (part : Nat) (regions : List Nat) (id : WaveId) (hs : Canonical s) :
    Canonical (s.revokeWave part regions id) := by
  grind [State.revokeWave, canonical_setWave, canonical_rebalance, canonical_settle, canonical_divertWave]

theorem canonical_parkHold {s : State} (id : WaveId) (w : Wave) (va : Nat) (hs : Canonical s) : Canonical (s.parkHold id w va) := by
  grind [State.parkHold, canonical_rebalance, canonical_setWave]

theorem canonical_parkHolds {s : State} (core : Nat) (hs : Canonical s) : Canonical (s.parkHolds core) := by
  grind [State.parkHolds, canonical_parkHold, canonical_foldl]

theorem canonical_evRevokeApply {s : State} (core part slot : Nat) (hs : Canonical s) : Canonical (s.evRevokeApply core part slot) := by
  grind [State.evRevokeApply, canonical_updPart, canonical_parkHolds, canonical_updCore, canonical_revokeWave, canonical_foldl]

theorem canonical_execRevokeApply (core part slot : Nat) {s : State} (hs : Canonical s) :
    ∀ t, execRevokeApply core part slot s = .next t → Canonical t := by
  grind [execRevokeApply, canonical_evRevokeApply]

theorem canonical_evRevokeCombine {s : State} (part slot : Nat) (hs : Canonical s) : Canonical (s.evRevokeCombine part slot) := by
  grind [State.evRevokeCombine, canonical_updPart]

theorem canonical_execRevokeAckCombine (part slot : Nat) {s : State} (hs : Canonical s) :
    ∀ t, execRevokeAckCombine part slot s = .next t → Canonical t := by
  grind [execRevokeAckCombine, canonical_evRevokeCombine]

theorem canonical_evRevokeRelease {s : State} (part slot : Nat) (hs : Canonical s) : Canonical (s.evRevokeRelease part slot) := by
  grind [State.evRevokeRelease, canonical_releaseHeld, canonical_updObject, canonical_unwatch, canonical_updPart, canonical_foldl, canonical_iff]

theorem canonical_execRevokeRelease (part slot : Nat) {s : State} (hs : Canonical s) :
    ∀ t, execRevokeRelease part slot s = .next t → Canonical t := by
  grind [execRevokeRelease, canonical_evRevokeRelease]

theorem canonical_evSlotFree {s : State} (part slot : Nat) (hs : Canonical s) : Canonical (s.evSlotFree part slot) := by
  grind [State.evSlotFree, canonical_updPart, canonical_iff]

theorem canonical_execRevocationSlotFree (part slot : Nat) {s : State} (hs : Canonical s) :
    ∀ t, execRevocationSlotFree part slot s = .next t → Canonical t := by
  grind [execRevocationSlotFree, canonical_evSlotFree]

/-! ### Machine/Preempt -/

theorem canonical_cancelMoves {s : State} (part core i : Nat) (hs : Canonical s) : Canonical (s.cancelMoves part core i) := by
  grind [State.cancelMoves, canonical_updDir, canonical_finishWith, canonical_foldl]

theorem canonical_saveRefs {s : State} (g : Workgroup) (w : Wave) (hs : Canonical s) : Canonical (s.saveRefs g w) := by
  unfold State.saveRefs
  refine canonical_ite _ hs (canonical_foldl _ _ (fun u l hu => ?_) hs)
  dsimp only
  split
  · exact hu
  · exact canonical_recordPut _ _ _ _ (canonical_recordPut _ _ _ _ (canonical_recordPut _ _ _ _ hu))

theorem canonical_saveWg {s : State} (core i : Nat) (hs : Canonical s) : Canonical (s.saveWg core i) := by
  grind [State.saveWg, canonical_divertPoint, canonical_writeBack, canonical_rootCatchUp, canonical_cancelMoves, canonical_dropPriv,
    canonical_saveRefs, canonical_saveRecord, canonical_saveFixed, canonical_updCore, canonical_updPart, canonical_rebalance, canonical_foldl]

theorem canonical_saveEnsemble {s : State} (core i : Nat) (hs : Canonical s) : Canonical (s.saveEnsemble core i) := by
  grind [State.saveEnsemble, canonical_saveWg, canonical_foldl]

theorem canonical_evSoftEvict {s : State} (core i : Nat) (hs : Canonical s) : Canonical (s.evSoftEvict core i) := by
  grind [State.evSoftEvict, canonical_saveEnsemble]

theorem canonical_execSoftPreemptionEvict (core wg : Nat) {s : State} (hs : Canonical s) :
    ∀ t, execSoftPreemptionEvict core wg s = .next t → Canonical t := by
  grind [execSoftPreemptionEvict, canonical_evSoftEvict]

theorem canonical_evHardPreempt {s : State} (core : Nat) (hs : Canonical s) : Canonical (s.evHardPreempt core) := by
  grind [State.evHardPreempt, canonical_saveWg, canonical_updCore, canonical_telemetry, canonical_foldl]

theorem canonical_restoreRefs {s : State} (g : Workgroup) (w : Wave) (hs : Canonical s) : Canonical (s.restoreRefs g w).2.2 := by
  unfold State.restoreRefs
  split
  · exact hs
  · refine List.foldlRecOn (motive := fun acc : Wave × Bool × State => Canonical acc.2.2) lanes _ hs (fun acc hacc l _ => ?_)
    dsimp only
    split
    · exact hacc
    · split
      · exact canonical_recordPut _ _ _ _ hacc
      · exact canonical_recordPut _ _ _ _ (canonical_recordPut _ _ _ _ hacc)

theorem canonical_placeSaved {s : State} (x : Saved) (core : Nat) (r : Room) (hs : Canonical s) : Canonical (s.placeSaved x core r) := by
  have hcaught := canonical_rootCatchUp x.wg.part core hs
  unfold State.placeSaved
  refine canonical_foldl _ _ (fun _ _ hu => canonical_rebalance _ _ hu) (canonical_updPart _ _ (canonical_updCore _ _ (canonical_cells _ ?_)))
  refine canonical_foldl _ _ (fun _ _ hu => canonical_setWave _ _ hu) (canonical_setWg _ _ _ ?_)
  exact List.foldlRecOn (motive := fun acc : List (WaveId × Wave × Bool) × State => Canonical acc.2) _ _ hcaught
    (fun _ hacc _ _ => canonical_restoreRefs _ _ hacc)

theorem canonical_restore {s : State} (part : Nat) (x : Saved) (core : Nat) (hs : Canonical s) : CanonicalRestore (s.restore part x core) := by
  grind [State.restore, canonical_placeSaved, CanonicalRestore, canonical_foldl]

theorem canonical_inLimbo {s : State} (part index : Nat) (f : State → State) (hf : ∀ u, Canonical u → Canonical (f u))
    (hs : Canonical s) : Canonical (s.inLimbo part index f) := by
  unfold State.inLimbo
  split
  · exact hs
  · refine canonical_foldl _ _ (fun _ _ hu => canonical_saveFixed _ _ _ hu) (canonical_updPart _ _ (canonical_setCore _ _ ?_))
    exact canonical_dropPriv _ _ _ (canonical_writeBack _ _ (hf _ (canonical_setCore _ _ hs)))

theorem canonical_landOne {s : State} (id : WaveId) (f : Flight) (hs : Canonical s) : Canonical (s.landOne id f) := by
  grind [State.landOne, canonical_evDirectLoadReturn, canonical_evQueueFill, canonical_evAcquireGrant, canonical_evCellRequest,
    canonical_evAtomicAtHome, canonical_evRemoteReply, canonical_evRegistry, canonical_fenceTry, canonical_arriveTry, canonical_waitTry,
    canonical_xfenceTry, canonical_evGatherRow, canonical_finish, canonical_evSmpImage, canonical_drain, canonical_evMoveCheck,
    canonical_evMoveCopy, canonical_evResult]

theorem canonical_evLateArrival {s : State} (part index tag : Nat) (hs : Canonical s) : Canonical (s.evLateArrival part index tag) := by
  grind [State.evLateArrival, canonical_inLimbo, canonical_landOne, canonical_foldl]

theorem canonical_execLateArrival (part saved tag : Nat) {s : State} (hs : Canonical s) :
    ∀ t, execLateArrival part saved tag s = .next t → Canonical t := by
  grind [execLateArrival, canonical_evLateArrival]

theorem canonical_evCensusDone {s : State} (part place : Nat) (hs : Canonical s) : Canonical (s.evCensusDone part place) := by
  grind [State.evCensusDone, canonical_evCensusComplete, canonical_saveFixed, canonical_foldl]

theorem canonical_execCensusComplete (part place : Nat) {s : State} (hs : Canonical s) :
    ∀ t, execCensusComplete part place s = .next t → Canonical t := by
  grind [execCensusComplete, canonical_evCensusDone]

theorem canonical_cleanOne {s : State} (core : Nat) (hs : Canonical s) : Canonical (s.cleanOne core) := by
  grind [State.cleanOne, canonical_updCore, canonical_lineOut, canonical_leaveL1, canonical_foldl]

theorem canonical_evSaveAhead {s : State} (core : Nat) (hs : Canonical s) : Canonical (s.evSaveAhead core) := by
  grind [State.evSaveAhead, canonical_cleanOne, canonical_foldl]

theorem canonical_execSaveAheadWriteback (core : Nat) {s : State} (hs : Canonical s) :
    ∀ t, execSaveAheadWriteback core s = .next t → Canonical t := by
  grind [execSaveAheadWriteback, canonical_evSaveAhead]

theorem canonical_evDisplace {s : State} (core sched : Nat) (hs : Canonical s) : Canonical (s.evDisplace core sched) := by
  grind [State.evDisplace, canonical_rebalance, canonical_updWave, canonical_exchange]

theorem canonical_execPendingDisplacement (core sched : Nat) {s : State} (hs : Canonical s) :
    ∀ t, execPendingDisplacement core sched s = .next t → Canonical t := by
  grind [execPendingDisplacement, canonical_evDisplace]

/-! ### Machine/System -/

theorem canonical_execRdsr (w : RWord) {s : State} (hs : Canonical s) : ∀ t, execRdsr w s = .next t → Canonical t := by
  grind [execRdsr, canonical_issueWord, canonical_Ctx_putScalar, CanonicalRes]

theorem canonical_setSysReg {s : State} (c : Ctx) (code x : Nat) (hs : Canonical s) : Canonical (s.setSysReg c code x) := by
  have hpart := fun f => canonical_updPart c.wg.part f hs
  unfold State.setSysReg
  split
  · exact ⟨hs.wf⟩
  · exact canonical_updQcb _ _ _ hs
  · exact hpart _
  · exact hpart _
  · exact hpart _
  · exact hs

theorem canonical_execWrsr (w : RWord) {s : State} (hs : Canonical s) : ∀ t, execWrsr w s = .next t → Canonical t := by
  grind [execWrsr, canonical_issueWord, canonical_wait, canonical_setSysReg, CanonicalRes]

theorem canonical_execSegBind (w : RWord) {s : State} (hs : Canonical s) : ∀ t, execSegBind w s = .next t → Canonical t := by
  grind [execSegBind, canonical_issueWord, canonical_updWave, canonical_updWg, CanonicalRes, canonical_foldl]

theorem canonical_execPtok (w : RWord) {s : State} (hs : Canonical s) : ∀ t, execPtok w s = .next t → Canonical t := by
  grind [execPtok, canonical_issueWord, canonical_updWg, canonical_Ctx_putScalar, CanonicalRes]

theorem canonical_execPerf (w : RWord) {s : State} (hs : Canonical s) : ∀ t, execPerf w s = .next t → Canonical t := by
  grind [execPerf, canonical_issueWord, canonical_Ctx_putScalar, CanonicalRes]

theorem canonical_execClk (w : RWord) {s : State} (hs : Canonical s) : ∀ t, execClk w s = .next t → Canonical t := by
  grind [execClk, canonical_issueWord, canonical_Ctx_putScalar, CanonicalRes]

theorem canonical_execClkWave (w : RWord) {s : State} (hs : Canonical s) : ∀ t, execClkWave w s = .next t → Canonical t := by
  grind [execClkWave, canonical_issueWord, canonical_Ctx_putScalar, CanonicalRes]

theorem canonical_execHalt (w : RWord) {s : State} (hs : Canonical s) : ∀ t, execHalt w s = .next t → Canonical t := by
  grind [execHalt, canonical_issueWord, canonical_updWave, canonical_debugReport, canonical_telemetry, CanonicalRes]

theorem canonical_dropTlbs {s : State} (part : Nat) (p : TlbEntry → Bool) (hs : Canonical s) : Canonical (s.dropTlbs part p) := by
  grind [State.dropTlbs, canonical_updCore, canonical_foldl]

theorem canonical_Ctx_tlbInv (c : Ctx) {s : State} (d : BitVec 9) (p : TlbEntry → Bool) (hs : Canonical s) : CanonicalRes (c.tlbInv s d p) := by
  grind [Ctx.tlbInv, canonical_launch, canonical_dropTlbs, CanonicalRes]

theorem canonical_execTlbInvPage (w : RWord) {s : State} (hs : Canonical s) : ∀ t, execTlbInvPage w s = .next t → Canonical t := by
  grind [execTlbInvPage, canonical_issueWord, canonical_Ctx_tlbInv, CanonicalRes]

theorem canonical_execTlbInvVf (w : RWord) {s : State} (hs : Canonical s) : ∀ t, execTlbInvVf w s = .next t → Canonical t := by
  grind [execTlbInvVf, canonical_issueWord, canonical_Ctx_tlbInv, CanonicalRes]

theorem canonical_execTlbInvPart (w : RWord) {s : State} (hs : Canonical s) : ∀ t, execTlbInvPart w s = .next t → Canonical t := by
  grind [execTlbInvPart, canonical_issueWord, canonical_Ctx_tlbInv, CanonicalRes]

theorem canonical_Ctx_status (c : Ctx) {s : State} (d : BitVec 9) (n : Nat) (hs : Canonical s) : CanonicalRes (c.status s d n) := by
  grind [Ctx.status, canonical_launch, CanonicalRes]

theorem canonical_execCtxSv (w : RWord) {s : State} (hs : Canonical s) : ∀ t, execCtxSv w s = .next t → Canonical t := by
  grind [execCtxSv, canonical_issueWord, canonical_launch, canonical_Ctx_status, canonical_saveEnsemble, canonical_wait, CanonicalRes]

theorem canonical_execCtxLd (w : RWord) {s : State} (hs : Canonical s) : ∀ t, execCtxLd w s = .next t → Canonical t := by
  grind [execCtxLd, canonical_issueWord, canonical_launch, canonical_Ctx_status, canonical_restore, canonical_wait, CanonicalRes,
    CanonicalRestore]

/-! ### Machine/Events -/

theorem canonical_evRwaitTimeout {s : State} (id : WaveId) (hs : Canonical s) : Canonical (s.evRwaitTimeout id) := by
  grind [State.evRwaitTimeout, canonical_heldCheck]

theorem canonical_execRwaitTimeout (w : WaveId) {s : State} (hs : Canonical s) : ∀ t, execRwaitTimeout w s = .next t → Canonical t := by
  grind [execRwaitTimeout, canonical_evRwaitTimeout]

theorem canonical_evFixedLatency {s : State} (id : WaveId) (hs : Canonical s) : Canonical (s.evFixedLatency id) := by
  grind [State.evFixedLatency, canonical_settle, canonical_updWave]

theorem canonical_execFixedResultLatency (w : WaveId) {s : State} (hs : Canonical s) :
    ∀ t, execFixedResultLatency w s = .next t → Canonical t := by
  grind [execFixedResultLatency, canonical_evFixedLatency]

theorem canonical_evPrefill {s : State} (id : WaveId) (hs : Canonical s) : Canonical (s.evPrefill id) := by
  grind [State.evPrefill, canonical_rebalance, canonical_prefill]

theorem canonical_execWindowPrefill (w : WaveId) {s : State} (hs : Canonical s) : ∀ t, execWindowPrefill w s = .next t → Canonical t := by
  grind [execWindowPrefill, canonical_evPrefill]

theorem canonical_evWake {s : State} (id : WaveId) (hs : Canonical s) : Canonical (s.evWake id) := by
  grind [State.evWake, canonical_setWave, canonical_updCore, canonical_rebalance, canonical_settle]

theorem canonical_execWakeConditionMet (w : WaveId) {s : State} (hs : Canonical s) : ∀ t, execWakeConditionMet w s = .next t → Canonical t := by
  grind [execWakeConditionMet, canonical_evWake]

theorem canonical_evHoldExpiry {s : State} (id : WaveId) (hs : Canonical s) : Canonical (s.evHoldExpiry id) := by
  grind [State.evHoldExpiry, canonical_parkHold]

theorem canonical_execTranslationWalkHoldExpiry (w : WaveId) {s : State} (hs : Canonical s) :
    ∀ t, execTranslationWalkHoldExpiry w s = .next t → Canonical t := by
  grind [execTranslationWalkHoldExpiry, canonical_evHoldExpiry]

theorem canonical_walkReaches {s : State} (k : Walk) (id : WaveId) (hs : Canonical s) : Canonical (s.walkReaches k id) := by
  grind [State.walkReaches, canonical_updCore, canonical_updWave]

theorem canonical_finishWalk {s : State} (sec : Nat) (k : Walk) (hs : Canonical s) : Canonical (s.finishWalk sec k) := by
  grind [State.finishWalk, canonical_walkReaches, canonical_foldl, canonical_iff]

theorem canonical_evWalkDone {s : State} (id : WaveId) (hs : Canonical s) : Canonical (s.evWalkDone id) := by
  grind [State.evWalkDone, canonical_startWalk, canonical_finishWalk]

theorem canonical_execTranslationWalkComplete (w : WaveId) {s : State} (hs : Canonical s) :
    ∀ t, execTranslationWalkComplete w s = .next t → Canonical t := by
  grind [execTranslationWalkComplete, canonical_evWalkDone]

theorem canonical_evDemandMap {s : State} (id : WaveId) (hs : Canonical s) : Canonical (s.evDemandMap id) := by
  unfold State.evDemandMap
  dsimp only
  split
  · exact hs
  · split
    · exact hs
    · split
      · exact hs
      · next w _ _ h _ _ =>
        split
        · next a _ =>
          have hmapped := canonical_demandMap (s.vfOfWave id) h.va a 0 hs
          split
          · next hm =>
            rw [hm] at hmapped
            split
            · exact canonical_updWave _ _ hmapped
            · exact hmapped
          · next hm =>
            rw [hm] at hmapped
            exact canonical_ite _ hs (canonical_rebalance _ _ (canonical_updWave _ _ hmapped))
        · exact canonical_updWave _ _ hs

theorem canonical_execDemandMap (w : WaveId) {s : State} (hs : Canonical s) : ∀ t, execDemandMap w s = .next t → Canonical t := by
  grind [execDemandMap, canonical_evDemandMap]

theorem canonical_execEncodingNotInstruction (word : Dword) {s : State} (hs : Canonical s) :
    ∀ t, execEncodingNotInstruction word s = .next t → Canonical t := by
  grind [execEncodingNotInstruction, canonical_encodingFault]

theorem canonical_evFaultDelivery {s : State} (id : WaveId) (hs : Canonical s) : Canonical (s.evFaultDelivery id) := by
  grind [State.evFaultDelivery, canonical_kill, canonical_deliver, canonical_setWave]

theorem canonical_execFaultDelivery (w : WaveId) {s : State} (hs : Canonical s) : ∀ t, execFaultDelivery w s = .next t → Canonical t := by
  grind [execFaultDelivery, canonical_evFaultDelivery]

theorem canonical_execDeferredFaultKnown (w : WaveId) (tag : Nat) {s : State} (hs : Canonical s) :
    ∀ t, execDeferredFaultKnown w tag s = .next t → Canonical t := by
  grind [execDeferredFaultKnown, canonical_landOne]

/-! ### Machine/Fate -/

theorem canonical_poisonHeld {s : State} (idents : List Nat) (hs : Canonical s) : Canonical (s.poisonHeld idents) := by
  grind [State.poisonHeld, canonical_updCell, canonical_poisonCell, canonical_foldl]

theorem canonical_gridContained {s : State} (part grid code : Nat) (hs : Canonical s) : Canonical (s.gridContained part grid code) := by
  grind [State.gridContained, canonical_updPart]

theorem canonical_queueError {s : State} (vf q code : Nat) (hs : Canonical s) : Canonical (s.queueError vf q code) := by
  grind [State.queueError, canonical_updQcb]

theorem canonical_dropWaves {s : State} (core i : Nat) (hs : Canonical s) : Canonical (s.dropWaves core i) := by
  grind [State.dropWaves, canonical_updCore, canonical_rebalance, canonical_foldl]

theorem canonical_evContain {s : State} (core i : Nat) (hs : Canonical s) : Canonical (s.evContain core i) := by
  grind [State.evContain, canonical_updWave, canonical_cancelMoves, canonical_sendDelete, canonical_poisonHeld, canonical_dropWaves,
    canonical_dropPriv, canonical_removeWg, canonical_gridContained, canonical_postRecord, canonical_foldl]

theorem canonical_execWorkgroupContainment (core wg : Nat) {s : State} (hs : Canonical s) :
    ∀ t, execWorkgroupContainment core wg s = .next t → Canonical t := by
  grind [execWorkgroupContainment, canonical_evContain]

theorem canonical_containSaved {s : State} (part : Nat) (x : Saved) (r : FaultRecord) (hs : Canonical s) :
    Canonical (s.containSaved part x r) := by
  grind [State.containSaved, canonical_poisonHeld, canonical_updPart, canonical_postRecord, canonical_gridContained]

theorem canonical_evRecordPost {s : State} (hs : Canonical s) : Canonical s.evRecordPost := by
  grind [State.evRecordPost, canonical_updFunc, canonical_faultTrigger, canonical_iff]

theorem canonical_execFaultRecordPost {s : State} (hs : Canonical s) : ∀ t, execFaultRecordPost s = .next t → Canonical t := by
  grind [execFaultRecordPost, canonical_evRecordPost]

theorem canonical_postEvent {s : State} (vf code data time : Nat) (hs : Canonical s) : Canonical (s.postEvent vf code data time) := by
  grind [State.postEvent, canonical_updFunc]

theorem canonical_withdrawQuota {s : State} (part vf : Nat) (pages : List Nat) (hs : Canonical s) :
    Canonical (s.withdrawQuota part vf pages) := by
  grind [State.withdrawQuota, canonical_updFunc, canonical_postEvent, canonical_foldl]

theorem canonical_killResponders {s : State} (core ctx : Nat) (hs : Canonical s) : Canonical (s.killResponders core ctx) := by
  grind [State.killResponders, canonical_updCore, canonical_coreAnswer, canonical_updPlace, canonical_responderEnd, canonical_foldl]

theorem canonical_killOnCore {s : State} (part core ctx : Nat) (hs : Canonical s) : Canonical (s.killOnCore part core ctx) := by
  grind [State.killOnCore, canonical_rootCatchUp, canonical_killResponders, canonical_dropWaves, canonical_dropPriv, canonical_updCore,
    canonical_foldl]

theorem canonical_killObjects {s : State} (part ctx : Nat) (hs : Canonical s) : Canonical (s.killObjects part ctx) := by
  grind [State.killObjects, canonical_updObject, canonical_unwatch, canonical_updRegion, canonical_foldl]

theorem canonical_killCtx {s : State} (part ctx code detail xinfo : Nat) (report : Bool) (hs : Canonical s) :
    Canonical (s.killCtx part ctx code detail xinfo report) := by
  grind [State.killCtx, canonical_killOnCore, canonical_poisonHeld, canonical_poisonCell, canonical_killObjects, canonical_updPart,
    canonical_queueError, canonical_updQcb, canonical_withdrawQuota, canonical_postRecord, canonical_foldl, canonical_iff]

theorem canonical_execContextKill (ctx code : Nat) {s : State} (hs : Canonical s) : ∀ t, execContextKill ctx code s = .next t → Canonical t := by
  grind [execContextKill, canonical_killCtx]

theorem canonical_evRestore {s : State} (part index core : Nat) (hs : Canonical s) : Canonical (s.evRestore part index core) := by
  grind [State.evRestore, canonical_restore, canonical_containSaved, CanonicalRestore, canonical_foldl]

theorem canonical_execContextRestore (part saved core : Nat) {s : State} (hs : Canonical s) :
    ∀ t, execContextRestore part saved core s = .next t → Canonical t := by
  grind [execContextRestore, canonical_evRestore]

/-! ### Machine/Launch -/

theorem canonical_retirePackets {s : State} (vf q n : Nat) (hs : Canonical s) : Canonical (s.retirePackets vf q n) := by
  induction n generalizing s with
  | zero => exact hs
  | succ n ih => grind [State.retirePackets, canonical_updQcb, canonical_updFunc]

theorem canonical_retire' {s : State} (vf q : Nat) (hs : Canonical s) : Canonical (s.retire' vf q) := by
  grind [State.retire', canonical_retirePackets]

theorem canonical_packetDone {s : State} (vf q packet : Nat) (hs : Canonical s) : Canonical (s.packetDone vf q packet) := by
  grind [State.packetDone, canonical_retire', canonical_updQcb]

theorem canonical_refusePacket {s : State} (part vf q code detail xinfo : Nat) (hs : Canonical s) :
    Canonical (s.refusePacket part vf q code detail xinfo) := by
  grind [State.refusePacket, canonical_queueError, canonical_updQcb, canonical_postRecord]

theorem canonical_takePacket {s : State} (vf q type : Nat) (f : Nat → Nat → BitVec 1024 → State → State)
    (hf : ∀ part k p u, Canonical u → Canonical (f part k p u)) (hs : Canonical s) : Canonical (s.takePacket vf q type f) := by
  grind [State.takePacket, canonical_queueError, canonical_updQcb, canonical_refusePacket, canonical_updPart, canonical_touchLeaf]

theorem canonical_begin' {s : State} (vf q k : Nat) (p : BitVec 1024) (grid : Option Nat) (notify : Bool) (hs : Canonical s) :
    Canonical (s.begin' vf q k p grid notify) := by
  grind [State.begin', canonical_updQcb]

theorem canonical_evWriteNotify {s : State} (vf queue : Nat) (write : Word) (hs : Canonical s) : Canonical (s.evWriteNotify vf queue write) := by
  have hq := fun f => canonical_updQcb vf queue f hs
  unfold State.evWriteNotify
  exact canonical_ite _ (canonical_queueError _ _ _ (hq _)) (hq _)

theorem canonical_execQueueWriteNotify (vf queue : Nat) (write : Word) {s : State} (hs : Canonical s) :
    ∀ t, execQueueWriteNotify vf queue write s = .next t → Canonical t := by
  grind [execQueueWriteNotify, canonical_evWriteNotify]

theorem canonical_execNopPacket (vf queue : Nat) {s : State} (hs : Canonical s) : ∀ t, execNopPacket vf queue s = .next t → Canonical t := by
  grind [execNopPacket, canonical_takePacket, canonical_refusePacket, canonical_packetDone, canonical_begin']

theorem canonical_execLaunch (vf queue : Nat) (code : CodeObject) {s : State} (hs : Canonical s) :
    ∀ t, execLaunch vf queue code s = .next t → Canonical t := by
  refine canonical_next (canonical_ite _ hs (canonical_takePacket _ _ _ _ (fun part k p u hu => ?_) hs))
  have hrefuse : ∀ (c d x : Nat) (v : State), Canonical v → Canonical (v.refusePacket part vf queue c d x) :=
    fun _ _ _ _ hv => canonical_refusePacket _ _ _ _ _ _ hv
  split
  · exact hrefuse _ _ _ _ hu
  · exact hrefuse _ _ _ _ hu
  · have hread := fun va va' => canonical_touchLeaf vf va' false (canonical_touchLeaf vf va false hu)
    dsimp only
    split
    · exact hrefuse _ _ _ _ (hread _ _)
    · exact canonical_updQcb _ _ _ (canonical_begin' _ _ _ _ _ _ (canonical_updPart _ _ (hread _ _)))

theorem canonical_startTcb {s : State} (part core ens : Nat) (t : Tcb) (hs : Canonical s) : Canonical (s.startTcb part core ens t) := by
  grind [State.startTcb, canonical_dropGuests, canonical_acquireAll, canonical_setWg, canonical_setWave, canonical_saveFixed,
    canonical_recordPut, canonical_rebalance, canonical_foldl]

theorem canonical_evPlacer {s : State} (cluster : Nat) (hs : Canonical s) : Canonical (s.evPlacer cluster) := by
  unfold State.evPlacer
  dsimp only
  split
  · exact hs
  · split
    · exact hs
    · split
      · exact hs
      · exact canonical_ite _ hs (canonical_foldl _ _ (fun _ _ hu => canonical_startTcb _ _ _ _ hu) (canonical_updPart _ _ hs))

theorem canonical_execPlacerStart (cluster : Nat) {s : State} (hs : Canonical s) : ∀ t, execPlacerStart cluster s = .next t → Canonical t := by
  grind [execPlacerStart, canonical_evPlacer]

theorem canonical_allStarted {s : State} (part cluster n : Nat) (hs : Canonical s) :
    ∀ t, s.allStarted part cluster n = some t → Canonical t := by
  induction n generalizing s with
  | zero => grind [State.allStarted]
  | succ n ih => grind [State.allStarted, canonical_evPlacer]

theorem canonical_evDispatch {s : State} (part : Nat) (hs : Canonical s) : Canonical (s.evDispatch part) := by
  grind [State.evDispatch, canonical_updPart, canonical_updQcb]

theorem canonical_execDispatchIndex (part : Nat) {s : State} (hs : Canonical s) : ∀ t, execDispatchIndex part s = .next t → Canonical t := by
  grind [execDispatchIndex, canonical_evDispatch]

theorem canonical_evSteal {s : State} (cluster : Nat) (hs : Canonical s) : Canonical (s.evSteal cluster) := by
  grind [State.evSteal, canonical_updPart]

theorem canonical_execStealRequest (cluster : Nat) {s : State} (hs : Canonical s) : ∀ t, execStealRequest cluster s = .next t → Canonical t := by
  grind [execStealRequest, canonical_evSteal]

theorem canonical_signal {s : State} (part vf va op value : Nat) (hs : Canonical s) : CanonicalSignal (s.signal part vf va op value) := by
  grind [State.signal, canonical_engineWrite, canonical_touchLeaf, CanonicalSignal]

theorem canonical_drained {s : State} (vf queue : Nat) (quiet : Bool) (hs : Canonical s) : Canonical (s.drained vf queue quiet) := by
  grind [State.drained, canonical_packetDone, canonical_updQcb]

theorem canonical_execSignalPacket (vf queue : Nat) {s : State} (hs : Canonical s) :
    ∀ t, execSignalPacket vf queue s = .next t → Canonical t := by
  grind [execSignalPacket, canonical_drained, canonical_takePacket, canonical_refusePacket, canonical_signal, canonical_begin', canonical_updQcb,
    canonical_packetDone, canonical_queueError, CanonicalSignal]

theorem canonical_rewait {s : State} (vf q : Nat) (hs : Canonical s) : Canonical (s.rewait vf q) := by
  grind [State.rewait, canonical_packetDone, canonical_updQcb, canonical_queueError]

theorem canonical_execWaitPacket (vf queue : Nat) {s : State} (hs : Canonical s) : ∀ t, execWaitPacket vf queue s = .next t → Canonical t := by
  grind [execWaitPacket, canonical_rewait, canonical_takePacket, canonical_refusePacket, canonical_packetDone, canonical_begin',
    canonical_touchLeaf, canonical_updQcb]

theorem canonical_execMapPacket (vf queue : Nat) {s : State} (hs : Canonical s) : ∀ t, execMapPacket vf queue s = .next t → Canonical t := by
  grind [execMapPacket, canonical_takePacket, canonical_refusePacket, canonical_engineWrite, canonical_updPart, canonical_packetDone,
    canonical_begin', canonical_foldl]

theorem canonical_unmapPage {s : State} (part vf va n bytes a : Nat) (keep : Bool) (hs : Canonical s) :
    Canonical (s.unmapPage part vf va n bytes a keep) := by
  grind [State.unmapPage, canonical_engineWrite, canonical_updPart, canonical_trimDrops]

theorem canonical_execUnmapPacket (vf queue : Nat) {s : State} (hs : Canonical s) : ∀ t, execUnmapPacket vf queue s = .next t → Canonical t := by
  grind [execUnmapPacket, canonical_trimDrops, canonical_drained, canonical_takePacket, canonical_refusePacket, canonical_unmapPage,
    canonical_updQcb, canonical_begin', canonical_foldl]

theorem canonical_evGridComplete {s : State} (part n : Nat) (hs : Canonical s) : Canonical (s.evGridComplete part n) := by
  grind [State.evGridComplete, canonical_writeBack, canonical_updPart, canonical_updQcb, canonical_packetDone, canonical_queueError,
    canonical_signal, CanonicalSignal, canonical_foldl]

theorem canonical_execGridComplete (part grid : Nat) {s : State} (hs : Canonical s) :
    ∀ t, execGridComplete part grid s = .next t → Canonical t := by
  grind [execGridComplete, canonical_evGridComplete]

theorem canonical_startSlice {s : State} (part vf : Nat) (hs : Canonical s) : Canonical (s.startSlice part vf) := by
  grind [State.startSlice, canonical_updPart]

theorem canonical_evSliceExpiry {s : State} (part : Nat) (hs : Canonical s) : Canonical (s.evSliceExpiry part) := by
  grind [State.evSliceExpiry, canonical_startSlice, canonical_updPart]

theorem canonical_execTimeSliceExpiry (part : Nat) {s : State} (hs : Canonical s) : ∀ t, execTimeSliceExpiry part s = .next t → Canonical t := by
  grind [execTimeSliceExpiry, canonical_evSliceExpiry]

theorem canonical_evGraceEnd {s : State} (part : Nat) (hs : Canonical s) : Canonical (s.evGraceEnd part) := by
  grind [State.evGraceEnd, canonical_updCore, canonical_startSlice, canonical_foldl]

theorem canonical_execGracePeriodEnd (part : Nat) {s : State} (hs : Canonical s) : ∀ t, execGracePeriodEnd part s = .next t → Canonical t := by
  grind [execGracePeriodEnd, canonical_evGraceEnd]

/-! ### Machine/Chains -/

theorem canonical_postTenants {s : State} (part code data : Nat) (hs : Canonical s) : Canonical (s.postTenants part code data) := by
  grind [State.postTenants, canonical_postEvent, canonical_foldl]

theorem canonical_updChain {s : State} (part num : Nat) (f : Chain → Chain) (hs : Canonical s) : Canonical (s.updChain part num f) := by
  grind [State.updChain, canonical_updPart]

theorem canonical_chainStop {s : State} (part : Nat) (x : Chain) (seq code detail : Nat) (hs : Canonical s) :
    Canonical (s.chainStop part x seq code detail) := by
  grind [State.chainStop, canonical_updChain, canonical_telemetry, canonical_postRecord, canonical_postEvent]

theorem canonical_chainNext {s : State} (part : Nat) (x : Chain) (seq : Nat) (hs : Canonical s) : Canonical (s.chainNext part x seq) := by
  grind [State.chainNext, canonical_updChain, canonical_engineWrite, canonical_touchLeaf, canonical_chainStop]

theorem canonical_chainEntry {s : State} (part num opc : Nat) (f : Chain → Nat → BitVec 512 → State → State)
    (hf : ∀ x seq e u, Canonical u → Canonical (f x seq e u)) (hs : Canonical s) : Canonical (s.chainEntry part num opc f) := by
  grind [State.chainEntry, canonical_chainStop, canonical_touchLeaf]

theorem canonical_chainUnit {s : State} (part : Nat) (x : Chain) (seq dst : Nat) (bs : List Byte) (hs : Canonical s) :
    Canonical (s.chainUnit part x seq dst bs) := by
  grind [State.chainUnit, canonical_updChain, canonical_register, canonical_touchLeaf, canonical_demandMap, canonical_chainStop]

theorem canonical_chainMove {s : State} (part : Nat) (reduce : Bool) (x : Chain) (seq : Nat) (e : BitVec 512) (hs : Canonical s) :
    Canonical (s.chainMove part reduce x seq e) := by
  grind [State.chainMove, canonical_chainNext, canonical_updChain, canonical_chainStop, canonical_touchLeaf, canonical_chainUnit]

theorem canonical_execChainCopy (part chain : Nat) {s : State} (hs : Canonical s) : ∀ t, execChainCopy part chain s = .next t → Canonical t := by
  grind [execChainCopy, canonical_chainEntry, canonical_chainMove]

theorem canonical_execChainReduce (part chain : Nat) {s : State} (hs : Canonical s) :
    ∀ t, execChainReduce part chain s = .next t → Canonical t := by
  grind [execChainReduce, canonical_chainEntry, canonical_chainMove]

theorem canonical_execChainAllreduce (part chain : Nat) (others : List (Nat × List Byte)) {s : State} (hs : Canonical s) :
    ∀ t, execChainAllreduce part chain others s = .next t → Canonical t := by
  grind [execChainAllreduce, canonical_chainEntry, canonical_chainStop, canonical_chainNext, canonical_chainMove, canonical_chainUnit]

theorem canonical_execChainSignal (part chain : Nat) {s : State} (hs : Canonical s) :
    ∀ t, execChainSignal part chain s = .next t → Canonical t := by
  grind [execChainSignal, canonical_chainEntry, canonical_chainNext, canonical_signal, canonical_updChain, canonical_chainStop, CanonicalSignal]

theorem canonical_execChainWaitEntry (part chain : Nat) {s : State} (hs : Canonical s) :
    ∀ t, execChainWaitEntry part chain s = .next t → Canonical t := by
  refine canonical_next (canonical_chainEntry _ _ _ _ (fun x seq e u hu => ?_) hs)
  split
  · exact canonical_chainStop _ _ _ _ _ hu
  · have hread := fun va => canonical_touchLeaf x.vf va false hu
    exact canonical_ite _ (canonical_chainNext _ _ _ (hread _)) (hread _)

/-! ### Machine/Contain -/

theorem canonical_updCores {s : State} (ns : List Nat) (f : Core → Core) (hs : Canonical s) : Canonical (s.updCores ns f) := by
  grind [State.updCores, canonical_updCore, canonical_foldl]

theorem canonical_dropHeld {s : State} (part : Nat) (hs : Canonical s) : Canonical (s.dropHeld part) := by
  grind [State.dropHeld, canonical_commitHeld, canonical_foldl, canonical_iff]

theorem canonical_clearPart {s : State} (part : Nat) (hs : Canonical s) : Canonical (s.clearPart part) := by
  grind [State.clearPart, canonical_foldl, canonical_iff]

theorem canonical_stopPart {s : State} (part code level : Nat) (hs : Canonical s) : Canonical (s.stopPart part code level) := by
  grind [State.stopPart, canonical_telemetry, canonical_killCtx, canonical_dropHeld, canonical_updPart, canonical_updCores, canonical_postRecord,
    canonical_foldl]

theorem canonical_containPart {s : State} (part code : Nat) (hs : Canonical s) : Canonical (s.containPart part code) := by
  grind [State.containPart, canonical_clearPart, canonical_stopPart]

theorem canonical_execPartitionContainment (part code : Nat) {s : State} (hs : Canonical s) :
    ∀ t, execPartitionContainment part code s = .next t → Canonical t := by
  grind [execPartitionContainment, canonical_containPart]

theorem canonical_resetPart {s : State} (part : Nat) (hs : Canonical s) : Canonical (s.resetPart part) := by
  grind [State.resetPart, canonical_updPart, canonical_foldl, canonical_iff]

theorem canonical_evReinit {s : State} (part : Nat) (hs : Canonical s) : Canonical (s.evReinit part) := by
  grind [State.evReinit, canonical_postTenants, canonical_resetPart]

theorem canonical_execPartitionReinitialised (part : Nat) {s : State} (hs : Canonical s) :
    ∀ t, execPartitionReinitialised part s = .next t → Canonical t := by
  grind [execPartitionReinitialised, canonical_evReinit]

theorem canonical_containPackage {s : State} (hs : Canonical s) : Canonical s.containPackage := by
  grind [State.containPackage, canonical_stopPart, canonical_foldl, canonical_iff]

theorem canonical_execPackageContainment {s : State} (hs : Canonical s) : ∀ t, execPackageContainment s = .next t → Canonical t := by
  grind [execPackageContainment, canonical_containPackage]

theorem canonical_postAll {s : State} (code data : Nat) (hs : Canonical s) : Canonical (s.postAll code data) := by
  grind [State.postAll, canonical_postEvent, canonical_foldl]

theorem canonical_retryMailboxes {s : State} (hs : Canonical s) : Canonical s.retryMailboxes := by
  grind [State.retryMailboxes, canonical_iff]

theorem canonical_complexFails {s : State} (b : Bool) (hs : Canonical s) : Canonical (s.complexFails b) := by
  unfold State.complexFails
  have hdown : Canonical (if b then { s with complexB := { s.complexB with ok := false } }
      else { s with complexA := { s.complexA with ok := false } }) := canonical_ite _ ⟨hs.wf⟩ ⟨hs.wf⟩
  generalize (if b then { s with complexB := { s.complexB with ok := false } }
      else { s with complexA := { s.complexA with ok := false } }) = u at hdown ⊢
  exact canonical_ite _ (canonical_containPackage hdown)
    (canonical_postAll _ _ (canonical_telemetry _ _ (canonical_ite _ (canonical_retryMailboxes ⟨hdown.wf⟩) hdown)))

theorem canonical_execFirmwareFailover {s : State} (hs : Canonical s) : ∀ t, execFirmwareFailover s = .next t → Canonical t := by
  grind [execFirmwareFailover, canonical_complexFails]

theorem canonical_execStandbyFailure {s : State} (hs : Canonical s) : ∀ t, execStandbyFailure s = .next t → Canonical t := by
  grind [execStandbyFailure, canonical_complexFails]

theorem canonical_execHeartbeat (missed : Bool) {s : State} (hs : Canonical s) : ∀ t, execHeartbeat missed s = .next t → Canonical t := by
  grind [execHeartbeat, canonical_complexFails, canonical_iff]

theorem canonical_tagRings {s : State} (hs : Canonical s) : Canonical s.tagRings := by
  grind [State.tagRings, canonical_foldl, canonical_iff]

theorem canonical_execPowerOn (okA okB : Bool) {s : State} (_ : Canonical s) : ∀ t, execPowerOn okA okB s = .next t → Canonical t := by
  grind [execPowerOn, canonical_reset, canonical_tagRings, canonical_updPart, canonical_iff]

/-! ### Machine/Errors -/

theorem canonical_poisonSector {s : State} (pa : Nat) (hs : Canonical s) : Canonical (s.poisonSector pa) := by
  grind [State.poisonSector, canonical_updPart, canonical_postRecord, canonical_foldl, canonical_iff]

theorem canonical_poisonOwned {s : State} (pa : Nat) (hs : Canonical s) : Canonical (s.poisonOwned pa) := by
  grind [State.poisonOwned, canonical_poisonSector, canonical_killCtx, canonical_foldl]

theorem canonical_containPoison {s : State} (core i : Nat) (hs : Canonical s) : Canonical (s.containPoison core i) := by
  grind [State.containPoison, canonical_contain]

theorem canonical_regFileError {s : State} (core addr : Nat) (hs : Canonical s) : Canonical (s.regFileError core addr) := by
  grind [State.regFileError, canonical_responderFail, canonical_containPoison]

theorem canonical_l1Error {s : State} (core addr : Nat) (hs : Canonical s) : Canonical (s.l1Error core addr) := by
  grind [State.l1Error, canonical_leaveL1, canonical_updCore, canonical_poisonOwned]

theorem canonical_cacheError {s : State} (core addr : Nat) (hs : Canonical s) : Canonical (s.cacheError core addr) := by
  grind [State.cacheError, canonical_updCore]

theorem canonical_l2Error {s : State} (slice addr : Nat) (hs : Canonical s) : Canonical (s.l2Error slice addr) := by
  grind [State.l2Error, canonical_dropGuests, canonical_poisonOwned, canonical_iff]

theorem canonical_arrayAction {s : State} (kind unit array addr : Nat) (hs : Canonical s) : Canonical (s.arrayAction kind unit array addr) := by
  have hcontain := fun l => canonical_foldl l (fun (s : State) n => s.containPart n 0x10) (fun _ _ hu => canonical_containPart _ _ hu) hs
  unfold State.arrayAction
  split
  · exact canonical_regFileError _ _ hs
  · split
    · exact canonical_containPoison _ _ hs
    · exact hs
  · exact canonical_l1Error _ _ hs
  · exact canonical_cacheError _ _ hs
  · exact canonical_l2Error _ _ hs
  · exact hcontain _
  · exact hcontain _
  · exact hcontain _
  · exact canonical_poisonOwned _ hs
  · exact canonical_complexFails _ hs
  · exact hs

theorem canonical_failUnit {s : State} (kind unit addr : Nat) (hs : Canonical s) : Canonical (s.failUnit kind unit addr) := by
  grind [State.failUnit, canonical_containPart, canonical_foldl, canonical_iff]

theorem canonical_countFailure {s : State} (kind unit array addr : Nat) (hs : Canonical s) :
    Canonical (s.countFailure kind unit array addr) := by
  grind [State.countFailure, canonical_failUnit, canonical_iff]

theorem canonical_errorEntry {s : State} (part kind code unitKind unit array addr : Nat) (hs : Canonical s) :
    Canonical (s.errorEntry part kind code unitKind unit array addr) := by
  grind [State.errorEntry, canonical_telemetry]

theorem canonical_evArrayError {s : State} (unitKind unit array addr : Nat) (corrected : Bool) (hs : Canonical s) :
    Canonical (s.evArrayError unitKind unit array addr corrected) := by
  grind [State.evArrayError, canonical_errorEntry, canonical_countFailure, canonical_arrayAction, canonical_foldl, canonical_iff]

theorem canonical_execArrayError (unitKind unit array addr : Nat) (corrected : Bool) {s : State} (hs : Canonical s) :
    ∀ t, execArrayError unitKind unit array addr corrected s = .next t → Canonical t := by
  grind [execArrayError, canonical_evArrayError]

theorem canonical_execScrubPatrol (sector : Nat) (uncorrectable : Bool) {s : State} (hs : Canonical s) :
    ∀ t, execScrubPatrol sector uncorrectable s = .next t → Canonical t := by
  grind [execScrubPatrol, canonical_evArrayError]

theorem canonical_evPreempt {s : State} (core : Nat) (hs : Canonical s) : Canonical (s.evPreempt core) := by
  grind [State.evPreempt, canonical_failUnit, canonical_updCore, canonical_evHardPreempt]

theorem canonical_execHardPreemption (core : Nat) {s : State} (hs : Canonical s) : ∀ t, execHardPreemption core s = .next t → Canonical t := by
  grind [execHardPreemption, canonical_evPreempt]

theorem canonical_evRevokeLate {s : State} (part : Nat) (hs : Canonical s) : Canonical (s.evRevokeLate part) := by
  grind [State.evRevokeLate, canonical_containPart]

theorem canonical_execQuotaIntervalEnd (part slice : Nat) {s : State} (hs : Canonical s) :
    ∀ t, execQuotaIntervalEnd part slice s = .next t → Canonical t := by
  grind [execQuotaIntervalEnd, canonical_updPart]

theorem canonical_quotaTick {s : State} (part : Nat) (hs : Canonical s) : Canonical (s.quotaTick part) := by
  grind [State.quotaTick, canonical_execQuotaIntervalEnd, canonical_foldl]

theorem canonical_postPower {s : State} (old : Bool) (hs : Canonical s) : Canonical (s.postPower old) := by
  grind [State.postPower, canonical_postAll]

theorem canonical_execTempReport (readings : List (BitVec 16)) {s : State} (hs : Canonical s) :
    ∀ t, execTempReport readings s = .next t → Canonical t := by
  grind [execTempReport, canonical_postPower, canonical_containPart, canonical_foldl, canonical_iff]

/-! ### Machine/HostLink -/

theorem canonical_evSnapshotTimer {s : State} (part : Nat) (hs : Canonical s) : Canonical (s.evSnapshotTimer part) := by
  grind [State.evSnapshotTimer, canonical_trigger, canonical_updPart]

theorem canonical_execSnapshotTimer (part : Nat) {s : State} (hs : Canonical s) : ∀ t, execSnapshotTimer part s = .next t → Canonical t := by
  grind [execSnapshotTimer, canonical_evSnapshotTimer]

theorem canonical_triggerPackage {s : State} (tag : Nat) (hs : Canonical s) : Canonical (s.triggerPackage tag) := by
  grind [State.triggerPackage, canonical_updPart, canonical_trigger, canonical_foldl]

theorem canonical_hostTrigger {s : State} (vf : Nat) (value : Word) (hs : Canonical s) : Canonical (s.hostTrigger vf value) := by
  grind [State.hostTrigger, canonical_triggerPackage, canonical_trigger]

theorem canonical_execHostTrigger (vf : Nat) (value : Word) {s : State} (hs : Canonical s) :
    ∀ t, execHostTrigger vf value s = .next t → Canonical t := by
  grind [execHostTrigger, canonical_hostTrigger]

theorem canonical_answerRead {s : State} (bs : List Byte) (poison : Bool) (hs : Canonical s) : Canonical (s.answerRead bs poison) := by
  grind [State.answerRead, canonical_iff]

theorem canonical_readSnap {s : State} (vf offset size : Nat) (hs : Canonical s) : Canonical (s.readSnap vf offset size) := by
  grind [State.readSnap, canonical_answerRead, canonical_iff]

theorem canonical_execSnapshotWindowRead (vf offset size : Nat) {s : State} (hs : Canonical s) :
    ∀ t, execSnapshotWindowRead vf offset size s = .next t → Canonical t := by
  grind [execSnapshotWindowRead, canonical_readSnap]

theorem canonical_registerWrite {s : State} (vf offset : Nat) (value : Dword) (hs : Canonical s) :
    Canonical (s.registerWrite vf offset value) := by
  grind [State.registerWrite, canonical_updFunc, canonical_hostTrigger]

theorem canonical_execRegisterWrite (vf offset : Nat) (value : Dword) {s : State} (hs : Canonical s) :
    ∀ t, execRegisterWrite vf offset value s = .next t → Canonical t := by
  grind [execRegisterWrite, canonical_registerWrite]

theorem canonical_hostSend {s : State} (part pa : Nat) (payload : List Byte) (hs : Canonical s) : Canonical (s.hostSend part pa payload) := by
  grind [State.hostSend, canonical_iff]

theorem canonical_hostWrite {s : State} (vf part va : Nat) (bs : List Byte) (n : Nat) (hs : Canonical s) :
    CanonicalHost (s.hostWrite vf part va bs n) := by
  induction n generalizing s with
  | zero => exact hs
  | succ n ih =>
    unfold State.hostWrite
    dsimp only
    split
    · next x a _ =>
      have hmapped := canonical_demandMap vf x a 3 hs
      split
      · next hm =>
        rw [hm] at hmapped
        exact ih hmapped
      · next hm =>
        rw [hm] at hmapped
        exact hmapped
    · split
      · exact hs
      · refine canonical_foldl _ _ (fun _ _ hu => canonical_register _ _ _ (canonical_hostSend _ _ _ hu)) ?_
        exact canonical_foldl _ _ (fun _ _ hu => canonical_touchLeaf _ _ _ hu) hs

theorem canonical_hostStore {s : State} (vf va : Nat) (bs : List Byte) (hs : Canonical s) : Canonical (s.hostStore vf va bs) := by
  grind [State.hostStore, canonical_hostWrite, CanonicalHost, canonical_iff]

theorem canonical_hostRetry {s : State} (vf : Nat) (hs : Canonical s) : Canonical (s.hostRetry vf) := by
  grind [State.hostRetry, canonical_hostWrite, CanonicalHost, canonical_iff]

/-- The bytes that a host's read draws or takes. -/
theorem canonical_hostBytes {s : State} (ts : List (Nat × TransRes)) (acc : List Byte) (hs : Canonical s) :
    Canonical (ts.foldl (fun (acc : List Byte × State) x => match x.2 with
      | .ok pa _ => (acc.1 ++ [acc.2.homeByte pa], acc.2)
      | .grow _ => (acc.1 ++ [0#8], acc.2)
      | _ => (acc.1 ++ [acc.2.draw.1.extractLsb' 0 8], acc.2.draw.2)) (acc, s)).2 := by
  refine List.foldlRecOn (motive := fun acc : List Byte × State => Canonical acc.2) ts _ hs (fun acc hacc x _ => ?_)
  split
  · exact hacc
  · exact hacc
  · exact canonical_draw hacc

theorem canonical_hostLoad {s : State} (vf part va size : Nat) (hs : Canonical s) : Canonical (s.hostLoad vf part va size) := by
  unfold State.hostLoad
  refine canonical_answerRead _ _ (canonical_foldl _ _ (fun _ _ hu => canonical_hostSend _ _ _ hu) ?_)
  exact canonical_foldl _ _ (fun _ _ hu => canonical_touchLeaf _ _ _ hu) (canonical_hostBytes _ _ hs)

theorem canonical_execHostWindowAccess (vf bar addr : Nat) (data : List Byte) (size : Nat) {s : State} (hs : Canonical s) :
    ∀ t, execHostWindowAccess vf bar addr data size s = .next t → Canonical t := by
  grind [execHostWindowAccess, canonical_readSnap, canonical_answerRead, canonical_hostLoad, canonical_registerWrite, canonical_hostStore,
    canonical_evWriteNotify]

/-! ### Machine/Mailbox -/

theorem canonical_MailRes_denied : CanonicalMail (MailRes.denied) := by
  grind [MailRes.denied, CanonicalMail]

theorem canonical_MailRes_invalid : CanonicalMail (MailRes.invalid) := by
  grind [MailRes.invalid, CanonicalMail]

theorem canonical_MailRes_busy : CanonicalMail (MailRes.busy) := by
  grind [MailRes.busy, CanonicalMail]

theorem canonical_MailRes_notFound : CanonicalMail (MailRes.notFound) := by
  grind [MailRes.notFound, CanonicalMail]

theorem canonical_MailRes_full : CanonicalMail (MailRes.full) := by
  grind [MailRes.full, CanonicalMail]

theorem canonical_MailRes_refused : CanonicalMail (MailRes.refused) := by
  grind [MailRes.refused, CanonicalMail]

theorem canonical_respond {s : State} (r : MailReq) (opcode status : Nat) (payload : List Byte) (hs : Canonical s) :
    Canonical (s.respond r opcode status payload) := by
  grind [State.respond, canonical_updFunc]

theorem canonical_mailRequest {s : State} (r : MailReq) (opcode : Nat) (pf : Bool) (arg : Nat) (len : Nat → Bool)
    (f : Nat → State → MailRes) (hf : ∀ n u, Canonical u → CanonicalMail (f n u)) (hs : Canonical s) :
    ∀ t, s.mailRequest r opcode pf arg len f = .next t → Canonical t := by
  grind [State.mailRequest, MailRes.denied, MailRes.invalid, canonical_respond, CanonicalMail]

theorem canonical_withPart {s : State} (n : Nat) (f : Part → MailRes) (hf : ∀ p, CanonicalMail (f p)) : CanonicalMail (s.withPart n f) := by
  grind [State.withPart, MailRes.notFound, CanonicalMail]

theorem canonical_withQueue {s : State} (vf q : Nat) (f : Qcb → MailRes) (hf : ∀ b, CanonicalMail (f b)) :
    CanonicalMail (s.withQueue vf q f) := by
  unfold State.withQueue
  split
  · trivial
  · exact hf _

theorem canonical_execFeatAccept (r : MailReq) {s : State} (hs : Canonical s) : ∀ t, execFeatAccept r s = .next t → Canonical t := by
  grind [execFeatAccept, canonical_mailRequest, canonical_MailRes_denied, canonical_MailRes_busy, canonical_updFunc, CanonicalMail]

theorem canonical_execQueueStop (r : MailReq) {s : State} (hs : Canonical s) : ∀ t, execQueueStop r s = .next t → Canonical t := by
  grind [execQueueStop, canonical_mailRequest, canonical_withQueue, canonical_MailRes_busy, canonical_updQcb, CanonicalMail]

theorem canonical_execQueueStart (r : MailReq) {s : State} (hs : Canonical s) : ∀ t, execQueueStart r s = .next t → Canonical t := by
  grind [execQueueStart, canonical_mailRequest, canonical_withQueue, canonical_MailRes_busy, canonical_updQcb, CanonicalMail]

theorem canonical_dropGrids {s : State} (part vf q : Nat) (hs : Canonical s) : Canonical (s.dropGrids part vf q) := by
  grind [State.dropGrids, canonical_updPart, canonical_foldl]

theorem canonical_execQueueReset (r : MailReq) {s : State} (hs : Canonical s) : ∀ t, execQueueReset r s = .next t → Canonical t := by
  grind [execQueueReset, canonical_mailRequest, canonical_withQueue, canonical_MailRes_busy, canonical_dropGrids, canonical_updQcb,
    CanonicalMail]

theorem canonical_execFaultRead (r : MailReq) {s : State} (hs : Canonical s) : ∀ t, execFaultRead r s = .next t → Canonical t := by
  grind [execFaultRead, canonical_mailRequest, canonical_updFunc, CanonicalMail]

theorem canonical_execQuotaRead (r : MailReq) {s : State} (hs : Canonical s) : ∀ t, execQuotaRead r s = .next t → Canonical t := by
  grind [execQuotaRead, canonical_mailRequest, canonical_updFunc, CanonicalMail]

theorem canonical_refuseWaves {s : State} (vf page : Nat) (hs : Canonical s) : Canonical (s.refuseWaves vf page) := by
  grind [State.refuseWaves, canonical_iff]

theorem canonical_refuseCopies {s : State} (vf page : Nat) (hs : Canonical s) : Canonical (s.refuseCopies vf page) := by
  grind [State.refuseCopies, canonical_copyFault, canonical_foldl]

theorem canonical_refuseChains {s : State} (vf page : Nat) (hs : Canonical s) : Canonical (s.refuseChains vf page) := by
  unfold State.refuseChains
  split
  · exact hs
  · refine canonical_foldl _ _ (fun u x hu => canonical_ite _ hu ?_) hs
    split
    · split
      · exact canonical_ite _ (canonical_chainStop _ _ _ _ _ hu) hu
      · exact hu
    · exact hu

theorem canonical_refuseHost {s : State} (vf page : Nat) (hs : Canonical s) : Canonical (s.refuseHost vf page) := by
  grind [State.refuseHost, canonical_postRecord, canonical_foldl, canonical_iff]

theorem canonical_execQuotaAnswer (r : MailReq) {s : State} (hs : Canonical s) : ∀ t, execQuotaAnswer r s = .next t → Canonical t := by
  grind [execQuotaAnswer, canonical_mailRequest, canonical_MailRes_notFound, canonical_updFunc, canonical_refuseHost, canonical_refuseChains,
    canonical_refuseCopies, canonical_refuseWaves, CanonicalMail]

theorem canonical_execEventRead (r : MailReq) {s : State} (hs : Canonical s) : ∀ t, execEventRead r s = .next t → Canonical t := by
  grind [execEventRead, canonical_mailRequest, canonical_updFunc, CanonicalMail]

theorem canonical_execCtxKill (r : MailReq) {s : State} (hs : Canonical s) : ∀ t, execCtxKill r s = .next t → Canonical t := by
  grind [execCtxKill, canonical_mailRequest, canonical_MailRes_notFound, canonical_MailRes_denied, canonical_withQueue, canonical_killCtx,
    CanonicalMail]

theorem canonical_execChainReg (r : MailReq) {s : State} (hs : Canonical s) : ∀ t, execChainReg r s = .next t → Canonical t := by
  grind [execChainReg, canonical_mailRequest, canonical_MailRes_notFound, canonical_MailRes_invalid, canonical_MailRes_full, canonical_updPart,
    CanonicalMail]

theorem canonical_execChainUnreg (r : MailReq) {s : State} (hs : Canonical s) : ∀ t, execChainUnreg r s = .next t → Canonical t := by
  grind [execChainUnreg, canonical_mailRequest, canonical_MailRes_notFound, canonical_MailRes_busy, canonical_updPart, CanonicalMail]

theorem canonical_chainResume {s : State} (part : Nat) (x : Chain) (hs : Canonical s) : Canonical (s.chainResume part x) := by
  grind [State.chainResume, canonical_updChain]

theorem canonical_execChainRestart (r : MailReq) {s : State} (hs : Canonical s) : ∀ t, execChainRestart r s = .next t → Canonical t := by
  grind [execChainRestart, canonical_mailRequest, canonical_MailRes_notFound, canonical_chainResume, canonical_MailRes_busy, CanonicalMail]

theorem canonical_execChainSkip (r : MailReq) {s : State} (hs : Canonical s) : ∀ t, execChainSkip r s = .next t → Canonical t := by
  grind [execChainSkip, canonical_mailRequest, canonical_MailRes_notFound, canonical_MailRes_busy, canonical_chainNext, canonical_chainResume,
    CanonicalMail]

theorem canonical_execPoolSet (r : MailReq) {s : State} (hs : Canonical s) : ∀ t, execPoolSet r s = .next t → Canonical t := by
  grind [execPoolSet, canonical_mailRequest, canonical_MailRes_invalid, canonical_MailRes_denied, canonical_setPool, CanonicalMail]

theorem canonical_execDebugAuth (r : MailReq) {s : State} (hs : Canonical s) : ∀ t, execDebugAuth r s = .next t → Canonical t := by
  grind [execDebugAuth, canonical_mailRequest, canonical_updFunc, canonical_MailRes_notFound, CanonicalMail]

theorem canonical_execSnapRead (r : MailReq) {s : State} (hs : Canonical s) : ∀ t, execSnapRead r s = .next t → Canonical t := by
  grind [execSnapRead, canonical_mailRequest, canonical_MailRes_notFound, CanonicalMail]

theorem canonical_execTempRead (r : MailReq) {s : State} (hs : Canonical s) : ∀ t, execTempRead r s = .next t → Canonical t := by
  grind [execTempRead, canonical_mailRequest, CanonicalMail]

theorem canonical_execHqWrite (r : MailReq) {s : State} (hs : Canonical s) : ∀ t, execHqWrite r s = .next t → Canonical t := by
  grind [execHqWrite, canonical_mailRequest, canonical_MailRes_invalid, canonical_MailRes_busy, canonical_updFunc, canonical_updQcb,
    CanonicalMail]

theorem canonical_execTenant (r : MailReq) {s : State} (hs : Canonical s) : ∀ t, execTenant r s = .next t → Canonical t := by
  grind [execTenant, canonical_mailRequest, canonical_withPart, canonical_MailRes_notFound, canonical_MailRes_busy, canonical_updPart,
    canonical_MailRes_full, CanonicalMail]

theorem canonical_execPartConfig (r : MailReq) {s : State} (hs : Canonical s) : ∀ t, execPartConfig r s = .next t → Canonical t := by
  grind [execPartConfig, canonical_mailRequest, canonical_MailRes_invalid, canonical_MailRes_notFound, canonical_MailRes_denied,
    canonical_MailRes_busy, canonical_clearPart, canonical_tagRings, CanonicalMail, canonical_iff]

theorem canonical_execGrantRange (r : MailReq) {s : State} (hs : Canonical s) : ∀ t, execGrantRange r s = .next t → Canonical t := by
  grind [execGrantRange, canonical_mailRequest, canonical_MailRes_invalid, canonical_updFunc, canonical_MailRes_notFound, canonical_MailRes_full,
    CanonicalMail]

theorem canonical_execQuotaCtrl (r : MailReq) {s : State} (hs : Canonical s) : ∀ t, execQuotaCtrl r s = .next t → Canonical t := by
  grind [execQuotaCtrl, canonical_mailRequest, canonical_MailRes_invalid, canonical_withPart, canonical_MailRes_busy, canonical_updPart,
    CanonicalMail]

theorem canonical_execTeleSet (r : MailReq) {s : State} (hs : Canonical s) : ∀ t, execTeleSet r s = .next t → Canonical t := by
  grind [execTeleSet, canonical_mailRequest, canonical_MailRes_invalid, canonical_withPart, canonical_updPart, CanonicalMail]

theorem canonical_execTriggerMask (r : MailReq) {s : State} (hs : Canonical s) : ∀ t, execTriggerMask r s = .next t → Canonical t := by
  grind [execTriggerMask, canonical_mailRequest, canonical_MailRes_invalid, canonical_withPart, canonical_updPart, CanonicalMail]

theorem canonical_execTimerTrigger (r : MailReq) {s : State} (hs : Canonical s) : ∀ t, execTimerTrigger r s = .next t → Canonical t := by
  grind [execTimerTrigger, canonical_mailRequest, canonical_MailRes_invalid, canonical_withPart, canonical_updPart, CanonicalMail]

theorem canonical_execGroupReg (r : MailReq) {s : State} (hs : Canonical s) : ∀ t, execGroupReg r s = .next t → Canonical t := by
  grind [execGroupReg, canonical_mailRequest, canonical_MailRes_notFound, canonical_MailRes_invalid, canonical_MailRes_busy, CanonicalMail,
    canonical_iff]

theorem canonical_execPackageSet (r : MailReq) {s : State} (hs : Canonical s) : ∀ t, execPackageSet r s = .next t → Canonical t := by
  grind [execPackageSet, canonical_mailRequest, canonical_MailRes_invalid, canonical_MailRes_busy, CanonicalMail, canonical_foldl, canonical_iff]

theorem canonical_execPstate (r : MailReq) {s : State} (hs : Canonical s) : ∀ t, execPstate r s = .next t → Canonical t := by
  grind [execPstate, canonical_mailRequest, canonical_postPower, CanonicalMail, canonical_iff]

theorem canonical_execDuetForm (r : MailReq) {s : State} (hs : Canonical s) : ∀ t, execDuetForm r s = .next t → Canonical t := by
  grind [execDuetForm, canonical_mailRequest, canonical_withPart, canonical_MailRes_busy, canonical_MailRes_notFound, canonical_updPart,
    canonical_MailRes_invalid, canonical_MailRes_denied, CanonicalMail]

theorem canonical_setStandby {s : State} (c : Machine.Complex) (hs : Canonical s) : Canonical (s.setStandby c) := by
  grind [State.setStandby, canonical_iff]

theorem canonical_execFwLoad (r : MailReq) {s : State} (hs : Canonical s) : ∀ t, execFwLoad r s = .next t → Canonical t := by
  grind [execFwLoad, canonical_mailRequest, canonical_setStandby, CanonicalMail]

theorem canonical_endSessions {s : State} (hs : Canonical s) : Canonical s.endSessions := by
  grind [State.endSessions, canonical_postEvent, canonical_foldl, canonical_iff]

theorem canonical_execFwUpdate (r : MailReq) {s : State} (hs : Canonical s) : ∀ t, execFwUpdate r s = .next t → Canonical t := by
  grind [execFwUpdate, canonical_mailRequest, canonical_MailRes_invalid, canonical_MailRes_refused, canonical_setStandby, canonical_postAll,
    canonical_endSessions, CanonicalMail, canonical_iff]

theorem canonical_mailCarry {s : State} (r : MailReq) (opcode : Nat) (hs : Canonical s) : ∀ t, s.mailCarry r opcode = .next t → Canonical t := by
  unfold State.mailCarry
  split
  · exact canonical_execFeatAccept r hs
  · exact canonical_execQueueStop r hs
  · exact canonical_execQueueStart r hs
  · exact canonical_execQueueReset r hs
  · exact canonical_execFaultRead r hs
  · exact canonical_execQuotaRead r hs
  · exact canonical_execQuotaAnswer r hs
  · exact canonical_execCtxKill r hs
  · exact canonical_execChainReg r hs
  · exact canonical_execChainUnreg r hs
  · exact canonical_execChainRestart r hs
  · exact canonical_execChainSkip r hs
  · exact canonical_execPoolSet r hs
  · exact canonical_execDebugAuth r hs
  · exact canonical_execSnapRead r hs
  · exact canonical_execTempRead r hs
  · exact canonical_execEventRead r hs
  · exact canonical_execHqWrite r hs
  · exact canonical_execTenant r hs
  · exact canonical_execPartConfig r hs
  · exact canonical_execGrantRange r hs
  · exact canonical_execQuotaCtrl r hs
  · exact canonical_execTeleSet r hs
  · exact canonical_execTriggerMask r hs
  · exact canonical_execTimerTrigger r hs
  · exact canonical_execGroupReg r hs
  · exact canonical_execPackageSet r hs
  · exact canonical_execFwLoad r hs
  · exact canonical_execFwUpdate r hs
  · exact canonical_execPstate r hs
  · exact canonical_execDuetForm r hs
  · exact canonical_next (canonical_ite _ (canonical_respond _ _ _ _ hs) hs)

theorem canonical_mailServe {s : State} (vf : Nat) (hs : Canonical s) : ∀ t, s.mailServe vf = .next t → Canonical t := by
  grind [State.mailServe, canonical_respond, canonical_mailCarry]

/-! ### Machine/Spdm -/

theorem canonical_spdm {s : State} (fn : Nat) (ready : Spdm → Bool) (f : Spdm → Spdm) (hs : Canonical s) :
    ∀ t, s.spdm fn ready f = .next t → Canonical t := by
  grind [State.spdm, canonical_updFunc]

theorem canonical_execGetVersion (q : SpdmReq) {s : State} (hs : Canonical s) : ∀ t, execGetVersion q s = .next t → Canonical t := by
  grind [execGetVersion, canonical_spdm]

theorem canonical_execGetCapabilities (q : SpdmReq) {s : State} (hs : Canonical s) : ∀ t, execGetCapabilities q s = .next t → Canonical t := by
  grind [execGetCapabilities, canonical_spdm]

theorem canonical_execNegotiateAlgorithms (q : SpdmReq) {s : State} (hs : Canonical s) :
    ∀ t, execNegotiateAlgorithms q s = .next t → Canonical t := by
  grind [execNegotiateAlgorithms, canonical_spdm]

theorem canonical_execGetDigests (q : SpdmReq) {s : State} (hs : Canonical s) : ∀ t, execGetDigests q s = .next t → Canonical t := by
  grind [execGetDigests, canonical_spdm]

theorem canonical_execGetCertificate (q : SpdmReq) {s : State} (hs : Canonical s) : ∀ t, execGetCertificate q s = .next t → Canonical t := by
  grind [execGetCertificate, canonical_spdm]

theorem canonical_execChallenge (q : SpdmReq) {s : State} (hs : Canonical s) : ∀ t, execChallenge q s = .next t → Canonical t := by
  grind [execChallenge, canonical_spdm]

theorem canonical_execGetMeasurements (q : SpdmReq) {s : State} (hs : Canonical s) : ∀ t, execGetMeasurements q s = .next t → Canonical t := by
  grind [execGetMeasurements, canonical_spdm]

theorem canonical_execKeyExchange (q : SpdmReq) {s : State} (hs : Canonical s) : ∀ t, execKeyExchange q s = .next t → Canonical t := by
  grind [execKeyExchange, canonical_spdm]

theorem canonical_execFinish (q : SpdmReq) {s : State} (hs : Canonical s) : ∀ t, execFinish q s = .next t → Canonical t := by
  grind [execFinish, canonical_spdm]

theorem canonical_execEndSession (q : SpdmReq) {s : State} (hs : Canonical s) : ∀ t, execEndSession q s = .next t → Canonical t := by
  intro t ht
  dsimp only [execEndSession] at ht
  refine canonical_spdm _ _ _ (canonical_ite _ ?_ hs) t ht
  exact canonical_iff.mpr hs.wf

/-! ### Machine/Debug -/

theorem canonical_execDebugAttach (vf session : Nat) {s : State} (hs : Canonical s) :
    ∀ t, execDebugAttach vf session s = .next t → Canonical t := by
  grind [execDebugAttach, canonical_updFunc]

theorem canonical_stopIfPrecise {s : State} (id : WaveId) (hs : Canonical s) : Canonical (s.stopIfPrecise id) := by
  grind [State.stopIfPrecise, canonical_rebalance, canonical_setWave]

theorem canonical_debugStop {s : State} (vf : Nat) (id : WaveId) (hs : Canonical s) : Canonical (s.debugStop vf id) := by
  grind [State.debugStop, canonical_stopIfPrecise, canonical_updWave]

theorem canonical_debugStops {s : State} (vf : Nat) (ids : List WaveId) (hs : Canonical s) : Canonical (s.debugStops vf ids) := by
  grind [State.debugStops, canonical_debugStop, canonical_foldl]

theorem canonical_execDebugStop (vf : Nat) (target : DebugTarget) {s : State} (hs : Canonical s) :
    ∀ t, execDebugStop vf target s = .next t → Canonical t := by
  refine canonical_next (canonical_ite _ hs ?_)
  cases target with
  | wave id => exact canonical_debugStop _ _ hs
  | group core wg => exact canonical_debugStops _ _ hs
  | tenant => exact ⟨(canonical_debugStops _ _ hs).wf⟩

theorem canonical_debugWrite {s : State} (id : WaveId) (w : Wave) (item : DebugItem) (value : Word) (hs : Canonical s) :
    Canonical (s.debugWrite id w item value) := by
  have hset := fun w : Option Wave => canonical_setWave id w hs
  cases item with
  | pc l => exact hset _
  | vreg r l => exact canonical_ite _ (canonical_writeRegs _ _ hs) hs
  | sreg r => exact hset _
  | mask k => exact hset _
  | flags => exact hset _
  | space x o =>
    unfold State.debugWrite
    dsimp only
    split
    · exact canonical_ite _ (canonical_updCore _ _ hs) hs
    · exact hs
  | queue q => exact canonical_updWg _ _ _ hs
  | wake n => exact hset _

theorem canonical_execDebugStateAccess (vf : Nat) (w : WaveId) (write : Bool) (item : DebugItem) (value : Word) {s : State} (hs : Canonical s) :
    ∀ t, execDebugStateAccess vf w write item value s = .next t → Canonical t := by
  grind [execDebugStateAccess, canonical_debugWrite, canonical_answerRead]

theorem canonical_execDebugResume (vf : Nat) (w : WaveId) {s : State} (hs : Canonical s) :
    ∀ t, execDebugResume vf w s = .next t → Canonical t := by
  grind [execDebugResume, canonical_rebalance, canonical_setWave]

/-! ### Machine/Links -/

theorem canonical_duetMismatch {s : State} (part window : Nat) (hs : Canonical s) : Canonical (s.duetMismatch part window) := by
  grind [State.duetMismatch, canonical_telemetry, canonical_containPart]

theorem canonical_duetCompare {s : State} (part n : Nat) (hs : Canonical s) : Canonical (s.duetCompare part n) := by
  induction n generalizing s with
  | zero => exact hs
  | succ n ih => grind [State.duetCompare, canonical_updPart, canonical_commit, canonical_duetMismatch]

theorem canonical_evDuetClose {s : State} (part : Nat) (hs : Canonical s) : Canonical (s.evDuetClose part) := by
  grind [State.evDuetClose, canonical_duetMismatch, canonical_duetCompare, canonical_updPart]

theorem canonical_execDuetWindowClose (part : Nat) {s : State} (hs : Canonical s) : ∀ t, execDuetWindowClose part s = .next t → Canonical t := by
  grind [execDuetWindowClose, canonical_evDuetClose]

theorem canonical_execDuetDigestReceived (part : Nat) (digest : BitVec 256) {s : State} (hs : Canonical s) :
    ∀ t, execDuetDigestReceived part digest s = .next t → Canonical t := by
  grind [execDuetDigestReceived, canonical_duetCompare, canonical_updPart]

theorem canonical_updPort {s : State} (n : Nat) (f : Port → Port) (hs : Canonical s) : Canonical (s.updPort n f) := by
  grind [State.updPort, canonical_iff]

theorem canonical_linkEntry {s : State} (port code : Nat) (hs : Canonical s) : Canonical (s.linkEntry port code) := by
  grind [State.linkEntry, canonical_telemetry]

theorem canonical_portDown {s : State} (n : Nat) (hs : Canonical s) : Canonical (s.portDown n) := by
  grind [State.portDown, canonical_updPort, canonical_linkEntry, canonical_duetMismatch, canonical_foldl]

theorem canonical_execPortDown (port : Nat) {s : State} (hs : Canonical s) : ∀ t, execPortDown port s = .next t → Canonical t := by
  grind [execPortDown, canonical_portDown]

theorem canonical_execFlitReceive (port seq : Nat) (crcOk : Bool) {s : State} (hs : Canonical s) :
    ∀ t, execFlitReceive port seq crcOk s = .next t → Canonical t := by
  refine canonical_next (canonical_ite _ hs (canonical_ite _ (canonical_updPort _ _ hs) (canonical_ite _ hs ?_)))
  have hentry : ∀ (p : Prop) [Decidable p] (f : Port → Port), Canonical ((if p then s else s.updPort port f).linkEntry port 1) :=
    fun _ _ _ => canonical_linkEntry _ _ (canonical_ite _ hs (canonical_updPort _ _ hs))
  exact canonical_ite _ (canonical_portDown _ (hentry _ _)) (hentry _ _)

theorem canonical_evFlitAck {s : State} (port : Nat) (hs : Canonical s) : Canonical (s.evFlitAck port) := by
  grind [State.evFlitAck, canonical_updPort]

theorem canonical_evReplay {s : State} (port : Nat) (hs : Canonical s) : Canonical (s.evReplay port) := by
  grind [State.evReplay, canonical_updPort, canonical_linkEntry, canonical_portDown]

theorem canonical_execReplayTimeout (port : Nat) {s : State} (hs : Canonical s) : ∀ t, execReplayTimeout port s = .next t → Canonical t := by
  grind [execReplayTimeout, canonical_evReplay]

theorem canonical_evRemoteTimeout {s : State} (id : WaveId) (tag : Nat) (hs : Canonical s) : Canonical (s.evRemoteTimeout id tag) := by
  have hdefer := fun f code detail fmask xinfo => canonical_deferFault id f code detail fmask xinfo hs
  unfold State.evRemoteTimeout
  dsimp only
  split
  · exact hs
  · split
    · exact hs
    · split
      · exact hs
      · split
        · exact canonical_finishWith _ _ _ (hdefer _ _ _ _ _)
        · exact canonical_finishWith _ _ _ (hdefer _ _ _ _ _)
        · exact canonical_settleWg _ _ (canonical_finish _ _ (canonical_fillEntries _ _ _ _ _ _ hs))
        · exact canonical_finish _ _ hs
        · exact canonical_finish _ _ (hdefer _ _ _ _ _)
        · split
          · exact canonical_killCtx _ _ _ _ _ _ hs
          · exact hs

theorem canonical_execRemoteRequestTimeout (w : WaveId) (tag : Nat) {s : State} (hs : Canonical s) :
    ∀ t, execRemoteRequestTimeout w tag s = .next t → Canonical t := by
  grind [execRemoteRequestTimeout, canonical_evRemoteTimeout]

theorem canonical_fabricAdd {s : State} (place : FabricPlace) (m : RingMsg) (hs : Canonical s) : Canonical (s.fabricAdd place m) := by
  grind [State.fabricAdd, canonical_iff]

theorem canonical_updSlot {s : State} (key : Nat) (f : RingSlot → RingSlot) (hs : Canonical s) : Canonical (s.updSlot key f) := by
  grind [State.updSlot, canonical_iff]

theorem canonical_insertMsg {s : State} (key : Nat) (m : FabricMsg) (hs : Canonical s) : Canonical (s.insertMsg key m) := by
  grind [State.insertMsg, canonical_updSlot, canonical_iff]

theorem canonical_reserveSlot {s : State} (die ring source part : Nat) (hs : Canonical s) : Canonical (s.reserveSlot die ring source part) := by
  grind [State.reserveSlot, canonical_updSlot]

theorem canonical_execRingInsertReservation (die ring stop part : Nat) {s : State} (hs : Canonical s) :
    ∀ t, execRingInsertReservation die ring stop part s = .next t → Canonical t := by
  grind [execRingInsertReservation, canonical_reserveSlot]

theorem canonical_execBridgeInsertReservation (die ring bridge part : Nat) {s : State} (hs : Canonical s) :
    ∀ t, execBridgeInsertReservation die ring bridge part s = .next t → Canonical t := by
  grind [execBridgeInsertReservation, canonical_reserveSlot]

theorem canonical_stopCycle {s : State} (die ring stop : Nat) (hs : Canonical s) : Canonical (s.stopCycle die ring stop) := by
  grind [State.stopCycle, canonical_updSlot, canonical_fabricAdd, canonical_reserveSlot, canonical_insertMsg, canonical_foldl, canonical_iff]

theorem canonical_bridgeCycle {s : State} (m : FabricMsg) (hs : Canonical s) : Canonical (s.bridgeCycle m) := by
  grind [State.bridgeCycle, canonical_fabricAdd, canonical_iff]

theorem canonical_fabricCycle {s : State} (hs : Canonical s) : Canonical s.fabricCycle := by
  grind [State.fabricCycle, canonical_bridgeCycle, canonical_stopCycle, canonical_foldl]

/-! ### Machine/Background -/

theorem canonical_doAll {s : State} (fs : List (State → State)) (hfs : ∀ f ∈ fs, ∀ u, Canonical u → Canonical (f u)) (hs : Canonical s) :
    Canonical (s.doAll fs) :=
  List.foldlRecOn (motive := Canonical) fs _ hs (fun u hu f hf => hfs f hf u hu)

/-- The work of the waves. -/
theorem canonical_waveWork (s : State) : AllKeep s.waveWork := by
  refine allKeep_flatMap _ (fun e => ?_)
  refine allKeep_append (allKeep_append (allKeep_append (allKeep_append (allKeep_append ?_ ?_) ?_) ?_) ?_) ?_
  · exact allKeep_ite _ (allKeep_one (fun _ hu => canonical_evFixedLatency _ hu)) allKeep_nil
  · exact allKeep_ite _ (allKeep_one (fun _ hu => canonical_evFaultDelivery _ hu)) allKeep_nil
  · exact allKeep_ite _ (allKeep_one (fun _ hu => canonical_heldCheck _ hu)) allKeep_nil
  · exact allKeep_ite _ (allKeep_cons (fun _ hu => canonical_evWalkDone _ hu) (allKeep_cons (fun _ hu => canonical_evDemandMap _ hu)
      (allKeep_one (fun _ hu => canonical_evHoldExpiry _ hu)))) allKeep_nil
  · exact allKeep_ite _ (allKeep_one (fun _ hu => canonical_evPrefill _ hu))
      (allKeep_ite _ (allKeep_one (fun _ hu => canonical_evWake _ hu)) allKeep_nil)
  · exact allKeep_ite _ (allKeep_one (fun _ hu => canonical_stopIfPrecise _ hu)) allKeep_nil

/-- The replies of pending reads. -/
theorem canonical_missWork (s : State) : AllKeep s.missWork := allKeep_map _ (fun _ _ hu => canonical_missReturn _ hu)

theorem canonical_dropWalks {s : State} (hs : Canonical s) : Canonical s.dropWalks := by
  grind [State.dropWalks, canonical_iff]

/-- The work of the accesses. -/
theorem canonical_flightWork (s : State) : AllKeep s.flightWork := by
  refine allKeep_flatMap _ (fun r => allKeep_map _ (fun x u hu => ?_))
  split
  · exact canonical_landOne _ _ hu
  · exact canonical_evRemoteTimeout _ _ hu

/-- The accesses of saved waves. -/
theorem canonical_lateWork (s : State) : AllKeep s.lateWork := by
  refine allKeep_flatMap _ (fun p => allKeep_flatMap _ (fun i => ?_))
  split
  · exact allKeep_flatMap _ (fun _ => allKeep_map _ (fun _ _ hu => canonical_evLateArrival _ _ _ hu))
  · exact allKeep_nil

/-- The copy channels and the sequencers. -/
theorem canonical_coreWork (s : State) : AllKeep s.coreWork := by
  refine allKeep_flatMap _ (fun c => allKeep_append (allKeep_append (allKeep_flatMap _ (fun e => ?_)) (allKeep_flatMap _ (fun k => ?_))) ?_)
  · split
    · exact allKeep_map _ (fun _ _ hu => canonical_evCopyUnit _ _ _ hu)
    · exact allKeep_nil
  · exact allKeep_ite _ (allKeep_one (fun _ hu => canonical_evMatrixRetire _ _ hu))
      (allKeep_cons (fun _ hu => canonical_evMatrixStart _ _ hu) (allKeep_one (fun _ hu => canonical_evLadderStart _ _ hu)))
  · exact allKeep_ite _ (allKeep_one (fun _ hu => canonical_evShadow _ hu)) allKeep_nil

/-- The words of the L1s. -/
theorem canonical_cacheWork (s : State) : AllKeep s.cacheWork :=
  allKeep_flatMap _ (fun _ => allKeep_flatMap _ (fun _ => allKeep_append (allKeep_append
    (allKeep_ite _ (allKeep_one (fun _ hu => canonical_retryFences _ (canonical_ackWord _ _ hu))) allKeep_nil)
    (allKeep_ite _ (allKeep_one (fun _ hu => canonical_evWriteLeaveTimeout _ _ hu)) allKeep_nil))
    (allKeep_ite _ (allKeep_one (fun _ hu => canonical_evCleanLineExpiry _ _ hu)) allKeep_nil)))

/-- Held writes and revocations. -/
theorem canonical_watchWork (s : State) : AllKeep s.watchWork := by
  refine allKeep_append (allKeep_flatMap _ (fun h => ?_)) (allKeep_flatMap _ (fun p => allKeep_append (allKeep_flatMap _ (fun r => ?_)) ?_))
  · exact allKeep_cons (fun _ hu => canonical_evWatchReport _ hu) (allKeep_one (fun _ hu => canonical_evHeldRelease _ hu))
  · exact allKeep_append (allKeep_map _ (fun _ _ hu => canonical_evRevokeApply _ _ _ hu))
      (allKeep_cons (fun _ hu => canonical_evRevokeCombine _ _ hu) (allKeep_cons (fun _ hu => canonical_evRevokeRelease _ _ hu)
        (allKeep_one (fun _ hu => canonical_evSlotFree _ _ hu))))
  · exact allKeep_ite _ allKeep_nil (allKeep_one (fun _ hu => canonical_evRevokeLate _ hu))

/-- The census. -/
theorem canonical_censusWork (s : State) : AllKeep s.censusWork := by
  have hchanter := fun (part place level : Nat) (l : List Nat) =>
    allKeep_map l (fun n u hu => canonical_evChanter part place level n (s := u) hu)
  refine allKeep_flatMap _ (fun p => allKeep_append (allKeep_append ?_ (allKeep_flatMap _ (fun n => ?_))) (allKeep_flatMap _ (fun x => ?_)))
  · exact allKeep_ite _ allKeep_nil (allKeep_one (fun _ hu => canonical_rootOrderAll _ _ hu))
  · exact allKeep_append (allKeep_cons (fun _ hu => canonical_evCommitApply _ hu) (allKeep_one (fun _ hu => canonical_evSolicitApply _ hu)))
      (allKeep_ite _ (allKeep_one (fun _ hu => canonical_startResponders _ _ hu)) allKeep_nil)
  · exact allKeep_append (allKeep_append (allKeep_append (hchanter _ _ _ _) (hchanter _ _ _ _)) (hchanter _ _ _ _))
      (allKeep_cons (fun _ hu => canonical_evChanter _ _ _ _ hu) (allKeep_one (fun _ hu => canonical_evCensusDone _ _ hu)))

theorem canonical_nextOf {s : State} (o : Host.Outcome State Fault Refusal) (ho : ∀ t, o = .next t → Canonical t) (hs : Canonical s) :
    Canonical (nextOf s o) := by
  unfold nextOf
  split
  · exact ho _ rfl
  · exact hs

/-- The chains. -/
theorem canonical_chainWork (s : State) : AllKeep s.chainWork :=
  allKeep_flatMap _ (fun _ => allKeep_flatMap _ (fun _ =>
    allKeep_cons (fun _ hu => canonical_nextOf _ (canonical_execChainCopy _ _ hu) hu) <|
    allKeep_cons (fun _ hu => canonical_nextOf _ (canonical_execChainReduce _ _ hu) hu) <|
    allKeep_cons (fun _ hu => canonical_nextOf _ (canonical_execChainAllreduce _ _ _ hu) hu) <|
    allKeep_cons (fun _ hu => canonical_nextOf _ (canonical_execChainSignal _ _ hu) hu) <|
    allKeep_one (fun _ hu => canonical_nextOf _ (canonical_execChainWaitEntry _ _ hu) hu)))

theorem canonical_takeNext {s : State} (part : Nat) (hs : Canonical s) : Canonical (s.takeNext part) := by
  unfold State.takeNext
  dsimp only
  split
  · exact hs
  · refine canonical_nextOf _ ?_ hs
    split
    · exact canonical_next hs
    · exact canonical_execSignalPacket _ _ hs
    · exact canonical_execWaitPacket _ _ hs
    · exact canonical_execMapPacket _ _ hs
    · exact canonical_execUnmapPacket _ _ hs
    · exact canonical_execNopPacket _ _ hs

/-- The packets. -/
theorem canonical_packetWork (s : State) : AllKeep s.packetWork := by
  refine allKeep_flatMap _ (fun p => allKeep_append (allKeep_flatMap _ (fun vf => allKeep_flatMap _ (fun q => allKeep_append ?_ ?_))) ?_)
  · exact allKeep_ite _ (allKeep_one (fun _ hu => canonical_nextOf _ (canonical_execWaitPacket _ _ hu) hu)) allKeep_nil
  · refine allKeep_ite _ allKeep_nil (allKeep_one (fun u hu => canonical_ite _ hu (canonical_nextOf _ ?_ hu)))
    split
    · exact canonical_execSignalPacket _ _ hu
    · exact canonical_execUnmapPacket _ _ hu
  · exact allKeep_ite _ allKeep_nil (allKeep_one (fun _ hu => canonical_takeNext _ hu))

/-- The dispatch. -/
theorem canonical_dispatchWork (s : State) : AllKeep s.dispatchWork :=
  allKeep_flatMap _ (fun _ => allKeep_append (allKeep_append (allKeep_one (fun _ hu => canonical_evDispatch _ hu))
    (allKeep_ite _ allKeep_nil (allKeep_append (allKeep_map _ (fun _ _ hu => canonical_evPlacer _ hu))
      (allKeep_map _ (fun _ _ hu => canonical_evPlacer _ (canonical_evSteal _ hu))))))
    (allKeep_map _ (fun _ _ hu => canonical_evGridComplete _ _ hu)))

/-- Slices, evictions, pre-emptions, restores and containments. -/
theorem canonical_turnWork (s : State) : AllKeep s.turnWork := by
  refine allKeep_append (allKeep_flatMap _ (fun p => allKeep_append ?_ ?_)) (allKeep_flatMap _ (fun c => allKeep_append ?_
    (allKeep_flatMap _ (fun e => ?_))))
  · exact allKeep_cons (fun _ hu => canonical_evGraceEnd _ hu) (allKeep_one (fun _ hu => canonical_evSliceExpiry _ hu))
  · exact allKeep_flatMap _ (fun _ => allKeep_map _ (fun _ _ hu => canonical_evRestore _ _ _ hu))
  · exact allKeep_ite _ (allKeep_one (fun _ hu => canonical_evPreempt _ hu)) allKeep_nil
  · split
    · exact allKeep_ite _ (allKeep_one (fun _ hu => canonical_evContain _ _ hu)) (allKeep_one (fun _ hu => canonical_evSoftEvict _ _ hu))
    · exact allKeep_nil

/-- The firmware, the host and the edge. -/
theorem canonical_edgeWork (s : State) : AllKeep s.edgeWork := by
  refine allKeep_append (allKeep_append (allKeep_append (allKeep_append (allKeep_append (allKeep_append ?_ ?_) ?_) ?_) ?_) ?_) ?_
  · exact allKeep_one (fun _ hu => canonical_evRecordPost hu)
  · exact allKeep_flatMap _ (fun _ => allKeep_cons (fun _ hu => canonical_evTrimReturn _ (canonical_trimDrops _ hu)) <|
      allKeep_cons (fun _ hu => canonical_evSnapshotTimer _ hu) <| allKeep_cons (fun _ hu => canonical_evDuetClose _ hu) <|
      allKeep_one (fun _ hu => canonical_quotaTick _ hu))
  · exact allKeep_map _ (fun _ _ hu => canonical_nextOf _ (canonical_mailServe _ hu) hu)
  · exact allKeep_map _ (fun _ _ hu => canonical_hostRetry _ hu)
  · exact allKeep_flatMap _ (fun _ => allKeep_ite _ allKeep_nil
      (allKeep_cons (fun _ hu => canonical_evFlitAck _ hu) (allKeep_one (fun _ hu => canonical_evReplay _ hu))))
  · exact allKeep_flatMap _ (fun _ => allKeep_map _ (fun _ _ hu => canonical_evDisplace _ _ hu))
  · exact allKeep_map _ (fun _ _ hu => canonical_evSaveAhead _ hu)

/-- Every kind of work. -/
theorem canonical_cycleWork (s : State) : ∀ kind ∈ cycleWork, AllKeep (kind s) := by
  simp only [cycleWork, List.forall_mem_cons, List.not_mem_nil, false_imp_iff, implies_true, and_true]
  exact ⟨canonical_waveWork s, canonical_missWork s, canonical_flightWork s, canonical_coreWork s, canonical_cacheWork s, canonical_watchWork s,
    canonical_censusWork s, canonical_chainWork s, canonical_packetWork s, canonical_dispatchWork s, canonical_turnWork s, canonical_lateWork s,
    canonical_edgeWork s⟩

theorem canonical_endCycle {s : State} (hs : Canonical s) : Canonical s.endCycle := by
  have hwork : Canonical (cycleWork.foldl (fun (s : State) kind => s.doAll (kind s)) s) :=
    List.foldlRecOn (motive := Canonical) _ _ hs (fun u hu kind hkind => canonical_doAll _ (canonical_cycleWork u kind hkind) hu)
  exact canonical_tick _ _ (canonical_fabricCycle (canonical_dropWalks hwork))

/-! ### Machine/Convert -/

theorem canonical_execCvt (w : RWord) {s : State} (hs : Canonical s) : ∀ t, execCvt w s = .next t → Canonical t := by
  grind [execCvt, canonical_issueWord, canonical_Ctx_calc, CanonicalRes]

theorem canonical_execCvtPk8 (w : RWord) {s : State} (hs : Canonical s) : ∀ t, execCvtPk8 w s = .next t → Canonical t := by
  grind [execCvtPk8, canonical_issueWord, canonical_Ctx_calc, CanonicalRes]

theorem canonical_execCvtEx8 (w : RWord) {s : State} (hs : Canonical s) : ∀ t, execCvtEx8 w s = .next t → Canonical t := by
  grind [execCvtEx8, canonical_issueWord, canonical_Ctx_calc, CanonicalRes]

theorem canonical_execQ4Scale (w : RWord) {s : State} (hs : Canonical s) : ∀ t, execQ4Scale w s = .next t → Canonical t := by
  grind [execQ4Scale, canonical_issueWord, canonical_Ctx_put, CanonicalRes]

theorem canonical_execQ4Enc (w : RWord) {s : State} (hs : Canonical s) : ∀ t, execQ4Enc w s = .next t → Canonical t := by
  grind [execQ4Enc, canonical_issueWord, canonical_Ctx_calc, CanonicalRes]

theorem canonical_execQ4Dec (w : RWord) {s : State} (hs : Canonical s) : ∀ t, execQ4Dec w s = .next t → Canonical t := by
  grind [execQ4Dec, canonical_issueWord, canonical_Ctx_calc, CanonicalRes]

theorem canonical_execNibPack (w : RWord) {s : State} (hs : Canonical s) : ∀ t, execNibPack w s = .next t → Canonical t := by
  grind [execNibPack, canonical_issueWord, canonical_Ctx_put32, CanonicalRes, canonical_foldl]

theorem canonical_execNibUnpk (w : RWord) {s : State} (hs : Canonical s) : ∀ t, execNibUnpk w s = .next t → Canonical t := by
  grind [execNibUnpk, canonical_issueWord, canonical_Ctx_put32, CanonicalRes]

/-! ### Machine/HalfOps -/

theorem canonical_Ctx_pair (c : Ctx) {s : State} (a b : Half) (hs : Canonical s) : CanonicalRes (c.pair s a b) := by
  grind [Ctx.pair, canonical_Ctx_put, CanonicalRes]

theorem canonical_execHnop (m : Bool) (a : HalfFields) (b : Half) {s : State} (hs : Canonical s) :
    ∀ t, execHnop m a b s = .next t → Canonical t := by
  grind [execHnop, canonical_issueWord, canonical_Ctx_pair, CanonicalRes]

theorem canonical_execHmov (m : Bool) (a : HalfFields) (b : Half) {s : State} (hs : Canonical s) :
    ∀ t, execHmov m a b s = .next t → Canonical t := by
  grind [execHmov, canonical_issueWord, canonical_Ctx_pair, CanonicalRes]

theorem canonical_execHiadd (m : Bool) (a : HalfFields) (b : Half) {s : State} (hs : Canonical s) :
    ∀ t, execHiadd m a b s = .next t → Canonical t := by
  grind [execHiadd, canonical_issueWord, canonical_Ctx_pair, CanonicalRes]

theorem canonical_execHisub (m : Bool) (a : HalfFields) (b : Half) {s : State} (hs : Canonical s) :
    ∀ t, execHisub m a b s = .next t → Canonical t := by
  grind [execHisub, canonical_issueWord, canonical_Ctx_pair, CanonicalRes]

theorem canonical_execHand (m : Bool) (a : HalfFields) (b : Half) {s : State} (hs : Canonical s) :
    ∀ t, execHand m a b s = .next t → Canonical t := by
  grind [execHand, canonical_issueWord, canonical_Ctx_pair, CanonicalRes]

theorem canonical_execHor (m : Bool) (a : HalfFields) (b : Half) {s : State} (hs : Canonical s) :
    ∀ t, execHor m a b s = .next t → Canonical t := by
  grind [execHor, canonical_issueWord, canonical_Ctx_pair, CanonicalRes]

theorem canonical_execHxor (m : Bool) (a : HalfFields) (b : Half) {s : State} (hs : Canonical s) :
    ∀ t, execHxor m a b s = .next t → Canonical t := by
  grind [execHxor, canonical_issueWord, canonical_Ctx_pair, CanonicalRes]

theorem canonical_execHimin (m : Bool) (a : HalfFields) (b : Half) {s : State} (hs : Canonical s) :
    ∀ t, execHimin m a b s = .next t → Canonical t := by
  grind [execHimin, canonical_issueWord, canonical_Ctx_pair, CanonicalRes]

theorem canonical_execHimax (m : Bool) (a : HalfFields) (b : Half) {s : State} (hs : Canonical s) :
    ∀ t, execHimax m a b s = .next t → Canonical t := by
  grind [execHimax, canonical_issueWord, canonical_Ctx_pair, CanonicalRes]

theorem canonical_execHshl (m : Bool) (a : HalfFields) (b : Half) {s : State} (hs : Canonical s) :
    ∀ t, execHshl m a b s = .next t → Canonical t := by
  grind [execHshl, canonical_issueWord, canonical_Ctx_pair, CanonicalRes]

theorem canonical_execHshr (m : Bool) (a : HalfFields) (b : Half) {s : State} (hs : Canonical s) :
    ∀ t, execHshr m a b s = .next t → Canonical t := by
  grind [execHshr, canonical_issueWord, canonical_Ctx_pair, CanonicalRes]

theorem canonical_execHsar (m : Bool) (a : HalfFields) (b : Half) {s : State} (hs : Canonical s) :
    ∀ t, execHsar m a b s = .next t → Canonical t := by
  grind [execHsar, canonical_issueWord, canonical_Ctx_pair, CanonicalRes]

theorem canonical_execHfadd (m : Bool) (a : HalfFields) (b : Half) {s : State} (hs : Canonical s) :
    ∀ t, execHfadd m a b s = .next t → Canonical t := by
  grind [execHfadd, canonical_issueWord, canonical_Ctx_pair, CanonicalRes]

theorem canonical_execHfmul (m : Bool) (a : HalfFields) (b : Half) {s : State} (hs : Canonical s) :
    ∀ t, execHfmul m a b s = .next t → Canonical t := by
  grind [execHfmul, canonical_issueWord, canonical_Ctx_pair, CanonicalRes]

theorem canonical_execHfmin (m : Bool) (a : HalfFields) (b : Half) {s : State} (hs : Canonical s) :
    ∀ t, execHfmin m a b s = .next t → Canonical t := by
  grind [execHfmin, canonical_issueWord, canonical_Ctx_pair, CanonicalRes]

theorem canonical_execHfmax (m : Bool) (a : HalfFields) (b : Half) {s : State} (hs : Canonical s) :
    ∀ t, execHfmax m a b s = .next t → Canonical t := by
  grind [execHfmax, canonical_issueWord, canonical_Ctx_pair, CanonicalRes]

theorem canonical_execHiaddi (m : Bool) (a : HalfFields) (b : Half) {s : State} (hs : Canonical s) :
    ∀ t, execHiaddi m a b s = .next t → Canonical t := by
  grind [execHiaddi, canonical_issueWord, canonical_Ctx_pair, CanonicalRes]

theorem canonical_execHandi (m : Bool) (a : HalfFields) (b : Half) {s : State} (hs : Canonical s) :
    ∀ t, execHandi m a b s = .next t → Canonical t := by
  grind [execHandi, canonical_issueWord, canonical_Ctx_pair, CanonicalRes]

theorem canonical_execHshli (m : Bool) (a : HalfFields) (b : Half) {s : State} (hs : Canonical s) :
    ∀ t, execHshli m a b s = .next t → Canonical t := by
  grind [execHshli, canonical_issueWord, canonical_Ctx_pair, CanonicalRes]

theorem canonical_execHshri (m : Bool) (a : HalfFields) (b : Half) {s : State} (hs : Canonical s) :
    ∀ t, execHshri m a b s = .next t → Canonical t := by
  grind [execHshri, canonical_issueWord, canonical_Ctx_pair, CanonicalRes]

theorem canonical_execHmovi (m : Bool) (a : HalfFields) (b : Half) {s : State} (hs : Canonical s) :
    ∀ t, execHmovi m a b s = .next t → Canonical t := by
  grind [execHmovi, canonical_issueWord, canonical_Ctx_pair, CanonicalRes]

theorem canonical_execHfneg (m : Bool) (a : HalfFields) (b : Half) {s : State} (hs : Canonical s) :
    ∀ t, execHfneg m a b s = .next t → Canonical t := by
  grind [execHfneg, canonical_issueWord, canonical_Ctx_pair, CanonicalRes]

theorem canonical_execHfabs (m : Bool) (a : HalfFields) (b : Half) {s : State} (hs : Canonical s) :
    ∀ t, execHfabs m a b s = .next t → Canonical t := by
  grind [execHfabs, canonical_issueWord, canonical_Ctx_pair, CanonicalRes]

theorem canonical_execHnot (m : Bool) (a : HalfFields) (b : Half) {s : State} (hs : Canonical s) :
    ∀ t, execHnot m a b s = .next t → Canonical t := by
  grind [execHnot, canonical_issueWord, canonical_Ctx_pair, CanonicalRes]

/-! ### Machine/Dispatch -/

theorem canonical_exec (i : Instr) {s : State} (hs : Canonical s) : ∀ t, exec i s = .next t → Canonical t := by
  cases i with
  | nop w => exact canonical_execNop w hs
  | exit w => exact canonical_execExit w hs
  | jmp w => exact canonical_execJmp w hs
  | brv w => exact canonical_execBrv w hs
  | bru w => exact canonical_execBru w hs
  | jmpi w => exact canonical_execJmpi w hs
  | call w => exact canonical_execCall w hs
  | calli w => exact canonical_execCalli w hs
  | ret w => exact canonical_execRet w hs
  | rwait w => exact canonical_execRwait w hs
  | loop w => exact canonical_execLoop w hs
  | yield w => exact canonical_execYield w hs
  | priPass w => exact canonical_execPriPass w hs
  | sleep w => exact canonical_execSleep w hs
  | trap w => exact canonical_execTrap w hs
  | tret w => exact canonical_execTret w hs
  | barFull w => exact canonical_execBarFull w hs
  | barArrive w => exact canonical_execBarArrive w hs
  | barWait w => exact canonical_execBarWait w hs
  | barEnsFull w => exact canonical_execBarEnsFull w hs
  | barEnsArrive w => exact canonical_execBarEnsArrive w hs
  | barEnsWait w => exact canonical_execBarEnsWait w hs
  | brk w => exact canonical_execBrk w hs
  | snap w => exact canonical_execSnap w hs
  | iadd w => exact canonical_execIadd w hs
  | isub w => exact canonical_execIsub w hs
  | imul w => exact canonical_execImul w hs
  | imulh w => exact canonical_execImulh w hs
  | imad w => exact canonical_execImad w hs
  | iabs w => exact canonical_execIabs w hs
  | imin w => exact canonical_execImin w hs
  | imax w => exact canonical_execImax w hs
  | shl w => exact canonical_execShl w hs
  | shr w => exact canonical_execShr w hs
  | sar w => exact canonical_execSar w hs
  | rot w => exact canonical_execRot w hs
  | wext w => exact canonical_execWext w hs
  | lfn w => exact canonical_execLfn w hs
  | andW w => exact canonical_execAndW w hs
  | orW w => exact canonical_execOrW w hs
  | xorW w => exact canonical_execXorW w hs
  | andn w => exact canonical_execAndn w hs
  | notW w => exact canonical_execNotW w hs
  | bfe w => exact canonical_execBfe w hs
  | bfi w => exact canonical_execBfi w hs
  | popc w => exact canonical_execPopc w hs
  | clz w => exact canonical_execClz w hs
  | ctz w => exact canonical_execCtz w hs
  | brev w => exact canonical_execBrev w hs
  | bsel w => exact canonical_execBsel w hs
  | icmp w => exact canonical_execIcmp w hs
  | sel w => exact canonical_execSel w hs
  | mov w => exact canonical_execMov w hs
  | dot4 w => exact canonical_execDot4 w hs
  | isad w => exact canonical_execIsad w hs
  | idiv w => exact canonical_execIdiv w hs
  | iaddi w => exact canonical_execIaddi w hs
  | imuli w => exact canonical_execImuli w hs
  | andi w => exact canonical_execAndi w hs
  | ori w => exact canonical_execOri w hs
  | xori w => exact canonical_execXori w hs
  | shli w => exact canonical_execShli w hs
  | shri w => exact canonical_execShri w hs
  | sari w => exact canonical_execSari w hs
  | movi w => exact canonical_execMovi w hs
  | movhi w => exact canonical_execMovhi w hs
  | icmpi w => exact canonical_execIcmpi w hs
  | add64 w => exact canonical_execAdd64 w hs
  | sub64 w => exact canonical_execSub64 w hs
  | mul64 w => exact canonical_execMul64 w hs
  | shl64 w => exact canonical_execShl64 w hs
  | shr64 w => exact canonical_execShr64 w hs
  | lea w => exact canonical_execLea w hs
  | cmp64 w => exact canonical_execCmp64 w hs
  | sel64 w => exact canonical_execSel64 w hs
  | movSr w => exact canonical_execMovSr w hs
  | movSs w => exact canonical_execMovSs w hs
  | laneRd w => exact canonical_execLaneRd w hs
  | laneWr w => exact canonical_execLaneWr w hs
  | kop w => exact canonical_execKop w hs
  | kmov w => exact canonical_execKmov w hs
  | kpop w => exact canonical_execKpop w hs
  | kffs w => exact canonical_execKffs w hs
  | fadd w => exact canonical_execFadd w hs
  | fsub w => exact canonical_execFsub w hs
  | fmul w => exact canonical_execFmul w hs
  | fma w => exact canonical_execFma w hs
  | fmin w => exact canonical_execFmin w hs
  | fmax w => exact canonical_execFmax w hs
  | fcmp w => exact canonical_execFcmp w hs
  | fclass w => exact canonical_execFclass w hs
  | frcp w => exact canonical_execFrcp w hs
  | frsq w => exact canonical_execFrsq w hs
  | fsqrt w => exact canonical_execFsqrt w hs
  | fexp2 w => exact canonical_execFexp2 w hs
  | flog2 w => exact canonical_execFlog2 w hs
  | fsin w => exact canonical_execFsin w hs
  | fcos w => exact canonical_execFcos w hs
  | fround w => exact canonical_execFround w hs
  | ffract w => exact canonical_execFfract w hs
  | fldexp w => exact canonical_execFldexp w hs
  | fexs w => exact canonical_execFexs w hs
  | ftanh w => exact canonical_execFtanh w hs
  | hadd2 w => exact canonical_execHadd2 w hs
  | hmul2 w => exact canonical_execHmul2 w hs
  | hfma2 w => exact canonical_execHfma2 w hs
  | hmax2 w => exact canonical_execHmax2 w hs
  | fdot2 w => exact canonical_execFdot2 w hs
  | cvt w => exact canonical_execCvt w hs
  | cvtPk8 w => exact canonical_execCvtPk8 w hs
  | cvtEx8 w => exact canonical_execCvtEx8 w hs
  | q4Scale w => exact canonical_execQ4Scale w hs
  | q4Enc w => exact canonical_execQ4Enc w hs
  | q4Dec w => exact canonical_execQ4Dec w hs
  | nibPack w => exact canonical_execNibPack w hs
  | nibUnpk w => exact canonical_execNibUnpk w hs
  | vote w => exact canonical_execVote w hs
  | matchL w => exact canonical_execMatchL w hs
  | xlane w => exact canonical_execXlane w hs
  | red w => exact canonical_execRed w hs
  | scan w => exact canonical_execScan w hs
  | elect w => exact canonical_execElect w hs
  | uchk w => exact canonical_execUchk w hs
  | ldSp w => exact canonical_execLdSp w hs
  | stSp w => exact canonical_execStSp w hs
  | ldA w => exact canonical_execLdA w hs
  | stA w => exact canonical_execStA w hs
  | ldC w => exact canonical_execLdC w hs
  | stC w => exact canonical_execStC w hs
  | ldRsp w => exact canonical_execLdRsp w hs
  | stRsp w => exact canonical_execStRsp w hs
  | dqLd w => exact canonical_execDqLd w hs
  | dqPop w => exact canonical_execDqPop w hs
  | stG w => exact canonical_execStG w hs
  | ldP w => exact canonical_execLdP w hs
  | stP w => exact canonical_execStP w hs
  | dqCfg w => exact canonical_execDqCfg w hs
  | dqLvl w => exact canonical_execDqLvl w hs
  | pref w => exact canonical_execPref w hs
  | ldK w => exact canonical_execLdK w hs
  | lnkLd w => exact canonical_execLnkLd w hs
  | xcopy w => exact canonical_execXcopy w hs
  | cpSeal w => exact canonical_execCpSeal w hs
  | cpWait w => exact canonical_execCpWait w hs
  | cpWp w => exact canonical_execCpWp w hs
  | cpWpw w => exact canonical_execCpWpw w hs
  | chainAdd w => exact canonical_execChainAdd w hs
  | chainSeq w => exact canonical_execChainSeq w hs
  | chainWait w => exact canonical_execChainWait w hs
  | gather w => exact canonical_execGather w hs
  | kvtrim w => exact canonical_execKvtrim w hs
  | atom w => exact canonical_execAtom w hs
  | atomCas w => exact canonical_execAtomCas w hs
  | redG w => exact canonical_execRedG w hs
  | atomSp w => exact canonical_execAtomSp w hs
  | acq w => exact canonical_execAcq w hs
  | acqTry w => exact canonical_execAcqTry w hs
  | rel w => exact canonical_execRel w hs
  | bind w => exact canonical_execBind w hs
  | unbind w => exact canonical_execUnbind w hs
  | fence w => exact canonical_execFence w hs
  | xfence w => exact canonical_execXfence w hs
  | xfenceCh w => exact canonical_execXfenceCh w hs
  | mres w => exact canonical_execMres w hs
  | mfree w => exact canonical_execMfree w hs
  | mmaQ w => exact canonical_execMmaQ w hs
  | mma w => exact canonical_execMma w hs
  | mqk w => exact canonical_execMqk w hs
  | msv w => exact canonical_execMsv w hs
  | mwait w => exact canonical_execMwait w hs
  | mwaitAll w => exact canonical_execMwaitAll w hs
  | smpLd w => exact canonical_execSmpLd w hs
  | mrow w => exact canonical_execMrow w hs
  | mscale w => exact canonical_execMscale w hs
  | mtrans w => exact canonical_execMtrans w hs
  | mzero w => exact canonical_execMzero w hs
  | asmNew w => exact canonical_execAsmNew w hs
  | asmArm w => exact canonical_execAsmArm w hs
  | asmDep w => exact canonical_execAsmDep w hs
  | asmTestObj w => exact canonical_execAsmTestObj w hs
  | asmTestReg w => exact canonical_execAsmTestReg w hs
  | asmDropObj w => exact canonical_execAsmDropObj w hs
  | asmDropReg w => exact canonical_execAsmDropReg w hs
  | asmInfoPc w => exact canonical_execAsmInfoPc w hs
  | asmInfoRec w => exact canonical_execAsmInfoRec w hs
  | asmInfoClr w => exact canonical_execAsmInfoClr w hs
  | ladInit w => exact canonical_execLadInit w hs
  | ladPush w => exact canonical_execLadPush w hs
  | ladBlend w => exact canonical_execLadBlend w hs
  | ladRungLd w => exact canonical_execLadRungLd w hs
  | ladRungSt w => exact canonical_execLadRungSt w hs
  | ladRungCnt w => exact canonical_execLadRungCnt w hs
  | dirIns w => exact canonical_execDirIns w hs
  | dirDel w => exact canonical_execDirDel w hs
  | dirMov w => exact canonical_execDirMov w hs
  | dirLook w => exact canonical_execDirLook w hs
  | sol w => exact canonical_execSol w hs
  | cnsWait w => exact canonical_execCnsWait w hs
  | cnsRd w => exact canonical_execCnsRd w hs
  | respEnd w => exact canonical_execRespEnd w hs
  | rdsr w => exact canonical_execRdsr w hs
  | wrsr w => exact canonical_execWrsr w hs
  | segBind w => exact canonical_execSegBind w hs
  | ptok w => exact canonical_execPtok w hs
  | perf w => exact canonical_execPerf w hs
  | clk w => exact canonical_execClk w hs
  | clkWave w => exact canonical_execClkWave w hs
  | halt w => exact canonical_execHalt w hs
  | tlbInvPage w => exact canonical_execTlbInvPage w hs
  | tlbInvVf w => exact canonical_execTlbInvVf w hs
  | tlbInvPart w => exact canonical_execTlbInvPart w hs
  | ctxSv w => exact canonical_execCtxSv w hs
  | ctxLd w => exact canonical_execCtxLd w hs
  | hnop m a b => exact canonical_execHnop m a b hs
  | hmov m a b => exact canonical_execHmov m a b hs
  | hiadd m a b => exact canonical_execHiadd m a b hs
  | hisub m a b => exact canonical_execHisub m a b hs
  | hand m a b => exact canonical_execHand m a b hs
  | hor m a b => exact canonical_execHor m a b hs
  | hxor m a b => exact canonical_execHxor m a b hs
  | himin m a b => exact canonical_execHimin m a b hs
  | himax m a b => exact canonical_execHimax m a b hs
  | hshl m a b => exact canonical_execHshl m a b hs
  | hshr m a b => exact canonical_execHshr m a b hs
  | hsar m a b => exact canonical_execHsar m a b hs
  | hfadd m a b => exact canonical_execHfadd m a b hs
  | hfmul m a b => exact canonical_execHfmul m a b hs
  | hfmin m a b => exact canonical_execHfmin m a b hs
  | hfmax m a b => exact canonical_execHfmax m a b hs
  | hiaddi m a b => exact canonical_execHiaddi m a b hs
  | handi m a b => exact canonical_execHandi m a b hs
  | hshli m a b => exact canonical_execHshli m a b hs
  | hshri m a b => exact canonical_execHshri m a b hs
  | hmovi m a b => exact canonical_execHmovi m a b hs
  | hfneg m a b => exact canonical_execHfneg m a b hs
  | hfabs m a b => exact canonical_execHfabs m a b hs
  | hnot m a b => exact canonical_execHnot m a b hs
  | rwaitTimeout w => exact canonical_execRwaitTimeout w hs
  | remoteScratchpadReply w tag => exact canonical_execRemoteScratchpadReply w tag hs
  | queueEntryFill w tag => exact canonical_execQueueEntryFill w tag hs
  | directLoadReturn w tag => exact canonical_execDirectLoadReturn w tag hs
  | copyUnitVisible core wg channel => exact canonical_execCopyUnitVisible core wg channel hs
  | gatherRowLand w tag lane => exact canonical_execGatherRowLand w tag lane hs
  | trimFrameReturn part => exact canonical_execTrimFrameReturn part hs
  | cellRequestAtHome w tag => exact canonical_execCellRequestAtHome w tag hs
  | acquireGrant w tag => exact canonical_execAcquireGrant w tag hs
  | registrationAtHome core word => exact canonical_execRegistrationAtHome core word hs
  | registrationAck core word => exact canonical_execRegistrationAck core word hs
  | writeLeaveTimeout core word => exact canonical_execWriteLeaveTimeout core word hs
  | cleanLineExpiry core line => exact canonical_execCleanLineExpiry core line hs
  | smpImageFetchComplete w tag => exact canonical_execSmpImageFetchComplete w tag hs
  | matrixCommandStart core cmd => exact canonical_execMatrixCommandStart core cmd hs
  | matrixCommandRetire core cmd => exact canonical_execMatrixCommandRetire core cmd hs
  | shadowCheckComplete core => exact canonical_execShadowCheckComplete core hs
  | registryOperation w tag => exact canonical_execRegistryOperation w tag hs
  | watchReportAtRegistry held => exact canonical_execWatchReportAtRegistry held hs
  | heldWriteSliceRelease held => exact canonical_execHeldWriteSliceRelease held hs
  | revokeApply core part slot => exact canonical_execRevokeApply core part slot hs
  | revokeAckCombine part slot => exact canonical_execRevokeAckCombine part slot hs
  | revokeRelease part slot => exact canonical_execRevokeRelease part slot hs
  | revocationSlotFree part slot => exact canonical_execRevocationSlotFree part slot hs
  | ladderCommandStart core cmd => exact canonical_execLadderCommandStart core cmd hs
  | moveTargetCheck w tag => exact canonical_execMoveTargetCheck w tag hs
  | moveCopyComplete w tag => exact canonical_execMoveCopyComplete w tag hs
  | rootOrderEntry part index => exact canonical_execRootOrderEntry part index hs
  | solicitApply core => exact canonical_execSolicitApply core hs
  | directoryCommitApply core => exact canonical_execDirectoryCommitApply core hs
  | responderFailure core slot code => exact canonical_execResponderFailure core slot code hs
  | chanterCombine part place level node => exact canonical_execChanterCombine part place level node hs
  | censusComplete part place => exact canonical_execCensusComplete part place hs
  | fixedResultLatency w => exact canonical_execFixedResultLatency w hs
  | variableResultWrite w tag => exact canonical_execVariableResultWrite w tag hs
  | windowPrefill w => exact canonical_execWindowPrefill w hs
  | wakeConditionMet w => exact canonical_execWakeConditionMet w hs
  | pendingDisplacement core sched => exact canonical_execPendingDisplacement core sched hs
  | translationWalkHoldExpiry w => exact canonical_execTranslationWalkHoldExpiry w hs
  | translationWalkComplete w => exact canonical_execTranslationWalkComplete w hs
  | demandMap w => exact canonical_execDemandMap w hs
  | ringInsertReservation die ring stop part => exact canonical_execRingInsertReservation die ring stop part hs
  | bridgeInsertReservation die ring bridge part => exact canonical_execBridgeInsertReservation die ring bridge part hs
  | saveAheadWriteback core => exact canonical_execSaveAheadWriteback core hs
  | timeSliceExpiry part => exact canonical_execTimeSliceExpiry part hs
  | softPreemptionEvict core wg => exact canonical_execSoftPreemptionEvict core wg hs
  | gracePeriodEnd part => exact canonical_execGracePeriodEnd part hs
  | hardPreemption core => exact canonical_execHardPreemption core hs
  | contextRestore part saved core => exact canonical_execContextRestore part saved core hs
  | lateArrival part saved tag => exact canonical_execLateArrival part saved tag hs
  | dispatchIndex part => exact canonical_execDispatchIndex part hs
  | placerStart cluster => exact canonical_execPlacerStart cluster hs
  | stealRequest cluster => exact canonical_execStealRequest cluster hs
  | queueWriteNotify vf queue write => exact canonical_execQueueWriteNotify vf queue write hs
  | nopPacket vf queue => exact canonical_execNopPacket vf queue hs
  | launch vf queue code => exact canonical_execLaunch vf queue code hs
  | signalPacket vf queue => exact canonical_execSignalPacket vf queue hs
  | waitPacket vf queue => exact canonical_execWaitPacket vf queue hs
  | mapPacket vf queue => exact canonical_execMapPacket vf queue hs
  | unmapPacket vf queue => exact canonical_execUnmapPacket vf queue hs
  | gridComplete part grid => exact canonical_execGridComplete part grid hs
  | chainCopy part chain => exact canonical_execChainCopy part chain hs
  | chainReduce part chain => exact canonical_execChainReduce part chain hs
  | chainAllreduce part chain others => exact canonical_execChainAllreduce part chain others hs
  | chainSignal part chain => exact canonical_execChainSignal part chain hs
  | chainWaitEntry part chain => exact canonical_execChainWaitEntry part chain hs
  | faultDelivery w => exact canonical_execFaultDelivery w hs
  | deferredFaultKnown w tag => exact canonical_execDeferredFaultKnown w tag hs
  | workgroupContainment core wg => exact canonical_execWorkgroupContainment core wg hs
  | faultRecordPost => exact canonical_execFaultRecordPost hs
  | contextKill ctx code => exact canonical_execContextKill ctx code hs
  | partitionContainment part code => exact canonical_execPartitionContainment part code hs
  | partitionReinitialised part => exact canonical_execPartitionReinitialised part hs
  | packageContainment => exact canonical_execPackageContainment hs
  | arrayError unitKind unit array addr corrected => exact canonical_execArrayError unitKind unit array addr corrected hs
  | scrubPatrol sector uncorrectable => exact canonical_execScrubPatrol sector uncorrectable hs
  | quotaIntervalEnd part slice => exact canonical_execQuotaIntervalEnd part slice hs
  | tempReport readings => exact canonical_execTempReport readings hs
  | snapshotTimer part => exact canonical_execSnapshotTimer part hs
  | hostTrigger vf value => exact canonical_execHostTrigger vf value hs
  | registerWrite vf offset value => exact canonical_execRegisterWrite vf offset value hs
  | hostWindowAccess vf bar addr data size => exact canonical_execHostWindowAccess vf bar addr data size hs
  | featAccept r => exact canonical_execFeatAccept r hs
  | queueStop r => exact canonical_execQueueStop r hs
  | queueStart r => exact canonical_execQueueStart r hs
  | queueReset r => exact canonical_execQueueReset r hs
  | faultRead r => exact canonical_execFaultRead r hs
  | quotaRead r => exact canonical_execQuotaRead r hs
  | quotaAnswer r => exact canonical_execQuotaAnswer r hs
  | ctxKill r => exact canonical_execCtxKill r hs
  | chainReg r => exact canonical_execChainReg r hs
  | chainUnreg r => exact canonical_execChainUnreg r hs
  | chainRestart r => exact canonical_execChainRestart r hs
  | chainSkip r => exact canonical_execChainSkip r hs
  | poolSet r => exact canonical_execPoolSet r hs
  | debugAuth r => exact canonical_execDebugAuth r hs
  | snapRead r => exact canonical_execSnapRead r hs
  | tempRead r => exact canonical_execTempRead r hs
  | eventRead r => exact canonical_execEventRead r hs
  | hqWrite r => exact canonical_execHqWrite r hs
  | tenant r => exact canonical_execTenant r hs
  | partConfig r => exact canonical_execPartConfig r hs
  | grantRange r => exact canonical_execGrantRange r hs
  | quotaCtrl r => exact canonical_execQuotaCtrl r hs
  | teleSet r => exact canonical_execTeleSet r hs
  | triggerMask r => exact canonical_execTriggerMask r hs
  | timerTrigger r => exact canonical_execTimerTrigger r hs
  | groupReg r => exact canonical_execGroupReg r hs
  | packageSet r => exact canonical_execPackageSet r hs
  | fwLoad r => exact canonical_execFwLoad r hs
  | fwUpdate r => exact canonical_execFwUpdate r hs
  | pstate r => exact canonical_execPstate r hs
  | duetForm r => exact canonical_execDuetForm r hs
  | getVersion q => exact canonical_execGetVersion q hs
  | getCapabilities q => exact canonical_execGetCapabilities q hs
  | negotiateAlgorithms q => exact canonical_execNegotiateAlgorithms q hs
  | getDigests q => exact canonical_execGetDigests q hs
  | getCertificate q => exact canonical_execGetCertificate q hs
  | challenge q => exact canonical_execChallenge q hs
  | getMeasurements q => exact canonical_execGetMeasurements q hs
  | keyExchange q => exact canonical_execKeyExchange q hs
  | finish q => exact canonical_execFinish q hs
  | endSession q => exact canonical_execEndSession q hs
  | debugAttach vf session => exact canonical_execDebugAttach vf session hs
  | debugStop vf target => exact canonical_execDebugStop vf target hs
  | debugStateAccess vf w write item value => exact canonical_execDebugStateAccess vf w write item value hs
  | debugResume vf w => exact canonical_execDebugResume vf w hs
  | powerOn okA okB => exact canonical_execPowerOn okA okB hs
  | heartbeat missed => exact canonical_execHeartbeat missed hs
  | firmwareFailover => exact canonical_execFirmwareFailover hs
  | standbyFailure => exact canonical_execStandbyFailure hs
  | flitReceive port seq crcOk => exact canonical_execFlitReceive port seq crcOk hs
  | replayTimeout port => exact canonical_execReplayTimeout port hs
  | portDown port => exact canonical_execPortDown port hs
  | remoteRequestTimeout w tag => exact canonical_execRemoteRequestTimeout w tag hs
  | duetWindowClose part => exact canonical_execDuetWindowClose part hs
  | duetDigestReceived part digest => exact canonical_execDuetDigestReceived part digest hs
  | atomicAtHome w tag => exact canonical_execAtomicAtHome w tag hs
  | encodingNotInstruction word => exact canonical_execEncodingNotInstruction word hs
  | snapshotWindowRead vf offset size => exact canonical_execSnapshotWindowRead vf offset size hs

/-! ### Machine/Step -/

theorem canonical_issueNext {s : State} (id : WaveId) (hs : Canonical s) : ∀ t, issueNext s id = .next t → Canonical t := by
  grind [issueNext, canonical_windowStart, canonical_stall, canonical_prefill, canonical_fetchHead, canonical_fetchFault, canonical_exec,
    canonical_encodingFault, canonical_iff]

theorem canonical_step {s : State} (hs : Canonical s) : ∀ t, step s = .next t → Canonical t := by
  unfold step
  split
  · exact canonical_exec _ ⟨hs.wf⟩
  · split
    · exact canonical_issueNext _ hs
    · exact canonical_next (canonical_endCycle hs)

/-- Settles O59: every step keeps the form, as every function that a step calls does. -/
theorem memoryStaysCanonical : Obligations.MemoryStaysCanonical :=
  fun _ t hs ht => (canonical_step ⟨hs⟩ t ht).wf

end Sys2Proof.Laws
end
